-- ==== Sys2Proof/Word.lean ====
section
/-!
DEFINITION. Word.lean: the word types of the SKV-9640 model and the finite ranges of its unit numbers (R11 to R13).
-/
namespace Sys2Proof

/-- One byte. -/
abbrev Byte := BitVec 8
/-- A 16-bit word. -/
abbrev W16 := BitVec 16
/-- A 32-bit word. -/
abbrev W32 := BitVec 32
/-- A 64-bit word: an instruction word, a general register, a 64-bit register of control space. -/
abbrev W64 := BitVec 64
/-- A 128-bit word: an IPv6 address, an AES block, a seed. -/
abbrev W128 := BitVec 128
/-- A 256-bit word: a key or a digest. -/
abbrev W256 := BitVec 256
/-- A byte string, in the order it is carried (R3). -/
abbrev Bytes := List Byte

/-- Region number (R11). -/
abbrev RegionId := Fin 8
/-- Global engine context, 0-2,047 request and 2,048-2,079 management (R11). -/
abbrev CtxId := Fin 2080
/-- Global engine, 0-255 request and 256-259 management (R11). -/
abbrev EngineId := Fin 260
/-- Global engine cluster 0-63; 64-67 stand for the blocks of management engines 0-3 (R11, R63, R75). -/
abbrev ClusterId := Fin 68
/-- Global MAC instance 0-63; 64 stands for the management MAC of chip block 13 (R11, R284). -/
abbrev MacId := Fin 65
/-- Global associative bank (R11). -/
abbrev BankId := Fin 32
/-- Global cipher and hash lane pair (R11). -/
abbrev LaneId := Fin 64
/-- Global DDR5 channel (R11). -/
abbrev DdrId := Fin 24
/-- Global NAND die queue number (R11). -/
abbrev DieId := Fin 2048
/-- Service class (R250). -/
abbrev ClassId := Fin 8
/-- PF0 queue identifier (R322). -/
abbrev QueueId := Fin 4096
/-- Front of a region: region x 7 + front, fronts numbered as in Machine/Media (R202). -/
abbrev FrontId := Fin 56
/-- Physical function of the endpoint that makes an access (R315). -/
abbrev FuncId := Fin 2

end Sys2Proof
end

