-- ==== Sys2Proof/Syntax.lean ====
section
/-!
DEFINITION. Syntax.lean: the commands of the block, one constructor per row of spec/opcode_table.json, with what comes
from outside the device as operands. What the device already holds (a coach's instruction word, a queued frame, a
register) is no operand.
-/
namespace Sys2Proof

/-! ## What the media, the network and the host give -/

/-- What reading one record back gives, after the decoder and the read retries of R213: the bytes as written, bytes
that decode but differ (the mask is XORed into the payload), or sectors of the record, counted from 0, that cannot be
decoded. -/
inductive ReadBack where
  | good
  | corrupt (mask : Bytes)
  | uncorrectable (sectors : List Nat)
  deriving DecidableEq, Repr

/-- What the media gives to an instruction: for the header reads of R126 and R142, in the order they are made, and for
the records it reads whole, by segment. An entry past the end of a list reads good. The value cache of a region holds
what the device chooses to keep there (R122): `keep` says that it keeps a copy of the record that is read now, `evict`
which copies leave. -/
structure ReadEnv where
  headers : List ReadBack := []
  bodies  : List ReadBack := []
  keep    : Bool := false
  evict   : List Nat := []
  deriving DecidableEq, Repr

/-- What the media gives while a response leaves: `part` is how many segments are read while the response goes on, none where
the rest of it leaves (R74). -/
structure StreamEnv extends ReadEnv where
  part : Option Nat := none
  deriving DecidableEq, Repr

/-- A context and the CCLK periods that its coach has run since dispatch (R28, R45). -/
structure Expiry where
  ctx : CtxId
  cclk : Nat
  deriving DecidableEq, Repr

/-- The requester of a control-space access (R29, R364). -/
inductive Requester where
  /-- PF0 through its BAR0/1. -/
  | pf0
  /-- PF1 through its BAR0/1. -/
  | pf1
  /-- A privileged coach on management engine `e`. -/
  | engine (e : Fin 4)
  /-- Management firmware itself. -/
  | firmware
  deriving DecidableEq, Repr

/-- A VLAN tag (R264, R267). -/
structure VlanTag where
  pcp : BitVec 3
  vid : BitVec 12
  deriving DecidableEq, Repr

/-- What the UDP checksum field of a received frame shows (check 9 of R265). -/
inductive Checksum where
  | right
  | wrong
  | zero
  deriving DecidableEq, Repr

/-- A received TCP segment, as far as a RST that answers it needs it (R268): `length` counts its data bytes. -/
structure TcpSegment where
  srcPort : W16 := 0
  dstPort : W16 := 0
  seq : W32 := 0
  ack : W32 := 0
  ackSet : Bool := false
  rst : Bool := false
  syn : Bool := false
  fin : Bool := false
  length : Nat := 0
  deriving DecidableEq, Repr

/-- The transport part of a received IP packet; `rest` is what follows the checksum of an echo request. -/
inductive Layer4 where
  | udp (srcPort dstPort : W16) (sum : Checksum) (payload : Bytes)
  | tcp (segment : TcpSegment) (sum : Checksum)
  | echoRequest (rest : Bytes) (sum : Checksum)
  | neighbourSolicit (target : W128) (sum : Checksum)
  | otherIcmp (sum : Checksum)
  | otherProtocol
  deriving DecidableEq, Repr

/-- The payload of a received Ethernet frame. An IPv4 address is held as its IPv4-mapped IPv6 address (R150). -/
inductive Layer3 where
  /-- MAC control frame, Ethertype 0x8808: the opcode, the class-enable vector and the times of R274, R275. -/
  | macControl (opcode : W16) (enables : Byte) (times : List W16)
  /-- ARP: is it a request, from and for which IPv4 address (R268). -/
  | arp (request : Bool) (sender target : W32)
  /-- PTP over Ethertype 0x88F7: is it an event message (R278). -/
  | ptp (event : Bool) (message : Bytes)
  /-- IPv4 or IPv6: does the header pass the structural part of check 7 of R265, is its header checksum right. -/
  | ip (v6 : Bool) (headerOk headerSumOk : Bool) (src dst : W128) (body : Layer4)
  /-- Any other Ethertype. -/
  | other (ethertype : W16)
  deriving DecidableEq, Repr

/-- A frame as it arrives at a MAC (R264, R265). -/
structure Frame where
  dst    : BitVec 48
  tag    : Option VlanTag
  length : Nat
  fcsOk  : Bool
  /-- FEC codewords of the frame that were corrected, and that could not be. -/
  fecCorr : Nat
  fecBad : Nat
  body   : Layer3
  /-- Source address. -/
  src    : BitVec 48 := 0
  deriving DecidableEq, Repr

/-- A PTP event message that management firmware hands to a MAC (R278). -/
structure FirmwareFrame where
  oneStep : Bool
  tag : W16
  /-- Ethertype 0x88F7 rather than UDP port 319. -/
  l2 : Bool
  message : Bytes
  /-- Where it goes, and how it is tagged. -/
  dstMac : BitVec 48 := 0
  dst : W128 := 0
  vlan : Option VlanTag := none
  deriving DecidableEq, Repr

/-- What reading the log blocks gives (R427): copies whose read fails, as entry and mirror, and sequence numbers whose
slot is bad in both copies. -/
structure LogReadEnv where
  deadCopies : List (Nat × Bool) := []
  badSeqs : List Nat := []
  deriving DecidableEq, Repr

/-- What ends a data link (R283). -/
inductive LinkDownCause where
  | lossOfSignal | blockLock | localFault | remoteFault | disabled | failSafe | negotiation
  deriving DecidableEq, Repr

/-- What a completer answers to a DMA read or a translation request (R329, R338). -/
inductive DmaAnswer where
  | data (bytes : Bytes)
  | unsupported
  | completerAbort
  | poisoned
  | translated (address : W64)
  | translationDenied
  deriving DecidableEq, Repr

/-- How the peer ends a PCIe link (R352). -/
inductive PcieDownCause where
  | hotReset | surpriseDown
  deriving DecidableEq, Repr

/-- A fault that a search of the array meets (R157). -/
inductive ArrayFault where
  | none
  /-- The array reports `row` with match data `seen`, which the shadow does not match. -/
  | falseHit (row : Nat) (seen : W64)
  | parity (row unit : Nat)
  /-- A shadow word that ECC could not correct. -/
  | shadowUncorrectable (row : Nat)
  deriving DecidableEq, Repr

/-- An upset that strikes a bank of the associative engine (R157, R159): bits of the array copy of a row, 82 for each of its
units (80 of match data, the valid bit, the parity bit), or more than ECC corrects in the shadow word of a row. -/
inductive Upset where
  | flip (row mask : Nat)
  | shadow (row : Nat)
  deriving DecidableEq, Repr

/-- A detector of R376. -/
inductive AlarmKind where
  | supply | clockMonitor | temperature | glitch | entropy
  deriving DecidableEq, Repr

/-- A block that its own level cannot repair, other than those with a row of their own (R16). -/
inductive UnrepairableBlock where
  | nandChannel (channel : Fin 16)
  | mac (mac : Fin 8)
  | recorder
  deriving DecidableEq, Repr

/-- What a bad read-back finds in one record (R226), or a bad sector at verification (R208): the first-sector address. -/
abbrev BadRecords := List Nat

/-- What the CRC checks, the geometry copies and the keystones of one region give at step 6 (R194, R197, R223): `torn` are the
numbers of keystones that fail their check, one whose write a power loss cut among them. -/
structure KeystoneRead where
  copyAGood : Bool := true
  copyBGood : Bool := true
  torn : List Nat := []
  deriving DecidableEq, Repr

/-- How a keystone write goes: the block fails to program once, or again after its erase (R222). -/
inductive KeystoneFate where
  | good | retried | failed
  deriving DecidableEq, Repr

/-- How the last steps of a region fence go (R17). -/
structure FenceEnd where
  stepsOk : Bool := true
  keystone : KeystoneFate := .good
  deriving DecidableEq, Repr

/-- What the media gives to a replay: the unverified records whose read-back fails, the blocks, as the block table numbers them,
whose contents show a failure (true where it is an erase that failed), and how the keystone of each region is written (R225, R226,
R222). -/
structure ReplayRead where
  bad : BadRecords := []
  failedBlocks : List (Nat × Bool) := []
  keystones : List KeystoneFate := []
  deriving DecidableEq, Repr

/-- What becomes of a sector that is read (R213): decoded, perhaps after read retries; rebuilt from mortar; or neither. -/
inductive SectorResult where
  | good | rebuilt | failed
  deriving DecidableEq, Repr

/-- What reading one page group gives to patrol: the sectors that had to be rebuilt from mortar, and those that could be neither
decoded nor rebuilt (R213, R215). -/
structure PageFound where
  rebuilt : List Nat := []
  lost : List Nat := []
  deriving DecidableEq, Repr

/-- What step 1 samples (R381, R445, R450, 15). -/
structure RomResult where
  pllLocked  : Bool := true
  selfTestOk : Bool := true
  smbAddrHigh : Bool := false
  pwrfailLow : Bool := false
  testEnHigh : Bool := false
  entropyOk  : Bool := true
  /-- Lowest supply in mV and highest temperature in m degrees C, for the alarm record. -/
  lowestMv   : W64 := 0
  highestMc  : W64 := 0
  ms         : W32 := 0
  deriving DecidableEq, Repr

/-! ## The commands -/

/-- The commands of the block: one constructor per row of the table, in the table's order. -/
inductive Instr where
  -- Start-up and reset (13, 15)
  | powerOnResetRelease
  | startRom (r : RomResult)
  | startNor (ms : W32)
  | startManagementFirmware (selfCheckOk : Bool) (ms : W32)
  | startDramTraining (trained : BitVec 24) (ms : W32)
  | startMicrocodeLoad (failedClusters : BitVec 64) (failedRows : List (BankId × Nat)) (ms : W32)
  | startKeystoneRead (copies : List KeystoneRead) (ms : W32)
  | startIndexLoad (sealsBad : BitVec 8) (bothBad : BitVec 8) (log : LogReadEnv) (ms : W32)
  | startReplay (found : ReplayRead) (ms : W32)
  | startWakePatrolScheduling (ms : W32)
  | startServiceOpen (ms : W32)
  | resetAssert
  | deferredReset
  | perstAssert
  | perstRelease
  -- Power failure (08, 07)
  | pwrfailAsserted
  | pwrfailPulseIgnored (ns : W64)
  | pwrfailDeassertAtStart
  | pwrfailPfcRepeat
  | emissionCutoff
  | flushProgramStart
  | bufferDrained (us : W64)
  | flushComplete
  -- Faults (12, 14, 01)
  | alarmTrip (kind : AlarmKind) (lowestMv highestMc : W64)
  | rootPllLockLoss
  | crossbarCoreFailure (port : Fin 10)
  | mgmtHeartbeatTimeout
  | chipStateUncorrectable (block : Fin 16)
  | finalLogWrite (primaryOk mirrorOk : Bool)
  | sensorFault (region : RegionId)
  | dramSymbolsCorrected (channel : DdrId) (dimm : Fin 2) (rank : Fin 4) (subchannel : Fin 2) (device : Fin 10)
  | dramUncorrectable (channel : DdrId) (dimm : Fin 2) (rank : Fin 4) (subchannel : Fin 2) (lost : BadRecords)
  | flitCrcError (src dst : Fin 10) (retries : Fin 4) (recovered : Bool)
  | laneSelfcheckFailure (lane : LaneId)
  | contextNoRetireTimeout (ctx : CtxId)
  | contextReturnToService (ctx : CtxId)
  | controlStoreParityError (engine : EngineId) (address : BitVec 13) (goldenOk : Bool)
  | stackFault (engine : EngineId) (address : BitVec 13)
  | storeReloadComplete (engine : EngineId)
  | regionFenceComplete (region : RegionId) (stepsOk : FenceEnd)
  | dieFailed (die : DieId)
  | managementTick (temperatures : List Int)
  -- Network ports (09)
  | frameReceive (mac : MacId) (frame : Frame)
  | pfcRefresh (mac : MacId) (cls : ClassId)
  | pfcXonRelease (mac : MacId) (cls : ClassId)
  | pfcTimerExpiry (mac : MacId) (queue : Option ClassId)
  | priorityHeld100ms (mac : MacId) (queue : Option ClassId)
  | frameTransmit (mac : MacId) (cls : ClassId) (fw : Option FirmwareFrame)
  | linkUp (mac : MacId)
  | linkDown (mac : MacId) (cause : LinkDownCause)
  | macEnable (mac : MacId) (by_ : Requester) (value : W32)
  | macDisable (mac : MacId) (by_ : Requester) (value : W32)
  | macTsPop (mac : MacId) (by_ : Requester)
  | ptpTimeRead (by_ : Requester)
  | ptpSet (by_ : Requester) (value : W64)
  | ptpAdjStep (by_ : Requester) (step : W32)
  | ppsOutPulse
  | ppsInEdge (falling : Bool)
  -- The Jenloth protocol (10)
  | jenlothOpen (mac : MacId)
  | jenlothClose (mac : MacId)
  | jenlothPing (mac : MacId)
  | jenlothAbort (mac : MacId)
  | jenlothRequest (mac : MacId)
  | jenlothAnnounce (mac : MacId)
  | reassemblyTimeout (session : Nat) (seq : W32)
  | gapPassed (session : Nat)
  | sessionIdleExpiry (session : Nat)
  | announceSend (mac : MacId)
  | partnerExpiry (entry : Fin 4096)
  -- Coaches (02)
  | coachAdmission (coach : Nat)
  | coachDispatch (coach : Nat)
  | nop (ctx : CtxId)
  | movi (ctx : CtxId)
  | mov (ctx : CtxId)
  | add (ctx : CtxId)
  | sub (ctx : CtxId)
  | and (ctx : CtxId)
  | or (ctx : CtxId)
  | xor (ctx : CtxId)
  | shl (ctx : CtxId)
  | shr (ctx : CtxId)
  | cmp (ctx : CtxId)
  | br (ctx : CtxId)
  | brc (ctx : CtxId)
  | loop (ctx : CtxId)
  | end_ (ctx : CtxId)
  | stepLimitReached (ctx : CtxId)
  | executionTimeout (ctx : Expiry)
  | key (ctx : CtxId)
  | nsp (ctx : CtxId)
  | get (ctx : CtxId) (rd : ReadEnv)
  | getr (ctx : CtxId) (rd : ReadEnv)
  | head (ctx : CtxId) (rd : ReadEnv)
  | put (ctx : CtxId) (rd : ReadEnv)
  | append (ctx : CtxId) (rd : ReadEnv)
  | del (ctx : CtxId) (rd : ReadEnv)
  | cas (ctx : CtxId) (rd : ReadEnv)
  | lock (ctx : CtxId)
  | lockWaiterResume (ctx : CtxId) (rd : ReadEnv)
  | commit (ctx : CtxId)
  | abort (ctx : CtxId)
  | token (ctx : CtxId) (rd : ReadEnv)
  | usetok (ctx : CtxId) (rd : ReadEnv)
  | iter (ctx : CtxId) (rd : ReadEnv)
  | export_ (ctx : CtxId) (rd : ReadEnv)
  | import_ (ctx : CtxId) (rd : ReadEnv)
  | hash (ctx : CtxId)
  | verify (ctx : CtxId) (rd : ReadEnv)
  | resp (ctx : CtxId)
  | status (ctx : CtxId)
  | subRequestAnswer (ctx : CtxId) (rd : ReadEnv)
  -- Privileged instructions (03 R108 and the owning chapters)
  | mrd (ctx : CtxId)
  | mwr (ctx : CtxId)
  | evrd (ctx : CtxId) (log : LogReadEnv)
  | ctrd (ctx : CtxId)
  | kslotLoad (ctx : CtxId)
  | kslotEnrolOwner (ctx : CtxId)
  | kslotClear (ctx : CtxId)
  | kslotClearOwner (ctx : CtxId)
  | kslotRekey (ctx : CtxId)
  | kslotComplete (ctx : CtxId)
  | rekeyRecordCopy (region : RegionId) (address : Nat) (rd : ReadBack)
  | rekeyWalkDone
  | nsdefCreate (ctx : CtxId)
  | nsdefModify (ctx : CtxId)
  | nsdefRemove (ctx : CtxId)
  | nsdefComplete (ctx : CtxId)
  | namespaceRemovalWalk (region : RegionId) (nsid : W16)
  | namespaceFree (nsid : W16)
  | tokenGenerationWrap (nsid : W16)
  | fmt (ctx : CtxId)
  | fmtComplete
  | migOpen (ctx : CtxId)
  | migClose (ctx : CtxId)
  | time (ctx : CtxId)
  | fwstage (ctx : CtxId) (norOk : Bool)
  | stagedImageCheckDone
  | stagingIdleTimeout
  | fwcommit (ctx : CtxId)
  | trialExpiry
  | selfReset
  | settingsCommit (by_ : Requester)
  | settingsCommitDone (norOk : Bool)
  | camopReadRow (ctx : CtxId)
  | camopWriteRow (ctx : CtxId)
  | camopClearRow (ctx : CtxId)
  | camopSearch (ctx : CtxId) (upsets : List Upset)
  | camopNext (ctx : CtxId) (upsets : List Upset)
  | camopScrubBank (ctx : CtxId)
  | camopScrubPassEnd (ctx : CtxId) (upsets : List Upset)
  -- The associative engine (05)
  | assocSearch (bank : BankId) (key : BitVec 160) (cls : Option ClassId) (upsets : List Upset)
  | scrubberRowCheck (bank : BankId) (row : Nat) (upsets : List Upset)
  -- Media management (07)
  | pageReadComplete (die : DieId) (plane : Fin 4) (block page : Nat) (sector : Fin 16) (retried : Bool)
      (iterations : Nat) (decoded : SectorResult) (cls : ClassId)
  | programEraseResume (die : DieId)
  | suspendLimitExpiry (die : DieId)
  | stripeOpen (front : FrontId)
  | blockEraseComplete (front : FrontId) (channel : Fin 16) (ok : Bool)
  | unitProgramComplete (front : FrontId) (position : Nat) (channel : Fin 16) (ok : Bool)
  | courseVerified (front : FrontId) (position : Nat) (badChannels : BitVec 16)
  | padIdleTimeout (front : FrontId)
  | padHeldTimeout (front : FrontId)
  | frontIdlePad (front : FrontId)
  | dieDrainDone (die : DieId)
  | patrolVisit (region : RegionId) (stripe : Nat) (channel : Fin 16) (found : List PageFound) (hard : Bool)
  | gcVictimSelect (region : RegionId)
  | relocationRecordCopy (region : RegionId) (address : Nat) (rd : ReadBack)
  | relocatedStripeErase (region : RegionId) (stripe : Nat) (failed : BitVec 16)
  | sealStart (region : RegionId)
  | sealDurable (region : RegionId) (keystoneOk retryOk : Bool)
  | responseEmission (coach : Nat) (rd : StreamEnv) (latencyNs : W64)
  -- The PCI Express endpoint (11)
  | sqTailDoorbell (q : QueueId) (value : W32)
  | cqHeadDoorbell (q : QueueId) (value : W32)
  | sqEntryFetch (q : QueueId)
  | dmaReadCompletion (tag : Nat) (answer : DmaAnswer)
  | completionTimeout (tag : Nat)
  | lateCompletion (tag : Nat) (byteCount : Nat)
  | tagQuarantineExpiry (tag : Nat)
  | queueCreate (by_ : FuncId)
  | queueDelete (by_ : FuncId)
  | queueDeleteDone
  | queueAbort (by_ : FuncId) (cid : W16)
  | queueResultAck (by_ : FuncId)
  | mboxDoorbell
  | mboxAck
  | pwCommit
  | atsInvalidateRequest (first last : W64)
  | atsInvalidateDone
  | flrPf0
  | flrPf1
  | hotReset (cause : PcieDownCause)
  | pcieLinkUp (gen : Fin 7) (width : Fin 17) (flit : Bool)
  | l0sEntry
  | l1Entry
  | clkreqRelease
  | powerStateIdleTimeout
  | d3hotEntry (fn : FuncId)
  | d0Return (fn : FuncId)
  -- Keys, events, registers (12, 14, 00)
  | unwrapLockAcquire (by_ : Requester)
  | unwrapLockRelease (by_ : Requester)
  | unwrapLockTimeout
  | drbgReseed (ok : Bool) (lowestMv highestMc : W64)
  | coalescingWindowClose (region : Fin 9) (block : Fin 64)
  | eventFile (recorder : Fin 9)
  | recordsLostInsert (recorder : Fin 9)
  | logPageProgram (primaryOk mirrorOk erasePrimaryOk eraseMirrorOk : Bool)
  | evtNotifyPendingClear (by_ : Requester)
  | genericRegisterWrite (by_ : Requester) (address : Nat) (wide : Bool) (value : Option W64)
  | powerRemoval
  | sensorRecovery (region : RegionId)
  | uncorrectableContextState (ctx : CtxId)
  | blockCannotBeRepaired (region : RegionId) (block : UnrepairableBlock)
  | mctpMessage (message : Bytes)
  | peerWindowAccess (write : Bool) (offset length : Nat) (bytes : Bytes)
  | unsupportedRequest (posted : Bool)
  | configurationRequest (fn : FuncId) (write : Bool) (offset : Nat) (enables : BitVec 4) (value : W32)
  | msixVectorUnmask (fn : FuncId) (vector : Option Nat)
  | linkStateExit
  deriving DecidableEq, Repr

end Sys2Proof
end

