-- ==== Sys2Proof/Machine/Bytes.lean ====
section
/-!
DEFINITION. Machine/Bytes.lean: byte strings and numbers (R3: little-endian in control space, PCIe, media and events,
big-endian in Jenloth), bit fields, saturating counters (R10).
-/
namespace Sys2Proof.Machine

/-- The number a little-endian byte string spells. -/
def leNat : Bytes → Nat
  | [] => 0
  | b :: bs => b.toNat + 256 * leNat bs

/-- The `n` low bytes of a number, little-endian. -/
def leBytes : Nat → Nat → Bytes
  | 0, _ => []
  | n + 1, v => BitVec.ofNat 8 v :: leBytes n (v / 256)

/-- The number a big-endian byte string spells. -/
def beNat (bs : Bytes) : Nat := bs.foldl (fun acc b => acc * 256 + b.toNat) 0

/-- The `n` low bytes of a number, big-endian. -/
def beBytes (n v : Nat) : Bytes := (leBytes n v).reverse

/-- `n` zero bytes. -/
def zeros (n : Nat) : Bytes := List.replicate n 0

/-- The string cut or filled with zeros to `n` bytes. -/
def padTo (n : Nat) (bs : Bytes) : Bytes := (bs ++ zeros (n - bs.length)).take n

/-- Bytes [off, off + len) of a string (the caller has checked the range). -/
def slice (bs : Bytes) (off len : Nat) : Bytes := (bs.drop off).take len

/-- Are bytes [off, off + len) zero (past the end counts as zero)? -/
def zeroRange (bs : Bytes) (off len : Nat) : Bool := (slice bs off len).all (· == 0)

/-- Little-endian field of `len` bytes at `off`. -/
def leAt (bs : Bytes) (off len : Nat) : Nat := leNat (slice bs off len)

/-- Big-endian field of `len` bytes at `off`. -/
def beAt (bs : Bytes) (off len : Nat) : Nat := beNat (slice bs off len)

/-- Exclusive or of two strings over the length of the first; a short mask counts as zeros. -/
def xorMask : Bytes → Bytes → Bytes
  | [], _ => []
  | b :: bs, [] => b :: bs
  | b :: bs, m :: ms => (b ^^^ m) :: xorMask bs ms

/-- ASCII text as bytes. -/
def ascii (t : String) : Bytes := t.toList.map fun c => BitVec.ofNat 8 c.toNat

/-- Bits [lo + width - 1 : lo] of a number. -/
def bits (v lo width : Nat) : Nat := v / 2 ^ lo % 2 ^ width

/-- Bit `i` of a number. -/
def bit (v i : Nat) : Bool := v / 2 ^ i % 2 == 1

/-- A flag as a number. -/
def b2n (b : Bool) : Nat := if b then 1 else 0

/-- A 64-bit counter of control space or of the lifetime statistics (R10). -/
abbrev Counter := Nat

/-- The value at which a lifetime counter stays (R10). -/
def counterMax : Nat := 2 ^ 64 - 1

/-- Add to a counter; it saturates (R10). -/
def satAdd (c n : Nat) : Counter := min (c + n) counterMax

/-- Add one to a counter. -/
def bump (c : Nat) : Counter := satAdd c 1

/-- Round up to a whole number of units. -/
def ceilDiv (a b : Nat) : Nat := (a + b - 1) / b

/-- The bits of `v` replaced by those of `w` where the mask is 1. -/
def merge (mask v w : Nat) : Nat := (v - (v &&& mask)) + (w &&& mask)

/-- Set or clear bit `i` of a bit vector. -/
def setBit {n : Nat} (v : BitVec n) (i : Nat) (b : Bool) : BitVec n :=
  if b then v ||| (BitVec.ofNat n 1 <<< i) else v &&& ~~~(BitVec.ofNat n 1 <<< i)

/-- The numbers 0 to n - 1 for which a predicate holds, lowest first. -/
def findNat (n : Nat) (p : Nat → Bool) : Option Nat := (List.range n).find? p

/-- Split a byte string into blocks of `n`; the last may be short. -/
def chunks (n : Nat) (bs : Bytes) : List Bytes :=
  (List.range (ceilDiv bs.length n)).map fun i => slice bs (n * i) n

end Sys2Proof.Machine
end

