-- ==== Sys2Proof/Machine/Digest.lean ====
section
/-!
DEFINITION. Machine/Digest.lean: the check codes and digests the spec names: CRC-32 of IEEE 802.3 (R269), CRC-32C (R373),
CRC-64 (R300), SHA-256 (R373, FIPS 180-4), SHA-384 (R387), SipHash-2-4 (R120).
-/
namespace Sys2Proof.Machine

/-! ## Reflected CRCs -/

/-- Eight steps of a reflected CRC register. -/
def crcByte (poly : Nat) : Nat → Nat → Nat
  | 0, r => r
  | k + 1, r => crcByte poly k (if r % 2 = 1 then (r / 2) ^^^ poly else r / 2)

/-- A reflected CRC of `width` bits with initial value and final exclusive or of all ones. -/
def crcReflected (width poly : Nat) (bs : Bytes) : Nat :=
  let ones := 2 ^ width - 1
  (bs.foldl (fun r b => crcByte poly 8 (r ^^^ b.toNat)) ones) ^^^ ones

/-- The CRC-32 of the IEEE 802.3 frame check sequence (R269). -/
def crc32 (bs : Bytes) : Nat := crcReflected 32 0xEDB88320 bs

/-- CRC-32C (R373). -/
def crc32c (bs : Bytes) : Nat := crcReflected 32 0x82F63B78 bs

/-- The bits of a number reversed over `width` places. -/
def reverseBits : Nat → Nat → Nat
  | 0, _ => 0
  | k + 1, v => (v % 2) * 2 ^ k + reverseBits k (v / 2)

/-- The reflected CRC-64 of the trailer, from the polynomial 0x42F0_E1EB_A9EA_3693 (R300). -/
def crc64 (bs : Bytes) : Nat := crcReflected 64 (reverseBits 64 0x42F0E1EBA9EA3693) bs

/-! ## SHA-256 and SHA-384 (FIPS 180-4) -/

/-- The 64 round constants of SHA-256. -/
def sha256K : List Nat :=
  [0x428a2f98, 0x71374491, 0xb5c0fbcf, 0xe9b5dba5, 0x3956c25b, 0x59f111f1, 0x923f82a4, 0xab1c5ed5] ++
  [0xd807aa98, 0x12835b01, 0x243185be, 0x550c7dc3, 0x72be5d74, 0x80deb1fe, 0x9bdc06a7, 0xc19bf174] ++
  [0xe49b69c1, 0xefbe4786, 0xfc19dc6, 0x240ca1cc, 0x2de92c6f, 0x4a7484aa, 0x5cb0a9dc, 0x76f988da] ++
  [0x983e5152, 0xa831c66d, 0xb00327c8, 0xbf597fc7, 0xc6e00bf3, 0xd5a79147, 0x6ca6351, 0x14292967] ++
  [0x27b70a85, 0x2e1b2138, 0x4d2c6dfc, 0x53380d13, 0x650a7354, 0x766a0abb, 0x81c2c92e, 0x92722c85] ++
  [0xa2bfe8a1, 0xa81a664b, 0xc24b8b70, 0xc76c51a3, 0xd192e819, 0xd6990624, 0xf40e3585, 0x106aa070] ++
  [0x19a4c116, 0x1e376c08, 0x2748774c, 0x34b0bcb5, 0x391c0cb3, 0x4ed8aa4a, 0x5b9cca4f, 0x682e6ff3] ++
  [0x748f82ee, 0x78a5636f, 0x84c87814, 0x8cc70208, 0x90befffa, 0xa4506ceb, 0xbef9a3f7, 0xc67178f2]
/-- The initial hash value of SHA-256. -/
def sha256H : List Nat :=
  [0x6a09e667, 0xbb67ae85, 0x3c6ef372, 0xa54ff53a, 0x510e527f, 0x9b05688c, 0x1f83d9ab, 0x5be0cd19]
/-- The 80 round constants of SHA-384. -/
def sha512K : List Nat :=
  [0x428a2f98d728ae22, 0x7137449123ef65cd, 0xb5c0fbcfec4d3b2f, 0xe9b5dba58189dbbc] ++
  [0x3956c25bf348b538, 0x59f111f1b605d019, 0x923f82a4af194f9b, 0xab1c5ed5da6d8118] ++
  [0xd807aa98a3030242, 0x12835b0145706fbe, 0x243185be4ee4b28c, 0x550c7dc3d5ffb4e2] ++
  [0x72be5d74f27b896f, 0x80deb1fe3b1696b1, 0x9bdc06a725c71235, 0xc19bf174cf692694] ++
  [0xe49b69c19ef14ad2, 0xefbe4786384f25e3, 0xfc19dc68b8cd5b5, 0x240ca1cc77ac9c65] ++
  [0x2de92c6f592b0275, 0x4a7484aa6ea6e483, 0x5cb0a9dcbd41fbd4, 0x76f988da831153b5] ++
  [0x983e5152ee66dfab, 0xa831c66d2db43210, 0xb00327c898fb213f, 0xbf597fc7beef0ee4] ++
  [0xc6e00bf33da88fc2, 0xd5a79147930aa725, 0x6ca6351e003826f, 0x142929670a0e6e70] ++
  [0x27b70a8546d22ffc, 0x2e1b21385c26c926, 0x4d2c6dfc5ac42aed, 0x53380d139d95b3df] ++
  [0x650a73548baf63de, 0x766a0abb3c77b2a8, 0x81c2c92e47edaee6, 0x92722c851482353b] ++
  [0xa2bfe8a14cf10364, 0xa81a664bbc423001, 0xc24b8b70d0f89791, 0xc76c51a30654be30] ++
  [0xd192e819d6ef5218, 0xd69906245565a910, 0xf40e35855771202a, 0x106aa07032bbd1b8] ++
  [0x19a4c116b8d2d0c8, 0x1e376c085141ab53, 0x2748774cdf8eeb99, 0x34b0bcb5e19b48a8] ++
  [0x391c0cb3c5c95a63, 0x4ed8aa4ae3418acb, 0x5b9cca4f7763e373, 0x682e6ff3d6b2b8a3] ++
  [0x748f82ee5defb2fc, 0x78a5636f43172f60, 0x84c87814a1f0ab72, 0x8cc702081a6439ec] ++
  [0x90befffa23631e28, 0xa4506cebde82bde9, 0xbef9a3f7b2c67915, 0xc67178f2e372532b] ++
  [0xca273eceea26619c, 0xd186b8c721c0c207, 0xeada7dd6cde0eb1e, 0xf57d4f7fee6ed178] ++
  [0x6f067aa72176fba, 0xa637dc5a2c898a6, 0x113f9804bef90dae, 0x1b710b35131c471b] ++
  [0x28db77f523047d84, 0x32caab7b40c72493, 0x3c9ebe0a15c9bebc, 0x431d67c49c100d4c] ++
  [0x4cc5d4becb3e42b6, 0x597f299cfc657e2a, 0x5fcb6fab3ad6faec, 0x6c44198c4a475817]
/-- The initial hash value of SHA-384. -/
def sha384H : List Nat :=
  [0xcbbb9d5dc1059ed8, 0x629a292a367cd507, 0x9159015a3070dd17, 0x152fecd8f70e5939] ++
  [0x67332667ffc00b31, 0x8eb44a8768581511, 0xdb0c2e0d64f98fa7, 0x47b5481dbefa4fa4]

/-- The numbers that tell the two digests apart: word width, rounds, and the rotation counts of FIPS 180-4. -/
structure ShaKind where
  width : Nat
  consts : List Nat
  big0 : Nat × Nat × Nat
  big1 : Nat × Nat × Nat
  small0 : Nat × Nat × Nat
  small1 : Nat × Nat × Nat

/-- SHA-256. -/
def ShaKind.sha256 : ShaKind := ⟨32, sha256K, (2, 13, 22), (6, 11, 25), (7, 18, 3), (17, 19, 10)⟩
/-- SHA-384. -/
def ShaKind.sha384 : ShaKind := ⟨64, sha512K, (28, 34, 39), (14, 18, 41), (1, 8, 7), (19, 61, 6)⟩

/-- Rotate right within a word of `w` bits. -/
def rotr (w x n : Nat) : Nat := (x / 2 ^ n) ||| (x % 2 ^ n * 2 ^ (w - n))

/-- The sigma functions: three rotations, or two rotations and a shift. -/
def ShaKind.sigma (k : ShaKind) (r : Nat × Nat × Nat) (shift : Bool) (x : Nat) : Nat :=
  (rotr k.width x r.1 ^^^ rotr k.width x r.2.1) ^^^
    (if shift then x / 2 ^ r.2.2 else rotr k.width x r.2.2)

/-- The message schedule: `w` holds the words so far, latest first. -/
def ShaKind.schedule (k : ShaKind) : Nat → List Nat → List Nat
  | 0, w => w
  | n + 1, w =>
    let x := k.sigma k.small1 true (w.getD 1 0) + w.getD 6 0 + k.sigma k.small0 true (w.getD 14 0) + w.getD 15 0
    ShaKind.schedule k n (x % 2 ^ k.width :: w)

/-- The eight working variables. -/
structure ShaVars where
  a : Nat
  b : Nat
  c : Nat
  d : Nat
  e : Nat
  f : Nat
  g : Nat
  h : Nat

/-- One round. -/
def ShaKind.round (k : ShaKind) (v : ShaVars) (kw : Nat × Nat) : ShaVars :=
  let m := 2 ^ k.width
  let ch := (v.e &&& v.f) ^^^ ((m - 1 - v.e) &&& v.g)
  let t1 := v.h + k.sigma k.big1 false v.e + ch + kw.1 + kw.2
  let maj := ((v.a &&& v.b) ^^^ (v.a &&& v.c)) ^^^ (v.b &&& v.c)
  let t2 := k.sigma k.big0 false v.a + maj
  ⟨(t1 + t2) % m, v.a, v.b, v.c, (v.d + t1) % m, v.e, v.f, v.g⟩

/-- Compress one block into the hash value. -/
def ShaKind.compress (k : ShaKind) (hv : List Nat) (block : Bytes) : List Nat :=
  let wb := k.width / 8
  let w0 := (List.range 16).map fun i => beAt block (wb * i) wb
  let w := (k.schedule (k.consts.length - 16) w0.reverse).reverse
  let g := fun i => hv.getD i 0
  let v := (k.consts.zip w).foldl k.round ⟨g 0, g 1, g 2, g 3, g 4, g 5, g 6, g 7⟩
  let m := 2 ^ k.width
  [(g 0 + v.a) % m, (g 1 + v.b) % m, (g 2 + v.c) % m, (g 3 + v.d) % m,
   (g 4 + v.e) % m, (g 5 + v.f) % m, (g 6 + v.g) % m, (g 7 + v.h) % m]

/-- The padded message: a one bit, zeros, and the length in bits. -/
def ShaKind.pad (k : ShaKind) (bs : Bytes) : Bytes :=
  let block := k.width * 2
  let lenBytes := k.width / 4
  let used := (bs.length + 1 + lenBytes) % block
  bs ++ [0x80] ++ zeros (if used = 0 then 0 else block - used) ++ beBytes lenBytes (8 * bs.length)

/-- The hash value of a message, as words. -/
def ShaKind.digest (k : ShaKind) (init : List Nat) (bs : Bytes) : List Nat :=
  (chunks (k.width * 2) (k.pad bs)).foldl k.compress init

/-- SHA-256, 32 bytes in output order (R373). -/
def sha256 (bs : Bytes) : Bytes := (ShaKind.sha256.digest sha256H bs).flatMap (beBytes 4)

/-- SHA-384, 48 bytes in output order (R387). -/
def sha384 (bs : Bytes) : Bytes := ((ShaKind.sha384.digest sha384H bs).take 6).flatMap (beBytes 8)

/-! ## SipHash-2-4 (R120) -/

/-- Rotate a 64-bit word left. -/
def rotl64 (x : W64) (n : Nat) : W64 := x.rotateLeft n

/-- The four words of a SipHash state. -/
structure SipState where
  v0 : W64
  v1 : W64
  v2 : W64
  v3 : W64

/-- One SipHash round. -/
def SipState.round (s : SipState) : SipState :=
  let a := s.v0 + s.v1
  let b := rotl64 s.v1 13 ^^^ a
  let a := rotl64 a 32
  let c := s.v2 + s.v3
  let d := rotl64 s.v3 16 ^^^ c
  let a2 := a + d
  let d2 := rotl64 d 21 ^^^ a2
  let c2 := c + b
  let b2 := rotl64 b 17 ^^^ c2
  ⟨a2, b2, rotl64 c2 32, d2⟩

/-- Absorb one 64-bit word with two rounds. -/
def SipState.absorb (s : SipState) (m : W64) : SipState :=
  let s := { s with v3 := s.v3 ^^^ m }
  let s := s.round.round
  { s with v0 := s.v0 ^^^ m }

/-- SipHash-2-4 of a message under a 128-bit key, the key's words taken little-endian. -/
def siphash (key : W128) (bs : Bytes) : W64 :=
  let k0 := key.extractLsb' 0 64
  let k1 := key.extractLsb' 64 64
  let s : SipState := ⟨k0 ^^^ 0x736f6d6570736575, k1 ^^^ 0x646f72616e646f6d, k0 ^^^ 0x6c7967656e657261,
    k1 ^^^ 0x7465646279746573⟩
  let whole := bs.length / 8
  let s := (List.range whole).foldl (fun s i => s.absorb (BitVec.ofNat 64 (leAt bs (8 * i) 8))) s
  let last := leNat (bs.drop (8 * whole)) + bs.length % 256 * 2 ^ 56
  let s := s.absorb (BitVec.ofNat 64 last)
  let s := { s with v2 := s.v2 ^^^ 0xff }
  let s := s.round.round.round.round
  s.v0 ^^^ s.v1 ^^^ s.v2 ^^^ s.v3

end Sys2Proof.Machine
end

