-- ==== Sys2Proof/Machine/Cipher.lean ====
section
/-!
DEFINITION. Machine/Cipher.lean: AES-256, AES-256-GCM (R183), AES Key Wrap with Padding of RFC 5649 (R354), and the curve
P-384 with ECDH and ECDSA (R357, R388).
-/
namespace Sys2Proof.Machine

/-! ## AES-256 -/

/-- The S-box of AES (FIPS 197). -/
def aesSbox : List Nat :=
  [0x63, 0x7c, 0x77, 0x7b, 0xf2, 0x6b, 0x6f, 0xc5, 0x30, 0x1, 0x67, 0x2b, 0xfe, 0xd7, 0xab, 0x76] ++
  [0xca, 0x82, 0xc9, 0x7d, 0xfa, 0x59, 0x47, 0xf0, 0xad, 0xd4, 0xa2, 0xaf, 0x9c, 0xa4, 0x72, 0xc0] ++
  [0xb7, 0xfd, 0x93, 0x26, 0x36, 0x3f, 0xf7, 0xcc, 0x34, 0xa5, 0xe5, 0xf1, 0x71, 0xd8, 0x31, 0x15] ++
  [0x4, 0xc7, 0x23, 0xc3, 0x18, 0x96, 0x5, 0x9a, 0x7, 0x12, 0x80, 0xe2, 0xeb, 0x27, 0xb2, 0x75] ++
  [0x9, 0x83, 0x2c, 0x1a, 0x1b, 0x6e, 0x5a, 0xa0, 0x52, 0x3b, 0xd6, 0xb3, 0x29, 0xe3, 0x2f, 0x84] ++
  [0x53, 0xd1, 0x0, 0xed, 0x20, 0xfc, 0xb1, 0x5b, 0x6a, 0xcb, 0xbe, 0x39, 0x4a, 0x4c, 0x58, 0xcf] ++
  [0xd0, 0xef, 0xaa, 0xfb, 0x43, 0x4d, 0x33, 0x85, 0x45, 0xf9, 0x2, 0x7f, 0x50, 0x3c, 0x9f, 0xa8] ++
  [0x51, 0xa3, 0x40, 0x8f, 0x92, 0x9d, 0x38, 0xf5, 0xbc, 0xb6, 0xda, 0x21, 0x10, 0xff, 0xf3, 0xd2] ++
  [0xcd, 0xc, 0x13, 0xec, 0x5f, 0x97, 0x44, 0x17, 0xc4, 0xa7, 0x7e, 0x3d, 0x64, 0x5d, 0x19, 0x73] ++
  [0x60, 0x81, 0x4f, 0xdc, 0x22, 0x2a, 0x90, 0x88, 0x46, 0xee, 0xb8, 0x14, 0xde, 0x5e, 0xb, 0xdb] ++
  [0xe0, 0x32, 0x3a, 0xa, 0x49, 0x6, 0x24, 0x5c, 0xc2, 0xd3, 0xac, 0x62, 0x91, 0x95, 0xe4, 0x79] ++
  [0xe7, 0xc8, 0x37, 0x6d, 0x8d, 0xd5, 0x4e, 0xa9, 0x6c, 0x56, 0xf4, 0xea, 0x65, 0x7a, 0xae, 0x8] ++
  [0xba, 0x78, 0x25, 0x2e, 0x1c, 0xa6, 0xb4, 0xc6, 0xe8, 0xdd, 0x74, 0x1f, 0x4b, 0xbd, 0x8b, 0x8a] ++
  [0x70, 0x3e, 0xb5, 0x66, 0x48, 0x3, 0xf6, 0xe, 0x61, 0x35, 0x57, 0xb9, 0x86, 0xc1, 0x1d, 0x9e] ++
  [0xe1, 0xf8, 0x98, 0x11, 0x69, 0xd9, 0x8e, 0x94, 0x9b, 0x1e, 0x87, 0xe9, 0xce, 0x55, 0x28, 0xdf] ++
  [0x8c, 0xa1, 0x89, 0xd, 0xbf, 0xe6, 0x42, 0x68, 0x41, 0x99, 0x2d, 0xf, 0xb0, 0x54, 0xbb, 0x16]
/-- The inverse S-box of AES. -/
def aesInvSbox : List Nat :=
  [0x52, 0x9, 0x6a, 0xd5, 0x30, 0x36, 0xa5, 0x38, 0xbf, 0x40, 0xa3, 0x9e, 0x81, 0xf3, 0xd7, 0xfb] ++
  [0x7c, 0xe3, 0x39, 0x82, 0x9b, 0x2f, 0xff, 0x87, 0x34, 0x8e, 0x43, 0x44, 0xc4, 0xde, 0xe9, 0xcb] ++
  [0x54, 0x7b, 0x94, 0x32, 0xa6, 0xc2, 0x23, 0x3d, 0xee, 0x4c, 0x95, 0xb, 0x42, 0xfa, 0xc3, 0x4e] ++
  [0x8, 0x2e, 0xa1, 0x66, 0x28, 0xd9, 0x24, 0xb2, 0x76, 0x5b, 0xa2, 0x49, 0x6d, 0x8b, 0xd1, 0x25] ++
  [0x72, 0xf8, 0xf6, 0x64, 0x86, 0x68, 0x98, 0x16, 0xd4, 0xa4, 0x5c, 0xcc, 0x5d, 0x65, 0xb6, 0x92] ++
  [0x6c, 0x70, 0x48, 0x50, 0xfd, 0xed, 0xb9, 0xda, 0x5e, 0x15, 0x46, 0x57, 0xa7, 0x8d, 0x9d, 0x84] ++
  [0x90, 0xd8, 0xab, 0x0, 0x8c, 0xbc, 0xd3, 0xa, 0xf7, 0xe4, 0x58, 0x5, 0xb8, 0xb3, 0x45, 0x6] ++
  [0xd0, 0x2c, 0x1e, 0x8f, 0xca, 0x3f, 0xf, 0x2, 0xc1, 0xaf, 0xbd, 0x3, 0x1, 0x13, 0x8a, 0x6b] ++
  [0x3a, 0x91, 0x11, 0x41, 0x4f, 0x67, 0xdc, 0xea, 0x97, 0xf2, 0xcf, 0xce, 0xf0, 0xb4, 0xe6, 0x73] ++
  [0x96, 0xac, 0x74, 0x22, 0xe7, 0xad, 0x35, 0x85, 0xe2, 0xf9, 0x37, 0xe8, 0x1c, 0x75, 0xdf, 0x6e] ++
  [0x47, 0xf1, 0x1a, 0x71, 0x1d, 0x29, 0xc5, 0x89, 0x6f, 0xb7, 0x62, 0xe, 0xaa, 0x18, 0xbe, 0x1b] ++
  [0xfc, 0x56, 0x3e, 0x4b, 0xc6, 0xd2, 0x79, 0x20, 0x9a, 0xdb, 0xc0, 0xfe, 0x78, 0xcd, 0x5a, 0xf4] ++
  [0x1f, 0xdd, 0xa8, 0x33, 0x88, 0x7, 0xc7, 0x31, 0xb1, 0x12, 0x10, 0x59, 0x27, 0x80, 0xec, 0x5f] ++
  [0x60, 0x51, 0x7f, 0xa9, 0x19, 0xb5, 0x4a, 0xd, 0x2d, 0xe5, 0x7a, 0x9f, 0x93, 0xc9, 0x9c, 0xef] ++
  [0xa0, 0xe0, 0x3b, 0x4d, 0xae, 0x2a, 0xf5, 0xb0, 0xc8, 0xeb, 0xbb, 0x3c, 0x83, 0x53, 0x99, 0x61] ++
  [0x17, 0x2b, 0x4, 0x7e, 0xba, 0x77, 0xd6, 0x26, 0xe1, 0x69, 0x14, 0x63, 0x55, 0x21, 0xc, 0x7d]

/-- Look a byte up in a table of 256. -/
def lookByte (t : List Nat) (b : Byte) : Byte := BitVec.ofNat 8 (t.getD b.toNat 0)

/-- Multiply by x in GF(2^8). -/
def xtime (b : Byte) : Byte := (b <<< 1) ^^^ (if b.getLsbD 7 then 0x1b else 0)

/-- Multiply by a small constant in GF(2^8). -/
def gmul (b : Byte) (n : Nat) : Byte :=
  let b2 := xtime b
  let b4 := xtime b2
  let b8 := xtime b4
  (if bit n 0 then b else 0) ^^^ (if bit n 1 then b2 else 0) ^^^ (if bit n 2 then b4 else 0) ^^^ (if bit n 3 then b8 else 0)

/-- Exclusive or of two byte strings of one length. -/
def xorBytes (a b : Bytes) : Bytes := List.zipWith (· ^^^ ·) a b

/-- Expand a 256-bit key (32 bytes) to 60 words of 4 bytes; `w` holds the words so far, latest first. -/
def aesExpand : Nat → Nat → Byte → List Bytes → List Bytes
  | 0, _, _, w => w
  | n + 1, i, rcon, w =>
    let t := w.headD []
    let back := w.getD 7 []
    if i % 8 = 0 then
      let r := (t.drop 1 ++ t.take 1).map (lookByte aesSbox)
      let r := xorBytes r [rcon, 0, 0, 0]
      aesExpand n (i + 1) (xtime rcon) (xorBytes back r :: w)
    else if i % 8 = 4 then
      aesExpand n (i + 1) rcon (xorBytes back (t.map (lookByte aesSbox)) :: w)
    else aesExpand n (i + 1) rcon (xorBytes back t :: w)

/-- The 15 round keys of AES-256. -/
def aesRoundKeys (key : Bytes) : List Bytes :=
  let w := (aesExpand 52 8 1 ((chunks 4 key).reverse)).reverse
  (List.range 15).map fun r => ((w.drop (4 * r)).take 4).flatten

/-- Byte `r` of column `c` of the shifted rows. -/
def shiftRows (st : Bytes) : Bytes :=
  (List.range 16).map fun i => st.getD ((i + 4 * (i % 4)) % 16) 0

/-- The inverse of `shiftRows`. -/
def invShiftRows (st : Bytes) : Bytes :=
  (List.range 16).map fun i => st.getD ((i + 12 * (i % 4)) % 16) 0

/-- Mix one column with the given first-row coefficients. -/
def mixColumn (k : List Nat) (col : Bytes) : Bytes :=
  (List.range 4).map fun r =>
    (List.range 4).foldl (fun acc c => acc ^^^ gmul (col.getD c 0) (k.getD ((c + 4 - r) % 4) 0)) 0

/-- Mix every column. -/
def mixColumns (k : List Nat) (st : Bytes) : Bytes := (chunks 4 st).flatMap (mixColumn k)

/-- The rounds between the first and the last round key. -/
def aesRounds : List Bytes → Bytes → Bytes
  | [], st => st
  | [last], st => xorBytes (shiftRows (st.map (lookByte aesSbox))) last
  | rk :: rest, st => aesRounds rest (xorBytes (mixColumns [2, 3, 1, 1] (shiftRows (st.map (lookByte aesSbox)))) rk)

/-- AES-256 of one 16-byte block. -/
def aesBlock (key block : Bytes) : Bytes :=
  match aesRoundKeys key with
  | [] => block
  | rk :: rest => aesRounds rest (xorBytes block rk)

/-- The inverse rounds, round keys last first. -/
def aesInvRounds : List Bytes → Bytes → Bytes
  | [], st => st
  | [last], st => xorBytes ((invShiftRows st).map (lookByte aesInvSbox)) last
  | rk :: rest, st =>
    aesInvRounds rest (mixColumns [14, 11, 13, 9] (xorBytes ((invShiftRows st).map (lookByte aesInvSbox)) rk))

/-- The inverse of AES-256 on one block. -/
def aesInvBlock (key block : Bytes) : Bytes :=
  match (aesRoundKeys key).reverse with
  | [] => block
  | rk :: rest => aesInvRounds rest (xorBytes block rk)

/-! ## GCM -/

/-- Multiply in the field of GHASH: `n` bits of `x` are left, `z` collects, `v` is the running multiple of H. -/
def ghashMul : Nat → W128 → W128 → W128 → W128
  | 0, _, _, z => z
  | n + 1, x, v, z =>
    ghashMul n (x <<< 1) ((v >>> 1) ^^^ (if v.getLsbD 0 then 0xe1000000000000000000000000000000 else 0))
      (if x.getLsbD 127 then z ^^^ v else z)

/-- GHASH of a byte string of whole or short blocks under H. -/
def ghash (h : W128) (bs : Bytes) : W128 :=
  (chunks 16 bs).foldl (fun y b => ghashMul 128 (y ^^^ BitVec.ofNat 128 (beNat (padTo 16 b))) h 0) 0

/-- The counter-mode key stream applied to a string, the block counter starting at `n`. -/
def gcmStream (key iv bs : Bytes) (n : Nat) : Bytes :=
  let cs := chunks 16 bs
  ((List.range cs.length).map fun i =>
    xorMask (cs.getD i []) (aesBlock key (iv ++ beBytes 4 (n + i)))).flatten

/-- A string filled with zeros to whole 16-byte blocks. -/
def blockFill (bs : Bytes) : Bytes := bs ++ zeros (16 * ceilDiv bs.length 16 - bs.length)

/-- The authentication tag of AES-256-GCM over AAD and ciphertext, with a 96-bit IV. -/
def gcmTag (key iv aad ct : Bytes) : Bytes :=
  let h := BitVec.ofNat 128 (beNat (aesBlock key (zeros 16)))
  let s := ghash h (blockFill aad ++ blockFill ct ++ beBytes 8 (8 * aad.length) ++ beBytes 8 (8 * ct.length))
  xorBytes (beBytes 16 s.toNat) (aesBlock key (iv ++ [0, 0, 0, 1]))

/-- AES-256-GCM encryption: ciphertext and tag. -/
def gcmSeal (key iv aad pt : Bytes) : Bytes × Bytes :=
  let ct := gcmStream key iv pt 2
  (ct, gcmTag key iv aad ct)

/-- AES-256-GCM decryption: the plaintext, whether or not the tag is right (R74 sends it as decrypted). -/
def gcmPlain (key iv ct : Bytes) : Bytes := gcmStream key iv ct 2

/-! ## Key wrap with padding (RFC 5649) -/

/-- One inner step of the unwrap of RFC 3394: `t` counts down, register `i` is taken. -/
def unwrapStep (kek : Bytes) (st : Bytes × List Bytes) (t i : Nat) : Bytes × List Bytes :=
  let a := xorBytes st.1 (beBytes 8 t)
  let b := aesInvBlock kek (a ++ st.2.getD i [])
  (b.take 8, st.2.set i (b.drop 8))

/-- The unwrap of RFC 3394 over `n` registers: the integrity value and the registers. -/
def unwrapCore (kek wrapped : Bytes) : Bytes × List Bytes :=
  let n := wrapped.length / 8 - 1
  let r := (List.range n).map fun i => slice wrapped (8 * (i + 1)) 8
  ((List.range (6 * n)).reverse).foldl (fun st k => unwrapStep kek st (k + 1) (k % n)) (wrapped.take 8, r)

/-- Unwrap a string under a KEK by RFC 5649: none where the integrity check fails. -/
def keyUnwrap (kek wrapped : Bytes) : Option Bytes :=
  if wrapped.length < 24 || wrapped.length % 8 != 0 then none
  else
    let (a, r) := unwrapCore kek wrapped
    let plain := r.flatten
    let mli := beNat (a.drop 4)
    if a.take 4 == [0xa6, 0x59, 0x59, 0xa6] && decide (plain.length - 8 < mli) && decide (mli ≤ plain.length)
        && (plain.drop mli).all (· == 0)
    then some (plain.take mli) else none

/-- One inner step of the wrap of RFC 3394. -/
def wrapStep (kek : Bytes) (st : Bytes × List Bytes) (t i : Nat) : Bytes × List Bytes :=
  let b := aesBlock kek (st.1 ++ st.2.getD i [])
  (xorBytes (b.take 8) (beBytes 8 t), st.2.set i (b.drop 8))

/-- Wrap a string of more than 8 bytes under a KEK by RFC 5649. -/
def keyWrap (kek plain : Bytes) : Bytes :=
  let n := ceilDiv plain.length 8
  let padded := padTo (8 * n) plain
  let r := (List.range n).map fun i => slice padded (8 * i) 8
  let st := (List.range (6 * n)).foldl (fun st k => wrapStep kek st (k + 1) (k % n))
    ([0xa6, 0x59, 0x59, 0xa6] ++ beBytes 4 plain.length, r)
  st.1 ++ st.2.flatten

/-! ## P-384 -/

/-- The field prime of P-384. -/
def p384P : Nat := 2 ^ 384 - 2 ^ 128 - 2 ^ 96 + 2 ^ 32 - 1
/-- The coefficient b of P-384. -/
def p384B : Nat := 0xb3312fa7e23ee7e4988e056be3f82d19181d9c6efe8141120314088f5013875ac656398d8a2ed19d2a85c8edd3ec2aef
/-- The order of P-384. -/
def p384N : Nat := 0xffffffffffffffffffffffffffffffffffffffffffffffffc7634d81f4372ddf581a0db248b0a77aecec196accc52973
/-- The base point of P-384. -/
def p384G : Nat × Nat :=
  (0xaa87ca22be8b05378eb1c71ef320ad746e1d3b628ba79b9859f741e082542a385502f25dbf55296c3a545e3872760ab7,
   0x3617de4a96262c6f5d9e98bf9292dc29f8f41dbd289a147ce9da3113b5f0b8c00a60b1ce1d7e819d7a431d7c90ea0e5f)

/-- Modular power by squaring; `f` bits of the exponent are left. -/
def powMod (m : Nat) : Nat → Nat → Nat → Nat → Nat
  | 0, _, _, acc => acc
  | f + 1, b, e, acc => powMod m f (b * b % m) (e / 2) (if e % 2 = 1 then acc * b % m else acc)

/-- The inverse modulo a prime below 2^384. -/
def invMod (m a : Nat) : Nat := powMod m 384 (a % m) (m - 2) 1

/-- Does an affine point lie on P-384? -/
def onP384 (q : Nat × Nat) : Bool :=
  decide (q.1 < p384P) && decide (q.2 < p384P) &&
    (q.2 * q.2 % p384P == (q.1 * q.1 % p384P * q.1 + (p384P - 3) * q.1 + p384B) % p384P)

/-- Add two points of P-384; none is the point at infinity. -/
def p384Add (a b : Option (Nat × Nat)) : Option (Nat × Nat) :=
  match a, b with
  | none, q => q
  | q, none => q
  | some (x1, y1), some (x2, y2) =>
    let m := p384P
    if x1 = x2 ∧ (y1 + y2) % m = 0 then none
    else
      let l := if x1 = x2 then (3 * x1 * x1 + (m - 3)) * invMod m (2 * y1) % m
        else (y2 + m - y1) * invMod m (x2 + m - x1) % m
      let x := (l * l + 2 * m - x1 - x2) % m
      some (x, (l * (x1 + m - x) + m - y1) % m)

/-- Multiply a point by a number of at most `f` bits. -/
def p384Mul : Nat → Nat → Option (Nat × Nat) → Option (Nat × Nat) → Option (Nat × Nat)
  | 0, _, _, acc => acc
  | f + 1, k, q, acc => p384Mul f (k / 2) (p384Add q q) (if k % 2 = 1 then p384Add acc q else acc)

/-- A point multiplied by a scalar. -/
def p384Scale (k : Nat) (q : Nat × Nat) : Option (Nat × Nat) := p384Mul 384 k (some q) none

/-- A point as X then Y, 48 bytes each, big-endian (R357). -/
def pointBytes (q : Nat × Nat) : Bytes := beBytes 48 q.1 ++ beBytes 48 q.2

/-- The point that 96 bytes spell. -/
def pointOf (bs : Bytes) : Nat × Nat := (beAt bs 0 48, beAt bs 48 48)

/-- ECDSA verification over P-384 of a 48-byte digest; the signature is r then s, big-endian (R387). -/
def ecdsaVerify (pub : Nat × Nat) (digest sig : Bytes) : Bool :=
  let r := beAt sig 0 48
  let t := beAt sig 48 48
  if r = 0 ∨ r ≥ p384N ∨ t = 0 ∨ t ≥ p384N ∨ onP384 pub = false then false
  else
    let w := invMod p384N t
    match p384Add (p384Scale (beNat digest * w % p384N) p384G) (p384Scale (r * w % p384N) pub) with
    | none => false
    | some (x, _) => x % p384N == r

/-- The one-step key derivation of R357 with its ASCII text: the key under which an owner's KEK or an image's content
key is wrapped. -/
def enrolmentKey (text : String) (priv : Nat) (ephemeral : Nat × Nat) (deviceId : W64) : Option Bytes :=
  match p384Scale priv ephemeral with
  | none => none
  | some (x, _) => some (sha256 ([0, 0, 0, 1] ++ beBytes 48 x ++ ascii text ++ leBytes 8 deviceId.toNat))

end Sys2Proof.Machine
end

