-- ==== Sys2Proof/Config.lean ====
section
/-!
DEFINITION. Config.lean: what the spec leaves to an implementation or leaves open. Every constant here is opaque: nothing
can be proved of its value, so a statement that holds holds for every value. Log entry 5.
-/
namespace Sys2Proof.Config

/-- The `n`-th 256 bits the chip DRBG gives (R375). Free. -/
opaque drbg : Nat → W256

/-- The number of the region DRAM descriptor of a directory row (R128); the spec fixes no number. Free, by row and the fingerprint
that the row holds. -/
opaque dirDescriptor : Nat → Nat → W32

/-- A page group that a patrol visit chooses at random (R215), from the visit's number and its turn. Free. -/
opaque patrolPick : Nat → Nat → Nat

/-- The device root key, derived from the fuse secret and device_id (R356); the spec names no function. Free. -/
opaque deviceRootKey : W256 → W64 → W256

/-- The private scalar of the device key pair, derived from the fuse secret (R356); the spec names no function. Free. -/
opaque devicePrivateKey : W256 → Nat

/-- The Cleondis image public key that the boot ROM holds, X then Y, 96 bytes (R388); the spec gives only its digest's
place in the fuses. Free. -/
opaque imagePublicKey : Bytes

/-- Version of the base microcode in an image's decrypted microcode section (R403); the spec gives the section no
layout. Free. -/
opaque microcodeVersion : Bytes → W32

/-- Version of a patch in its decrypted section and the cause of its refusal, 0 when it is accepted (R403); the spec gives
the section no byte layout. Free. -/
opaque patchResult : Bytes → W32 → W32 × Nat

/-- The body that an image on trial makes of a settings body when it converts it from one format to another (R396); the spec
gives the bodies of format 2 alone. Free. -/
opaque convertSettings : Nat → Nat → Bytes → Bytes

/-- How the write of a keystone that carries a reservation goes, by region and keystone number: 0 good, 1 good after one retry,
else failed (R222). No command tells it; the media decides. Free. -/
opaque keystoneFate : Nat → Nat → Nat

/-- Byte `i` of what an APPEND takes for the old value's bytes where their sectors cannot be decoded; the spec states no
result there (R94). Free, by media address. -/
opaque unreadByte : Nat → Nat → Byte

end Sys2Proof.Config
end

