-- ==== Sys2Proof/Machine/Tab.lean ====
section
/-!
DEFINITION. Machine/Tab.lean: sparse tables. `Tab` holds one entry per number that has been written, in rising order of
number; `Mem` holds an addressed buffer of bytes in canonical form (no entry equal to what an unlisted address reads as).
-/
namespace Sys2Proof.Machine

/-- A sparse table: entries by number, numbers strictly rising. -/
abbrev Tab (α : Type) := List (Nat × α)

/-- The entry of number `k`, if it is listed. -/
def Tab.get? {α : Type} : Tab α → Nat → Option α
  | [], _ => none
  | (k', v) :: t, k => if k' = k then some v else Tab.get? t k

/-- The entry of number `k`; `d` where none is listed. -/
def Tab.get {α : Type} (d : α) (t : Tab α) (k : Nat) : α := (t.get? k).getD d

/-- The table with the entry of number `k` set to `v`. -/
def Tab.set {α : Type} : Tab α → Nat → α → Tab α
  | [], k, v => [(k, v)]
  | (k', v') :: t, k, v =>
    if k < k' then (k, v) :: (k', v') :: t
    else if k' = k then (k, v) :: t
    else (k', v') :: Tab.set t k v

/-- The table without an entry of number `k`. -/
def Tab.erase {α : Type} (t : Tab α) (k : Nat) : Tab α := t.filter (fun e => e.1 != k)

/-- The entry of number `k` (or `d`) changed by `f`. -/
def Tab.update {α : Type} (d : α) (t : Tab α) (k : Nat) (f : α → α) : Tab α := t.set k (f (t.get d k))

/-- The entry of number `k` changed by `f` where it is listed. -/
def Tab.adjust {α : Type} (t : Tab α) (k : Nat) (f : α → α) : Tab α :=
  t.map fun e => if e.1 = k then (e.1, f e.2) else e

/-- Every listed entry changed by `f`, which also sees its number. -/
def Tab.mapVals {α : Type} (f : Nat → α → α) (t : Tab α) : Tab α := t.map fun e => (e.1, f e.1 e.2)

/-- The listed entries for which `p` holds. -/
def Tab.keep {α : Type} (p : Nat → α → Bool) (t : Tab α) : Tab α := t.filter fun e => p e.1 e.2

/-- The lowest number from 0 to `n` - 1 that is not listed. -/
def Tab.lowestFree {α : Type} (t : Tab α) (n : Nat) : Option Nat :=
  let rec go (fuel i : Nat) (l : Tab α) : Option Nat :=
    match fuel, l with
    | 0, _ => none
    | f + 1, [] => if i < n then some i else go f (i + 1) []
    | f + 1, (k, _) :: t =>
      if k = i then go f (i + 1) t
      else if i < n then some i else none
  go (n + 1) 0 t

/-- An addressed buffer of bytes. -/
abbrev Mem := List (Nat × BitVec 8)

/-- The byte at address `a`; `d` is what an unlisted address reads as. -/
def Mem.read (d : Byte) (m : Mem) (a : Nat) : Byte := Tab.get d m a

/-- Store one byte, keeping the canonical form: a byte equal to `d` is not listed. -/
def Mem.write (d : Byte) (m : Mem) (a : Nat) (v : Byte) : Mem :=
  if v = d then Tab.erase m a else Tab.set m a v

/-- Store a byte string at rising addresses from `a`. -/
def Mem.writeBytes (d : Byte) (m : Mem) (a : Nat) : Bytes → Mem
  | [] => m
  | b :: bs => Mem.writeBytes d (Mem.write d m a b) (a + 1) bs

/-- The `n` bytes from address `a`. -/
def Mem.readBytes (d : Byte) (m : Mem) (a n : Nat) : Bytes := (List.range n).map fun i => Mem.read d m (a + i)

/-- Addresses [lo, lo + n) read as an unlisted address again. -/
def Mem.erase (m : Mem) (lo n : Nat) : Mem := m.filter fun e => decide (e.1 < lo) || decide (lo + n ≤ e.1)

/-- No address of [lo, lo + n) is listed. -/
def Mem.blank (m : Mem) (lo n : Nat) : Bool := m.all fun e => decide (e.1 < lo) || decide (lo + n ≤ e.1)

/-- Addresses strictly rising from `lo`. -/
def Mem.rising : Nat → Mem → Bool
  | _, [] => true
  | lo, (k, _) :: t => decide (lo ≤ k) && Mem.rising (k + 1) t

/-- The canonical form of an addressed buffer whose unlisted addresses read as `d`. -/
def Mem.wf (d : Byte) (m : Mem) : Bool := Mem.rising 0 m && m.all (fun e => e.2 != d)

/-- Numbers strictly rising from `lo`: the form of a sparse table. -/
def Tab.rising {α : Type} : Nat → Tab α → Bool
  | _, [] => true
  | lo, (k, _) :: t => decide (lo ≤ k) && Tab.rising (k + 1) t

/-- The form of a sparse table. -/
def Tab.wf {α : Type} (t : Tab α) : Bool := Tab.rising 0 t

end Sys2Proof.Machine
end

