-- ==== Sys2Proof/Machine/StateChip.lean ====
section
/-!
DEFINITION. Machine/StateChip.lean: the state of the chip level: pins and rails, the chip common registers, the event
record and its log, lifetime counts, keys and alarms, firmware and settings (chapters 01, 12, 13, 14, 15).
-/
namespace Sys2Proof.Machine

/-! ## Event record (14) -/

/-- An event record (R414). The severity follows from the code (R416). -/
structure EventRec where
  code : W16 := 0
  /-- Time stamped by the recorder, not the source. -/
  stamped : Bool := false
  /-- Filed while LOG_DEGRADED. -/
  degraded : Bool := false
  /-- Occurrences coalesced, 1-255. -/
  repeats : Nat := 1
  source : W16 := 0
  /-- Power-cycle count of the first occurrence. -/
  cycle : Nat := 0
  /-- Power-on ms of the first occurrence. -/
  ms : Nat := 0
  seq : Nat := 0
  params : List Nat := []
  deriving DecidableEq, Repr

/-- An open coalescing window (R418). -/
structure Window where
  opened : Nat
  entry : EventRec
  deriving DecidableEq, Repr

/-- A recorder: the eight region recorders are 0-7, the chip recorder is 8 (R419). -/
structure Recorder where
  /-- Open windows by block number, oldest first. -/
  windows : Tab (List Window) := []
  /-- The staging ring, oldest first. -/
  ring : List EventRec := []
  /-- Records lost and not yet told by a 0x7001. -/
  lostNow : Nat := 0
  /-- Power-on us of the first and the last loss not yet told. -/
  lostFirst : Nat := 0
  lostLast : Nat := 0
  /-- EVT_LOST or EVT_R_LOST. -/
  lost : Counter := 0
  peak : Nat := 0
  /-- EVT_R_STATUS.fenced: its blocks send to the chip recorder (R16). -/
  fenced : Bool := false
  forwarded : Counter := 0
  coalesced : Counter := 0
  deriving DecidableEq, Repr

/-- A page group of the log as programmed: its records and which copies hold it (R423). -/
structure LogGroup where
  recs : List EventRec := []
  /-- Numbers of the first sectors of the primary and of the mirror copy. -/
  wsn : Nat × Nat := (0, 0)
  primary : Bool := true
  mirror : Bool := true
  deriving DecidableEq, Repr

/-- A log entry of the circulating area (R425). -/
structure LogEntry where
  pass : Nat := 0
  groups : List LogGroup := []
  deriving DecidableEq, Repr

/-- The log as the media and NOR B hold it (R421, R424). -/
structure LogMedia where
  /-- The 64 log entries have been chosen. -/
  assigned : Bool := false
  bpc : Nat := 0
  /-- Circulating entries by number, 1-63. -/
  entries : Tab LogEntry := []
  /-- The foundation mirror of NOR B, oldest first. -/
  foundation : List EventRec := []
  /-- Entry 0 has been programmed. -/
  entryZero : Bool := false
  /-- Numbers of the first sectors of the two copies of entry 0. -/
  zeroWsn : Nat × Nat := (0, 0)
  deriving DecidableEq, Repr

/-- The chip recorder and its registers (R436). -/
structure EventState where
  recorders : Tab Recorder := []
  /-- The log has opened (R426). -/
  logOpen : Bool := false
  nextSeq : Nat := 0
  /-- Where the round-robin of R420 stands. -/
  turn : Nat := 0
  /-- The page-group buffer that is filling. -/
  buffer : List EventRec := []
  /-- Full buffers that wait for programming, oldest first. -/
  waiting : List (List EventRec) := []
  /-- Circulating entry being filled; 0 with no log. -/
  entry : Nat := 0
  deadPrimary : BitVec 64 := 0
  deadMirror : BitVec 64 := 0
  slotBad : Counter := 0
  minSev : BitVec 4 := 3
  notifyEnable : Bool := false
  notifyPending : Bool := false
  /-- The on-chip ring of R428, newest first. -/
  chipRing : List EventRec := []
  deriving DecidableEq, Repr

/-- The wall-time correlation (R431, R432). -/
structure WallTime where
  /-- Wall ns of the last TIME, of an earlier power cycle as loaded from a checkpoint until this one has its own. -/
  wall : Nat := 0
  /-- Its local stamp: power cycle and power-on ms. -/
  cycle : Nat := 0
  ms : Nat := 0
  /-- A TIME has been issued in this power cycle: there is an estimate (R432). -/
  known : Bool := false
  /-- The last known wall time. -/
  lastKnown : Nat := 0
  deriving DecidableEq, Repr

/-- Lifetime counts (R433, R434); each table is by the index of its kind. -/
structure Lifetime where
  pwrfails : Counter := 0
  pulses : Counter := 0
  failsafes : Counter := 0
  fences : Counter := 0
  recordsLost : Counter := 0
  times : Counter := 0
  passes : Counter := 0
  /-- 4 values a die: erases, page groups programmed, blocks retired, read retries. -/
  dies : Tab Counter := []
  /-- 32 bins a region. -/
  ldpc : Tab Counter := []
  /-- (path * 8 + class) * 64 + bin. -/
  latency : Tab Counter := []
  /-- 64 bins a sensor. -/
  temperature : Tab Counter := []
  /-- 160 devices a channel. -/
  dram : Tab Counter := []
  falseHits : Tab Counter := []
  traps : Tab Counter := []
  machineChecks : Tab Counter := []
  /-- 8 causes a data MAC from 0, the management MAC from 512, PCIe from 520. -/
  linkDowns : Tab Counter := []
  /-- Power-on ms and power cycles as a checkpoint saves them. -/
  powerOnMs : Nat := 0
  powerCycles : Nat := 0
  nextSeq : Nat := 0
  wall : WallTime := {}
  deadPrimary : BitVec 64 := 0
  deadMirror : BitVec 64 := 0
  deriving DecidableEq, Repr

/-! ## Pins, rails, reset (15), power failure (08) -/

/-- How far power and reset have come (R445, R449). -/
inductive PowerStage where
  /-- A rail is absent. -/
  | unpowered
  /-- Rails within tolerance, the internal power-on reset not yet released. -/
  | ramped
  /-- Held in reset by RESET# (or by a chip-reset PERST#). -/
  | held
  /-- Out of reset: start-up, service, recovery or fail-safe. -/
  | running
  deriving DecidableEq, Repr

/-- How far the flush of R227 has come. -/
inductive FlushStage where
  | none
  /-- PWRFAIL# latched: admission closed, emission still runs (R248). -/
  | closing
  /-- Emission stopped for good. -/
  | stopped
  /-- Every unprogrammed cart is being programmed. -/
  | programming
  /-- The buffer is drained, padding and the log page group remain. -/
  | drained
  /-- MEDIA_STATE.flushed. -/
  | flushed
  deriving DecidableEq, Repr

/-- Pins and rails (R443). -/
structure Pins where
  stage : PowerStage := .held
  perstAsserted : Bool := false
  clkreqReleased : Bool := false
  pwrfailLow : Bool := false
  smbAddrHigh : Bool := false
  testEnHigh : Bool := false
  alarmOut : Bool := false
  /-- Nc_WP# driven high: writes to the media allowed. -/
  wpHigh : Bool := false
  ceHigh : Bool := false
  dramResetHigh : Bool := false
  selfRefresh : Bool := false
  uartUp : Bool := false
  ppsPulses : Counter := 0
  /-- A PERST# that selects a chip reset holds the chip in reset (R448). -/
  perstHolds : Bool := false
  deriving DecidableEq, Repr

/-- Power failure and held resets (R247 to R249, R449, R450). -/
structure PowerFail where
  flush : FlushStage := .none
  flushTick : Nat := 0
  /-- The flush of a failed trial, without a power loss (R392). -/
  trialFlush : Bool := false
  /-- Bytes programmed from buffer carts in this flush. -/
  flushBytes : Nat := 0
  /-- A RESET# asserted during the flush, with its tick. -/
  deferredReset : Option Nat := none
  /-- Start-up halted by PWRFAIL# (R249). -/
  halted : Bool := false
  /-- Start-up waits in step 1 for PWRFAIL# to be deasserted (R450). -/
  waiting : Bool := false
  deriving DecidableEq, Repr

/-! ## Chip common registers (01) -/

/-- The chip common registers (01, table of chip common registers) and what R381 keeps beside them. -/
structure Chip where
  /-- The lifetime counts and histograms as the last management tick left them (R28): what CTRD returns and a checkpoint
  saves. -/
  lifeTick : Lifetime := {}
  /-- CHIP_STATE.state: 0 start-up, 1 service, 2 recovery, 3 fail-safe. -/
  state : BitVec 2 := 0
  step : BitVec 4 := 0
  logDegraded : Bool := false
  fenced : BitVec 8 := 0
  fencing : BitVec 8 := 0
  /-- CHIP_FAILSAFE_REASON. -/
  reason : Byte := 0
  detail : Byte := 0
  multiple : Bool := false
  finalLog : Bool := false
  rootLock : Bool := false
  dclkSel : BitVec 2 := 0
  nclkSel : BitVec 2 := 0
  pcieRefclk : Bool := false
  serdesLock : BitVec 8 := 0
  mgmtLaneLock : Bool := false
  tick : Nat := 0
  /-- CHIP_POWER_ON_MS has been loaded (R31). -/
  statsLoaded : Bool := false
  powerOnMs : Nat := 0
  powerCycles : Nat := 0
  scratch : W32 := 0
  /-- Last reading of the nine sensors in m degrees C and their fault flags. -/
  temperature : Tab Int := []
  sensorFault : BitVec 9 := 0
  /-- DRAM corrections of this power cycle by device (R409). -/
  dramNow : Tab Nat := []
  /-- Region arbiter faults that wait for the fence steps to end: causes by region. -/
  fenceCause : Tab Nat := []
  deriving DecidableEq, Repr

/-! ## Keys and alarms (12) -/

/-- State of a key slot (R355). -/
inductive SlotState where
  | empty | loaded | rekeying | exhausted
  deriving DecidableEq, Repr

/-- An owner entry of the key-slot table (R355). -/
structure OwnerEntry where
  enrolled : Bool := false
  /-- KEK wrapped under the device root key, 40 bytes. -/
  kek : Bytes := []
  kcv : Bytes := []
  deriving DecidableEq, Repr

/-- A slot entry of the key-slot table (R355). -/
structure SlotEntry where
  state : SlotState := .empty
  owner : Nat := 0
  loads : Nat := 0
  gen : W32 := 0
  limit : Nat := 0
  key : Bytes := []
  prevKey : Bytes := []
  prevGen : W32 := 0
  prevOwner : Nat := 0
  deriving DecidableEq, Repr

/-- The key-slot table (R355), checkpointed table 7. -/
structure KeyTable where
  owners : Tab OwnerEntry := []
  slots : Tab SlotEntry := []
  deriving DecidableEq, Repr

/-- The counter blocks a region holds of one slot (R367): the next value and the end of the block in use, and the
limits of the block it has taken ahead. -/
structure CounterBlock where
  gen : W32 := 0
  next : Nat := 0
  stop : Nat := 0
  ahead : Option Nat := none
  deriving DecidableEq, Repr

/-- The rekey walk (R363). -/
structure Rekey where
  slot : Nat := 0
  running : Bool := false
  /-- The seals that must hold the rekey before the walk starts, by region and generation. -/
  started : List (Nat × Nat) := []
  regionsDone : BitVec 8 := 0
  scanned : Counter := 0
  copied : Counter := 0
  failed : Counter := 0
  /-- Records left as they are because their tag failed. -/
  failedAt : List Nat := []
  /-- Addresses of the entries visited. -/
  visited : List Nat := []
  /-- The seals that must hold the last change of the walk. -/
  gens : List (Nat × Nat) := []
  deriving DecidableEq, Repr

/-- Keys, unwrap unit, DRBGs and alarms (12). -/
structure KeyState where
  table : KeyTable := {}
  /-- Slot store: plaintext current keys by slot. -/
  store : Tab Bytes := []
  /-- Slot store: plaintext previous keys by slot. -/
  prevStore : Tab Bytes := []
  storeFault : List Nat := []
  /-- Counter blocks by region * 4096 + slot. -/
  blocks : Tab CounterBlock := []
  /-- Device root key, once derived. -/
  root : Option Bytes := none
  /-- The device key pair has been derived: the private key is held. -/
  privateHeld : Bool := false
  devPub : Bytes := []
  devCert : Bytes := []
  /-- Token key T, once unwrapped. -/
  tokenKey : Option Bytes := none
  lockOwner : BitVec 3 := 0
  lockTick : Nat := 0
  unwrapBusy : Bool := false
  unwrapOp : BitVec 3 := 0
  unwrapResult : Byte := 0
  rekey : Rekey := {}
  unwraps : Counter := 0
  unwrapFails : Counter := 0
  lockTimeouts : Counter := 0
  /-- Lane key registers, mask shares and DRBG states hold keys (erased by an alarm). -/
  lanesKeyed : Bool := false
  alarm : BitVec 5 := 0
  entropyPassed : Bool := false
  entropyFailed : Bool := false
  seeded : BitVec 8 := 0
  reseeds : Counter := 0
  deriving DecidableEq, Repr

/-- A cipher and hash lane pair (R380). -/
structure Lane where
  fenced : Bool := false
  waiting : Bool := false
  cipherBytes : Counter := 0
  hashBytes : Counter := 0
  tagFails : Counter := 0
  selfcheckFails : Counter := 0
  deriving DecidableEq, Repr

/-! ## Firmware and settings (13) -/

/-- A boot control record (R385). -/
structure BootControl where
  active : Nat := 0xFF
  trial : Nat := 0xFF
  tstate : Nat := 0
  seq : Nat := 0
  setArea : Nat := 0xFF
  convArea : Nat := 0xFF
  slotState : Nat × Nat := (1, 1)
  floor : Nat := 0
  lastResult : Nat := 0
  version : Nat × Nat := (0, 0)
  deriving DecidableEq, Repr

/-- The header fields of an image that the device uses while it runs (R387). -/
structure ImageInfo where
  version : Nat := 0
  security : Nat := 0
  setReadMin : Nat := 0
  setReadMax : Nat := 0
  setConvMin : Nat := 0
  setWrite : Nat := 0
  length : Nat := 0
  deriving DecidableEq, Repr

/-- A settings entry: its type and its value (R395). -/
structure SettingsEntry where
  kind : Nat := 0
  value : Bytes := []
  deriving DecidableEq, Repr

/-- The device options of R395, type 4. -/
structure DeviceOptions where
  clockSource : Nat := 0
  perstChip : Nat := 0
  /-- W in GiB; 0 where the settings hold none. -/
  windowGiB : Nat := 0
  subVendor : Nat := 0
  subDevice : Nat := 0
  deriving DecidableEq, Repr

/-- Firmware, staging, trial and settings (R406). -/
structure Firmware where
  bcr : BootControl := {}
  slot : Nat := 0
  onTrial : Bool := false
  recovery : BitVec 2 := 0
  settingsDefault : Bool := false
  converted : Bool := false
  image : ImageInfo := {}
  patchVersion : Nat := 0
  baseVersion : Nat := 0
  /-- Staging (R389, R390). -/
  stageActive : Bool := false
  stageWriting : Bool := false
  stageChecking : Bool := false
  stageResult : Byte := 0
  stageSlot : Nat := 0
  stageBytes : Nat := 0
  stageLength : Nat := 0
  stageTick : Nat := 0
  /-- Tick at which step 3 of a trial began. -/
  trialTick : Nat := 0
  /-- The trial failed and its flush runs, with the cause of 0xD005. -/
  trialFailed : Option Nat := none
  /-- Why the trial of the cycle before failed, kept over the self-reset for 0xD005. -/
  revertCause : Option Nat := none
  /-- A self-reset is due (R392). -/
  selfReset : Bool := false
  setBusy : Bool := false
  /-- The record that a running commit writes. -/
  setRecord : Bytes := []
  setValid : Bool := false
  setResult : Byte := 0
  /-- Settings in use. -/
  settingsSeq : Nat := 0
  settingsFormat : Nat := 0
  entries : List SettingsEntry := []
  options : DeviceOptions := {}
  ttrMs : W32 := 0
  /-- Durations of steps 1-10 of this start. -/
  stepMs : Tab W32 := []
  allowList : List W128 := []
  deriving DecidableEq, Repr

end Sys2Proof.Machine
end

