-- ==== Sys2Proof/Machine/StateStore.lean ====
section
/-!
DEFINITION. Machine/StateStore.lean: the state of the store: namespaces, index, pending-key directory, associative banks,
records and courses, stripes, dies, checkpoints and keystones (chapters 04 to 07).
-/
namespace Sys2Proof.Machine

/-! ## Namespaces and index (04) -/

/-- State of a namespace identifier (R113). -/
inductive NsState where
  | free | active | removing
  deriving DecidableEq, Repr

/-- An entry of the namespace table (R114, R192). -/
structure Namespace where
  state : NsState := .free
  keySlot : Nat := 0
  fixity : Nat := 0
  groupPrefix : Nat := 0
  durability : Nat := 0
  ceiling : Nat := 0
  /-- Bit 0 mortar kept, bit 1 hold until verified. -/
  options : Nat := 0
  quota : Nat := 0
  epoch : Nat := 0
  tokenGen : Nat := 0
  usage : Nat := 0
  liveKeys : Nat := 0
  deriving DecidableEq, Repr

/-- A namespace descriptor (R114). -/
structure NsDescriptor where
  keySlot : Nat
  fixity : Nat
  groupPrefix : Nat
  durability : Nat
  ceiling : Nat
  options : Nat
  quota : Nat
  deriving DecidableEq, Repr

/-- An NSDEF create or modify that has been accepted and is not yet sealed (R48, R117): it takes effect at its
completion. -/
structure NsChange where
  nsid : Nat
  create : Bool
  /-- The modify retires tokens. -/
  retire : Bool := false
  desc : NsDescriptor
  /-- The durable seals that must hold it, by region and generation. -/
  gens : List (Nat × Nat) := []
  deriving DecidableEq, Repr

/-- The options of a namespace that bind the requests admitted before a modify (R116): those whose stamp lies below
`before`. -/
structure NsBefore where
  before : Nat
  durability : Nat
  ceiling : Nat
  options : Nat
  deriving DecidableEq, Repr

/-- The removal of a namespace (R118). -/
structure Removal where
  /-- Regions whose walk has ended. -/
  walked : BitVec 8 := 0
  /-- The coach that runs the NSDEF. -/
  remover : Option Nat := none
  /-- The durable seals that must hold the state REMOVING before the walks. -/
  started : List (Nat × Nat) := []
  /-- The durable seals that must hold the last change of the walk, by region and generation. -/
  gens : List (Nat × Nat) := []
  deriving DecidableEq, Repr

/-- A valid index entry with its version (R122). The address is media address bits [63:19]. -/
structure IndexEntry where
  fp : Nat := 0
  addr : Nat := 0
  lclass : Nat := 0
  cached : Bool := false
  suspect : Bool := false
  segmented : Bool := false
  segment : Bool := false
  version : Nat := 0
  deriving DecidableEq, Repr

/-- A chain: its slots in order, 4 a bucket, and the overflow buckets linked after the main one (R123). -/
structure Chain where
  slots : List (Option IndexEntry) := []
  links : List Nat := []
  deriving DecidableEq, Repr

/-- A directory unit with its descriptor (R128). -/
structure DirUnit where
  fp : Nat := 0
  key : Bytes := []
  ns : W16 := 0
  /-- 0 none, 1 in buffer, 2 programmed, 3 committed delete. -/
  rec_ : Nat := 0
  /-- Addresses of the record by segment; of the tombstone with rec = 3. -/
  addrs : List Nat := []
  version : Nat := 0
  /-- Coach that holds the update or the lock. -/
  holder : Option Nat := none
  /-- 0 none, 1 single-key update, 2 atomic set. -/
  hold : Nat := 0
  stamp : Nat := 0
  /-- The unit was taken by a class-7 request (R24, R130). -/
  seven : Bool := false
  deriving DecidableEq, Repr

/-! ## Associative banks (05) -/

/-- A classification row: value, mask, associated data (R150). -/
structure ClassRow where
  value : Nat := 0
  mask : Nat := 0
  assoc : Nat := 0
  deriving DecidableEq, Repr

/-- A bank (R144, R160, R170). `rows` is the shadow copy with the associated data; the directory banks' rows are the directory
units. -/
structure Bank where
  rows : Tab ClassRow := []
  /-- Rows held in replacement registers, by register 0-3. -/
  replaced : List Nat := []
  /-- Rows whose array copy differs from the shadow, with the bits that upsets have flipped: 82 for each unit, match data, valid
  bit and parity bit (R144). -/
  struck : Tab Nat := []
  /-- Rows whose shadow word ECC cannot correct. -/
  shadowBad : List Nat := []
  /-- Result word of the last search (R154). -/
  word : Nat := 0
  /-- Tick of the last rewrite of a row from its shadow. -/
  rewritten : Tab Nat := []
  throttle : BitVec 2 := 0
  failed : Bool := false
  scrubPeriod : Byte := 0x0F
  searches : Counter := 0
  c7Searches : Counter := 0
  falseHits : Counter := 0
  parityHits : Counter := 0
  scrubFixes : Counter := 0
  throttleMs : Counter := 0
  noMatch : Counter := 0
  denied : Counter := 0
  deriving DecidableEq, Repr

/-! ## Records (06) -/

/-- Record kinds (R181). -/
inductive RecKind where
  | value | tombstone | setCommit | chunk | manifest | sealRec
  deriving DecidableEq, Repr

/-- A member of a set commit record (R186). -/
structure SetMember where
  wsn : Nat := 0
  fp : Nat := 0
  version : Nat := 0
  kind : RecKind := .value
  deriving DecidableEq, Repr

/-- What a seal record binds, beside its generation (R191). Addresses are media address bits [63:19]. -/
structure SealBody where
  region : Nat := 0
  replayWsn : Nat := 0
  wsnLimit : Nat := 0
  /-- Manifest addresses of tables 1 to 8. -/
  manifests : List (List Nat) := []
  /-- First addresses of the stripes that the region has open or may open. -/
  stripes : List Nat := []
  /-- The next free sector of each stream; 0 where it has no open stripe. -/
  fronts : List Nat := []
  deriving DecidableEq, Repr

/-- A record with what its sector tags carry (R179 to R186). -/
structure Record where
  kind : RecKind := .value
  ns : W16 := 0
  key : Bytes := []
  fixity : Nat := 0
  /-- 0xFFFF for plaintext. -/
  keySlot : Nat := 0xFFFF
  slotGen : W32 := 0
  ivCounter : Nat := 0
  version : Nat := 0
  totalLen : Nat := 0
  segLen : Nat := 0
  writeTime : Nat := 0
  stampCycle : Nat := 0
  stampMs : Nat := 0
  digest : Bytes := []
  segIndex : Nat := 0
  segCount : Nat := 1
  imported : Bool := false
  member : Bool := false
  setId : Nat := 0
  tag : Bytes := []
  payload : Bytes := []
  members : List SetMember := []
  /-- Checkpoint generation of a seal, chunk or manifest record. -/
  ckptGen : Nat := 0
  /-- Table and chunk number of a chunk record, table and index of a manifest (R190). -/
  table : Nat := 0
  number : Nat := 0
  /-- Cells of a chunk that are not zero, by their place in it; entries of a manifest that are not 0, by their place in it. -/
  cells : Tab Nat := []
  /-- Entries that a manifest counts. -/
  count : Nat := 0
  body : SealBody := {}
  wsn : Nat := 0
  span : Nat := 1
  egen : Nat := 0
  stream : Nat := 0
  relocated : Bool := false
  /-- Written to a kept-mortar stripe: tag flag 0 (R179). -/
  kept : Bool := false
  deriving DecidableEq, Repr

/-- How far a record in carts or region DRAM has come (R206). -/
inductive CartPhase where
  | buffered | programmed | verified
  deriving DecidableEq, Repr

/-- A record in protected-buffer carts (streams 0 and 1) or in region DRAM (streams 2 and 3). -/
structure BufRec where
  rec_ : Record := {}
  phase : CartPhase := .buffered
  /-- Staged in an atomic set and not committed. -/
  staged : Bool := false
  /-- Dissolved: it is programmed with its course but is nobody's. -/
  discarded : Bool := false
  /-- Moved to a new address; a stream still reads its carts (R53). -/
  streamed : Bool := false
  /-- Its carts can no longer be read (R17 step 4). -/
  lost : Bool := false
  /-- Written for a class-7 request. -/
  seven : Bool := false
  deriving DecidableEq, Repr

/-- A record as the media holds it: how many of its sectors are programmed. -/
structure FlashRec where
  rec_ : Record := {}
  have_ : Nat := 0
  fmtgen : Nat := 0
  /-- Every course of it has been verified. -/
  verified : Bool := false
  deriving DecidableEq, Repr

/-- Pad sectors assigned one after another to a front: how many, and the number of the first (R172, R180). -/
structure PadRun where
  count : Nat := 0
  wsn : Nat := 0
  deriving DecidableEq, Repr

/-- A pad sector as the media holds it: what its tag carries (R179). -/
structure PadSector where
  wsn : Nat := 0
  egen : Nat := 0
  stream : Nat := 0
  kept : Bool := false
  fmtgen : Nat := 0
  deriving DecidableEq, Repr

/-! ## Stripes, fronts, courses, dies (07) -/

/-- Stripe states (R204). -/
inductive StripeState where
  | free | opened | closedUnverified | verified | relocating | retired
  deriving DecidableEq, Repr

/-- A stripe: S = ((ce * 4 + lun) * 4 + plane) * 65,536 + block of its region (R132, R204). -/
structure Stripe where
  state : StripeState := .free
  erased : Bool := false
  egen : Nat := 0
  kept : Bool := false
  /-- Present members of the content it holds. -/
  present : BitVec 16 := 0xFFFF
  /-- Sectors written so far, in stream order. -/
  written : Nat := 0
  refresh : Bool := false
  /-- Relocated for refresh rather than for space. -/
  forRefresh : Bool := false
  /-- Highest wsn of the copies made from it while RELOCATING. -/
  copyWsn : Nat := 0
  /-- Blocks to retire with state 3 when it is relocated (R213). -/
  retireLater : BitVec 16 := 0
  /-- Its generation has been raised for an erase that has not begun. -/
  raised : Bool := false
  /-- The seals that must hold the epoch advance before that erase (R138). -/
  epochGens : List (Nat × Nat) := []
  deriving DecidableEq, Repr

/-- A front and the stripe it fills (R202). -/
structure Front where
  stripe : Option Nat := none
  /-- Next free sector of the open stripe, in stream order. -/
  next : Nat := 0
  /-- Front position of the open stripe's course 0. -/
  base : Nat := 0
  /-- A stripe being prepared: its number and the members whose erase still runs. -/
  preparing : Option (Nat × BitVec 16) := none
  /-- Tick of the last data. -/
  dataTick : Nat := 0
  deriving DecidableEq, Repr

/-- A course in flight, by front and position (R206). -/
structure Course where
  stripe : Nat := 0
  page : Nat := 0
  /-- Units programmed or not present. -/
  done : BitVec 16 := 0
  /-- Units that failed programming. -/
  failed : BitVec 16 := 0
  /-- Every data sector has been assigned (records or pad). -/
  filled : Bool := false
  programmed : Bool := false
  holdsData : Bool := false
  /-- Tick at which data first reached it. -/
  since : Nat := 0
  deriving DecidableEq, Repr

/-- A move of a record to a new address, whose index entry switches when the copy's course is verified (R127). -/
structure Move where
  old : Nat := 0
  /-- Copies made before this one that failed in their turn (R208, R209). -/
  via : List Nat := []
  /-- Part of the rekey walk. -/
  rekey : Bool := false
  deriving DecidableEq, Repr

/-- A die entry of the block table (R233). -/
structure DieEntry where
  /-- 0 in service, 1 draining, 2 retired, 3 failed. -/
  state : Nat := 0
  retired : Nat := 0
  budget : Nat := 0
  deriving DecidableEq, Repr

/-- A block entry of the block table (R233). -/
structure BlockEntry where
  erases : Nat := 0
  reads : Nat := 0
  state : Nat := 0
  retireEgen : Nat := 0
  deriving DecidableEq, Repr

/-- A die's queue, as far as suspension goes (R253). -/
structure DieQueue where
  /-- A class-7 read has suspended the running program or erase. -/
  suspended : Bool := false
  /-- Tick at which it was suspended, and the ms for which it was held before. -/
  since : Nat := 0
  held : Nat := 0
  /-- The running operation has used up its 10 ms and is not suspended again. -/
  spent : Bool := false
  deriving DecidableEq, Repr

/-! ## Checkpoints, keystones, geometry -/

/-- A checkpoint generation of a region: the tables and the seal (R189, R191). -/
structure Checkpoint where
  gen : Nat := 0
  /-- First-sector address of its seal record. -/
  addr : Nat := 0
  replayWsn : Nat := 0
  wsnLimit : Nat := 0
  index : Tab Chain := []
  live : Tab Unit := []
  egens : Tab Nat := []
  namespaces : Tab Namespace := []
  dies : Tab DieEntry := []
  blocks : Tab BlockEntry := []
  lifetime : Lifetime := {}
  keys : KeyTable := {}
  versions : Tab Nat := []
  stripeList : List Nat := []
  fronts : List Nat := []
  /-- Addresses of the chunk records, by table * 2^32 + chunk, and of the manifests, by table * 64 + index (R190). -/
  chunkAt : Tab Nat := []
  manifestAt : Tab Nat := []
  deriving DecidableEq, Repr

/-- A keystone record (R193), with the block (0 for A, 1 for B) and page group that hold it and the number of its sector. -/
structure Keystone where
  block : Nat := 0
  page : Nat := 0
  wsn : Nat := 0
  kseq : Nat := 0
  fmtgen : Nat := 0
  sealAddr : Nat := 0
  sealPrev : Nat := 0
  ckptGen : Nat := 0
  wsnLimit : Nat := 0
  res : List (Nat × W32 × Nat) := []
  deriving DecidableEq, Repr

/-- The geometry record (R195). -/
structure Geometry where
  fmtgen : Nat := 0
  deviceId : W64 := 0
  fmtTime : Nat := 0
  wsnBase : Nat := 0
  bpc : Nat := 0
  spg : Nat := 0
  /-- Populated channels, by global channel. -/
  chanMask : BitVec 128 := 0
  mb : Nat := 0
  planes : Nat := 0
  ces : Nat := 0
  luns : Nat := 0
  pageSize : Nat := 0
  spareSize : Nat := 0
  ppb : Nat := 0
  bpp : Nat := 0
  k : Nat := 0
  nclk : Nat := 0
  overflow : Nat := 0
  pbufMib : Nat := 0
  s1 : Bytes := []
  s2 : Bytes := []
  tokenWrapped : Bytes := []
  keystoneA : Nat := 0
  keystoneB : Nat := 0
  logBpc : Nat := 0
  /-- Media addresses of the log blocks, entry by entry, primary then mirror. -/
  logBlocks : List (Nat × Nat) := []
  spare : Nat := 0
  deriving DecidableEq, Repr

/-- What a region keeps on its media: everything here outlives a reset. -/
structure RegionMedia where
  /-- The two copies of the geometry record; none when absent or not good. -/
  copyA : Option Geometry := none
  copyB : Option Geometry := none
  /-- Keystones that lie on the two blocks, newest first. -/
  keystones : List Keystone := []
  /-- Numbers of the first sectors of the two geometry copies. -/
  geomWsn : Nat × Nat := (0, 0)
  /-- Next free page group of keystone blocks A and B. -/
  keyNext : Nat × Nat := (0, 0)
  /-- Checkpoints whose records lie on media, newest first. -/
  checkpoints : List Checkpoint := []
  deriving DecidableEq, Repr

/-- Non-volatile state: media and NOR B's foundation mirror (R448). NOR A and the settings mirrors are in Memories. -/
structure NonVolatile where
  regions : Tab RegionMedia := []
  /-- Records by address: media address bits [63:19]. -/
  flash : Tab FlashRec := []
  /-- Pad sectors of stripes by address. -/
  pads : Tab PadSector := []
  log : LogMedia := {}
  /-- Step durations of the last start that reached step 10, which R382 uses; the spec does not say where they are kept
  (log entry 31). -/
  lastSteps : Tab W32 := []
  deriving DecidableEq, Repr

/-- A seal on its way: the tables as it noted them (R220, R221). -/
structure Sealing where
  noted : Checkpoint := {}
  deriving DecidableEq, Repr

/-- The tables and registers of one region (chapters 04, 07). -/
structure Region where
  chains : Tab Chain := []
  /-- The live map: addresses whose bit is 1. -/
  live : Tab Unit := []
  /-- The value cache in the region's DRAM: addresses of the records of which it holds a copy (R122, R126). -/
  cache : Tab Unit := []
  /-- Version high-water by namespace. -/
  versions : Tab Nat := []
  indexFull : Counter := 0
  collisions : Counter := 0
  tokIssued : Counter := 0
  tokCurrent : Counter := 0
  tokStale : Counter := 0
  tokInvalid : Counter := 0
  pkdPeak : Nat := 0
  /-- Directory result word of the last search (R148). -/
  dirWord : Nat := 0
  pkdWaits : Counter := 0
  writeState : BitVec 2 := 0
  wake : Bool := false
  /-- Stripes the wake patrol has still to visit. -/
  wakeLeft : List Nat := []
  /-- Blocks (stripe * 16 + channel) patrolled in this interval. -/
  patrolled : List Nat := []
  /-- Power-on ms at which the interval began. -/
  patrolStart : Nat := 0
  /-- Powered-off time in s, all ones while unknown. -/
  offTime : Nat := 2 ^ 64 - 1
  flushed : Bool := false
  keystoneSingle : Bool := false
  readExp : BitVec 5 := 20
  patrolDays : Byte := 60
  wakeDays : Byte := 7
  roDies : Byte := 16
  exDies : Byte := 48
  gcLow : Byte := 8
  holdMs : Byte := 0
  fmtPhase : BitVec 3 := 0
  ckptGen : Nat := 0
  sectorsWritten : Counter := 0
  progFails : Counter := 0
  eraseFails : Counter := 0
  uncorr : Counter := 0
  rebuilds : Counter := 0
  refreshes : Counter := 0
  gcStripes : Counter := 0
  relocSectors : Counter := 0
  /-- Sectors written since the last seal began (R220). -/
  sinceSeal : Nat := 0
  sealTick : Nat := 0
  sealing : Option Sealing := none
  /-- Addresses of the chunk and manifest records written last, as in `Checkpoint`. -/
  chunkAt : Tab Nat := []
  manifestAt : Tab Nat := []
  /-- Stripe lists of the two latest durable seals (R205). -/
  listed : List Nat := []
  listedBefore : List Nat := []
  /-- Generations of the two latest durable seals. -/
  sealNow : Nat := 0
  sealBefore : Nat := 0
  replayWsn : Nat := 0
  kseq : Nat := 0
  /-- Limits this region has raised above its durable checkpoint (R367). -/
  reserved : List (Nat × W32 × Nat) := []
  /-- Tables loaded (steps 7 and 8 done for this region). -/
  loaded : Bool := false
  /-- Portgroup layout and status (R286). -/
  netCfg : W32 := 0x3FC
  /-- NET_GROUP_CFG as it was last read (R262), and the lanes whose receiver is locked. -/
  layout : W32 := 0
  badLayout : Bool := false
  laneLock : BitVec 8 := 0
  /-- Jenloth port group counters (R314). -/
  jen : List Counter := List.replicate 15 0
  deriving DecidableEq, Repr

/-- The store: what lies in DRAM and in the associative banks. -/
structure Store where
  regions : Tab Region := []
  namespaces : Tab Namespace := []
  /-- Creates and modifies that wait for their seals, by the coach that asked. -/
  nsChanges : Tab NsChange := []
  /-- Options that older requests keep, by namespace, oldest first. -/
  nsBefore : Tab (List NsBefore) := []
  removals : Tab Removal := []
  /-- Directory units by region * 24,576 + row. -/
  dir : Tab DirUnit := []
  banks : Tab Bank := []
  buf : Tab BufRec := []
  stripes : Tab Stripe := []
  fronts : Tab Front := []
  /-- Courses by front * 2^40 + position. -/
  courses : Tab Course := []
  /-- Pad sectors of stripes that are filled, by stripe * 2^24 + place in stream order. -/
  padRuns : Tab PadRun := []
  moves : Tab Move := []
  /-- Records that a failed unit, verification or die requires to be copied (R208, R209, R211). -/
  toCopy : Tab Unit := []
  dies : Tab DieEntry := []
  blocks : Tab BlockEntry := []
  queues : Tab DieQueue := []
  nextWsn : Nat := 0
  wsnLimit : Nat := 0
  /-- Geometry in force; none before step 6 or a format. -/
  geom : Option Geometry := none
  fmtRunning : Bool := false
  /-- What FMT was asked for, while it runs. -/
  fmtAsk : Geometry := {}
  fmtErase : Bool := false
  /-- The coaches that ran when FMT was accepted (R201). -/
  fmtWaits : List Nat := []
  deriving DecidableEq, Repr

end Sys2Proof.Machine
end

