-- ==== Sys2Proof/Machine/StateEngine.lean ====
section
/-!
DEFINITION. Machine/StateEngine.lean: the state of the request engines: contexts, clusters, and the coaches they run,
from arrival to emission (chapters 01, 02, 03, 08, 13).
-/
namespace Sys2Proof.Machine

/-- The flags word (R35). -/
structure Flags where
  z : Bool := false
  lt : Bool := false
  gt : Bool := false
  c : Bool := false
  found : Bool := false
  pending : Bool := false
  err : Bool := false
  stale : Bool := false
  trunc : Bool := false
  setOpen : Bool := false
  committed : Bool := false
  deriving DecidableEq, Repr

/-- What reading one segment gives: its plaintext as the device would send it, its status, and whether its tag failed. -/
structure SegRead where
  data : Bytes := []
  st : Byte := 0
  tagFailed : Bool := false
  addr : Nat := 0
  index : Nat := 0
  deriving DecidableEq, Repr

/-- A value attached to a response, or an EXPORT record: the snapshot of R53. -/
structure Attached where
  ns : W16 := 0
  fp : Nat := 0
  home : Nat := 0
  /-- Addresses of the segments. -/
  addrs : List Nat := []
  totalLen : Nat := 0
  /-- Range of the value that is sent. -/
  offset : Nat := 0
  length : Nat := 0
  /-- The whole value is sent, so its digest is checked. -/
  whole : Bool := false
  /-- The namespace holds until verified (R372). -/
  hold : Bool := false
  fixity : Nat := 0
  digest : Bytes := []
  /-- The migration record header that goes before the value (R312). -/
  header : Bytes := []
  /-- The rest of the migration record after the value. -/
  export_ : Bool := false
  deriving DecidableEq, Repr

/-- A field of the response builder (R38). -/
inductive RespField where
  | bytes (b : Bytes)
  | attached (a : Attached)
  deriving DecidableEq, Repr

/-- The context state visible to a coach, with the loop pass count (R34, R85). -/
structure Run where
  g : List W64 := List.replicate 16 0
  keyReg : Bytes := []
  nsReg : W16 := 0
  fetch : Bytes := []
  flags : Flags := {}
  status : Byte := 0
  resp : List RespField := []
  /-- Instruction index. -/
  pc : Nat := 0
  steps : Nat := 0
  /-- Index of the last instruction executed. -/
  last : Nat := 0
  loopCount : Nat := 0
  loopOwner : Option Nat := none
  deriving DecidableEq, Repr

/-- What an update that is staged or committed writes to one key. -/
structure Staged where
  fp : Nat := 0
  ns : W16 := 0
  key : Bytes := []
  kind : RecKind := .value
  addr : Nat := 0
  version : Nat := 0
  span : Nat := 0
  /-- The key existed when it was staged. -/
  existed : Bool := false
  /-- Its lookup passed over another key with the same fingerprint (R126). -/
  collided : Bool := false
  deriving DecidableEq, Repr

/-- An open atomic set (R55). -/
structure AtomicSet where
  locks : List (W16 × Bytes) := []
  /-- Staged updates, oldest first; a key may be staged again. -/
  staged : List Staged := []
  setId : Nat := 0
  deriving DecidableEq, Repr

/-- What an instruction that has not completed waits for. -/
inductive Wait where
  | none
  /-- A lock or a single-key update of a key held by another coach (R57, R58). -/
  | holder (ns : W16) (key : Bytes)
  /-- A free directory unit (R130). -/
  | unit
  /-- The answer of a sub-request to `region` (R20, R80). -/
  | subRequest (region : Nat)
  /-- Other coaches that loaded the namespace (R118 step 2). -/
  | coaches (nsid : W16)
  /-- Durable seals of the change in these regions, each later than the generation noted for it (R117, R362). -/
  | seals (gens : List (Nat × Nat))
  /-- The end of a CAMOP scrub pass (R166). -/
  | scrub (bank : Nat)
  deriving DecidableEq, Repr

/-- Where a request came from (R236), and where its response goes (R21). -/
inductive Source where
  | session (session : Nat) (seq : W32)
  | queue (q : Nat) (cid : W16)
  | mailbox (cid : W16)
  | mctp
  /-- Orphaned by a reset of its function: its writes and completion are discarded (R350). -/
  | orphan
  deriving DecidableEq, Repr

/-- The client of a Jenloth request, as its response needs it (R21, R267, R290, R299). -/
structure Peer where
  addr : W128 := 0
  v6 : Bool := false
  port : W16 := 0
  /-- UDP port that the client addressed. -/
  dport : W16 := 0
  vid : Option (BitVec 12) := none
  cookie : W32 := 0
  maxFrame : Nat := 9216
  /-- The client's Ethernet address, and the address of the port's own that it used. -/
  ether : BitVec 48 := 0
  own : W128 := 0
  deriving DecidableEq, Repr

/-- Where a coach stands. -/
inductive CoachStage where
  /-- In its session's window, not yet admitted (R303). -/
  | held
  /-- With the parser, not yet admitted to its home region. -/
  | arrived
  /-- In its region's admission queue, with its stamp (R66). -/
  | admitted
  /-- In a context. -/
  | running
  /-- Ended; the response waits for durability and emission (R52). -/
  | ended
  deriving DecidableEq, Repr

/-- A coach. -/
structure Coach where
  source : Source := .mctp
  /-- 0 Jenloth port, 1 PF0 queue, 2 management path (R34). -/
  path : Nat := 0
  /-- 0, or the Jenloth generation. -/
  generation : Nat := 0
  /-- Operation of a v1 or v2 message, for its response format. -/
  operation : Nat := 0
  /-- Global MAC of arrival. -/
  mac : Nat := 0
  peer : Peer := {}
  /-- Its place in the submission order of its source (R236). -/
  order : Nat := 0
  /-- Region that received it. -/
  region : Nat := 0
  /-- Lowest of the classes of R66 known before the namespace is. -/
  bound : Nat := 0
  durability : Nat := 0
  /-- Instruction count announced (check 1 of R41). -/
  announced : Nat := 0
  /-- The announced extension fits in the payload (check 2). -/
  extensionOk : Bool := true
  /-- A rejection decided by the transport or parser under R69 or R79. -/
  preStatus : Option Byte := none
  program : List W64 := []
  keys : List Bytes := []
  inbound : Bytes := []
  defaultNs : W16 := 0
  ruleset : W16 := 0
  stage : CoachStage := .arrived
  /-- Class fixed at admission and class now in force (R66, R67). -/
  cls : Nat := 0
  clsNow : Nat := 0
  stamp : Nat := 0
  home : Nat := 0
  /-- The cluster in whose input queue it waits for a context (R24, R33). -/
  given : Option Nat := none
  /-- A class-7 request that met 32 others in its region: it waits for a class-7 context (R68). -/
  classWait : Bool := false
  /-- Global context while running. -/
  ctx : Option Nat := none
  cluster : Nat := 0
  /-- Tick of the first dispatch and the timeout in units of 100 us (R45). -/
  started : Nat := 0
  timeout : Nat := 0
  /-- Faults that struck it before its commit point (R15). -/
  faults : Nat := 0
  run : Run := {}
  /-- The copy of R51, taken at the commit point. -/
  saved : Option Run := none
  set : Option AtomicSet := none
  wait : Wait := .none
  /-- What gd receives when an instruction that waits for seals completes. -/
  result : W64 := 0
  /-- Namespaces it has loaded with NSP or at dispatch (R118). -/
  loaded : List W16 := []
  /-- Records its response waits for, by address (R245). -/
  awaits : List Nat := []
  /-- Namespaces of the records it wrote (R244). -/
  wrote : List W16 := []
  /-- Final status of the coach. -/
  final : Byte := 0
  /-- A privileged instruction of it completed (R302). -/
  acted : Bool := false
  /-- Nothing of it is ever emitted (R248, R411). -/
  muted : Bool := false
  /-- An abort ended it. -/
  aborted : Bool := false
  /-- Answers to ABORTs that leave after its response (R305). -/
  acks : List Byte := []
  /-- The migration stream its source was bound to at admission: number, direction, namespace (R311). -/
  streamHeld : Option (Nat × Nat × W16) := none
  /-- The next cursor its last ITER gave. -/
  cursor : Option Nat := none
  /-- Bytes of response that a queue or mailbox offers (R329). -/
  respRoom : Nat := 0
  /-- Segments of the attached values whose lane jobs have started, as they came out, in order (R74). -/
  streamed : List SegRead := []
  deriving DecidableEq, Repr

/-- An engine cluster, or the block of a management engine (R75, R407). -/
structure Cluster where
  timeout : Byte := 0x63
  /-- Contexts fenced or retired. -/
  ctxFenced : W32 := 0
  /-- Contexts retired until the next start. -/
  ctxRetired : W32 := 0
  /-- Contexts that have faulted once in this power cycle. -/
  ctxFaulted : W32 := 0
  fenced : Bool := false
  progs : Counter := 0
  rejects : Counter := 0
  stepLimits : Counter := 0
  timeouts : Counter := 0
  reexecs : Counter := 0
  resumes : Counter := 0
  lockConflicts : Counter := 0
  reloading : BitVec 4 := 0
  retired : BitVec 4 := 0
  /-- Engines that failed parity in this power cycle. -/
  failedOnce : BitVec 4 := 0
  goldenFault : Bool := false
  patched : Bool := false
  baseVer : W32 := 0
  patchVer : W32 := 0
  parity : Counter := 0
  reloads : Counter := 0
  traps : Counter := 0
  stackFaults : Counter := 0
  deriving DecidableEq, Repr

/-- The engines and the coaches. -/
structure Engines where
  clusters : Tab Cluster := []
  lanes : Tab Lane := []
  /-- Coaches by request number. -/
  coaches : Tab Coach := []
  nextCoach : Nat := 0
  nextStamp : Nat := 0
  deriving DecidableEq, Repr

end Sys2Proof.Machine
end

