-- ==== Sys2Proof/Machine/StateNet.lean ====
section
/-!
DEFINITION. Machine/StateNet.lean: the state of the network side: MAC instances, the PTP clock, Jenloth sessions,
partners and migration streams (chapters 09 and 10).
-/
namespace Sys2Proof.Machine

/-- What a frame in a MAC egress queue is. -/
inductive FrameKind where
  /-- A Jenloth message: RESPONSE, OPEN_ACK, CLOSE_ACK, ABORT_ACK, PONG or ANNOUNCE. -/
  | jenloth
  /-- A neighbour advertisement, ARP reply, echo reply or RST of the responder (R268). -/
  | responder
  /-- A frame of management firmware (R278). -/
  | firmware
  deriving DecidableEq, Repr

/-- What a frame carries above Ethernet. -/
inductive OutProto where
  | udp | tcp | icmp | arp | ptp
  deriving DecidableEq, Repr

/-- A frame in a MAC egress queue (R250, R266, R267). The payload is that of UDP; a TCP segment, ICMP message, ARP body or PTP message
with its checksum field zero. The source address is filled in as the frame leaves (R270). -/
structure OutFrame where
  kind : FrameKind := .jenloth
  proto : OutProto := .udp
  dstMac : BitVec 48 := 0
  srcMac : BitVec 48 := 0
  src : W128 := 0
  /-- VID of the tag, when tagged, and its PCP. -/
  tag : Option (BitVec 12 × BitVec 3) := none
  dst : W128 := 0
  srcPort : W16 := 0
  dstPort : W16 := 0
  payload : Bytes := []
  deriving DecidableEq, Repr

/-- A timestamp queue entry (R279): PTP seconds, ns and the tag. -/
structure TsEntry where
  seconds : Nat := 0
  ns : Nat := 0
  tag : W16 := 0
  deriving DecidableEq, Repr

/-- A frame that passed the receive checks and waits for the Jenloth parser (R265, R291): who sent it, how it was
tagged, its class, the peer rule that admitted it. -/
structure RxFrame where
  src : W128 := 0
  v6 : Bool := false
  srcPort : W16 := 0
  dstPort : W16 := 0
  vid : Option (BitVec 12) := none
  cls : Nat := 0
  ruleset : W16 := 0
  nsDefault : W16 := 0
  ceiling : Nat := 0
  payload : Bytes := []
  /-- Ethernet source address, and IP destination. -/
  ether : BitVec 48 := 0
  own : W128 := 0
  /-- Bytes it holds of its partition. -/
  size : Nat := 0
  deriving DecidableEq, Repr

/-- A MAC instance (R287). -/
structure Mac where
  cfg : W32 := 0x70000
  prioMap : W32 := 0xFAC688
  maxFrame : W32 := 0x2400
  pfcCfg : W32 := 0x1FFFF
  ipv4 : W32 := 0
  ipv6a : W128 := 0
  ipv6b : W128 := 0
  /-- Filter entries that have been written; entry 0 otherwise holds the fused address (R270). -/
  ucFilter : Tab W64 := []
  mcHash : Tab W32 := []
  tsCfg : W32 := 0xF
  lastLostTag : W16 := 0
  tsQueue : List TsEntry := []
  linkUp : Bool := false
  rxLocalFault : Bool := false
  rxRemoteFault : Bool := false
  failsafeTx : Bool := false
  noPort : Bool := false
  /-- Fenced by its region (R16). -/
  fenced : Bool := false
  /-- Queues held by received PFC, and the port held by 802.3 pause (R274, R275). -/
  held : BitVec 8 := 0
  pauseHeld : Bool := false
  /-- Tick at which each hold began: priorities 0-7, 8 for the pause. -/
  heldSince : Tab Nat := []
  /-- Tick at which each pause time was last set, and that time in ns (R274). -/
  holdTick : Tab Nat := []
  holdNs : Tab Nat := []
  /-- Holds already recorded as 0x9005. -/
  heldTold : BitVec 9 := 0
  /-- Classes whose XOFF was sent and not released (R272), and classes that caused an 802.3 pause. -/
  xoff : BitVec 8 := 0
  pauseCause : BitVec 8 := 0
  /-- Bytes held in each class partition; the control buffer is entry 8. -/
  held_ : Tab Nat := []
  /-- Frames waiting for the Jenloth parser, oldest first. -/
  rx : List RxFrame := []
  /-- Egress queues by class, oldest first. -/
  egress : Tab (List OutFrame) := []
  /-- Responder frames sent in the current second. -/
  arpSent : Nat := 0
  echoSent : Nat := 0
  rxFrames : Counter := 0
  rxBytes : Counter := 0
  txFrames : Counter := 0
  txBytes : Counter := 0
  fcsErr : Counter := 0
  lenErr : Counter := 0
  filtered : Counter := 0
  csumErr : Counter := 0
  notServed : Counter := 0
  fecCorr : Counter := 0
  fecUncorr : Counter := 0
  pauseRcvd : Counter := 0
  tsLost : Counter := 0
  linkDowns : Counter := 0
  txResponder : Counter := 0
  rxDrop : Tab Counter := []
  pfcSent : Tab Counter := []
  pfcRcvd : Tab Counter := []
  deriving DecidableEq, Repr

/-- The PTP clock and 1PPS (R277, R280, R288). -/
structure Ptp where
  seconds : Nat := 0
  ns : Nat := 0
  /-- Part of a ns that the rate offset has gathered, in 10^-12 ns. -/
  fraction : Int := 0
  timeHi : W16 := 0
  setHi : W16 := 0
  adjRate : W32 := 0
  ppsCfg : W32 := 0x320
  /-- A whole second has come and PPS_OUT is to pulse for it. -/
  ppsDue : Bool := false
  capSeconds : Nat := 0
  capNs : Nat := 0
  ppsIn : W32 := 0
  deriving DecidableEq, Repr

/-- A window entry of a session (R301, R302). -/
inductive Entry where
  /-- Incomplete: total, the bytes that came by offset, tick of the last frame, lowest class of a frame, whether the number had
  ended re-executable before (R304), and the client as its last frame shows it. -/
  | reassembling (total : Nat) (parts : List (Nat × Bytes)) (last cls : Nat) (again : Bool) (peer : Peer)
  /-- Complete, waiting for a missing number since a tick. -/
  | held (coach since : Nat)
  | inFlight (coach : Nat)
  /-- Ended: outcome word, field section as kept, partial, number of fields. -/
  | replayable (outcome : W32) (fields : Bytes) (partly : Bool) (nfields : Nat)
  | reexecutable
  | passed
  deriving DecidableEq, Repr

/-- A Jenloth session (R294). -/
structure Session where
  src : W128 := 0
  v6 : Bool := false
  srcPort : W16 := 0
  dstPort : W16 := 0
  mac : Nat := 0
  gen : Nat := 0
  cookie : W32 := 0
  nonce : W64 := 0
  seq0 : W32 := 0
  maxFrame : Nat := 0
  ruleset : W16 := 0
  nsDefault : W16 := 0
  ceiling : Nat := 0
  /-- Highest sequence number accepted. -/
  high : W32 := 0
  /-- Window entries by sequence number. -/
  window : Tab Entry := []
  /-- Lowest number not yet admitted or passed (R303). -/
  nextSeq : W32 := 0
  lastTick : Nat := 0
  /-- CLOSEs that wait for their CLOSE_ACK: the session is closing while there is one (R295). -/
  closers : Nat := 0
  /-- How the last frame of it was tagged, its Ethernet source, and the address it was sent to. -/
  vid : Option (BitVec 12) := none
  ether : BitVec 48 := 0
  own : W128 := 0
  deriving DecidableEq, Repr

/-- A partner table entry (R309). -/
structure Partner where
  deviceId : W64 := 0
  /-- 1 live, 2 expired. -/
  state : Nat := 0
  gens : Byte := 0
  mac : Nat := 0
  interval : W32 := 0
  addr : W128 := 0
  lastSeen : Nat := 0
  fmtgen : W16 := 0
  dataPort : W16 := 0
  counter : W64 := 0
  deriving DecidableEq, Repr

/-- A migration stream (R310, R314). -/
structure Stream where
  isOpen : Bool := false
  dir : Nat := 0
  kind : Nat := 0
  source : Nat := 0
  ns : W16 := 0
  partner : W64 := 0
  cursor : Nat := 0
  records : Counter := 0
  bytes : Counter := 0
  deriving DecidableEq, Repr

/-- The network side. -/
structure Net where
  macs : Tab Mac := []
  ptp : Ptp := {}
  /-- Sessions by number; those of the management lane from 2^20. -/
  sessions : Tab Session := []
  sessPeak : Tab Nat := []
  partners : Tab Partner := []
  streams : Tab Stream := []
  jenCfg : W32 := 0x1D251D24
  sessCfg : W32 := 0x0064003C
  discMask : W64 := 0xFFFFFFFFFFFFFFFF
  annSent : Counter := 0
  annIgnored : Counter := 0
  deriving DecidableEq, Repr

end Sys2Proof.Machine
end

