-- ==== Sys2Proof/Machine/StatePcie.lean ====
section
/-!
DEFINITION. Machine/StatePcie.lean: the state of the PCI Express endpoint (chapter 11).
-/
namespace Sys2Proof.Machine

/-- A posted or unposted submission entry as fetched (R327). -/
structure Submission where
  cid : W16 := 0
  flags : Byte := 0
  icount : Nat := 0
  kcount : Nat := 0
  kbytes : Nat := 0
  vlen : Nat := 0
  respLen : Nat := 0
  dataAddr : Nat := 0
  respAddr : Nat := 0
  inline_ : List W64 := []
  /-- Bytes 5 and 40 on are zero where they must be. -/
  reservedOk : Bool := true
  deriving DecidableEq, Repr

/-- Where a fetched command stands. -/
inductive CmdStage where
  /-- Its data region is being read. -/
  | reading
  /-- Its coach has been formed. -/
  | coached (coach : Nat)
  deriving DecidableEq, Repr

/-- A part of what a command reads from the host, for which no read has been issued yet (R328). -/
structure Unread where
  /-- 0 data region, 1 page list of the data region, 2 page list of the response region. -/
  what : Nat := 0
  /-- Its place in that region or list, its host address and its length. -/
  offset : Nat := 0
  address : Nat := 0
  length : Nat := 0
  deriving DecidableEq, Repr

/-- An outstanding command of a queue (R326). -/
structure Command where
  /-- SQ slot that held it. -/
  slot : Nat := 0
  /-- Its place among the entries of its ring (R236). -/
  order : Nat := 0
  sub : Submission := {}
  stage : CmdStage := .reading
  /-- Reads not issued yet. -/
  unread : List Unread := []
  /-- Bytes received, by what * 2^40 + offset. -/
  parts : Tab Bytes := []
  /-- Its page lists, if it has any, have been taken. -/
  listed : Bool := false
  /-- Pages of a listed region, once its list has arrived. -/
  pages : List Nat := []
  /-- A window region: pool byte ranges resolved at the fetch (R344). -/
  dataPool : List (Nat × Nat) := []
  respPool : List (Nat × Nat) := []
  respPages : List Nat := []
  /-- Untranslated and translated pages answered for it (R338). -/
  resolved : List (Nat × Nat) := []
  /-- The first failure met (R329). -/
  failure : Option Byte := none
  deriving DecidableEq, Repr

/-- A completion entry (R330). -/
structure Completion where
  outcome : W32 := 0
  status : Byte := 0
  phase : Bool := true
  nfields : Nat := 0
  cid : W16 := 0
  sqid : W16 := 0
  sqHead : Nat := 0
  slot : Nat := 0
  bodyLen : Nat := 0
  crc : Nat := 0
  deriving DecidableEq, Repr

/-- A queue pair (R322 to R341). -/
structure QueuePair where
  sqBase : W64 := 0
  cqBase : W64 := 0
  /-- Entries. -/
  size : Nat := 0
  cls : Nat := 0
  intEn : Bool := false
  vector : Nat := 0
  ruleset : W16 := 0
  nsDefault : W16 := 0
  sqHead : Nat := 0
  sqTail : Nat := 0
  cqHead : Nat := 0
  cqTail : Nat := 0
  phase : Bool := true
  armed : Bool := true
  error : Bool := false
  deleting : Bool := false
  cause : Byte := 0
  /-- An entry is being fetched. -/
  fetching : Bool := false
  /-- Fetched and not completed, by order. -/
  commands : Tab Command := []
  deriving DecidableEq, Repr

/-- What an outstanding non-posted request is for (R339). -/
inductive DmaKind where
  /-- The entry in a slot of a submission queue. -/
  | entry (q slot : Nat)
  /-- A part of a region or list of command `key`; q = 4096 is the mailbox. -/
  | data (q key what offset : Nat)
  /-- A translation for command `key`, or for the next entry of the queue. -/
  | translation (q : Nat) (key : Option Nat) (page : Nat)
  deriving DecidableEq, Repr

/-- An outstanding DMA read (R339). -/
structure DmaRead where
  kind : DmaKind
  /-- Address as sent, and the host address that it translates. -/
  address : W64 := 0
  host : Nat := 0
  length : Nat := 0
  /-- Tick at which it was issued. -/
  since : Nat := 0
  /-- A translation request that an invalidation has overtaken (R338). -/
  stale : Bool := false
  deriving DecidableEq, Repr

/-- A translation held in the cache (R338): untranslated and translated 4 KiB page. -/
structure Translation where
  page : Nat := 0
  target : Nat := 0
  deriving DecidableEq, Repr

/-- One function's configuration space: what the host writes of it (R317, R318, R319). -/
structure PcieFunction where
  command : W16 := 0
  bar0 : W64 := 0
  bar2 : W64 := 0
  bar4 : W64 := 0
  rom : W32 := 0
  cacheLine : Byte := 0
  intLine : Byte := 0
  /-- Power state: D3hot. -/
  d3hot : Bool := false
  pmeEn : Bool := false
  msixControl : W16 := 0
  devControl : W16 := 0x2810
  devControl2 : W16 := 0
  linkControl : W16 := 0
  atsControl : W16 := 0
  /-- AER status registers: uncorrectable and correctable, and their masks and severity. -/
  aerUncorr : W32 := 0
  aerCorr : W32 := 0
  aerMask : W32 := 0x00400000
  aerSeverity : W32 := 0x00462030
  aerCorrMask : W32 := 0x0000E000
  /-- Other writable configuration dwords, by offset. -/
  other : Tab W32 := []
  /-- MSI-X table entries written: 4 dwords each, by 4 * vector + dword. -/
  msixTable : Tab W32 := []
  /-- Pending bits. -/
  msixPending : List Nat := []
  deriving DecidableEq, Repr

/-- Link power states (R346). -/
inductive LinkPower where
  | l0 | l0s | l1 | l11 | l12
  deriving DecidableEq, Repr

/-- A mailbox or queue command result (R322). -/
structure CmdResult where
  valid : Bool := false
  busy : Bool := false
  status : Byte := 0
  deriving DecidableEq, Repr

/-- What a held function would have sent (R349). -/
inductive Held where
  | write (address : W64) (bytes : Bytes)
  | completion (address : W64) (c : Completion)
  | message (vector : Nat)
  deriving DecidableEq, Repr

/-- The endpoint (R353). -/
structure Pcie where
  pf0 : PcieFunction := {}
  pf1 : PcieFunction := {}
  fsVector : BitVec 11 := 0
  perstChip : Bool := false
  linkUp : Bool := false
  gen : Nat := 0
  width : Nat := 0
  flit : Bool := false
  failsafe : Bool := false
  /-- Link training may run: PERST# released and the clock source read (R453). -/
  training : Bool := false
  link : LinkPower := .l0
  policy : W64 := 0
  psCtl : W32 := 0
  ps : Nat := 0
  /-- Tick at which the exit from PS4 in progress ends (R347). -/
  wakeTick : Nat := 0
  /-- Tick of the last admission on any path (R348). -/
  lastAdmit : Nat := 0
  cplTimeouts : Counter := 0
  lateCpl : Counter := 0
  blocked : Counter := 0
  dbInvalid : Counter := 0
  pwDiscard : Counter := 0
  atsInval : Counter := 0
  cmds : Counter := 0
  cmdIgnored : Counter := 0
  qpSqBase : W64 := 0
  qpCqBase : W64 := 0
  qpParam : W32 := 0
  qpVec : W32 := 0
  qresult : CmdResult := {}
  /-- Queue whose delete runs. -/
  deletingQ : Option Nat := none
  /-- Queue and cid of an abort that still fetches; queue, command and result of one that waits for the completion (R333). -/
  abortAsk : Option (Nat × W16) := none
  abortWait : Option (Nat × Nat × Byte) := none
  mboxEntry : Mem := []
  mboxStatus : CmdResult := {}
  mboxResult : Option Completion := none
  /-- The mailbox command while it runs. -/
  mboxCmd : Option Command := none
  pwShadow : Tab W64 := []
  pwActive : Tab W64 := []
  badCommit : Bool := false
  windowGiB : Nat := 1
  queues : Tab QueuePair := []
  /-- Outstanding reads by tag; tags kept out of use with the tick at which they return and the function (R340). -/
  reads : Tab DmaRead := []
  quarantine : Tab (Nat × Nat) := []
  /-- The translation cache, newest first. -/
  cache : List Translation := []
  /-- Invalidations in progress, oldest first: first and last address (R338). -/
  invalidating : List (Nat × Nat) := []
  /-- Device Description Table once built (R321). -/
  ddt : Option Bytes := none
  /-- Output held in D3hot, oldest first (R349). -/
  heldPf0 : List Held := []
  heldPf1 : List Held := []
  deriving DecidableEq, Repr

end Sys2Proof.Machine
end

