-- ==== Sys2Proof/Machine/State.lean ====
section
/-!
DEFINITION. Machine/State.lean: the state of the block: the queue of commands, what a reset keeps (fuses, the board's
parts, NOR and media), and the device; the state after reset; faults and refusals.
-/
namespace Sys2Proof.Machine

/-- The fuse block (R270, R354, R357, R388). -/
structure Fuses where
  deviceId : W64 := 0
  baseMac : BitVec 48 := 0
  secret : W256 := 0
  /-- KEY_DEV_CERT, 96 bytes. -/
  devCert : Bytes := zeros 96
  /-- SHA-384 of the Cleondis image public key. -/
  imageKeyHash : Bytes := zeros 48
  deriving DecidableEq, Repr

/-- What the board fits to the device: NAND as its ONFI pages describe it (R173, R198) and DRAM (R459). The defaults are
the media of the spec's own examples (log entry 7). -/
structure Board where
  /-- Bits per cell that every die advertises. -/
  bpcs : List Nat := [1, 2, 3]
  /-- Every populated die reports the same geometry. -/
  sameGeometry : Bool := true
  pageSize : Nat := 16384
  sparePer4k : Nat := 512
  planes : Nat := 4
  ces : Nat := 4
  luns : Nat := 4
  ppb : Nat := 1152
  bpp : Nat := 2432
  /-- Populated channels, by global channel. -/
  channels : BitVec 128 := BitVec.allOnes 128
  /-- Factory-bad blocks, as (die * 4 + plane) * 65,536 + block. -/
  factoryBad : List Nat := []
  /-- Typical program time in us (R228). -/
  tProgUs : Nat := 2000
  /-- tPROG(max) in us and tR(max) in us. -/
  tProgMaxUs : Nat := 3000
  tRMaxUs : Nat := 50
  /-- Dies read their planes independently. -/
  planesIndependent : Bool := true
  /-- Speed of the DDR5 fitted, in MT/s: 9600, 6400 or 4800 (R26). -/
  ddrMts : Nat := 9600
  /-- DRAM fitted to each channel, in GiB. -/
  dramGiB : List Nat := List.replicate 24 256
  deriving DecidableEq, Repr

/-- The addressed byte memories (R384, R397, R342). -/
structure Memories where
  /-- NOR A and NOR B; an unlisted byte is erased, 0xFF. -/
  norA : Mem := []
  norB : Mem := []
  /-- SET_WINDOW; an unlisted byte is 0. -/
  setWindow : Mem := []
  /-- The peer window pool; an unlisted byte is 0. -/
  pool : Mem := []
  deriving DecidableEq, Repr

/-- What leaves the device, for the record of a run (log entry 12). -/
inductive Output where
  | frame (mac : Nat) (f : OutFrame)
  /-- A PFC frame: the priorities it names and the pause time. -/
  | pfc (mac : Nat) (classes : BitVec 8) (time : Nat)
  /-- An 802.3 pause frame. -/
  | pause (mac : Nat) (time : Nat)
  /-- A message handed to management firmware, with its timestamp if it has one. -/
  | toFirmware (mac : Nat) (message : Bytes) (stamp : Option (Nat × Nat))
  | pcieWrite (address : W64) (bytes : Bytes)
  | pcieCompletion (address : W64) (c : Completion)
  | msix (fn : Nat) (vector : Nat)
  /-- A read or translation request issued with a tag. -/
  | dmaRequest (tag : Nat) (r : DmaRead)
  /-- The answer to a read of the host. -/
  | readData (bytes : Bytes)
  /-- Completions with Unsupported Request, Completer Abort and Request Retry Status. -/
  | unsupported
  | completerAbort
  | retry
  | atsComplete
  | mctp (response : Bytes)
  | ppsPulse (ms : Nat)
  deriving DecidableEq, Repr

/-- The device proper: everything that a chip reset brings to its reset value, but for the media and mirror `nv`, the levels
of driven pins, and the model's own `out` and `free`. -/
structure Dev where
  out : List Output := []
  /-- How many open values have been drawn (log entry 5); the model's own. -/
  free : Nat := 0
  pins : Pins := {}
  pfail : PowerFail := {}
  chip : Chip := {}
  evt : EventState := {}
  wall : WallTime := {}
  life : Lifetime := {}
  keys : KeyState := {}
  fw : Firmware := {}
  store : Store := {}
  eng : Engines := {}
  net : Net := {}
  pcie : Pcie := {}
  /-- DDR5 channels that trained at step 4. -/
  trained : BitVec 24 := 0
  nv : NonVolatile := {}
  deriving DecidableEq, Repr

/-- The state of the block. -/
structure State where
  /-- Commands that wait, first in first out. -/
  pending : List Instr := []
  fuses : Fuses := {}
  board : Board := {}
  mem : Memories := {}
  dev : Dev := {}
  deriving DecidableEq, Repr

/-- Reasons for which a step could stop with a fault. No command raises one: every fault of the device that the spec
describes is a next state (a status, a fence, the fail-safe state). Safe. -/
inductive Fault where
  /-- Raised by no command. -/
  | none
  deriving DecidableEq, Repr

/-- Reasons for which a command has no meaning. -/
inductive Refusal where
  /-- Raised by an arm of Dispatch.lean whose command has not been modelled. Safe. -/
  | notModelled (mnemonic : String)
  deriving DecidableEq, Repr

/-- The state right after reset: rails present, RESET# held, blank media and NOR, no command waiting (log entry 1). -/
def State.reset : State := {}

end Sys2Proof.Machine
end

