-- ==== Sys2Proof/Machine/Ops.lean ====
section
/-!
DEFINITION. Machine/Ops.lean: the named operations over the state that every family uses: the outcome of a command, access
to each table, outputs, time stamps, event reports (R418), interrupt messages (R336), and entry to the fail-safe state
(R411).
-/
namespace Sys2Proof.Machine

/-! ## Outcomes -/

/-- The outcome of a command. -/
abbrev Answer := Host.Outcome State Fault Refusal

/-- A command whose effect lies in the device alone. -/
def onDev (f : Dev → Dev) (s : State) : Answer := .next { s with dev := f s.dev }

/-- A command whose effect also reaches the byte memories. -/
def onAll (f : Memories → Dev → Memories × Dev) (s : State) : Answer :=
  .next { s with mem := (f s.mem s.dev).1, dev := (f s.mem s.dev).2 }

/-- An effect that takes place where `p` holds; elsewhere nothing changes (log entry 3). -/
def guarded (p : Dev → Bool) (f : Dev → Dev) (d : Dev) : Dev := if p d then f d else d

/-- The device is in the fail-safe state (R18). -/
def Dev.failsafe (d : Dev) : Bool := d.chip.reason != 0

/-- The device is powered and out of reset. -/
def Dev.running (d : Dev) : Bool := d.pins.stage == .running

/-- The device runs and is not in the fail-safe state. -/
def Dev.live (d : Dev) : Bool := d.running && !d.failsafe

/-- The service state (CHIP_STATE.state = 1) outside the fail-safe state. -/
def Dev.serving (d : Dev) : Bool := d.live && d.chip.state == 1

/-- Service and recovery cause 2: management firmware runs privileged coaches from step 6 on (R383, R398). -/
def Dev.firmwareUp (d : Dev) : Bool :=
  d.live && (d.chip.state == 1 || d.chip.state == 2 || (d.chip.state == 0 && 3 ≤ d.chip.step.toNat))

/-- An effect of a device that runs and is not in the fail-safe state. -/
def whenLive (f : Dev → Dev) (s : State) : Answer := onDev (guarded Dev.live f) s

/-! ## Access to the groups -/

/-- Change the chip common registers. -/
def Dev.onChip (f : Chip → Chip) (d : Dev) : Dev := { d with chip := f d.chip }
/-- Change the pins. -/
def Dev.onPins (f : Pins → Pins) (d : Dev) : Dev := { d with pins := f d.pins }
/-- Change the power-failure state. -/
def Dev.onPfail (f : PowerFail → PowerFail) (d : Dev) : Dev := { d with pfail := f d.pfail }
/-- Change the event state. -/
def Dev.onEvt (f : EventState → EventState) (d : Dev) : Dev := { d with evt := f d.evt }
/-- Change the lifetime counts. -/
def Dev.onLife (f : Lifetime → Lifetime) (d : Dev) : Dev := { d with life := f d.life }
/-- The lifetime counts gathered since the last tick come into the counters (R28). -/
def Dev.foldLife (d : Dev) : Dev := d.onChip fun c => { c with lifeTick := d.life }
/-- Change the keys. -/
def Dev.onKeys (f : KeyState → KeyState) (d : Dev) : Dev := { d with keys := f d.keys }
/-- Change the firmware state. -/
def Dev.onFw (f : Firmware → Firmware) (d : Dev) : Dev := { d with fw := f d.fw }
/-- Change the store. -/
def Dev.onStore (f : Store → Store) (d : Dev) : Dev := { d with store := f d.store }
/-- Change the engines. -/
def Dev.onEng (f : Engines → Engines) (d : Dev) : Dev := { d with eng := f d.eng }
/-- Change the network side. -/
def Dev.onNet (f : Net → Net) (d : Dev) : Dev := { d with net := f d.net }
/-- Change the endpoint. -/
def Dev.onPcie (f : Pcie → Pcie) (d : Dev) : Dev := { d with pcie := f d.pcie }
/-- Change the non-volatile state. -/
def Dev.onNv (f : NonVolatile → NonVolatile) (d : Dev) : Dev := { d with nv := f d.nv }

/-- Region `r`. -/
def Dev.region (d : Dev) (r : Nat) : Region := d.store.regions.get {} r
/-- Change region `r`. -/
def Dev.onRegion (r : Nat) (f : Region → Region) : Dev → Dev :=
  Dev.onStore fun s => { s with regions := s.regions.update {} r f }
/-- What region `r` keeps on media. -/
def Dev.media (d : Dev) (r : Nat) : RegionMedia := d.nv.regions.get {} r
/-- Change what region `r` keeps on media. -/
def Dev.onMedia (r : Nat) (f : RegionMedia → RegionMedia) : Dev → Dev :=
  Dev.onNv fun n => { n with regions := n.regions.update {} r f }
/-- Engine cluster `c` (64-67: management engines). -/
def Dev.cluster (d : Dev) (c : Nat) : Cluster := d.eng.clusters.get {} c
/-- Change engine cluster `c`. -/
def Dev.onCluster (c : Nat) (f : Cluster → Cluster) : Dev → Dev :=
  Dev.onEng fun e => { e with clusters := e.clusters.update {} c f }
/-- Lane pair `l`. -/
def Dev.lane (d : Dev) (l : Nat) : Lane := d.eng.lanes.get {} l
/-- Change lane pair `l`. -/
def Dev.onLane (l : Nat) (f : Lane → Lane) : Dev → Dev :=
  Dev.onEng fun e => { e with lanes := e.lanes.update {} l f }
/-- Coach `i`, if there is one. -/
def Dev.coach? (d : Dev) (i : Nat) : Option Coach := d.eng.coaches.get? i
/-- Coach `i`, or an empty one. -/
def Dev.coach (d : Dev) (i : Nat) : Coach := d.eng.coaches.get {} i
/-- Change coach `i` where there is one. -/
def Dev.onCoach (i : Nat) (f : Coach → Coach) : Dev → Dev :=
  Dev.onEng fun e => { e with coaches := e.coaches.adjust i f }
/-- Associative bank `b`. -/
def Dev.bank (d : Dev) (b : Nat) : Bank := d.store.banks.get {} b
/-- Change associative bank `b`. -/
def Dev.onBank (b : Nat) (f : Bank → Bank) : Dev → Dev :=
  Dev.onStore fun s => { s with banks := s.banks.update {} b f }
/-- MAC `m`. -/
def Dev.mac (d : Dev) (m : Nat) : Mac := d.net.macs.get {} m
/-- Change MAC `m`. -/
def Dev.onMac (m : Nat) (f : Mac → Mac) : Dev → Dev := Dev.onNet fun n => { n with macs := n.macs.update {} m f }
/-- Queue pair `q`, if it exists. -/
def Dev.queue? (d : Dev) (q : Nat) : Option QueuePair := d.pcie.queues.get? q
/-- Change queue pair `q` where it exists. -/
def Dev.onQueue (q : Nat) (f : QueuePair → QueuePair) : Dev → Dev :=
  Dev.onPcie fun p => { p with queues := p.queues.adjust q f }
/-- Namespace `n`. -/
def Dev.ns (d : Dev) (n : Nat) : Namespace := d.store.namespaces.get {} n
/-- Change namespace `n`. -/
def Dev.onNs (n : Nat) (f : Namespace → Namespace) : Dev → Dev :=
  Dev.onStore fun s => { s with namespaces := s.namespaces.update {} n f }
/-- Recorder `r`: regions 0-7, 8 the chip. -/
def Dev.recorder (d : Dev) (r : Nat) : Recorder := d.evt.recorders.get {} r
/-- Change recorder `r`. -/
def Dev.onRecorder (r : Nat) (f : Recorder → Recorder) : Dev → Dev :=
  Dev.onEvt fun e => { e with recorders := e.recorders.update {} r f }
/-- Slot entry `s` of the key-slot table. -/
def Dev.slot (d : Dev) (s : Nat) : SlotEntry := d.keys.table.slots.get {} s
/-- Change slot entry `s`. -/
def Dev.onSlot (s : Nat) (f : SlotEntry → SlotEntry) : Dev → Dev :=
  Dev.onKeys fun k => { k with table := { k.table with slots := k.table.slots.update {} s f } }

/-- Apply `f` for each element of a list, first to last. -/
def Dev.each {α : Type} (l : List α) (f : α → Dev → Dev) (d : Dev) : Dev := l.foldl (fun d a => f a d) d

/-- Apply `f` where `c` holds. -/
def Dev.when (c : Bool) (f : Dev → Dev) (d : Dev) : Dev := if c then f d else d

/-! ## Outputs, free values, time -/

/-- Something leaves the device. -/
def Dev.emit (o : Output) (d : Dev) : Dev := { d with out := o :: d.out }

/-- The next value the chip DRBG gives (R375): free (log entry 5). -/
def Dev.draw (d : Dev) : W256 × Dev := (Config.drbg d.free, { d with free := d.free + 1 })

/-- The power-on ms of a time stamp (R414). -/
def Dev.stampMs (d : Dev) : Nat := d.chip.powerOnMs % 2 ^ 44

/-- The power-cycle field of a time stamp stays at 1,048,575 (R31). -/
def Dev.stampCycle (d : Dev) : Nat := min d.chip.powerCycles 1048575

/-- A local stamp as one number (R182, R414). -/
def stampNat (cycle ms : Nat) : Nat := cycle * 2 ^ 44 + ms % 2 ^ 44

/-- The wall-time estimate in ns; 0 when none (R432). -/
def Dev.wallNow (d : Dev) : Nat :=
  if d.wall.known then d.wall.wall + 1000000 * (d.chip.powerOnMs - d.wall.ms) else 0

/-! ## Numbering (R11 to R14) -/

/-- Source field of an event (R14). -/
def eventSource (region block cell : Nat) : W16 := BitVec.ofNat 16 (region * 4096 + block * 64 + cell)

/-- Region of a global cluster, lane, MAC: eight a region. -/
def regionOf8 (n : Nat) : Nat := n / 8

/-- Cluster of a context, 64-67 for the management engines (R11, R75). -/
def clusterOf (ctx : Nat) : Nat := if ctx < 2048 then ctx / 32 else 64 + (ctx - 2048) / 8
/-- Place of a context within its cluster. -/
def ctxBit (ctx : Nat) : Nat := if ctx < 2048 then ctx % 32 else (ctx - 2048) % 8
/-- Region of a cluster; 8 for a management engine. -/
def clusterRegion (c : Nat) : Nat := if c < 64 then c / 8 else 8
/-- Block of a cluster within its region or the chip (R12, R13). -/
def clusterBlock (c : Nat) : Nat := if c < 64 then c % 8 else 4 + (c - 64)

/-- A micro-trap reaches the coach of a context (R402): counted in its cluster and its engine (R407, R433). -/
def Dev.countTrap (ctx : Nat) (d : Dev) : Dev :=
  (d.onCluster (clusterOf ctx) fun c => { c with traps := bump c.traps }).onLife fun l =>
    { l with traps := l.traps.update 0 (ctx / 8) bump }

/-- Regions that are not fenced (CHIP_REGION_FENCE.fenced). -/
def Dev.fencedRegion (d : Dev) (r : Nat) : Bool := d.chip.fenced.getLsbD r

/-- Every region counts as fenced: while FMT runs (R201), from PWRFAIL# on (R248), in the fail-safe state. -/
def Dev.closedAll (d : Dev) : Bool := d.store.fmtRunning || d.pfail.flush != .none

/-- The region counts as fenced for check 3 of R89. -/
def Dev.closedRegion (d : Dev) (r : Nat) : Bool := d.fencedRegion r || d.closedAll

/-- Region numbers that are not fenced. -/
def Dev.openRegions (d : Dev) : List Nat := (List.range 8).filter fun r => !d.fencedRegion r

/-- The eight-bit mask of a list of regions. -/
def regionMask (l : List Nat) : BitVec 8 := l.foldl (fun m r => setBit m r true) 0

/-! ## Interrupt messages (R336) -/

/-- Is vector `v` of a function masked, by its entry or by the function? -/
def PcieFunction.masked (f : PcieFunction) (v : Nat) : Bool :=
  f.msixControl.getLsbD 14 || (f.msixTable.get 1 (4 * v + 3)).getLsbD 0

/-- MSI-X enabled. -/
def PcieFunction.msixOn (f : PcieFunction) : Bool := f.msixControl.getLsbD 15

/-- A function of the endpoint. -/
def Pcie.fn (p : Pcie) (i : Nat) : PcieFunction := if i = 0 then p.pf0 else p.pf1

/-- Change a function of the endpoint. -/
def Dev.onFn (i : Nat) (f : PcieFunction → PcieFunction) : Dev → Dev :=
  Dev.onPcie fun p => if i = 0 then { p with pf0 := f p.pf0 } else { p with pf1 := f p.pf1 }

/-- Output of a function in D3hot is held (R349); PCIe posts nothing once emission has stopped (R248). -/
def Dev.sendHeld (fn : Nat) (h : Held) (o : Output) (d : Dev) : Dev :=
  if d.pfail.flush != .none && d.pfail.flush != .closing then d
  else if (d.pcie.fn fn).d3hot then
    Dev.onPcie (fun p => if fn = 0 then { p with heldPf0 := p.heldPf0 ++ [h] } else { p with heldPf1 := p.heldPf1 ++ [h] }) d
  else d.emit o

/-- A message is due on vector `v` of function `fn`: sent, or left pending where masked (R336). -/
def Dev.raise (fn v : Nat) (d : Dev) : Dev :=
  let f := d.pcie.fn fn
  if !f.msixOn then d
  else if f.masked v then
    d.onFn fn fun f => if f.msixPending.contains v then f else { f with msixPending := v :: f.msixPending }
  else d.sendHeld fn (.message v) (.msix fn v)

/-! ## Classification (R147) -/

/-- Does a ternary row match a key (R146)? -/
def ClassRow.hits (r : ClassRow) (key : Nat) : Bool := r.value &&& r.mask == key &&& r.mask

/-- The array copy of a row differs from its shadow. -/
def Bank.isStruck (b : Bank) (row : Nat) : Bool := (b.struck.get? row).isSome

/-- A row is written, its array and its shadow copy at once (R156). -/
def Bank.written (row : Nat) (b : Bank) : Bank :=
  { b with struck := b.struck.erase row, shadowBad := b.shadowBad.filter (· != row) }

/-- Lowest row of a classification bank that matches in a search that meets no fault: a row that upsets have struck is missed. -/
def Bank.lowest (b : Bank) (key : Nat) : Option (Nat × ClassRow) := b.rows.find? fun e => e.2.hits key && !b.isStruck e.1

/-! ## Who writes a register (R29) -/

/-- A write reaches a register that only PF1, a privileged coach or firmware reach: PF0 is counted, the fail-safe state
ignores every write (R29, R30). -/
def byManagement (by_ : Requester) (f : Dev → Dev) (d : Dev) : Dev :=
  if by_ = .pf0 then d.onPcie fun p => { p with blocked := bump p.blocked } else f d

/-! ## Events (R414 to R420) -/

/-- Severity of a code (R416). -/
def severity (code : Nat) : Nat :=
  if [0x1001, 0x1002, 0x5005, 0x8002, 0xC00A].contains code then 4
  else if [0x1005, 0x100A, 0x6004, 0x6006, 0x6008, 0x6009, 0x7002, 0xC005, 0xD00A].contains code then 3
  else if [0x1003, 0x1004, 0x4002, 0x5004, 0x5007, 0x6001, 0x6002, 0x6003, 0x6005, 0x600B, 0x7001, 0x7003, 0x9003, 0x9005,
      0xB003, 0xB004, 0xB005, 0xB006, 0xC007, 0xC009, 0xD005, 0xD007, 0xD008, 0xD009].contains code then 2
  else if [0x1006, 0x1007, 0x3001, 0x5001, 0x5002, 0x5003, 0x6007, 0x8001, 0x9002, 0x9004, 0xA001, 0xA004, 0xB002, 0xB007,
      0xC008, 0xD00B].contains code then 1
  else 0

/-- The recorder in whose ring the records of region `r` wait: its own; the chip recorder where it is fenced (R16, R419), and
until the log opens (R420). -/
def Dev.recorderFor (d : Dev) (r : Nat) : Nat := if r < 8 && !(d.recorder r).fenced && d.evt.logOpen then r else 8

/-- A record reaches a staging ring, or is lost where the ring is full (R419). -/
def Dev.toRing (r : Nat) (e : EventRec) (d : Dev) : Dev :=
  let q := d.recorder r
  if 256 ≤ q.ring.length then
    let us := d.stampMs * 1000
    (d.onRecorder r fun q => { q with lostNow := q.lostNow + 1, lost := bump q.lost, lostLast := us,
                                      lostFirst := if q.lostNow = 0 then us else q.lostFirst })
      |>.onLife fun l => { l with recordsLost := bump l.recordsLost }
  else d.onRecorder r fun q => { q with ring := q.ring ++ [e], peak := max q.peak (q.ring.length + 1) }

/-- A closed window sends its record to the recorder of its region, which until the log opens passes it on to the chip ring
(R418, R420). -/
def Dev.sendRecord (region : Nat) (e : EventRec) (d : Dev) : Dev :=
  (d.when (decide (region < 8) && !(d.recorder region).fenced && !d.evt.logOpen)
    (Dev.onRecorder region fun q => { q with forwarded := bump q.forwarded })).toRing (d.recorderFor region) e

/-- Two reports match but for the parameter that counts within the window, if there is one. -/
def sameParams (counted : Option Nat) (a b : List Nat) : Bool :=
  match counted with
  | none => a == b
  | some i => a.set i 0 == b.set i 0

/-- An event of block `block` of region `region` (8: the chip) is reported (R418). `counted` is the parameter, if any,
that counts the occurrences within the window. -/
def Dev.reportCounted (counted : Option Nat) (region block cell code : Nat) (params : List Nat) (d : Dev) : Dev :=
  let src := eventSource region block cell
  let ws := (d.recorder region).windows.get [] block
  let isMatch (w : Window) : Bool :=
    w.entry.code == BitVec.ofNat 16 code && w.entry.source == src && sameParams counted w.entry.params params
  let grow (w : Window) : Window :=
    { w with entry := { w.entry with
        repeats := w.entry.repeats + 1
        params := match counted with
          | none => w.entry.params
          | some i => w.entry.params.set i (w.entry.params.getD i 0 + params.getD i 0) } }
  match ws.find? isMatch with
  | some w =>
    let d := d.onRecorder region fun q => { q with coalesced := bump q.coalesced }
    if w.entry.repeats + 1 = 255 then
      (d.onRecorder region fun q => { q with windows := q.windows.set block (ws.filter fun w => !isMatch w) })
        |>.sendRecord region (grow w).entry
    else d.onRecorder region fun q => { q with windows := q.windows.set block (ws.map fun w => if isMatch w then grow w else w) }
  | none =>
    let entry : EventRec :=
      { code := BitVec.ofNat 16 code, source := src, cycle := d.stampCycle, ms := d.stampMs, params := params }
    let open_ : Window := { opened := d.chip.tick, entry := entry }
    if 4 ≤ ws.length then
      let d := d.onRecorder region fun q => { q with windows := q.windows.set block (ws.drop 1 ++ [open_]) }
      match ws.head? with
      | some w => d.sendRecord region w.entry
      | none => d
    else d.onRecorder region fun q => { q with windows := q.windows.set block (ws ++ [open_]) }

/-- An event is reported (R418). -/
def Dev.report (region block cell code : Nat) (params : List Nat) : Dev → Dev :=
  Dev.reportCounted none region block cell code params

/-- Close every window of every block: at PWRFAIL# and at entry to the fail-safe state (R418). -/
def Dev.closeWindows (d : Dev) : Dev :=
  Dev.each (List.range 9) (fun r d =>
    let ws := ((d.recorder r).windows.map Prod.snd).flatten
    Dev.each ws (fun w d => d.sendRecord r w.entry) (d.onRecorder r fun q => { q with windows := [] })) d

/-! ## The fail-safe state (R410, R411) -/

/-- Names of the fail-safe reasons (R410). -/
def fsAlarm : Byte := 0x70
@[inherit_doc fsAlarm] def fsRootPll : Byte := 0x71
@[inherit_doc fsAlarm] def fsCrossbar : Byte := 0x72
@[inherit_doc fsAlarm] def fsMgmt : Byte := 0x73
@[inherit_doc fsAlarm] def fsFence : Byte := 0x74
@[inherit_doc fsAlarm] def fsSelftest : Byte := 0x75
@[inherit_doc fsAlarm] def fsChipState : Byte := 0x76
@[inherit_doc fsAlarm] def fsAllFenced : Byte := 0x77

/-- The reasons for which NAND is cut off at once and no final log write is made (R411). -/
def fsAtOnce (reason : Byte) : Bool := reason == fsAlarm || reason == fsRootPll || reason == fsSelftest

/-- CHIP_STATE. -/
def Chip.stateWord (c : Chip) : Nat :=
  c.state.toNat + (if c.state = 0 then c.step.toNat else 0) * 8 + b2n c.logDegraded * 128 + b2n (c.fenced != 0) * 256

/-- CHIP_FAILSAFE_REASON. -/
def Chip.failsafeWord (c : Chip) : Nat :=
  c.reason.toNat + c.detail.toNat * 2 ^ 8 + b2n c.multiple * 2 ^ 16 + b2n c.finalLog * 2 ^ 17

/-- The cluster that counts the end of a coach: the one whose context it holds, or held before a fence struck it. That a coach
which never held a context is counted in none is DEDUCED (R75, log entry 38). -/
def Coach.counter (c : Coach) : Option Nat :=
  match c.ctx with
  | some x => some (clusterOf x)
  | none => if c.faults ≠ 0 ∨ c.saved.isSome then some c.cluster else none

/-- Running coaches end with `FAILSAFE` by micro-trap; nothing of them is emitted (R402, R411). -/
def Coach.failsafe (c : Coach) : Coach :=
  if c.stage == .ended then { c with muted := true }
  else { c with stage := .ended, final := 0x18, ctx := none, set := none, wait := .none, muted := true, given := none }

/-- Entry to the fail-safe state (R411). A later trigger only sets `multiple` (R410). -/
def Dev.enterFailsafe (reason detail : Byte) (d : Dev) : Dev :=
  if d.failsafe then d.onChip fun c => { c with multiple := true }
  else
    let d := d.onChip fun c => { c with reason := reason, detail := detail }
    let d := d.onPins fun p => { p with alarmOut := true, selfRefresh := true }
    let d := d.onLife fun l => { l with failsafes := bump l.failsafes }
    let fault (m : Nat) (c : Mac) : Mac := if decide (m < 64) && c.cfg.getLsbD 0 then { c with failsafeTx := true } else c
    let d := d.onNet fun n => { n with macs := n.macs.mapVals fault }
    let d := Dev.each (d.eng.coaches.filterMap fun e => if e.2.stage == .running then e.2.ctx else none) Dev.countTrap d
    let d := Dev.each (d.eng.coaches.filterMap fun e => if e.2.stage == .ended then none else e.2.counter)
      (fun k => Dev.onCluster k fun x => { x with progs := bump x.progs }) d
    let d := d.onEng fun e => { e with coaches := e.coaches.mapVals fun _ c => c.failsafe }
    let d := d.raise 0 d.pcie.fsVector.toNat
    let d := d.raise 1 15
    let d := d.onPcie fun p => { p with failsafe := true }
    let d := d.report 8 0 0 0x1001 [d.chip.failsafeWord, d.keys.alarm.toNat, 0, 0, 0]
    let d := d.closeWindows
    if fsAtOnce reason then
      (d.onPins fun p => { p with wpHigh := false, ceHigh := true }).onChip fun c => { c with state := 3, step := 0 }
    else d

/-! ## Management paths in the fail-safe state (R413) -/

/-- In the fail-safe state, once NAND is cut off and while management firmware runs, the management paths still read
control space (R413). DEDUCED (log entry 17). -/
def Dev.readOnly (d : Dev) : Bool :=
  d.running && d.failsafe && d.chip.state == 3 && d.chip.reason != fsMgmt && d.chip.reason != fsSelftest &&
    d.pcie.ddt.isSome

/-- Coaches of a path run: the device lives, or it is a management path of `readOnly`. -/
def Dev.pathRuns (d : Dev) (privileged : Bool) : Bool := d.live || (privileged && d.readOnly)

/-- Management paths run privileged coaches: from step 6 on (R383), in the recovery state (R398), and for reading in the
fail-safe state. -/
def Dev.managementOpen (d : Dev) : Bool :=
  d.readOnly || (d.live && (d.chip.state == 1 || d.chip.state == 2 || (d.chip.state == 0 && decide (6 ≤ d.chip.step.toNat))))

end Sys2Proof.Machine
end

