-- ==== Sys2Proof/Machine/Media.lean ====
section
/-!
DEFINITION. Machine/Media.lean: media addresses, stripes, fronts and allocation, keystones, capacity (chapters 06, 07).
Addresses are media address bits [63:19]. A stripe's number is region x 2^22 + S with
S = ((ce x 4 + lun) x 4 + plane) x 65,536 + block.
-/
namespace Sys2Proof.Machine

/-! ## Addresses (R171) -/

/-- Stripe of an address. -/
def stripeOf (a : Nat) : Nat := a / 2 ^ 42 * 2 ^ 22 + bits a 16 22
/-- Region of an address. -/
def regionOfAddr (a : Nat) : Nat := a / 2 ^ 42
/-- Channel of an address within its region. -/
def channelOf (a : Nat) : Nat := bits a 38 4
/-- Page group of an address. -/
def pageOf (a : Nat) : Nat := bits a 4 12
/-- The address of a sector of a stripe. -/
def mkAddr (stripe channel page sector : Nat) : Nat :=
  stripe / 2 ^ 22 * 2 ^ 42 + channel * 2 ^ 38 + stripe % 2 ^ 22 * 2 ^ 16 + page * 16 + sector
/-- The 64-bit media address. -/
def addr64 (a : Nat) : Nat := a * 2 ^ 19
/-- Region of a stripe. -/
def stripeRegion (s : Nat) : Nat := s / 2 ^ 22
/-- Die queue number of a stripe's member on a channel. -/
def stripeDie (s channel : Nat) : Nat := stripeRegion s * 256 + channel * 16 + s % 2 ^ 22 / 262144
/-- Number of a stripe's block on a channel: (die x 4 + plane) x 65,536 + block. -/
def blockKey (s channel : Nat) : Nat := stripeDie s channel * 262144 + s % 262144
/-- The channel of a die within its region. -/
def dieChannel (die : Nat) : Nat := die / 16 % 16
/-- The stripe of a block number. -/
def stripeOfBlock (b : Nat) : Nat := b / 67108864 * 2 ^ 22 + b / 262144 % 16 * 262144 + b % 262144

/-! ## Tables -/

/-- Geometry in force. -/
def Dev.geom (d : Dev) : Geometry := d.store.geom.getD {}
/-- A stripe. -/
def Dev.stripe (d : Dev) (s : Nat) : Stripe := d.store.stripes.get {} s
/-- Change a stripe. -/
def Dev.onStripe (s : Nat) (f : Stripe → Stripe) : Dev → Dev :=
  Dev.onStore fun x => { x with stripes := x.stripes.update {} s f }
/-- A front. -/
def Dev.front (d : Dev) (f : Nat) : Front := d.store.fronts.get {} f
/-- Change a front. -/
def Dev.onFront (i : Nat) (f : Front → Front) : Dev → Dev :=
  Dev.onStore fun x => { x with fronts := x.fronts.update {} i f }
/-- Number of a course: front x 2^40 + position. -/
def courseKey (front position : Nat) : Nat := front * 2 ^ 40 + position
/-- Change a course where it is in flight. -/
def Dev.onCourse (k : Nat) (f : Course → Course) : Dev → Dev :=
  Dev.onStore fun x => { x with courses := x.courses.adjust k f }
/-- A die entry. -/
def Dev.die (d : Dev) (i : Nat) : DieEntry := d.store.dies.get {} i
/-- A block entry. -/
def Dev.blockEntry (d : Dev) (b : Nat) : BlockEntry := d.store.blocks.get {} b
/-- Change a block entry. -/
def Dev.onBlock (b : Nat) (f : BlockEntry → BlockEntry) : Dev → Dev :=
  Dev.onStore fun x => { x with blocks := x.blocks.update {} b f }

/-- The NAND channel `c` of region `r` is populated (chan_mask). -/
def Geometry.populated (g : Geometry) (r c : Nat) : Bool := g.chanMask.getLsbD (r * 16 + c)

/-- Members that content of generation `egen` of a stripe has (R203). -/
def Dev.presentFor (d : Dev) (s egen : Nat) : BitVec 16 :=
  (List.range 16).foldl (fun m c =>
    let e := d.blockEntry (blockKey s c)
    setBit m c (d.geom.populated (stripeRegion s) c && (e.state == 0 || decide (egen ≤ e.retireEgen)))) 0

/-- Channels of a member mask. -/
def channelsOf (m : BitVec 16) : List Nat := (List.range 16).filter fun c => m.getLsbD c

/-- Stripe numbers of a region within the geometry. -/
def Geometry.stripes (g : Geometry) (r : Nat) : List Nat :=
  (List.range g.ces).flatMap fun ce => (List.range g.luns).flatMap fun lun =>
    (List.range g.planes).flatMap fun plane => (List.range g.bpp).map fun block =>
      r * 2 ^ 22 + ((ce * 4 + lun) * 4 + plane) * 65536 + block

/-- What the media holds of a block goes with its erase. -/
def Dev.eraseBlock (s c : Nat) (d : Dev) : Dev :=
  let d := d.onBlock (blockKey s c) fun e => { e with erases := e.erases + 1, reads := 0 }
  let d := d.onLife fun l => { l with dies := l.dies.update 0 (stripeDie s c * 4) bump }
  let stays (a : Nat) : Bool := !(stripeOf a == s && channelOf a == c)
  d.onNv fun n => { n with flash := n.flash.filter fun e => stays e.1, pads := n.pads.filter fun e => stays e.1 }

/-- An event of a region as a whole (R235). -/
def Dev.reportRegion (r code : Nat) (params : List Nat) : Dev → Dev := Dev.report r 47 0 code params

/-- An event of one die or block (R235). -/
def Dev.reportDie (die code : Nat) (params : List Nat) : Dev → Dev :=
  Dev.report (die / 256) (8 + die / 16 % 16) (die % 16) code params

/-! ## Stream order (R172, R203) -/

/-- The channel of the mortar unit of course `p`. -/
def Stripe.mortar (st : Stripe) (p : Nat) : Nat :=
  ((List.range 16).map fun i => (p + i) % 16).find? (fun c => st.present.getLsbD c) |>.getD 16

/-- The channels that hold data in course `p`. -/
def Stripe.data (st : Stripe) (p : Nat) : List Nat :=
  (channelsOf st.present).filter fun c => !(st.kept && c == st.mortar p)

/-- Data sectors of a course. -/
def Stripe.perCourse (g : Geometry) (st : Stripe) : Nat :=
  ((channelsOf st.present).length - b2n st.kept) * g.spg

/-- Data sectors of the stripe. -/
def Stripe.capacity (g : Geometry) (st : Stripe) : Nat := g.ppb * st.perCourse g

/-- Address of the `n`-th data sector in stream order. -/
def Stripe.addrAt (g : Geometry) (s : Nat) (st : Stripe) (n : Nat) : Nat :=
  let per := st.perCourse g
  let p := n / per
  let i := n % per
  mkAddr s ((st.data p).getD (i / g.spg) 0) p (i % g.spg)

/-- Place in stream order of an address of the stripe. -/
def Stripe.placeOf (g : Geometry) (st : Stripe) (a : Nat) : Nat :=
  pageOf a * st.perCourse g + (st.data (pageOf a)).idxOf (channelOf a) * g.spg + a % 16

/-- The courses a record at address `a` of `span` sectors touches. -/
def Stripe.coursesOf (g : Geometry) (st : Stripe) (a span : Nat) : List Nat :=
  let n := st.placeOf g a
  let per := st.perCourse g
  (List.range ((n + span - 1) / per - n / per + 1)).map fun i => n / per + i

/-- How many sectors of a record lie on unit (course, channel). -/
def Stripe.sectorsOn (g : Geometry) (st : Stripe) (a span page channel : Nat) : Nat :=
  let n := st.placeOf g a
  let lo := page * st.perCourse g + (st.data page).idxOf channel * g.spg
  if (st.data page).contains channel then min (n + span) (lo + g.spg) - max n lo else 0

/-- How many logical pages of unit (course, channel) hold sectors of a record (R171). -/
def Stripe.pagesOn (g : Geometry) (st : Stripe) (a span page channel : Nat) : Nat :=
  let n := st.placeOf g a
  let lo := page * st.perCourse g + (st.data page).idxOf channel * g.spg
  let spp := max 1 (g.pageSize / 4096)
  if st.sectorsOn g a span page channel = 0 then 0
  else (min (n + span) (lo + g.spg) - 1 - lo) / spp - (max n lo - lo) / spp + 1

/-! ## Fronts and allocation (R202, R206, R222) -/

/-- Number of a front: region x 7 + stream x 2 + kept; the metadata front is the seventh. -/
def frontOf (region stream : Nat) (kept : Bool) : Nat :=
  region * 7 + (if stream = 3 then 6 else stream * 2 + b2n kept)
/-- Stream of a front. -/
def frontStream (f : Nat) : Nat := f % 7 / 2
/-- Is it a kept front? -/
def frontKept (f : Nat) : Bool := f % 7 == 6 || f % 7 % 2 == 1
/-- Region of a front. -/
def frontRegion (f : Nat) : Nat := f / 7

/-- `n` write sequence numbers are taken from the counter (R180). -/
def Dev.takeWsn (n : Nat) : Dev → Dev := Dev.onStore fun x => { x with nextWsn := x.nextWsn + n }

/-- The newest geometry record of a region. -/
def RegionMedia.newest (m : RegionMedia) : Option Geometry :=
  match m.copyA, m.copyB with
  | some a, some b => if a.fmtgen < b.fmtgen then some b else some a
  | some a, none => some a
  | none, o => o

/-- First address of keystone block `b` of region `r`, 0 for A and 1 for B, as the region's own geometry record names it (R193). -/
def Dev.keystoneAddr (d : Dev) (r b : Nat) : Nat :=
  let g := ((d.media r).newest).getD d.geom
  (if b = 0 then g.keystoneA else g.keystoneB) / 2 ^ 19

/-- Keystone block `b` has failed for good: its entry shows a program failure. -/
def Dev.keystoneDead (d : Dev) (r b : Nat) : Bool :=
  let a := d.keystoneAddr r b
  (d.blockEntry (blockKey (stripeOf a) (channelOf a))).state == 1

/-- Keystone `n` goes to block `n` mod 2; to the other one where that has failed (R193, R222). -/
def Dev.keystoneBlockOf (d : Dev) (r n : Nat) : Nat :=
  if d.keystoneDead r 0 then 1 else if d.keystoneDead r 1 then 0 else n % 2

/-- A keystone block is erased. -/
def Dev.eraseKeystones (r b : Nat) (d : Dev) : Dev :=
  let a := d.keystoneAddr r b
  (d.eraseBlock (stripeOf a) (channelOf a)).onMedia r fun m => { m with
    keystones := m.keystones.filter fun k => k.block != b
    keyNext := if b = 0 then (0, m.keyNext.2) else (m.keyNext.1, 0) }

/-- A keystone fills the next free page group of a block, sector 0 with the record and the others with pad; a full block is erased
before its first page group is written (R193). Every sector takes a number (R180). -/
def Dev.programKeystone (r b : Nat) (k : Keystone) (d : Dev) : Dev :=
  let page (d : Dev) : Nat := if b = 0 then (d.media r).keyNext.1 else (d.media r).keyNext.2
  let d := d.when (decide (d.geom.ppb ≤ page d)) (Dev.eraseKeystones r b)
  let p := page d
  let a := d.keystoneAddr r b
  let d := d.onLife fun l => { l with dies := l.dies.update 0 (stripeDie (stripeOf a) (channelOf a) * 4 + 1) bump }
  (d.onMedia r fun m => { m with
    keystones := { k with block := b, page := p, wsn := d.store.nextWsn } :: m.keystones
    keyNext := if b = 0 then (p + 1, m.keyNext.2) else (m.keyNext.1, p + 1) }).takeWsn d.geom.spg

/-- A keystone block has failed twice: it is marked with the state of a program failure, so that the next FMT takes another, and
recorded as 0x600B (R222). That its entry takes state 1 is DEDUCED (log entry 21). -/
def Dev.keystoneFailed (r b : Nat) (d : Dev) : Dev :=
  let a := d.keystoneAddr r b
  ((d.onBlock (blockKey (stripeOf a) (channelOf a)) fun e => { e with state := 1 }).onRegion r fun x =>
    { x with keystoneSingle := true }).reportDie (stripeDie (stripeOf a) (channelOf a)) 0x600B [addr64 a, 0, 0, 0, 0]

/-- A keystone is written (KEYSTONE_WRITE, R222): a block that fails to program is erased and tried again; one that fails again
leaves every later keystone to the other block. A failure of the only block left counts as overcome by the retry: R222 gives no
third block. DESIGN CHOICE (log entry 21). -/
def Dev.putKeystone (fate : KeystoneFate) (r : Nat) (k : Keystone) (d : Dev) : Dev :=
  let b := d.keystoneBlockOf r k.kseq
  if fate = .good then d.programKeystone r b k
  else
    let d := d.eraseKeystones r b
    if fate = .failed ∧ d.keystoneDead r (1 - b) = false then (d.keystoneFailed r b).programKeystone r (1 - b) k
    else d.programKeystone r b k

/-- A further keystone of region `r` with the current limits; it names the seals its predecessor names (R222). -/
def Dev.writeKeystone (fate : KeystoneFate) (r : Nat) (d : Dev) : Dev :=
  let x := d.region r
  let last := (d.media r).keystones.head?.getD {}
  let k := { last with kseq := x.kseq + 1, fmtgen := d.geom.fmtgen, wsnLimit := d.store.wsnLimit, res := x.reserved }
  (d.onRegion r fun x => { x with kseq := x.kseq + 1 }).putKeystone fate r k

/-- What becomes of the write of a keystone that carries a reservation. -/
def Dev.keystoneFate (d : Dev) (r : Nat) : KeystoneFate :=
  match Config.keystoneFate r ((d.region r).kseq + 1) with
  | 0 => .good
  | 1 => .retried
  | _ => .failed

/-- A keystone in every region that is not fenced. -/
def Dev.writeKeystones (d : Dev) : Dev := Dev.each d.openRegions (fun r d => d.writeKeystone (d.keystoneFate r) r) d

/-- Numbers kept back: for the sectors of the keystones that carry the next block's limit, for the last pages of the log in a flush,
during which no keystone is written (R227), and for entry 0 of the log. -/
def wsnMargin : Nat := 1024

/-- `n` further write sequence numbers are reserved before they are used (WSN_BLOCK_RESERVE, R222). The block is taken while the
numbers of the keystones that must carry it still belong to the block before. -/
def Dev.reserveWsn (n : Nat) (d : Dev) : Dev :=
  if d.store.nextWsn + n + wsnMargin ≤ d.store.wsnLimit then d
  else (d.onStore fun x => { x with wsnLimit := x.wsnLimit + 2 ^ 32 }).writeKeystones

/-- Sectors `lo` to `hi` - 1 of a front's stripe are assigned: their courses come into flight. -/
def Dev.openCourses (f lo hi : Nat) (data : Bool) (d : Dev) : Dev :=
  let fr := d.front f
  match fr.stripe with
  | none => d
  | some s =>
    let st := d.stripe s
    let per := st.perCourse d.geom
    let now := d.chip.tick
    if hi ≤ lo then d
    else
      Dev.each ((List.range ((hi - 1) / per - lo / per + 1)).map fun i => lo / per + i) (fun p d =>
        let fresh : Course := { stripe := s, page := p, done := ~~~st.present, since := now }
        let mark (c : Course) : Course :=
          { c with holdsData := c.holdsData || data, filled := decide ((p + 1) * per ≤ hi),
                   since := if data && !c.holdsData then now else c.since }
        d.onStore fun x => { x with courses := x.courses.update fresh (courseKey f (fr.base + p)) mark }) d

/-- A front has room for a record of `span` sectors. -/
def Dev.room (d : Dev) (f span : Nat) : Bool :=
  match (d.front f).stripe with
  | none => false
  | some s => decide ((d.front f).next + span ≤ (d.stripe s).capacity d.geom)

/-- The front moves on to sector `n`, by pad sectors (R172, R207). Pad sectors take sequence numbers (R180). -/
def Dev.padFront (f n : Nat) (d : Dev) : Dev :=
  let k := (d.front f).next
  if n ≤ k then d
  else
    let d := d.reserveWsn (n - k)
    let d := d.openCourses f k n false
    let run : PadRun := { count := n - k, wsn := d.store.nextWsn }
    let d := d.takeWsn (n - k)
    let d := d.onFront f fun x => { x with next := n }
    match (d.front f).stripe with
    | none => d
    | some s => ((d.onStore fun x => { x with padRuns := x.padRuns.set (s * 2 ^ 24 + k) run }).onStripe s fun x =>
        { x with written := n }).onRegion (frontRegion f) fun x =>
        { x with sinceSeal := x.sinceSeal + (n - k) }

/-- The number of a pad sector by its place in a stripe; none where the sector is not pad. -/
def Dev.padAt (d : Dev) (s n : Nat) : Option Nat :=
  d.store.padRuns.findSome? fun e =>
    let k := e.1 % 2 ^ 24
    if e.1 / 2 ^ 24 = s ∧ k ≤ n ∧ n < k + e.2.count then some (e.2.wsn + (n - k)) else none

/-- A stripe with no room for the record that comes next is filled with pad sectors (R172). -/
def Dev.padStripe (f : Nat) (d : Dev) : Dev :=
  match (d.front f).stripe with
  | none => d
  | some s => d.padFront f ((d.stripe s).capacity d.geom)

/-- A record is placed on a front that has room for it: address, sequence numbers, generation and carts (R206 step 1). -/
def Dev.place (f : Nat) (r : Record) (staged : Bool) (d : Dev) : Nat × Dev :=
  match (d.front f).stripe with
  | none => (0, d)
  | some s =>
    let d := d.reserveWsn r.span
    let st := d.stripe s
    let n := (d.front f).next
    let a := st.addrAt d.geom s n
    let r := { r with wsn := d.store.nextWsn, egen := st.egen, stream := frontStream f, kept := frontKept f }
    let d := d.openCourses f n (n + r.span) true
    let d := d.onStore fun x => { x with nextWsn := x.nextWsn + r.span, buf := x.buf.set a { rec_ := r, staged := staged } }
    let d := d.onFront f fun x => { x with next := n + r.span, dataTick := d.chip.tick }
    let d := d.onStripe s fun x => { x with written := n + r.span }
    (a, d.onRegion (frontRegion f) fun x => { x with sinceSeal := x.sinceSeal + r.span })

/-! ## Pins, records, capacity (R53, R232) -/

/-- A record in carts or on media of the current format, by address. -/
def Dev.recordAt (d : Dev) (a : Nat) : Option Record :=
  match d.store.buf.get? a with
  | some b => some b.rec_
  | none =>
    match d.nv.flash.get? a with
    | some f => if f.fmtgen = d.geom.fmtgen && decide (f.rec_.span ≤ f.have_) then some f.rec_ else none
    | none => none

/-- Addresses that response builders hold for streaming. -/
def Coach.heldAddrs (c : Coach) : List Nat :=
  (c.run.resp.map fun
    | .attached a => a.addrs
    | .bytes _ => []).flatten

/-- A stripe is pinned against erasure by a stream in progress (R53). -/
def Dev.pinned (d : Dev) (s : Nat) : Bool :=
  d.eng.coaches.any fun c => c.2.heldAddrs.any fun a => decide (stripeOf a = s)

/-- Live addresses of a region. -/
def Dev.liveAddrs (d : Dev) (r : Nat) : List Nat := (d.region r).live.map Prod.fst

/-- A member of set `id` is the current record of its key, where it was written or as a copy: a copy keeps everything but its
sequence number (R185). -/
def Dev.currentMember (d : Dev) (r id : Nat) (m : SetMember) : Bool :=
  (d.liveAddrs r).any fun a => match d.recordAt a with
    | some x => x.member && x.setId == id && x.version == m.version && (x.wsn == m.wsn || x.relocated)
    | none => false

/-- A later copy of a set commit record lies on a verified course: the record at its old place is dead. -/
def Dev.commitMoved (d : Dev) (x : Record) : Bool :=
  d.nv.flash.any fun e => e.2.verified && e.2.fmtgen == d.geom.fmtgen && e.2.rec_.kind == .setCommit && e.2.rec_.setId == x.setId &&
    decide (x.wsn < e.2.rec_.wsn)

/-- Set commit records of region `r` that name a current record (R218, R232). -/
def Dev.liveCommits (d : Dev) (r : Nat) : List Nat :=
  let cand := (d.store.buf.map fun e => (e.1, e.2.rec_)) ++
    ((d.nv.flash.filter fun e => e.2.fmtgen == d.geom.fmtgen).map fun e => (e.1, e.2.rec_))
  ((cand.filter fun e => e.2.kind == .setCommit && regionOfAddr e.1 == r && !d.commitMoved e.2 &&
      e.2.members.any (d.currentMember r e.2.setId)).map Prod.fst).eraseDups

/-- Live addresses and live set commits of a stripe. -/
def Dev.liveOn (d : Dev) (s : Nat) : List Nat :=
  (d.liveAddrs (stripeRegion s) ++ d.liveCommits (stripeRegion s)).filter fun a => stripeOf a == s

/-- L_r: sectors of current records and set commit records, and one mortar unit for each kept course they touch. -/
def Dev.liveSectors (d : Dev) (r : Nat) : Nat :=
  let all := d.liveAddrs r ++ d.liveCommits r
  let span (a : Nat) : Nat := ((d.recordAt a).map (·.span)).getD 0
  let kept : List (Nat × Nat) := (all.flatMap fun a =>
    let st := d.stripe (stripeOf a)
    if st.kept then (st.coursesOf d.geom a (span a)).map fun p => (stripeOf a, p) else []).eraseDups
  (all.map span).sum + d.geom.spg * kept.length

/-- U_r: data sectors of the stripes that are not RETIRED, absent members excluded. -/
def Dev.usableSectors (d : Dev) (r : Nat) : Nat :=
  let g := d.geom
  let perBlock := g.ppb * g.spg
  let channels := ((List.range 16).filter (g.populated r)).length
  let absent := (d.store.blocks.filter fun b => b.1 / 67108864 == r && b.2.state != 0 &&
    g.populated r (dieChannel (b.1 / 262144))).length
  let retired := (d.store.stripes.filter fun s => stripeRegion s.1 == r && s.2.state == .retired).map fun s =>
    (channelsOf (d.presentFor s.1 (s.2.egen + 1))).length
  (g.ces * g.luns * g.planes * g.bpp * channels - absent - retired.sum) * perBlock

/-! ## Waiting for seals (R117, R138, R362) -/

/-- The seals that would hold a change made now: for each region that is not fenced, the generation that must be passed. -/
def Dev.sealsWanted (d : Dev) : List (Nat × Nat) :=
  d.openRegions.map fun r => (r, match (d.region r).sealing with
    | some x => x.noted.gen
    | none => (d.region r).sealNow)

/-- Those seals are durable, in every region that is not fenced. -/
def Dev.sealedAll (d : Dev) (gens : List (Nat × Nat)) : Bool :=
  gens.all fun g => d.fencedRegion g.1 || decide (g.2 < (d.region g.1).sealNow)

/-- Region write states (R212). -/
def Dev.writable (d : Dev) (r : Nat) : Option Byte :=
  match (d.region r).writeState.toNat with
  | 0 => none
  | 1 => some 0x17
  | _ => some 0x04

/-- A die is failed: its data is read only through kept mortar (R16, R211). -/
def Dev.dieFailed (d : Dev) (a : Nat) : Bool := (d.die (stripeDie (stripeOf a) (channelOf a))).state == 3

/-- Some sector of the record of `span` sectors at an address lies on a failed die, and no mortar is kept that would
rebuild it (R16, R211). -/
def Dev.onFailedDie (d : Dev) (a span : Nat) : Bool :=
  let s := stripeOf a
  let st := d.stripe s
  !st.kept && (d.dieFailed a || (st.coursesOf d.geom a span).any fun p =>
    (st.data p).any fun c => (d.die (stripeDie s c)).state == 3 && decide (0 < st.sectorsOn d.geom a span p c))

/-- Carts held by a region's protected buffer, in sectors (streams 0 and 1). -/
def Dev.cartSectors (d : Dev) (r : Nat) : Nat :=
  (d.store.buf.map fun e => if regionOfAddr e.1 = r && e.2.rec_.stream < 2 then e.2.rec_.span else 0).sum

/-- W_r in bytes per second, at the media's typical program time (R228). -/
def flushRate (tProgUs dies : Nat) (g : Geometry) : Nat :=
  min (dies * g.planes * g.bpc * g.pageSize * 920000 / tProgUs) 76800000000

/-- Dies of region `r` that are present: populated, neither retired nor failed. -/
def Dev.presentDies (d : Dev) (r : Nat) : Nat :=
  let g := d.geom
  (((List.range 16).filter (g.populated r)).flatMap fun c =>
    (List.range g.ces).flatMap fun ce => (List.range g.luns).filter fun lun =>
      (d.die (r * 256 + c * 16 + ce * 4 + lun)).state < 2).length

/-- Sectors of carts that region `r` may hold: its share of the protected buffer, and the cap of R231. -/
def Dev.cartShare (tProgUs tProgMaxUs : Nat) (d : Dev) (r : Nat) : Nat :=
  let g := d.geom
  let whole := (if g.pbufMib = 0 then 4096 else g.pbufMib) * 1048576 / 8
  let hold := (d.region r).holdMs.toNat
  let us := hold * 1000 - 2000 - 2 * tProgMaxUs
  let cap := us * flushRate tProgUs (d.presentDies r) g / 1000000 / 1048576 * 1048576
  (if hold = 0 then whole else min whole cap) / 4096

/-- The carts of region `r` take a record of `span` sectors: below class 7 a sixteenth of the share is kept free (R24). -/
def Dev.cartRoom (tProgUs tProgMaxUs r span cls : Nat) (d : Dev) : Bool :=
  let share := d.cartShare tProgUs tProgMaxUs r
  decide (d.cartSectors r + span ≤ (if cls = 7 then share else share - share / 16))

end Sys2Proof.Machine
end

