-- ==== Sys2Proof/Machine/Array.lean ====
section
/-!
DEFINITION. Machine/Array.lean: the associative array: banks, units, rows and their shadow copies, searches and their result
words, the faults a search meets (R144 to R150, R154 to R157).
-/
namespace Sys2Proof.Machine

/-! ## Banks and rows (R144 to R150) -/

/-- Region of a bank. -/
def bankRegion (b : Nat) : Nat := b / 4
/-- Block of a bank within its region. -/
def bankBlock (b : Nat) : Nat := 27 + b % 4
/-- A classification bank; the others hold the directory. -/
def isClassBank (b : Nat) : Bool := b % 4 == 3
/-- Entries of a bank. -/
def bankEntries (b : Nat) : Nat := if isClassBank b then 2048 else 8192
/-- Units of an entry (R145). -/
def bankWidth (b : Nat) : Nat := if isClassBank b then 4 else 1

/-- Bank and row of a directory unit (R148). -/
def unitBank (u : Nat) : Nat := u / 24576 * 4 + u % 24576 / 8192
@[inherit_doc unitBank] def unitRow (u : Nat) : Nat := u % 8192

/-- First directory unit of a directory bank. -/
def bankBase (b : Nat) : Nat := bankRegion b * 24576 + b % 4 * 8192

/-- The directory unit in a row of a directory bank. -/
def Dev.dirRow (d : Dev) (b row : Nat) : Option DirUnit := d.store.dir.get? (bankBase b + row)

/-- Search key of the directory: fingerprint and key length (R128). -/
def dirKey (fp klen : Nat) : Nat := fp + klen * 2 ^ 64

/-- Match data of a directory unit. -/
def DirUnit.matchData (u : DirUnit) : Nat := dirKey u.fp u.key.length

/-- A classification entry as a data block gives it; the bits that the kind of rule leaves zero stay zero (R5, R150). -/
def ClassRow.ofBlock (b : Bytes) : ClassRow :=
  let value := leAt b 0 20
  let assoc := leAt b 40 24
  let kind := value / 2 ^ 156
  { value := if kind = 1 then value / 2 ^ 148 * 2 ^ 148 + value % 2 ^ 144 else if kind = 2 then value / 2 ^ 124 * 2 ^ 124 else value
    mask := leAt b 20 20
    assoc := if kind = 1 then assoc % 2 ^ 36 else if kind = 2 then assoc % 2 else assoc }

/-! ## Array and shadow (R144, R146) -/

/-- The shadow copy of a row: its valid bit and its match data; in a ternary row the value lies below the mask. -/
def Dev.shadowRow (d : Dev) (b row : Nat) : Bool × Nat :=
  if isClassBank b then match (d.bank b).rows.get? row with
    | some x => (true, x.value + x.mask * 2 ^ 160)
    | none => (false, 0)
  else match d.dirRow b row with
    | some u => (true, u.matchData)
    | none => (false, 0)

/-- What upsets have flipped in unit `u` of an entry: bits [79:0] match data, 80 the valid bit, 81 the parity bit. -/
def unitFlips (m u : Nat) : Nat := m / 2 ^ (82 * u) % 2 ^ 82

/-- Bits that are 1 among the low `n`. -/
def ones (n w : Nat) : Nat := ((List.range n).filter w.testBit).length

/-- The lowest unit whose parity shows its flips: an odd number of them. -/
def oddUnit (b m : Nat) : Option Nat := findNat (bankWidth b) fun u => ones 82 (unitFlips m u) % 2 == 1

/-- The lowest unit with a flip. -/
def flippedUnit (b m : Nat) : Nat := (findNat (bankWidth b) fun u => unitFlips m u != 0).getD 0

/-- What the search array holds in a row. -/
def Dev.arrayRow (d : Dev) (b row : Nat) : Bool × Nat :=
  let m := (d.bank b).struck.get 0 row
  let units := List.range (bankWidth b)
  let flips := (units.map fun u => unitFlips m u % 2 ^ 80 * 2 ^ (80 * u)).sum
  (units.all fun u => (d.shadowRow b row).1 != (unitFlips m u).testBit 80, (d.shadowRow b row).2 ^^^ flips)

/-- A row that holds `x` matches a search key: a binary one when they are equal, a ternary one in every bit of its mask. -/
def rowHits (b key : Nat) (x : Bool × Nat) : Bool :=
  x.1 && (if isClassBank b then (x.2 % 2 ^ 160) &&& (x.2 / 2 ^ 160) == key &&& (x.2 / 2 ^ 160) else x.2 == key)

/-- The valid rows of a bank. -/
def Dev.validRows (d : Dev) (b : Nat) : List Nat :=
  if isClassBank b then (d.bank b).rows.map Prod.fst
  else (d.store.dir.filter fun e => decide (bankBase b ≤ e.1 ∧ e.1 < bankBase b + 8192)).map fun e => e.1 - bankBase b

/-- Rows at or above `lo` that the array reports for a key, ascending: valid ones, and any that upsets have struck. -/
def Dev.arrayHits (d : Dev) (b key lo : Nat) : List Nat :=
  let rows : Tab Unit := (d.bank b).struck.foldl (fun t e => Tab.set t e.1 ()) ((d.validRows b).map fun r => (r, ()))
  (rows.map Prod.fst).filter fun r => decide (lo ≤ r) && rowHits b key (d.arrayRow b r)

/-! ## Searches (R154 to R157) -/

/-- Result word of R154 over the rows at or above `lo`. -/
def Dev.searchWord (d : Dev) (b key lo : Nat) (repaired : Bool) : Nat :=
  match d.arrayHits b key lo with
  | [] => b2n repaired * 2 ^ 29
  | r :: rest => r + 2 ^ 13 + b2n (!rest.isEmpty) * 2 ^ 14 + (rest.length + 1) * 2 ^ 15 + b2n repaired * 2 ^ 29

/-- The fault that a search or NEXT of the rows at or above `lo` meets: a row whose parity is wrong, else a lowest match that
its shadow does not bear out (R157). -/
def Dev.faultMet (d : Dev) (b key lo : Nat) : ArrayFault :=
  let odd := (d.bank b).struck.findSome? fun e => if lo ≤ e.1 then (oddUnit b e.2).map fun u => (e.1, u) else none
  match odd with
  | some (r, u) => .parity r u
  | none => match (d.arrayHits b key lo).head? with
    | none => .none
    | some r =>
      if (d.bank b).shadowBad.contains r then .shadowUncorrectable r
      else if (d.bank b).isStruck r then .falseHit r (BitVec.ofNat 64 (d.arrayRow b r).2)
      else .none

/-- A search or NEXT is served. -/
def Dev.countSearch (b cls : Nat) : Dev → Dev := Dev.onBank b fun x =>
  { x with searches := bump x.searches, c7Searches := if cls = 7 then bump x.c7Searches else x.c7Searches }

/-- A bank gives a result word. -/
def Dev.giveWord (b w : Nat) : Dev → Dev := Dev.onBank b fun x => { x with word := w }

/-! ## The directory as one table (R148) -/

/-- The directory banks of a region. -/
def dirBanks (r : Nat) : List Nat := [r * 4, r * 4 + 1, r * 4 + 2]

/-- Directory rows of region `r` at or above `lo` that its three banks report for a key, ascending. -/
def Dev.dirHits (d : Dev) (r key lo : Nat) : List Nat :=
  (dirBanks r).flatMap fun b => (d.arrayHits b key (lo - b % 4 * 8192)).map fun row => b % 4 * 8192 + row

/-- The directory result word. -/
def Dev.dirWord (d : Dev) (r key lo : Nat) (repaired : Bool) : Nat :=
  match d.dirHits r key lo with
  | [] => b2n repaired * 2 ^ 32
  | n :: rest => n + 2 ^ 15 + b2n (!rest.isEmpty) * 2 ^ 16 + (rest.length + 1) * 2 ^ 17 + b2n repaired * 2 ^ 32

/-- No search or NEXT of the directory for a key meets a fault. -/
def Dev.dirClean (d : Dev) (r key : Nat) : Bool :=
  (dirBanks r).all fun b => d.faultMet b key 0 == .none &&
    (d.arrayHits b key 0).all fun row => !(d.bank b).shadowBad.contains row && !(d.bank b).isStruck row

/-- A directory search and `n` NEXTs are served, in the three banks at once, and leave the result word of the last, which began
at directory row `lo`. -/
def Dev.searchDir (r key cls n lo : Nat) (d : Dev) : Dev :=
  let d' := Dev.each (dirBanks r) (fun b d => Dev.each (List.range (n + 1)) (fun _ => Dev.countSearch b cls) d) d
  d'.onRegion r fun x => { x with dirWord := d.dirWord r key lo false }

end Sys2Proof.Machine
end

