-- ==== Sys2Proof/Machine/Index.lean ====
section
/-!
DEFINITION. Machine/Index.lean: hashes, the index chains, the pending-key directory, and the lookup of a key (chapter 04).
-/
namespace Sys2Proof.Machine

/-! ## Hashes (R19, R120, R125) -/

/-- SipHash-2-4 under a seed of the geometry record. -/
def seedHash (seed : Bytes) (ns : W16) (tail : Bytes) : Nat :=
  (siphash (BitVec.ofNat 128 (leNat seed)) (leBytes 2 ns.toNat ++ tail)).toNat

/-- Home region of a key. -/
def Dev.homeOf (d : Dev) (ns : W16) (key : Bytes) : Nat :=
  let p := (d.ns ns.toNat).groupPrefix
  seedHash d.geom.s1 ns (if p = 0 then key else key.take p) % 8

/-- Fingerprint of a key. -/
def Dev.fpOf (d : Dev) (ns : W16) (key : Bytes) : Nat :=
  ns.toNat * 2 ^ 48 + seedHash d.geom.s2 ns key % 2 ^ 48

/-- Fingerprint of segment `i` of a key; segment 0 has the key's own. -/
def Dev.segFp (d : Dev) (ns : W16) (key : Bytes) (i : Nat) : Nat :=
  if i = 0 then d.fpOf ns key else ns.toNat * 2 ^ 48 + seedHash d.geom.s2 ns (key ++ leBytes 2 i) % 2 ^ 48

/-- Namespace of a fingerprint. -/
def fpNs (f : Nat) : Nat := f / 2 ^ 48

/-! ## Chains (R121 to R124) -/

/-- The slots of a chain; a chain with nothing in it has one bucket. -/
def Chain.all (c : Chain) : List (Option IndexEntry) := if c.slots.isEmpty then List.replicate 4 none else c.slots

/-- Lowest free slot. -/
def Chain.freeSlot (c : Chain) : Option Nat := findNat c.all.length fun i => (c.all.getD i none).isNone

/-- Overflow buckets linked in a region. -/
def Region.linked (r : Region) : List Nat := (r.chains.map fun e => e.2.links).flatten

/-- Lowest free overflow bucket of a region with `o` of them. -/
def Region.freeBucket (o : Nat) (r : Region) : Option Nat := findNat o fun i => !r.linked.contains i

/-- Where a new entry of a chain goes: its slot, and the bucket that has to be linked for it; none is INDEX_FULL (R124). -/
def Region.newSlot (o : Nat) (r : Region) (c : Chain) : Option (Nat × Option Nat) :=
  match c.freeSlot with
  | some i => some (i, none)
  | none => if c.links.length < 7 then (r.freeBucket o).map fun b => (c.all.length, some b) else none

/-- Put an entry at a slot, linking a bucket where one is given. -/
def Chain.put (c : Chain) (slot : Nat) (link : Option Nat) (e : IndexEntry) : Chain :=
  match link with
  | none => { c with slots := c.all.set slot (some e) }
  | some b => { slots := c.all ++ [some e, none, none, none], links := c.links ++ [b] }

/-- Unlink empty overflow buckets at the chain's end (R123). -/
def Chain.trim : Nat → Chain → Chain
  | 0, c => c
  | n + 1, c =>
    if !c.links.isEmpty && (c.slots.drop (c.slots.length - 4)).all Option.isNone then
      Chain.trim n { slots := c.slots.take (c.slots.length - 4), links := c.links.dropLast }
    else c

/-- Free a slot. -/
def Chain.clear (c : Chain) (slot : Nat) : Chain := Chain.trim 7 { c with slots := c.all.set slot none }

/-- Main bucket of a fingerprint. -/
def Dev.bucketOf (d : Dev) (f : Nat) : Nat := f % 2 ^ d.geom.k

/-- Chain of a fingerprint in region `r`. -/
def Dev.chainOf (d : Dev) (r f : Nat) : Chain := (d.region r).chains.get {} (d.bucketOf f)

/-- Replace the chain of a fingerprint; a chain that holds nothing is not listed. -/
def Dev.setChain (r f : Nat) (c : Chain) (d : Dev) : Dev :=
  let b := d.bucketOf f
  d.onRegion r fun x =>
    { x with chains := if c.all.all Option.isNone && c.links.isEmpty then x.chains.erase b else x.chains.set b c }

/-- Write an entry at a slot. -/
def Dev.putEntry (r slot : Nat) (link : Option Nat) (e : IndexEntry) (d : Dev) : Dev :=
  d.setChain r e.fp ((d.chainOf r e.fp).put slot link e)

/-- Clear an entry. -/
def Dev.clearEntry (r f slot : Nat) (d : Dev) : Dev := d.setChain r f ((d.chainOf r f).clear slot)

/-- Slot of the entry that names an address. -/
def Chain.slotOf (c : Chain) (a : Nat) : Option Nat :=
  findNat c.all.length fun i => match c.all.getD i none with
    | some e => e.addr == a
    | none => false

/-- Entry of a segment of a value, by its fingerprint and version (R125). -/
def Dev.segmentEntry (d : Dev) (r f v : Nat) : Option IndexEntry :=
  (d.chainOf r f).all.findSome? fun o => match o with
    | some e => if e.fp = f && e.segment && e.version = v then some e else none
    | none => none

/-! ## Reading a header (R126, R213) -/

/-- What reading a record's header gives. -/
inductive Header where
  | found (r : Record)
  /-- It cannot be read; true when it lies on a failed die or a fenced channel. -/
  | unreadable (unavailable : Bool)
  deriving DecidableEq, Repr

/-- The region of a record holds a copy of it in its value cache (R122). -/
def Dev.cached (d : Dev) (a : Nat) : Bool := ((d.region (regionOfAddr a)).cache.get? a).isSome

/-- Read the header of the record at an address, its first sector: from the value cache, from carts, or from media, where
the environment says how the read ends. -/
def Dev.readHeader (d : Dev) (a : Nat) (left : List ReadBack) : Header × List ReadBack :=
  match if d.cached a then d.recordAt a else (d.store.buf.get? a).map (·.rec_) with
  | some r => (.found r, left)
  | none =>
    if d.dieFailed a && !(d.stripe (stripeOf a)).kept then (.unreadable true, left)
    else
      match d.recordAt a, left.head?.getD .good with
      | some r, .good => (.found r, left.tail)
      | some r, .corrupt _ => (.found r, left.tail)
      | _, _ => (.unreadable false, left.tail)

/-! ## The pending-key directory (R128 to R130) -/

/-- First number of the directory units of a region. -/
def unitBase (r : Nat) : Nat := r * 24576

/-- The unit of a key in region `r`, with its number, as its descriptor knows it. -/
def Dev.unitOf (d : Dev) (r : Nat) (ns : W16) (key : Bytes) : Option (Nat × DirUnit) :=
  let f := d.fpOf ns key
  d.store.dir.find? fun e => e.1 / 24576 == r && e.2.fp == f && e.2.ns == ns && e.2.key == key

/-- The unit of a key that directory search and NEXT find, comparing the key of each match (R128, R148); a row that upsets have
struck is missed (R159). -/
def Dev.unit? (d : Dev) (r : Nat) (ns : W16) (key : Bytes) : Option (Nat × DirUnit) :=
  let f := d.fpOf ns key
  d.store.dir.find? fun e => e.1 / 24576 == r && e.2.fp == f && e.2.ns == ns && e.2.key == key &&
    !(d.bank (unitBank e.1)).isStruck (unitRow e.1)

/-- The key of a directory search for a key. -/
def Dev.dirKeyOf (d : Dev) (ns : W16) (key : Bytes) : Nat := dirKey (d.fpOf ns key) key.length

/-- A coach of class `cls` steps through the directory for a key: a search, and a NEXT for each row of another key with the same
match data that comes before its own (R128, R148). -/
def Dev.stepDir (r cls : Nat) (ns : W16) (key : Bytes) (d : Dev) : Dev :=
  let hits := d.dirHits r (d.dirKeyOf ns key) 0
  let before := match d.unit? r ns key with
    | some (u, _) => hits.filter fun n => decide (unitBase r + n < u)
    | none => hits.dropLast
  d.searchDir r (d.dirKeyOf ns key) cls before.length ((before.getLast?.map (· + 1)).getD 0)

/-- Units in use in a region. -/
def Dev.unitsUsed (d : Dev) (r : Nat) : Nat := (d.store.dir.filter fun e => e.1 / 24576 == r).length

/-- Units in use in a region that requests of classes 0 to 6 took. -/
def Dev.unitsBelow (d : Dev) (r : Nat) : Nat := (d.store.dir.filter fun e => e.1 / 24576 == r && !e.2.seven).length

/-- A free unit for a request of class `cls`: 1,536 of the 24,576 units are class 7's (R24, R130). -/
def Dev.freeUnit (d : Dev) (r cls : Nat) : Option Nat :=
  if decide (24576 ≤ d.unitsUsed r) || (cls != 7 && decide (23040 ≤ d.unitsBelow r)) then none
  else findNat 24576 fun i => (d.store.dir.get? (unitBase r + i)).isNone

/-- Change a unit. -/
def Dev.onUnit (u : Nat) (f : DirUnit → DirUnit) : Dev → Dev :=
  Dev.onStore fun s => { s with dir := s.dir.adjust u f }

/-- The row of a unit is written, or cleared (R156). -/
def Dev.writeRow (u : Nat) (d : Dev) : Dev :=
  let b := d.bank (unitBank u)
  d.when (b.isStruck (unitRow u) || b.shadowBad.contains (unitRow u)) (Dev.onBank (unitBank u) (Bank.written (unitRow u)))

/-- Write a unit and keep PKD_USE.peak. A change of its associated data alone takes no row write (R149). -/
def Dev.setUnit (u : Nat) (x : DirUnit) (d : Dev) : Dev :=
  let r := u / 24576
  let d := d.when ((d.store.dir.get? u).map DirUnit.matchData != some x.matchData) (Dev.writeRow u)
  let d := d.onStore fun s => { s with dir := s.dir.set u x }
  let n := d.unitsUsed r
  d.onRegion r fun y => { y with pkdPeak := max y.pkdPeak n }

/-- Some coach waits for the key of a unit. -/
def Dev.awaited (d : Dev) (x : DirUnit) : Bool :=
  d.eng.coaches.any fun c => match c.2.wait with
    | .holder ns key => ns == x.ns && key == x.key
    | _ => false

/-- A record is on a verified course: its carts have been freed, but for a stream that still reads them (R53). -/
def Dev.settled (d : Dev) (a : Nat) : Bool :=
  match d.store.buf.get? a with
  | none => true
  | some b => b.streamed

/-- A unit whose record has reached a verified course is released once nothing holds it; one that a lock or a waiter still
needs keeps no record, and the index takes over (DIRECTORY_UNIT_RELEASE, R129, R130). -/
def Dev.releaseUnit (u : Nat) (d : Dev) : Dev :=
  match d.store.dir.get? u with
  | none => d
  | some x =>
    if x.rec_ = 0 || x.addrs.all d.settled then
      if x.hold = 0 && !d.awaited x then (d.writeRow u).onStore fun s => { s with dir := s.dir.erase u }
      else d.onUnit u fun x => { x with rec_ := 0, addrs := [] }
    else d

/-! ## Lookup (R126, R129) -/

/-- A key that has been found. -/
structure Hit where
  /-- Served through the pending-key directory. -/
  pending : Bool := false
  /-- Slot of its index entry. -/
  slot : Option Nat := none
  entry : IndexEntry := {}
  /-- Addresses of its segments. -/
  addrs : List Nat := []
  version : Nat := 0
  deriving DecidableEq, Repr

/-- What a lookup gives. -/
structure Lookup where
  hit : Option Hit := none
  /-- The first matching entry that could not be confirmed: slot, entry, on a failed die or fenced channel. -/
  blocked : Option (Nat × IndexEntry × Bool) := none
  /-- Header reads left of the environment. -/
  left : List ReadBack := []
  /-- Another key with the same fingerprint was passed over. -/
  collided : Bool := false
  deriving DecidableEq, Repr

/-- Walk the matching entries of a chain, confirming each (R126). -/
def Dev.confirm (d : Dev) (ns : W16) (key : Bytes) : List (Nat × IndexEntry) → Lookup → Lookup
  | [], l => l
  | (slot, e) :: rest, l =>
    match d.readHeader e.addr l.left with
    | (.found r, left) =>
      if r.ns = ns ∧ r.key = key then
        let segs := (List.range r.segCount).drop 1
        let more := segs.filterMap fun i =>
          (d.segmentEntry ((regionOfAddr e.addr + i) % 8) (d.segFp ns key i) e.version).map (·.addr)
        { l with left := left, hit := some { slot := some slot, entry := e, addrs := e.addr :: more, version := e.version } }
      else Dev.confirm d ns key rest { l with left := left, collided := true }
    | (.unreadable u, left) =>
      Dev.confirm d ns key rest { l with left := left, blocked := some (l.blocked.getD (slot, e, u)) }

/-- Entries of a chain that carry a fingerprint, with their slots. -/
def Chain.matches_ (c : Chain) (f : Nat) : List (Nat × IndexEntry) :=
  (List.range c.all.length).filterMap fun i => match c.all.getD i none with
    | some e => if e.fp = f && !e.segment then some (i, e) else none
    | none => none

/-- Look a key up in the index of region `r`. With `always` false a single match is taken unread (HEAD and TOKEN). -/
def Dev.lookIndex (d : Dev) (r : Nat) (ns : W16) (key : Bytes) (always : Bool) (left : List ReadBack) : Lookup :=
  match (d.chainOf r (d.fpOf ns key)).matches_ (d.fpOf ns key) with
  | [(slot, e)] =>
    if always then d.confirm ns key [(slot, e)] { left := left }
    else { left := left, hit := some { slot := some slot, entry := e, addrs := [e.addr], version := e.version } }
  | ms => d.confirm ns key ms { left := left }

/-- Look a key up: the pending-key directory first, then the index (R129). -/
def Dev.look (d : Dev) (r : Nat) (ns : W16) (key : Bytes) (always : Bool) (left : List ReadBack) : Lookup :=
  let indexed := d.lookIndex r ns key always left
  match d.unit? r ns key with
  | none => indexed
  | some (_, u) =>
    if u.rec_ = 1 ∨ u.rec_ = 2 then
      let a := u.addrs.headD 0
      let c := d.chainOf r u.fp
      let slot := c.slotOf a
      let e := (slot.bind fun i => c.all.getD i none).getD { fp := u.fp, addr := a, version := u.version }
      { left := left, hit := some { pending := true, slot := slot, entry := e, addrs := u.addrs, version := u.version } }
    else if u.rec_ = 3 then { left := left }
    else indexed

/-! ## Live map, usage and the change of a key (R127, R131, R141) -/

/-- Set the live bit of an address in its region. -/
def Dev.setLive (a : Nat) : Dev → Dev :=
  Dev.onRegion (regionOfAddr a) fun x => { x with live := x.live.set a () }
/-- Clear the live bit of an address. -/
def Dev.clearLive (a : Nat) : Dev → Dev :=
  Dev.onRegion (regionOfAddr a) fun x => { x with live := x.live.erase a }
/-- The live bit of an address. -/
def Dev.isLive (d : Dev) (a : Nat) : Bool := ((d.region (regionOfAddr a)).live.get? a).isSome

/-- A record leaves the value cache, and the entry that names it says so (R122). -/
def Dev.uncache (home f a : Nat) (d : Dev) : Dev :=
  let d := d.onRegion (regionOfAddr a) fun x => { x with cache := x.cache.erase a }
  let c := d.chainOf home f
  match c.slotOf a with
  | none => d
  | some i => match c.all.getD i none with
    | some e => d.putEntry home i none { e with cached := false }
    | none => d

/-- The value cache keeps a copy of the record that an entry names. -/
def Dev.cache (home f a : Nat) (d : Dev) : Dev :=
  let c := d.chainOf home f
  match c.slotOf a with
  | none => d
  | some i => match c.all.getD i none with
    | some e => (d.onRegion (regionOfAddr a) fun x => { x with cache := x.cache.set a () }).putEntry home i none { e with cached := true }
    | none => d

/-- A read of the record at `a` has been made: copies leave the value cache and its own may stay there (log entry 37). -/
def Dev.cacheStep (rd : ReadEnv) (home f a : Nat) (d : Dev) : Dev :=
  let gone (a : Nat) (d : Dev) : Dev := match d.recordAt a with
    | some r => if d.cached a then d.uncache (d.homeOf r.ns r.key) (d.fpOf r.ns r.key) a else d
    | none => d
  (Dev.each rd.evict gone d).when (rd.keep && (d.store.buf.get? a).isNone && (d.recordAt a).isSome) (Dev.cache home f a)

/-- Span of the record at an address, in sectors. -/
def Dev.spanAt (d : Dev) (a : Nat) : Nat := ((d.recordAt a).map (·.span)).getD 0

/-- Length class: the least n with span at most 2^n (R122). -/
def lclassOf (span : Nat) : Nat := (findNat 10 fun n => decide (span ≤ 2 ^ n)).getD 9

/-- Sectors of a value record: header and payload (R181). -/
def spanOf (segLen : Nat) : Nat := ceilDiv (512 + segLen) 4096

/-- Raise the version high-water of a namespace in region `r` (R119). -/
def Dev.raiseVersion (r ns v : Nat) : Dev → Dev :=
  Dev.onRegion r fun x => { x with versions := x.versions.update 0 ns (max v) }

/-- The records of a key leave: live bits, segment entries, usage. The entry of segment 0 is the caller's. -/
def Dev.dropRecords (ns : W16) (key : Bytes) (home : Nat) (h : Hit) (keep : Nat) (d : Dev) : Dev :=
  let spans := (h.addrs.map d.spanAt).sum
  let d := Dev.each h.addrs Dev.clearLive d
  let d := Dev.each h.addrs (fun a => Dev.onRegion (regionOfAddr a) fun x => { x with cache := x.cache.erase a }) d
  let d := Dev.each ((List.range h.addrs.length).drop keep) (fun i d =>
    let r := (home + i) % 8
    let f := d.segFp ns key i
    match (d.chainOf r f).slotOf (h.addrs.getD i 0) with
    | some slot => if i = 0 then d else d.clearEntry r f slot
    | none => d) d
  d.onNs ns.toNat fun n => { n with usage := n.usage - spans * 4096 }

end Sys2Proof.Machine
end

