-- ==== Sys2Proof/Machine/Program.lean ====
section
/-!
DEFINITION. Machine/Program.lean: the 64-bit words of a coach's program: fields, field use, the checks before a coach runs,
the fixed coaches of Jenloth v1 and v2, and the status codes (chapters 00, 02, 03).
-/
namespace Sys2Proof.Machine

/-! ## Status codes (R7) -/

/-- `OK`; the codes that follow are those of the table of R7. -/
def stOk : Byte := 0x00
@[inherit_doc stOk] def stNotFound : Byte := 0x01
@[inherit_doc stOk] def stVersionMismatch : Byte := 0x02
@[inherit_doc stOk] def stNoSpace : Byte := 0x03
@[inherit_doc stOk] def stMediaExhausted : Byte := 0x04
@[inherit_doc stOk] def stIndexFull : Byte := 0x05
@[inherit_doc stOk] def stKeyTooLong : Byte := 0x06
@[inherit_doc stOk] def stValueTooLarge : Byte := 0x07
@[inherit_doc stOk] def stIllegalInstruction : Byte := 0x08
@[inherit_doc stOk] def stProgramTooLong : Byte := 0x09
@[inherit_doc stOk] def stStepLimit : Byte := 0x0A
@[inherit_doc stOk] def stPrivilege : Byte := 0x0B
@[inherit_doc stOk] def stNamespaceUnknown : Byte := 0x0C
@[inherit_doc stOk] def stTokenStale : Byte := 0x0D
@[inherit_doc stOk] def stTokenInvalid : Byte := 0x0E
@[inherit_doc stOk] def stIntegrityFailed : Byte := 0x0F
@[inherit_doc stOk] def stMediaUncorrectable : Byte := 0x10
@[inherit_doc stOk] def stUnavailable : Byte := 0x11
@[inherit_doc stOk] def stBusy : Byte := 0x12
@[inherit_doc stOk] def stAborted : Byte := 0x13
@[inherit_doc stOk] def stConflict : Byte := 0x14
@[inherit_doc stOk] def stKeySlotExhausted : Byte := 0x15
@[inherit_doc stOk] def stKeySlotEmpty : Byte := 0x16
@[inherit_doc stOk] def stReadOnly : Byte := 0x17
@[inherit_doc stOk] def stFailsafe : Byte := 0x18
@[inherit_doc stOk] def stTimeout : Byte := 0x19
@[inherit_doc stOk] def stReplayed : Byte := 0x1A
@[inherit_doc stOk] def stIllegalValue : Byte := 0x1B
@[inherit_doc stOk] def stNotReady : Byte := 0x1C
@[inherit_doc stOk] def stAlreadyComplete : Byte := 0x1D

/-- Codes an owning chapter assigns in 0x20 to 0x7F: Jenloth 0x20-0x25, PCIe 0x40-0x48, management 0x60-0x66 and
0x70-0x77 (R8, R334, R410). -/
def assignedStatus (c : Nat) : Bool :=
  (0x20 ≤ c && c ≤ 0x25) || (0x40 ≤ c && c ≤ 0x48) || (0x60 ≤ c && c ≤ 0x66) || (0x70 ≤ c && c ≤ 0x77)

/-- The codes that STATUS may set (R107). -/
def settableStatus (c : Nat) : Bool := decide (c ≤ 0x17) || c == 0x19 || c == 0x1B || c == 0x1C || assignedStatus c

/-! ## The instruction word (R76) -/

/-- The fields of an instruction word. -/
structure Fields where
  op : Nat
  d : Nat
  a : Nat
  b : Nat
  m : Nat
  imm : Nat
  deriving DecidableEq, Repr

/-- The fields of a word (R76). -/
def fieldsOf (w : W64) : Fields :=
  { op := bits w.toNat 56 8, d := bits w.toNat 52 4, a := bits w.toNat 48 4, b := bits w.toNat 44 4,
    m := bits w.toNat 40 4, imm := bits w.toNat 0 40 }

/-- The word with given fields. -/
def wordOf (op d a b m imm : Nat) : W64 :=
  BitVec.ofNat 64 (op * 2 ^ 56 + d * 2 ^ 52 + a * 2 ^ 48 + b * 2 ^ 44 + m * 2 ^ 40 + imm)

/-- The fields an opcode and modifier use: d, a, b and the immediate bits. -/
structure Usage where
  d : Bool
  a : Bool
  b : Bool
  imm : Nat

/-- All 40 bits of the immediate. -/
def allImm : Nat := 2 ^ 40 - 1

/-- Is an opcode assigned (check 3 of R41, R82)? -/
def assignedOp (op : Nat) : Bool :=
  decide (op ≤ 0x0A) || (0x10 ≤ op && op ≤ 0x13) || (0x20 ≤ op && op ≤ 0x2B) || (0x30 ≤ op && op ≤ 0x34) ||
    op == 0x38 || op == 0x39 || op == 0x3C || op == 0x3D || (0x40 ≤ op && op ≤ 0x4B)

/-- Is an opcode privileged (check 4 of R41)? -/
def privilegedOp (op : Nat) : Bool := decide (0x40 ≤ op ∧ op ≤ 0x5F)

/-- Field use of an assigned opcode with a modifier; none where the modifier is not defined (R77, R82, R83, R87, R95,
R106, R108, R166). -/
def usageOf (op m : Nat) : Option Usage :=
  let u (max : Nat) (d a b : Bool) (imm : Nat) : Option Usage := if m ≤ max then some ⟨d, a, b, imm⟩ else none
  match op with
  | 0x00 => u 0 false false false 0
  | 0x01 => u 2 true false false (if m = 2 then 2 ^ 24 - 1 else allImm)
  | 0x02 => u 6 true (m == 0) false 0
  | 0x03 => u 1 true true (m == 0) (if m = 1 then allImm else 0)
  | 0x04 => u 1 true true (m == 0) (if m = 1 then allImm else 0)
  | 0x05 => u 1 true true (m == 0) (if m = 1 then allImm else 0)
  | 0x06 => u 1 true true (m == 0) (if m = 1 then allImm else 0)
  | 0x07 => u 1 true true (m == 0) (if m = 1 then allImm else 0)
  | 0x08 => u 1 true true (m == 0) (if m = 1 then 0x3F else 0)
  | 0x09 => u 1 true true (m == 0) (if m = 1 then 0x3F else 0)
  | 0x0A => u 1 false true (m == 0) (if m = 1 then allImm else 0)
  | 0x10 => u 0 false false false 0x3F
  | 0x11 => u 14 false false false 0x3F
  | 0x12 => u 0 false false false 0x1F3F
  | 0x13 => u 0 false false false 0
  | 0x20 => u 2 false (m == 2) false (if m = 0 then 0x1F else if m = 1 then allImm else 0)
  | 0x21 => u 1 false (m == 1) false (if m = 0 then 0xFFFF else 0)
  | 0x22 => u 1 true false false 0
  | 0x23 => u 1 true true true 0
  | 0x24 => u 2 true false false 0
  | 0x25 => u 1 true true true 0
  | 0x26 => u 1 true true true 0
  | 0x27 => u 0 true false false 0
  | 0x28 => if m % 4 = 3 then none else u 14 true true (m / 4 % 2 == 0) 0
  | 0x29 => u 0 false false false 0
  | 0x2A => u 0 false false false 0
  | 0x2B => u 0 false false false 0
  | 0x30 => u 0 true false false 0
  | 0x31 => u 3 true true false 0
  | 0x32 => u 0 true true false 0x7F
  | 0x33 => u 0 true false false 0
  | 0x34 => u 0 true true true 0
  | 0x38 => u 3 true true true 0
  | 0x39 => u 0 true false false 0
  | 0x3C => u 5 false (m == 0 || m == 2 || m == 3) (m == 2 || m == 3) (if m = 1 then allImm else 0)
  | 0x3D => u 1 false (m == 1) false (if m = 0 then 0xFF else 0)
  | 0x40 => u 1 true true false 0
  | 0x41 => u 1 false true true 0
  | 0x42 => u 1 true true false 0x1FF
  | 0x43 => u 0 true true false 0
  | 0x44 => u 2 false true (m != 1) 0
  | 0x45 => u 2 false true (m != 2) 0
  | 0x46 => u 0 false true false 7
  | 0x47 => u 1 true true (m == 0) 0
  | 0x48 => u 0 false true false 0
  | 0x49 => u 0 false true true (2 ^ 26 - 1)
  | 0x4A => u 0 false false false 0
  | 0x4B => u 5 true true (m == 1 || m == 3 || m == 4) 0
  | _ => none

/-- Check 5 of R41 on one word. -/
def fieldsOk (f : Fields) : Bool :=
  match usageOf f.op f.m with
  | none => false
  | some u =>
    (u.d || f.d == 0) && (u.a || f.a == 0) && (u.b || f.b == 0) && (f.imm &&& (allImm - u.imm)) == 0 &&
      !(f.op == 0x28 && f.m / 4 % 2 == 0 && f.b == 15)

/-- Checks 3 to 7 of R41 on the word at index `i`: the status of the first that fails. A LOOP whose body holds another LOOP
fails at the later one. DEDUCED (log entry 16). -/
def checkWord (privileged : Bool) (prog : List W64) (i : Nat) (f : Fields) : Option Byte :=
  if !assignedOp f.op then some stIllegalInstruction
  else if privilegedOp f.op && !privileged then some stPrivilege
  else if !fieldsOk f then some stIllegalInstruction
  else
    let target := f.imm % 64
    if f.op = 0x10 ∨ f.op = 0x11 then if i < target ∧ target < prog.length then none else some stIllegalValue
    else if f.op = 0x12 then
      let count := bits f.imm 8 5
      let nested := (slice' prog target (i - target)).any fun w => (fieldsOf w).op == 0x12
      if 1 ≤ count ∧ count ≤ 16 ∧ target < i ∧ nested = false then none else some stIllegalValue
    else none
where
  /-- The words from index `lo`, `n` of them. -/
  slice' (p : List W64) (lo n : Nat) : List W64 := (p.drop lo).take n

/-- Checks 3 to 7 of R41: status and index of the first failure. -/
def checkProgram (privileged : Bool) (prog : List W64) : Option (Byte × Nat) :=
  (List.range prog.length).findSome? fun i =>
    (checkWord privileged prog i (fieldsOf (prog.getD i 0))).map fun st => (st, i)

/-- Checks 1 and 2 of R41, on the announced count and the announced extension. -/
def checkLength (announced : Nat) (extensionOk : Bool) : Option Byte :=
  if announced = 0 then some stIllegalValue
  else if 64 < announced then some stProgramTooLong
  else if !extensionOk then some stIllegalValue
  else none

/-! ## Fixed coaches of v1 and v2 (R111) -/

/-- The operations of v1 and v2 as R297 numbers them. -/
def fixedCoach (gen op ns off len exp : Nat) : Option (List W64) :=
  let w := wordOf
  let nsp : List W64 := if gen = 2 then [w 0x21 0 0 0 0 ns] else []
  let key := w 0x20 0 0 0 0 0
  let tok := if gen = 2 then 1 else 0
  let fin := w 0x13 0 0 0 0 0
  let respG1 := w 0x3C 0 1 0 0 0
  let mk (l : List W64) : Option (List W64) := some (nsp ++ [key] ++ l ++ [fin])
  if gen = 1 ∧ 4 < op then none
  else match op with
    | 1 => mk [w 0x22 1 0 0 1 0]
    | 2 => mk [w 0x25 1 0 14 tok 0, respG1]
    | 3 => mk [w 0x27 1 0 0 0 0, respG1]
    | 4 => mk [w 0x24 1 0 0 0 0, w 0x11 0 0 0 8 (if gen = 2 then 6 else 5), w 0x01 2 0 0 0 64, w 0x3C 0 0 2 3 0]
    | 5 => mk [w 0x01 2 0 0 0 off, w 0x01 3 0 0 0 len, w 0x23 1 2 3 1 0]
    | 6 => mk [w 0x26 1 0 14 1 0, respG1]
    | 7 => mk [w 0x01 2 0 0 0 (exp % 2 ^ 40), w 0x01 2 0 0 2 (exp / 2 ^ 40), w 0x02 6 14 0 0 0, w 0x28 1 2 5 8 0, respG1]
    | 8 => mk [w 0x30 1 0 0 0 0]
    | 9 => mk [w 0x31 1 0 0 3 0]
    | 10 => mk [w 0x39 1 0 0 0 0, respG1]
    | _ => none

end Sys2Proof.Machine
end

