-- ==== Sys2Proof/Machine/Flags.lean ====
section
/-!
DEFINITION. Machine/Flags.lean: every flag computation of a coach: results and carry of the arithmetic instructions, the
comparison, the flags word, the conditions of BRC, the flags that a status sets (R35, R73, R83, R84).
-/
namespace Sys2Proof.Machine

/-! ## Arithmetic (R83) -/

/-- Result of a general arithmetic instruction and its carry. -/
def aluResult (op : Nat) (x y : W64) : W64 × Bool :=
  match op with
  | 0x03 => (x + y, decide (2 ^ 64 ≤ x.toNat + y.toNat))
  | 0x04 => (x - y, decide (x.toNat < y.toNat))
  | 0x05 => (x &&& y, false)
  | 0x06 => (x ||| y, false)
  | 0x07 => (x ^^^ y, false)
  | 0x08 => (x <<< (y.toNat % 64), false)
  | _ => (x >>> (y.toNat % 64), false)

/-- The flags word (R35). -/
def Flags.word (f : Flags) : Nat :=
  b2n f.z + 2 * b2n f.lt + 4 * b2n f.gt + 8 * b2n f.c + 16 * b2n f.found + 32 * b2n f.pending + 64 * b2n f.err +
    128 * b2n f.stale + 256 * b2n f.trunc + 512 * b2n f.setOpen + 1024 * b2n f.committed

/-- z, lt and gt of a comparison of `x` with `y`, unsigned (R83). -/
def Flags.compare (x y : Nat) (f : Flags) : Flags := { f with z := x == y, lt := decide (x < y), gt := decide (y < x) }

/-- z and c of an arithmetic result (R83). -/
def Flags.ofResult (v : W64) (carry : Bool) (f : Flags) : Flags := { f with z := v == 0, c := carry }

/-- err of a status (R35, R73). -/
def Flags.ofStatus (st : Byte) (f : Flags) : Flags := { f with err := st != stOk && st != stTokenStale }

/-- A BRC condition (R84). -/
def Flags.holds (f : Flags) (m : Nat) : Bool :=
  match m with
  | 0 => f.z | 1 => !f.z | 2 => f.lt | 3 => f.gt | 4 => f.c | 5 => f.found | 6 => !f.found | 7 => f.pending
  | 8 => f.err | 9 => !f.err | 10 => f.stale | 11 => f.trunc | 12 => f.setOpen | 13 => f.committed | _ => !f.lt

end Sys2Proof.Machine
end

