-- ==== Sys2Proof/Machine/Operands.lean ====
section
/-!
DEFINITION. Machine/Operands.lean: the operand forms of a coach's instructions: general registers, the second operand, the
areas that a register pair names, the fields of a response (R34, R76, R83, R106).
-/
namespace Sys2Proof.Machine

/-- A general register. -/
def Run.reg (r : Run) (n : Nat) : W64 := r.g.getD n 0
/-- Write a general register. -/
def Run.setReg (n : Nat) (v : W64) (r : Run) : Run := { r with g := r.g.set n v }
/-- A general register as a number. -/
def Run.num (r : Run) (n : Nat) : Nat := (r.reg n).toNat

/-- The second operand: gb, or the immediate zero-extended (R83). -/
def Run.second (w : Fields) (r : Run) : W64 := if w.m = 1 then BitVec.ofNat 64 w.imm else r.reg w.b

/-- Bytes [off, off + len) lie within an area. -/
def inArea (area : Bytes) (off len : Nat) : Bool := decide (off + len ≤ area.length)

/-- Eight bytes in the byte order of the coach's carrier (R76). -/
def Coach.word8 (c : Coach) (v : W64) : Bytes :=
  match c.source with
  | .session _ _ => beBytes 8 v.toNat
  | _ => leBytes 8 v.toNat

/-- The field a RESP appends; none for a range past its area or an empty key register. -/
def Coach.respField (c : Coach) (w : Fields) : Option Bytes :=
  let r := c.run
  match w.m with
  | 0 => some (c.word8 (r.reg w.a))
  | 1 => some (c.word8 (BitVec.ofNat 64 w.imm))
  | 2 => if inArea c.inbound (r.num w.a) (r.num w.b) then some (slice c.inbound (r.num w.a) (r.num w.b)) else none
  | 3 => if inArea r.fetch (r.num w.a) (r.num w.b) then some (slice r.fetch (r.num w.a) (r.num w.b)) else none
  | 4 => some [r.status]
  | _ => if r.keyReg.isEmpty then none else some r.keyReg

end Sys2Proof.Machine
end

