-- ==== Sys2Proof/Machine/Coach.lean ====
section
/-!
DEFINITION. Machine/Coach.lean: a coach in its context: retirement of an instruction, end of a coach, the response
builder, and the general, control-flow and response instructions (chapters 02, 03).
-/
namespace Sys2Proof.Machine

/-! ## The coach of a context -/

/-- A privileged coach: it arrived by a management path (R63). -/
def Coach.privileged (c : Coach) : Bool := c.path == 2

/-- The coach that runs in a context, with its number. -/
def Dev.coachIn (d : Dev) (ctx : Nat) : Option (Nat × Coach) :=
  d.eng.coaches.find? fun e => e.2.stage == .running && e.2.ctx == some ctx

/-- The instruction a coach is at; past the last it acts as END (R42). -/
def Coach.current (c : Coach) : Fields :=
  if c.run.pc < c.program.length then fieldsOf (c.program.getD c.run.pc 0) else fieldsOf (wordOf 0x13 0 0 0 0 0)

/-- Namespace `n` as it binds a coach: durability, ceiling and hold until verified are those in force when the coach was
admitted (R116). -/
def Dev.nsFor (d : Dev) (c : Coach) (n : Nat) : Namespace :=
  match (d.store.nsBefore.get [] n).find? fun e => decide (c.stamp < e.before) with
  | some e => { d.ns n with durability := e.durability, ceiling := e.ceiling, options := (d.ns n).options % 2 + e.options / 2 % 2 * 2 }
  | none => d.ns n

/-- Change the visible state of a coach. -/
def Dev.onRun (i : Nat) (f : Run → Run) : Dev → Dev := Dev.onCoach i fun c => { c with run := f c.run }

/-- The instruction has been executed: one step (R42); execution goes on at index `next`. -/
def Run.retireTo (next : Nat) (r : Run) : Run := { r with steps := r.steps + 1, last := r.pc, pc := next }
/-- The instruction has been executed; the next one follows. -/
def Run.retire (r : Run) : Run := r.retireTo (r.pc + 1)

/-- A status-producing instruction returns a status (R35, R73). -/
def Run.setStatus (st : Byte) (r : Run) : Run :=
  { r with status := st, flags := r.flags.ofStatus st }

/-- A coach may take a step: 256 are allowed, and the END past its last instruction is none (R42). -/
def Coach.mayStep (c : Coach) : Bool := decide (c.run.steps < 256) || decide (c.program.length ≤ c.run.pc)

/-- The effect `f` of an instruction for which `p` holds, on the coach of a context that waits for nothing. -/
def Dev.onInstr (ctx : Nat) (p : Fields → Bool) (f : Nat → Coach → Fields → Dev → Dev) (d : Dev) : Dev :=
  match d.coachIn ctx with
  | none => d
  | some (i, c) =>
    if d.pathRuns c.privileged && (c.wait == .none || c.wait == .unit) && c.mayStep && p c.current then f i c c.current d else d

/-- The meaning of an instruction row. -/
def runInstr (ctx : CtxId) (p : Fields → Bool) (f : Nat → Coach → Fields → Dev → Dev) (s : State) : Answer :=
  onDev (Dev.onInstr ctx.val p f) s

/-- In the recovery state of cause 1 an instruction that R398 does not accept fails with `UNAVAILABLE`. -/
def accepted (f : Nat → Coach → Fields → Dev → Dev) (i : Nat) (c : Coach) (w : Fields) (d : Dev) : Dev :=
  if d.fw.recovery = 1 then d.onRun i fun r => (r.setStatus stUnavailable).retire else f i c w d

/-- A privileged instruction that has run: its coach is replayable (R302). -/
def noted (f : Nat → Coach → Fields → Dev → Dev) (i : Nat) (c : Coach) (w : Fields) (d : Dev) : Dev :=
  let d := f i c w d
  if (d.coach i).run.steps = c.run.steps ∧ (d.coach i).wait = c.wait then d else d.onCoach i fun c => { c with acted := true }

/-- Only registers and flags change. -/
def pureInstr (f : Fields → Run → Run) (i : Nat) (_c : Coach) (w : Fields) : Dev → Dev :=
  Dev.onRun i fun r => (f w r).retire

/-! ## Atomic sets and the end of a coach (R56, R61, R71, R72) -/

/-- A record staged and given up is nobody's (R187). -/
def Dev.discardRecord (a : Nat) : Dev → Dev :=
  Dev.onStore fun s => { s with buf := s.buf.adjust a fun b => { b with staged := false, discarded := true } }

/-- Release the holds of coach `i` on directory units. -/
def Dev.releaseHolds (i : Nat) (d : Dev) : Dev :=
  let mine := d.store.dir.filter fun e => e.2.holder == some i
  Dev.each (mine.map Prod.fst) (fun u d => (d.onUnit u fun x => { x with holder := none, hold := 0 }).releaseUnit u) d

/-- The set of a coach dissolves (SET_DISSOLVE, R56). With no set open, a single-key update in flight gives up its hold
(R130). -/
def Dev.dissolve (i : Nat) (d : Dev) : Dev :=
  match (d.coach i).set with
  | none => d.releaseHolds i
  | some s =>
    let d := Dev.each (s.staged.map (·.addr)) Dev.discardRecord d
    (d.releaseHolds i).onCoach i fun c =>
      { c with set := none, run := { c.run with flags := { c.run.flags with setOpen := false } } }

/-- Count an ended coach in its cluster (R75). -/
def Cluster.countEnd (st : Byte) (terminal : Bool) (c : Cluster) : Cluster :=
  { c with progs := bump c.progs
           stepLimits := if terminal && st == stStepLimit then bump c.stepLimits else c.stepLimits
           timeouts := if terminal && st == stTimeout then bump c.timeouts else c.timeouts }

/-- A coach ends with a status; a terminal failure drops its response fields (R71). -/
def Dev.endCoach (i : Nat) (st : Byte) (terminal : Bool) (d : Dev) : Dev :=
  let c := d.coach i
  let d := d.dissolve i
  let d := d.onCoach i fun c => { c with
    stage := .ended, ctx := none, wait := .none, final := st, given := none
    run := if terminal then { c.run with resp := [] } else c.run }
  match c.counter with
  | none => d
  | some k => d.onCluster k (Cluster.countEnd st terminal)

/-- An instruction ends its coach at once (R72); it counts as executed. -/
def Dev.terminate (i : Nat) (st : Byte) (d : Dev) : Dev := (d.onRun i Run.retire).endCoach i st true

/-- A privileged instruction that changes the device: in the fail-safe state its coach ends with `FAILSAFE` (R72, R413;
log entry 17). -/
def acting (f : Nat → Coach → Fields → Dev → Dev) (i : Nat) (c : Coach) (w : Fields) (d : Dev) : Dev :=
  if d.failsafe then d.terminate i stFailsafe else f i c w d

/-- The coach comes to its end: an open set dissolves and `OK` becomes `ABORTED` (R61, R86). -/
def Dev.finishCoach (i : Nat) (d : Dev) : Dev :=
  let c := d.coach i
  d.endCoach i (if c.set.isSome && c.run.status == stOk then stAborted else c.run.status) false

/-! ## The response builder (R38) -/

/-- Bytes of a field that is not an attached value. -/
def RespField.plain : RespField → Nat
  | .bytes b => b.length
  | .attached _ => 0
/-- Is it an attached value? -/
def RespField.isAttached : RespField → Bool
  | .bytes _ => false
  | .attached _ => true

/-- The response with one more field; none where a limit of R38 is passed. -/
def appendField (resp : List RespField) (f : RespField) : Option (List RespField) :=
  let all := resp ++ [f]
  if all.length ≤ 32 ∧ (all.filter RespField.isAttached).length ≤ 16 ∧ (all.map RespField.plain).sum ≤ 4096
  then some all else none

/-- An instruction appends a field and ends as `k` says; past a limit its coach ends with `ILLEGAL_VALUE` (R38). -/
def Dev.appendThen (i : Nat) (f : RespField) (k : Dev → Dev) (d : Dev) : Dev :=
  match appendField (d.coach i).run.resp f with
  | some l => k (d.onRun i fun r => { r with resp := l })
  | none => d.terminate i stIllegalValue

/-! ## General instructions (R83) -/

/-- NOP. -/
def execNop (ctx : CtxId) (s : State) : Answer := runInstr ctx (·.op == 0x00) (pureInstr fun _ r => r) s

/-- MOVI. -/
def moviEffect (w : Fields) (r : Run) : Run :=
  match w.m with
  | 0 => r.setReg w.d (BitVec.ofNat 64 w.imm)
  | 1 => r.setReg w.d ((BitVec.ofNat 40 w.imm).signExtend 64)
  | _ => r.setReg w.d (BitVec.ofNat 64 (w.imm % 2 ^ 24 * 2 ^ 40 + r.num w.d % 2 ^ 40))

/-- MOVI. -/
def execMovi (ctx : CtxId) (s : State) : Answer := runInstr ctx (·.op == 0x01) (pureInstr moviEffect) s

/-- MOV. -/
def movEffect (w : Fields) (r : Run) : Run :=
  r.setReg w.d (match w.m with
    | 0 => r.reg w.a
    | 1 => BitVec.ofNat 64 r.flags.word
    | 2 => r.status.setWidth 64
    | 3 => BitVec.ofNat 64 r.keyReg.length
    | 4 => r.nsReg.setWidth 64
    | 5 => BitVec.ofNat 64 r.fetch.length
    | _ => BitVec.ofNat 64 r.loopCount)

/-- MOV. -/
def execMov (ctx : CtxId) (s : State) : Answer := runInstr ctx (·.op == 0x02) (pureInstr movEffect) s

/-- ADD to SHR: result, z and c (R83). -/
def aluEffect (w : Fields) (r : Run) : Run :=
  let v := aluResult w.op (r.reg w.a) (r.second w)
  { r.setReg w.d v.1 with flags := r.flags.ofResult v.1 v.2 }

/-- ADD. -/
def execAdd (ctx : CtxId) (s : State) : Answer := runInstr ctx (·.op == 0x03) (pureInstr aluEffect) s
/-- SUB. -/
def execSub (ctx : CtxId) (s : State) : Answer := runInstr ctx (·.op == 0x04) (pureInstr aluEffect) s
/-- AND. -/
def execAnd (ctx : CtxId) (s : State) : Answer := runInstr ctx (·.op == 0x05) (pureInstr aluEffect) s
/-- OR. -/
def execOr (ctx : CtxId) (s : State) : Answer := runInstr ctx (·.op == 0x06) (pureInstr aluEffect) s
/-- XOR. -/
def execXor (ctx : CtxId) (s : State) : Answer := runInstr ctx (·.op == 0x07) (pureInstr aluEffect) s
/-- SHL. -/
def execShl (ctx : CtxId) (s : State) : Answer := runInstr ctx (·.op == 0x08) (pureInstr aluEffect) s
/-- SHR. -/
def execShr (ctx : CtxId) (s : State) : Answer := runInstr ctx (·.op == 0x09) (pureInstr aluEffect) s

/-- CMP: z, lt, gt, unsigned (R83). -/
def cmpEffect (w : Fields) (r : Run) : Run :=
  { r with flags := r.flags.compare (r.num w.a) (r.second w).toNat }

/-- CMP. -/
def execCmp (ctx : CtxId) (s : State) : Answer := runInstr ctx (·.op == 0x0A) (pureInstr cmpEffect) s

/-! ## Control flow (R84 to R86, R42, R45) -/

/-- BR. -/
def execBr (ctx : CtxId) (s : State) : Answer :=
  runInstr ctx (·.op == 0x10) (fun i _ w => Dev.onRun i (Run.retireTo (w.imm % 64))) s

/-- BRC. -/
def brcEffect (w : Fields) (r : Run) : Run := if r.flags.holds w.m then r.retireTo (w.imm % 64) else r.retire

/-- BRC. -/
def execBrc (ctx : CtxId) (s : State) : Answer := runInstr ctx (·.op == 0x11) (fun i _ w => Dev.onRun i (brcEffect w)) s

/-- LOOP (R85). -/
def loopEffect (w : Fields) (r : Run) : Run :=
  let passes := if r.loopOwner = some r.pc then r.loopCount else 0
  let r := { r with loopOwner := some r.pc }
  if passes + 1 < bits w.imm 8 5 then { r with loopCount := passes + 1 }.retireTo (w.imm % 64)
  else { r with loopCount := 0 }.retire

/-- LOOP. -/
def execLoop (ctx : CtxId) (s : State) : Answer := runInstr ctx (·.op == 0x12) (fun i _ w => Dev.onRun i (loopEffect w)) s

/-- END, and execution past the last instruction, which counts no step. -/
def execEnd (ctx : CtxId) (s : State) : Answer :=
  runInstr ctx (·.op == 0x13) (fun i c _ d =>
    (if c.run.pc < c.program.length then d.onRun i Run.retire else d).finishCoach i) s

/-- STEP_LIMIT_REACHED: the 257th step does not run (R42). -/
def execStepLimitReached (ctx : CtxId) (s : State) : Answer :=
  onDev (fun d => match d.coachIn ctx.val with
    | none => d
    | some (i, c) =>
      if d.pathRuns c.privileged && decide (256 ≤ c.run.steps) && decide (c.run.pc < c.program.length)
      then d.endCoach i stStepLimit true else d) s

/-- `cclk` CCLK periods may have passed since a coach was dispatched, and they reach its timeout: (timeout + 1) x 100 us are
160,000 periods each (R45), and the ticks since then bound the periods: 1,600,000 a tick (R28). -/
def Coach.timedOut (c : Coach) (tick cclk : Nat) : Bool :=
  decide ((c.timeout + 1) * 160000 ≤ cclk) && decide (cclk < (tick - c.started + 1) * 1600000)

/-- EXECUTION_TIMEOUT: `ctx.cclk` CCLK periods after dispatch the timeout is reached (R28, R45, log entry 4). -/
def execExecutionTimeout (ctx : Expiry) (s : State) : Answer :=
  onDev (fun d => match d.coachIn ctx.ctx.val with
    | none => d
    | some (i, c) =>
      if d.pathRuns c.privileged && c.timedOut d.chip.tick ctx.cclk
      then (d.countTrap ctx.ctx.val).endCoach i stTimeout true else d) s

/-! ## Response and status (R106, R107) -/

/-- RESP. -/
def execResp (ctx : CtxId) (s : State) : Answer :=
  runInstr ctx (·.op == 0x3C) (fun i c w d =>
    match c.respField w with
    | some b => d.appendThen i (.bytes b) (Dev.onRun i Run.retire)
    | none => d.terminate i stIllegalValue) s

/-- STATUS. -/
def statusEffect (w : Fields) (r : Run) : Run :=
  let v := if w.m = 0 then w.imm % 256 else r.num w.a % 256
  r.setStatus (if settableStatus v then BitVec.ofNat 8 v else stIllegalValue)

/-- STATUS. -/
def execStatus (ctx : CtxId) (s : State) : Answer := runInstr ctx (·.op == 0x3D) (pureInstr statusEffect) s

/-- HASH (R104). -/
def hashEffect (i : Nat) (c : Coach) (w : Fields) (d : Dev) : Dev :=
  let r := c.run
  let area := if w.m % 2 = 1 then r.fetch else c.inbound
  let off := r.num w.a
  let len := r.num w.b
  if !inArea area off len then d.onRun i fun r => (r.setStatus stIllegalValue).retire
  else
    let bs := slice area off len
    if w.m < 2 then d.onRun i fun r => ((r.setReg w.d (BitVec.ofNat 64 (crc32c bs))).setStatus stOk).retire
    else
      let h := sha256 bs
      d.appendThen i (.bytes h) (Dev.onRun i fun r =>
        ((r.setReg w.d (BitVec.ofNat 64 (leNat (h.take 8)))).setStatus stOk).retire)

/-- HASH. -/
def execHash (ctx : CtxId) (s : State) : Answer := runInstr ctx (·.op == 0x38) (accepted hashEffect) s

end Sys2Proof.Machine
end

