-- ==== Sys2Proof/Machine/Tables.lean ====
section
/-!
DEFINITION. Machine/Tables.lean: the checkpointed tables of a region as the chunks save them: cells of a fixed size, and how the
cells are cut into chunks of 32,768 bytes (R122, R189, R192, R233, R355, R434).
-/
namespace Sys2Proof.Machine

/-! ## Cells -/

/-- Fields of given widths, lowest first, as one number. -/
def packBits : List (Nat × Nat) → Nat
  | [] => 0
  | (w, v) :: t => v % 2 ^ w + 2 ^ w * packBits t

/-- Cells that are not zero, in rising order. -/
def cellsOf (l : List (Nat × Nat)) : Tab Nat := (l.filter fun e => e.2 != 0).foldl (fun t e => Tab.set t e.1 e.2) []

/-- An index entry (R122). -/
def IndexEntry.word (e : IndexEntry) : Nat :=
  packBits [(64, e.fp), (45, e.addr), (4, e.lclass), (1, 1), (1, b2n e.cached), (1, b2n e.suspect), (1, b2n e.segmented),
    (1, b2n e.segment)]

/-- A bucket: four entries, then the companion line with their versions and the link to the next bucket of the chain (R122). -/
def bucketWord (slots : List (Option IndexEntry)) (next : Nat) : Nat :=
  let entry (i : Nat) : Nat := match slots.getD i none with
    | some e => e.word
    | none => 0
  let version (i : Nat) : Nat := match slots.getD i none with
    | some e => e.version
    | none => 0
  packBits [(128, entry 0), (128, entry 1), (128, entry 2), (128, entry 3), (64, version 0), (64, version 1), (64, version 2),
    (64, version 3), (32, next)]

/-- The buckets of a chain whose main bucket is `b`: overflow bucket j is bucket B + j (R123, R189). -/
def Chain.buckets (g : Geometry) (b : Nat) (c : Chain) : List (Nat × Nat) :=
  (List.range (c.links.length + 1)).map fun j =>
    (if j = 0 then b else 2 ^ g.k + c.links.getD (j - 1) 0,
      bucketWord ((c.slots.drop (4 * j)).take 4) (match c.links[j]? with
        | some l => l + 1
        | none => 0))

/-- Bit of the live map that stands for a sector (R189). -/
def Geometry.liveBit (g : Geometry) (a : Nat) : Nat :=
  let s := stripeOf a % 2 ^ 22
  let stripe := ((s / 1048576 * g.luns + s / 262144 % 4) * g.planes + s / 65536 % 4) * g.bpp + s % 65536
  ((stripe * g.ppb + pageOf a) * 16 + channelOf a) * g.spg + a % 16

/-- The live map, byte by byte. -/
def liveCells (g : Geometry) (live : Tab Unit) : Tab Nat :=
  live.foldl (fun t e => let n := g.liveBit e.1; Tab.update 0 t (n / 8) fun b => b + 2 ^ (n % 8)) []

/-- Number of a namespace state in 0x4004 and R192. -/
def nsStateNum : NsState → Nat
  | .free => 0
  | .active => 1
  | .removing => 2

/-- A namespace entry (R192). -/
def Namespace.word (n : Namespace) : Nat :=
  packBits [(8, nsStateNum n.state), (8, n.fixity), (8, n.groupPrefix), (8, n.durability), (8, n.ceiling), (8, n.options),
    (16, n.keySlot), (64, n.quota), (32, n.epoch), (32, n.tokenGen), (64, n.usage), (64, n.liveKeys)]

/-- A die entry and a block entry (R233). -/
def DieEntry.word (e : DieEntry) : Nat := packBits [(8, e.state), (8, 0), (16, e.retired), (32, e.budget)]
@[inherit_doc DieEntry.word] def BlockEntry.word (e : BlockEntry) : Nat :=
  packBits [(32, e.erases), (32, e.reads), (8, e.state), (24, 0), (32, e.retireEgen)]

/-- The values of the chip section (R434). -/
def Lifetime.chipSection (l : Lifetime) : List Nat :=
  [l.powerOnMs, l.powerCycles, l.pwrfails, l.pulses, l.failsafes, l.fences, l.nextSeq, l.recordsLost, l.times,
    l.wall.wall, l.wall.cycle, l.wall.ms, l.wall.lastKnown, l.deadPrimary.toNat, l.deadMirror.toNat, l.passes] ++
  (List.range 4).flatMap (fun e => [l.traps.get 0 (256 + e), l.machineChecks.get 0 (256 + e)]) ++
  (List.range 16).map (fun c => l.linkDowns.get 0 (512 + c)) ++ List.replicate 408 0 ++
  (List.range 64).map (fun b => l.temperature.get 0 (512 + b))

/-- The lifetime table of region `r`, value by value (R434). -/
def Lifetime.cells (r : Nat) (l : Lifetime) : Tab Nat :=
  let own (t : Tab Counter) (n at_ : Nat) : List (Nat × Nat) := (t.filter fun e => e.1 / n == r).map fun e => (at_ + e.1 % n, e.2)
  let engines (t : Tab Counter) (i : Nat) : List (Nat × Nat) := (t.filter fun e => e.1 / 32 == r).map fun e => (3140 + 2 * (e.1 % 32) + i, e.2)
  cellsOf (((List.range 512).zip l.chipSection) ++ own l.dies 1024 512 ++ own l.ldpc 32 1536 ++
    (l.latency.map fun e => (1568 + e.1, e.2)) ++ own l.temperature 64 2592 ++ own l.dram 480 2656 ++ own l.falseHits 4 3136 ++
    engines l.traps 0 ++ engines l.machineChecks 1 ++ own l.linkDowns 64 3204)

/-- Number of a slot state (R355). -/
def SlotState.num : SlotState → Nat
  | .empty => 0
  | .loaded => 1
  | .rekeying => 2
  | .exhausted => 3

/-- An owner entry (R355). -/
def OwnerEntry.word (o : OwnerEntry) : Nat := packBits [(8, b2n o.enrolled), (56, 0), (320, leNat o.kek), (64, leNat o.kcv)]

/-- A slot entry (R355). -/
def SlotEntry.word (s : SlotEntry) : Nat :=
  packBits [(8, s.state.num), (8, s.owner), (16, s.loads), (32, s.gen.toNat), (64, s.limit), (320, leNat s.key),
    (320, leNat s.prevKey), (32, s.prevGen.toNat), (8, s.prevOwner)]

/-- The key-slot table in cells of 64 bytes: an owner entry is one, a slot entry two (R355). -/
def KeyTable.cells (t : KeyTable) : Tab Nat :=
  cellsOf ((t.owners.map fun e => (e.1, e.2.word)) ++
    t.slots.flatMap fun e => [(16 + 2 * e.1, e.2.word % 2 ^ 512), (17 + 2 * e.1, e.2.word / 2 ^ 512)])

/-- Bytes of a cell of table `t`. -/
def cellBytes (t : Nat) : Nat := [128, 1, 4, 64, 16, 8, 64, 8].getD (t - 1) 8

/-- The cells of table `t` of region `r` that are not zero (R189). -/
def Checkpoint.cells (g : Geometry) (r t : Nat) (c : Checkpoint) : Tab Nat :=
  match t with
  | 1 => cellsOf (c.index.flatMap fun e => Chain.buckets g e.1 e.2)
  | 2 => liveCells g c.live
  | 3 => cellsOf (c.egens.map fun e => (e.1 % 2 ^ 22, e.2))
  | 4 => cellsOf (c.namespaces.map fun e => (e.1, e.2.word))
  | 5 => cellsOf ((c.dies.map fun e => (e.1 % 256, e.2.word)) ++ c.blocks.map fun e => (256 + e.1 % 67108864, e.2.word))
  | 6 => c.lifetime.cells r
  | 7 => c.keys.cells
  | _ => cellsOf c.versions

/-! ## Chunks (R189, R190) -/

/-- Bytes that the arrangement of the live map takes. -/
def Geometry.liveExtent (g : Geometry) : Nat := ceilDiv (g.ces * g.luns * g.planes * g.bpp * g.ppb * 16 * g.spg) 8

/-- Bytes of table `t` (R459). -/
def Geometry.tableBytes (g : Geometry) (t : Nat) : Nat :=
  [(2 ^ g.k + g.overflow) * 128, g.liveExtent, 16 * 2 ^ 20, 4 * 2 ^ 20, 4096 + 16 * 1024 * 65536, 32768, 525312, 524288].getD (t - 1) 0

/-- Bytes of a chunk. -/
def chunkSize : Nat := 32768

/-- Cells of table `t` in a chunk. -/
def chunkCells (t : Nat) : Nat := chunkSize / cellBytes t

/-- The cells of chunk `n` of a table, by their place in it. -/
def cutChunk (t n : Nat) (cells : Tab Nat) : Tab Nat :=
  let per := chunkCells t
  (cells.filter fun e => e.1 / per == n).map fun e => (e.1 % per, e.2)

/-- The 32,768 bytes of a chunk. -/
def chunkBytes (t : Nat) (cells : Tab Nat) : Bytes := (List.range (chunkCells t)).flatMap fun i => leBytes (cellBytes t) (cells.get 0 i)

/-- Entries of a manifest. -/
def manifestMax : Nat := 131072

/-- Entries that manifest `q` of table `t` counts: one for each chunk of the table. -/
def Geometry.manifestCount (g : Geometry) (t q : Nat) : Nat := min manifestMax (ceilDiv (g.tableBytes t) chunkSize - manifestMax * q)

end Sys2Proof.Machine
end

