-- ==== Sys2Proof/Machine/Records.lean ====
section
/-!
DEFINITION. Machine/Records.lean: record headers, encryption and counter blocks, reading and checking a value, tokens, and
the change of a key at its commit point (chapters 04, 06, 12).
-/
namespace Sys2Proof.Machine

/-! ## Record headers (R182, R183) -/

/-- Header bytes 0 to 495 of a value record or tombstone: the AAD of R183. -/
def Record.header (r : Record) : Bytes :=
  let kind : Nat := if r.kind == .tombstone then 2 else 1
  let flags := b2n (r.keySlot != 0xFFFF) + 2 * b2n r.imported + 4 * b2n r.member
  let body := [0x53, 0x56, 0x52, 0x48, 1] ++ leBytes 1 kind ++ leBytes 1 r.key.length ++ leBytes 1 r.fixity ++
    leBytes 2 r.ns.toNat ++ leBytes 2 r.keySlot ++ leBytes 4 r.slotGen.toNat ++ leBytes 8 r.ivCounter ++
    leBytes 8 r.version ++ leBytes 8 r.totalLen ++ leBytes 8 r.segLen ++ leBytes 8 r.writeTime ++
    leBytes 8 (stampNat r.stampCycle r.stampMs) ++ padTo 32 r.digest ++ leBytes 1 r.segIndex ++ leBytes 1 r.segCount ++
    leBytes 1 flags ++ zeros 5 ++ leBytes 8 r.setId ++ zeros 16 ++ padTo 256 r.key ++ zeros 104
  body ++ leBytes 4 (crc32c body) ++ zeros 4

/-- The IV of a record (R183). -/
def Record.iv (r : Record) : Bytes := leBytes 4 r.slotGen.toNat ++ leBytes 8 r.ivCounter

/-- Fixity digest of a value by kind (R373). -/
def digestOf (kind : Nat) (v : Bytes) : Bytes :=
  match kind with
  | 1 => leBytes 4 (crc32c v)
  | 2 => sha256 v
  | _ => []

/-! ## Keys of records (R370) -/

/-- The key that decrypts a record, if the device holds it. -/
def Dev.recordKey (d : Dev) (r : Record) : Option Bytes :=
  let s := d.slot r.keySlot
  if s.state == .empty then none
  else if r.slotGen = s.gen then d.keys.store.get? r.keySlot
  else if s.state == .rekeying && decide (r.slotGen = s.prevGen) then d.keys.prevStore.get? r.keySlot
  else none

/-- The lane pair that does a region's work: the lowest that is not fenced (log entry 18). -/
def Dev.workLane (d : Dev) (region : Nat) : Nat :=
  region * 8 + ((findNat 8 fun i => !(d.lane (region * 8 + i)).fenced).getD 0)

/-- Bytes through the cipher and hash lanes of a region (R380). -/
def Dev.countLane (region cipher hash : Nat) (d : Dev) : Dev :=
  d.onLane (d.workLane region) fun l =>
    { l with cipherBytes := satAdd l.cipherBytes cipher, hashBytes := satAdd l.hashBytes hash }

/-! ## Reading a value (R74, R91, R105, R370, R371) -/

/-- Decrypt a payload. -/
def Dev.openPayload (d : Dev) (a : Nat) (r : Record) (payload : Bytes) : SegRead :=
  if r.keySlot = 0xFFFF then { data := payload, addr := a, index := r.segIndex }
  else match d.recordKey r with
    | none => { data := zeros payload.length, st := stKeySlotEmpty, addr := a, index := r.segIndex }
    | some k =>
      let bad := gcmTag k r.iv r.header payload != r.tag
      { data := gcmPlain k r.iv payload, st := if bad then stIntegrityFailed else stOk, tagFailed := bad,
        addr := a, index := r.segIndex }

/-- The bytes of a payload that lie in sectors of its record that could not be decoded are zero (R74); the header takes the
first 512 bytes of sector 0. -/
def blankSectors (bad : List Nat) (p : Bytes) : Bytes :=
  (List.range p.length).map fun i => if bad.contains ((512 + i) / 4096) then 0 else p.getD i 0

/-- A segment with sectors that could not be decoded: the others are decrypted (R74). -/
def SegRead.lacking (bad : List Nat) (x : SegRead) : SegRead :=
  if x.st = stKeySlotEmpty then x
  else { x with data := blankSectors bad x.data, st := stMediaUncorrectable, tagFailed := false }

/-- Read one segment from carts, from the value cache, or from media with what the environment gives. -/
def Dev.readSegment (d : Dev) (a : Nat) (rb : ReadBack) : SegRead :=
  match d.store.buf.get? a with
  | some b => d.openPayload a b.rec_ b.rec_.payload
  | none =>
    match d.recordAt a with
    | none => { st := stMediaUncorrectable, addr := a }
    | some r =>
      if d.cached a then d.openPayload a r r.payload
      else if d.onFailedDie a r.span then
        { data := zeros r.segLen, st := stUnavailable, addr := a, index := r.segIndex }
      else match rb with
        | .good => d.openPayload a r r.payload
        | .corrupt m => d.openPayload a r (xorMask r.payload m)
        | .uncorrectable bad => (d.openPayload a r r.payload).lacking bad

/-- Read segments `lo` to `hi` - 1 of a value. -/
def Dev.readSegments (d : Dev) (addrs : List Nat) (lo hi : Nat) (bodies : List ReadBack) : List SegRead :=
  ((List.range addrs.length).filter fun i => decide (lo ≤ i ∧ i < hi)).map fun i =>
    d.readSegment (addrs.getD i 0) (bodies.getD (i - lo) .good)

/-- The key of every record of a value is held (R370). -/
def Dev.keysHeld (d : Dev) (addrs : List Nat) : Bool :=
  addrs.all fun a => match d.recordAt a with
    | some r => r.keySlot == 0xFFFF || (d.recordKey r).isSome
    | none => true

/-- A segment of a value lies in a region that is closed (R17 step 1). -/
def Dev.segmentClosed (d : Dev) (addrs : List Nat) (lo hi : Nat) : Bool :=
  (List.range addrs.length).any fun i => decide (lo ≤ i ∧ i < hi) && d.closedRegion (regionOfAddr (addrs.getD i 0))

/-- First failure, in order. -/
def firstFailure (l : List SegRead) : Byte := ((l.find? fun x => x.st != stOk).map (·.st)).getD stOk

/-- Bytes of the segments. -/
def segBytes (l : List SegRead) : Bytes := (l.map (·.data)).flatten

/-- The index entry of a key is marked suspect (R48, R105). -/
def Dev.markSuspect (home f a : Nat) (d : Dev) : Dev :=
  let c := d.chainOf home f
  match c.slotOf a with
  | none => d
  | some i =>
    match c.all.getD i none with
    | some e => d.putEntry home i none { e with suspect := true }
    | none => d

/-- A segment that was read has passed the lanes of its region where it is encrypted (R380). -/
def Dev.countRead (x : SegRead) (d : Dev) : Dev :=
  match d.recordAt x.addr with
  | some r => if r.keySlot ≠ 0xFFFF ∧ (x.st = stOk ∨ x.tagFailed = true) then d.countLane (regionOfAddr x.addr) x.data.length 0 else d
  | none => d

/-- Tag failures are recorded and their key marked suspect (R371, R378). -/
def Dev.noteTags (cause home : Nat) (ns : W16) (f addr0 : Nat) (l : List SegRead) (d : Dev) : Dev :=
  let d := Dev.each l Dev.countRead d
  Dev.each (l.filter (·.tagFailed)) (fun x d =>
    let r := regionOfAddr x.addr
    let lane := d.workLane r
    let d := d.onLane lane fun y => { y with tagFails := bump y.tagFails }
    (d.report r (39 + lane % 8) 0 0xC005 [ns.toNat, f, addr64 x.addr, x.index, cause]).markSuspect home f addr0) d

/-! ## Counter blocks (R366 to R369) -/

/-- A counter value, a refusal, or a wait. -/
inductive Counted where
  | value (n : Nat) (d : Dev)
  | exhausted (d : Dev)
  | waits

/-- The slot is exhausted (SLOT_EXHAUSTED, R369). -/
def Dev.exhaustSlot (slot : Nat) (d : Dev) : Dev :=
  let s := d.slot slot
  if s.state == .loaded then
    (d.onSlot slot fun s => { s with state := .exhausted }).report 8 8 0 0xC009 [slot, s.gen.toNat, s.limit, 0, 0]
  else d

/-- Values in a counter block (R367). -/
def counterBlock : Nat := 2 ^ 24

/-- A region raises a slot's limit by 2^24 and names it in a keystone (COUNTER_BLOCK_RESERVE, R367); none where no block is
left or a 65th entry would be needed (true: it waits). -/
def Dev.reserveBlock (r slot : Nat) (d : Dev) : Except Bool (Nat × Dev) :=
  let s := d.slot slot
  let res := (d.region r).reserved
  let others := res.filter fun e => e.1 != slot
  if 2 ^ 64 - 2 * counterBlock < s.limit then .error false
  else if 64 ≤ others.length then .error true
  else
    let limit := s.limit + counterBlock
    let d := d.onSlot slot fun s => { s with limit := limit }
    let d := d.onRegion r fun x => { x with reserved := others ++ [(slot, s.gen, limit)] }
    .ok (limit, d.writeKeystone (d.keystoneFate r) r)

/-- Keep a region's counter block of a slot. -/
def Dev.setBlock (r slot : Nat) (b : CounterBlock) : Dev → Dev :=
  Dev.onKeys fun k => { k with blocks := k.blocks.set (r * 4096 + slot) b }

/-- The next value of a block in use; at its half the next block is reserved. -/
def Dev.takeCounter (r slot : Nat) (b : CounterBlock) (d : Dev) : Counted :=
  let next := { b with next := b.next + 1 }
  if b.ahead.isNone && decide (b.stop ≤ next.next + counterBlock / 2) then
    match d.reserveBlock r slot with
    | .ok (limit, d) => .value b.next (d.setBlock r slot { next with ahead := some limit })
    | .error _ => .value b.next (d.setBlock r slot next)
  else .value b.next (d.setBlock r slot next)

/-- A rekey of the slot is not yet sealed in every region: encryptions still use the previous generation (R363). -/
def Dev.rekeyUnsealed (d : Dev) (slot : Nat) : Bool :=
  let k := d.keys.rekey
  (d.slot slot).state == .rekeying && k.running && k.slot == slot && !d.sealedAll k.started

/-- Generation and key that encrypt under a slot. -/
def Dev.encryptWith (d : Dev) (slot : Nat) : W32 × Bytes :=
  if d.rekeyUnsealed slot then ((d.slot slot).prevGen, (d.keys.prevStore.get? slot).getD [])
  else ((d.slot slot).gen, (d.keys.store.get? slot).getD [])

/-- The counter value of a record allocated in region `r`. Until a rekey is sealed only values already reserved of the
previous generation can be used. -/
def Dev.nextCounter (r slot : Nat) (d : Dev) : Counted :=
  let s := d.slot slot
  if s.state == .exhausted then .exhausted d
  else if d.rekeyUnsealed slot then
    let b := (d.keys.blocks.get? (r * 4096 + slot)).getD {}
    if b.gen ≠ s.prevGen then .waits
    else if b.next < b.stop then .value b.next (d.setBlock r slot { b with next := b.next + 1 })
    else match b.ahead with
      | some limit =>
        .value (limit - counterBlock) (d.setBlock r slot { gen := s.prevGen, next := limit - counterBlock + 1, stop := limit })
      | none => .waits
  else
    let b := (d.keys.blocks.get? (r * 4096 + slot)).getD {}
    let b : CounterBlock := if b.gen = s.gen then b else { gen := s.gen }
    if b.next < b.stop then d.takeCounter r slot b
    else match b.ahead with
      | some limit => d.takeCounter r slot { gen := s.gen, next := limit - counterBlock, stop := limit }
      | none =>
        match d.reserveBlock r slot with
        | .ok (limit, d) => d.takeCounter r slot { gen := s.gen, next := limit - counterBlock, stop := limit }
        | .error true => .waits
        | .error false => .exhausted (d.exhaustSlot slot)

/-! ## Tokens (R133 to R135) -/

/-- The key K of a namespace (R134). -/
def tokenKeyOf (t : Bytes) (ns : W16) : Bytes :=
  aesBlock t (leBytes 2 ns.toNat ++ [0] ++ zeros 13) ++ aesBlock t (leBytes 2 ns.toNat ++ [1] ++ zeros 13)

/-- The tag of token bytes 4 to 15. -/
def tokenTag (t : Bytes) (ns : W16) (body : Bytes) : Bytes := (aesBlock (tokenKeyOf t ns) (body ++ [0, 0, 0, 1])).take 4

/-- The token of a record at an address (R133). With no token key held the tag is that of no key. -/
def Dev.tokenFor (d : Dev) (ns : W16) (a span version : Nat) : Bytes :=
  let egen := (d.stripe (stripeOf a)).egen
  let word := a + lclassOf span * 2 ^ 45 + version % 8 * 2 ^ 49 + egen % 4096 * 2 ^ 52
  let body := leBytes 4 (d.ns ns.toNat).epoch ++ leBytes 8 word
  tokenTag (d.keys.tokenKey.getD (zeros 32)) ns body ++ body

/-- A token has been issued for a key of region `r` (R143). -/
def Dev.countIssued (r : Nat) : Dev → Dev := Dev.onRegion r fun x => { x with tokIssued := bump x.tokIssued }

/-! ## Planning a write (R94, R125, R140, R141, R232) -/

/-- A write of a whole value to a key. -/
structure WriteAsk where
  ns : W16
  key : Bytes
  home : Nat
  fp : Nat
  value : Bytes
  version : Nat
  /-- What the key held. -/
  old : Option Hit := none
  writeTime : Nat := 0
  digest : Bytes := []
  fixity : Nat := 0
  imported : Bool := false
  /-- Set identifier, when it is a member (0 for the first record of a set). -/
  member : Option Nat := none
  cls : Nat := 0

/-- Length of the value's segments. -/
def segmentsOf (v : Bytes) : List Bytes := if v.isEmpty then [[]] else chunks 1048576 v

/-- Segments the key had. -/
def WriteAsk.oldCount (w : WriteAsk) : Nat := (w.old.map fun h => h.addrs.length).getD 0

/-- Region of segment `i`. -/
def WriteAsk.regionAt (w : WriteAsk) (i : Nat) : Nat := (w.home + i) % 8

/-- The last staged update of each key, in staging order. -/
def AtomicSet.members (s : AtomicSet) : List Staged :=
  s.staged.filter fun x => (s.staged.reverse.find? fun y => y.ns == x.ns && y.key == x.key) == some x

/-- The updates that open sets have staged for other keys of region `r` that did not exist: each will need an entry. -/
def Dev.stagedNew (d : Dev) (ns : W16) (key : Bytes) (r : Nat) : List Staged :=
  (d.eng.coaches.map fun c => match c.2.set with
    | some s => s.members.filter fun x => !x.existed && regionOfAddr x.addr == r && x.kind == .value && !(x.ns == ns && x.key == key)
    | none => []).flatten

/-- A new entry takes its slot; none where R124 refuses it. -/
def Dev.insertEntry (r : Nat) (e : IndexEntry) (d : Dev) : Option Dev :=
  let c := d.chainOf r e.fp
  ((d.region r).newSlot d.geom.overflow c).map fun p => d.putEntry r p.1 p.2 e

/-- Check 6 of R140: the first region that refuses an entry, if any. Entries that staged updates will need are kept free. -/
def Dev.refusesEntry (w : WriteAsk) (n : Nat) (d : Dev) : Option Nat :=
  let fresh := (List.range n).drop w.oldCount
  let d := Dev.each (fresh.map w.regionAt).eraseDups (fun r d =>
    Dev.each (d.stagedNew w.ns w.key r) (fun s d => (d.insertEntry r { fp := s.fp }).getD d) d) d
  (fresh.foldl (fun acc i => match acc with
    | .error r => .error r
    | .ok d =>
      let r := w.regionAt i
      match d.insertEntry r { fp := d.segFp w.ns w.key i, segment := i != 0 } with
      | some d => .ok d
      | none => .error r) (Except.ok d : Except Nat Dev)) |> fun
    | .ok _ => none
    | .error r => some r

/-- Sectors of region `r` among listed spans. -/
def regionSum (r : Nat) (l : List (Nat × Nat)) : Nat := ((l.filter fun e => e.1 == r).map Prod.snd).sum

/-- Check 7 of R140 (R232): does the write pass the capacity limits? -/
def Dev.fits (w : WriteAsk) (spans : List (Nat × Nat)) (d : Dev) : Bool :=
  let olds := ((w.old.map (·.addrs)).getD []).map fun a => (regionOfAddr a, d.spanAt a)
  (spans.map Prod.fst).eraseDups.all fun r =>
    let new := regionSum r spans
    let old := regionSum r olds
    let creates := ((List.range spans.length).drop w.oldCount).any fun i => w.regionAt i == r
    let made := regionSum r (spans.drop w.oldCount)
    let l := d.liveSectors r
    let u := d.usableSectors r
    !(creates && decide (63 * u < 64 * (l + made))) && !(decide (old < new) && decide (255 * u < 256 * (l + new - old)))

/-- The outcome of a write. -/
inductive Wrote where
  | fails (st : Byte) (d : Dev)
  /-- It waits behind credits; a front whose stripe has no room for it is padded meanwhile. -/
  | waits (pad : Option Nat)
  /-- Addresses and spans of the records in buffer carts. -/
  | done (addrs : List (Nat × Nat)) (d : Dev)

/-- The counter of a key slot still has a value for a record of region `r` (check 3 of R140, R369); none where it has not,
with the device after the slot has been found exhausted. -/
def Dev.counterSpent (r slot : Nat) (d : Dev) : Option Dev :=
  match d.nextCounter r slot with
  | .exhausted d => some d
  | _ => none

/-- Checks 1 to 7 of R140. The regions of check 4 are those of the value's segments, the old ones included, since a record
is written to each. -/
def Dev.writeCheck (w : WriteAsk) (d : Dev) : Option (Byte × Dev) :=
  let n := d.ns w.ns.toNat
  let segs := segmentsOf w.value
  let spans := (List.range segs.length).map fun i => (w.regionAt i, spanOf (segs.getD i []).length)
  let regions := (List.range segs.length).map w.regionAt
  let oldBytes := ((w.old.map (·.addrs)).getD []).map d.spanAt |>.sum
  let newBytes := (spans.map Prod.snd).sum
  let slot := d.slot n.keySlot
  if (if w.member.isSome then 1048576 else 67108864) < w.value.length then some (stValueTooLarge, d)
  else if n.keySlot ≠ 0xFFFF ∧ (slot.state == .empty || (d.keys.store.get? n.keySlot).isNone) = true then
    some (stKeySlotEmpty, d)
  else if n.keySlot ≠ 0xFFFF ∧ (d.counterSpent w.home n.keySlot).isSome = true then
    some (stKeySlotExhausted, (d.counterSpent w.home n.keySlot).getD d)
  else if ((List.range segs.length).map w.regionAt).any d.closedRegion then some (stUnavailable, d)
  else match regions.findSome? d.writable with
    | some st => some (st, d)
    | none =>
      if n.quota ≠ 0 ∧ oldBytes < newBytes ∧ n.quota < n.usage - oldBytes * 4096 + newBytes * 4096 then some (stNoSpace, d)
      else match d.refusesEntry w segs.length with
        | some r => some (stIndexFull, d.onRegion r fun x => { x with indexFull := bump x.indexFull })
        | none => if d.fits w spans then none else some (stNoSpace, d)

/-- The record at an address was written for a request of class `cls`. -/
def Dev.markSeven (a cls : Nat) : Dev → Dev :=
  Dev.when (cls == 7) (Dev.onStore fun x => { x with buf := x.buf.adjust a fun b => { b with seven := true } })

/-- One segment's record, encrypted, in carts; waits where its front has no room. -/
def Dev.writeSegment (bd : Board) (w : WriteAsk) (count i : Nat) (seg : Bytes) (d : Dev) : Wrote :=
  let n := d.ns w.ns.toNat
  let r := w.regionAt i
  let isNew := decide (w.oldCount ≤ i)
  let f := frontOf r (if isNew && w.member.isNone then 0 else 1) (n.options % 2 == 1 || w.member.isSome)
  let span := spanOf seg.length
  if !d.room f span then .waits (some f)
  else if !d.cartRoom bd.tProgUs bd.tProgMaxUs r span w.cls then .waits none
  else
    let base : Record :=
      { kind := .value, ns := w.ns, key := w.key, fixity := w.fixity, version := w.version, totalLen := w.value.length,
        segLen := seg.length, writeTime := w.writeTime, stampCycle := d.stampCycle, stampMs := d.stampMs, digest := w.digest,
        segIndex := i, segCount := count, imported := w.imported, member := w.member.isSome,
        setId := match w.member with
          | some 0 => d.store.nextWsn
          | some k => k
          | none => 0
        span := span, payload := seg }
    let put (rec_ : Record) (d : Dev) : Wrote :=
      let (a, d) := d.place f rec_ w.member.isSome
      .done [(a, span)] (d.markSeven a w.cls)
    if n.keySlot = 0xFFFF then put base (d.countLane r 0 (if w.fixity = 0 then 0 else seg.length))
    else match d.nextCounter w.home n.keySlot with
      | .waits => .waits none
      | .exhausted d => .fails stKeySlotExhausted d
      | .value iv d =>
        let rec_ := { base with keySlot := n.keySlot, slotGen := (d.encryptWith n.keySlot).1, ivCounter := iv }
        let sealed := gcmSeal (d.encryptWith n.keySlot).2 rec_.iv rec_.header seg
        put { rec_ with payload := sealed.1, tag := sealed.2 }
          (d.countLane r seg.length (if w.fixity = 0 then 0 else seg.length))

/-- Write a value's records after the checks of R140. A wait or a refusal leaves no record behind. -/
def Dev.writeRecords (bd : Board) (w : WriteAsk) (d : Dev) : Wrote :=
  match d.writeCheck w with
  | some (st, d) => .fails st d
  | none =>
    let segs := segmentsOf w.value
    (List.range segs.length).foldl (fun acc i => match acc with
      | .done as d' =>
        match d'.writeSegment bd w segs.length i (segs.getD i []) with
        | .done a d'' => .done (as ++ a) d''
        | .fails st d'' => .fails st (if i = 0 then d'' else d.exhaustSlot (d.ns w.ns.toNat).keySlot)
        | .waits p => .waits p
      | other => other) (.done [] d)

/-! ## The commit of one key (R127, R130, R131) -/

/-- A unit keeps the class under which it was taken. -/
def Dev.sevenAt (d : Dev) (unit cls : Nat) : Bool := ((d.store.dir.get? unit).map (·.seven)).getD (cls == 7)

/-- The new records of a key become current. -/
def Dev.commitValue (w : WriteAsk) (unit : Nat) (addrs : List (Nat × Nat)) (d : Dev) : Dev :=
  let as := addrs.map Prod.fst
  let d := match w.old with
    | some h => d.dropRecords w.ns w.key w.home h as.length
    | none => d
  let oldAddrs := (w.old.map (·.addrs)).getD []
  let put (i : Nat) (d : Dev) : Dev :=
    let r := w.regionAt i
    let e : IndexEntry :=
      { fp := d.segFp w.ns w.key i, addr := as.getD i 0, lclass := lclassOf ((addrs.getD i (0, 0)).2),
        segmented := i == 0 && decide (1 < as.length), segment := i != 0, version := w.version }
    let at_ := if i = 0 then w.old.bind (·.slot) else ((oldAddrs.drop i).head?).bind (d.chainOf r e.fp).slotOf
    match at_ with
    | some slot => d.putEntry r slot none e
    | none => (d.insertEntry r e).getD d
  let d := Dev.each (List.range as.length) put d
  let d := Dev.each as Dev.setLive d
  let d := d.onNs w.ns.toNat fun n => { n with
    usage := n.usage + (addrs.map Prod.snd).sum * 4096
    liveKeys := if w.old.isSome then n.liveKeys else n.liveKeys + 1 }
  let d := d.raiseVersion w.home w.ns.toNat w.version
  d.setUnit unit { fp := w.fp, key := w.key, ns := w.ns, rec_ := 1, addrs := as, version := w.version, seven := d.sevenAt unit w.cls }

/-- A committed delete: the tombstone at `a` is the key's newest record. -/
def Dev.commitDelete (ns : W16) (key : Bytes) (home f : Nat) (h : Hit) (unit a version cls : Nat) (d : Dev) : Dev :=
  let d := d.dropRecords ns key home h 1
  let d := match h.slot with
    | some s => d.clearEntry home f s
    | none => d
  let d := d.onNs ns.toNat fun n => { n with liveKeys := n.liveKeys - 1 }
  let d := d.raiseVersion home ns.toNat version
  d.setUnit unit { fp := f, key := key, ns := ns, rec_ := 3, addrs := [a], version := version, seven := d.sevenAt unit cls }

/-- Write a tombstone (R182); none where it waits. -/
def Dev.writeTombstone (bd : Board) (ns : W16) (key : Bytes) (home version cls : Nat) (member : Option Nat) (d : Dev) :
    Wrote :=
  let kept := (d.ns ns.toNat).options % 2 == 1 || member.isSome
  let f := frontOf home 1 kept
  if !d.room f 1 then .waits (some f)
  else if !d.cartRoom bd.tProgUs bd.tProgMaxUs home 1 cls then .waits none
  else
    let (a, d) := d.place f
      { kind := .tombstone, ns := ns, key := key, version := version, writeTime := d.wallNow, stampCycle := d.stampCycle,
        stampMs := d.stampMs, member := member.isSome, span := 1
        setId := match member with
          | some 0 => d.store.nextWsn
          | some k => k
          | none => 0 } member.isSome
    .done [(a, 1)] (d.markSeven a cls)

end Sys2Proof.Machine
end

