-- ==== Sys2Proof/Machine/KeyOps.lean ====
section
/-!
DEFINITION. Machine/KeyOps.lean: the key, value, set, token, iteration, migration and integrity instructions, and the
answer of a sub-request (chapters 02, 03, 04).
-/
namespace Sys2Proof.Machine

/-! ## Endings of an instruction -/

/-- The instruction ends with a status; `f` is what else it does to the registers. -/
def Dev.endWith (i : Nat) (st : Byte) (f : Run → Run) (d : Dev) : Dev :=
  d.onCoach i fun c => { c with wait := .none, run := ((f c.run).setStatus st).retire }

/-- The instruction fails with a status and changes nothing else. -/
def Dev.fail (i : Nat) (st : Byte) : Dev → Dev := Dev.endWith i st id

/-- The coach waits. -/
def Dev.waitFor (i : Nat) (w : Wait) : Dev → Dev := Dev.onCoach i fun c => { c with wait := w }

/-- flags.found and flags.pending (R89). -/
def Run.looked (found pending : Bool) (r : Run) : Run := { r with flags := { r.flags with found := found, pending := pending } }

/-- A key instruction on a coach's key: board, what the media gives, is a sub-request answered, coach, word. -/
abbrev KeyEffect := Board → ReadEnv → Bool → Nat → Coach → Fields → Dev → Dev

/-! ## Checks of R89 -/

/-- Check 3 of R89 for a region, with NOT_READY before step 10 (R383) and UNAVAILABLE in recovery and in the fail-safe
state (R398, R413). -/
def Dev.regionGate (d : Dev) (r : Nat) : Option Byte :=
  if d.failsafe || d.chip.state == 2 then some stUnavailable
  else if d.chip.state == 0 then some stNotReady
  else if d.closedRegion r then some stUnavailable else none

/-- A failure of check 3: terminal in the coach's own home region (R72). -/
def Dev.gateFail (i : Nat) (c : Coach) (r : Nat) (st : Byte) (d : Dev) : Dev :=
  if st == stUnavailable && !c.privileged && r == c.home && d.serving then d.terminate i st else d.fail i st

/-- Check 1 of R89: the namespace register names an ACTIVE namespace (R113). -/
def Dev.nsActive (d : Dev) (ns : W16) : Bool := ns != 0 && (d.ns ns.toNat).state == .active

/-- Checks 1 to 3 of R89 for an instruction on the key register; then a sub-request where the key's home is elsewhere
(R20, R64, R80); then the directory search. Where that search would meet a fault of the array the instruction goes on once
ASSOC_SEARCH has repaired it (log entry 36). -/
def keyed (f : Nat → Nat → KeyEffect) : KeyEffect := fun bd rd answered i c w d =>
  let ns := c.run.nsReg
  let key := c.run.keyReg
  if !d.nsActive ns then d.fail i stNamespaceUnknown
  else if key.isEmpty then d.fail i stIllegalValue
  else
    let home := d.homeOf ns key
    match d.regionGate home with
    | some st => d.gateFail i c home st
    | none =>
      if !answered && (c.privileged || home != c.home) then d.waitFor i (.subRequest home)
      else if !d.dirClean home (d.dirKeyOf ns key) then d
      else f home (d.fpOf ns key) bd rd answered i c w (d.stepDir home (if c.privileged then 3 else c.clsNow) ns key)

/-! ## Sets (R50, R55, R59) -/

/-- The latest update a coach has staged for a key. -/
def Coach.stagedFor (c : Coach) (ns : W16) (key : Bytes) : Option Staged :=
  c.set.bind fun s => s.staged.reverse.find? fun x => x.ns == ns && x.key == key

/-- The key is locked by the coach's set. -/
def Coach.locked (c : Coach) (ns : W16) (key : Bytes) : Bool := (c.set.map fun s => s.locks.contains (ns, key)).getD false

/-- Another coach's open set holds the key. -/
def Dev.heldByOther (d : Dev) (i home : Nat) (ns : W16) (key : Bytes) : Option Nat :=
  match d.unit? home ns key with
  | none => none
  | some (_, u) => if u.hold ≠ 0 ∧ u.holder ≠ some i then u.holder else none

/-- The key as a coach sees it: its own staged update first (R50). -/
def Dev.lookFor (d : Dev) (c : Coach) (home : Nat) (ns : W16) (key : Bytes) (always : Bool) (left : List ReadBack) :
    Lookup × Bool :=
  match c.stagedFor ns key with
  | some x =>
    if x.kind == .tombstone then ({ left := left }, true)
    else
      let e : IndexEntry := { fp := x.fp, addr := x.addr, version := x.version }
      ({ left := left, hit := some { pending := true, entry := e, addrs := [x.addr], version := x.version } }, true)
  | none => (d.look home ns key always left, false)

/-- Status of a matching entry that could not be confirmed (R126). -/
def blockedStatus (unavailable : Bool) : Byte := if unavailable then stUnavailable else stMediaUncorrectable

/-! ## KEY and NSP (R87, R88, R65, R67) -/

/-- The bytes a KEY loads; none where its source is not present. -/
def Coach.keySource (c : Coach) (w : Fields) : Option Bytes :=
  match w.m with
  | 0 => c.keys[w.imm % 32]?
  | 1 =>
    let len := w.imm % 256
    let off := w.imm / 256
    if len ≠ 0 ∧ inArea c.inbound off len = true then some (slice c.inbound off len) else none
  | _ =>
    let off := c.run.num w.a
    let len := leAt c.run.fetch off 1
    if len ≠ 0 ∧ inArea c.run.fetch off (1 + len) = true then some (slice c.run.fetch (off + 1) len) else none

/-- KEY. -/
def keyEffect (i : Nat) (c : Coach) (w : Fields) (d : Dev) : Dev :=
  match c.keySource w with
  | some k => d.endWith i stOk fun r => { r with keyReg := k }
  | none => d.fail i stIllegalValue

/-- KEY. -/
def execKey (ctx : CtxId) (s : State) : Answer := runInstr ctx (·.op == 0x20) (accepted keyEffect) s

/-- The namespace key of R152. -/
def nsRuleKey (ruleset nsid : W16) : Nat := 2 * 2 ^ 156 + ruleset.toNat * 2 ^ 140 + nsid.toNat * 2 ^ 124

/-- The access rule of a coach grants a namespace (R65, R152). -/
def Dev.granted (d : Dev) (c : Coach) (ns : W16) : Bool :=
  c.privileged ||
    match (d.bank (c.home * 4 + 3)).lowest (nsRuleKey c.ruleset ns) with
    | some (_, row) => bit row.assoc 0
    | none => false

/-- NSP. A search that would meet a fault of the array goes on once ASSOC_SEARCH has repaired it (log entry 36). -/
def nspEffect (i : Nat) (c : Coach) (w : Fields) (d0 : Dev) : Dev :=
  let d := d0
  let v := if w.m = 0 then w.imm % 65536 else c.run.num w.a
  if 65536 ≤ v then d.fail i stIllegalValue
  else
    let ns := BitVec.ofNat 16 v
    let refuse := Dev.endWith i stNamespaceUnknown fun r => { r with nsReg := 0 }
    let bank := c.home * 4 + 3
    let key := nsRuleKey c.ruleset ns
    let met := d.faultMet bank key 0
    let d := if c.privileged then d else (d.countSearch bank c.clsNow).giveWord bank (d.searchWord bank key 0 false)
    if !c.privileged && met != .none then d0
    else if !d.granted c ns then refuse (d.onBank bank fun b => { b with denied := bump b.denied })
    else if !d.nsActive ns then refuse d
    else
      (d.endWith i stOk fun r => { r with nsReg := ns }).onCoach i fun c => { c with
        clsNow := min c.clsNow (d.nsFor c v).ceiling
        loaded := if c.loaded.contains ns then c.loaded else ns :: c.loaded }

/-- NSP. -/
def execNsp (ctx : CtxId) (s : State) : Answer := runInstr ctx (·.op == 0x21) (accepted nspEffect) s

/-! ## Reading (R90 to R93) -/

/-- Where a reading instruction puts a value: the fetch area or the response. -/
structure ReadAsk where
  attach : Bool
  /-- Offset and length, 0 to the end, of a GETR. -/
  range : Option (Nat × Nat) := none
  okStatus : Byte := 0
  /-- Field appended after the value. -/
  extra : Option Bytes := none

/-- The instruction has succeeded: registers, then the extra field, then retirement. -/
def Dev.readDone (i : Nat) (w : Fields) (a : ReadAsk) (version : Nat) (f : Run → Run) (d : Dev) : Dev :=
  let d := d.onCoach i fun c => { c with wait := .none, run :=
    let r := (f c.run).setReg w.d (BitVec.ofNat 64 version)
    let r := r.setStatus a.okStatus
    if a.okStatus = stTokenStale then { r with flags := { r.flags with stale := true } } else r }
  match a.extra with
  | none => d.onRun i Run.retire
  | some b => d.appendThen i (.bytes b) (Dev.onRun i Run.retire)

/-- A segment that a read of `want` bytes from `off` (or of the whole value) needs lies in a closed region (R17). -/
def Dev.servesClosed (d : Dev) (addrs : List Nat) (off want : Nat) (whole : Bool) : Bool :=
  d.segmentClosed addrs (off / 1048576) (if whole then addrs.length else if want = 0 then off / 1048576 else (off + want - 1) / 1048576 + 1)

/-- Serve a value that has been found. A read that fails, or finds nothing, leaves flags.trunc as it was: R35 ties it to the
last fetch into the fetch area. DEDUCED (log entry 38). -/
def Dev.serve (i home f : Nat) (c : Coach) (w : Fields) (a : ReadAsk) (h : Hit) (bodies : List ReadBack) (d : Dev) : Dev :=
  let ns := c.run.nsReg
  match d.recordAt (h.addrs.headD 0) with
  | none => d.endWith i stMediaUncorrectable fun r =>
      (if a.attach then r else { r with fetch := [] }).looked true h.pending
  | some rec_ =>
    let total := rec_.totalLen
    let off := (a.range.map Prod.fst).getD 0
    let want := match a.range with
      | none => total
      | some (o, 0) => total - o
      | some (o, n) => min n (total - o)
    if total < off then d.endWith i stIllegalValue (Run.looked true h.pending)
    else if d.servesClosed h.addrs off want a.range.isNone then d.endWith i stUnavailable (Run.looked true h.pending)
    else if a.attach && !d.keysHeld h.addrs then d.endWith i stKeySlotEmpty (Run.looked true h.pending)
    else if a.attach then
      let n := d.nsFor c ns.toNat
      let field : Attached :=
        { ns := ns, fp := f, home := home, addrs := h.addrs, totalLen := total, offset := off, length := want,
          whole := a.range.isNone, hold := n.options / 2 % 2 == 1, fixity := rec_.fixity, digest := rec_.digest }
      d.appendThen i (.attached field) (Dev.readDone i w a h.version (Run.looked true h.pending))
    else
      let take := min want 16384
      let lo := off / 1048576
      let hi := if a.range.isNone then 1 else if take = 0 then lo else (off + take - 1) / 1048576 + 1
      let segs := d.readSegments h.addrs lo hi bodies
      let bytes := slice (segBytes segs) (off - lo * 1048576) take
      let wholeRead := a.range.isNone && h.addrs.length == 1
      let st := firstFailure segs
      let st := if st = stOk ∧ wholeRead = true ∧ digestOf rec_.fixity (segBytes segs) ≠ rec_.digest then stIntegrityFailed else st
      let d := d.noteTags 1 home ns f (h.addrs.headD 0) segs
      if st = stOk then
        d.readDone i w a h.version fun r =>
          { r with fetch := bytes, flags := { r.flags with trunc := decide (take < want), found := true, pending := h.pending } }
      else d.endWith i st fun r =>
        let r := r.looked true h.pending
        if st = stIntegrityFailed then { r with fetch := [] }.setReg w.d 0
        else if st = stMediaUncorrectable then { r with fetch := [] } else r

/-- A lookup found nothing to serve. -/
def Dev.notServedKey (i : Nat) (w : Fields) (attach : Bool) (l : Lookup) (own : Bool) (d : Dev) : Dev :=
  match l.blocked with
  | some (_, _, u) => d.endWith i (blockedStatus u) fun r =>
      (if attach || u then r else { r with fetch := [] }).looked false false
  | none => d.endWith i stNotFound fun r =>
      ((if attach then r else { r with fetch := [] }).setReg w.d 0).looked false own

/-- GET and GETR on their key. -/
def getCore (ranged : Bool) (home f : Nat) : KeyEffect := fun _ rd _ i c w d =>
  let (l, own) := d.lookFor c home c.run.nsReg c.run.keyReg true rd.headers
  let attach := w.m % 2 == 1
  match l.hit with
  | none => d.notServedKey i w attach l own
  | some h =>
    let range := if ranged then some (c.run.num w.a, c.run.num w.b) else none
    (d.serve i home f c w { attach := attach, range := range } h rd.bodies).cacheStep rd home f (h.addrs.headD 0)

/-- GET. -/
def getEffect : KeyEffect := keyed (getCore false)
/-- GETR. -/
def getrEffect : KeyEffect := keyed (getCore true)

/-- The metadata block of R93. -/
def metadataBlock (r : Record) (version : Nat) (pending : Bool) (e : IndexEntry) : Bytes :=
  leBytes 8 version ++ leBytes 8 r.totalLen ++ leBytes 8 r.writeTime ++ padTo 32 r.digest ++ leBytes 2 r.ns.toNat ++
    leBytes 1 r.fixity ++ leBytes 1 (b2n pending + 2 * b2n e.suspect + 4 * b2n (decide (1 < r.segCount))) ++ zeros 4

/-- HEAD on its key. It writes the fetch area and leaves flags.trunc as it was: R90 gives trunc to GET and GETR alone. DEDUCED
(log entry 38). -/
def headCore (home _f : Nat) : KeyEffect := fun _ rd _ i c w d =>
  let (l, own) := d.lookFor c home c.run.nsReg c.run.keyReg false rd.headers
  match l.hit with
  | none => match l.blocked with
    | some (_, _, u) => d.endWith i (blockedStatus u) fun r => (if u then r else { r with fetch := [] }).looked false false
    | none => d.endWith i stNotFound fun r => ({ r with fetch := [] }.setReg w.d 0).looked false own
  | some h =>
    match d.readHeader (h.addrs.headD 0) l.left with
    | (.unreadable u, _) => d.endWith i (blockedStatus u) fun r => (if u then r else { r with fetch := [] }).looked true h.pending
    | (.found x, _) =>
      let v := match w.m with | 0 => h.version | 1 => x.totalLen | _ => x.writeTime
      d.endWith i stOk fun r =>
        ({ r with fetch := metadataBlock x h.version h.pending h.entry }.setReg w.d (BitVec.ofNat 64 v)).looked true h.pending

/-- HEAD. -/
def headEffect : KeyEffect := keyed headCore

/-- VERIFY on its key (R105). -/
def verifyCore (home f : Nat) : KeyEffect := fun _ rd _ i c w d =>
  let ns := c.run.nsReg
  let l := d.look home ns c.run.keyReg true rd.headers
  match l.hit with
  | none => match l.blocked with
    | some (_, e, u) => d.endWith i (blockedStatus u) fun r =>
        (if u then r else r.setReg w.d (BitVec.ofNat 64 e.version)).looked false false
    | none => d.endWith i stNotFound fun r => (r.setReg w.d 0).looked false false
  | some h =>
    if d.segmentClosed h.addrs 0 64 then d.endWith i stUnavailable (Run.looked true h.pending)
    else
    let segs := d.readSegments h.addrs 0 64 rd.bodies
    let st := firstFailure segs
    let good := match d.recordAt (h.addrs.headD 0) with
      | some x => digestOf x.fixity (segBytes segs) == x.digest
      | none => true
    let st := if st = stOk ∧ good = false then stIntegrityFailed else st
    let d := d.noteTags 2 home ns f (h.addrs.headD 0) segs
    let d := if st = stIntegrityFailed then d.markSuspect home f (h.addrs.headD 0) else d
    d.endWith i st fun r =>
      (if st = stUnavailable then r else r.setReg w.d (BitVec.ofNat 64 h.version)).looked true h.pending

/-- VERIFY. -/
def verifyEffect : KeyEffect := keyed verifyCore

/-! ## Tokens (R98, R99, R135, R136) -/

/-- TOKEN on its key. -/
def tokenCore (home _f : Nat) : KeyEffect := fun _ rd _ i c w d =>
  let ns := c.run.nsReg
  let l := d.look home ns c.run.keyReg false rd.headers
  match l.hit with
  | none => match l.blocked with
    | some (_, _, u) => d.endWith i (blockedStatus u) (Run.looked false false)
    | none => d.endWith i stNotFound fun r => (r.setReg w.d 0).looked false false
  | some h =>
    let a := h.addrs.headD 0
    let t := d.tokenFor ns a (d.spanAt a) h.version
    d.appendThen i (.bytes t) fun d =>
      (d.countIssued home).endWith i stOk fun r => (r.setReg w.d (BitVec.ofNat 64 h.version)).looked true h.pending

/-- TOKEN. -/
def tokenEffect : KeyEffect := keyed tokenCore

/-- The fields of a token. -/
structure TokenFields where
  epoch : Nat
  addr : Nat
  lclass : Nat
  vlow : Nat
  egen : Nat

/-- Read a token. -/
def tokenFields (t : Bytes) : TokenFields :=
  let w := leAt t 8 8
  { epoch := leAt t 4 4, addr := bits w 0 45, lclass := bits w 45 4, vlow := bits w 49 3, egen := bits w 52 12 }

/-- The fall-back of USETOK: a GET through the index, with `TOKEN_STALE` (R99). -/
def Dev.fallBack (home f : Nat) (rd : ReadEnv) (i : Nat) (c : Coach) (w : Fields) (l : Lookup) (d : Dev) : Dev :=
  let ns := c.run.nsReg
  let attach := w.m % 2 == 1
  match l.hit with
  | none => d.notServedKey i w attach l false
  | some h =>
    let a := h.addrs.headD 0
    let fresh := if 2 ≤ w.m then some (d.tokenFor ns a (d.spanAt a) h.version) else none
    let d' := d.serve i home f c w { attach := attach, okStatus := stTokenStale, extra := fresh } h rd.bodies
    if (d'.coach i).run.status = stTokenStale then
      let d' := d'.onRegion home fun x => { x with tokStale := bump x.tokStale }
      if fresh.isSome then d'.countIssued home else d'
    else d'

/-- USETOK on its key. -/
def usetokCore (home f : Nat) : KeyEffect := fun _ rd _ i c w d =>
  let ns := c.run.nsReg
  let key := c.run.keyReg
  let off := c.run.num w.a
  let invalid (d : Dev) : Dev :=
    (d.onRegion home fun x => { x with tokInvalid := bump x.tokInvalid }).fail i stTokenInvalid
  if !inArea c.inbound off 16 then d.fail i stIllegalValue
  else
    let t := slice c.inbound off 16
    let k := tokenFields t
    match d.keys.tokenKey with
    | none => invalid d
    | some tk =>
      if tokenTag tk ns (t.drop 4) ≠ t.take 4 then invalid d
      else
        let current (h : Hit) (d : Dev) : Dev :=
          let d' := d.serve i home f c w { attach := w.m % 2 == 1 } h rd.bodies
          if (d'.coach i).run.status = stOk then d'.onRegion home fun x => { x with tokCurrent := bump x.tokCurrent } else d'
        let l := d.look home ns key true rd.headers
        let isPending := match l.hit with
          | some h => h.pending
          | none => false
        let deleted := match d.unit? home ns key with
          | some (_, u) => u.rec_ == 3
          | none => false
        if isPending then
          match l.hit with
          | some h => if h.addrs.headD 0 = k.addr then current h d else d.fallBack home f rd i c w l
          | none => d
        else if deleted then d.fallBack home f rd i c w l
        else if k.epoch ≠ (d.ns ns.toNat).epoch ∨ k.egen ≠ (d.stripe (stripeOf k.addr)).egen % 4096 ∨ d.isLive k.addr = false
        then d.fallBack home f rd i c w l
        else if regionOfAddr k.addr ≠ home then invalid d
        else match d.readHeader k.addr rd.headers with
          | (.unreadable u, _) => d.notServedKey i w (w.m % 2 == 1) { blocked := some (0, {}, u) } false
          | (.found x, _) =>
            if x.ns ≠ ns ∨ x.key ≠ key ∨ x.version % 8 ≠ k.vlow ∨ 9 < k.lclass then invalid d
            else
              let more := ((List.range x.segCount).drop 1).filterMap fun j =>
                (d.segmentEntry ((home + j) % 8) (d.segFp ns key j) x.version).map (·.addr)
              let e : IndexEntry := { fp := f, addr := k.addr, version := x.version }
              current { entry := e, addrs := k.addr :: more, version := x.version } d

/-- USETOK. -/
def usetokEffect : KeyEffect := keyed usetokCore

/-! ## Updates (R46, R47, R51, R94 to R97, R140) -/

/-- What a write finds in the place of its key: a record, or the first entry that could not be confirmed, which it
replaces (R94, R126). -/
def Lookup.old (l : Lookup) : Option Hit :=
  match l.hit, l.blocked with
  | some h, _ => some h
  | none, some (slot, e, _) => some { slot := some slot, entry := e, addrs := [e.addr], version := e.version }
  | none, none => none

/-- A collision is counted where a write takes a new slot after it passed over another key (R126). -/
def Dev.countCollision (home : Nat) (d : Dev) : Dev := d.onRegion home fun x => { x with collisions := bump x.collisions }

/-- A write has gone through: the event of an entry it could not confirm and replaces (R94), and, where it is not staged, the
collision of a new key. -/
def Dev.noteOld (home : Nat) (ns : W16) (f : Nat) (l : Lookup) (staged : Bool) (d : Dev) : Dev :=
  match l.hit, l.blocked with
  | some _, _ => d
  | none, some (_, e, _) => d.report home 47 0 0x4002 [ns.toNat, f, addr64 e.addr, 0, 0]
  | none, none => d.when (l.collided && !staged) (Dev.countCollision home)

/-- Version of the next write of a key (R119). -/
def Dev.nextVersion (d : Dev) (home : Nat) (ns : W16) (old : Option Hit) (staged : Option Staged) : Nat :=
  let hw := (d.region home).versions.get 0 ns.toNat
  match staged with
  | some x => if x.kind == .tombstone then max hw x.version + 1 else x.version + 1
  | none => match old with
    | some h => h.version + 1
    | none => hw + 1

/-- The copy of R51 is taken once the instruction at the commit point has retired. -/
def Dev.commitPoint (i : Nat) (awaits : List Nat) (ns : List W16) : Dev → Dev :=
  Dev.onCoach i fun c =>
    let r := { c.run with flags := { c.run.flags with committed := true } }
    { c with run := r, saved := some r, awaits := c.awaits ++ awaits,
             wrote := (ns ++ c.wrote).eraseDups }

/-- What an update did: the effect on the device, the addresses of its records, its version. -/
structure Updated where
  addrs : List (Nat × Nat)
  version : Nat
  kind : RecKind
  existed : Bool
  collided : Bool := false

/-- Stage an update in the coach's set (R59, R60). An earlier update of the key in the set is given up. -/
def Dev.stage (i : Nat) (ns : W16) (key : Bytes) (f home : Nat) (u : Updated) (d : Dev) : Dev :=
  let a := (u.addrs.headD (0, 0))
  let x : Staged := { fp := f, ns := ns, key := key, kind := u.kind, addr := a.1, version := u.version, span := a.2,
                      existed := u.existed, collided := u.collided }
  let d := match (d.coach i).stagedFor ns key with
    | some y => d.discardRecord y.addr
    | none => d
  let id := ((d.store.buf.get? a.1).map fun b => b.rec_.setId).getD 0
  let d := d.raiseVersion home ns.toNat u.version
  d.onCoach i fun c => { c with set := c.set.map fun s => { s with
    staged := s.staged ++ [x], setId := if s.staged.isEmpty then id else s.setId } }

/-- Set identifier that a record staged now carries: 0 asks for its own wsn, as the first of the set (R186). -/
def Coach.memberId (c : Coach) : Option Nat := c.set.map fun s => if s.staged.isEmpty then 0 else s.setId

/-- The unit for a committed update, or the wait for one (R130). -/
def Dev.unitFor (d : Dev) (home cls : Nat) (ns : W16) (key : Bytes) : Option Nat :=
  match d.unit? home ns key with
  | some (u, _) => some u
  | none => (d.freeUnit home cls).map (unitBase home + ·)

/-- An update waits for a directory unit; PKD_WAITS counts it once. -/
def Dev.waitUnit (i home : Nat) (d : Dev) : Dev :=
  if (d.coach i).wait = .unit then d
  else (d.onRegion home fun x => { x with pkdWaits := bump x.pkdWaits }).waitFor i .unit

/-- The device pads a stripe that has no room, while a write waits. -/
def Dev.padWaiting (p : Option Nat) (d : Dev) : Dev := match p with
  | some f => d.padStripe f
  | none => d

/-- Ending of an update: version register, flags, token, retirement. -/
def Dev.updated (i home : Nat) (w : Fields) (gd : Nat) (token : Option Bytes) (found pending : Bool) (d : Dev) : Dev :=
  let d := d.onCoach i fun c => { c with wait := .none, run :=
    ((c.run.setReg w.d (BitVec.ofNat 64 gd)).setStatus stOk).looked found pending }
  match token with
  | none => d.onRun i Run.retire
  | some t => (d.countIssued home).appendThen i (.bytes t) (Dev.onRun i Run.retire)

/-- A value to be written, as an update instruction gives it. -/
structure ValueAsk where
  value : Bytes
  /-- Append the placement token. -/
  token : Bool := false
  /-- Version, write time, digest and digest kind of an imported record. -/
  imported : Option (Nat × Nat × Bytes) := none

/-- What a write of a value to the coach's key asks for. -/
def Dev.askFor (home f : Nat) (c : Coach) (l : Lookup) (a : ValueAsk) (d : Dev) : WriteAsk :=
  let ns := c.run.nsReg
  let key := c.run.keyReg
  let old := l.old
  let n := d.ns ns.toNat
  { ns := ns, key := key, home := home, fp := f, value := a.value, old := old,
     version := match a.imported with
       | some (v, _, _) => v
       | none => d.nextVersion home ns old (c.stagedFor ns key),
     writeTime := match a.imported with
       | some (_, t, _) => t
       | none => d.wallNow,
     digest := match a.imported with
       | some (_, _, g) => g
       | none => digestOf n.fixity a.value,
     fixity := n.fixity, imported := a.imported.isSome, member := c.memberId, cls := c.clsNow }

/-- A single-key update that waits holds its key from the start of the instruction to its completion (R130). -/
def Dev.holdKey (i unit f : Nat) (ns : W16) (key : Bytes) (c : Coach) (d : Dev) : Dev :=
  if c.set.isSome then d
  else
    let x := (d.store.dir.get? unit).getD { fp := f, key := key, ns := ns, seven := c.clsNow == 7 }
    d.setUnit unit { x with holder := some i, hold := 1, stamp := c.stamp }

/-- An update of the coach fails: it holds its key no longer, and its instruction ends with the status. -/
def Dev.updateFails (i : Nat) (c : Coach) (st : Byte) (f : Run → Run) (d : Dev) : Dev :=
  (if c.set.isSome then d else d.releaseHolds i).endWith i st f

/-- Write a value to the coach's key: R140, then a staged update or the commit point. An update whose token has no room in the
response ends its coach under R38 with nothing committed: the append belongs to the instruction. DEDUCED (log entry 38). -/
def Dev.putValue (bd : Board) (i home f : Nat) (c : Coach) (w : Fields) (l : Lookup) (a : ValueAsk) (d : Dev) : Dev :=
  let ns := c.run.nsReg
  let key := c.run.keyReg
  let d0 := d
  let ask := d0.askFor home f c l a
  let staged := c.stagedFor ns key
  let old := ask.old
  let version := ask.version
  let found := match staged with
    | some x => x.kind != .tombstone
    | none => old.isSome
  let pending := staged.isSome || (match l.hit with | some h => h.pending | none => false)
  match d.unitFor home c.clsNow ns key with
  | none => match d0.writeCheck ask with
    | some (st, d) => d.updateFails i c st (Run.looked found pending)
    | none => d0.waitUnit i home
  | some unit =>
    match d0.writeRecords bd ask with
    | .fails st d => d.updateFails i c st (Run.looked found pending)
    | .waits p => (d0.holdKey i unit f ns key c).padWaiting p
    | .done addrs d =>
      let d := d.noteOld home ns f l c.set.isSome
      let a0 := addrs.headD (0, 0)
      let token := if a.token then some (d.tokenFor ns a0.1 a0.2 version) else none
      let fieldOk := match token with
        | some t => (appendField c.run.resp (.bytes t)).isSome
        | none => true
      if (c.set.isNone && c.run.flags.committed) || !fieldOk then d0.terminate i stIllegalValue
      else if c.set.isSome then
        (d.stage i ns key f home { addrs := addrs, version := version, kind := .value, existed := old.isSome
                                   collided := l.collided }).updated i home w version token found pending
      else
        ((d.commitValue ask unit addrs).updated i home w version token found pending).commitPoint i (addrs.map Prod.fst) [ns]

/-- Remove the coach's key: a tombstone, staged or committed. `gd` is what the version register receives. -/
def Dev.deleteKey (bd : Board) (i home f : Nat) (c : Coach) (w : Fields) (l : Lookup) (h : Hit) (pending : Bool) (d : Dev) : Dev :=
  let ns := c.run.nsReg
  let key := c.run.keyReg
  let staged := c.stagedFor ns key
  let gd := match staged with
    | some x => x.version
    | none => h.version
  let version := gd + 1
  let d0 := d
  match d0.unitFor home c.clsNow ns key with
  | none => d0.waitUnit i home
  | some unit =>
    match d0.writeTombstone bd ns key home version c.clsNow c.memberId with
    | .fails st d => d.updateFails i c st id
    | .waits p => (d0.holdKey i unit f ns key c).padWaiting p
    | .done addrs d =>
      let d := d.noteOld home ns f l c.set.isSome
      if c.set.isNone && c.run.flags.committed then d0.terminate i stIllegalValue
      else if c.set.isSome then
        (d.stage i ns key f home { addrs := addrs, version := version, kind := .tombstone, existed := true }).updated
          i home w gd none true pending
      else
        ((d.commitDelete ns key home f h unit ((addrs.headD (0, 0)).1) version c.clsNow).updated i home w gd none true pending).commitPoint
          i (addrs.map Prod.fst) [ns]

/-- Check 5 of R89 and the wait of R58: `f` runs where the update may go on. -/
def updating (f : Nat → Nat → KeyEffect) (home fp : Nat) : KeyEffect := fun bd rd answered i c w d =>
  let ns := c.run.nsReg
  let key := c.run.keyReg
  if c.set.isSome && !c.locked ns key then d.fail i stIllegalValue
  else match d.heldByOther i home ns key with
    | some _ => d.waitFor i (.holder ns key)
    | none => f home fp bd rd answered i c w d

/-- PUT on its key; the range is check 4 of R89. -/
def putCore (home f : Nat) : KeyEffect := fun bd rd answered i c w d =>
  let off := c.run.num w.a
  let len := c.run.num w.b
  if !inArea c.inbound off len then d.fail i stIllegalValue
  else updating (fun home f bd rd _ i c w d =>
    d.putValue bd i home f c w (d.look home c.run.nsReg c.run.keyReg true rd.headers)
      { value := slice c.inbound off len, token := w.m == 1 }) home f bd rd answered i c w d

/-- PUT. -/
def putEffect : KeyEffect := keyed putCore

/-- The bytes of an old segment for APPEND; where its sectors cannot be read they are free (log entry 5). -/
def appendBytes (d : Dev) (x : SegRead) : Bytes :=
  if x.st = stMediaUncorrectable ∨ x.st = stUnavailable then
    (List.range ((d.recordAt x.addr).map (·.segLen) |>.getD 0)).map (Config.unreadByte x.addr)
  else x.data

/-- The value an APPEND extends, or `KEY_SLOT_EMPTY`. -/
def Dev.oldValue (d : Dev) (c : Coach) (l : Lookup) (bodies : List ReadBack) : Except Byte Bytes :=
  let addrs := match c.stagedFor c.run.nsReg c.run.keyReg with
    | some x => if x.kind == .tombstone then [] else [x.addr]
    | none => match l.hit, l.blocked with
      | some h, _ => h.addrs
      | none, some (_, e, _) => [e.addr]
      | none, none => []
  let blocked := l.hit.isNone && l.blocked.isSome
  let segs := (d.readSegments addrs 0 64 bodies).map fun x => if blocked then { x with st := stMediaUncorrectable } else x
  if segs.any fun x => x.st == stKeySlotEmpty then .error stKeySlotEmpty
  else .ok ((segs.map (appendBytes d)).flatten)

/-- APPEND on its key. -/
def appendCore (home f : Nat) : KeyEffect := fun bd rd answered i c w d =>
  let off := c.run.num w.a
  let len := c.run.num w.b
  if !inArea c.inbound off len then d.fail i stIllegalValue
  else updating (fun home f bd rd _ i c w d =>
    let l := d.look home c.run.nsReg c.run.keyReg true rd.headers
    match d.oldValue c l rd.bodies with
    | .error st => d.endWith i st (Run.looked l.hit.isSome (match l.hit with | some h => h.pending | none => false))
    | .ok v => d.putValue bd i home f c w l { value := v ++ slice c.inbound off len, token := w.m == 1 })
      home f bd rd answered i c w d

/-- APPEND. -/
def appendEffect : KeyEffect := keyed appendCore

/-- What the coach's key holds for an update: its own staged update, or the committed record. A delete of a key that the set
itself created or deleted is judged by what the set has staged; R59 speaks only of what CAS compares. DEDUCED (log
entry 38). -/
def Dev.present (c : Coach) (old : Option Hit) : Option Hit :=
  match c.stagedFor c.run.nsReg c.run.keyReg with
  | some x => if x.kind == .tombstone then none else some (old.getD { addrs := [x.addr], version := x.version })
  | none => old

/-- DEL on its key: the write state is checked before the lookup (R140). -/
def delCore (home f : Nat) : KeyEffect :=
  updating (fun home f bd rd _ i c w d =>
    match d.writable home with
    | some st => d.fail i st
    | none =>
      let l := d.look home c.run.nsReg c.run.keyReg true rd.headers
      let old := l.old
      let own := (c.stagedFor c.run.nsReg c.run.keyReg).isSome
      let pending := own || (match l.hit with | some h => h.pending | none => false)
      match Dev.present c old with
      | none => d.endWith i stNotFound fun r => (r.setReg w.d 0).looked false own
      | some h => d.deleteKey bd i home f c w l h pending) home f

/-- DEL. -/
def delEffect : KeyEffect := keyed delCore

/-- How a CAS compares (R95): a status where it cannot be made, else whether it holds. -/
def Dev.compares (c : Coach) (w : Fields) (d : Dev) (old : Option Hit) (readable : Bool) : Except Byte Bool :=
  let fixity := (d.ns c.run.nsReg.toNat).fixity
  let stored (kind : Nat) (want : Bytes) : Bool := match old with
    | some h => readable && (match d.recordAt (h.addrs.headD 0) with
      | some x => x.fixity == kind && x.digest == want
      | none => false)
    | none => false
  match w.m % 4 with
  | 0 => .ok ((old.map (·.version)).getD 0 == c.run.num w.a)
  | 1 =>
    if 2 ^ 32 ≤ c.run.num w.a ∨ fixity ≠ 1 then .error stIllegalValue
    else .ok (stored 1 (leBytes 4 (c.run.num w.a)))
  | _ =>
    if fixity ≠ 2 then .error stIllegalValue else .ok (stored 2 (slice c.inbound (c.run.num w.a) 32))

/-- CAS on its key. -/
def casCore (home f : Nat) : KeyEffect := fun bd rd answered i c w d =>
  let delete := w.m / 4 % 2 == 1
  let off := c.run.num w.b
  let len := c.run.num (w.b + 1)
  if (!delete && !inArea c.inbound off len) || (w.m % 4 == 2 && !inArea c.inbound (c.run.num w.a) 32) then
    d.fail i stIllegalValue
  else updating (fun home f bd rd _ i c w d =>
    let l := d.look home c.run.nsReg c.run.keyReg true rd.headers
    let committed := l.old
    let pending := match l.hit with | some h => h.pending | none => false
    let mismatch := d.endWith i stVersionMismatch fun r =>
      (r.setReg w.d (BitVec.ofNat 64 ((committed.map (·.version)).getD 0))).looked committed.isSome pending
    match d.compares c w committed l.hit.isSome with
    | .error st => d.endWith i st (Run.looked committed.isSome pending)
    | .ok false => mismatch
    | .ok true =>
      if !delete then d.putValue bd i home f c w l { value := slice c.inbound off len, token := decide (8 ≤ w.m) }
      else match Dev.present c committed with
        | none => mismatch
        | some h =>
          match d.writable home with
          | some st => d.endWith i st (Run.looked true pending)
          | none => d.deleteKey bd i home f c w l h pending) home f bd rd answered i c w d

/-- CAS. -/
def casEffect : KeyEffect := keyed casCore

/-! ## Atomic sets (R55 to R61) -/

/-- LOCK dissolves the set and fails (R56). -/
def Dev.lockFails (i : Nat) (st : Byte) (d : Dev) : Dev := (d.dissolve i).fail i st

/-- LOCK on its key. A 17th key that is also homed elsewhere: R56 does not rank the two failures, and the number is tested
first. DESIGN CHOICE (log entry 38). -/
def lockCore (home f : Nat) : KeyEffect := fun _ _ _ i c _ d =>
  let ns := c.run.nsReg
  let key := c.run.keyReg
  let locks := (c.set.map (·.locks)).getD []
  let elsewhere := if c.privileged then locks.any fun l => d.homeOf l.1 l.2 != home else home != c.home
  if locks.contains (ns, key) then d.fail i stOk
  else if 16 ≤ locks.length then d.lockFails i stIllegalValue
  else if elsewhere then d.lockFails i stConflict
  else
    let join (u : Nat) (x : DirUnit) (d : Dev) : Dev :=
      let d := d.setUnit u { x with holder := some i, hold := 2, stamp := c.stamp }
      let d := d.onCoach i fun c => { c with set := some { (c.set.getD {}) with locks := locks ++ [(ns, key)] } }
      d.endWith i stOk fun r => { r with flags := { r.flags with setOpen := true } }
    match d.unit? home ns key with
    | some (u, x) =>
      if x.hold ≠ 0 ∧ x.holder ≠ some i then
        if x.hold = 1 ∨ c.stamp < x.stamp then d.waitFor i (.holder ns key)
        else (d.onCluster c.cluster fun k => { k with lockConflicts := bump k.lockConflicts }).lockFails i stConflict
      else join u x d
    | none =>
      match d.freeUnit home c.clsNow with
      | none => d.waitFor i .unit
      | some n => join (unitBase home + n) { fp := f, key := key, ns := ns, seven := c.clsNow == 7 } d

/-- A key homed elsewhere is no sub-request for LOCK: it fails (R56). -/
def lockEffect : KeyEffect := fun bd rd answered i c w d => keyed lockCore bd rd (answered || !c.privileged) i c w d

/-- The region in which a coach's set lies. -/
def Dev.setRegion (d : Dev) (c : Coach) : Nat :=
  if c.privileged then ((c.set.bind (·.locks.head?)).map fun l => d.homeOf l.1 l.2).getD c.home else c.home

/-- The committed record of a key as the descriptor tracks it. -/
def Dev.committedHit (d : Dev) (home : Nat) (ns : W16) (key : Bytes) : Option Hit :=
  let c := d.chainOf home (d.fpOf ns key)
  (c.matches_ (d.fpOf ns key)).findSome? fun p =>
    match d.recordAt p.2.addr with
    | some x =>
      if x.ns = ns ∧ x.key = key then
        let more := ((List.range x.segCount).drop 1).filterMap fun j =>
          (d.segmentEntry ((home + j) % 8) (d.segFp ns key j) p.2.version).map (·.addr)
        some { slot := some p.1, entry := p.2, addrs := p.2.addr :: more, version := p.2.version }
      else none
    | none => none

/-- One staged update becomes current. -/
def Dev.publish (home cls : Nat) (x : Staged) (d : Dev) : Dev :=
  let old := d.committedHit home x.ns x.key
  let d := d.when (x.collided && old.isNone) (Dev.countCollision home)
  let d := d.onStore fun s => { s with buf := s.buf.adjust x.addr fun b => { b with staged := false } }
  match d.unitOf home x.ns x.key with
  | none => d
  | some (u, _) =>
    if x.kind == .tombstone then
      match old with
      | some h => d.commitDelete x.ns x.key home x.fp h u x.addr x.version cls
      | none => d.setUnit u { fp := x.fp, key := x.key, ns := x.ns, rec_ := 3, addrs := [x.addr], version := x.version
                              seven := d.sevenAt u cls }
    else
      d.commitValue { ns := x.ns, key := x.key, home := home, fp := x.fp, value := [], version := x.version, old := old, cls := cls }
        u [(x.addr, x.span)]

/-- COMMIT. -/
def commitCore (bd : Board) (i : Nat) (c : Coach) (set : AtomicSet) (d : Dev) : Dev :=
  let home := d.setRegion c
  let leave (d : Dev) : Dev :=
    (d.releaseHolds i).onCoach i fun c => { c with set := none, run := { c.run with flags := { c.run.flags with setOpen := false } } }
  let ns := ((set.locks.head?).map Prod.fst).getD 0
  if c.run.flags.committed then d.terminate i stIllegalValue
  else match set.members with
    | [] => ((leave d).endWith i stOk id).commitPoint i [] [ns]
    | ms =>
      let f := frontOf home 1 true
      if !d.room f 1 then d.padStripe f
      else if !d.cartRoom bd.tProgUs bd.tProgMaxUs home 1 c.clsNow then d
      else
        let names := ms.map fun x =>
          { wsn := ((d.recordAt x.addr).map (·.wsn)).getD 0, fp := x.fp, version := x.version,
            kind := x.kind : SetMember }
        let (a, d) := d.place f { kind := .setCommit, ns := (ms.head?.map (·.ns)).getD 0, setId := set.setId,
                                  members := names, span := 1 } false
        let d := Dev.each ms (Dev.publish home c.clsNow) d
        ((leave d).endWith i stOk id).commitPoint i (a :: ms.map (·.addr)) (ms.map (·.ns))

/-- COMMIT and ABORT are key instructions on the set (R89). -/
def onSet (f : Board → Nat → Coach → AtomicSet → Dev → Dev) (noSet : Byte) : KeyEffect := fun bd _ answered i c _ d =>
  if !d.nsActive c.run.nsReg then d.fail i stNamespaceUnknown
  else
    let home := d.setRegion c
    match d.regionGate home with
    | some st => d.gateFail i c home st
    | none =>
      if !answered && c.privileged then d.waitFor i (.subRequest home)
      else match c.set with
        | none => d.fail i noSet
        | some s => f bd i c s d

/-- COMMIT. -/
def commitEffect : KeyEffect := onSet commitCore stIllegalValue
/-- ABORT. -/
def abortEffect : KeyEffect := onSet (fun _ i _ _ d => (d.dissolve i).fail i stAborted) stOk

/-! ## Iteration (R100, R142) -/

/-- The end of a walk. -/
def cursorEnd : Nat := 0xFFFFFFFFFF
/-- Start of a region, or the end after region 7. -/
def regionCursor (r : Nat) : Nat := if 8 ≤ r then cursorEnd else r * 2 ^ 37
/-- Start of a main bucket, or of the next region. -/
def Dev.bucketCursor (d : Dev) (r b : Nat) : Nat :=
  if 2 ^ d.geom.k ≤ b then regionCursor (r + 1) else r * 2 ^ 37 + b * 32

/-- What ITER has gathered. -/
structure Walk where
  entries : List Bytes := []
  st : Byte := 0
  left : List ReadBack := []
  next : Nat := 0

/-- A list entry of 256 bytes, and the status its header gives. -/
def Dev.iterEntry (d : Dev) (e : IndexEntry) (left : List ReadBack) : Bytes × Byte × List ReadBack :=
  match d.readHeader e.addr left with
  | (.found r, left) => (padTo 256 (leBytes 1 r.key.length ++ r.key), stOk, left)
  | (.unreadable u, left) => (padTo 256 ([0] ++ leBytes 8 e.fp ++ leBytes 6 e.addr), blockedStatus u, left)

/-- Valid entries of a namespace in a chain from a slot on. -/
def Chain.listed (c : Chain) (ns : W16) (from_ : Nat) : List (Nat × IndexEntry) :=
  (List.range c.all.length).filterMap fun i => match c.all.getD i none with
    | some e => if from_ ≤ i ∧ fpNs e.fp = ns.toNat ∧ e.segment = false then some (i, e) else none
    | none => none

/-- Walk the chains listed, at most `max` entries in all. -/
def Dev.iterChains (d : Dev) (r : Nat) (ns : W16) (max_ : Nat) : List (Nat × Nat × Chain) → Walk → Walk
  | [], w => w
  | (b, from_, c) :: rest, w =>
    let es := c.listed ns from_
    let room := max_ - w.entries.length
    let w := (es.take room).foldl (fun w p =>
      let (bs, st, left) := d.iterEntry p.2 w.left
      { w with entries := w.entries ++ [bs], st := if w.st = stOk then st else w.st, left := left }) w
    if room ≤ es.length then
      let lastSlot := ((es.take room).getLast?.map Prod.fst).getD 31
      let more := (c.all.drop (lastSlot + 1)).any Option.isSome
      { w with next := if more && decide (lastSlot < 31) then r * 2 ^ 37 + b * 32 + lastSlot + 1 else d.bucketCursor r (b + 1) }
    else Dev.iterChains d r ns max_ rest w

/-- The walk of an ITER from a cursor: at most 4,096 main buckets of one region (R100, R142). -/
def Dev.walkFrom (d : Dev) (ns : W16) (cur max_ : Nat) (left : List ReadBack) : Walk :=
  let r := bits cur 37 3
  let b0 := bits cur 5 32
  let stop := min (2 ^ d.geom.k) (b0 + 4096)
  let chains := ((d.region r).chains.filter fun e => decide (b0 ≤ e.1 ∧ e.1 < stop)).map fun e =>
    (e.1, if e.1 = b0 then cur % 32 else 0, e.2)
  d.iterChains r ns max_ chains { left := left, next := d.bucketCursor r stop }

/-- ITER. -/
def iterEffect : KeyEffect := fun _ rd _ i c w d =>
  let ns := c.run.nsReg
  let cur := c.run.num w.a
  let max_ := w.imm % 128
  let r := bits cur 37 3
  let b0 := bits cur 5 32
  let kept (v : Nat) (d : Dev) : Dev := d.onCoach i fun c => { c with cursor := some v }
  if !d.nsActive ns then d.fail i stNamespaceUnknown
  else if cur = cursorEnd ∧ 1 ≤ max_ ∧ max_ ≤ 64 then
    kept cursorEnd (d.endWith i stOk fun x => { x with fetch := [] }.setReg w.d (BitVec.ofNat 64 cursorEnd))
  else if 2 ^ 40 ≤ cur ∨ cur = cursorEnd then d.fail i stIllegalValue
  else match d.regionGate r with
    | some st =>
      if st = stUnavailable ∧ d.serving = true then
        let nxt := regionCursor (r + 1)
        let d := kept nxt (d.onRun i fun x => { x with fetch := [] }.setReg w.d (BitVec.ofNat 64 nxt))
        d.gateFail i c r st
      else d.gateFail i c r st
    | none =>
      if max_ = 0 ∨ 64 < max_ ∨ 2 ^ d.geom.k ≤ b0 then d.fail i stIllegalValue
      else
      let res := d.walkFrom ns cur max_ rd.headers
      kept res.next (d.endWith i res.st fun x =>
        { x with fetch := res.entries.flatten }.setReg w.d (BitVec.ofNat 64 res.next))

/-! ## Migration (R101 to R103, R310, R312) -/

/-- The coach is bound to a stream of a direction, for the namespace register. -/
def Coach.boundFor (c : Coach) (dir : Nat) : Bool :=
  match c.streamHeld with
  | some (_, k, ns) => k == dir && (ns == 0 || ns == c.run.nsReg)
  | none => false

/-- The record before its value (R312). -/
def migrationHeader (r : Record) (version : Nat) : Bytes :=
  [0x4A, 0x4D, 0x52, 0x31] ++ beBytes 1 r.key.length ++ beBytes 1 r.fixity ++ beBytes 2 r.ns.toNat ++ beBytes 8 version ++
    beBytes 8 r.writeTime ++ beBytes 8 r.totalLen ++ padTo 32 r.digest ++ zeros 8 ++ r.key

/-- EXPORT on its key. -/
def exportCore (home f : Nat) : KeyEffect := fun _ rd _ i c w d =>
  let ns := c.run.nsReg
  let l := d.look home ns c.run.keyReg true rd.headers
  match l.hit with
  | none => d.notServedKey i w true l false
  | some h =>
    match d.recordAt (h.addrs.headD 0) with
    | none => d.endWith i stMediaUncorrectable (Run.looked true h.pending)
    | some r =>
      if d.segmentClosed h.addrs 0 64 then d.endWith i stUnavailable (Run.looked true h.pending)
      else if !d.keysHeld h.addrs then d.endWith i stKeySlotEmpty (Run.looked true h.pending)
      else
      let field : Attached :=
        { ns := ns, fp := f, home := home, addrs := h.addrs, totalLen := r.totalLen, offset := 0, length := r.totalLen,
          whole := true, hold := (d.nsFor c ns.toNat).options / 2 % 2 == 1, fixity := r.fixity, digest := r.digest,
          header := migrationHeader r h.version, export_ := true }
      d.appendThen i (.attached field) fun d => d.endWith i stOk fun x =>
        (x.setReg w.d (BitVec.ofNat 64 h.version)).looked true h.pending

/-- EXPORT; its binding is checked before R89 (R101). -/
def exportEffect : KeyEffect := fun bd rd answered i c w d =>
  if !c.boundFor 1 then d.fail i stPrivilege else keyed exportCore bd rd answered i c w d

/-- What is wrong with a migration record, if anything (R103, R312). -/
def migrationFault (r : Bytes) : Option Byte :=
  let klen := beAt r 4 1
  let fix := beAt r 5 1
  let v := beAt r 8 8
  let vlen := beAt r 24 8
  if r.length < 76 ∨ r.take 4 ≠ [0x4A, 0x4D, 0x52, 0x31] ∨ klen = 0 ∨ 2 < fix ∨ v = 0 ∨ 2 ^ 63 ≤ v ∨ 67108864 < vlen ∨
      zeroRange r 64 8 = false ∨ (fix = 0 ∧ zeroRange r 32 32 = false) ∨ (fix = 1 ∧ zeroRange r 36 28 = false) ∨
      r.length ≠ 76 + klen + vlen
  then some stIllegalValue
  else if crc32c (r.take (r.length - 4)) ≠ beNat (r.drop (r.length - 4)) then some stIntegrityFailed
  else
    let value := slice r (72 + klen) vlen
    if digestOf fix value ≠ slice r 32 (digestOf fix value).length then some stIntegrityFailed else none

/-- IMPORT, once its key is loaded and its region is open. -/
def importCore (rec_ : Bytes) (home f : Nat) : KeyEffect := fun bd rd _ i c w d =>
  let klen := beAt rec_ 4 1
  let fix := beAt rec_ 5 1
  let v := beAt rec_ 8 8
  let value := slice rec_ (72 + klen) (beAt rec_ 24 8)
  let l := d.look home c.run.nsReg c.run.keyReg true rd.headers
  let pending := match l.hit with | some h => h.pending | none => false
  let newer := match l.hit with
    | some h => decide (v ≤ h.version)
    | none => false
  if newer then d.endWith i stVersionMismatch fun r =>
      r.looked true pending
  else
    let n := d.ns c.run.nsReg.toNat
    let dig := if n.fixity = fix then slice rec_ 32 (digestOf fix value).length else digestOf n.fixity value
    d.putValue bd i home f c w l { value := value, imported := some (v, beAt rec_ 16 8, dig) }

/-- A migration record that was imported counts in its stream (R314). -/
def Dev.countImport (i : Nat) (c : Coach) (n : Nat) (d : Dev) : Dev :=
  let r := (d.coach i).run
  match c.streamHeld with
  | some (k, _, _) =>
    if r.steps ≠ c.run.steps ∧ r.status = stOk then d.onNet fun t => { t with streams := t.streams.adjust k fun x =>
      { x with records := bump x.records, bytes := satAdd x.bytes n } }
    else d
  | none => d

/-- The key of a migration record that is long enough to hold one. -/
def migrationKey (r : Bytes) : Option Bytes :=
  let klen := beAt r 4 1
  if klen = 0 ∨ r.length < 72 + klen then none else some (slice r 72 klen)

/-- IMPORT (R101, R103): binding, namespace, then the window that holds the record, its key, the key's region (check 3 of R89),
the set (check 5), the record. A record whose digest or CRC fails changes nothing, the key register included. DEDUCED (log
entry 38). -/
def importEffect : KeyEffect := fun bd rd answered i c w d =>
  let off := c.run.num w.a
  let len := c.run.num w.b
  if !c.boundFor 2 then d.fail i stPrivilege
  else if !d.nsActive c.run.nsReg then d.fail i stNamespaceUnknown
  else if !inArea c.inbound off len then d.fail i stIllegalValue
  else
    let rec_ := slice c.inbound off len
    match migrationKey rec_ with
    | none => d.fail i stIllegalValue
    | some key =>
      let loaded := d.onRun i fun r => { r with keyReg := key }
      let c' := { c with run := { c.run with keyReg := key } }
      let home := d.homeOf c.run.nsReg key
      match d.regionGate home with
      | some st => loaded.gateFail i c home st
      | none =>
        if !answered && (c.privileged || home != c.home) then d.waitFor i (.subRequest home)
        else if !d.dirClean home (d.dirKeyOf c.run.nsReg key) then d
        else if c.set.isSome then loaded.fail i stIllegalValue
        else match migrationFault rec_ with
          | some st => d.fail i st
          | none => (updating (importCore rec_) home (d.fpOf c.run.nsReg key) bd rd answered i c' w
              (loaded.stepDir home (if c.privileged then 3 else c.clsNow) c.run.nsReg key)).countImport i c rec_.length

/-! ## The rows -/

/-- Run a key instruction of a context. -/
def runKey (ctx : CtxId) (op : Nat) (rd : ReadEnv) (f : KeyEffect) (s : State) : Answer :=
  runInstr ctx (·.op == op) (accepted (f s.board rd false)) s

/-- GET. -/
def execGet (ctx : CtxId) (rd : ReadEnv) (s : State) : Answer := runKey ctx 0x22 rd getEffect s
/-- GETR. -/
def execGetr (ctx : CtxId) (rd : ReadEnv) (s : State) : Answer := runKey ctx 0x23 rd getrEffect s
/-- HEAD. -/
def execHead (ctx : CtxId) (rd : ReadEnv) (s : State) : Answer := runKey ctx 0x24 rd headEffect s
/-- PUT. -/
def execPut (ctx : CtxId) (rd : ReadEnv) (s : State) : Answer := runKey ctx 0x25 rd putEffect s
/-- APPEND. -/
def execAppend (ctx : CtxId) (rd : ReadEnv) (s : State) : Answer := runKey ctx 0x26 rd appendEffect s
/-- DEL. -/
def execDel (ctx : CtxId) (rd : ReadEnv) (s : State) : Answer := runKey ctx 0x27 rd delEffect s
/-- CAS. -/
def execCas (ctx : CtxId) (rd : ReadEnv) (s : State) : Answer := runKey ctx 0x28 rd casEffect s
/-- LOCK. -/
def execLock (ctx : CtxId) (s : State) : Answer := runKey ctx 0x29 {} lockEffect s
/-- COMMIT. -/
def execCommit (ctx : CtxId) (s : State) : Answer := runKey ctx 0x2A {} commitEffect s
/-- ABORT. -/
def execAbort (ctx : CtxId) (s : State) : Answer := runKey ctx 0x2B {} abortEffect s
/-- TOKEN. -/
def execToken (ctx : CtxId) (rd : ReadEnv) (s : State) : Answer := runKey ctx 0x30 rd tokenEffect s
/-- USETOK. -/
def execUsetok (ctx : CtxId) (rd : ReadEnv) (s : State) : Answer := runKey ctx 0x31 rd usetokEffect s
/-- ITER. -/
def execIter (ctx : CtxId) (rd : ReadEnv) (s : State) : Answer := runKey ctx 0x32 rd iterEffect s
/-- EXPORT. -/
def execExport (ctx : CtxId) (rd : ReadEnv) (s : State) : Answer := runKey ctx 0x33 rd exportEffect s
/-- IMPORT. -/
def execImport (ctx : CtxId) (rd : ReadEnv) (s : State) : Answer := runKey ctx 0x34 rd importEffect s
/-- VERIFY. -/
def execVerify (ctx : CtxId) (rd : ReadEnv) (s : State) : Answer := runKey ctx 0x39 rd verifyEffect s

/-- The key instruction of an opcode. -/
def keyEffectOf (op : Nat) : Option KeyEffect :=
  match op with
  | 0x22 => some getEffect | 0x23 => some getrEffect | 0x24 => some headEffect | 0x25 => some putEffect
  | 0x26 => some appendEffect | 0x27 => some delEffect | 0x28 => some casEffect | 0x29 => some lockEffect
  | 0x2A => some commitEffect | 0x2B => some abortEffect | 0x30 => some tokenEffect | 0x31 => some usetokEffect
  | 0x33 => some exportEffect | 0x34 => some importEffect | 0x39 => some verifyEffect
  | _ => none

/-- A coach that waits as `p` says takes its instruction up again. -/
def resume (ctx : CtxId) (p : Dev → Coach → Bool) (rd : ReadEnv) (answered : Bool) (s : State) : Answer :=
  onDev (fun d => match d.coachIn ctx.val with
    | none => d
    | some (i, c) =>
      if d.pathRuns c.privileged && p d c then
        match keyEffectOf c.current.op with
        | some f => f s.board rd answered i { c with wait := .none } c.current (d.waitFor i .none)
        | none => d
      else d) s

/-- The answer of a sub-request arrives: the instruction completes (R20, R64, R80). -/
def execSubRequestAnswer (ctx : CtxId) (rd : ReadEnv) (s : State) : Answer :=
  resume ctx (fun _ c => match c.wait with | .subRequest _ => true | _ => false) rd true s

/-- LOCK_WAITER_RESUME: the key a coach waited for is held by no other (R57, R58), or an older coach's set has taken it
meanwhile, which decides a waiting LOCK at once (R57). -/
def execLockWaiterResume (ctx : CtxId) (rd : ReadEnv) (s : State) : Answer :=
  resume ctx (fun d c => match c.wait with
    | .holder ns key => (d.coachIn ctx.val).any fun e => match d.unit? (d.homeOf ns key) ns key with
      | none => true
      | some (_, u) => u.hold == 0 || u.holder == some e.1 || (c.current.op == 0x29 && u.hold == 2 && decide (u.stamp ≤ c.stamp))
    | _ => false) rd true s

end Sys2Proof.Machine
end

