-- ==== Sys2Proof/Machine/Network.lean ====
section
/-!
DEFINITION. Machine/Network.lean: the network ports: receive checks, flow control, responder, transmit, links, timestamps
and the PTP clock (chapter 09).
-/
namespace Sys2Proof.Machine

/-! ## MACs, classes, addresses -/

/-- Region of a MAC; 8 for the management MAC. -/
def macRegion (m : Nat) : Nat := if m < 64 then m / 8 else 8
/-- Block of a MAC within its region, or chip block 13 (R12, R13). -/
def macBlock (m : Nat) : Nat := if m < 64 then 31 + m % 8 else 13

/-- An event of a MAC (R283). -/
def Dev.reportMac (m cell code : Nat) (params : List Nat) : Dev → Dev :=
  Dev.report (macRegion m) (macBlock m) cell code params

/-- MAC_CFG.enable. -/
def Mac.enabled (c : Mac) : Bool := c.cfg.getLsbD 0

/-- Class a frame takes from its tag (R264); the management MAC has one class. -/
def Mac.classOf (m : Nat) (c : Mac) (tag : Option VlanTag) : Nat :=
  if 64 ≤ m then 0 else match tag with
    | none => 0
    | some t => bits c.prioMap.toNat (3 * t.pcp.toNat) 3

/-- Size of a partition, its XOFF and its XON level (R264, R284). -/
def partitionSize (m cls : Nat) : Nat × Nat × Nat :=
  if 64 ≤ m then (65536, 49152, 32768) else if cls = 7 then (16384, 12288, 8192) else (34816, 26112, 17408)

/-- MAC_MAX_FRAME.max, values outside acting as the nearer limit (R287). -/
def Mac.maxBytes (c : Mac) : Nat := min 9216 (max 1518 (c.maxFrame.toNat % 16384))

/-- MAC_CFG.vid; 4,095 acts as 0 (R267). -/
def Mac.vid (c : Mac) : BitVec 12 :=
  let v := BitVec.ofNat 12 (bits c.cfg.toNat 4 12)
  if v = 4095 then 0 else v

/-- A MAC address as a register holds it: byte `i` in transmitted order at bits [8i + 7:8i] (R270). -/
def macReg (n : Nat) : BitVec 48 := BitVec.ofNat 48 (leNat (beBytes 6 n))

/-- The fused base address plus a MAC number (R270). -/
def fusedMac (fu : Fuses) (m : Nat) : BitVec 48 := macReg (fu.baseMac.toNat + m)

/-- MAC_UC_FILTERn; entry 0 is the fused address, enabled, until it is written (R270). -/
def Mac.filter (fu : Fuses) (m : Nat) (c : Mac) (n : Nat) : W64 :=
  c.ucFilter.get (if n = 0 then BitVec.ofNat 64 ((fusedMac fu m).toNat + 2 ^ 48) else 0) n

/-- The port's own address: entry 0 of the filter (R270). -/
def Mac.ownMac (fu : Fuses) (m : Nat) (c : Mac) : BitVec 48 := (c.filter fu m 0).setWidth 48

/-- MAC_CFG.an: Clause 73, or on the management MAC Clause 37 in mode 1 (R263, R284). -/
def Mac.negotiates (c : Mac) : Bool := c.cfg.getLsbD 1

/-- The group of all nodes, ff02::1. -/
def allNodes : W128 := BitVec.ofNat 128 (leNat ([0xFF, 0x02] ++ zeros 13 ++ [0x01]))

/-- An IPv4 address as the IPv4-mapped IPv6 address, byte `i` at bits [8i + 7:8i] (R150). -/
def mapped (a : W32) : W128 := BitVec.ofNat 128 (0xFFFF * 2 ^ 80 + a.toNat * 2 ^ 96)

/-- The solicited-node Ethernet address of an IPv6 address. -/
def solicitedMac (a : W128) : BitVec 48 := BitVec.ofNat 48 (0xFF3333 + bits a.toNat 104 24 * 2 ^ 24)

/-- The solicited-node group ff02::1:ffxx:xxxx of an IPv6 address. -/
def solicitedIp (a : W128) : W128 :=
  BitVec.ofNat 128 (0x02FF + 0x01 * 2 ^ 88 + 0xFF * 2 ^ 96 + bits a.toNat 104 24 * 2 ^ 104)

/-- Hash of a group address: bits [11:0] of the CRC-32 of its six bytes (R269). -/
def groupHash (a : BitVec 48) : Nat := crc32 (leBytes 6 a.toNat) % 4096

/-- A destination address is accepted (R269). -/
def Mac.accepts (fu : Fuses) (m : Nat) (c : Mac) (dst : BitVec 48) (isArp : Bool) : Bool :=
  ((List.range 16).any fun n =>
    let e := (c.filter fu m n).toNat
    bit e 48 && decide (e % 2 ^ 48 = dst.toNat)) ||
  (dst == BitVec.allOnes 48 && isArp) ||
  (c.ipv6a != 0 && dst == solicitedMac c.ipv6a) || (c.ipv6b != 0 && dst == solicitedMac c.ipv6b) ||
  (dst != BitVec.allOnes 48 && dst.getLsbD 0 && (c.mcHash.get 0 (groupHash dst / 32)).getLsbD (groupHash dst % 32))

/-- A tag is accepted (R267). -/
def Mac.tagOk (c : Mac) (tag : Option VlanTag) : Bool :=
  match tag with
  | none => true
  | some t => t.vid == 0 || (c.vid != 0 && t.vid == c.vid)

/-- The Ethernet address of an IP multicast group: 01:00:5E and its low 23 bits, or 33:33 and its low 32 (RFC 1112, RFC 2464). -/
def groupMac (v6 : Bool) (a : W128) : BitVec 48 :=
  let b := leBytes 16 a.toNat
  let low (i : Nat) : Byte := b.getD i 0
  BitVec.ofNat 48 (leNat (if v6 then [0x33, 0x33, low 12, low 13, low 14, low 15]
    else [0x01, 0x00, 0x5E, low 13 &&& 0x7F, low 14, low 15]))

/-- An IP destination is one of the port's own or a group whose own Ethernet address, `ether`, passed the filter (check 8 of R265). -/
def Mac.ipOk (c : Mac) (v6 : Bool) (dst : W128) (ether : BitVec 48) : Bool :=
  if v6 then
    (c.ipv6a != 0 && (dst == c.ipv6a || dst == solicitedIp c.ipv6a)) ||
    (c.ipv6b != 0 && (dst == c.ipv6b || dst == solicitedIp c.ipv6b)) ||
    (decide (dst.toNat % 256 = 0xFF) && ether == groupMac true dst)
  else (c.ipv4 != 0 && dst == mapped c.ipv4) ||
    (decide (224 ≤ bits dst.toNat 96 8 ∧ bits dst.toNat 96 8 < 240) && ether == groupMac false dst)

/-- The address of the port's own from which it answers a packet: the one it was sent to, or where that was a group, the first. -/
def Mac.ownAddress (c : Mac) (v6 : Bool) (dst : W128) : W128 :=
  if !v6 then mapped c.ipv4 else if c.ipv6b ≠ 0 ∧ (dst = c.ipv6b ∨ dst = solicitedIp c.ipv6b ∨ c.ipv6a = 0) then c.ipv6b else c.ipv6a

/-! ## Ports and rates (R260, R261) -/

/-- The ports a layout forms: first lane and width (R261). -/
def portsOf (starts : Nat) : List (Nat × Nat) :=
  ((List.range 8).filter fun n => bit starts n).map fun n =>
    (n, ((List.range 8).filter fun k => decide (n < k) && bit starts k).head?.getD 8 - n)

/-- Rate in Gbit/s of a port of `width` lanes at a lane setting; 0 where it is illegal (R260). -/
def portRate (setting width : Nat) : Nat :=
  match setting, width with
  | 0, 1 => 100 | 0, 2 => 200 | 0, 4 => 400 | 0, 8 => 800
  | 1, 1 => 50 | 1, 2 => 100 | 1, 4 => 200 | 1, 8 => 400
  | 2, 1 => 25 | 2, 4 => 100
  | 3, 1 => 10
  | _, _ => 0

/-- A port may carry a link: enabled, with a port, in a legal layout, not in fail-safe. -/
def Dev.portReady (m : Nat) (d : Dev) : Bool :=
  let c := d.mac m
  c.enabled && !c.fenced && !(decide (m < 64) && (c.noPort || (d.region (m / 8)).badLayout))

/-- Width of the port of MAC `m` under the layout in force. -/
def Dev.portWidth (m : Nat) (d : Dev) : Nat :=
  (((portsOf (bits (d.region (m / 8)).layout.toNat 2 8)).find? fun p => p.1 == m % 8).map Prod.snd).getD 0

/-- Rate of the link of MAC `m` in Gbit/s. -/
def Dev.portGbit (m : Nat) (d : Dev) : Nat :=
  if m < 64 then portRate (bits (d.region (m / 8)).layout.toNat 0 2) (d.portWidth m)
  else if (d.mac m).cfg.getLsbD 3 then 1 else 10

/-! ## Flow control sent (R272) -/

/-- Bytes held in a partition. -/
def Mac.heldBytes (c : Mac) (cls : Nat) : Nat := c.held_.get 0 cls

/-- Count one frame in a table of counters. -/
def bumpAt (t : Tab Counter) (k : Nat) : Tab Counter := t.update 0 k bump

/-- A PFC frame for class `cls`. -/
def Dev.sendPfc (m cls time : Nat) (d : Dev) : Dev :=
  (d.onMac m fun c => { c with pfcSent := bumpAt c.pfcSent cls, xoff := setBit c.xoff cls (time != 0) }).emit
    (.pfc m (setBit 0 cls true) time)

/-- An 802.3 pause frame that class `cls` causes; pause time 0 goes once no class causes one. -/
def Dev.sendPause (m cls time : Nat) (d : Dev) : Dev :=
  let d := d.onMac m fun c => { c with xoff := setBit c.xoff cls (time != 0), pauseCause := setBit c.pauseCause cls (time != 0) }
  if time = 0 && (d.mac m).pauseCause != 0 then d else d.emit (.pause m time)

/-- Flow control for class `cls` with pause time `time` (R272). A class that has sent its frame sends the same kind again and releases
it, whatever MAC_PFC_CFG says by then. DEDUCED (log entry 15). -/
def Dev.sendFlow (m cls time : Nat) (d : Dev) : Dev :=
  let c := d.mac m
  if c.xoff.getLsbD cls then (if c.pauseCause.getLsbD cls then d.sendPause m cls time else d.sendPfc m cls time)
  else if c.pfcCfg.getLsbD (8 + cls) then d.sendPfc m cls time
  else if c.pfcCfg.getLsbD 17 && decide (cls < 7) then d.sendPause m cls time
  else d

/-- A partition takes `n` bytes; at XOFF the MAC sends flow control (R272). -/
def Dev.fillPartition (m cls n : Nat) (d : Dev) : Dev :=
  let d := d.onMac m fun c => { c with held_ := c.held_.update 0 cls (· + n) }
  let c := d.mac m
  if (partitionSize m cls).2.1 ≤ c.heldBytes cls && !c.xoff.getLsbD cls then d.sendFlow m cls 0xFFFF else d

/-- A partition gives up `n` bytes. -/
def Dev.drainPartition (m cls n : Nat) : Dev → Dev :=
  Dev.onMac m fun c => { c with held_ := c.held_.update 0 cls (· - n) }

/-! ## Responder (R268) -/

/-- The body of an ARP reply: the sender half is the port's own, the target half the asker's (RFC 826). -/
def arpBody (ownMac : BitVec 48) (own : W32) (mac : BitVec 48) (ip : W32) : Bytes :=
  [0, 1, 8, 0, 6, 4, 0, 2] ++ leBytes 6 ownMac.toNat ++ leBytes 4 own.toNat ++ leBytes 6 mac.toNat ++ leBytes 4 ip.toNat

/-- A neighbour advertisement for `target` with the override flag, solicited where it answers one neighbour (RFC 4861). -/
def advertisement (ownMac : BitVec 48) (target : W128) (solicited : Bool) : Bytes :=
  [136, 0, 0, 0, if solicited then 0x60 else 0x20, 0, 0, 0] ++ leBytes 16 target.toNat ++ [2, 1] ++ leBytes 6 ownMac.toNat

/-- An echo reply: type 0, or 129 in ICMPv6, and what followed the checksum of the request. -/
def echoBody (v6 : Bool) (rest : Bytes) : Bytes := [if v6 then 129 else 0, 0, 0, 0] ++ rest

/-- The RST that answers a segment to a closed port: with its acknowledgement number as sequence number, or acknowledging all of it
(RFC 9293, 3.5.2). -/
def rstSegment (x : TcpSegment) : Bytes :=
  let len := x.length + b2n x.syn + b2n x.fin
  let seq := if x.ackSet then x.ack.toNat else 0
  let ack := if x.ackSet then 0 else (x.seq.toNat + len) % 2 ^ 32
  beBytes 2 x.dstPort.toNat ++ beBytes 2 x.srcPort.toNat ++ beBytes 4 seq ++ beBytes 4 ack ++
    [0x50, if x.ackSet then 0x04 else 0x14, 0, 0, 0, 0, 0, 0]

/-- A reply of the responder goes to MAC queue 0, tagged as its trigger with PCP 0 (R267, R268). -/
def Dev.respond (m : Nat) (tag : Option VlanTag) (f : OutFrame) : Dev → Dev :=
  let f := { f with kind := .responder, tag := tag.map fun t => (t.vid, 0) }
  Dev.onMac m fun c => { c with egress := c.egress.update [] 0 fun q => q ++ [f] }

/-- A frame is discarded and counted in MAC_RX_NOT_SERVED. -/
def Dev.notServed (m : Nat) : Dev → Dev := Dev.onMac m fun c => { c with notServed := bump c.notServed }

/-- An ARP or neighbour reply, within 10,000 a second (R268). -/
def Dev.arpReply (m : Nat) (tag : Option VlanTag) (f : OutFrame) (d : Dev) : Dev :=
  let c := d.mac m
  if c.cfg.getLsbD 16 && decide (c.arpSent < 10000) then
    (d.onMac m fun c => { c with arpSent := c.arpSent + 1 }).respond m tag f
  else d.notServed m

/-- An echo reply or a RST, within 1,000 a second (R268). -/
def Dev.echoReply (enable : Nat) (m : Nat) (tag : Option VlanTag) (f : OutFrame) (d : Dev) : Dev :=
  let c := d.mac m
  if c.cfg.getLsbD enable && decide (c.echoSent < 1000) then
    (d.onMac m fun c => { c with echoSent := c.echoSent + 1 }).respond m tag f
  else d.notServed m

/-! ## Flow control received (R274, R275) -/

/-- ns of a pause time at a port's rate: a quantum is 512 bit times (R273). -/
def pauseNs (gbit time : Nat) : Nat := 512 * time / max 1 gbit

/-- Hold queue `i` (8: the whole port) of a MAC for a pause time of `ns`, counted anew; release it where the time is 0. -/
def Mac.hold (now i time ns : Nat) (c : Mac) : Mac :=
  let isHeld := if i = 8 then c.pauseHeld else c.held.getLsbD i
  let c := if i = 8 then { c with pauseHeld := time != 0 } else { c with held := setBit c.held i (time != 0) }
  if time = 0 then { c with heldTold := setBit c.heldTold i false }
  else
    let c := { c with holdTick := c.holdTick.set i now, holdNs := c.holdNs.set i ns }
    if isHeld then c else { c with heldSince := c.heldSince.set i now, heldTold := setBit c.heldTold i false }

/-- The pause time of queue `i` can have passed at tick `now`: ticks tell the time to within one. -/
def Mac.pausePassed (now i : Nat) (c : Mac) : Bool := decide (c.holdNs.get 0 i < (now - c.holdTick.get 0 i + 1) * 1000000)

/-- A MAC control frame (check 3 of R265, R274, R275). -/
def Dev.macControl (m : Nat) (opcode : W16) (enables : Byte) (times : List W16) (d : Dev) : Dev :=
  let now := d.chip.tick
  let ns (i : Nat) : Nat := pauseNs (d.portGbit m) (times.getD i 0).toNat
  if opcode = 0x0101 && decide (m < 64) then
    Dev.each (List.range 8) (fun c d =>
      if enables.getLsbD c then
        d.onMac m fun x =>
          let x := { x with pfcRcvd := bumpAt x.pfcRcvd c }
          if x.pfcCfg.getLsbD c then x.hold now c (times.getD c 0).toNat (ns c) else x
      else d) d
  else if opcode = 0x0001 then
    d.onMac m fun x =>
      let x := { x with pauseRcvd := bump x.pauseRcvd }
      if x.pfcCfg.getLsbD 16 then x.hold now 8 (times.getD 0 0).toNat (ns 0) else x
  else d.notServed m

/-! ## Classification of a peer (R151, R291) -/

/-- The peer key of R150 as a number. -/
def peerKey (gen mac port : Nat) (src : W128) : Nat :=
  2 ^ 156 + gen * 2 ^ 154 + mac % 64 * 2 ^ 148 + port * 2 ^ 128 + src.toNat

/-- JEN_CFG.announce_port; a value equal to data_port acts as data_port + 1 (R314). -/
def Net.announcePort (n : Net) : Nat :=
  let dp := n.jenCfg.toNat % 65536
  let ap := n.jenCfg.toNat / 65536
  if ap = dp then (dp + 1) % 65536 else ap
/-- JEN_CFG.data_port. -/
def Net.dataPort (n : Net) : Nat := n.jenCfg.toNat % 65536

/-- Add one to a Jenloth counter of region `r` (R314), by its place from JEN_RX_MSGS = 1. -/
def Dev.jenCount (r i : Nat) : Dev → Dev :=
  Dev.onRegion r fun x => { x with jen := x.jen.set i (bump (x.jen.getD i 0)) }

/-- Checks 1 and 2 of R291 on a UDP payload. -/
def jenHeaderOk (n : Net) (m dstPort : Nat) (p : Bytes) : Bool :=
  let gen := leAt p 2 1
  let type := leAt p 3 1
  decide (24 ≤ p.length) && slice p 0 2 == [0x4A, 0x4C] && (gen == 3 || (decide (m < 64) && (gen == 1 || gen == 2))) &&
    ((dstPort == n.dataPort && decide (1 ≤ type ∧ type ≤ 5)) || (dstPort == n.announcePort && type == 8))

/-- A UDP frame to a Jenloth port: checks 1 to 3 of R291, and on the management lane the allow list (R307). -/
def Dev.toParser (m cls : Nat) (e : Frame) (v6 : Bool) (src dst : W128) (srcPort dstPort : W16) (p : Bytes) (d : Dev) : Dev :=
  let r := macRegion m
  let queue (ruleset nsd : W16) (ceiling : Nat) (d : Dev) : Dev :=
    let f : RxFrame := { src := src, v6 := v6, srcPort := srcPort, dstPort := dstPort, vid := e.tag.map (·.vid), cls := cls,
                         ruleset := ruleset, nsDefault := nsd, ceiling := ceiling, payload := p, size := e.length, ether := e.src
                         own := dst }
    (d.onMac m fun c => { c with rx := c.rx ++ [f] }).fillPartition m cls e.length
  if !jenHeaderOk d.net m dstPort.toNat p then d.jenCount r 2
  else if 64 ≤ m then
    if d.fw.allowList.contains src then queue 0 0 7 d else d.jenCount r 2
  else
    let b := r * 4 + 3
    let key := peerKey (leAt p 2 1) m dstPort.toNat src
    let d := (d.countSearch b cls).giveWord b (d.searchWord b key 0 false)
    match (d.bank b).lowest key with
    | some (_, row) =>
      if bit row.assoc 35 then
        queue (BitVec.ofNat 16 (bits row.assoc 0 16)) (BitVec.ofNat 16 (bits row.assoc 16 16)) (bits row.assoc 32 3) d
      else d.onBank b fun b => { b with noMatch := bump b.noMatch }
    | none => d.onBank b fun b => { b with noMatch := bump b.noMatch }

/-! ## Receive (R264, R265) -/

/-- The frame goes to the control buffer rather than to a partition (R264). -/
def frameIsControl (f : Frame) : Bool :=
  match f.body with
  | .macControl _ _ _ => true
  | .arp _ _ _ => true
  | .ip _ _ _ _ _ (.tcp _ _) => true
  | .ip _ _ _ _ _ (.echoRequest _ _) => true
  | .ip _ _ _ _ _ (.neighbourSolicit _ _) => true
  | _ => false

/-- Is the transport checksum accepted (check 9 of R265)? -/
def sumOk (v6 : Bool) (l : Layer4) : Bool :=
  match l with
  | .udp _ _ s _ => s == .right || (s == .zero && !v6)
  | .tcp _ s => s == .right
  | .echoRequest _ s => s == .right
  | .neighbourSolicit _ s => s == .right
  | .otherIcmp s => s == .right
  | .otherProtocol => true

/-- A PTP message goes to management firmware, with its timestamp where MAC_TS_CFG allows one (R278). -/
def Dev.ptpReceive (m : Nat) (event allowed : Bool) (msg : Bytes) (d : Dev) : Dev :=
  let stamp := if event && allowed && (d.mac m).tsCfg.getLsbD 0 then some (d.net.ptp.seconds, d.net.ptp.ns) else none
  d.emit (.toFirmware m msg stamp)

/-- The destination of a frame that has passed every check (last rows of R265). -/
def Dev.deliver (fu : Fuses) (m cls : Nat) (f : Frame) (d : Dev) : Dev :=
  let c := d.mac m
  let ownMac := c.ownMac fu m
  let back (v6 : Bool) (src dst : W128) (proto : OutProto) (payload : Bytes) : OutFrame :=
    { proto := proto, dstMac := f.src, src := c.ownAddress v6 dst, dst := src, payload := payload }
  match f.body with
  | .ptp event msg => d.ptpReceive m event (c.tsCfg.getLsbD 2) msg
  | .arp request sender target =>
    if request && c.ipv4 != 0 && target == c.ipv4 then
      d.arpReply m f.tag { proto := .arp, dstMac := f.src, dst := mapped sender, src := mapped target
                           payload := arpBody ownMac target f.src sender }
    else d.notServed m
  | .ip v6 _ _ src dst l4 =>
    match l4 with
    | .udp sp dp _ p =>
      if dp = 319 || dp = 320 then
        d.ptpReceive m (dp == 319 && decide (leAt p 0 1 % 16 < 4)) (c.tsCfg.getLsbD 3) p
      else d.toParser m cls f v6 src dst sp dp p
    | .tcp x _ => if x.rst then d.notServed m else d.echoReply 18 m f.tag (back v6 src dst .tcp (rstSegment x))
    | .echoRequest rest _ => d.echoReply 17 m f.tag (back v6 src dst .icmp (echoBody v6 rest))
    | .neighbourSolicit target _ =>
      if target != 0 && (target == c.ipv6a || target == c.ipv6b) then
        let dest := if src = 0 then allNodes else src
        d.arpReply m f.tag { proto := .icmp, dstMac := if src = 0 then groupMac true allNodes else f.src, src := target, dst := dest
                             payload := advertisement ownMac target (src != 0) }
      else d.notServed m
    | .otherIcmp _ => d.notServed m
    | .otherProtocol => d.notServed m
  | .macControl _ _ _ => d
  | .other _ => d.notServed m

/-- Checks 4 to 9 of R265. -/
def Dev.receiveChecks (fu : Fuses) (m cls : Nat) (f : Frame) (d : Dev) : Dev :=
  let c := d.mac m
  let filtered := d.onMac m fun c => { c with filtered := bump c.filtered }
  let badSum := d.onMac m fun c => { c with csumErr := bump c.csumErr }
  let isArp := match f.body with | .arp .. => true | _ => false
  if !(c.accepts fu m f.dst isArp) || !(c.tagOk f.tag) then filtered
  else match f.body with
    | .other _ => d.notServed m
    | .ip v6 hdrOk hdrSum _ dst l4 =>
      if !v6 && !hdrSum then badSum
      else if !hdrOk || (v6 && l4 == .otherProtocol) then d.notServed m
      else if !(c.ipOk v6 dst f.dst) then filtered
      else if !(sumOk v6 l4) then badSum
      else d.deliver fu m cls f
    | _ => d.deliver fu m cls f

/-- A received frame (R264, R265; from PWRFAIL# on it is discarded and counted, R248). -/
def Dev.receive (fu : Fuses) (m : Nat) (f : Frame) (d : Dev) : Dev :=
  let c := d.mac m
  let cls := c.classOf m f.tag
  let d := d.onMac m fun c => { c with fecCorr := satAdd c.fecCorr f.fecCorr, fecUncorr := satAdd c.fecUncorr f.fecBad }
  let drop (d : Dev) : Dev :=
    (d.onMac m fun c => { c with rxDrop := bumpAt c.rxDrop cls }).reportCounted (some 2) (macRegion m) (macBlock m)
      (if m < 64 then cls else 0) 0x9004 [m, cls, 1, 0, 0]
  if !d.portReady m then d
  else if d.pfail.flush != .none && decide (m < 64) then drop d
  else if frameIsControl f && decide (2048 < f.length) then d.notServed m
  else if !frameIsControl f && decide ((partitionSize m cls).1 < c.heldBytes cls + f.length) then drop d
  else if !f.fcsOk || f.fecBad != 0 then d.onMac m fun c => { c with fcsErr := bump c.fcsErr }
  else if f.length < 64 || decide (c.maxBytes < f.length) then d.onMac m fun c => { c with lenErr := bump c.lenErr }
  else
    let d := d.onMac m fun c => { c with rxFrames := bump c.rxFrames, rxBytes := satAdd c.rxBytes f.length }
    match f.body with
    | .macControl op en times => d.macControl m op en times
    | _ => d.receiveChecks fu m cls f

/-- The MAC works: outside the fail-safe state, and the management MAC also where management firmware serves it there
(R284, R413). -/
def Dev.macWorks (m : Nat) (d : Dev) : Bool := d.live || (decide (64 ≤ m) && d.readOnly)

/-- The classification search that a frame may ask for meets no fault of the array. -/
def Dev.peerClean (m : Nat) (f : Frame) (d : Dev) : Bool :=
  match f.body with
  | .ip _ _ _ src _ (.udp _ dp _ p) => decide (64 ≤ m) || d.faultMet (macRegion m * 4 + 3) (peerKey (leAt p 2 1) m dp.toNat src) 0 == .none
  | _ => true

/-- FRAME_RECEIVE. A frame whose classification search would meet a fault of the array goes on once ASSOC_SEARCH has repaired it
(log entry 36). -/
def execFrameReceive (mac : MacId) (frame : Frame) (s : State) : Answer :=
  onDev (guarded (fun d => d.macWorks mac.val && d.peerClean mac.val frame) (Dev.receive s.fuses mac.val frame)) s

/-- PFC_REFRESH (R272): the flow-control frame is sent again while the partition stays above XON. -/
def execPfcRefresh (mac : MacId) (cls : ClassId) (s : State) : Answer :=
  whenLive (guarded (fun d => (d.mac mac.val).xoff.getLsbD cls.val &&
      decide ((partitionSize mac.val cls.val).2.2 < (d.mac mac.val).heldBytes cls.val))
    (Dev.sendFlow mac.val cls.val 0xFFFF)) s

/-- PFC_XON_RELEASE (R272): a partition that has fallen to XON sends pause time 0. -/
def execPfcXonRelease (mac : MacId) (cls : ClassId) (s : State) : Answer :=
  whenLive (guarded (fun d => (d.mac mac.val).xoff.getLsbD cls.val &&
      decide ((d.mac mac.val).heldBytes cls.val ≤ (partitionSize mac.val cls.val).2.2))
    (Dev.sendFlow mac.val cls.val 0)) s

/-- Number of a held queue: 8 for the whole port. -/
def queueNumber (q : Option ClassId) : Nat := match q with | some c => c.val | none => 8

/-- PFC_TIMER_EXPIRY (R274, R275): the queue resumes once its pause time has passed. -/
def execPfcTimerExpiry (mac : MacId) (queue : Option ClassId) (s : State) : Answer :=
  whenLive (guarded (fun d => (d.mac mac.val).pausePassed d.chip.tick (queueNumber queue))
    (Dev.onMac mac.val (Mac.hold 0 (queueNumber queue) 0 0))) s

/-- PRIORITY_HELD_100MS (R276). -/
def execPriorityHeld100ms (mac : MacId) (queue : Option ClassId) (s : State) : Answer :=
  let q := queueNumber queue
  whenLive (guarded (fun d =>
      let c := d.mac mac.val
      (if q = 8 then c.pauseHeld else c.held.getLsbD q) && !c.heldTold.getLsbD q &&
        decide (c.heldSince.get 0 q + 100 ≤ d.chip.tick))
    (fun d => (d.onMac mac.val fun c => { c with heldTold := setBit c.heldTold q true }).reportMac mac.val
      (if q = 8 then 0 else q) 0x9005 [mac.val, q, 0, 0, 0])) s

/-! ## Transmit (R266, R278, R279) -/

/-- An address that is not IPv4-mapped. -/
def isV6 (a : W128) : Bool := bits a.toNat 0 96 != 0xFFFF * 2 ^ 80

/-- The sum of the 16-bit big-endian words of a string. -/
def wordSum : Bytes → Nat
  | [] => 0
  | [a] => a.toNat * 256
  | a :: b :: t => a.toNat * 256 + b.toNat + wordSum t

/-- A sum of words with its carries added back in (RFC 1071). -/
def foldCarry (n : Nat) : Nat := if n = 0 then 0 else (n - 1) % 65535 + 1

/-- The Internet checksum of a string whose checksum field is zero. -/
def inetChecksum (b : Bytes) : Nat := 65535 - foldCarry (wordSum b)

/-- Two bytes of a string are replaced by a big-endian word. -/
def putWord (off w : Nat) (b : Bytes) : Bytes := b.take off ++ beBytes 2 w ++ b.drop (off + 2)

/-- The bytes of an address as a packet carries it. -/
def addrBytes (a : W128) : Bytes := if isV6 a then leBytes 16 a.toNat else (leBytes 16 a.toNat).drop 12

/-- IP protocol numbers. -/
def OutFrame.protocol (f : OutFrame) : Nat :=
  match f.proto with
  | .tcp => 6
  | .icmp => if isV6 f.dst then 58 else 1
  | _ => 17

/-- The transport part of a frame, checksum field zero. -/
def OutFrame.segment (f : OutFrame) : Bytes :=
  match f.proto with
  | .udp => beBytes 2 f.srcPort.toNat ++ beBytes 2 f.dstPort.toNat ++ beBytes 2 (8 + f.payload.length) ++ [0, 0] ++ f.payload
  | _ => f.payload

/-- The pseudo-header over which the transport checksum also runs; ICMP over IPv4 has none. -/
def OutFrame.pseudo (f : OutFrame) : Bytes :=
  let n := f.segment.length
  if isV6 f.dst then addrBytes f.src ++ addrBytes f.dst ++ beBytes 4 n ++ [0, 0, 0] ++ beBytes 1 f.protocol
  else if f.proto = .icmp then []
  else addrBytes f.src ++ addrBytes f.dst ++ [0] ++ beBytes 1 f.protocol ++ beBytes 2 n

/-- The transport checksum (R266): a UDP checksum that comes to 0 is sent as 0xFFFF. -/
def OutFrame.checksum (f : OutFrame) : Nat :=
  let c := inetChecksum (f.pseudo ++ f.segment)
  if f.proto = .udp ∧ c = 0 then 65535 else c

/-- Place of the checksum field in a segment. -/
def OutFrame.checksumAt (f : OutFrame) : Nat :=
  match f.proto with
  | .udp => 6
  | .tcp => 16
  | _ => 2

/-- The IPv4 header of a packet of `n` transport bytes: Don't Fragment set, checksum computed (R266). Time to live, type of service and
identification are PRESUMED (log entry 15). -/
def OutFrame.ipv4Header (f : OutFrame) (n : Nat) : Bytes :=
  let h := [0x45, 0] ++ beBytes 2 (20 + n) ++ [0, 0, 0x40, 0, 64] ++ beBytes 1 f.protocol ++ [0, 0] ++ addrBytes f.src ++ addrBytes f.dst
  putWord 10 (inetChecksum h) h

/-- The IPv6 header; a neighbour advertisement has the hop limit 255 that RFC 4861 asks for. PRESUMED (log entry 15). -/
def OutFrame.ipv6Header (f : OutFrame) (n : Nat) : Bytes :=
  [0x60, 0, 0, 0] ++ beBytes 2 n ++ beBytes 1 f.protocol ++ [if f.proto = .icmp ∧ f.payload.head? = some 136 then 255 else 64] ++
    addrBytes f.src ++ addrBytes f.dst

/-- Ethertype and what follows it. -/
def OutFrame.packet (f : OutFrame) : Nat × Bytes :=
  match f.proto with
  | .arp => (0x0806, f.payload)
  | .ptp => (0x88F7, f.payload)
  | _ =>
    let t := putWord f.checksumAt f.checksum f.segment
    if isV6 f.dst then (0x86DD, f.ipv6Header t.length ++ t) else (0x0800, f.ipv4Header t.length ++ t)

/-- A frame from destination address to the end of its padding. -/
def OutFrame.unchecked (f : OutFrame) : Bytes :=
  let tag := match f.tag with
    | some (vid, pcp) => [0x81, 0] ++ beBytes 2 (pcp.toNat * 8192 + vid.toNat)
    | none => []
  let b := leBytes 6 f.dstMac.toNat ++ leBytes 6 f.srcMac.toNat ++ tag ++ beBytes 2 f.packet.1 ++ f.packet.2
  b ++ zeros (60 - b.length)

/-- The bytes of a frame on the line, with its FCS (R266). -/
def OutFrame.bytes (f : OutFrame) : Bytes := f.unchecked ++ leBytes 4 (crc32 f.unchecked)

/-- Bytes of a frame from destination address to FCS. -/
def OutFrame.length (f : OutFrame) : Nat := f.unchecked.length + 4

/-- Count a frame sent. -/
def Dev.countTx (m : Nat) (f : OutFrame) : Dev → Dev :=
  Dev.onMac m fun c => { c with
    txFrames := bump c.txFrames
    txBytes := satAdd c.txBytes f.length
    txResponder := if f.kind == .responder then bump c.txResponder else c.txResponder }

/-- A PTP message with its timestamp written into it: 6 bytes of seconds and 4 of ns at byte 34, the place IEEE 1588-2019 gives the
origin timestamp, and its correction field at byte 8, in ns x 2^16, raised by the part of a ns that the timestamp does not hold.
PRESUMED (log entry 15). -/
def stampMessage (msg : Bytes) (p : Ptp) : Bytes :=
  let correction := (beAt msg 8 8 + (p.fraction * 65536 / 1000000).toNat) % 2 ^ 64
  msg.take 8 ++ beBytes 8 correction ++ slice msg 16 18 ++ beBytes 6 p.seconds ++ beBytes 4 p.ns ++ msg.drop 44

/-- A frame as it comes back in near-end loopback. -/
def OutFrame.looped (f : OutFrame) : Frame :=
  let v6 := isV6 f.dst
  let ip (l : Layer4) : Layer3 := .ip v6 true true f.src f.dst l
  { dst := f.dstMac, src := f.srcMac, tag := f.tag.map fun t => { pcp := t.2, vid := t.1 }, length := f.length, fcsOk := true, fecCorr := 0
    fecBad := 0
    body := match f.proto with
      | .udp => ip (.udp f.srcPort f.dstPort .right f.payload)
      | .tcp => ip (.tcp { rst := true } .right)
      | .icmp => ip (.otherIcmp .right)
      | .arp => .arp false (BitVec.ofNat 32 (f.src.toNat / 2 ^ 96)) (BitVec.ofNat 32 (f.dst.toNat / 2 ^ 96))
      | .ptp => .ptp (decide (leAt f.payload 0 1 % 16 < 4)) f.payload }

/-- A frame leaves with the port's own address as its source (R270); in near-end loopback nothing goes to the line and the port
receives it (MAC_CFG.loopback, R287). -/
def Dev.sendFrame (fu : Fuses) (m : Nat) (f : OutFrame) (d : Dev) : Dev :=
  let f := { f with srcMac := (d.mac m).ownMac fu m }
  let d := d.countTx m f
  if (d.mac m).cfg.getLsbD 2 then d.receive fu m f.looped else d.emit (.frame m f)

/-- A message that management firmware sends (R278, R279). -/
def Dev.firmwareSend (fu : Fuses) (m : Nat) (fw : FirmwareFrame) (d : Dev) : Dev :=
  let c := d.mac m
  let stamped := c.tsCfg.getLsbD 1 && (if fw.l2 then c.tsCfg.getLsbD 2 else c.tsCfg.getLsbD 3)
  let msg := if stamped && fw.oneStep then stampMessage fw.message d.net.ptp else fw.message
  let f : OutFrame :=
    { kind := .firmware, proto := if fw.l2 then .ptp else .udp, dstMac := fw.dstMac, dst := fw.dst
      src := c.ownAddress (isV6 fw.dst) 0, tag := fw.vlan.map fun t => (t.vid, t.pcp), payload := msg, srcPort := 319, dstPort := 319 }
  let d := d.sendFrame fu m f
  if stamped && !fw.oneStep then
    if c.tsQueue.length < 64 then
      d.onMac m fun c => { c with tsQueue := c.tsQueue ++ [⟨d.net.ptp.seconds, d.net.ptp.ns, fw.tag⟩] }
    else
      let d := d.onMac m fun c => { c with lastLostTag := fw.tag, tsLost := bump c.tsLost }
      d.reportMac m 0 0x9003 [m, fw.tag.toNat, (d.mac m).tsLost, 0, 0]
  else d

/-- Queue `cls` of a MAC may start a frame: link up, not held, class 7 first (R252, R274, R275, R281). -/
def Mac.maySend (c : Mac) (cls : Nat) : Bool :=
  c.enabled && c.linkUp && !c.pauseHeld && !c.held.getLsbD cls &&
    (cls == 7 || c.held.getLsbD 7 || (c.egress.get [] 7).isEmpty)

/-- The MAC sends the oldest frame of queue `cls`. -/
def Dev.transmit (fu : Fuses) (m cls : Nat) (d : Dev) : Dev :=
  match (d.mac m).egress.get [] cls with
  | [] => d
  | f :: rest => ((d.onMac m fun c => { c with egress := c.egress.set cls rest }).sendFrame fu m f)

/-- FRAME_TRANSMIT. Emission stops 1 ms after PWRFAIL# (R248). -/
def execFrameTransmit (mac : MacId) (cls : ClassId) (fw : Option FirmwareFrame) (s : State) : Answer :=
  onDev (guarded (fun d => Dev.macWorks mac.val d && (d.mac mac.val).maySend cls.val && (d.pfail.flush == .none || d.pfail.flush == .closing))
    (match fw with
     | some f => Dev.firmwareSend s.fuses mac.val f
     | none => Dev.transmit s.fuses mac.val cls.val)) s

/-- MAC_TS_POP: the oldest timestamp entry goes (R279). -/
def Mac.pop (c : Mac) : Mac := { c with tsQueue := c.tsQueue.drop 1 }

/-! ## Layouts and links (R260 to R263, R283) -/

/-- The FEC choice is legal for the layout (R260, R286). -/
def fecLegal (cfg : Nat) : Bool :=
  let fec := bits cfg 10 2
  bits cfg 0 2 != 2 || (fec != 3 && (fec != 1 || (portsOf (bits cfg 2 8)).all fun p => p.2 == 1))

/-- A NET_GROUP_CFG is legal (R261). -/
def layoutLegal (cfg : Nat) : Bool :=
  let starts := bits cfg 2 8
  bit starts 0 && fecLegal cfg &&
    (portsOf starts).all fun p => portRate (bits cfg 0 2) p.2 != 0 && p.1 % p.2 == 0

/-- NET_GROUP_CFG is read: no MAC of the group was enabled (R262). -/
def Dev.readLayout (r : Nat) (d : Dev) : Dev :=
  let cfg := (d.region r).netCfg
  let ok := layoutLegal cfg.toNat
  let d := d.onRegion r fun x => { x with badLayout := !ok, layout := cfg }
  Dev.each (List.range 8) (fun m => Dev.onMac (r * 8 + m) fun c => { c with noPort := !bit (bits cfg.toNat 2 8) m }) d

/-- Cause codes of 0x9002. -/
def linkDownCode : LinkDownCause → Nat
  | .lossOfSignal => 1 | .blockLock => 2 | .localFault => 3 | .remoteFault => 4
  | .disabled => 5 | .failSafe => 6 | .negotiation => 7

/-- Receivers of a port's lanes lock or lose lock (R286). -/
def Dev.lockLanes (m : Nat) (on : Bool) (d : Dev) : Dev :=
  if 64 ≤ m then d
  else
    let w := d.portWidth m
    let lock (l : BitVec 8) : BitVec 8 := (List.range w).foldl (fun l k => setBit l (m % 8 + k) on) l
    d.onRegion (m / 8) fun x => { x with laneLock := lock x.laneLock }

/-- A link goes down and is counted by cause (R283, R434). -/
def Dev.linkDown (m : Nat) (cause : LinkDownCause) (d : Dev) : Dev :=
  let k := if m < 64 then 8 * m else 512
  let d := d.onMac m fun c => { c with linkUp := false, linkDowns := bump c.linkDowns,
                                       rxLocalFault := cause == .localFault, rxRemoteFault := cause == .remoteFault }
  let d := d.onLife fun l => { l with linkDowns := bumpAt l.linkDowns (k + linkDownCode cause) }
  let d := if cause == .lossOfSignal || cause == .blockLock then d.lockLanes m false else d
  d.reportMac m 0 0x9002 [m, linkDownCode cause, 0, 0, 0]

/-- A write of MAC_CFG (R262, R281). Bit 3 is reserved in data MACs; a MAC with no port is not enabled; the link of a MAC that is
disabled goes down. -/
def Dev.writeMacCfg (m : Nat) (v : W32) (d : Dev) : Dev :=
  let writable : W32 := if m < 64 then 0x7FFF7 else 0x7FFFF
  let was := (d.mac m).enabled
  let r := m / 8
  let groupOff := (List.range 8).all fun k => !(d.mac (r * 8 + k)).enabled
  let d := if v.getLsbD 0 && !was && decide (m < 64) && groupOff then d.readLayout r else d
  let on := v.getLsbD 0 && !(decide (m < 64) && (d.mac m).noPort)
  (d.onMac m fun c => { c with cfg := setBit (v &&& writable) 0 on }).when (!on && (d.mac m).linkUp) (Dev.linkDown m .disabled)

/-- FEC code of 0x9001 (R260, R283). -/
def Dev.portFec (m : Nat) (d : Dev) : Nat :=
  let cfg := (d.region (m / 8)).layout.toNat
  if 64 ≤ m then 0 else match bits cfg 0 2, bits cfg 10 2 with
    | 0, _ => 1 | 1, _ => 1 | 2, 0 => 2 | 2, 1 => 3 | _, _ => 0

/-- LINK_UP (R263, R283). -/
def execLinkUp (mac : MacId) (s : State) : Answer :=
  whenLive (guarded (fun d => d.portReady mac.val && !(d.mac mac.val).linkUp) (fun d =>
    let d := d.onMac mac.val fun c => { c with linkUp := true, rxLocalFault := false, rxRemoteFault := false }
    (d.lockLanes mac.val true).reportMac mac.val 0 0x9001 [mac.val, d.portGbit mac.val, d.portFec mac.val, 0, 0])) s

/-- LINK_DOWN. A port that does not negotiate never fails to (R263). In the fail-safe state the data ports' links end with cause 6 (R282, R283). -/
def execLinkDown (mac : MacId) (cause : LinkDownCause) (s : State) : Answer :=
  onDev (guarded (fun d => if cause = .negotiation then d.live && d.portReady mac.val && (d.mac mac.val).negotiates
      else d.running && (d.mac mac.val).linkUp)
    (Dev.linkDown mac.val cause)) s

/-! ## PTP clock and 1PPS (R277, R280, R288) -/

/-- The clock as one count of ns. -/
def Ptp.total (p : Ptp) : Int := p.seconds * 1000000000 + p.ns

/-- Set the clock to a count of ns, modulo 2^48 seconds. -/
def Ptp.setTotal (p : Ptp) (t : Int) : Ptp :=
  let n := (t.emod (2 ^ 48 * 1000000000)).toNat
  { p with seconds := n / 1000000000, ns := n % 1000000000 }

/-- One ms of the clock, with the rate offset in parts per 10^12 (R277). A whole second that comes in it asks for a pulse where
PPS_OUT is driven (R280). -/
def Ptp.advance (p : Ptp) : Ptp :=
  let f := p.fraction + p.adjRate.toInt
  let q := p.setTotal (p.total + 1000000 + f.ediv 1000000)
  { q with fraction := f.emod 1000000, ppsDue := p.ppsCfg.getLsbD 0 && q.seconds != p.seconds }

/-- PTP_TIME: ns and the low seconds. -/
def ptpWord (seconds ns : Nat) : Nat := ns % 2 ^ 30 + seconds % 2 ^ 32 * 2 ^ 32

/-- A write of PTP_SET takes the upper seconds from PTP_SET_HI (R288). A ns field of 10^9 or more is outside its range and
leaves the ns as they were (R6). -/
def Ptp.write (p : Ptp) (v : W64) : Ptp :=
  let ns := bits v.toNat 0 30
  { p with seconds := bits v.toNat 32 32 + p.setHi.toNat * 2 ^ 32, ns := if ns < 1000000000 then ns else p.ns, ppsDue := false }

/-- A write of PTP_ADJ_STEP (R277). -/
def Ptp.step (p : Ptp) (v : W32) : Ptp := { p.setTotal (p.total + v.toInt) with ppsDue := false }

/-- Change the PTP clock. -/
def Dev.onPtp (f : Ptp → Ptp) : Dev → Dev := Dev.onNet fun n => { n with ptp := f n.ptp }

/-- MAC_ENABLE: a write of MAC_CFG. -/
def execMacEnable (mac : MacId) (by_ : Requester) (value : W32) (s : State) : Answer :=
  whenLive (byManagement by_ (guarded (fun d => value.getLsbD 0 && !(d.mac mac.val).enabled)
    (Dev.writeMacCfg mac.val value))) s

/-- MAC_DISABLE: a write of MAC_CFG with enable clear (R281). -/
def execMacDisable (mac : MacId) (by_ : Requester) (value : W32) (s : State) : Answer :=
  whenLive (byManagement by_ (guarded (fun _ => !value.getLsbD 0) (Dev.writeMacCfg mac.val value))) s

/-- MAC_TS_POP. -/
def execMacTsPop (mac : MacId) (by_ : Requester) (s : State) : Answer :=
  whenLive (byManagement by_ (Dev.onMac mac.val Mac.pop)) s

/-- PTP_TIME_READ latches the upper seconds; reading stays possible in the fail-safe state (R30, R288). -/
def execPtpTimeRead (by_ : Requester) (s : State) : Answer :=
  onDev (guarded Dev.running (byManagement by_ (Dev.onPtp fun p =>
    { p with timeHi := BitVec.ofNat 16 (p.seconds / 2 ^ 32) }))) s

/-- PTP_SET. -/
def execPtpSet (by_ : Requester) (value : W64) (s : State) : Answer :=
  whenLive (byManagement by_ (Dev.onPtp fun p => p.write value)) s

/-- PTP_ADJ_STEP. -/
def execPtpAdjStep (by_ : Requester) (step : W32) (s : State) : Answer :=
  whenLive (byManagement by_ (Dev.onPtp fun p => p.step step)) s

/-- Width of the PPS_OUT pulse in ms (R288). -/
def Ptp.pulseMs (p : Ptp) : Nat := min 999 (max 1 (bits p.ppsCfg.toNat 3 10))

/-- PPS_OUT_PULSE (R280): at a whole second that the last tick has brought. -/
def execPpsOutPulse (s : State) : Answer :=
  whenLive (guarded (fun d => d.net.ptp.ppsCfg.getLsbD 0 && d.net.ptp.ppsDue) (fun d =>
    ((d.onPtp fun p => { p with ppsDue := false }).onPins fun p => { p with ppsPulses := bump p.ppsPulses }).emit
      (.ppsPulse d.net.ptp.pulseMs))) s

/-- PPS_IN_EDGE: the selected edge latches the clock (R280). -/
def execPpsInEdge (falling : Bool) (s : State) : Answer :=
  whenLive (guarded (fun d => d.net.ptp.ppsCfg.getLsbD 1 && d.net.ptp.ppsCfg.getLsbD 2 == falling)
    (Dev.onPtp fun p => { p with capSeconds := p.seconds, capNs := p.ns, ppsIn := p.ppsIn + 1 })) s

end Sys2Proof.Machine
end

