-- ==== Sys2Proof/Machine/Jenloth.lean ====
section
/-!
DEFINITION. Machine/Jenloth.lean: the Jenloth protocol up to the admission of a request: sessions, the sequence window,
reassembly, replay, abort, partner discovery, and the migration streams (chapter 10).
-/
namespace Sys2Proof.Machine

/-! ## Messages (R289) -/

/-- The common header and a body. -/
def jenMessage (gen type session cookie seq total offset : Nat) (body : Bytes) : Bytes :=
  [0x4A, 0x4C] ++ beBytes 1 gen ++ beBytes 1 type ++ beBytes 4 session ++ beBytes 4 cookie ++ beBytes 4 seq ++
    beBytes 4 total ++ beBytes 4 offset ++ body

/-- The outcome word (R39). -/
def outcomeWord (status : Byte) (committed trust stale : Bool) (index steps : Nat) : W32 :=
  BitVec.ofNat 32 (status.toNat + b2n committed * 2 ^ 8 + b2n trust * 2 ^ 9 + b2n stale * 2 ^ 10 + index % 64 * 2 ^ 16 +
    min steps 1023 * 2 ^ 22)

/-- Session number on the wire: those of the management lane are kept from 2^20 (R307). -/
def wireSession (n : Nat) : Nat := n % 2 ^ 20

/-- A session number as received on a MAC. -/
def sessionKey (m field : Nat) : Option Nat :=
  if m < 64 then (if field < 2 ^ 20 then some field else none) else if field < 64 then some (2 ^ 20 + field) else none

/-- A frame joins the egress queue of a MAC and class. -/
def Dev.queueFrame (m cls : Nat) (f : OutFrame) : Dev → Dev :=
  Dev.onMac m fun c => { c with egress := c.egress.update [] cls fun q => q ++ [f] }

/-- Where a received frame came from. -/
def RxFrame.peer (x : RxFrame) (cookie : W32) (maxFrame : Nat) : Peer :=
  { addr := x.src, v6 := x.v6, port := x.srcPort, dport := x.dstPort, vid := x.vid, cookie := cookie, maxFrame := maxFrame
    ether := x.ether, own := x.own }

/-- A message goes to a client in a class, tagged as R267 says. -/
def Dev.sendJen (m cls : Nat) (p : Peer) (message : Bytes) : Dev → Dev :=
  Dev.queueFrame m cls { tag := p.vid.map fun v => (v, BitVec.ofNat 3 cls), dst := p.addr, srcPort := p.dport,
                         dstPort := p.port, payload := message, dstMac := p.ether, src := p.own }

/-- The body of a response without fields (R291, R298). -/
def bareBody (gen : Nat) (status : Byte) : Bytes :=
  if gen = 1 then [status, 1, status, 0]
  else beBytes 4 (outcomeWord status false true false 0 0).toNat ++ [status, 0, 0, 0]

/-- The counter of R314 that counts a refusal. -/
def refusalCounter (st : Byte) : Nat :=
  match st.toNat with
  | 0x20 => 6 | 0x21 => 3 | 0x22 => 7 | 0x23 => 8 | 0x24 => 11 | _ => 10

/-- `DUPLICATE_UNKNOWN`; the codes that follow are those of R292. -/
def stDuplicateUnknown : Byte := 0x20
@[inherit_doc stDuplicateUnknown] def stSessionUnknown : Byte := 0x21
@[inherit_doc stDuplicateUnknown] def stSequenceInvalid : Byte := 0x22
@[inherit_doc stDuplicateUnknown] def stWindowFull : Byte := 0x23
@[inherit_doc stDuplicateUnknown] def stReassemblyTimeout : Byte := 0x24
@[inherit_doc stDuplicateUnknown] def stMalformed : Byte := 0x25

/-- Message fields of a received frame. -/
def RxFrame.gen (x : RxFrame) : Nat := leAt x.payload 2 1
@[inherit_doc RxFrame.gen] def RxFrame.type (x : RxFrame) : Nat := leAt x.payload 3 1
@[inherit_doc RxFrame.gen] def RxFrame.session (x : RxFrame) : Nat := beAt x.payload 4 4
@[inherit_doc RxFrame.gen] def RxFrame.cookie (x : RxFrame) : Nat := beAt x.payload 8 4
@[inherit_doc RxFrame.gen] def RxFrame.seq (x : RxFrame) : W32 := BitVec.ofNat 32 (beAt x.payload 12 4)
@[inherit_doc RxFrame.gen] def RxFrame.total (x : RxFrame) : Nat := beAt x.payload 16 4
@[inherit_doc RxFrame.gen] def RxFrame.offset (x : RxFrame) : Nat := beAt x.payload 20 4
@[inherit_doc RxFrame.gen] def RxFrame.body (x : RxFrame) : Bytes := x.payload.drop 24

/-- A refusal of R291: a RESPONSE, or an ABORT_ACK for an ABORT. -/
def Dev.refuse (m : Nat) (x : RxFrame) (st : Byte) (d : Dev) : Dev :=
  let body := if x.type = 4 then [st, 0, 0, 0] else bareBody x.gen st
  (d.jenCount (macRegion m) (refusalCounter st)).sendJen m x.cls (x.peer 0 9216)
    (jenMessage x.gen (if x.type = 4 then 0x84 else 0x81) x.session x.cookie x.seq.toNat body.length 0 body)

/-- The parser of a MAC runs: the data ports in service (R384), the management lane wherever management firmware serves
it (R383, R413), neither from PWRFAIL# on (R248). -/
def Dev.laneOpen (m : Nat) (d : Dev) : Bool :=
  d.pfail.flush == .none && (if m < 64 then d.serving else d.managementOpen)

/-- The frame at the head of a MAC's parser queue is of type `type`: it leaves its partition and `f` handles it. -/
def jenRow (type m : Nat) (f : RxFrame → Dev → Dev) (d : Dev) : Dev :=
  match (d.mac m).rx with
  | [] => d
  | x :: rest =>
    if d.laneOpen m && x.type == type then
      f x ((d.onMac m fun c => { c with rx := rest }).drainPartition m x.cls x.size)
    else d

/-! ## Sessions (R293 to R295) -/

/-- Change a session where it exists. -/
def Dev.onSession (n : Nat) (f : Session → Session) : Dev → Dev :=
  Dev.onNet fun x => { x with sessions := x.sessions.adjust n f }

/-- Numbers of the sessions of a port group, 8 for the management lane. -/
def groupBase (g : Nat) : Nat := if g < 8 then g * 131072 else 2 ^ 20
/-- Most sessions of a port group. -/
def groupSize (g : Nat) : Nat := if g < 8 then 131072 else 64

/-- Sessions open in a port group (JEN_SESS_USE). -/
def Net.sessionsOf (n : Net) (g : Nat) : Tab Session :=
  n.sessions.filter fun e => decide (groupBase g ≤ e.1 ∧ e.1 < groupBase g + groupSize g)

/-- JEN_SESS_CFG.idle_s in ms. -/
def Net.idleMs (n : Net) : Nat := max 1 (n.sessCfg.toNat % 65536) * 1000
/-- JEN_SESS_CFG.gap_ms. -/
def Net.gapMs (n : Net) : Nat := min 1000 (max 1 (bits n.sessCfg.toNat 16 10))

/-- Client of a session, for messages that answer no frame. -/
def Session.peer (s : Session) : Peer :=
  { addr := s.src, v6 := s.v6, port := s.srcPort, dport := s.dstPort, vid := s.vid, cookie := s.cookie, maxFrame := s.maxFrame
    ether := s.ether, own := s.own }

/-- A stream is closed (R311): cause 1 MIG close, 2 source ended. -/
def Dev.closeStream (n cause : Nat) (d : Dev) : Dev :=
  let x := d.net.streams.get {} n
  (d.onNet fun t => { t with streams := t.streams.adjust n fun x => { x with isOpen := false } }).report 8 3 0 0xA006
    [n, cause, x.records, x.cursor, 0]

/-- The end of a source closes the streams bound to it: kind 1 session, 2 queue (R311). -/
def Dev.closeStreamsOf (kind source : Nat) (d : Dev) : Dev :=
  let mine := d.net.streams.filter fun e => e.2.isOpen && e.2.kind == kind && e.2.source == source
  Dev.each (mine.map Prod.fst) (fun n d => d.closeStream n 2) d

/-- Requests of a session that wait for a missing number are dropped. -/
def Dev.dropHeld (n : Nat) : Dev → Dev :=
  Dev.onEng fun e => { e with coaches := e.coaches.keep fun _ c =>
    !(c.stage == .held && (match c.source with | .session k _ => k == n | _ => false)) }

/-- The session ends, with its replay table and its bindings (R295). -/
def Dev.endSession (n : Nat) (d : Dev) : Dev :=
  ((d.dropHeld n).onNet fun t => { t with sessions := t.sessions.erase n }).closeStreamsOf 1 n

/-- Control messages to a client of a session. -/
def Dev.sendControl (s : Session) (n type : Nat) (seq : Nat) (body : Bytes) (d : Dev) : Dev :=
  d.sendJen s.mac 0 s.peer (jenMessage s.gen type (wireSession n) s.cookie.toNat seq body.length 0 body)

/-- The OPEN_ACK of a session (R294). -/
def Dev.openAck (fu : Fuses) (m : Nat) (x : RxFrame) (n : Nat) (s : Session) (d : Dev) : Dev :=
  let body := beBytes 8 s.nonce.toNat ++ [stOk, 0] ++ beBytes 2 (d.mac m).maxBytes ++ beBytes 2 s.nsDefault.toNat ++
    beBytes 1 s.ceiling ++ [0] ++ beBytes 4 (d.net.idleMs / 1000) ++ beBytes 4 d.net.gapMs ++ beBytes 8 fu.deviceId.toNat ++
    zeros 8
  d.sendJen m x.cls (x.peer 0 9216) (jenMessage s.gen 0x82 (wireSession n) s.cookie.toNat x.seq.toNat 40 0 body)

/-- A failed OPEN_ACK carries session and cookie 0; its other fields are zero but for nonce and status. -/
def Dev.openFails (m : Nat) (x : RxFrame) (st : Byte) (d : Dev) : Dev :=
  let body := padTo 8 (slice x.body 0 8) ++ [st] ++ zeros 31
  d.sendJen m x.cls (x.peer 0 9216) (jenMessage x.gen 0x82 0 0 x.seq.toNat 40 0 body)

/-- An OPEN (R294). -/
def openEffect (fu : Fuses) (m : Nat) (x : RxFrame) (d : Dev) : Dev :=
  let b := x.body
  let g := macRegion m
  let nonce : W64 := BitVec.ofNat 64 (beAt b 0 8)
  let mf := beAt b 12 2
  if x.total ≠ 16 ∨ x.offset ≠ 0 ∨ b.length ≠ 16 ∨ zeroRange b 14 2 = false ∨ mf < 1518 ∨ 9216 < mf then
    (d.jenCount g 10).openFails m x stMalformed
  else
    let same (s : Session) : Bool :=
      s.nonce == nonce && s.src == x.src && s.srcPort == x.srcPort && s.mac == m && s.gen == x.gen && s.closers == 0
    match d.net.sessions.find? fun e => same e.2 with
    | some (n, s) => (d.onSession n fun s => { s with lastTick := d.chip.tick }).openAck fu m x n s
    | none =>
      let mine := d.net.sessionsOf g
      match findNat (groupSize g) fun i => (mine.get? (groupBase g + i)).isNone with
      | none =>
        ((d.jenCount g 4).reportCounted (some 1) g (if g < 8 then 47 else 11) 0 0xA001 [m, 1, 0, 0, 0]).openFails m x stBusy
      | some i =>
        let n := groupBase g + i
        let (r, d) := d.draw
        let seq0 : W32 := BitVec.ofNat 32 (beAt b 8 4)
        let s : Session :=
          { src := x.src, v6 := x.v6, srcPort := x.srcPort, dstPort := x.dstPort, mac := m, gen := x.gen,
            cookie := r.setWidth 32, nonce := nonce, seq0 := seq0, maxFrame := mf, ruleset := x.ruleset,
            nsDefault := x.nsDefault, ceiling := x.ceiling, high := seq0 - 1, nextSeq := seq0, lastTick := d.chip.tick,
            vid := x.vid, ether := x.ether, own := x.own }
        let d := d.onNet fun t => { t with
          sessions := t.sessions.set n s, sessPeak := t.sessPeak.update 0 g (max · (mine.length + 1)) }
        d.openAck fu m x n s

/-- JENLOTH_OPEN. -/
def execJenlothOpen (mac : MacId) (s : State) : Answer := onDev (jenRow 2 mac.val (openEffect s.fuses mac.val)) s

/-- Check 4 of R291: the session of a frame; a closing session serves only a repeated CLOSE (R295). -/
def Dev.sessionFor (m : Nat) (x : RxFrame) (d : Dev) : Option (Nat × Session) :=
  match sessionKey m x.session with
  | none => none
  | some n => match d.net.sessions.get? n with
    | none => none
    | some s =>
      if s.cookie.toNat = x.cookie ∧ s.src = x.src ∧ s.srcPort = x.srcPort ∧ s.mac = m ∧ s.gen = x.gen ∧
          (s.closers = 0 ∨ x.type = 3) then some (n, s) else none

/-- A frame that passes check 4 refreshes its session. -/
def withSession (m : Nat) (f : Nat → Session → RxFrame → Dev → Dev) (x : RxFrame) (d : Dev) : Dev :=
  match d.sessionFor m x with
  | none => d.refuse m x stSessionUnknown
  | some (n, s) =>
    let heard (s : Session) : Session :=
      { s with lastTick := d.chip.tick, vid := x.vid, dstPort := x.dstPort, ether := x.ether, own := x.own }
    f n s x (d.onSession n heard)

/-- Framing of a message that is no REQUEST: an empty body in one frame (R289, R295, R305). -/
def RxFrame.empty (x : RxFrame) : Bool := x.total == 0 && x.offset == 0 && x.body.isEmpty

/-- Requests of a session in flight. -/
def Session.inFlight (s : Session) : Bool := s.window.any fun e => match e.2 with | .inFlight _ => true | _ => false

/-- A closing session with nothing in flight answers its CLOSEs and ends (R295). -/
def Dev.closeIfDone (n : Nat) (d : Dev) : Dev :=
  match d.net.sessions.get? n with
  | none => d
  | some s =>
    if s.closers = 0 ∨ s.inFlight = true then d
    else (Dev.each (List.range s.closers) (fun _ d => d.sendControl s n 0x83 0 [stOk, 0, 0, 0]) d).endSession n

/-- A CLOSE (R295). Requests held or in reassembly are dropped. DEDUCED (log entry 19). -/
def closeEffect (m n : Nat) (_s : Session) (x : RxFrame) (d : Dev) : Dev :=
  if !x.empty then d.refuse m x stMalformed
  else
    let stays (e : Entry) : Bool := match e with
      | .reassembling _ _ _ _ _ _ => false
      | .held _ _ => false
      | _ => true
    ((d.dropHeld n).onSession n fun s => { s with closers := s.closers + 1, window := s.window.keep fun _ e => stays e }).closeIfDone n

/-- JENLOTH_CLOSE. -/
def execJenlothClose (mac : MacId) (s : State) : Answer :=
  onDev (jenRow 3 mac.val (withSession mac.val (closeEffect mac.val))) s

/-- A PING (R295). -/
def pingEffect (m n : Nat) (s : Session) (x : RxFrame) (d : Dev) : Dev :=
  if !x.empty then d.refuse m x stMalformed
  else d.sendJen m x.cls (x.peer 0 9216) (jenMessage s.gen 0x85 (wireSession n) s.cookie.toNat 0 0 0 [])

/-- JENLOTH_PING. -/
def execJenlothPing (mac : MacId) (s : State) : Answer :=
  onDev (jenRow 5 mac.val (withSession mac.val (pingEffect mac.val))) s

/-- SESSION_IDLE_EXPIRY (R295). -/
def execSessionIdleExpiry (session : Nat) (s : State) : Answer :=
  whenLive (fun d => match d.net.sessions.get? session with
    | none => d
    | some x =>
      if x.lastTick + d.net.idleMs ≤ d.chip.tick then (d.jenCount (macRegion x.mac) 14).endSession session else d) s

/-! ## The sequence window (R301, R303) -/

/-- a - b modulo 2^32, signed. -/
def seqDiff (a b : W32) : Int := (a - b).toInt

/-- An entry that is complete or passed. -/
def Entry.ended : Entry → Bool
  | .replayable _ _ _ _ => true
  | .reexecutable => true
  | .passed => true
  | _ => false

/-- The entry of a number. -/
def Session.entry (s : Session) (q : W32) : Option Entry := s.window.get? q.toNat

/-- H becomes `q`: entries that fall below the window leave it, and numbers that never came are passed. None where an entry
that would leave is not complete or passed (`WINDOW_FULL`). Also how many numbers were passed. -/
def Session.slide (s : Session) (q : W32) : Option (Session × Nat) :=
  let low := q - 63
  let leaves (k : Nat) : Bool := decide (seqDiff (BitVec.ofNat 32 k) low < 0)
  if s.window.any fun e => leaves e.1 && !e.2.ended then none
  else
    let n := (seqDiff low s.nextSeq).toNat
    let passed := ((List.range n).filter fun i => (s.entry (s.nextSeq + BitVec.ofNat 32 i)).isNone).length
    some ({ s with high := q, window := s.window.keep fun k _ => !leaves k,
                   nextSeq := if n = 0 then s.nextSeq else low }, passed)

/-- Count numbers passed (JEN_GAPS_PASSED). -/
def Dev.countGaps (r n : Nat) (d : Dev) : Dev := Dev.each (List.range n) (fun _ d => d.jenCount r 12) d

/-- A request is admitted: it takes its place in the submission order (R236, R303, R304). -/
def Dev.submit (coach : Nat) (d : Dev) : Dev :=
  (d.onCoach coach fun c => { c with stage := .arrived, order := d.eng.nextStamp }).onEng fun e =>
    { e with nextStamp := e.nextStamp + 1 }

/-- Change the window entry of a number. -/
def Dev.setEntry (n : Nat) (q : W32) (e : Entry) : Dev → Dev :=
  Dev.onSession n fun s => { s with window := s.window.set q.toNat e }

/-- Held requests are admitted in ascending order up to the first missing number (R303). -/
def Dev.advance (n : Nat) : Nat → Dev → Dev
  | 0, d => d
  | k + 1, d =>
    match d.net.sessions.get? n with
    | none => d
    | some s =>
      if 0 < seqDiff s.nextSeq s.high then d
      else
        let go (d : Dev) : Dev := Dev.advance n k (d.onSession n fun s => { s with nextSeq := s.nextSeq + 1 })
        match s.entry s.nextSeq with
        | none => d
        | some (.reassembling _ _ _ _ _ _) => d
        | some (.held c _) => go ((d.setEntry n s.nextSeq (.inFlight c)).submit c)
        | some _ => go d

/-- Steps that an advance can take: the window, and the numbers a slide may have passed. -/
def advanceFuel : Nat := 200

/-- GAP_PASSED: a missing number is passed once gap_ms have gone by since the first held request arrived (R303). -/
def execGapPassed (session : Nat) (s : State) : Answer :=
  whenLive (fun d => match d.net.sessions.get? session with
    | none => d
    | some x =>
      let due := x.window.any fun e => match e.2 with
        | .held _ since => decide (since + d.net.gapMs ≤ d.chip.tick)
        | _ => false
      if due && (x.entry x.nextSeq).isNone then
        ((d.jenCount (macRegion x.mac) 12).setEntry session x.nextSeq .passed).advance session advanceFuel
      else d) s

/-- REASSEMBLY_TIMEOUT (R303). -/
def execReassemblyTimeout (session : Nat) (seq : W32) (s : State) : Answer :=
  whenLive (fun d => match d.net.sessions.get? session with
    | none => d
    | some x => match x.entry seq with
      | some (.reassembling _ _ last cls _ peer) =>
        if last + d.net.gapMs ≤ d.chip.tick then
          let r := macRegion x.mac
          let d := ((d.jenCount r 11).jenCount r 12).setEntry session seq .passed
          let body := bareBody x.gen stReassemblyTimeout
          let d := d.sendJen x.mac cls peer
            (jenMessage x.gen 0x81 (wireSession session) x.cookie.toNat seq.toNat body.length 0 body)
          d.advance session advanceFuel
        else d
      | _ => d) s

/-! ## Request bodies (R297, R69, R79, R111) -/

/-- What a request body holds. -/
structure Parsed where
  announced : Nat := 0
  extensionOk : Bool := true
  pre : Option Byte := none
  program : List W64 := []
  keys : List Bytes := []
  value : Bytes := []
  /-- Class field; none in v1. -/
  cls : Option Nat := none
  durability : Nat := 0
  operation : Nat := 0

/-- `n` big-endian words from the start of a string. -/
def wordsBE (n : Nat) (b : Bytes) : List W64 := (List.range n).map fun i => BitVec.ofNat 64 (beAt b (8 * i) 8)

/-- A key list of `n` entries, and what follows it. -/
def takeKeys : Nat → Bytes → Option (List Bytes × Bytes)
  | 0, b => some ([], b)
  | n + 1, b =>
    match b with
    | [] => none
    | l :: rest =>
      if rest.length < l.toNat then none
      else (takeKeys n (rest.drop l.toNat)).map fun p => (rest.take l.toNat :: p.1, p.2)

/-- A v3 body. The total length of R296 is its only bound here: a value a little over 64 MiB is taken and meets the limit of PUT.
DEDUCED (log entry 38). -/
def parseV3 (b : Bytes) : Parsed :=
  let cd := leAt b 0 1
  let ic := leAt b 1 1
  let kc := leAt b 2 1
  let vlen := beAt b 4 4
  let n1 := min ic 12
  let n2 := ic - 12
  let base : Parsed := { announced := ic, extensionOk := false, cls := some (cd % 8), durability := bits cd 3 2,
                         pre := if 32 ≤ cd ∨ leAt b 3 1 ≠ 0 then some stIllegalValue else none }
  match takeKeys kc (b.drop (8 + 8 * n1)) with
  | none => { base with pre := if base.pre.isNone && decide (32 < kc) then some stIllegalValue else base.pre }
  | some (keys, rest) =>
    { base with
      extensionOk := decide (8 + 8 * n1 ≤ b.length ∧ rest.length = 8 * n2 + vlen)
      pre := if base.pre.isNone && (decide (32 < kc) || keys.any List.isEmpty) then some stIllegalValue else base.pre
      program := wordsBE n1 (b.drop 8) ++ wordsBE n2 rest
      keys := keys
      value := rest.drop (8 * n2) }

/-- A v2 body. -/
def parseV2 (b : Bytes) : Parsed :=
  let cd := leAt b 0 1
  let op := leAt b 1 1
  let klen := leAt b 4 1
  let a0 := beAt b 8 8
  let a1 := beAt b 16 8
  let badArgs := if op = 5 then decide (2 ^ 40 ≤ a0 ∨ 2 ^ 40 ≤ a1) else if op = 7 then a1 != 0 else a0 != 0 || a1 != 0
  let base : Parsed := { cls := some (cd % 8), durability := bits cd 3 2, operation := op, pre := some stIllegalValue }
  if b.length < 24 + klen ∨ klen = 0 ∨ 32 ≤ cd ∨ zeroRange b 5 3 = false ∨ badArgs = true then base
  else match fixedCoach 2 op (beAt b 2 2) a0 a1 a0 with
    | none => base
    | some p => { base with pre := none, announced := p.length, program := p, keys := [slice b 24 klen], value := b.drop (24 + klen) }

/-- A v1 body. -/
def parseV1 (b : Bytes) : Parsed :=
  let op := leAt b 0 1
  let klen := leAt b 1 1
  let base : Parsed := { operation := op, pre := some stIllegalValue }
  if b.length < 4 ∨ zeroRange b 2 2 = false then base
  else match fixedCoach 1 op 0 0 0 0 with
    | none => base
    | some p =>
      if 64 < klen then { base with pre := some stKeyTooLong }
      else if klen = 0 ∨ b.length < 4 + klen then base
      else { base with pre := none, announced := p.length, program := p, keys := [slice b 4 klen], value := b.drop (4 + klen) }

/-- The coach of a complete REQUEST (R34, R66, R297). -/
def Session.coachOf (s : Session) (n : Nat) (x : RxFrame) (cls : Nat) (body : Bytes) : Coach :=
  let p := if s.gen = 3 then parseV3 body else if s.gen = 2 then parseV2 body else parseV1 body
  let mgmt := decide (64 ≤ s.mac)
  { source := .session n x.seq, path := if mgmt then 2 else 0, generation := s.gen, operation := p.operation, mac := s.mac,
    peer := x.peer s.cookie s.maxFrame, region := macRegion s.mac,
    bound := if mgmt then 3 else min (min cls s.ceiling) (p.cls.getD 7),
    durability := p.durability, announced := p.announced, extensionOk := p.extensionOk, preStatus := p.pre,
    program := p.program, keys := p.keys, inbound := p.value, defaultNs := s.nsDefault, ruleset := s.ruleset, stage := .held }

/-! ## Requests (R296, R301, R302, R304) -/

/-- The byte at an offset of a message in reassembly. -/
def partByte (parts : List (Nat × Bytes)) (i : Nat) : Option Byte :=
  parts.findSome? fun p => if p.1 ≤ i then p.2[i - p.1]? else none

/-- The body once every byte has come. -/
def wholeBody (parts : List (Nat × Bytes)) (total : Nat) : Option Bytes := (List.range total).mapM (partByte parts)

/-- Framing of one frame of a REQUEST (R296). -/
def RxFrame.framingOk (x : RxFrame) : Bool :=
  decide (x.total ≤ 67117576 ∧ x.offset + x.body.length ≤ x.total) && (x.total == 0 || !x.body.isEmpty) &&
    (x.gen != 1 || (x.offset == 0 && x.body.length == x.total))

/-- No byte of the frame differs from a copy received before. -/
def RxFrame.agrees (x : RxFrame) (parts : List (Nat × Bytes)) : Bool :=
  (List.range x.body.length).all fun i => match partByte parts (x.offset + i) with
    | none => true
    | some b => x.body.getD i 0 == b

/-- The replayed response (R302). -/
def Dev.replay (m n : Nat) (s : Session) (x : RxFrame) (outcome : W32) (fields : Bytes) (partly : Bool) (nfields : Nat)
    (d : Dev) : Dev :=
  let body :=
    if s.gen = 1 then [stReplayed, BitVec.ofNat 8 (b2n (outcome.getLsbD 9) + 4 * b2n partly), outcome.setWidth 8, 0] ++ fields
    else beBytes 4 outcome.toNat ++ [stReplayed, BitVec.ofNat 8 (b2n partly)] ++ beBytes 1 nfields ++ [0] ++ fields
  (d.jenCount (macRegion m) 5).sendJen m x.cls (x.peer 0 9216)
    (jenMessage s.gen 0x81 (wireSession n) s.cookie.toNat x.seq.toNat body.length 0 body)

/-- A complete message becomes a coach: admitted at once where its number has been admitted or passed before (R304), else
held for its turn (R303). -/
def Dev.completeRequest (m n : Nat) (x : RxFrame) (cls : Nat) (body : Bytes) (d : Dev) : Dev :=
  match d.net.sessions.get? n with
  | none => d
  | some s =>
    let id := d.eng.nextCoach
    let c := s.coachOf n x cls body
    let d := (d.jenCount (macRegion m) 1).onEng fun e => { e with nextCoach := id + 1, coaches := e.coaches.set id c }
    if seqDiff x.seq s.nextSeq < 0 then (d.setEntry n x.seq (.inFlight id)).submit id
    else (d.setEntry n x.seq (.held id d.chip.tick)).advance n advanceFuel

/-- A frame joins a message (R296). -/
def Dev.joinMessage (m n : Nat) (x : RxFrame) (parts : List (Nat × Bytes)) (cls : Nat) (again totalOk : Bool) (d : Dev) : Dev :=
  if !totalOk || !x.framingOk || !x.agrees parts then
    let d := if again then d.setEntry n x.seq .reexecutable
      else d.onSession n fun s =>
        { s with window := if seqDiff x.seq s.nextSeq < 0 then s.window.set x.seq.toNat .passed else s.window.erase x.seq.toNat }
    d.refuse m x stMalformed
  else
    let parts := parts ++ [(x.offset, x.body)]
    let cls := min cls x.cls
    match wholeBody parts x.total with
    | some body => d.completeRequest m n x cls body
    | none => d.setEntry n x.seq (.reassembling x.total parts d.chip.tick cls again (x.peer 0 9216))

/-- A REQUEST frame against the window (R301). -/
def requestEffect (m n : Nat) (s : Session) (x : RxFrame) (d : Dev) : Dev :=
  let diff := seqDiff x.seq s.high
  let fresh := d.joinMessage m n x [] 7 false true
  if 65 ≤ diff then d.refuse m x stSequenceInvalid
  else if diff ≤ -64 then d.refuse m x stDuplicateUnknown
  else if 1 ≤ diff then
    match s.slide x.seq with
    | none => d.refuse m x stWindowFull
    | some (s', passed) =>
      ((d.countGaps (macRegion m) passed).onSession n fun y =>
        { y with high := s'.high, window := s'.window, nextSeq := s'.nextSeq }).joinMessage m n x [] 7 false true
  else match s.entry x.seq with
    | none => fresh
    | some (.reassembling total parts _ cls again _) => d.joinMessage m n x parts cls again (x.total == total)
    | some (.held _ _) => d.jenCount (macRegion m) 9
    | some (.inFlight _) => d.jenCount (macRegion m) 9
    | some (.replayable o f p k) =>
      if x.offset = 0 then d.replay m n s x o f p k else d.jenCount (macRegion m) 9
    | some .reexecutable => d.joinMessage m n x [] 7 true true
    | some .passed => fresh

/-- JENLOTH_REQUEST. -/
def execJenlothRequest (mac : MacId) (s : State) : Answer :=
  onDev (jenRow 1 mac.val (withSession mac.val (requestEffect mac.val))) s

/-! ## Abort (R54, R305) -/

/-- The entry of a number that an abort ended, and the outcome it replays. -/
def abortedEntry : Entry := .replayable (outcomeWord stAborted false true false 0 0) [] false 0

/-- The answer to an ABORT. -/
def Dev.abortAck (m n : Nat) (s : Session) (x : RxFrame) (st : Byte) (d : Dev) : Dev :=
  d.sendJen m x.cls (x.peer 0 9216) (jenMessage s.gen 0x84 (wireSession n) s.cookie.toNat x.seq.toNat 4 0 [st, 0, 0, 0])

/-- An abort reaches a coach (COACH_ABORTED, R54): the status of its answer. A coach that has ended without a commit and whose
response has not left counts as complete. DEDUCED (log entry 38). -/
def Dev.abortCoach (i : Nat) (d : Dev) : Byte × Dev :=
  let c := d.coach i
  if c.stage == .ended || c.run.flags.committed then (stAlreadyComplete, d)
  else
    let d := match c.ctx with
      | some x => d.countTrap x
      | none => d
    (stOk, (d.endCoach i stAborted true).onCoach i fun c => { c with aborted := true })

/-- A target that was reassembling or held is dropped, with a RESPONSE in its own class, tagged as it was (R267). -/
def Dev.abortDropped (m n : Nat) (s : Session) (x : RxFrame) (cls : Nat) (peer : Peer) (d : Dev) : Dev :=
  let body := bareBody s.gen stAborted
  let d := d.setEntry n x.seq abortedEntry
  let d := d.sendJen m cls peer
    (jenMessage s.gen 0x81 (wireSession n) s.cookie.toNat x.seq.toNat body.length 0 body)
  (d.abortAck m n s x stOk).advance n advanceFuel

/-- An ABORT by where its target stands (R305). A number of the window that never came counts as not yet received. DEDUCED
(log entry 19). -/
def abortMessage (m n : Nat) (s : Session) (x : RxFrame) (d : Dev) : Dev :=
  let diff := seqDiff x.seq s.high
  let d := d.jenCount (macRegion m) 13
  let refuse (st : Byte) : Dev := (d.jenCount (macRegion m) (refusalCounter st)).abortAck m n s x st
  if 65 ≤ diff then refuse stSequenceInvalid
  else if diff ≤ -64 then refuse stDuplicateUnknown
  else if !x.empty then refuse stMalformed
  else if 1 ≤ diff then
    match s.slide x.seq with
    | none => refuse stWindowFull
    | some (s', passed) =>
      let d := (d.countGaps (macRegion m) passed).onSession n fun y =>
        { y with high := s'.high, window := s'.window, nextSeq := s'.nextSeq }
      ((d.setEntry n x.seq abortedEntry).abortAck m n s x stOk).advance n advanceFuel
  else match s.entry x.seq with
    | none => ((d.setEntry n x.seq abortedEntry).abortAck m n s x stOk).advance n advanceFuel
    | some (.reassembling _ _ _ cls _ peer) => d.abortDropped m n s x cls peer
    | some (.held c _) =>
      (d.onEng fun e => { e with coaches := e.coaches.erase c }).abortDropped m n s x (if m < 64 then (d.coach c).bound else 0) (d.coach c).peer
    | some (.inFlight c) =>
      let (st, d) := d.abortCoach c
      d.onCoach c fun c => { c with acks := c.acks ++ [st] }
    | some (.replayable _ _ _ _) => d.abortAck m n s x stAlreadyComplete
    | some .reexecutable => d.abortAck m n s x stAlreadyComplete
    | some .passed => refuse stSequenceInvalid

/-- JENLOTH_ABORT. -/
def execJenlothAbort (mac : MacId) (s : State) : Answer :=
  onDev (jenRow 4 mac.val (withSession mac.val (abortMessage mac.val))) s

/-! ## Partner discovery (R308, R309) -/

/-- The entry that a new partner takes: an empty one, else the expired one announced longest ago. -/
def partnerSlot (t : Tab Partner) : Option Nat :=
  match t.lowestFree 4096 with
  | some e => some e
  | none =>
    let old := t.filter fun e => e.2.state == 2
    let first := (old.map fun e => e.2.lastSeen).min?
    (old.find? fun e => some e.2.lastSeen == first).map Prod.fst

/-- An ANNOUNCE (R309). -/
def announceEffect (fu : Fuses) (m : Nat) (x : RxFrame) (d : Dev) : Dev :=
  let b := x.body
  let id : W64 := BitVec.ofNat 64 (beAt b 0 8)
  if x.total ≠ 64 ∨ x.offset ≠ 0 ∨ b.length ≠ 64 ∨ beAt b 12 4 = 0 then d.jenCount (macRegion m) 2
  else if id = fu.deviceId then d
  else
    let p : Partner :=
      { deviceId := id, state := 1, gens := BitVec.ofNat 8 (leAt b 8 1), mac := m, interval := BitVec.ofNat 32 (beAt b 12 4),
        addr := x.src, lastSeen := d.chip.tick, fmtgen := BitVec.ofNat 16 (beAt b 10 2),
        dataPort := BitVec.ofNat 16 (beAt b 16 2), counter := BitVec.ofNat 64 (beAt b 24 8) }
    let put (e : Nat) (d : Dev) : Dev := d.onNet fun n => { n with partners := n.partners.set e p }
    match d.net.partners.find? fun e => e.2.deviceId == id with
    | some (e, _) => put e d
    | none => match partnerSlot d.net.partners with
      | some e => (put e d).report 8 3 0 0xA002 [id.toNat, m, e, 0, 0]
      | none =>
        (d.onNet fun n => { n with annIgnored := bump n.annIgnored }).reportCounted (some 1) 8 3 0 0xA004 [id.toNat, 1, 0, 0, 0]

/-- JENLOTH_ANNOUNCE. -/
def execJenlothAnnounce (mac : MacId) (s : State) : Answer :=
  onDev (jenRow 8 mac.val (announceEffect s.fuses mac.val)) s

/-- 239.192.96.40 and ff05::1:9640 (R308). -/
def announceV4 : W128 := mapped (BitVec.ofNat 32 (239 + 192 * 2 ^ 8 + 96 * 2 ^ 16 + 40 * 2 ^ 24))
@[inherit_doc announceV4] def announceV6 : W128 :=
  BitVec.ofNat 128 (leNat ([0xFF, 0x05] ++ zeros 11 ++ [0x01, 0x96, 0x40]))

/-- The ANNOUNCE body; its counter counts this announcement (log entry 19). -/
def Dev.announceBody (fu : Fuses) (d : Dev) : Bytes :=
  let openStreams := (d.net.streams.filter fun e => e.2.isOpen).length
  let regions := List.range 8
  beBytes 8 fu.deviceId.toNat ++ [0x0E] ++ beBytes 1 (64 - openStreams) ++ beBytes 2 d.geom.fmtgen ++ beBytes 4 1000 ++
    beBytes 2 d.net.dataPort ++ zeros 6 ++ beBytes 8 d.net.annSent ++ beBytes 8 ((regions.map d.usableSectors).sum * 4096) ++
    beBytes 8 ((regions.map d.liveSectors).sum * 4096) ++ zeros 16

/-- One ANNOUNCE from a MAC to a group. -/
def Dev.announceTo (fu : Fuses) (m : Nat) (src dst : W128) (d : Dev) : Dev :=
  let d := d.onNet fun n => { n with annSent := bump n.annSent }
  let ap : W16 := BitVec.ofNat 16 d.net.announcePort
  let vid := (d.mac m).vid
  d.queueFrame m 0 { tag := if vid = 0 then none else some (vid, 0), dst := dst, src := src, dstMac := groupMac (isV6 dst) dst
                     srcPort := ap, dstPort := ap
                     payload := jenMessage 3 0x08 0 0 (d.net.annSent % 2 ^ 32) 64 0 (d.announceBody fu) }

/-- ANNOUNCE_SEND. -/
def execAnnounceSend (mac : MacId) (s : State) : Answer :=
  onDev (fun d =>
    let m := mac.val
    let c := d.mac m
    if d.serving && decide (m < 64) && c.linkUp && d.net.discMask.getLsbD m then
      (d.when (c.ipv4 != 0) (Dev.announceTo s.fuses m (mapped c.ipv4) announceV4)).when (c.ipv6a != 0)
        (Dev.announceTo s.fuses m c.ipv6a announceV6)
    else d) s

/-- PARTNER_EXPIRY (R309). -/
def execPartnerExpiry (entry : Fin 4096) (s : State) : Answer :=
  whenLive (fun d => match d.net.partners.get? entry.val with
    | none => d
    | some p =>
      if p.state = 1 ∧ p.lastSeen + 3 * p.interval.toNat ≤ d.chip.tick then
        (d.onNet fun n => { n with partners := n.partners.adjust entry.val fun p => { p with state := 2 } }).report 8 3 0 0xA003
          [p.deviceId.toNat, entry.val, 0, 0, 0]
      else d) s

/-! ## Migration streams (R310, R311) -/

/-- Is a stream descriptor legal, its source open and not yet bound? -/
def Dev.streamLegal (d : Dev) (b : Bytes) : Bool :=
  let dir := leAt b 0 1
  let kind := leAt b 1 1
  let source := leAt b 4 4
  let there := if kind = 1 then (d.net.sessions.get? source).isSome && decide (source < 2 ^ 20) else (d.pcie.queues.get? source).isSome
  (dir == 1 || dir == 2) && (kind == 1 || kind == 2) && zeroRange b 2 2 && zeroRange b 10 6 && zeroRange b 32 32 && there &&
    !(d.net.streams.any fun e => e.2.isOpen && e.2.kind == kind && e.2.source == source)

/-- MIG open. -/
def migOpenEffect (i : Nat) (c : Coach) (w : Fields) (d : Dev) : Dev :=
  let n := c.run.num w.a
  let off := c.run.num w.b
  let b := slice c.inbound off 64
  let isOpen (k : Nat) : Bool := (d.net.streams.get {} k).isOpen
  if !inArea c.inbound off 64 || decide (64 < n) || !d.streamLegal b then d.fail i stIllegalValue
  else match if n < 64 then (if isOpen n then none else some n) else findNat 64 fun k => !isOpen k with
    | none => d.fail i stBusy
    | some k =>
      let s : Stream := { isOpen := true, dir := leAt b 0 1, kind := leAt b 1 1, source := leAt b 4 4,
                          ns := BitVec.ofNat 16 (leAt b 8 2), cursor := leAt b 16 8, partner := BitVec.ofNat 64 (leAt b 24 8) }
      ((d.onNet fun t => { t with streams := t.streams.set k s }).report 8 3 0 0xA005
        [k, s.dir, s.kind, s.source, s.ns.toNat]).endWith i stOk (Run.setReg w.d (BitVec.ofNat 64 k))

/-- MIG_OPEN. -/
def execMigOpen (ctx : CtxId) (s : State) : Answer :=
  runInstr ctx (fun w => w.op == 0x47 && w.m == 0) (accepted (acting (noted migOpenEffect))) s

/-- MIG close. -/
def migCloseEffect (i : Nat) (c : Coach) (w : Fields) (d : Dev) : Dev :=
  let n := c.run.num w.a
  if 64 ≤ n ∨ (d.net.streams.get {} n).isOpen = false then d.fail i stIllegalValue
  else (d.closeStream n 1).endWith i stOk (Run.setReg w.d (BitVec.ofNat 64 n))

/-- MIG_CLOSE. -/
def execMigClose (ctx : CtxId) (s : State) : Answer :=
  runInstr ctx (fun w => w.op == 0x47 && w.m == 1) (accepted (acting (noted migCloseEffect))) s

end Sys2Proof.Machine
end

