-- ==== Sys2Proof/Machine/Fences.lean ====
section
/-!
DEFINITION. Machine/Fences.lean: faults from the cell to the chip: contexts and engines that are fenced, blocks, regions,
and the triggers of the fail-safe state (chapters 01, 08, 12, 13, 14).
-/
namespace Sys2Proof.Machine

/-! ## Requests of a fenced context (R15, R51) -/

/-- What a coach loses when its context is fenced: it waits for another context, and goes on from the copy of R51 where
there is one. -/
def Coach.struck (c : Coach) : Coach :=
  { c with stage := .admitted, ctx := none, given := none, wait := .none, streamed := [], run := (c.saved.getD {}), cursor := none,
           faults := if c.saved.isSome then c.faults else c.faults + 1
           clsNow := if c.saved.isSome then c.clsNow else c.cls }

/-- A coach is struck by the fence of its context; how many were re-executed and how many resumed. ENG_CLU_REEXEC and
ENG_CLU_RESUMES count it at the fence, in the cluster of the fenced context; R75 says neither where nor when. DESIGN CHOICE
(log entry 38). -/
def Dev.strike (i : Nat) (d : Dev) : Dev × Nat × Nat :=
  let c := d.coach i
  match c.ctx with
  | none => (d, 0, 0)
  | some x =>
    if c.saved.isSome then
      (((d.dissolve i).onCoach i Coach.struck).onCluster (clusterOf x) fun k => { k with resumes := bump k.resumes }, 0, 1)
    else if 1 ≤ c.faults then (d.endCoach i stAborted true, 0, 0)
    else
      (((d.dissolve i).onCoach i Coach.struck).onCluster (clusterOf x) fun k => { k with reexecs := bump k.reexecs }, 1, 0)

/-- The coaches that run in contexts for which `p` holds are struck. -/
def Dev.strikeAll (p : Nat → Bool) (d : Dev) : Dev × Nat × Nat :=
  let hit := d.eng.coaches.filterMap fun e => match e.2.ctx with
    | some x => if p x then some e.1 else none
    | none => none
  hit.foldl (fun (d, a, b) i => let (d, a', b') := d.strike i; (d, a + a', b + b')) (d, 0, 0)

/-- The context is fenced; a second time in one power cycle, it is retired until the next start (R15). -/
def Dev.fenceContext (x : Nat) : Dev → Dev :=
  Dev.onCluster (clusterOf x) fun k =>
    { k with ctxFenced := setBit k.ctxFenced (ctxBit x) true
             ctxFaulted := setBit k.ctxFaulted (ctxBit x) true
             ctxRetired := if k.ctxFaulted.getLsbD (ctxBit x) then setBit k.ctxRetired (ctxBit x) true else k.ctxRetired }

/-- CONTEXT_FENCE (R15), with event 0x1004. -/
def Dev.contextFault (x : Nat) (d : Dev) : Dev :=
  let k := d.cluster (clusterOf x)
  if k.ctxRetired.getLsbD (ctxBit x) then d
  else
    let d := d.fenceContext x
    let (d, re, rs) := d.strikeAll (· == x)
    let kind := if k.ctxFaulted.getLsbD (ctxBit x) then 2 else 1
    d.report (clusterRegion (clusterOf x)) (clusterBlock (clusterOf x)) (ctxBit x) 0x1004 [x, kind, re, rs, 0]

/-- CONTEXT_NO_RETIRE_TIMEOUT: a context that runs a coach. -/
def execContextNoRetireTimeout (ctx : CtxId) (s : State) : Answer :=
  whenLive (fun d => if (d.coachIn ctx.val).isSome then d.contextFault ctx.val else d) s

/-- UNCORRECTABLE_CONTEXT_STATE. -/
def execUncorrectableContextState (ctx : CtxId) (s : State) : Answer := whenLive (Dev.contextFault ctx.val) s

/-- CONTEXT_RETURN_TO_SERVICE: not while its engine reloads (R15). -/
def execContextReturnToService (ctx : CtxId) (s : State) : Answer :=
  whenLive (Dev.onCluster (clusterOf ctx.val) fun k =>
    let b := ctxBit ctx.val
    if k.ctxRetired.getLsbD b || k.reloading.getLsbD (b / 8) then k
    else { k with ctxFenced := setBit k.ctxFenced b false }) s

/-! ## Blocks and regions (R16, R17) -/

/-- The clusters of a region that are fenced. -/
def Dev.fencedClusters (d : Dev) (r : Nat) : Nat := ((List.range 8).filter fun c => (d.cluster (r * 8 + c)).fenced).length

/-- A coach homed in a region that is fenced: before its commit point it ends with `UNAVAILABLE`; past it, it goes on in its
context, or ends as its copy stands where it waited for one (R17 step 2, R72, R402). -/
def Dev.fenceCoach (i : Nat) (d : Dev) : Dev :=
  let c := d.coach i
  if c.run.flags.committed then
    if c.stage == .admitted then d.endCoach i c.run.status false else d
  else
    let d := match c.ctx with
      | some x => d.countTrap x
      | none => d
    d.endCoach i stUnavailable true

/-- REGION_FENCE (R17): causes 1 DDR5, 2 associative bank, 3 crossbar port, 4 clusters, 5 self-check at start. Its last steps
end with REGION_FENCE_COMPLETE. With no region left, the fail-safe state (R410). A privileged coach runs on a management engine
and has no home region of its own in the sense of R72: the fence does not end it. DEDUCED (log entry 38). -/
def Dev.fenceRegion (r cause : Nat) (d : Dev) : Dev :=
  if d.fencedRegion r || decide (8 ≤ r) then d
  else
    let d := d.onChip fun c => { c with
      fenced := setBit c.fenced r true, fencing := setBit c.fencing r true, fenceCause := c.fenceCause.set r cause }
    let d := d.onRecorder r fun q => { q with fenced := true }
    let d := d.onLife fun l => { l with fences := bump l.fences }
    let d := d.report 8 0 0 0x1002 [r, cause, 0, 0, 0]
    let mine := d.eng.coaches.filterMap fun e =>
      if e.2.home == r && !e.2.privileged && (e.2.stage == .running || e.2.stage == .admitted) then some e.1 else none
    let d := Dev.each mine Dev.fenceCoach d
    let d := Dev.each ((d.net.sessionsOf r).map Prod.fst) Dev.endSession d
    if d.chip.fenced = BitVec.allOnes 8 then d.enterFailsafe fsAllFenced 0 else d

/-- BLOCK_FENCE: its event (R408). -/
def Dev.reportBlock (region block cause : Nat) : Dev → Dev := Dev.report region block 0 0x1003 [block, cause, 0, 0, 0]

/-- A cluster is fenced: its requests go to the others, and with five of eight the region is fenced (R16). -/
def Dev.fenceCluster (k : Nat) (d : Dev) : Dev :=
  if (d.cluster k).fenced then d
  else
    let d := d.onCluster k fun c => { c with fenced := true }
    let d := (d.strikeAll fun x => clusterOf x == k).1
    let back (_ : Nat) (c : Coach) : Coach := if c.given = some k then { c with given := none } else c
    let d := d.onEng fun e => { e with coaches := e.coaches.mapVals back }
    let d := d.reportBlock (clusterRegion k) (clusterBlock k) 0
    if k < 64 ∧ 5 ≤ d.fencedClusters (k / 8) then d.fenceRegion (k / 8) 4 else d

/-! ## Control stores (R400, R401) -/

/-- Cluster of an engine, and its place there. -/
def engineCluster (e : Nat) : Nat := if e < 256 then e / 4 else 64 + (e - 256)
@[inherit_doc engineCluster] def engineBit (e : Nat) : Nat := if e < 256 then e % 4 else 0

/-- A machine check: cause 1 parity, 2 stack fault. The engine and its contexts are fenced, its store reloads from the golden
copy or, at a second parity failure, it is retired; an uncorrectable golden copy fences the cluster. -/
def Dev.machineCheck (e address cause : Nat) (goldenOk : Bool) (d : Dev) : Dev :=
  let k := engineCluster e
  let b := engineBit e
  let c := d.cluster k
  if c.retired.getLsbD b || c.reloading.getLsbD b then d
  else
    let again := cause == 1 && c.failedOnce.getLsbD b
    let d := d.onCluster k fun c => { c with
      parity := if cause = 1 then bump c.parity else c.parity
      stackFaults := if cause = 2 then bump c.stackFaults else c.stackFaults
      failedOnce := if cause = 1 then setBit c.failedOnce b true else c.failedOnce
      retired := if again then setBit c.retired b true else c.retired
      reloading := if again || !goldenOk then c.reloading else setBit c.reloading b true
      goldenFault := c.goldenFault || !goldenOk }
    let d := d.onLife fun l => { l with machineChecks := l.machineChecks.update 0 e bump }
    let d := Dev.each (List.range 8) (fun i d => d.fenceContext (e * 8 + i)) d
    let (d, re, rs) := d.strikeAll fun x => x / 8 == e
    let d := d.report (clusterRegion k) (clusterBlock k) 0 0xD009 [e, address, cause, re, rs]
    if goldenOk then d else d.fenceCluster k

/-- CONTROL_STORE_PARITY_ERROR. -/
def execControlStoreParityError (engine : EngineId) (address : BitVec 13) (goldenOk : Bool) (s : State) : Answer :=
  whenLive (Dev.machineCheck engine.val address.toNat 1 goldenOk) s

/-- STACK_FAULT. -/
def execStackFault (engine : EngineId) (address : BitVec 13) (s : State) : Answer :=
  whenLive (Dev.machineCheck engine.val address.toNat 2 true) s

/-- STORE_RELOAD_COMPLETE: the engine rejoins its cluster, and its contexts that are not retired return (R15, R400). -/
def execStoreReloadComplete (engine : EngineId) (s : State) : Answer :=
  whenLive (Dev.onCluster (engineCluster engine.val) fun k =>
    let b := engineBit engine.val
    if k.reloading.getLsbD b then
      { k with
        reloading := setBit k.reloading b false
        reloads := bump k.reloads
        ctxFenced := (List.range 8).foldl (fun m i => if k.ctxRetired.getLsbD (b * 8 + i) then m else setBit m (b * 8 + i) false) k.ctxFenced }
    else k) s

/-! ## Crossbar, lanes, DRAM (R258, R409) -/

/-- FLIT_CRC_ERROR: the link retries; after three, the port of a region has failed (R17). Between the chip's own ports the
region's side is the one fenced. DEDUCED (log entry 20). -/
def execFlitCrcError (src dst : Fin 10) (retries : Fin 4) (recovered : Bool) (s : State) : Answer :=
  whenLive (fun d =>
    let n := retries.val
    let d := if 1 ≤ n then d.report 8 1 src.val 0x3001 [src.val, dst.val, n, 0, 0] else d
    if recovered || decide (n < 3) then d
    else if src.val < 8 then d.fenceRegion src.val 3 else d.fenceRegion dst.val 3) s

/-- LANE_SELFCHECK_FAILURE: the lane pair is fenced and its job goes to a sibling. -/
def execLaneSelfcheckFailure (lane : LaneId) (s : State) : Answer :=
  whenLive (fun d =>
    let l := lane.val
    if (d.lane l).fenced then d
    else (d.onLane l fun x => { x with fenced := true, selfcheckFails := bump x.selfcheckFails }).reportBlock (l / 8) (39 + l % 8) 0) s

/-- DRAM_SYMBOLS_CORRECTED: counted by device; 0x8001 at the first of a power cycle and at each multiple of 2^20. -/
def execDramSymbolsCorrected (channel : DdrId) (dimm : Fin 2) (rank : Fin 4) (subchannel : Fin 2) (device : Fin 10) (s : State) :
    Answer :=
  whenLive (fun d =>
    let k := channel.val * 160 + ((dimm.val * 4 + rank.val) * 2 + subchannel.val) * 10 + device.val
    let n := d.chip.dramNow.get 0 k + 1
    let d := d.onChip fun c => { c with dramNow := c.dramNow.set k n }
    let d := d.onLife fun l => { l with dram := l.dram.update 0 k bump }
    if n = 1 ∨ n % 2 ^ 20 = 0 then
      d.report (channel.val / 3) (24 + channel.val % 3) 0 0x8001 [channel.val, dimm.val, rank.val, subchannel.val, device.val]
    else d) s

/-- DRAM_UNCORRECTABLE: the channel controller has failed and its region is fenced; `lost` are the records in carts that can
no longer be read. -/
def execDramUncorrectable (channel : DdrId) (dimm : Fin 2) (rank : Fin 4) (subchannel : Fin 2) (lost : BadRecords) (s : State) :
    Answer :=
  whenLive (fun d =>
    let r := channel.val / 3
    let d := d.report r (24 + channel.val % 3) 0 0x8002 [channel.val, dimm.val, rank.val, subchannel.val, 0]
    let gone (a : Nat) (b : BufRec) : BufRec :=
      if regionOfAddr a == r && lost.contains a && b.phase == .buffered then { b with lost := true } else b
    let d := if d.fencedRegion r then d else d.onStore fun x => { x with buf := x.buf.mapVals gone }
    d.fenceRegion r 1) s

/-! ## Triggers of the fail-safe state (R18, R376, R377, R410) -/

/-- The bit of an alarm condition (R376). -/
def alarmBit : AlarmKind → Nat
  | .supply => 0
  | .clockMonitor => 1
  | .temperature => 2
  | .glitch => 3
  | .entropy => 4

/-- Every key that an alarm erases, the lanes' keys and the DRBG states (R354, R377). -/
def KeyState.erase (k : KeyState) : KeyState :=
  { k with store := [], prevStore := [], root := none, privateHeld := false, tokenKey := none, lanesKeyed := false, seeded := 0 }

/-- An alarm trips: keys are erased and the fail-safe state entered (R377). -/
def Dev.alarm (kind : AlarmKind) (lowestMv highestMc : W64) (d : Dev) : Dev :=
  let d := d.onKeys fun k => { k.erase with alarm := setBit k.alarm (alarmBit kind) true
                                            entropyFailed := k.entropyFailed || kind == .entropy }
  let d := d.enterFailsafe fsAlarm (d.keys.alarm.setWidth 8)
  d.report 8 10 0 0xC00A [d.keys.alarm.toNat, lowestMv.toNat, highestMc.toNat, 0, 0]

/-- ALARM_TRIP. -/
def execAlarmTrip (kind : AlarmKind) (lowestMv highestMc : W64) (s : State) : Answer :=
  onDev (guarded Dev.running (Dev.alarm kind lowestMv highestMc)) s

/-- ROOT_PLL_LOCK_LOSS. -/
def execRootPllLockLoss (s : State) : Answer :=
  onDev (guarded Dev.running fun d => (d.onChip fun c => { c with rootLock := false }).enterFailsafe fsRootPll 0) s

/-- CROSSBAR_CORE_FAILURE. -/
def execCrossbarCoreFailure (port : Fin 10) (s : State) : Answer :=
  onDev (guarded Dev.running (Dev.enterFailsafe fsCrossbar (BitVec.ofNat 8 port.val))) s

/-- MGMT_HEARTBEAT_TIMEOUT, or failure of the management processor. -/
def execMgmtHeartbeatTimeout (s : State) : Answer := onDev (guarded Dev.running (Dev.enterFailsafe fsMgmt 0)) s

/-- CHIP_STATE_UNCORRECTABLE. -/
def execChipStateUncorrectable (block : Fin 16) (s : State) : Answer :=
  onDev (guarded Dev.running (Dev.enterFailsafe fsChipState (BitVec.ofNat 8 block.val))) s

end Sys2Proof.Machine
end

