-- ==== Sys2Proof/Machine/Admission.lean ====
section
/-!
DEFINITION. Machine/Admission.lean: a request is admitted to its home region and dispatched to a context (R33 to R35, R41,
R66, R75, R80, R237, R238, R348).
-/
namespace Sys2Proof.Machine

/-! ## Declared keys and the home region (R80, R237) -/

/-- The key of a KEY whose source is present, read by the parser. -/
def Coach.parsedKey (c : Coach) (w : Fields) : Option Bytes :=
  if w.op = 0x20 ∧ w.m < 2 then c.keySource w else none

/-- Declared keys: the key list, and the keys of KEY with m = 1. -/
def Coach.declared (c : Coach) : List Bytes :=
  c.keys ++ c.program.filterMap fun x => let w := fieldsOf x; if w.op = 0x20 ∧ w.m = 1 then c.keySource w else none

/-- The first KEY that fixes the home region: its key, and the namespace in effect there. -/
def Coach.firstKey (c : Coach) : Option (W16 × Bytes) :=
  let rec go (ns : W16) : List W64 → Option (W16 × Bytes)
    | [] => none
    | x :: rest =>
      let w := fieldsOf x
      match c.parsedKey w with
      | some k => some (ns, k)
      | none => go (if w.op = 0x21 ∧ w.m = 0 then BitVec.ofNat 16 (w.imm % 65536) else ns) rest
  go c.defaultNs c.program

/-- The home region of a coach. -/
def Dev.homeRegion (d : Dev) (c : Coach) : Nat :=
  match c.firstKey with
  | some (ns, k) => d.homeOf ns k
  | none => if c.path = 0 then c.region else 0

/-- The namespace in effect at the first KEY of any kind. -/
def Coach.firstKeyNs (c : Coach) : Option W16 :=
  let rec go (ns : W16) : List W64 → Option W16
    | [] => none
    | x :: rest =>
      let w := fieldsOf x
      if w.op = 0x20 then some ns else go (if w.op = 0x21 ∧ w.m = 0 then BitVec.ofNat 16 (w.imm % 65536) else ns) rest
  go c.defaultNs c.program

/-- The class of a request (R66). -/
def Dev.admissionClass (d : Dev) (c : Coach) : Nat :=
  if c.privileged then 3
  else match c.firstKeyNs with
    | some ns => if d.nsActive ns then min c.bound (d.ns ns.toNat).ceiling else c.bound
    | none => c.bound

/-- Coaches in the admission queue of region `r`; privileged ones wait in the management queue. -/
def Dev.queued (d : Dev) (privileged : Bool) (r : Nat) : List Coach :=
  (d.eng.coaches.map Prod.snd).filter fun c =>
    c.stage == .admitted && c.given.isNone && c.privileged == privileged && (privileged || c.home == r)

/-- A queue of `depth` places, `seven` of them class 7's, takes a request of class `cls` (R24). -/
def roomIn (q : List Coach) (depth seven cls : Nat) : Bool :=
  decide (q.length < depth) && (cls == 7 || decide ((q.filter fun c => c.cls != 7).length < depth - seven))

/-- The queue has room (R24). -/
def Dev.queueRoom (d : Dev) (c : Coach) (r cls : Nat) : Bool :=
  if c.privileged then roomIn (d.queued true r) 256 0 cls else roomIn (d.queued false r) 1024 128 cls

/-- The region has 32 class-7 requests outstanding (R68). -/
def Dev.sevenFull (d : Dev) (r : Nat) : Bool :=
  decide (32 ≤ (d.eng.coaches.filter fun e =>
    !e.2.privileged && e.2.home == r && e.2.cls == 7 && (e.2.stage == .admitted || e.2.stage == .running)).length)

/-! ## Device power states (R347, R348) -/

/-- The serving state. -/
def Pcie.serving (p : Pcie) : Nat := if p.psCtl.getLsbD 0 then 1 else 0

/-- A move to power state `ps`; cause 1 host, 2 idle, 3 request. -/
def Dev.movePower (ps cause : Nat) (d : Dev) : Dev :=
  let old := d.pcie.ps
  if old = ps then d
  else
    let wake := if old = 4 ∧ ps < 4 then d.chip.tick + 20 else d.pcie.wakeTick
    (d.onPcie fun p => { p with ps := ps, wakeTick := wake }).report 8 2 0 0xB008 [ps, old, cause, 0, 0]

/-- An admitted request returns the device to the serving state. -/
def Dev.wakeForRequest (d : Dev) : Dev :=
  let d := d.onPcie fun p => { p with lastAdmit := d.chip.tick }
  if 2 ≤ d.pcie.ps then d.movePower d.pcie.serving 3 else d

/-- The migration stream that a source is bound to (R310, R311). -/
def Dev.boundStream (d : Dev) (s : Source) : Option (Nat × Nat × W16) :=
  let find (kind n : Nat) := (d.net.streams.find? fun e => e.2.isOpen && e.2.kind == kind && e.2.source == n).map fun e =>
    (e.1, e.2.dir, e.2.ns)
  match s with
  | .session n _ => if n < 2 ^ 20 then find 1 n else none
  | .queue q _ => find 2 q
  | _ => none

/-- Admission of a coach that has arrived: closed regions answer `UNAVAILABLE` (R17, R201, R248). -/
def admitEffect (i : Nat) (d : Dev) : Dev :=
  match d.coach? i with
  | none => d
  | some c =>
    let open_ := if c.privileged then d.managementOpen else d.serving
    if c.stage != .arrived || !open_ then d
    else
      let home := d.homeRegion c
      let cls := d.admissionClass c
      if (!c.privileged && d.closedRegion home) || d.pfail.flush != .none then (d.onCoach i fun c => { c with home := home, cls := cls, clsNow := cls }).endCoach i stUnavailable true
      else if !d.queueRoom c home cls then d
      else
        let d := d.wakeForRequest
        let b := d.boundStream c.source
        (d.onCoach i fun c => { c with stage := .admitted, home := home, cls := cls, clsNow := cls, stamp := d.eng.nextStamp,
                                       streamHeld := b, classWait := cls == 7 && d.sevenFull home }).onEng fun e => { e with nextStamp := e.nextStamp + 1 }

/-- COACH_ADMISSION. -/
def execCoachAdmission (coach : Nat) (s : State) : Answer := onDev (admitEffect coach) s

/-! ## Order within a source (R236, R238) -/

/-- Two coaches of one source; every privileged coach enters the one management queue. -/
def sameSource (a b : Coach) : Bool :=
  if a.privileged || b.privileged then a.privileged && b.privileged
  else match a.source, b.source with
    | .session n _, .session m _ => n == m
    | .queue n _, .queue m _ => n == m
    | _, _ => false

/-- An entry that the source's ring holds ahead of the coach and whose data is still being read. -/
def Dev.earlierUnread (d : Dev) (c : Coach) : Bool :=
  match c.source with
  | .queue q cid => match d.queue? q with
    | none => false
    | some x =>
      let mine := (x.commands.find? fun e => e.2.sub.cid == cid && (match e.2.stage with | .coached _ => true | .reading => false)).map
        fun e => e.2.order
      x.commands.any fun e => e.2.stage == .reading && mine.any fun o => decide (e.2.order < o)
  | _ => false

/-- An earlier coach of the source that shares a declared key has not ended execution. -/
def Dev.mustWait (d : Dev) (i : Nat) (c : Coach) : Bool :=
  d.earlierUnread c ||
    d.eng.coaches.any fun e =>
      e.1 != i && e.2.stage != .ended && e.2.stage != .held && sameSource e.2 c && decide (e.2.order < c.order) &&
        e.2.declared.any c.declared.contains

/-! ## Contexts (R33) -/

/-- Contexts of a cluster that run a coach. -/
def Dev.busyContexts (d : Dev) (k : Nat) : List Nat :=
  d.eng.coaches.filterMap fun e => match e.2.ctx with
    | some x => if clusterOf x = k then some (ctxBit x) else none
    | none => none

/-- Clusters that a coach may be given to. -/
def Dev.clustersFor (d : Dev) (c : Coach) : List Nat :=
  let all := if c.privileged then (List.range 4).map (64 + ·) else (List.range 8).map (c.home * 8 + ·)
  all.filter fun k => !(d.cluster k).fenced

/-- The first of a list with the least weight. -/
def leastBy (w : Nat → Nat) : List Nat → Option Nat
  | [] => none
  | x :: xs => some (xs.foldl (fun b y => if w y < w b then y else b) x)

/-- The input queue of a cluster. -/
def Dev.clusterQueue (d : Dev) (k : Nat) : List Coach :=
  (d.eng.coaches.map Prod.snd).filter fun c => c.stage == .admitted && c.given == some k

/-- The cluster of the dispatcher rule: fewest requests in its input queue and running contexts, lowest number. -/
def Dev.chooseCluster (d : Dev) (c : Coach) : Option Nat :=
  leastBy (fun k => (d.clusterQueue k).length + (d.busyContexts k).length) (d.clustersFor c)

/-- Free contexts of engine `e` of a cluster for a class: context 0 of a request engine is class 7's. A class-7 request that met
32 others takes no other (R68). -/
def Dev.freeContexts (d : Dev) (k e cls : Nat) (sevenOnly : Bool) : List Nat :=
  let x := d.cluster k
  let busy := d.busyContexts k
  if x.retired.getLsbD e || x.reloading.getLsbD e then []
  else ((List.range 8).map (e * 8 + ·)).filter fun b =>
    !x.ctxFenced.getLsbD b && !busy.contains b && (decide (64 ≤ k) || (if b % 8 = 0 then cls == 7 else !sevenOnly))

/-- The free context of the least-loaded engine. -/
def Dev.chooseContext (d : Dev) (k cls : Nat) (sevenOnly : Bool) : Option Nat :=
  let engines := (List.range (if k < 64 then 4 else 1)).filter fun e => !(d.freeContexts k e cls sevenOnly).isEmpty
  let load (e : Nat) : Nat := ((d.busyContexts k).filter fun b => b / 8 == e).length
  match leastBy load engines with
  | none => none
  | some e => (d.freeContexts k e cls sevenOnly).head?.map fun b => if k < 64 then k * 32 + b else 2048 + (k - 64) * 8 + b

/-! ## Dispatch (R34, R41, R75) -/

/-- Why a coach is rejected, and at which instruction. A failure that the transport or the parser met (R79, R297) is answered
before check 1 of R41, which does not rank them. DEDUCED (log entry 38). -/
def Coach.rejection (c : Coach) : Option (Byte × Nat) :=
  match c.preStatus with
  | some st => some (st, 0)
  | none => match checkLength c.announced c.extensionOk with
    | some st => some (st, 0)
    | none => checkProgram c.privileged c.program

/-- The arrival word (R34). -/
def Coach.arrivalWord (c : Coach) : W64 :=
  let queue := match c.source with
    | .queue q _ => q
    | .mailbox _ => 0xFFFF
    | _ => 0
  let seq := match c.source with
    | .session _ q => q.toNat
    | _ => 0
  BitVec.ofNat 64 (c.cls + c.durability * 2 ^ 3 + b2n c.privileged * 2 ^ 5 + c.path * 2 ^ 6 + (if c.path = 2 then 0 else c.generation) * 2 ^ 8 +
    queue * 2 ^ 16 + seq * 2 ^ 32)

/-- What a coach sees at dispatch. -/
def Coach.freshRun (c : Coach) : Run :=
  { g := List.replicate 14 0 ++ [BitVec.ofNat 64 c.inbound.length, c.arrivalWord], nsReg := c.defaultNs }

/-- The coach starts in a context, under the timeout of its cluster (R45); one that was struck keeps its origin (R51). -/
def Dev.start (i x : Nat) (d : Dev) : Dev :=
  let k := clusterOf x
  d.onCoach i fun c =>
    let again := c.faults != 0 || c.saved.isSome
    { c with stage := .running, ctx := some x, cluster := k
             started := if again then c.started else d.chip.tick
             timeout := (d.cluster k).timeout.toNat, given := none
             run := c.saved.getD c.freshRun
             loaded := if c.saved.isSome then c.loaded else if c.defaultNs = 0 then [] else [c.defaultNs] }

/-- The cluster that a coach was given to, or the one the dispatcher gives it to, whose input queue has room for it (R24, R33). -/
def Dev.clusterFor (d : Dev) (c : Coach) : Option Nat :=
  match c.given with
  | some k => some k
  | none => (d.chooseCluster c).filter fun k => c.privileged || roomIn (d.clusterQueue k) 64 8 c.cls

/-- Dispatch of an admitted coach: from the admission queue to the input queue of a cluster, and from there to a context as soon
as one is free. A coach rejected before it runs is counted in ENG_CLU_REJECTS and not in ENG_CLU_PROGS. DEDUCED (log entry
38). -/
def dispatchEffect (i : Nat) (d : Dev) : Dev :=
  match d.coach? i with
  | none => d
  | some c =>
    if c.stage != .admitted || !d.pathRuns c.privileged || decide (d.chip.tick < d.pcie.wakeTick) || d.mustWait i c then d
    else match d.clusterFor c with
      | none => d
      | some k =>
        match c.rejection with
        | some (st, at_) =>
          ((d.onCluster k fun x => { x with rejects := bump x.rejects }).onCoach i fun c =>
            { c with run := { c.run with last := at_ } }).endCoach i st true
        | none =>
          match d.chooseContext k c.cls c.classWait with
          | none => d.when (!c.privileged) (Dev.onCoach i fun c => { c with given := some k })
          | some x => d.start i x

/-- COACH_DISPATCH. -/
def execCoachDispatch (coach : Nat) (s : State) : Answer := onDev (dispatchEffect coach) s

end Sys2Proof.Machine
end

