-- ==== Sys2Proof/Machine/Seals.lean ====
section
/-!
DEFINITION. Machine/Seals.lean: stripe lists, epoch advances, checkpoints, seals and keystones of a region (R205, R138,
R189 to R194, R220 to R222).
-/
namespace Sys2Proof.Machine

/-! ## When media management goes on -/

/-- Programs and erases can run: a geometry is in force, WP# is high and the flush has not ended. -/
def Dev.mediaOpen (d : Dev) : Bool :=
  d.running && d.store.geom.isSome && d.pins.wpHigh && d.pfail.flush != .flushed

/-- Media management of region `r` goes on: not while the region is fenced or a flush runs. -/
def Dev.tending (d : Dev) (r : Nat) : Bool :=
  d.live && d.store.geom.isSome && (d.region r).loaded && !d.fencedRegion r && d.pfail.flush == .none

/-! ## Epochs (R138, R139) -/

/-- The epoch of a namespace advances by one and its token generation starts again: causes 1 retire tokens, 2 token
generation, 3 erase generation. -/
def Dev.advanceEpoch (cause n : Nat) (d : Dev) : Dev :=
  let e := (d.ns n).epoch + 1
  (d.onNs n fun x => { x with epoch := e, tokenGen := 0 }).report 8 3 0 0x4001 [n, e, cause, 0, 0]

/-- The epoch of every ACTIVE namespace advances. -/
def Dev.advanceEpochs (d : Dev) : Dev :=
  Dev.each ((d.store.namespaces.filter fun e => e.2.state == .active).map Prod.fst) (Dev.advanceEpoch 3) d

/-! ## Namespaces as NSDEF changes them (R48, R114 to R117) -/

/-- The options of a namespace are those of a descriptor. -/
def Namespace.define (n : NsDescriptor) (x : Namespace) : Namespace :=
  { x with keySlot := n.keySlot, fixity := n.fixity, groupPrefix := n.groupPrefix, durability := n.durability
           ceiling := n.ceiling, options := n.options % 4, quota := n.quota }

/-- A namespace changes state (0x4004). -/
def Dev.setNsState (n : Nat) (st : NsState) (d : Dev) : Dev :=
  let old := (d.ns n).state
  (d.onNs n fun x => { x with state := st }).report 8 3 0 0x4004 [n, nsStateNum st, nsStateNum old, 0, 0]

/-- A namespace with a change in force. -/
def NsChange.apply (x : NsChange) (y : Namespace) : Namespace :=
  if x.create then { ({ epoch := y.epoch + 1 } : Namespace).define x.desc with state := .active }
  else (if x.retire then { y with epoch := y.epoch + 1, tokenGen := 0 } else y).define x.desc

/-- The namespace table as a seal saves it: with the changes that wait for it (R117). -/
def Dev.namespacesSaved (d : Dev) : Tab Namespace :=
  d.store.nsChanges.foldl (fun t e => t.update {} e.2.nsid e.2.apply) d.store.namespaces

/-- The options that bind the requests admitted so far are kept while one of them lives (R116). -/
def Dev.keepBefore (n : Nat) (d : Dev) : Dev :=
  let y := d.ns n
  let now : NsBefore := { before := d.eng.nextStamp, durability := y.durability, ceiling := y.ceiling, options := y.options }
  let bound (e : NsBefore) : Bool := d.eng.coaches.any fun c => decide (c.2.stamp < e.before)
  d.onStore fun s => { s with nsBefore := s.nsBefore.set n ((s.nsBefore.get [] n ++ [now]).filter bound) }

/-- A change cannot take effect: its namespace has left, or has come to hold keys while it changes the group prefix. -/
def Dev.changeFails (d : Dev) (x : NsChange) : Bool :=
  !x.create && ((d.ns x.nsid).state == .free || ((d.ns x.nsid).groupPrefix != x.desc.groupPrefix && decide (0 < (d.ns x.nsid).liveKeys)))

/-- The change that coach `i` asked for takes effect. -/
def Dev.applyChange (i : Nat) (d : Dev) : Dev :=
  match d.store.nsChanges.get? i with
  | none => d
  | some x =>
    let d := d.onStore fun s => { s with nsChanges := s.nsChanges.erase i }
    if x.create then
      let d := d.onStore fun s => { s with nsBefore := s.nsBefore.erase x.nsid }
      (d.onNs x.nsid fun y => ({ epoch := y.epoch + 1 } : Namespace).define x.desc).setNsState x.nsid .active
    else if d.changeFails x then d
    else ((d.keepBefore x.nsid).onNs x.nsid (Namespace.define x.desc)).when x.retire (Dev.advanceEpoch 1 x.nsid)

/-- Changes that are sealed and whose coach no longer waits to complete them take effect. DEDUCED (log entry 38). -/
def Dev.applySealed (d : Dev) : Dev :=
  let due := d.store.nsChanges.filter fun e => d.sealedAll e.2.gens && !(match (d.coach e.1).wait with | .seals _ => true | _ => false)
  Dev.each (due.map Prod.fst) Dev.applyChange d

/-! ## Eligible stripes (R203, R205) -/

/-- Present members that the next content of a stripe will have. -/
def Dev.membersNext (d : Dev) (s : Nat) : BitVec 16 :=
  d.presentFor s ((d.stripe s).egen + (if (d.stripe s).erased then 0 else 1))

/-- Some front prepares a stripe. -/
def Dev.preparing (d : Dev) (s : Nat) : Bool :=
  d.store.fronts.any fun e => match e.2.preparing with
    | some p => p.1 == s
    | none => false

/-- A FREE stripe that no stream pins. -/
def Dev.freeStripe (d : Dev) (s : Nat) : Bool := (d.stripe s).state == .free && !d.pinned s

/-- The eligible stripes of a region. -/
def Dev.eligible (d : Dev) (r : Nat) : List Nat :=
  (d.region r).listed.filter fun s => (d.region r).listedBefore.contains s && d.freeStripe s && !d.preparing s

/-- Mean erase count of a stripe's next members, as the sum and the number of members. -/
def Dev.meanErases (d : Dev) (s : Nat) : Nat × Nat :=
  let m := channelsOf (d.membersNext s)
  ((m.map fun c => (d.blockEntry (blockKey s c)).erases).sum, m.length)

/-- Is fraction `a` less than fraction `b`? -/
def lessFraction (a b : Nat × Nat) : Bool := decide (a.1 * b.2 < b.1 * a.2)

/-- The eligible stripe a front takes: lowest mean erase count for client fronts, highest for the others; lowest number on a
tie. DEDUCED (log entry 21). -/
def Dev.bestStripe (d : Dev) (f : Nat) (ok : Nat → Bool) : Option Nat :=
  let better (a b : Nat) : Bool :=
    if frontStream f < 2 then lessFraction (d.meanErases a) (d.meanErases b) else lessFraction (d.meanErases b) (d.meanErases a)
  ((d.eligible (frontRegion f)).filter fun s => ok s && decide (12 ≤ (channelsOf (d.membersNext s)).length)).foldl
    (fun best s => match best with
      | none => some s
      | some b => if better s b then some s else some b) none

/-- The stripe that STRIPE_OPEN gives to a front. -/
def Dev.chooseStripe (d : Dev) (f : Nat) : Option Nat := d.bestStripe f fun _ => true

/-- A stripe with fewer than 12 present members is retired (R203). -/
def Dev.retireStripe (s : Nat) (d : Dev) : Dev :=
  (d.onStripe s fun x => { x with state := .retired, raised := false, epochGens := [] }).reportRegion (stripeRegion s) 0x6005
    [addr64 (mkAddr s 0 0 0), (channelsOf (d.membersNext s)).length, 0, 0, 0]

/-- The list of a seal: open stripes; stripes of the previous list still FREE; other FREE stripes (R205). The address of stripe 0 of
region 0 is 0, which would end the list in the seal record (R191): it is never listed. DEDUCED (log entry 21). -/
def Dev.stripeList (d : Dev) (r : Nat) : List Nat :=
  let opens := (d.store.stripes.filter fun e => stripeRegion e.1 == r && e.2.state == .opened).map Prod.fst
  let kept := (d.region r).listed.filter fun s => d.freeStripe s && !opens.contains s
  let others := (d.geom.stripes r).filter fun s => d.freeStripe s && !kept.contains s && !opens.contains s &&
    decide (12 ≤ (channelsOf (d.membersNext s)).length) && s != 0
  (opens ++ kept ++ others).take 64

/-! ## Seals (R191, R220) -/

/-- First-sector sequence number of a record that still lies in carts or region DRAM. -/
def Dev.bufWsn (d : Dev) (a : Nat) : Option Nat := (d.store.buf.get? a).map fun b => b.rec_.wsn

/-- replay_wsn of a seal that notes the next sequence number now (R220). -/
def Dev.replayFrom (r : Nat) (d : Dev) : Nat :=
  let sets := d.eng.coaches.filterMap fun e => e.2.set.bind fun s => if s.staged.isEmpty then none else some s.setId
  let copies := (d.store.moves.filter fun m => regionOfAddr m.1 == r).filterMap fun m => d.bufWsn m.1
  (sets ++ copies).foldl min d.store.nextWsn

/-- The lifetime counts as a checkpoint saves them (R434). -/
def Dev.lifeSaved (d : Dev) : Lifetime :=
  { d.chip.lifeTick with
    powerOnMs := d.chip.powerOnMs, powerCycles := d.chip.powerCycles, nextSeq := d.evt.nextSeq
    wall := { d.wall with lastKnown := if d.wall.known then d.wallNow else d.wall.lastKnown }
    deadPrimary := d.evt.deadPrimary, deadMirror := d.evt.deadMirror }

/-- The next free sector of a stream of region `r`: that of its plain front, or of its kept front where the plain one has no open
stripe; 0 with neither. A seal has one entry for a stream that has two fronts. DESIGN CHOICE (log entry 21). -/
def Dev.streamFront (r t : Nat) (d : Dev) : Nat :=
  let at_ (f : Nat) : Option Nat := (d.front f).stripe.map fun s => (d.stripe s).addrAt d.geom s (d.front f).next
  ((at_ (frontOf r t (t == 3))).or (at_ (frontOf r t true))).getD 0

/-- The tables of region `r` as a seal notes them (R220 step 1). -/
def Dev.noteTables (r : Nat) (d : Dev) : Checkpoint :=
  let x := d.region r
  { gen := x.sealNow + 1, replayWsn := d.replayFrom r, wsnLimit := d.store.wsnLimit
    index := x.chains, live := x.live, versions := x.versions
    egens := (d.store.stripes.filter fun e => stripeRegion e.1 == r && e.2.egen != 0).map fun e => (e.1, e.2.egen)
    namespaces := d.namespacesSaved
    dies := d.store.dies.filter fun e => e.1 / 256 == r
    blocks := d.store.blocks.filter fun e => e.1 / 67108864 == r
    lifetime := d.lifeSaved, keys := d.keys.table
    stripeList := d.stripeList r
    fronts := (List.range 4).map fun t => d.streamFront r t }

/-- The course that a front fills is padded to its end, and `n` pad courses follow, within the stripe (R207). -/
def Dev.padCourses (f n : Nat) (d : Dev) : Dev :=
  match (d.front f).stripe with
  | none => d
  | some s =>
    let st := d.stripe s
    let per := st.perCourse d.geom
    d.padFront f (min (st.capacity d.geom) ((ceilDiv (d.front f).next per + n) * per))

/-! ## Chunks, manifests and the seal record (R189 to R191, R220) -/

/-- A record of the metadata stream of region `r`, where its front has room. -/
def Dev.placeMeta (r : Nat) (x : Record) (d : Dev) : Option (Nat × Dev) :=
  if d.room (frontOf r 3 true) x.span then some (d.place (frontOf r 3 true) x false) else none

/-- The cells that the record at an address holds; none where there is no such record. -/
def Dev.cellsAt (d : Dev) (a : Option Nat) : Tab Nat := ((a.bind d.recordAt).map (·.cells)).getD []

/-- Number of a chunk in `Region.chunkAt`. -/
def chunkKey (t n : Nat) : Nat := t * 2 ^ 32 + n

/-- The chunks of table `t` whose bytes are not those written last: the dirty ones. A chunk never written is all zero. -/
def Dev.dirtyChunks (r t : Nat) (cells : Tab Nat) (d : Dev) : List Nat :=
  let at_ := (d.region r).chunkAt
  let now := cells.map fun e => e.1 / chunkCells t
  let before := (at_.filter fun e => e.1 / 2 ^ 32 == t).map fun e => e.1 % 2 ^ 32
  (now ++ before).eraseDups.filter fun n => d.cellsAt (at_.get? (chunkKey t n)) != cutChunk t n cells

/-- One record after another is placed, as long as there is room; false where it ran out. -/
def Dev.whileRoom {α : Type} (l : List α) (f : α → Dev → Option Dev) (d : Dev) : Bool × Dev :=
  l.foldl (fun (ok, d) a => if ok then match f a d with
    | some d => (true, d)
    | none => (false, d) else (false, d)) (true, d)

/-- Every dirty chunk of the noted tables is written (R220 step 2). -/
def Dev.writeChunks (r : Nat) (c : Checkpoint) (d : Dev) : Bool × Dev :=
  let due := (List.range 8).flatMap fun i => (d.dirtyChunks r (i + 1) (c.cells d.geom r (i + 1))).map fun n => (i + 1, n)
  d.whileRoom due fun e d =>
    (d.placeMeta r { kind := .chunk, table := e.1, number := e.2, ckptGen := c.gen, span := 9
                     cells := cutChunk e.1 e.2 (c.cells d.geom r e.1) }).map fun p =>
      p.2.onRegion r fun x => { x with chunkAt := x.chunkAt.set (chunkKey e.1 e.2) p.1 }

/-- The entries of manifest `q` of table `t`: the address of each chunk that has been written. -/
def Dev.manifestCells (r t q : Nat) (d : Dev) : Tab Nat :=
  ((d.region r).chunkAt.filter fun e => e.1 / manifestMax == t * 2 ^ 15 + q).map fun e => (e.1 % manifestMax, e.2)

/-- The manifests whose entries are not those written last. -/
def Dev.dirtyManifests (r : Nat) (d : Dev) : List (Nat × Nat) :=
  ((d.region r).chunkAt.map fun e => (e.1 / 2 ^ 32, e.1 % 2 ^ 32 / manifestMax)).eraseDups.filter fun m =>
    d.cellsAt ((d.region r).manifestAt.get? (m.1 * 64 + m.2)) != d.manifestCells r m.1 m.2

/-- Every manifest whose entries changed is written (R220 step 3). -/
def Dev.writeManifests (r gen : Nat) (d : Dev) : Bool × Dev :=
  d.whileRoom (d.dirtyManifests r) fun m d =>
    let n := d.geom.manifestCount m.1 m.2
    (d.placeMeta r { kind := .manifest, table := m.1, number := m.2, ckptGen := gen, span := ceilDiv (512 + 8 * n) 4096, count := n
                     cells := d.manifestCells r m.1 m.2 }).map fun p =>
      p.2.onRegion r fun x => { x with manifestAt := x.manifestAt.set (m.1 * 64 + m.2) p.1 }

/-- What a seal record of region `r` binds (R191). -/
def Dev.sealBody (r : Nat) (c : Checkpoint) (d : Dev) : SealBody :=
  let at_ := (d.region r).manifestAt
  let mine (t : Nat) : Tab Nat := (at_.filter fun e => e.1 / 64 == t).map fun e => (e.1 % 64, e.2)
  { region := r, replayWsn := c.replayWsn, wsnLimit := c.wsnLimit, fronts := c.fronts
    manifests := (List.range 8).map fun i =>
      (List.range (((mine (i + 1)).map fun e => e.1 + 1).foldl max 0)).map fun q => (mine (i + 1)).get 0 q
    stripes := c.stripeList.map fun s => mkAddr s 0 0 0 }

/-- Steps 1 to 4 of R220: the tables are noted, then chunks, manifests and the seal record are written. Answers what was noted,
with the address of the seal, or the device as far as it came where the metadata front has no room. -/
def Dev.writeSeal (r : Nat) (d : Dev) : Option Checkpoint × Dev :=
  let noted := d.noteTables r
  match d.writeChunks r noted with
  | (false, d) => (none, d)
  | (true, d) =>
    match d.writeManifests r noted.gen with
    | (false, d) => (none, d)
    | (true, d) =>
      match d.placeMeta r { kind := .sealRec, ckptGen := noted.gen, span := 2, body := d.sealBody r noted } with
      | none => (none, d)
      | some (a, d) => (some { noted with addr := a, chunkAt := (d.region r).chunkAt, manifestAt := (d.region r).manifestAt }, d)

/-- A seal of region `r` begins; the metadata front then pads (R207, R220). Where that front has no room left, its stripe is padded
and the seal goes on at the next SEAL_START. -/
def Dev.startSeal (r : Nat) (d : Dev) : Dev :=
  let f := frontOf r 3 true
  if (d.region r).sealing.isSome then d
  else match d.writeSeal r with
    | (none, d) => d.padStripe f
    | (some c, d) =>
      (d.padCourses f 4).onRegion r fun x => { x with sealing := some { noted := c }, sinceSeal := 0, sealTick := d.chip.tick }

/-- SEAL_START. -/
def execSealStart (region : RegionId) (s : State) : Answer :=
  onDev (guarded (fun d => d.tending region.val) (Dev.startSeal region.val)) s

/-! ## Durable seals (R221, R222) -/

/-- Reservations that a durable checkpoint does not cover (R367). -/
def Dev.uncovered (c : Checkpoint) (res : List (Nat × W32 × Nat)) : List (Nat × W32 × Nat) :=
  res.filter fun e =>
    let s := c.keys.slots.get {} e.1
    decide (s.gen = e.2.1 ∧ s.limit < e.2.2) || decide (s.gen.toNat < e.2.1.toNat)

/-- A keystone that names a seal (R193, R221). -/
def Dev.nameSeal (fate : KeystoneFate) (r : Nat) (c : Checkpoint) (d : Dev) : Dev :=
  let x := d.region r
  let last := (d.media r).keystones.head?.getD {}
  let k : Keystone :=
    { kseq := x.kseq + 1, fmtgen := d.geom.fmtgen, sealAddr := c.addr, sealPrev := last.sealAddr, ckptGen := c.gen,
      wsnLimit := d.store.wsnLimit, res := Dev.uncovered c x.reserved }
  let d := (d.putKeystone fate r k).onMedia r fun m => { m with checkpoints := c :: m.checkpoints.take 1 }
  (d.onRegion r fun x => { x with
    kseq := x.kseq + 1, reserved := k.res, sealing := none, listedBefore := x.listed, listed := c.stripeList
    sealBefore := x.sealNow, sealNow := c.gen, ckptGen := c.gen, replayWsn := c.replayWsn }).applySealed

/-- SEAL_DURABLE: the course of the seal record has been verified, and its keystone is written. -/
def execSealDurable (region : RegionId) (keystoneOk retryOk : Bool) (s : State) : Answer :=
  onDev (guarded (fun d => d.tending region.val) (fun d =>
    match (d.region region.val).sealing with
    | none => d
    | some x =>
      if !d.settled x.noted.addr then d
      else d.nameSeal (if keystoneOk then .good else if retryOk then .retried else .failed) region.val x.noted)) s

end Sys2Proof.Machine
end

