-- ==== Sys2Proof/Machine/Courses.lean ====
section
/-!
DEFINITION. Machine/Courses.lean: stripes opened and erased, units programmed, courses verified, failures of units, blocks
and dies, padding, and die queues (R202 to R212, R253).
-/
namespace Sys2Proof.Machine

/-! ## Write state, blocks and dies (R211, R212) -/

/-- Retired and failed dies of a region. -/
def Dev.diesOut (d : Dev) (r : Nat) : Nat := (d.store.dies.filter fun e => e.1 / 256 == r && decide (2 ≤ e.2.state)).length

/-- A region enters a later write state (REGION_WRITE_STATE_CHANGE). -/
def Dev.setWriteState (r new : Nat) (d : Dev) : Dev :=
  let old := (d.region r).writeState.toNat
  if new ≤ old then d
  else (d.onRegion r fun x => { x with writeState := BitVec.ofNat 2 new }).reportRegion r 0x6008 [new, old, d.diesOut r, 0, 0]

/-- The write state follows the number of dies out. -/
def Dev.checkWriteState (r : Nat) (d : Dev) : Dev :=
  let x := d.region r
  let n := d.diesOut r
  let ro := max 1 x.roDies.toNat
  let ex := max ro x.exDies.toNat
  d.setWriteState r (if ex ≤ n then 2 else if ro ≤ n then 1 else 0)

/-- A die takes a new state (0x6004). -/
def Dev.setDie (die new : Nat) (d : Dev) : Dev :=
  let old := (d.die die).state
  (d.onStore fun x => { x with dies := x.dies.update {} die fun y => { y with state := new } }).reportDie die 0x6004
    [die, new, old, 0, 0]

/-- A FREE stripe that is left with fewer than 12 present members is retired (R203, R204); one that is being prepared is judged when
its erases have ended (R210). -/
def Dev.retireIfShort (s : Nat) (d : Dev) : Dev :=
  d.when ((d.stripe s).state == .free && !d.preparing s && decide ((channelsOf (d.membersNext s)).length < 12)) (Dev.retireStripe s)

/-- A block is retired with a state and a retire_egen, drawing a spare; past the budget its die starts draining. -/
def Dev.retireBlock (s c state egen : Nat) (d : Dev) : Dev :=
  let b := blockKey s c
  let die := stripeDie s c
  if (d.blockEntry b).state ≠ 0 then d
  else
    let d := d.onBlock b fun e => { e with state := state, retireEgen := egen }
    let d := d.onStore fun x => { x with dies := x.dies.update {} die fun y => { y with retired := y.retired + 1 } }
    let d := d.onLife fun l => { l with dies := l.dies.update 0 (die * 4 + 2) bump }
    let e := d.die die
    let d := d.reportDie die 0x6003 [addr64 (mkAddr s c 0 0), state, e.retired, e.budget, 0]
    (d.when (e.state == 0 && decide (e.budget < e.retired)) (Dev.setDie die 1)).retireIfShort s

/-- Every good block of a die becomes absent from later contents (state 6). -/
def Dev.dropDieBlocks (die : Nat) (d : Dev) : Dev :=
  let g := d.geom
  let keys := (List.range g.planes).flatMap fun p => (List.range g.bpp).map fun b => die * 262144 + p * 65536 + b
  Dev.each keys (fun b d =>
    if (d.blockEntry b).state = 0 then
      (d.onBlock b fun e => { e with state := 6, retireEgen := (d.stripe (stripeOfBlock b)).egen }).retireIfShort (stripeOfBlock b)
    else d) d

/-! ## Records of a stripe -/

/-- Records in carts or region DRAM that lie on a stripe. -/
def Dev.bufOn (d : Dev) (s : Nat) : List (Nat × BufRec) := d.store.buf.filter fun e => stripeOf e.1 == s

/-- A record has a sector in course `p`. -/
def Dev.inCourse (d : Dev) (s p a span : Nat) : Bool := ((d.stripe s).coursesOf d.geom a span).contains p

/-- A record has a sector on channel `c` in a course for which `q` holds. -/
def Dev.onChannel (d : Dev) (s c a span : Nat) (q : Nat → Bool) : Bool :=
  ((d.stripe s).coursesOf d.geom a span).any fun p => q p && decide (0 < (d.stripe s).sectorsOn d.geom a span p c)

/-- A copy of the record at `a` is on its way. -/
def Dev.beingMoved (d : Dev) (a : Nat) : Bool := d.store.moves.any fun m => m.2.old == a

/-- A record must be copied to the relocation stream. -/
def Dev.requireCopy (a : Nat) (d : Dev) : Dev :=
  if d.beingMoved a then d else d.onStore fun x => { x with toCopy := x.toCopy.set a () }

/-- Courses of a stripe in flight, with their numbers. -/
def Dev.coursesOn (d : Dev) (s : Nat) : List (Nat × Course) := d.store.courses.filter fun e => e.2.stripe == s

/-- The stripe of closed courses moves on: CLOSED_UNVERIFIED once all are programmed, VERIFIED once nothing is left to verify
or to copy from a failure, copies of copies included (R204). -/
def Dev.settleStripe (s : Nat) (d : Dev) : Dev :=
  let cs := d.coursesOn s
  let st := d.stripe s
  let taken := d.store.fronts.any fun f => f.2.stripe == some s
  let d := if st.state == .opened && !taken && cs.all (fun c => c.2.programmed) then
      d.onStripe s fun x => { x with state := .closedUnverified } else d
  if (d.stripe s).state == .closedUnverified && !cs.any (fun c => c.2.holdsData) &&
      !d.store.toCopy.any (fun a => stripeOf a.1 == s) && !d.store.moves.any (fun m => (m.2.old :: m.2.via).any fun a => stripeOf a == s) then
    d.onStripe s fun x => { x with state := .verified }
  else d

/-- All courses of a record are programmed. -/
def Dev.recordProgrammed (d : Dev) (a : Nat) (b : BufRec) : Bool :=
  let pages := (d.stripe (stripeOf a)).coursesOf d.geom a b.rec_.span
  (d.store.toCopy.get? a).isNone && !d.beingMoved a &&
    (d.coursesOn (stripeOf a)).all fun c => c.2.programmed || !pages.contains c.2.page

/-- A directory unit whose record is programmed goes to rec = 2. -/
def Dev.unitsProgrammed (d : Dev) : Dev :=
  let ready (a : Nat) : Bool := match d.store.buf.get? a with
    | none => true
    | some b => b.phase != .buffered
  let next (_ : Nat) (u : DirUnit) : DirUnit := if u.rec_ = 1 && u.addrs.all ready then { u with rec_ := 2 } else u
  d.onStore fun x => { x with dir := x.dir.mapVals next }

/-- A front leaves its stripe once the stripe is full and every course of it programmed. -/
def Dev.leaveFull (f s : Nat) (d : Dev) : Dev :=
  let fr := d.front f
  let st := d.stripe s
  if fr.stripe == some s && decide (st.capacity d.geom ≤ fr.next) && (d.coursesOn s).all (fun c => c.2.programmed) then
    d.onFront f fun x => { x with stripe := none, next := 0, base := x.base + ceilDiv x.next (st.perCourse d.geom) }
  else d

/-- A course has been programmed: its records are, and media-durability waits can end (R206 step 4). -/
def Dev.courseProgrammed (k : Nat) (x : Course) (d : Dev) : Dev :=
  let d := d.onCourse k fun c => { c with programmed := true }
  let mark (a : Nat) (b : BufRec) : BufRec :=
    if stripeOf a = x.stripe && b.phase == .buffered && d.recordProgrammed a b then { b with phase := .programmed } else b
  let d := d.onStore fun y => { y with buf := y.buf.mapVals mark }
  let d := if x.holdsData then d else d.onStore fun y => { y with courses := y.courses.erase k }
  (d.unitsProgrammed.leaveFull (k / 2 ^ 40) x.stripe).settleStripe x.stripe

/-- Courses of a stripe whose every unit has completed are programmed. -/
def Dev.completeCourses (s : Nat) (d : Dev) : Dev :=
  let due := (d.coursesOn s).filter fun e => !e.2.programmed && e.2.filled && (e.2.done ||| e.2.failed) == BitVec.allOnes 16
  Dev.each due (fun e d => d.courseProgrammed e.1 e.2) d

/-- The units of a failing block that are not programmed yet: its die queue holds them for good (R208, R209 step 1). -/
def Dev.holdBlock (s c : Nat) : Dev → Dev :=
  Dev.onStore fun x => { x with courses := x.courses.mapVals fun _ y =>
    if y.stripe = s ∧ y.done.getLsbD c = false then { y with failed := setBit y.failed c true } else y }

/-- The front leaves its stripe after course `p` of it: no later course is written, and the records placed there are copied
(R209 step 3, R208 step 2). The rest of course `p` is pad. -/
def Dev.closeAfter (f s p : Nat) (d : Dev) : Dev :=
  let per := (d.stripe s).perCourse d.geom
  let d := d.when ((d.front f).stripe == some s && decide (p * per < (d.front f).next)) (Dev.padFront f ((p + 1) * per))
  let late := (d.bufOn s).filter fun e => ((d.stripe s).coursesOf d.geom e.1 e.2.rec_.span).any fun q => decide (p < q)
  let d := Dev.each late (fun e d =>
    if e.2.discarded then d.onStore fun x => { x with buf := x.buf.erase e.1 } else d.requireCopy e.1) d
  let fill (_ : Nat) (c : Course) : Course := if c.stripe = s ∧ c.page = p then { c with filled := true } else c
  let written (c : Nat × Course) : Bool := !(c.2.stripe == s && decide (p < c.2.page))
  let d := d.onStore fun x => { x with courses := Tab.mapVals fill (x.courses.filter written) }
  if (d.front f).stripe = some s then
    let used := min (p + 1) (ceilDiv (d.front f).next ((d.stripe s).perCourse d.geom))
    (d.onFront f fun x => { x with stripe := none, next := 0, base := x.base + used }).settleStripe s
  else d

/-- Chunk and manifest records of region `r` that the next seal names (R190). -/
def Dev.liveMeta (d : Dev) (r : Nat) : List Nat := ((d.region r).chunkAt ++ (d.region r).manifestAt).map Prod.snd

/-- A unit of a stripe fails programming (R209). -/
def Dev.failUnit (f s p c : Nat) (d : Dev) : Dev :=
  let r := stripeRegion s
  let st := d.stripe s
  let d := d.onRegion r fun x => { x with progFails := bump x.progFails }
  let d := d.reportDie (stripeDie s c) 0x6001 [addr64 (mkAddr s c p 0), st.egen, 0, 0, 0]
  let d := d.retireBlock s c 1 st.egen
  let touches (a span : Nat) : Bool := d.inCourse s p a span || d.onChannel s c a span (fun q => decide (q < p))
  let held := (d.bufOn s).filter fun e => !e.2.discarded && touches e.1 e.2.rec_.span
  let onMedia := (d.liveAddrs r ++ d.liveCommits r ++ d.liveMeta r).filter fun a =>
    stripeOf a == s && (d.store.buf.get? a).isNone && touches a (d.spanAt a)
  ((Dev.each (held.map Prod.fst ++ onMedia) Dev.requireCopy d).closeAfter f s p).holdBlock s c

/-- The course of a stripe that is being programmed: the lowest that is not; after all of them, the last. -/
def Dev.programming (d : Dev) (s : Nat) : Nat :=
  let pages := ((d.coursesOn s).filter fun c => !c.2.programmed).map fun c => c.2.page
  match pages with
  | [] => (d.stripe s).written / (d.stripe s).perCourse d.geom
  | p :: ps => ps.foldl min p

/-- Open stripes with a member on a die are closed as on a program failure of that member (R211). -/
def Dev.closeOnDie (die : Nat) (d : Dev) : Dev :=
  let hit := d.store.fronts.filterMap fun f => f.2.stripe.bind fun s =>
    if stripeRegion s == die / 256 && s % 2 ^ 22 / 262144 == die % 16 && (d.stripe s).present.getLsbD (dieChannel die)
    then some (f.1, s) else none
  Dev.each hit (fun h d =>
    (d.failUnit h.1 h.2 (d.programming h.2) (dieChannel die)).completeCourses h.2) d

/-- A die leaves service for good, retired (2) or failed (3): every block of it becomes absent from later contents. -/
def Dev.dieOut (die new : Nat) (d : Dev) : Dev :=
  ((d.setDie die new).closeOnDie die).dropDieBlocks die |>.checkWriteState (die / 256)

/-- A die fails (R211, R16). -/
def Dev.failDie (die : Nat) (d : Dev) : Dev := if (d.die die).state < 2 then d.dieOut die 3 else d

/-- DIE_FAILED. -/
def execDieFailed (die : DieId) (s : State) : Answer := whenLive (Dev.failDie die.val) s

/-- A live record, or a record not yet verified, has a sector on a die. -/
def Dev.dieHolds (d : Dev) (die : Nat) : Bool :=
  let r := die / 256
  let on (a span : Nat) : Bool :=
    stripeOf a % 2 ^ 22 / 262144 == die % 16 && d.onChannel (stripeOf a) (dieChannel die) a span (fun _ => true)
  (d.liveAddrs r ++ d.liveCommits r).any (fun a => on a (d.spanAt a)) ||
    d.store.buf.any (fun e => regionOfAddr e.1 == r && !e.2.discarded && on e.1 e.2.rec_.span)

/-- DIE_DRAIN_DONE. -/
def execDieDrainDone (die : DieId) (s : State) : Answer :=
  onDev (guarded (fun d => d.tending (die.val / 256) && (d.die die.val).state == 1 && !d.dieHolds die.val) (Dev.dieOut die.val 2)) s

/-- A MAC instance's own row of R16 is in Machine/Store; this is a NAND channel controller. -/
def Dev.failChannel (r c : Nat) (d : Dev) : Dev :=
  Dev.each (List.range 16) (fun i d =>
    if d.geom.populated r c && decide (i / 4 < d.geom.ces) && decide (i % 4 < d.geom.luns) then d.failDie (r * 256 + c * 16 + i)
    else d) d

/-! ## Opening a stripe (R205, R210) -/

/-- A prepared stripe is taken by a front. -/
def Dev.takeStripe (f s : Nat) (d : Dev) : Dev :=
  let d := d.onStripe s fun x =>
    { state := .opened, egen := x.egen, kept := frontKept f, present := d.presentFor s x.egen }
  let d := d.onStore fun x => { x with padRuns := x.padRuns.filter fun e => e.1 / 2 ^ 24 != s }
  d.onFront f fun x => { x with stripe := some s, next := 0, preparing := none }

/-- The generation of a stripe rises for its next erase; at a multiple of 4,096 every epoch advances first (R132, R138). -/
def Dev.raiseEgen (s : Nat) (d : Dev) : Dev :=
  let e := (d.stripe s).egen + 1
  let d := d.onStripe s fun x => { x with egen := e, raised := true }
  if e % 4096 = 0 then
    let d := d.advanceEpochs
    d.onStripe s fun x => { x with epochGens := d.sealsWanted }
  else d

/-- With nothing eligible: MEDIA_EXHAUSTED for a relocation front that nothing can help (R212), and a seal at once. -/
def Dev.starved (f : Nat) (d : Dev) : Dev :=
  let r := frontRegion f
  let left (s : Nat) : Bool := (d.liveOn s).any (fun a => !d.beingMoved a) || d.store.toCopy.any fun a => stripeOf a.1 == s
  let stuck := d.store.stripes.all fun e => stripeRegion e.1 != r || match e.2.state with
    | .verified => !(d.liveOn e.1).isEmpty
    | .relocating => left e.1
    | .closedUnverified => !(d.liveOn e.1).isEmpty
    | .free => false
    | _ => true
  let none_ := (d.geom.stripes r).all fun s => !((d.stripe s).state == .free)
  let d := if frontStream f = 2 ∧ stuck = true ∧ none_ = true then d.setWriteState r 2 else d
  d.startSeal r

/-- While the flush programs, a relocation front opens a stripe only for a record that a failure requires to be copied, and only one
that is erased already: erases have ended (R227). -/
def Dev.flushOpens (d : Dev) (f : Nat) : Bool :=
  d.live && d.mediaOpen && d.pfail.flush == .programming && !d.fencedRegion (frontRegion f) && frontStream f == 2 &&
    d.store.toCopy.any fun a => regionOfAddr a.1 == frontRegion f && (d.stripe (stripeOf a.1)).kept == frontKept f

/-- Such a front takes its stripe. -/
def Dev.openErased (f : Nat) (d : Dev) : Dev :=
  match d.bestStripe f fun s => (d.stripe s).erased with
  | some s => d.takeStripe f s
  | none => d

/-- STRIPE_OPEN. -/
def execStripeOpen (front : FrontId) (s : State) : Answer :=
  onDev (guarded (fun d => (d.tending (frontRegion front.val) || d.flushOpens front.val) && (d.front front.val).stripe.isNone &&
      (d.front front.val).preparing.isNone) (fun d =>
    let f := front.val
    if d.pfail.flush != .none then d.openErased f else
    let poor := (d.eligible (frontRegion f)).filter fun s => decide ((channelsOf (d.membersNext s)).length < 12)
    let d := Dev.each poor Dev.retireStripe d
    match d.chooseStripe f with
    | none => d.starved f
    | some s =>
      if (d.stripe s).erased then d.takeStripe f s
      else
        let d := d.raiseEgen s
        d.onFront f fun x => { x with preparing := some (s, d.presentFor s (d.stripe s).egen) })) s

/-- A member erase fails: the block is retired with state 2 (R210). -/
def Dev.failErase (s c : Nat) (d : Dev) : Dev :=
  let d := d.onRegion (stripeRegion s) fun x => { x with eraseFails := bump x.eraseFails }
  let d := d.reportDie (stripeDie s c) 0x6002 [addr64 (mkAddr s c 0 0), 0, 0, 0, 0]
  d.retireBlock s c 2 ((d.stripe s).egen - 1)

/-- BLOCK_ERASE_COMPLETE. -/
def execBlockEraseComplete (front : FrontId) (channel : Fin 16) (ok : Bool) (s : State) : Answer :=
  onDev (guarded (fun d => d.tending (frontRegion front.val)) (fun d =>
    let f := front.val
    match (d.front f).preparing with
    | none => d
    | some (s, left) =>
      let q := d.store.queues.get {} (stripeDie s channel.val)
      if !left.getLsbD channel.val || !d.sealedAll (d.stripe s).epochGens || q.suspended then d
      else
        let d := if ok then d.eraseBlock s channel.val else d.failErase s channel.val
        let d := d.onStore fun x => { x with queues := x.queues.set (stripeDie s channel.val) {} }
        let left := setBit left channel.val false
        if left ≠ 0 then d.onFront f fun x => { x with preparing := some (s, left) }
        else if 12 ≤ (channelsOf (d.presentFor s (d.stripe s).egen)).length then d.takeStripe f s
        else (d.retireStripe s).onFront f fun x => { x with preparing := none })) s

/-! ## Programming (R206) -/

/-- Every sector of a unit of a course is filled. -/
def Dev.unitFilled (d : Dev) (f c : Nat) (x : Course) : Bool :=
  let st := d.stripe x.stripe
  x.filled || ((d.front f).stripe == some x.stripe && !(st.kept && c == st.mortar x.page) &&
    decide (x.page * st.perCourse d.geom + ((st.data x.page).idxOf c + 1) * d.geom.spg ≤ (d.front f).next))

/-- The stream of the front that fills a stripe, as its courses in flight show it. -/
def Dev.streamOn (d : Dev) (s : Nat) : Nat := (((d.coursesOn s).map fun e => frontStream (e.1 / 2 ^ 40)).head?).getD 0

/-- The sectors of a unit reach the media, pad sectors among them. -/
def Dev.programUnit (s p c : Nat) (d : Dev) : Dev :=
  let st := d.stripe s
  let g := d.geom
  let on := ((d.bufOn s).map fun e => (e.1, e.2, st.sectorsOn g e.1 e.2.rec_.span p c)).filter fun e => decide (0 < e.2.2)
  let d := d.onNv fun n => { n with flash := on.foldl (fun t e =>
    t.update { rec_ := e.2.1.rec_, fmtgen := g.fmtgen } e.1 fun y => { y with have_ := y.have_ + e.2.2 }) n.flash }
  let carts := (on.map fun e => if e.2.1.rec_.stream < 2 then e.2.2 else 0).sum
  let pad (i : Nat) : Option (Nat × PadSector) :=
    let a := mkAddr s c p i
    ((d.padAt s (st.placeOf g a)).filter fun _ => (st.data p).contains c).map fun w =>
      (a, { wsn := w, egen := st.egen, stream := d.streamOn s, kept := st.kept, fmtgen := g.fmtgen })
  let d := d.onNv fun n => { n with pads := ((List.range g.spg).filterMap pad).foldl (fun t e => t.set e.1 e.2) n.pads }
  let d := if d.pfail.flush != .none then d.onPfail fun q => { q with flushBytes := q.flushBytes + carts * 4096 } else d
  let d := d.onLife fun l => { l with dies := l.dies.update 0 (stripeDie s c * 4 + 1) bump }
  d.onRegion (stripeRegion s) fun x =>
    { x with sectorsWritten := satAdd x.sectorsWritten (if st.kept && c == st.mortar p then 0 else g.spg) }

/-- A unit of a course holds sectors of a record written for a class-7 request. -/
def Dev.unitSeven (d : Dev) (x : Course) (c : Nat) : Bool :=
  (d.bufOn x.stripe).any fun e => e.2.seven && decide (0 < (d.stripe x.stripe).sectorsOn d.geom e.1 e.2.rec_.span x.page c)

/-- Course `a` came before course `b`. -/
def courseBefore (a b : Nat × Course) : Bool := decide (a.2.since < b.2.since) || (a.2.since == b.2.since && decide (a.1 < b.1))

/-- A course is among the 8 that the write-stream queue of its stream holds (R24, R202). -/
def Dev.inStreamQueue (d : Dev) (k : Nat) (x : Course) : Bool :=
  let f := k / 2 ^ 40
  decide ((d.store.courses.filter fun e => !e.2.programmed && frontRegion (e.1 / 2 ^ 40) == frontRegion f &&
    frontStream (e.1 / 2 ^ 40) == frontStream f && courseBefore e (k, x)).length < 8)

/-- The unit of a course on channel `c` is among the 16 operations that its die's queue holds, two of them kept for class 7
(R24, R32). -/
def Dev.inDieQueue (d : Dev) (k : Nat) (x : Course) (c : Nat) : Bool :=
  let die := stripeDie x.stripe c
  decide ((d.store.courses.filter fun e => stripeDie e.2.stripe c == die && !e.2.done.getLsbD c && !e.2.failed.getLsbD c &&
    d.unitFilled (e.1 / 2 ^ 40) c e.2 && courseBefore e (k, x)).length < (if d.unitSeven x c then 16 else 14))

/-- A program of a lower class is held while a class-7 read has suspended it (R253). -/
def Dev.unitHeld (d : Dev) (x : Course) (c : Nat) : Bool :=
  (d.store.queues.get {} (stripeDie x.stripe c)).suspended && !d.unitSeven x c

/-- UNIT_PROGRAM_COMPLETE. -/
def execUnitProgramComplete (front : FrontId) (position : Nat) (channel : Fin 16) (ok : Bool) (s : State) : Answer :=
  onDev (guarded (fun d => d.mediaOpen && !d.fencedRegion (frontRegion front.val)) (fun d =>
    let f := front.val
    let c := channel.val
    let k := courseKey f position
    match d.store.courses.get? k with
    | none => d
    | some x =>
      let die := stripeDie x.stripe c
      let taken := x.done.getLsbD c || x.failed.getLsbD c
      if taken || !d.unitFilled f c x || !d.inStreamQueue k x || !d.inDieQueue k x c || d.unitHeld x c then d
      else
        let d := d.onStore fun y => { y with queues := y.queues.set die {} }
        let d := if ok then (d.programUnit x.stripe x.page c).onCourse k fun y => { y with done := setBit y.done c true }
          else (d.onCourse k fun y => { y with failed := setBit y.failed c true }).failUnit f x.stripe x.page c
        d.completeCourses x.stripe)) s

/-! ## Verification (R206 steps 5 and 6, R208, R127) -/

/-- Positions of a front that have been assigned. -/
def Dev.positions (d : Dev) (f : Nat) : Nat :=
  let fr := d.front f
  fr.base + (match fr.stripe with
    | none => 0
    | some s => ceilDiv fr.next ((d.stripe s).perCourse d.geom))

/-- The course at a position has been programmed. -/
def Dev.programmedAt (d : Dev) (f position : Nat) : Bool :=
  match d.store.courses.get? (courseKey f position) with
  | some x => x.programmed
  | none => decide (position < d.positions f)

/-- A relocated record's index entry, live bit and directory unit pass to the copy, where they still name the original
(INDEX_RELOCATION_SWITCH, R127, R131). -/
def Dev.switchIndex (old new : Nat) (x : Record) (d : Dev) : Dev :=
  let r := regionOfAddr old
  let f := d.segFp x.ns x.key x.segIndex
  let c := d.chainOf r f
  let d := match c.slotOf old with
    | none => d
    | some i => match c.all.getD i none with
      | some e => (d.onRegion r fun y => { y with cache := y.cache.erase old }).putEntry r i none { e with addr := new, cached := false }
      | none => d
  let d := if d.isLive old then (d.clearLive old).setLive new else d
  let move (_ : Nat) (u : DirUnit) : DirUnit := { u with addrs := u.addrs.map fun a => if a = old then new else a }
  d.onStore fun y => { y with dir := y.dir.mapVals move }

/-- Directory units that no longer wait for a record are released (R130). -/
def Dev.releaseUnits (a : Nat) (d : Dev) : Dev :=
  Dev.each ((d.store.dir.filter fun u => u.2.addrs.contains a).map Prod.fst) (fun u d => d.releaseUnit u) d

/-- A record lies on verified courses: its carts are freed, but for those that a stream still reads (R53), and a copy takes the
place of its original. -/
def Dev.settleRecord (a : Nat) (b : BufRec) (d : Dev) : Dev :=
  let held (a : Nat) : Bool := d.eng.coaches.any fun c => c.2.heldAddrs.contains a
  let free (a : Nat) (t : Tab BufRec) : Tab BufRec :=
    if held a then t.adjust a fun y => { y with phase := .verified, discarded := true, streamed := true } else t.erase a
  let d := d.onStore fun x => { x with buf := free a x.buf }
  let d := d.onNv fun n => { n with flash := n.flash.adjust a fun y => { y with verified := y.verified || !b.discarded } }
  let d := match d.store.moves.get? a with
    | none => d
    | some m =>
      let d := d.switchIndex m.old a b.rec_
      let d := d.onStore fun x => { x with moves := x.moves.erase a, buf := free m.old x.buf, toCopy := x.toCopy.erase m.old }
      let d := if m.rekey then d.onKeys fun k => { k with rekey := { k.rekey with gens := d.sealsWanted } } else d
      Dev.each ((m.old :: m.via).map stripeOf) Dev.settleStripe d
  d.releaseUnits a

/-- A sector of course `p` fails verification on channel `c` (R208). -/
def Dev.failVerify (f s p c : Nat) (d : Dev) : Dev :=
  let d := d.onRegion (stripeRegion s) fun x => { x with progFails := bump x.progFails }
  let d := d.retireBlock s c 3 (d.stripe s).egen
  let hit := (d.bufOn s).filter fun e => !e.2.discarded &&
    (d.inCourse s p e.1 e.2.rec_.span || d.onChannel s c e.1 e.2.rec_.span (fun q => decide (p < q)))
  let d := Dev.each (hit.map Prod.fst) Dev.requireCopy d
  let d := d.when ((d.front f).stripe == some s) fun d => d.closeAfter f s (d.programming s)
  (d.holdBlock s c).completeCourses s

/-- Page reads of a block; a count that crosses 2^read_exp queues a refresh (R214). Reads for requests are those of
PAGE_READ_COMPLETE; the read-back of a course, copies and patrol count their own. -/
def Dev.countReads (s c n : Nat) (d : Dev) : Dev :=
  let b := blockKey s c
  let old := (d.blockEntry b).reads
  let new := min (old + n) (2 ^ 32 - 1)
  let limit := 2 ^ max 16 (d.region (stripeRegion s)).readExp.toNat
  let d := d.onBlock b fun e => { e with reads := new }
  d.when (decide (old < limit) && decide (limit ≤ new)) (Dev.onStripe s fun x => { x with refresh := true })

/-- Read-back of course `p` of a stripe ends: its good records are verified. -/
def Dev.verifyCourse (k : Nat) (x : Course) (d : Dev) : Dev :=
  let d := d.onStore fun y => { y with courses := y.courses.erase k }
  let ready := (d.bufOn x.stripe).filter fun e =>
    let pages := (d.stripe x.stripe).coursesOf d.geom e.1 e.2.rec_.span
    pages.contains x.page && (d.store.toCopy.get? e.1).isNone && !d.beingMoved e.1 &&
      !(d.coursesOn x.stripe).any (fun c => pages.contains c.2.page)
  (Dev.each ready (fun e => Dev.settleRecord e.1 e.2) d).settleStripe x.stripe

/-- COURSE_VERIFIED: `badChannels` are the units with a sector that is not good. -/
def execCourseVerified (front : FrontId) (position : Nat) (badChannels : BitVec 16) (s : State) : Answer :=
  onDev (guarded (fun d => d.tending (frontRegion front.val)) (fun d =>
    let f := front.val
    let k := courseKey f position
    match d.store.courses.get? k with
    | none => d
    | some x =>
      if !x.programmed || !x.holdsData || !d.programmedAt f (position + 4) then d
      else
        let bad := badChannels &&& (d.stripe x.stripe).present &&& ~~~x.failed
        let d := Dev.each (channelsOf ((d.stripe x.stripe).present &&& ~~~x.failed)) (fun c d => d.countReads x.stripe c d.geom.bpc) d
        (Dev.each (channelsOf bad) (fun c d => d.failVerify f x.stripe x.page c) d).verifyCourse k x)) s

/-! ## Padding (R207) -/

/-- A front's open course holds data and is not full. -/
def Dev.openCourse (d : Dev) (f : Nat) : Option Course :=
  match (d.front f).stripe with
  | none => none
  | some s =>
    let per := (d.stripe s).perCourse d.geom
    let n := (d.front f).next
    if n % per = 0 then none else d.store.courses.get? (courseKey f ((d.front f).base + n / per))

/-- A response at media or verified durability waits for a record. -/
def Dev.waitedFor (d : Dev) (a : Nat) : Bool :=
  d.eng.coaches.any fun c => c.2.stage == .ended && !c.2.awaits.isEmpty && c.2.awaits.contains a

/-- The open course holds a record that a durability wait depends on. -/
def Dev.courseAwaited (d : Dev) (x : Course) : Bool :=
  (d.bufOn x.stripe).any fun e => d.waitedFor e.1 && d.inCourse x.stripe x.page e.1 e.2.rec_.span

/-- PAD_IDLE_TIMEOUT: no data for 100 us while a durability wait depends on the course. -/
def execPadIdleTimeout (front : FrontId) (s : State) : Answer :=
  onDev (guarded (fun d => d.tending (frontRegion front.val) && ((d.openCourse front.val).map d.courseAwaited).getD false)
    (Dev.padCourses front.val 0)) s

/-- PAD_HELD_TIMEOUT: the course has held data for 10 ms. -/
def execPadHeldTimeout (front : FrontId) (s : State) : Answer :=
  onDev (guarded (fun d => d.tending (frontRegion front.val) &&
      ((d.openCourse front.val).map fun x => x.holdsData && decide (x.since + 10 ≤ d.chip.tick)).getD false)
    (Dev.padCourses front.val 0)) s

/-- Position of a front's latest course that holds records. -/
def Dev.lastData (d : Dev) (f : Nat) : Option Nat :=
  ((d.store.courses.filter fun c => c.1 / 2 ^ 40 == f && c.2.holdsData).map fun c => c.1 % 2 ^ 40).reverse.head?

/-- A front is the metadata front, and a seal record that it has written is not verified: it waits for no period (R207). -/
def Dev.sealOwed (d : Dev) (f : Nat) : Bool :=
  frontStream f == 3 && ((d.region (frontRegion f)).sealing.map fun x => !d.settled x.noted.addr).getD false

/-- FRONT_IDLE_PAD: pad courses follow until the latest course with records can be verified: after 10 ms without data, and at once
on the metadata front after a seal, where its stripe ended before the pad courses of the seal. -/
def execFrontIdlePad (front : FrontId) (s : State) : Answer :=
  onDev (guarded (fun d => d.tending (frontRegion front.val) &&
      (d.sealOwed front.val || decide ((d.front front.val).dataTick + 10 ≤ d.chip.tick))) (fun d =>
    let f := front.val
    match d.lastData f with
    | none => d
    | some p => d.padCourses f (p + 5 - d.positions f))) s

/-! ## Die queues (R253) -/

/-- A die has a program of a class below 7 to run, or an erase in progress. -/
def Dev.dieBusy (d : Dev) (die : Nat) : Bool :=
  let c := dieChannel die
  let here (s : Nat) : Bool := stripeDie s c == die
  d.store.courses.any (fun k => here k.2.stripe && !k.2.done.getLsbD c && !k.2.failed.getLsbD c &&
      d.unitFilled (k.1 / 2 ^ 40) c k.2 && !d.unitSeven k.2 c) ||
    d.store.fronts.any (fun f => match f.2.preparing with
      | some p => here p.1 && p.2.getLsbD c
      | none => false)

/-- A class-7 read suspends what its die does for a lower class (CLASS7_READ_SUSPEND, R253). -/
def Dev.suspendFor (die : Nat) (d : Dev) : Dev :=
  let q := d.store.queues.get {} die
  if d.dieBusy die && !q.spent && !q.suspended then
    d.onStore fun x => { x with queues := x.queues.set die { q with suspended := true, since := d.chip.tick } }
  else d

/-- A suspended operation goes on; the time for which it was held adds up. -/
def DieQueue.resume (tick : Nat) (q : DieQueue) : DieQueue :=
  if q.suspended then { q with suspended := false, held := q.held + (tick - q.since) } else q

/-- PROGRAM_ERASE_RESUME. A class-7 read runs within its own command, so that none waits on the die between two commands. -/
def execProgramEraseResume (die : DieId) (s : State) : Answer :=
  whenLive (fun d => d.onStore fun x => { x with queues := x.queues.adjust die.val (DieQueue.resume d.chip.tick) }) s

/-- The operation of a die that has been held for 10 ms in total is resumed and not suspended again. -/
def DieQueue.expire (tick : Nat) (q : DieQueue) : DieQueue :=
  if q.suspended && decide (10 ≤ (q.resume tick).held) then { q.resume tick with spent := true } else q

/-- SUSPEND_LIMIT_EXPIRY. -/
def execSuspendLimitExpiry (die : DieId) (s : State) : Answer :=
  whenLive (fun d => d.onStore fun x => { x with queues := x.queues.adjust die.val (DieQueue.expire d.chip.tick) }) s

end Sys2Proof.Machine
end

