-- ==== Sys2Proof/Machine/Store.lean ====
section
/-!
DEFINITION. Machine/Store.lean: garbage collection, refresh, relocation, patrol, reads of the media, and the end of a region
fence (R16, R17, R213 to R219).
-/
namespace Sys2Proof.Machine

/-! ## Victims (R213, R217) -/

/-- A stripe joins the refresh queue. -/
def Dev.queueRefresh (s : Nat) : Dev → Dev := Dev.onStripe s fun x => { x with refresh := true }

/-- Live sectors over data sectors of a stripe. -/
def Dev.liveRatio (d : Dev) (s : Nat) : Nat × Nat := (((d.liveOn s).map d.spanAt).sum, (d.stripe s).capacity d.geom)

/-- A stripe has a member on a die that drains or has failed, and something left to copy from it. -/
def Dev.onDraining (d : Dev) (s : Nat) : Bool :=
  (channelsOf (d.stripe s).present).any (fun c => let e := (d.die (stripeDie s c)).state; e == 1 || e == 3) && !(d.liveOn s).isEmpty

/-- The VERIFIED stripe chosen next: the refresh queue first, then draining dies, then the least live data with fewer erases
on a tie. DEDUCED (log entry 21). -/
def Dev.victim (d : Dev) (r : Nat) : Option (Nat × Bool) :=
  let vs := (d.store.stripes.filter fun e => stripeRegion e.1 == r && e.2.state == .verified).map Prod.fst
  let exhausted := (d.region r).writeState == 2
  let less (a b : Nat) : Bool :=
    lessFraction (d.liveRatio a) (d.liveRatio b) ||
      (!lessFraction (d.liveRatio b) (d.liveRatio a) && lessFraction (d.meanErases a) (d.meanErases b))
  let least := vs.foldl (fun best s => match best with
    | none => some s
    | some b => if less s b then some s else some b) none
  match vs.find? fun s => (d.stripe s).refresh && !exhausted with
  | some s => some (s, true)
  | none => match vs.find? d.onDraining with
    | some s => some (s, false)
    | none => if (d.eligible r).length < max 4 (min 64 (d.region r).gcLow.toNat) then least.map fun s => (s, false) else none

/-- GC_VICTIM_SELECT. A wake patrol goes ahead of it (R216). -/
def execGcVictimSelect (region : RegionId) (s : State) : Answer :=
  onDev (guarded (fun d => d.tending region.val && !(d.region region.val).wake) (fun d =>
    match d.victim region.val with
    | none => d
    | some (v, refresh) => d.onStripe v fun x => { x with state := .relocating, refresh := false, forRefresh := refresh, copyWsn := 0 })) s

/-! ## Copies (R185, R209, R218) -/

/-- The move that a copy of the record at `old` makes: of the original, where `old` is itself a copy that failed before it was
verified. -/
def Dev.moveFrom (d : Dev) (old : Nat) (rekey : Bool) : Move :=
  match d.store.moves.get? old with
  | some m => { m with via := m.via ++ [old], rekey := m.rekey || rekey }
  | none => { old := old, rekey := rekey }

/-- A copy that has itself been copied is nobody's: the rest of its courses is programmed with it, and it is gone where they are
never programmed. -/
def Dev.dropCopy (old : Nat) (d : Dev) : Dev :=
  let s := stripeOf old
  let span := ((d.store.buf.get? old).map fun b => b.rec_.span).getD 0
  if (d.coursesOn s).any fun c => d.inCourse s c.2.page old span then
    d.onStore fun x => { x with buf := x.buf.adjust old fun b => { b with discarded := true } }
  else d.onStore fun x => { x with buf := x.buf.erase old }

/-- What names a record by its address names the copy: staged updates, the seal that is on its way (R221), chunks and manifests
(R190). -/
def Dev.renameRecord (old a : Nat) (d : Dev) : Dev :=
  let move (x : Staged) : Staged := if x.addr = old then { x with addr := a } else x
  let swap (_ : Nat) (c : Coach) : Coach := { c with set := c.set.map fun t => { t with staged := t.staged.map move } }
  let same (_ : Nat) (b : Nat) : Nat := if b = old then a else b
  let seal_ (x : Sealing) : Sealing := if x.noted.addr = old then { noted := { x.noted with addr := a } } else x
  (d.onEng fun e => { e with coaches := e.coaches.mapVals swap }).onRegion (regionOfAddr old) fun x => { x with
    sealing := x.sealing.map seal_, chunkAt := x.chunkAt.mapVals same, manifestAt := x.manifestAt.mapVals same }

/-- A copy of the record at `old` on its relocation front; none where the front has no room. -/
def Dev.copyRecord (old : Nat) (x : Record) (rekey : Bool) (d : Dev) : Option Dev :=
  let s := stripeOf old
  let f := frontOf (regionOfAddr old) 2 (d.stripe s).kept
  if !d.room f x.span then none
  else
    let staged := ((d.store.buf.get? old).map (·.staged)).getD false
    let m := d.moveFrom old rekey
    let (a, d) := d.place f { x with relocated := true } staged
    let d := d.onStore fun y => { y with moves := (y.moves.erase old).set a m, toCopy := y.toCopy.erase old }
    let w := ((d.store.buf.get? a).map fun b => b.rec_.wsn).getD 0
    let d := Dev.each (m.old :: m.via) (fun b => Dev.onStripe (stripeOf b) fun y => { y with copyWsn := max y.copyWsn w }) d
    let d := d.onRegion (regionOfAddr old) fun y => { y with relocSectors := satAdd y.relocSectors x.span }
    some ((d.when (m.old != old) (Dev.dropCopy old)).renameRecord old a)

/-- The relocation front that a copy needs is padded where its stripe has no room for it (R172). -/
def Dev.padRelocation (old : Nat) (d : Dev) : Dev := d.padStripe (frontOf (regionOfAddr old) 2 (d.stripe (stripeOf old)).kept)

/-- The record that has a sector at an address, in carts or on media. -/
def Dev.recordOver (d : Dev) (a : Nat) : Option Record :=
  let st := d.stripe (stripeOf a)
  let n := st.placeOf d.geom a
  let holds (b span : Nat) : Bool :=
    stripeOf b == stripeOf a && decide (st.placeOf d.geom b ≤ n) && decide (n < st.placeOf d.geom b + span)
  match d.store.buf.find? fun e => holds e.1 e.2.rec_.span with
  | some e => some e.2.rec_
  | none => (d.nv.flash.find? fun e => e.2.fmtgen == d.geom.fmtgen && holds e.1 e.2.rec_.span).map fun e => e.2.rec_

/-- The block of a sector that was lost or rebuilt is retired when its stripe is next relocated, which is queued (R213). -/
def Dev.retireLater (a : Nat) : Dev → Dev :=
  Dev.onStripe (stripeOf a) fun y => { y with retireLater := setBit y.retireLater (channelOf a) true, refresh := true }

/-- A sector cannot be read or rebuilt (R213): counted, recorded with its record's namespace and fingerprint. -/
def Dev.lostSector (a cause : Nat) (d : Dev) : Dev :=
  let x := (d.recordOver a).getD {}
  let d := (d.onRegion (regionOfAddr a) fun y => { y with uncorr := bump y.uncorr }).retireLater a
  d.reportDie (stripeDie (stripeOf a) (channelOf a)) 0x6006 [addr64 a, x.ns.toNat, d.segFp x.ns x.key x.segIndex, cause, 0]

/-- A sector can be rebuilt: its course is unverified, or its stripe keeps mortar. -/
def Dev.rebuildable (d : Dev) (s page : Nat) : Bool := (d.stripe s).kept || (d.coursesOn s).any fun c => c.2.page == page

/-- A sector has been rebuilt from mortar (R213). -/
def Dev.rebuiltSector (a : Nat) (d : Dev) : Dev :=
  let d := (d.onRegion (regionOfAddr a) fun x => { x with rebuilds := bump x.rebuilds }).retireLater a
  d.reportDie (stripeDie (stripeOf a) (channelOf a)) 0x6007 [addr64 a, 0, 0, 0, 0]

/-- A sector failed its read retries: rebuilt from mortar where its course has any and the rebuild succeeds, else lost. -/
def Dev.failedSector (a : Nat) (rebuilt : Bool) (d : Dev) : Dev :=
  if rebuilt && d.rebuildable (stripeOf a) (pageOf a) then d.rebuiltSector a else d.lostSector a 1

/-- Address of sector `i` of a record. -/
def Dev.sectorAddr (d : Dev) (a i : Nat) : Nat :=
  let st := d.stripe (stripeOf a)
  st.addrAt d.geom (stripeOf a) (st.placeOf d.geom a + i)

/-- A record of a relocating stripe that must be copied, or one that a failure requires to be copied. -/
def Dev.wantsCopy (d : Dev) (a : Nat) : Bool :=
  !d.beingMoved a && ((d.store.toCopy.get? a).isSome ||
    ((d.stripe (stripeOf a)).state == .relocating && (d.liveOn (stripeOf a)).contains a))

/-- The record at an address as a relocation read gives it: from carts, or from media. -/
def Dev.readForCopy (d : Dev) (a : Nat) (rd : ReadBack) : Option Record :=
  match d.store.buf.get? a with
  | some b => some b.rec_
  | none =>
    if d.onFailedDie a (d.spanAt a) then none
    else match d.recordAt a, rd with
      | some x, .good => some x
      | some x, .corrupt m => some { x with payload := xorMask x.payload m }
      | _, _ => none

/-- Copies of region `r` can be made; while the flush programs, those that a failure requires (R209, R227). -/
def Dev.copying (d : Dev) (r a : Nat) : Bool :=
  d.tending r || (d.live && d.mediaOpen && d.pfail.flush == .programming && !d.fencedRegion r && (d.store.toCopy.get? a).isSome)

/-- Page reads that a copy makes of the blocks that hold the record (R214). -/
def Dev.countCopyReads (a : Nat) (d : Dev) : Dev :=
  let s := stripeOf a
  let st := d.stripe s
  let span := d.spanAt a
  Dev.each (st.coursesOf d.geom a span) (fun p d => Dev.each (st.data p) (fun c d =>
    let n := st.pagesOn d.geom a span p c
    d.when (n != 0) (Dev.countReads s c n)) d) d

/-- A copy of the record at `a`, or the failures that its sectors showed: those of `rd` could be neither decoded nor rebuilt. -/
def Dev.copyOrLose (a : Nat) (rd : ReadBack) (d : Dev) : Dev :=
  match d.readForCopy a rd with
  | some x => (d.copyRecord a x false).getD (d.padRelocation a)
  | none =>
    if d.onFailedDie a (d.spanAt a) then d
    else match rd with
      | .uncorrectable bad => Dev.each (if bad.isEmpty then [0] else bad) (fun i d => d.lostSector (d.sectorAddr a i) 1) d
      | _ => d.lostSector a 1

/-- RELOCATION_RECORD_COPY: read from carts, or from media. A sector that mortar rebuilds reads good; the rebuild itself is told by
PAGE_READ_COMPLETE (R213). A copy made while the flush programs fills its course at once (R227). -/
def execRelocationRecordCopy (region : RegionId) (address : Nat) (rd : ReadBack) (s : State) : Answer :=
  onDev (guarded (fun d => d.copying region.val address && regionOfAddr address == region.val && d.wantsCopy address) (fun d =>
    let d := (d.when (d.store.buf.get? address).isNone (Dev.countCopyReads address)).copyOrLose address rd
    d.when (d.pfail.flush != .none) (Dev.padCourses (frontOf region.val 2 (d.stripe (stripeOf address)).kept) 0))) s

/-- A durable checkpoint covers every record of a stripe, tombstones and superseded records among them (R187). -/
def Dev.coveredStripe (d : Dev) (s : Nat) : Bool :=
  d.nv.flash.all fun e => stripeOf e.1 != s || e.2.fmtgen != d.geom.fmtgen ||
    decide (e.2.rec_.wsn < (d.region (stripeRegion s)).replayWsn)

/-- Everything that the erase of a relocated stripe waits for (R187, R219). -/
def Dev.mayErase (d : Dev) (s : Nat) : Bool :=
  let st := d.stripe s
  st.state == .relocating && (d.liveOn s).isEmpty && d.coveredStripe s && !d.store.moves.any (fun m => stripeOf m.2.old == s) &&
    !d.store.toCopy.any (fun a => stripeOf a.1 == s) && decide (st.copyWsn < (d.region (stripeRegion s)).replayWsn) &&
    !d.pinned s

/-- RELOCATED_STRIPE_ERASE: `failed` are the members whose erase fails (R210). -/
def execRelocatedStripeErase (region : RegionId) (stripe : Nat) (failed : BitVec 16) (s : State) : Answer :=
  onDev (guarded (fun d => d.tending region.val && stripeRegion stripe == region.val && d.mayErase stripe) (fun d =>
    let st := d.stripe stripe
    let d := if st.raised then d
      else (Dev.each (channelsOf st.retireLater) (fun c d => d.retireBlock stripe c 3 st.egen) d).raiseEgen stripe
    let members := channelsOf (d.presentFor stripe (d.stripe stripe).egen)
    if !d.sealedAll (d.stripe stripe).epochGens || members.any fun c => (d.store.queues.get {} (stripeDie stripe c)).suspended then d
    else
      let d := Dev.each members (fun c d => if failed.getLsbD c then d.failErase stripe c else d.eraseBlock stripe c) d
      let d := d.onRegion region.val fun x =>
        if st.forRefresh then { x with refreshes := bump x.refreshes } else { x with gcStripes := bump x.gcStripes }
      if (channelsOf (d.presentFor stripe (d.stripe stripe).egen)).length < 12 then d.retireStripe stripe
      else d.onStripe stripe fun x => { state := .free, erased := true, egen := x.egen })) s

/-! ## Reading the media (R213 to R215, R434) -/

/-- A sector of a populated die within the formatted geometry (R171). -/
def Geometry.holds (g : Geometry) (die plane block page sector : Nat) : Bool :=
  g.populated (die / 256) (dieChannel die) && decide (die % 16 / 4 < g.ces) && decide (die % 4 < g.luns) && decide (plane < g.planes) &&
    decide (block < g.bpp) && decide (page < g.ppb) && decide (sector < g.spg)

/-- PAGE_READ_COMPLETE: a page read for a request ends, with what became of the sector. -/
def execPageReadComplete (die : DieId) (plane : Fin 4) (block page : Nat) (sector : Fin 16) (retried : Bool)
    (iterations : Nat) (decoded : SectorResult) (cls : ClassId) (s : State) : Answer :=
  onDev (guarded (fun d => d.live && d.store.geom.isSome && d.geom.holds die.val plane.val block page sector.val &&
      d.pfail.flush == .none) (fun d =>
    let r := die.val / 256
    let c := dieChannel die.val
    let s := r * 2 ^ 22 + die.val % 16 * 262144 + plane.val * 65536 + block
    let a := mkAddr s c page sector.val
    let d := (d.when (cls.val == 7) (Dev.suspendFor die.val)).countReads s c 1
    let bin := if retried || decoded != .good then 31 else min 30 iterations
    let d := d.onLife fun l => { l with
      ldpc := l.ldpc.update 0 (r * 32 + bin) bump
      dies := if retried then l.dies.update 0 (die.val * 4 + 3) bump else l.dies }
    if decoded = .good then d.when (retried || decide (12 < iterations)) (Dev.queueRefresh s)
    else d.failedSector a (decoded == .rebuilt))) s

/-- Stripes that patrol visits. -/
def Dev.patrolled (d : Dev) (r : Nat) : List Nat :=
  (d.store.stripes.filter fun e => stripeRegion e.1 == r && (e.2.state == .verified || e.2.state == .closedUnverified)).map Prod.fst

/-- The blocks of those stripes. -/
def Dev.patrolBlocks (d : Dev) (r : Nat) : List Nat :=
  (d.patrolled r).flatMap fun s => (channelsOf (d.stripe s).present).map fun c => s * 16 + c

/-- The four page groups that a visit reads: the first, the last written, two chosen at random (R215). -/
def Dev.patrolPages (d : Dev) (s c : Nat) : List Nat :=
  let n := max 1 (ceilDiv (d.stripe s).written ((d.stripe s).perCourse d.geom))
  [0, n - 1, Config.patrolPick (s * 16 + c) d.free % n, Config.patrolPick (s * 16 + c) (d.free + 1) % n]

/-- Sequence number of the oldest record of a stripe. -/
def Dev.oldestOn (d : Dev) (s : Nat) : Nat :=
  let w := (d.nv.flash.filter fun e => stripeOf e.1 == s).map fun e => e.2.rec_.wsn
  w.foldl min (w.headD 0)

/-- Length of a patrol interval in ms of powered time; 0 days act as 1 (R215). -/
def Region.patrolMs (x : Region) : Nat := max 1 x.patrolDays.toNat * 86400000

/-- An interval that has ended gives way to the next. -/
def Dev.patrolRound (r : Nat) (d : Dev) : Dev :=
  let x := d.region r
  d.when (decide (x.patrolStart + x.patrolMs ≤ d.chip.powerOnMs)) (Dev.onRegion r fun y =>
    { y with patrolled := [], patrolStart := d.chip.powerOnMs })

/-- The block comes next: on the stripe of the oldest data that has a block left; by the wake patrol's list while it runs
(R215, R216). -/
def Dev.patrolNext (d : Dev) (r s c : Nat) : Bool :=
  let x := d.region r
  let left := (d.patrolBlocks r).filter fun b => !x.patrolled.contains b
  left.contains (s * 16 + c) &&
    (if x.wake then (x.wakeLeft.find? fun w => left.any fun b => b / 16 == w) == some s
     else left.all fun b => decide (d.oldestOn s ≤ d.oldestOn (b / 16)))

/-- Its time has come: the visits of an interval are spread evenly over it. A wake patrol waits for nothing. -/
def Dev.patrolDue (d : Dev) (r : Nat) : Bool :=
  let x := d.region r
  x.wake || decide (x.patrolled.length * x.patrolMs ≤ (d.chip.powerOnMs - x.patrolStart) * (d.patrolBlocks r).length)

/-- A visit is over: the interval's list, and the wake patrol's (R215, R216). -/
def Dev.patrolDone (r s c : Nat) (d : Dev) : Dev :=
  let x := d.region r
  let seen := (s * 16 + c) :: x.patrolled
  let all := d.patrolBlocks r
  let left := x.wakeLeft.filter fun w => all.any fun b => b / 16 == w && !seen.contains b
  let d := d.onRegion r fun y => { y with patrolled := seen, wakeLeft := left }
  if x.wake && left.isEmpty then
    (d.onRegion r fun y => { y with wake := false }).reportRegion r 0x600A [3, x.offTime, 0, 0, 0]
  else d

/-- What a page group showed: sectors rebuilt, and sectors lost. -/
def Dev.patrolFound (s c page : Nat) (x : PageFound) (d : Dev) : Dev :=
  let d := Dev.each x.rebuilt (fun i d => d.failedSector (mkAddr s c page i) true) d
  Dev.each x.lost (fun i d => d.failedSector (mkAddr s c page i) false) d

/-- PATROL_VISIT: `found` is what the four page groups give; `hard`, that a sector of them needed a read retry or more than 12
iterations. -/
def execPatrolVisit (region : RegionId) (stripe : Nat) (channel : Fin 16) (found : List PageFound) (hard : Bool) (s : State) :
    Answer :=
  onDev (guarded (fun d => d.tending region.val && (d.patrolRound region.val).patrolNext region.val stripe channel.val &&
      (d.patrolRound region.val).patrolDue region.val) (fun d =>
    let c := channel.val
    let d := d.patrolRound region.val
    let pages := d.patrolPages stripe c
    let d := { d with free := d.free + 2 }
    let d := d.countReads stripe c (4 * d.geom.bpc)
    let d := Dev.each (List.range 4) (fun i => Dev.patrolFound stripe c (pages.getD i 0) (found.getD i {})) d
    (d.when hard (Dev.queueRefresh stripe)).patrolDone region.val stripe c)) s

/-! ## Blocks that fail (R16) -/

/-- BLOCK_CANNOT_BE_REPAIRED. -/
def execBlockCannotBeRepaired (region : RegionId) (block : UnrepairableBlock) (s : State) : Answer :=
  whenLive (fun d =>
    let r := region.val
    match block with
    | .nandChannel c => (d.failChannel r c.val).reportBlock r (8 + c.val) 0
    | .mac m =>
      let m := r * 8 + m.val
      if (d.mac m).fenced then d
      else ((d.linkDown m .disabled).onMac m fun c => { c with fenced := true }).reportBlock r (31 + m % 8) 0
    | .recorder =>
      if (d.recorder r).fenced then d else (d.onRecorder r fun q => { q with fenced := true }).reportBlock r 47 0) s

/-! ## The end of a region fence (R17 steps 3 and 4, R246) -/

/-- Carts of the region that can be read are programmed. -/
def Dev.programCarts (r : Nat) (d : Dev) : Dev :=
  let mine := d.store.buf.filter fun e => regionOfAddr e.1 == r && decide (e.2.rec_.stream < 2) && e.2.phase == .buffered && !e.2.lost
  let put (t : Tab FlashRec) (e : Nat × BufRec) : Tab FlashRec :=
    t.set e.1 { rec_ := e.2.rec_, have_ := e.2.rec_.span, fmtgen := d.geom.fmtgen }
  let mark (a : Nat) (b : BufRec) : BufRec :=
    if regionOfAddr a = r && b.rec_.stream < 2 && b.phase == .buffered && !b.lost then { b with phase := .programmed } else b
  let d := d.onNv fun n => { n with flash := mine.foldl put n.flash }
  let d := d.onRegion r fun x => { x with sectorsWritten := satAdd x.sectorsWritten (mine.map fun e => e.2.rec_.span).sum }
  (d.onStore fun x => { x with buf := x.buf.mapVals mark }).unitsProgrammed

/-- Keys of the region whose acknowledged record is lost: namespace, fingerprint, version. -/
def Dev.lostKeys (d : Dev) (r : Nat) : List (Nat × Nat × Nat) :=
  (d.store.dir.filter fun u => u.1 / 24576 == r && u.2.rec_ == 1 &&
    u.2.addrs.any fun a => ((d.store.buf.get? a).map (·.lost)).getD false).map fun u => (u.2.ns.toNat, u.2.fp, u.2.version)

/-- REGION_FENCE_COMPLETE: with `stepsOk.stepsOk` false the fence cannot complete its steps, which is FS_FENCE. -/
def execRegionFenceComplete (region : RegionId) (stepsOk : FenceEnd) (s : State) : Answer :=
  whenLive (fun d =>
    let r := region.val
    if !d.chip.fencing.getLsbD r then d
    else
      let d := d.onChip fun c => { c with fencing := setBit c.fencing r false }
      if !stepsOk.stepsOk then d.enterFailsafe fsFence (BitVec.ofNat 8 r)
      else
        let d := if d.store.geom.isSome then (d.programCarts r).writeKeystone stepsOk.keystone r else d
        Dev.each (d.lostKeys r) (fun k d => d.reportRegion r 0x1005 [k.1, k.2.1, k.2.2, 0, 0]) d) s

end Sys2Proof.Machine
end

