-- ==== Sys2Proof/Machine/Keys.lean ====
section
/-!
DEFINITION. Machine/Keys.lean: key slots, owners, rekey, the unwrap unit and its lock, DRBG reseeding (chapter 12).
-/
namespace Sys2Proof.Machine

/-! ## Privileged instructions that change the device (R108, R413) -/

/-- Instruction `op` acts on the device: not in the recovery state of cause 1, not in the fail-safe state. -/
def runActing (ctx : CtxId) (op : Nat) (f : Nat → Coach → Fields → Dev → Dev) (s : State) : Answer :=
  runInstr ctx (·.op == op) (accepted (acting (noted f))) s

/-- The coach waits until its change is sealed in every region that is not fenced; gd then receives `result` (R117, R362). -/
def Dev.awaitSeals (i : Nat) (result : W64) (d : Dev) : Dev :=
  let gens := d.sealsWanted
  d.onCoach i fun c => { c with wait := .seals gens, result := result }

/-- The seals a coach waits for are durable. -/
def Dev.sealsReached (d : Dev) (c : Coach) : Bool :=
  match c.wait with
  | .seals gens => d.sealedAll gens
  | _ => false

/-- A coach in a context whose instruction `op` waits for seals that are durable now. -/
def Dev.sealedCoach (d : Dev) (ctx op : Nat) : Option (Nat × Coach) :=
  match d.coachIn ctx with
  | none => none
  | some (i, c) => if d.pathRuns c.privileged && c.current.op == op && d.sealsReached c then some (i, c) else none

/-! ## The unwrap lock (R364) -/

/-- Owner code of a requester. -/
def lockCode : Requester → BitVec 3
  | .pf0 => 0
  | .pf1 => 6
  | .engine e => BitVec.ofNat 3 (e.val + 1)
  | .firmware => 5

/-- Owner code of the management engine of a context. -/
def engineCode (ctx : Nat) : BitVec 3 := BitVec.ofNat 3 (clusterOf ctx - 63)

/-- A KSLOT of the management engine that owns the lock has not completed. -/
def Dev.kslotRunning (d : Dev) : Bool :=
  d.eng.coaches.any fun e => match e.2.ctx with
    | some x => e.2.current.op == 0x44 && (match e.2.wait with | .seals _ => true | _ => false) && engineCode x == d.keys.lockOwner
    | none => false

/-- A write of 1 to acquire. -/
def Dev.acquireLock (by_ : Requester) (d : Dev) : Dev :=
  d.onKeys fun k => if k.lockOwner = 0 then { k with lockOwner := lockCode by_, lockTick := d.chip.tick } else k

/-- A write of 1 to release. -/
def Dev.releaseLock (by_ : Requester) : Dev → Dev :=
  Dev.onKeys fun k => if k.lockOwner = lockCode by_ then { k with lockOwner := 0 } else k

/-- UNWRAP_LOCK_ACQUIRE. -/
def execUnwrapLockAcquire (by_ : Requester) (s : State) : Answer := whenLive (byManagement by_ (Dev.acquireLock by_)) s

/-- UNWRAP_LOCK_RELEASE. -/
def execUnwrapLockRelease (by_ : Requester) (s : State) : Answer := whenLive (byManagement by_ (Dev.releaseLock by_)) s

/-- UNWRAP_LOCK_TIMEOUT: 100 ms with no operation running; a KSLOT that has not completed is one. DEDUCED (log entry 22). -/
def execUnwrapLockTimeout (s : State) : Answer :=
  whenLive (guarded (fun d => d.keys.lockOwner != 0 && decide (d.keys.lockTick + 100 ≤ d.chip.tick) && !d.keys.unwrapBusy &&
      !d.kslotRunning) (fun d =>
    let owner := d.keys.lockOwner.toNat
    (d.onKeys fun k => { k with lockOwner := 0, lockTimeouts := bump k.lockTimeouts }).report 8 8 0 0xC008 [owner, 0, 0, 0, 0])) s

/-! ## KSLOT: checks (R359 to R361) -/

/-- The blob of a kind at gb; none where it is not present or its magic, kind or reserved bytes are wrong. -/
def Coach.keyBlob (c : Coach) (w : Fields) (kind len : Nat) (ok : Bytes → Bool) : Option Bytes :=
  let off := c.run.num w.b
  if !inArea c.inbound off len then none
  else
    let b := slice c.inbound off len
    if b.take 4 == [0x53, 0x4B, 0x4B, 0x42] && leAt b 4 1 == kind && ok b then some b else none

/-- A data-key blob: owner and wrapped key. -/
def Coach.dataBlob (c : Coach) (w : Fields) : Option (Nat × Bytes) :=
  (c.keyBlob w 1 64 fun b => decide (leAt b 5 1 < 16) && zeroRange b 6 2 && zeroRange b 48 16).map fun b =>
    (leAt b 5 1, slice b 8 40)

/-- An enrolment blob: ephemeral public key and wrapped KEK. -/
def Coach.ownerBlob (c : Coach) (w : Fields) : Option (Bytes × Bytes) :=
  (c.keyBlob w 2 192 fun b => zeroRange b 5 3 && zeroRange b 144 48).map fun b => (slice b 8 96, slice b 104 40)

/-- ga names an owner entry. -/
def isOwnerTarget (t : Nat) : Bool := decide (8192 ≤ t ∧ t < 8208)

/-- Owner entry `o`. -/
def Dev.owner (d : Dev) (o : Nat) : OwnerEntry := d.keys.table.owners.get {} o

/-- Change owner entry `o`. -/
def Dev.onOwner (o : Nat) (f : OwnerEntry → OwnerEntry) : Dev → Dev :=
  Dev.onKeys fun k => { k with table := { k.table with owners := k.table.owners.update {} o f } }

/-- A slot names an owner: as the owner of its current key, or of its previous one while it rekeys. DEDUCED (log entry 22). -/
def Dev.ownerNamed (d : Dev) (o : Nat) : Bool :=
  d.keys.table.slots.any fun e => e.2.state != .empty && (e.2.owner == o || (e.2.state == .rekeying && e.2.prevOwner == o))

/-- The lock cannot be taken for a KSLOT: another user holds it (check 2). -/
def Dev.lockRefused (d : Dev) (ctx : Nat) : Bool :=
  d.keys.lockOwner != 0 && (d.keys.lockOwner != engineCode ctx || d.kslotRunning)

/-- KSLOT takes the lock for its engine. -/
def Dev.takeLock (ctx : Nat) (d : Dev) : Dev :=
  d.onKeys fun k => { k with lockOwner := engineCode ctx, lockTick := d.chip.tick }

/-- An unwrap operation ends with a status (R379, 0xC007): op 1 slot load or rekey, 2 enrolment, 3 start-up, 4 token key,
5 microcode key. -/
def Dev.unwrapDone (op target : Nat) (st : Byte) (d : Dev) : Dev :=
  let d := d.onKeys fun k => { k with
    unwraps := bump k.unwraps, unwrapResult := st, unwrapFails := if st = stOk then k.unwrapFails else bump k.unwrapFails }
  if st = stOk then d else d.report 8 8 0 0xC007 [op, target, 0, 0, 0]

/-- The KEK of an owner, unwrapped under the device root key. -/
def Dev.ownerKek (d : Dev) (o : Nat) : Option Bytes :=
  (d.keys.root.bind fun root => keyUnwrap root (d.owner o).kek).filter fun k => k.length == 32

/-- A wrapped data key of an owner. -/
def Dev.openKey (d : Dev) (o : Nat) (wrapped : Bytes) : Option Bytes :=
  ((d.ownerKek o).bind fun kek => keyUnwrap kek wrapped).filter fun k => k.length == 32

/-- The context a coach runs in. -/
def Coach.context (c : Coach) : Nat := c.ctx.getD 0

/-! ## KSLOT: operations (R358, R360, R362, R363) -/

/-- The generation that the next load or rekey of a slot gives it (R358). -/
def Dev.nextGen (d : Dev) (slot : Nat) : W32 := BitVec.ofNat 32 (d.geom.fmtgen * 65536 + (d.slot slot).loads + 1)

/-- The lowest EMPTY slot. -/
def Dev.emptySlot (d : Dev) : Option Nat := findNat 4096 fun n => (d.slot n).state == .empty

/-- A data key is loaded into an EMPTY slot. -/
def Dev.loadSlot (n owner : Nat) (wrapped key : Bytes) (d : Dev) : Dev :=
  let gen := d.nextGen n
  let d := d.onSlot n fun s => { state := .loaded, owner := owner, loads := s.loads + 1, gen := gen, limit := 0, key := wrapped }
  let d := d.onKeys fun k => { k with store := k.store.set n key, storeFault := k.storeFault.filter (· != n) }
  d.report 8 8 0 0xC001 [n, gen.toNat, owner, 0, 0]

/-- KSLOT load of a slot. -/
def kslotLoadEffect (i : Nat) (c : Coach) (w : Fields) (d : Dev) : Dev :=
  let t := c.run.num w.a
  let legal := decide (t ≤ 4096) && (t == 4096 || (d.slot t).state == .empty)
  match c.dataBlob w with
  | none => d.fail i stIllegalValue
  | some (o, wrapped) =>
    if !legal || !(d.owner o).enrolled then d.fail i stIllegalValue
    else if d.lockRefused c.context then d.fail i stBusy
    else match (if t = 4096 then d.emptySlot else some t) with
      | none => d.fail i stKeySlotExhausted
      | some n =>
        if 65535 < (d.slot n).loads + 1 then d.fail i stKeySlotExhausted
        else match d.openKey o wrapped with
          | none => (d.unwrapDone 1 n stIntegrityFailed).fail i stIntegrityFailed
          | some key => (((d.takeLock c.context).unwrapDone 1 n stOk).loadSlot n o wrapped key).awaitSeals i (BitVec.ofNat 64 n)

/-- KSLOT_LOAD. -/
def execKslotLoad (ctx : CtxId) (s : State) : Answer :=
  runActing ctx 0x44 (fun i c w d => if w.m = 0 ∧ isOwnerTarget (c.run.num w.a) = false then kslotLoadEffect i c w d else d) s

/-- An owner entry is filled. -/
def Dev.enrol (o : Nat) (root kek : Bytes) (d : Dev) : Dev :=
  let kcv := (aesBlock kek (zeros 16)).take 8
  (d.onOwner o fun _ => { enrolled := true, kek := keyWrap root kek, kcv := kcv }).report 8 8 0 0xC006 [o, 1, leNat kcv, 0, 0]

/-- The KEK that an enrolment blob brings, unwrapped with the device private key; none where its point or its wrapped key is
bad. -/
def Dev.enrolledKek (fu : Fuses) (pub wrapped : Bytes) (d : Dev) : Option Bytes :=
  let q := pointOf pub
  if onP384 q && d.keys.privateHeld then
    ((enrolmentKey "SKV9640-ENROL" (Config.devicePrivateKey fu.secret) q fu.deviceId).bind fun e => keyUnwrap e wrapped).filter
      fun k => k.length == 32
  else none

/-- KSLOT load of an owner entry. -/
def kslotEnrolEffect (fu : Fuses) (i : Nat) (c : Coach) (w : Fields) (d : Dev) : Dev :=
  let o := c.run.num w.a - 8192
  match c.ownerBlob w with
  | none => d.fail i stIllegalValue
  | some (pub, wrapped) =>
    if (d.owner o).enrolled then d.fail i stIllegalValue
    else if d.lockRefused c.context then d.fail i stBusy
    else match d.enrolledKek fu pub wrapped, d.keys.root with
      | some kek, some root =>
        (((d.takeLock c.context).unwrapDone 2 o stOk).enrol o root kek).awaitSeals i
          (BitVec.ofNat 64 (leNat ((aesBlock kek (zeros 16)).take 8)))
      | _, _ => (d.unwrapDone 2 o stIntegrityFailed).fail i stIntegrityFailed

/-- KSLOT_ENROL_OWNER. -/
def execKslotEnrolOwner (ctx : CtxId) (s : State) : Answer :=
  runActing ctx 0x44 (fun i c w d =>
    if w.m = 0 ∧ isOwnerTarget (c.run.num w.a) = true then kslotEnrolEffect s.fuses i c w d else d) s

/-- A slot's keys are erased at once; a rekey walk of it ends (R360, R362). -/
def Dev.clearSlot (n : Nat) (d : Dev) : Dev :=
  let gen := (d.slot n).gen
  let d := d.onSlot n fun s => { state := .empty, owner := s.owner, loads := s.loads, gen := s.gen, limit := s.limit }
  let d := d.onKeys fun k => { k with
    store := k.store.erase n, prevStore := k.prevStore.erase n, storeFault := k.storeFault.filter (· != n)
    rekey := if k.rekey.slot = n then { k.rekey with running := false } else k.rekey }
  d.report 8 8 0 0xC002 [n, gen.toNat, 0, 0, 0]

/-- KSLOT clear of a slot. -/
def kslotClearEffect (i : Nat) (c : Coach) (w : Fields) (d : Dev) : Dev :=
  let t := c.run.num w.a
  if 4096 ≤ t ∨ (d.slot t).state = .empty then d.fail i stIllegalValue
  else if d.lockRefused c.context then d.fail i stBusy
  else ((d.takeLock c.context).clearSlot t).awaitSeals i 0

/-- KSLOT_CLEAR. -/
def execKslotClear (ctx : CtxId) (s : State) : Answer :=
  runActing ctx 0x44 (fun i c w d => if w.m = 1 ∧ isOwnerTarget (c.run.num w.a) = false then kslotClearEffect i c w d else d) s

/-- KSLOT clear of an owner entry. -/
def kslotClearOwnerEffect (i : Nat) (c : Coach) (w : Fields) (d : Dev) : Dev :=
  let o := c.run.num w.a - 8192
  if !(d.owner o).enrolled || d.ownerNamed o then d.fail i stIllegalValue
  else if d.lockRefused c.context then d.fail i stBusy
  else
    let kcv := leNat (d.owner o).kcv
    (((d.takeLock c.context).onOwner o fun _ => {}).report 8 8 0 0xC006 [o, 2, kcv, 0, 0]).awaitSeals i 0

/-- KSLOT_CLEAR_OWNER. -/
def execKslotClearOwner (ctx : CtxId) (s : State) : Answer :=
  runActing ctx 0x44 (fun i c w d =>
    if w.m = 1 ∧ isOwnerTarget (c.run.num w.a) = true then kslotClearOwnerEffect i c w d else d) s

/-- A slot takes a new key; the current one becomes prev_key (R363). -/
def Dev.startRekey (n owner : Nat) (wrapped key : Bytes) (d : Dev) : Dev :=
  let old := d.slot n
  let gen := d.nextGen n
  let d := d.onSlot n fun s =>
    { state := .rekeying, owner := owner, loads := s.loads + 1, gen := gen, limit := 0, key := wrapped
      prevKey := s.key, prevGen := s.gen, prevOwner := s.owner }
  let prev := d.keys.store.get? n
  let d := d.onKeys fun k => { k with
    prevStore := match prev with
      | some p => k.prevStore.set n p
      | none => k.prevStore.erase n
    store := k.store.set n key
    storeFault := k.storeFault.filter (· != n) }
  let gens := d.sealsWanted
  let d := d.onKeys fun k => { k with rekey := { slot := n, running := true, started := gens, gens := gens } }
  d.report 8 8 0 0xC003 [n, gen.toNat, old.gen.toNat, 0, 0]

/-- KSLOT rekey. -/
def kslotRekeyEffect (i : Nat) (c : Coach) (w : Fields) (d : Dev) : Dev :=
  let t := c.run.num w.a
  let st := (d.slot t).state
  match c.dataBlob w with
  | none => d.fail i stIllegalValue
  | some (o, wrapped) =>
    if !(decide (t < 4096) && (st == .loaded || st == .exhausted)) || !(d.owner o).enrolled then d.fail i stIllegalValue
    else if d.lockRefused c.context || d.keys.rekey.running then d.fail i stBusy
    else if 65535 < (d.slot t).loads + 1 then d.fail i stKeySlotExhausted
    else match d.openKey o wrapped with
      | none => (d.unwrapDone 1 t stIntegrityFailed).fail i stIntegrityFailed
      | some key =>
        let gen := d.nextGen t
        (((d.takeLock c.context).unwrapDone 1 t stOk).startRekey t o wrapped key).awaitSeals i (gen.setWidth 64)

/-- KSLOT_REKEY. -/
def execKslotRekey (ctx : CtxId) (s : State) : Answer :=
  runActing ctx 0x44 (fun i c w d => if w.m = 2 then kslotRekeyEffect i c w d else d) s

/-- KSLOT_COMPLETE: the change is sealed in every region; the lock is released. -/
def execKslotComplete (ctx : CtxId) (s : State) : Answer :=
  onDev (fun d => match d.sealedCoach ctx.val 0x44 with
    | none => d
    | some (i, c) =>
      let d := d.endWith i stOk (Run.setReg c.current.d c.result)
      d.onKeys fun k => if k.lockOwner = engineCode ctx.val then { k with lockOwner := 0 } else k) s

/-! ## The rekey walk (R363) -/

/-- A valid entry of region `r` names the address. -/
def Dev.entryNames (d : Dev) (r a : Nat) : Bool := regionOfAddr a == r && d.isLive a

/-- The record of an entry is still under the previous generation of the slot that rekeys. -/
def Dev.underPrev (d : Dev) (a : Nat) : Bool :=
  match d.recordAt a with
  | some x => x.keySlot == d.keys.rekey.slot && x.slotGen == (d.slot d.keys.rekey.slot).prevGen
  | none => false

/-- The walk of region `r` has finished: what remains under the previous generation has failed. -/
def Dev.rekeyRegionDone (d : Dev) (r : Nat) : Bool :=
  (d.liveAddrs r).all fun a => !d.underPrev a || d.keys.rekey.failedAt.contains a

/-- Change what the walk keeps. -/
def Dev.onRekey (f : Rekey → Rekey) : Dev → Dev := Dev.onKeys fun k => { k with rekey := f k.rekey }

/-- An entry is counted the first time the walk visits it. -/
def Dev.visitEntry (a : Nat) : Dev → Dev := Dev.onRekey fun k =>
  if k.visited.contains a then k else { k with scanned := bump k.scanned, visited := a :: k.visited }

/-- The region bits of the walk (KEY_REKEY_STATUS.regions_done). -/
def Dev.rekeyRegions (d : Dev) : BitVec 8 := regionMask (d.openRegions.filter d.rekeyRegionDone)

/-- A record that the walk leaves as it is. -/
def Dev.rekeyFails (a : Nat) (x : SegRead) (d : Dev) : Dev :=
  let r := (d.recordAt a).getD {}
  let home := d.homeOf r.ns r.key
  let f := d.segFp r.ns r.key r.segIndex
  let d := d.noteTags 3 (if r.segIndex = 0 then home else regionOfAddr a) r.ns f a [x]
  let gens := d.sealsWanted
  d.onRekey fun k => { k with
    failed := if x.tagFailed then bump k.failed else k.failed, failedAt := a :: k.failedAt, gens := gens }

/-- A record re-encrypted under the new key, to the relocation stream. -/
def Dev.rekeyCopy (a : Nat) (x : Record) (plain : Bytes) (d : Dev) : Dev :=
  let slot := d.keys.rekey.slot
  match d.nextCounter (d.homeOf x.ns x.key) slot with
  | .waits => d
  | .exhausted d => d
  | .value iv d' =>
    let y := { x with slotGen := (d'.slot slot).gen, ivCounter := iv }
    let sealed := gcmSeal ((d'.keys.store.get? slot).getD []) y.iv y.header plain
    match d'.copyRecord a { y with payload := sealed.1, tag := sealed.2 } true with
    | none => d.padRelocation a
    | some d' => (d'.onRekey fun k => { k with copied := bump k.copied }).countLane (regionOfAddr a) (2 * plain.length) 0

/-- REKEY_RECORD_COPY: the walk visits one entry of a region. -/
def execRekeyRecordCopy (region : RegionId) (address : Nat) (rd : ReadBack) (s : State) : Answer :=
  onDev (guarded (fun d => d.tending region.val && d.keys.rekey.running && d.sealedAll d.keys.rekey.started &&
      d.entryNames region.val address && !d.beingMoved address) (fun d =>
    let d := d.visitEntry address
    if !d.underPrev address || d.keys.rekey.failedAt.contains address then d
    else
      let x := d.readSegment address rd
      if x.st != stOk then d.rekeyFails address x
      else d.rekeyCopy address ((d.recordAt address).getD {}) x.data)) s

/-- REKEY_WALK_DONE. -/
def execRekeyWalkDone (s : State) : Answer :=
  whenLive (guarded (fun d => d.keys.rekey.running && d.sealedAll d.keys.rekey.started && d.openRegions.all d.rekeyRegionDone &&
      !d.store.moves.any (fun m => m.2.rekey) && d.sealedAll d.keys.rekey.gens) (fun d =>
    let n := d.keys.rekey.slot
    let d := d.onSlot n fun s => { s with
      state := if s.state = .rekeying then .loaded else s.state, prevKey := [], prevGen := 0, prevOwner := 0 }
    let done := d.rekeyRegions
    let d := d.onKeys fun k => { k with prevStore := k.prevStore.erase n, rekey := { k.rekey with running := false, regionsDone := done } }
    d.report 8 8 0 0xC004 [n, (d.slot n).gen.toNat, d.keys.rekey.copied, d.keys.rekey.failed, 0])) s

/-! ## Alarms from the entropy source (R375, R376) -/

/-- The regions' DRBGs are reseeded; a reseed that cannot complete is an entropy health alarm. -/
def execDrbgReseed (ok : Bool) (lowestMv highestMc : W64) (s : State) : Answer :=
  if ok then
    whenLive (guarded (fun d => d.keys.entropyPassed) (fun d =>
      let n := d.openRegions.length
      d.onKeys fun k => { k with reseeds := satAdd k.reseeds n, seeded := k.seeded ||| regionMask d.openRegions })) s
  else onDev (guarded Dev.running (Dev.alarm .entropy lowestMv highestMc)) s

end Sys2Proof.Machine
end

