-- ==== Sys2Proof/Machine/Names.lean ====
section
/-!
DEFINITION. Machine/Names.lean: namespaces: NSDEF, the removal walk, token generations (R113 to R118, R138, R139).
-/
namespace Sys2Proof.Machine

/-! ## The descriptor (R114) -/

/-- The descriptor at gb; none where it is not present or a field is outside its legal values. -/
def Coach.nsDescriptor (c : Coach) (w : Fields) : Option NsDescriptor :=
  let off := c.run.num w.b
  if !inArea c.inbound off 64 then none
  else
    let b := slice c.inbound off 64
    let n : NsDescriptor :=
      { keySlot := leAt b 0 2, fixity := leAt b 2 1, groupPrefix := leAt b 3 1, durability := leAt b 4 1
        ceiling := leAt b 5 1, options := leAt b 6 1, quota := leAt b 8 8 }
    let ok := (decide (n.keySlot < 4096) || n.keySlot == 0xFFFF) && decide (n.fixity ≤ 2) &&
      decide (1 ≤ n.durability ∧ n.durability ≤ 3) && decide (n.ceiling ≤ 7) && decide (n.options < 8) &&
      zeroRange b 7 1 && zeroRange b 16 48
    if ok then some n else none

/-- A key slot holds a key; none is needed for plaintext. -/
def Dev.slotHoldsKey (d : Dev) (slot : Nat) : Bool :=
  slot == 0xFFFF || ((d.slot slot).state != .empty && (d.keys.store.get? slot).isSome)

/-! ## NSDEF (R115 to R118) -/

/-- Another coach creates the namespace. -/
def Dev.creating (d : Dev) (i n : Nat) : Bool := d.store.nsChanges.any fun e => e.1 != i && e.2.create && e.2.nsid == n

/-- A change of coach `i` is accepted: the next seal of every region holds it, and it takes effect once they are durable (R48,
R117). -/
def Dev.noteChange (i : Nat) (x : NsChange) (d : Dev) : Dev :=
  d.onStore fun s => { s with nsChanges := s.nsChanges.set i { x with gens := d.sealsWanted } }

/-- NSDEF create. -/
def nsdefCreateEffect (i : Nat) (c : Coach) (w : Fields) (d : Dev) : Dev :=
  let n := c.run.num w.a
  match c.nsDescriptor w with
  | none => d.fail i stIllegalValue
  | some x =>
    if decide (4 ≤ x.options) || n == 0 || decide (65536 ≤ n) || (d.ns n).state != .free || d.creating i n then d.fail i stIllegalValue
    else if !d.slotHoldsKey x.keySlot then d.fail i stKeySlotEmpty
    else (d.noteChange i { nsid := n, create := true, desc := x }).awaitSeals i 0

/-- NSDEF_CREATE. -/
def execNsdefCreate (ctx : CtxId) (s : State) : Answer :=
  runActing ctx 0x45 (fun i c w d => if w.m = 0 then nsdefCreateEffect i c w d else d) s

/-- NSDEF modify. -/
def nsdefModifyEffect (i : Nat) (c : Coach) (w : Fields) (d : Dev) : Dev :=
  let n := c.run.num w.a
  let old := d.ns n
  match c.nsDescriptor w with
  | none => d.fail i stIllegalValue
  | some x =>
    if decide (65536 ≤ n) || old.state != .active then d.fail i stIllegalValue
    else if x.groupPrefix ≠ old.groupPrefix ∧ 0 < old.liveKeys then d.fail i stIllegalValue
    else if x.keySlot ≠ old.keySlot ∧ d.slotHoldsKey x.keySlot = false then d.fail i stKeySlotEmpty
    else (d.noteChange i { nsid := n, create := false, retire := decide (4 ≤ x.options), desc := x }).awaitSeals i 0

/-- NSDEF_MODIFY. -/
def execNsdefModify (ctx : CtxId) (s : State) : Answer :=
  runActing ctx 0x45 (fun i c w d => if w.m = 1 then nsdefModifyEffect i c w d else d) s

/-- NSDEF remove: the namespace becomes REMOVING, and the coach waits for the others that loaded it. -/
def nsdefRemoveEffect (i : Nat) (c : Coach) (w : Fields) (d : Dev) : Dev :=
  let n := c.run.num w.a
  if decide (65536 ≤ n) || (d.ns n).state != .active then d.fail i stIllegalValue
  else
    let d := d.setNsState n .removing
    let gens := d.sealsWanted
    let d := d.onStore fun x => { x with removals := x.removals.set n { remover := some i, started := gens } }
    d.waitFor i (.coaches (BitVec.ofNat 16 n))

/-- NSDEF_REMOVE. -/
def execNsdefRemove (ctx : CtxId) (s : State) : Answer :=
  runActing ctx 0x45 (fun i c w d => if w.m = 2 then nsdefRemoveEffect i c w d else d) s

/-- No coach but the remover that loaded a namespace is still executing, and its removal is sealed (R118 steps 2 and 3). -/
def Dev.removalStarted (d : Dev) (n : Nat) : Bool :=
  let x := d.store.removals.get {} n
  d.sealedAll x.started && !d.eng.coaches.any fun e =>
    (e.2.stage == .running || (e.2.stage == .admitted && e.2.saved.isSome)) && some e.1 != x.remover &&
      e.2.loaded.contains (BitVec.ofNat 16 n)

/-- NSDEF_COMPLETE: a create or modify takes effect here. A change of the group prefix that meets keys written since then fails
as R116 says of one that meets them before. DEDUCED (log entry 38). -/
def execNsdefComplete (ctx : CtxId) (s : State) : Answer :=
  onDev (fun d => match d.coachIn ctx.val with
    | none => d
    | some (i, c) =>
      let ready := match c.wait with
        | .seals gens => d.sealedAll gens
        | .coaches n => d.removalStarted n.toNat
        | _ => false
      if d.pathRuns c.privileged && c.current.op == 0x45 && ready then
        (d.applyChange i).endWith i (if (d.store.nsChanges.get? i).any d.changeFails then stIllegalValue else stOk) id
      else d) s

/-! ## Removal (R118 steps 4 and 5) -/

/-- A chain without the entries of a namespace, and the addresses they named. -/
def Chain.without (n : Nat) (c : Chain) : Chain × List Nat :=
  let mine (o : Option IndexEntry) : Bool := match o with
    | some e => fpNs e.fp == n
    | none => false
  (Chain.trim 7 { c with slots := c.slots.map fun o => if mine o then none else o },
    c.slots.filterMap fun o => if mine o then o.map (·.addr) else none)

/-- The entries and live bits of a namespace leave the index of a region. -/
def Region.without (n : Nat) (r : Region) : Region :=
  let gone := (r.chains.map fun e => (e.2.without n).2).flatten
  let chains := (Tab.mapVals (fun _ c => (c.without n).1) r.chains).filter fun e =>
    !(e.2.all.all Option.isNone && e.2.links.isEmpty)
  { r with chains := chains, live := r.live.filter fun a => !gone.contains a.1, cache := r.cache.filter fun a => !gone.contains a.1 }

/-- NAMESPACE_REMOVAL_WALK. -/
def execNamespaceRemovalWalk (region : RegionId) (nsid : W16) (s : State) : Answer :=
  onDev (guarded (fun d => d.tending region.val && (d.ns nsid.toNat).state == .removing && d.removalStarted nsid.toNat) (fun d =>
    let r := region.val
    let n := nsid.toNat
    let d := d.onRegion r (Region.without n)
    let gens := d.sealsWanted
    d.onStore fun x => { x with removals := x.removals.update {} n fun y =>
      { y with walked := setBit y.walked r true, gens := gens } })) s

/-- NAMESPACE_FREE: every region has walked, and the seals of those that are not fenced are durable (R118). -/
def execNamespaceFree (nsid : W16) (s : State) : Answer :=
  whenLive (guarded (fun d =>
      let x := d.store.removals.get {} nsid.toNat
      (d.ns nsid.toNat).state == .removing && d.removalStarted nsid.toNat && (List.range 8).all x.walked.getLsbD && d.sealedAll x.gens)
    (fun d =>
      let d := d.onStore fun x => { x with removals := x.removals.erase nsid.toNat }
      (d.onNs nsid.toNat fun x => { x with usage := 0, liveKeys := 0 }).setNsState nsid.toNat .free)) s

/-- TOKEN_GENERATION_WRAP: the count of a namespace would wrap on this tick. -/
def execTokenGenerationWrap (nsid : W16) (s : State) : Answer :=
  whenLive (guarded (fun d => (d.ns nsid.toNat).state == .active && decide (2 ^ 32 ≤ (d.ns nsid.toNat).tokenGen))
    (Dev.advanceEpoch 2 nsid.toNat)) s

end Sys2Proof.Machine
end

