-- ==== Sys2Proof/Machine/Assoc.lean ====
section
/-!
DEFINITION. Machine/Assoc.lean: the associative engine: banks, rows, searches, faults and repair, throttling, CAMOP (chapter
05).
-/
namespace Sys2Proof.Machine

/-! ## Rows of a bank (R128, R144 to R150) -/

/-- Context of the coach that holds a unit; 0xFFF for none. -/
def Dev.holderCtx (d : Dev) (u : DirUnit) : Nat := ((u.holder.bind d.coach?).bind (·.ctx)).getD 0xFFF

/-- Associated data of a directory unit. -/
def Dev.unitAssoc (d : Dev) (n : Nat) (u : DirUnit) : Nat :=
  (Config.dirDescriptor n u.fp).toNat + d.holderCtx u * 2 ^ 32 + u.rec_ * 2 ^ 44 + u.hold * 2 ^ 46

/-- An event of a bank. -/
def Dev.reportBank (b cell code : Nat) (params : List Nat) : Dev → Dev := Dev.report (bankRegion b) (bankBlock b) cell code params

/-! ## Upsets (R157, R159) -/

/-- An upset reaches a bank. A row held in a replacement register is not in the array. -/
def Bank.upset (b : Nat) (x : Bank) : Upset → Bank
  | .flip row mask =>
    if bankEntries b ≤ row ∨ x.replaced.contains row = true then x
    else
      let m := x.struck.get 0 row ^^^ (mask % 2 ^ (82 * bankWidth b))
      { x with struck := if m = 0 then x.struck.erase row else x.struck.set row m }
  | .shadow row => if bankEntries b ≤ row ∨ x.shadowBad.contains row = true then x else { x with shadowBad := row :: x.shadowBad }

/-- Upsets strike a bank before a command (log entry 36). -/
def Dev.strikeBank (b : Nat) (us : List Upset) (d : Dev) : Dev :=
  d.when (!us.isEmpty) (Dev.onBank b fun x => us.foldl (Bank.upset b) x)

/-! ## Faults and repair (R157 to R161) -/

/-- A bank fails: causes 1 fifth retirement, 2 shadow uncorrectable. Its region is fenced. -/
def Dev.failBank (b row cause : Nat) (d : Dev) : Dev :=
  if (d.bank b).failed then d
  else
    let d := (d.onBank b fun x => { x with failed := true }).reportBank b 0 0x5005 [row, cause, 0, 0, 0]
    d.fenceRegion (bankRegion b) 2

/-- A row is rewritten from its shadow; at a second fault within 1 s it is retired to a replacement register. -/
def Dev.repairRow (b row : Nat) (d : Dev) : Dev :=
  let x := d.bank b
  let now := d.chip.tick
  let whole := d.onBank b fun y => { y with struck := y.struck.erase row }
  if x.replaced.contains row then d
  else if ((x.rewritten.get? row).map fun t => decide (now < t + 1000)).getD false then
    if 4 ≤ x.replaced.length then whole.failBank b row 1
    else (whole.onBank b fun y => { y with replaced := y.replaced ++ [row] }).reportBank b 63 0x5004 [row, x.replaced.length, 0, 0, 0]
  else whole.onBank b fun y => { y with rewritten := y.rewritten.set row now }

/-- A lifetime false hit of a bank. -/
def Dev.countFalseHit (b : Nat) : Dev → Dev := Dev.onLife fun l => { l with falseHits := l.falseHits.update 0 b bump }

/-- A fault that a search of class `cls` met is repaired. -/
def Dev.meetFault (b cls : Nat) (f : ArrayFault) (d : Dev) : Dev :=
  match f with
  | .none => d
  | .falseHit row seen =>
    let d := d.onBank b fun x => { x with falseHits := bump x.falseHits }
    ((d.countFalseHit b).reportBank b 63 0x5001 [row, seen.toNat, (d.shadowRow b row).2 % 2 ^ 64, cls, 0]).repairRow b row
  | .parity row unit =>
    let d := d.onBank b fun x => { x with parityHits := bump x.parityHits }
    ((d.countFalseHit b).reportBank b 63 0x5002 [row, unit, 0, 0, 0]).repairRow b row
  | .shadowUncorrectable row => d.failBank b row 2

/-- The faults that a search meets are repaired one after the other, at most `n`, and the search repeated; true where it was. -/
def Dev.repairSearch (b key lo cls : Nat) : Nat → Bool × Dev → Bool × Dev
  | 0, s => s
  | n + 1, s =>
    match s.2.faultMet b key lo with
    | .none => s
    | .shadowUncorrectable row => (s.1, s.2.failBank b row 2)
    | f => Dev.repairSearch b key lo cls n (true, s.2.meetFault b cls f)

/-- A search of the rows at or above `lo` of a bank, with its repairs. -/
def Dev.searchBank (b key lo cls : Nat) (d : Dev) : Bool × Dev :=
  Dev.repairSearch b key lo cls ((d.bank b).struck.length + 1) (false, d)

/-- ASSOC_SEARCH: upsets strike a bank, and it serves a search. One that meets no fault is counted here and leaves its result
word. One that meets a fault is the first pass of a search that a coach, a frame or CAMOP makes: the fault is repaired, the
word of the repeated search left, and the repeat is counted by the row that makes it (log entry 36). -/
def execAssocSearch (bank : BankId) (key : BitVec 160) (cls : Option ClassId) (upsets : List Upset) (s : State) : Answer :=
  whenLive (fun d =>
    let b := bank.val
    let c := (cls.map Fin.val).getD 8
    let k := if isClassBank b then key.toNat else key.toNat % 2 ^ 80
    if d.fencedRegion (bankRegion b) then d
    else
      let d := d.strikeBank b upsets
      let (again, d') := d.searchBank b k 0 c
      if d.faultMet b k 0 == .none then (d.countSearch b c).giveWord b (d.searchWord b k 0 false)
      else if (d'.bank b).failed then d' else d'.giveWord b (d'.searchWord b k 0 again)) s

/-- The scrubber reads a row, its shadow and its parity; true where it repaired it (R159). -/
def Dev.scrubRow (b row : Nat) (d : Dev) : Dev × Bool :=
  let x := d.bank b
  if x.shadowBad.contains row then (d.failBank b row 2, false)
  else match x.struck.get? row with
    | none => (d, false)
    | some m =>
      let d := d.onBank b fun x => { x with scrubFixes := bump x.scrubFixes }
      ((d.reportBank b 63 0x5003 [row, flippedUnit b m, 0, 0, 0]).repairRow b row, true)

/-- SCRUBBER_ROW_CHECK. -/
def execScrubberRowCheck (bank : BankId) (row : Nat) (upsets : List Upset) (s : State) : Answer :=
  whenLive (fun d => if d.fencedRegion (bankRegion bank.val) then d else ((d.strikeBank bank.val upsets).scrubRow bank.val row).1) s

/-! ## Throttling (R163, R165) -/

/-- Temperature in m degrees C above which a level is entered. -/
def throttleEnter (level : Nat) : Int :=
  match level with
  | 1 => 95000
  | 2 => 100000
  | _ => 104000

/-- The level that a tick gives a bank. -/
def nextThrottle (level : Nat) (t : Int) : Nat :=
  let up := if throttleEnter 3 < t then 3 else if throttleEnter 2 < t then 2 else if throttleEnter 1 < t then 1 else 0
  if level < up then up
  else if level ≠ 0 ∧ t ≤ throttleEnter level - 2000 then level - 1 else level

/-- A bank takes a throttle level (0x5006). -/
def Dev.setThrottle (b level : Nat) (t : Int) (d : Dev) : Dev :=
  let old := (d.bank b).throttle.toNat
  if old = level then d
  else (d.onBank b fun x => { x with throttle := BitVec.ofNat 2 level }).reportBank b 0 0x5006
    [level, old, (BitVec.ofInt 64 t).toNat, 0, 0]

/-- The four banks of a region at a tick, from its sensor. -/
def Dev.throttleRegion (r : Nat) (d : Dev) : Dev :=
  let t := d.chip.temperature.get 25000 r
  Dev.each (List.range 4) (fun i d =>
    let b := r * 4 + i
    let d := d.setThrottle b (if d.chip.sensorFault.getLsbD r then 3 else nextThrottle (d.bank b).throttle.toNat t) t
    if (d.bank b).throttle = 0 then d else d.onBank b fun x => { x with throttleMs := bump x.throttleMs }) d

/-- SENSOR_FAULT: the region's banks run at level 3. -/
def execSensorFault (region : RegionId) (s : State) : Answer :=
  whenLive (guarded (fun d => !d.chip.sensorFault.getLsbD region.val) (fun d =>
    let r := region.val
    let d := d.onChip fun c => { c with sensorFault := setBit c.sensorFault r true }
    Dev.each (List.range 4) (fun i d =>
      (d.reportBank (r * 4 + i) 0 0x5007 [r, 0, 0, 0, 0]).setThrottle (r * 4 + i) 3 (d.chip.temperature.get 25000 r)) d)) s

/-- SENSOR_RECOVERY: the level falls by the ticks that follow. -/
def execSensorRecovery (region : RegionId) (s : State) : Answer :=
  whenLive (Dev.onChip fun c => { c with sensorFault := setBit c.sensorFault region.val false }) s

/-! ## CAMOP (R166 to R168) -/

/-- Row, bank and the all-regions bit of ga; none where another bit is set. -/
def camTarget (ga : Nat) : Option (Nat × Nat × Bool) :=
  let row := bits ga 0 13
  let bank := bits ga 16 5
  let all := bit ga 24
  if ga = row + bank * 2 ^ 16 + b2n all * 2 ^ 24 then some (row, bank, all) else none

/-- The checks of R167 that hold for every operation. -/
def Dev.camOk (d : Dev) (m row bank : Nat) (all : Bool) : Bool :=
  decide (row < bankEntries bank) && (all || !d.fencedRegion (bankRegion bank)) && (!all || m == 1 || m == 2) &&
    (isClassBank bank || !(m == 1 || m == 2))

/-- A CAMOP on its target. -/
def camEffect (m : Nat) (f : Nat → Nat → Bool → Nat → Coach → Fields → Dev → Dev) (i : Nat) (c : Coach) (w : Fields) (d : Dev) :
    Dev :=
  if w.m ≠ m then d
  else match camTarget (c.run.num w.a) with
    | none => d.fail i stIllegalValue
    | some (row, bank, all) => if d.camOk m row bank all then f row bank all i c w d else d.fail i stIllegalValue

/-- CAMOP of an operation. -/
def runCam (ctx : CtxId) (m : Nat) (f : Nat → Nat → Bool → Nat → Coach → Fields → Dev → Dev) (s : State) : Answer :=
  runActing ctx 0x4B (camEffect m f) s

/-- The data block of a row: match data, then associated data. -/
def Dev.rowBlock (d : Dev) (bank row : Nat) : Bytes :=
  if isClassBank bank then
    let x := (d.bank bank).rows.get {} row
    leBytes 20 x.value ++ leBytes 20 x.mask ++ leBytes 24 x.assoc
  else match d.dirRow bank row with
    | none => zeros 64
    | some u => leBytes 10 u.matchData ++ zeros 30 ++
        leBytes 6 (d.unitAssoc (bankRegion bank * 24576 + bank % 4 * 8192 + row) u) ++ zeros 18

/-- CAMOP_READ_ROW. -/
def execCamopReadRow (ctx : CtxId) (s : State) : Answer :=
  runCam ctx 0 (fun row bank _ i _ w d =>
    let block := d.rowBlock bank row
    let state := b2n ((d.validRows bank).contains row) + 2 * b2n ((d.bank bank).replaced.contains row)
    d.endWith i stOk fun r => { r with fetch := block }.setReg w.d (BitVec.ofNat 64 state)) s

/-- Classification banks that a write or clear acts on. -/
def Dev.camBanks (d : Dev) (bank : Nat) (all : Bool) : List Nat :=
  if all then d.openRegions.map fun r => r * 4 + bank % 4 else [bank]

/-- The data block of an operation; none where it is not present. -/
def Coach.camBlock (c : Coach) (w : Fields) : Option Bytes :=
  let off := c.run.num w.b
  if inArea c.inbound off 64 then some (slice c.inbound off 64) else none

/-- CAMOP_WRITE_ROW. -/
def execCamopWriteRow (ctx : CtxId) (s : State) : Answer :=
  runCam ctx 1 (fun row bank all i c w d =>
    match c.camBlock w with
    | none => d.fail i stIllegalValue
    | some b =>
      if leAt b 0 20 &&& leAt b 20 20 ≠ leAt b 0 20 then d.fail i stIllegalValue
      else (Dev.each (d.camBanks bank all) (fun k d => d.onBank k fun y => { y.written row with rows := y.rows.set row (ClassRow.ofBlock b) }) d).endWith i stOk
        (Run.setReg w.d 0)) s

/-- CAMOP_CLEAR_ROW. -/
def execCamopClearRow (ctx : CtxId) (s : State) : Answer :=
  runCam ctx 2 (fun row bank all i _ w d =>
    (Dev.each (d.camBanks bank all) (fun k d => d.onBank k fun y => { y.written row with rows := y.rows.erase row }) d).endWith i stOk
      (Run.setReg w.d 0)) s

/-- The search key of a data block; none where a byte the search does not use is not zero. -/
def searchKey (bank : Nat) (b : Bytes) : Option Nat :=
  let n := if isClassBank bank then 20 else 10
  if zeroRange b n (64 - n) then some (leAt b 0 n) else none

/-- A CAMOP search of the rows at or above `lo`, after the upsets that strike its bank. Where a fault it meets fences the bank's
region the CAMOP fails as on a fenced region. DEDUCED (log entry 36). -/
def camSearch (lo bank : Nat) (upsets : List Upset) (i : Nat) (c : Coach) (w : Fields) (d : Dev) : Dev :=
  match (c.camBlock w).bind (searchKey bank) with
  | none => d.fail i stIllegalValue
  | some key =>
    let (again, d') := ((d.strikeBank bank upsets).countSearch bank 8).searchBank bank key lo 8
    let word := d'.searchWord bank key lo again
    if (d'.coach i).stage != .running then d'
    else if d'.fencedRegion (bankRegion bank) then d'.fail i stIllegalValue
    else (d'.giveWord bank word).endWith i stOk (Run.setReg w.d (BitVec.ofNat 64 word))

/-- CAMOP_SEARCH. -/
def execCamopSearch (ctx : CtxId) (upsets : List Upset) (s : State) : Answer :=
  runCam ctx 3 (fun _ bank _ i c w d => camSearch 0 bank upsets i c w d) s

/-- CAMOP_NEXT: rows above ga's. -/
def execCamopNext (ctx : CtxId) (upsets : List Upset) (s : State) : Answer :=
  runCam ctx 4 (fun row bank _ i c w d => camSearch (row + 1) bank upsets i c w d) s

/-- A CAMOP scrub pass runs on a bank (ASSOC_BANK_STATUS.scrub_pass). -/
def Dev.scrubbing (d : Dev) (bank : Nat) : Bool :=
  d.eng.coaches.any fun e => match e.2.wait with
    | .scrub b => b == bank
    | _ => false

/-- CAMOP_SCRUB_BANK. -/
def execCamopScrubBank (ctx : CtxId) (s : State) : Answer :=
  runCam ctx 5 (fun row bank _ i _ _ d =>
    if row ≠ 0 then d.fail i stIllegalValue
    else if d.scrubbing bank then d.fail i stBusy
    else d.waitFor i (.scrub bank)) s

/-- CAMOP_SCRUB_PASS_END: every row has been read, in row order; gd receives the rows repaired. -/
def execCamopScrubPassEnd (ctx : CtxId) (upsets : List Upset) (s : State) : Answer :=
  whenLive (fun d => match d.coachIn ctx.val with
    | none => d
    | some (i, c) => match c.wait with
      | .scrub bank =>
        let d := d.strikeBank bank upsets
        let x := d.bank bank
        let rows : Tab Unit := x.shadowBad.foldl (fun t r => Tab.set t r ()) (x.struck.map fun e => (e.1, ()))
        let go (p : Dev × Nat) (row : Nat) : Dev × Nat :=
          let (d, fixed) := p.1.scrubRow bank row
          (d, p.2 + b2n fixed)
        let (d, n) := (rows.map Prod.fst).foldl go (d, 0)
        if (d.coach i).stage != .running then d else d.endWith i stOk (Run.setReg c.current.d (BitVec.ofNat 64 n))
      | _ => d) s

end Sys2Proof.Machine
end

