-- ==== Sys2Proof/Machine/Events.lean ====
section
/-!
DEFINITION. Machine/Events.lean: the event record: windows, rings, filing, the log on media, notification (chapter 14).
-/
namespace Sys2Proof.Machine

/-! ## Size and life of the log (R421, R425, R427) -/

/-- Page size and page groups per block in force. -/
def Dev.logGeom (d : Dev) : Geometry := d.store.geom.getD {}

/-- Sectors of a log page group (R196). -/
def Dev.logSpg (d : Dev) : Nat := d.nv.log.bpc * (d.logGeom.pageSize / 4096)

/-- Event slots of a log page group (R421). -/
def Dev.groupSlots (d : Dev) : Nat := 56 * d.nv.log.bpc * (d.logGeom.pageSize / 4096)

/-- C: the slots of one log block (R421). -/
def Dev.entrySlots (d : Dev) : Nat := d.groupSlots * d.logGeom.ppb

/-- Entry `e` has a copy that is not dead. -/
def EventState.liveEntry (v : EventState) (e : Nat) : Bool := !(v.deadPrimary.getLsbD e && v.deadMirror.getLsbD e)

/-- Live circulating entries (EVT_STATE.live). -/
def Dev.liveEntries (d : Dev) : Nat :=
  if d.nv.log.assigned then ((List.range 63).filter fun i => d.evt.liveEntry (i + 1)).length else 0

/-- The next live circulating entry after `e`, 1 following 63 (R425); `e` itself when there is no other. -/
def EventState.nextEntry (v : EventState) (e : Nat) : Nat :=
  (((List.range 63).map fun i => (e + i) % 63 + 1).find? v.liveEntry).getD e

/-- The log stands open: neither the flush nor the fail-safe state has closed it (R412, R423). -/
def Dev.logStands (d : Dev) : Bool :=
  d.evt.logOpen && d.chip.state != 3 && d.pfail.flush != .drained && d.pfail.flush != .flushed

/-- Records filed now still reach the media: the log stands open and has its entries. -/
def Dev.logWritable (d : Dev) : Bool := d.logStands && d.nv.log.assigned

/-- EVT_OLDEST_SEQ: the oldest record of the circulating area. -/
def Dev.oldestSeq (d : Dev) : Nat :=
  let all := (d.nv.log.entries.map fun e => (e.2.groups.map (·.recs)).flatten.map (·.seq)).flatten
  all.foldl min (all.head?.getD 0)

/-! ## Notification (R430) -/

/-- PF1 vector 1 is raised and pending set. -/
def Dev.notifyNow (d : Dev) : Dev :=
  if d.evt.notifyEnable && !d.evt.notifyPending then
    (d.raise 1 1).onEvt fun v => { v with notifyPending := true }
  else d

/-- A record of severity `sev` has been filed. -/
def Dev.notifyRecord (sev : Nat) (d : Dev) : Dev :=
  if d.evt.minSev.toNat ≤ sev then d.notifyNow else d

/-- LOG_DEGRADED is set (R427). -/
def Dev.setDegraded (entry mask : Nat) (d : Dev) : Dev :=
  let d := d.onChip fun c => { c with logDegraded := true }
  (d.report 8 11 0 0x7002 [entry, mask, d.liveEntries, 0, 0]).notifyNow

/-! ## Filing (R420, R424, R428) -/

/-- Both page-group buffers wait for programming (R423). -/
def EventState.stalled (v : EventState) : Bool := decide (2 ≤ v.waiting.length)

/-- Sectors that a copy of entry 0 takes: 293, to the end of a page group (R424). -/
def Dev.zeroSectors (d : Dev) : Nat := ceilDiv 293 d.logSpg * d.logSpg

/-- Entry 0 is programmed once record 16,383 has been filed (R424); its sectors take numbers (R180). -/
def Dev.programFoundation (d : Dev) : Dev :=
  if d.nv.log.assigned && decide (16384 ≤ d.nv.log.foundation.length) && !d.nv.log.entryZero then
    let n := d.store.nextWsn
    (d.onNv fun v => { v with log := { v.log with entryZero := true, zeroWsn := (n, n + d.zeroSectors) } }).takeWsn (2 * d.zeroSectors)
  else d

/-- A record joins the foundation mirror of NOR B (R424). -/
def LogMedia.addFoundation (e : EventRec) (l : LogMedia) : LogMedia :=
  { l with foundation := l.foundation.filter (fun x => x.seq != e.seq) ++ [e] }

/-- A record joins the open page-group buffer (R423). -/
def EventState.addBuffer (cap : Nat) (e : EventRec) (v : EventState) : EventState :=
  let b := v.buffer ++ [e]
  if cap ≤ b.length then { v with buffer := [], waiting := v.waiting ++ [b] } else { v with buffer := b }

/-- The chip recorder files one record (R420). -/
def Dev.fileRecord (e : EventRec) (d : Dev) : Dev :=
  let e := { e with seq := d.evt.nextSeq, degraded := d.chip.logDegraded,
                    cycle := if e.cycle = 0 then d.stampCycle else e.cycle }
  let d := d.onEvt fun v => { v with nextSeq := v.nextSeq + 1, chipRing := (e :: v.chipRing).take 64 }
  let d := if decide (e.seq < 16384) && d.logStands then
      (d.onNv fun n => { n with log := n.log.addFoundation e }) else d
  let d := if d.logWritable then (d.onEvt (EventState.addBuffer d.groupSlots e)).programFoundation else d
  d.notifyRecord (severity e.code.toNat)

/-- The recorder whose ring is served next: round-robin from the turn (R420). -/
def Dev.nextRecorder (d : Dev) : Option Nat :=
  ((List.range 9).map fun i => (d.evt.turn + i) % 9).find? fun r => !(d.recorder r).ring.isEmpty

/-- One record of recorder `r` is filed. -/
def Dev.fileFrom (r : Nat) (d : Dev) : Dev :=
  match (d.recorder r).ring with
  | [] => d
  | e :: rest =>
    let d := d.onRecorder r fun q => { q with ring := rest, forwarded := if r < 8 then bump q.forwarded else q.forwarded }
    (d.onEvt fun v => { v with turn := (r + 1) % 9 }).fileRecord e

/-- Filing goes on: the log is open, or the fail-safe state fills the on-chip ring alone (R413). -/
def Dev.filing (d : Dev) : Bool :=
  d.running && (d.evt.logOpen || d.failsafe) && !(d.logWritable && d.evt.stalled)

/-- Everything that waits in the rings is filed, as far as the buffers take it. -/
def Dev.fileAll : Nat → Dev → Dev
  | 0, d => d
  | n + 1, d =>
    if d.filing then
      match d.nextRecorder with
      | some r => Dev.fileAll n (d.fileFrom r)
      | none => d
    else d

/-- More than the rings hold. -/
def ringBound : Nat := 9 * 257

/-! ## Programming the log (R423, R425, R427) -/

/-- A copy of entry `e` is marked dead for a failed program (1), erase (2) or read (3) (R427). -/
def Dev.killCopy (e : Nat) (mirror : Bool) (why : Nat) (d : Dev) : Dev :=
  if (if mirror then d.evt.deadMirror.getLsbD e else d.evt.deadPrimary.getLsbD e) then d
  else
    let pair := d.logGeom.logBlocks.getD e (0, 0)
    let d := d.onEvt fun v =>
      if mirror then { v with deadMirror := setBit v.deadMirror e true } else { v with deadPrimary := setBit v.deadPrimary e true }
    d.report 8 11 0 0x7003 [e, b2n mirror, if mirror then pair.2 else pair.1, why, 0]

/-- Entry `e` of the circulating area. -/
def LogMedia.entry (l : LogMedia) (e : Nat) : LogEntry := l.entries.get {} e

/-- Filling goes on at the next live entry, which is erased and whose pass rises by 1 (R425). -/
def Dev.advanceEntry (eraseP eraseM : Bool) (d : Dev) : Dev :=
  let n := d.evt.nextEntry d.evt.entry
  let d := if !eraseP then d.killCopy n false 2 else d
  let d := if !eraseM then d.killCopy n true 2 else d
  let n := if d.evt.liveEntry n then n else d.evt.nextEntry n
  let d := d.onNv fun v => { v with log := { v.log with
    entries := v.log.entries.set n { pass := (v.log.entry n).pass + 1, groups := [] } } }
  (d.onEvt fun v => { v with entry := n }).onLife fun l => { l with passes := bump l.passes }

/-- A page group of records is programmed to the copies that live (R423, R427); the sectors of both copies take numbers (R180). -/
def Dev.programGroup (recs : List EventRec) (primaryOk mirrorOk eraseP eraseM : Bool) (d : Dev) : Dev :=
  let e := d.evt.entry
  let p := primaryOk && !d.evt.deadPrimary.getLsbD e
  let m := mirrorOk && !d.evt.deadMirror.getLsbD e
  let d := if !p then d.killCopy e false 1 else d
  let d := if !m then d.killCopy e true 1 else d
  if p || m then
    let g : LogGroup := { recs := recs, wsn := (d.store.nextWsn, d.store.nextWsn + d.logSpg), primary := p, mirror := m }
    let d := (d.onNv fun v => { v with log := { v.log with
      entries := v.log.entries.update {} e fun x => { x with groups := x.groups ++ [g] } } }).takeWsn (2 * d.logSpg)
    if d.logGeom.ppb ≤ (d.nv.log.entry e).groups.length then d.advanceEntry eraseP eraseM else d
  else (d.setDegraded e 3).advanceEntry eraseP eraseM

/-- The oldest full buffer is programmed. -/
def Dev.programWaiting (primaryOk mirrorOk eraseP eraseM : Bool) (d : Dev) : Dev :=
  match d.evt.waiting with
  | [] => d
  | g :: rest => (d.onEvt fun v => { v with waiting := rest }).programGroup g primaryOk mirrorOk eraseP eraseM

/-- Everything filed reaches the media: full buffers, what the rings hold, then the open buffer (R411, R423). -/
def Dev.closeLog (primaryOk mirrorOk : Bool) (d : Dev) : Dev :=
  if d.logWritable then
    let go (d : Dev) : Dev := d.programWaiting primaryOk mirrorOk true true
    let d := Dev.fileAll ringBound (go (go d))
    let d := Dev.fileAll ringBound (go (go d))
    let d := go (go d)
    match d.evt.buffer with
    | [] => d
    | g => (d.onEvt fun v => { v with buffer := [] }).programGroup g primaryOk mirrorOk true true
  else d

/-! ## Reading and opening the log (R426, R427, R429) -/

/-- A group can be read from one of its copies. -/
def EventState.readable (v : EventState) (e : Nat) (g : LogGroup) : Bool :=
  (g.primary && !v.deadPrimary.getLsbD e) || (g.mirror && !v.deadMirror.getLsbD e)

/-- Records that reading the media finds, entry by entry. -/
def Dev.mediaRecords (d : Dev) : List EventRec :=
  (d.nv.log.entries.map fun e => ((e.2.groups.filter (d.evt.readable e.1)).map (·.recs)).flatten).flatten

/-- Copies whose read failed are marked dead. -/
def Dev.readLog (env : LogReadEnv) (d : Dev) : Dev :=
  Dev.each env.deadCopies (fun c => Dev.killCopy (c.1 % 64) c.2 3) d

/-- The records held at or above `from_`, rising, each once: foundation, circulating area, buffers (R429). -/
def Dev.heldRecords (d : Dev) (from_ : Nat) : List EventRec :=
  let all := d.nv.log.foundation ++ (if d.pins.ceHigh then [] else d.mediaRecords) ++ d.evt.waiting.flatten ++ d.evt.buffer
  let t : Tab EventRec := all.foldl (fun t e => if from_ ≤ e.seq then Tab.set t e.seq e else t) []
  t.map Prod.snd

/-- The records of the on-chip ring at or above `from_`, rising. -/
def Dev.ringRecords (d : Dev) (from_ : Nat) : List EventRec :=
  (d.evt.chipRing.filter fun e => decide (from_ ≤ e.seq)).reverse

/-- The entry that holds the record with the highest seq. -/
def Dev.lastEntry (d : Dev) : Nat × Nat :=
  d.nv.log.entries.foldl (fun best e =>
    match e.2.groups.reverse.find? (d.evt.readable e.1) with
    | none => best
    | some g =>
      let top := (g.recs.map (fun r => r.seq + 1)).foldl max 0
      if best.2 < top then (e.1, top) else best) (1, 0)

/-- The log opens at the end of step 7 (R426, R427). `saved` is value 6 of the chip section. -/
def Dev.openLog (saved : Nat) (env : LogReadEnv) (d : Dev) : Dev :=
  let d := d.readLog env
  let d := if d.nv.log.assigned then
      let last := d.lastEntry
      let e := if d.evt.liveEntry last.1 then last.1 else d.evt.nextEntry last.1
      let d := d.onEvt fun v => { v with logOpen := true, entry := e, nextSeq := max last.2 saved }
      let full := decide (d.logGeom.ppb ≤ (d.nv.log.entry e).groups.length) && decide (d.logGeom.ppb ≠ 0)
      if full then d.advanceEntry true true else d
    else d.onEvt fun v => { v with logOpen := true, nextSeq := saved }
  let d := d.programFoundation
  if d.nv.log.assigned && decide ((d.liveEntries - 1) * d.entrySlots < 1048576) then d.setDegraded d.evt.entry 0 else d

/-! ## The commands -/

/-- COALESCING_WINDOW_CLOSE: the oldest window of a block at its second tick (R418). -/
def execCoalescingWindowClose (region : Fin 9) (block : Fin 64) (s : State) : Answer :=
  onDev (guarded Dev.running fun d =>
    match (d.recorder region.val).windows.get [] block.val with
    | [] => d
    | w :: rest =>
      if w.opened + 2 ≤ d.chip.tick then
        (d.onRecorder region.val fun q => { q with windows := q.windows.set block.val rest }).sendRecord region.val w.entry
      else d) s

/-- EVENT_FILE: the recorder next in turn gives one record (R420). -/
def execEventFile (recorder : Fin 9) (s : State) : Answer :=
  onDev (guarded (fun d => d.filing && d.nextRecorder == some recorder.val) (Dev.fileFrom recorder.val)) s

/-- A 0x7001 record of recorder `r` (R419). -/
def Dev.lostRecord (r : Nat) (d : Dev) : EventRec :=
  let q := d.recorder r
  { code := 0x7001, source := eventSource r (if r < 8 then 47 else 11) 0, stamped := true,
    cycle := d.stampCycle, ms := d.stampMs, params := [q.lostNow, r, q.lostFirst, q.lostLast, q.lost] }

/-- RECORDS_LOST_INSERT (R419). -/
def execRecordsLostInsert (recorder : Fin 9) (s : State) : Answer :=
  onDev (guarded (fun d => d.running && decide (0 < (d.recorder recorder.val).lostNow) &&
      decide ((d.recorder recorder.val).ring.length ≤ 192))
    (fun d =>
      let e := d.lostRecord recorder.val
      d.onRecorder recorder.val fun q => { q with ring := q.ring ++ [e], lostNow := 0, peak := max q.peak (q.ring.length + 1) })) s

/-- Numbers for a page group of the log are reserved while keystones can be written (R222). -/
def Dev.reserveLog (d : Dev) : Dev := d.when (d.store.geom.isSome && d.pfail.flush == .none) (Dev.reserveWsn (2 * d.logSpg))

/-- LOG_PAGE_PROGRAM (R423). -/
def execLogPageProgram (primaryOk mirrorOk erasePrimaryOk eraseMirrorOk : Bool) (s : State) : Answer :=
  onDev (guarded (fun d => d.running && d.logWritable && !d.evt.waiting.isEmpty)
    (fun d => d.reserveLog.programWaiting primaryOk mirrorOk erasePrimaryOk eraseMirrorOk)) s

/-- A write of 1 to EVT_NOTIFY.pending (R430). -/
def Dev.clearNotify : Dev → Dev := Dev.onEvt fun v => { v with notifyPending := false }

/-- EVT_NOTIFY_PENDING_CLEAR. -/
def execEvtNotifyPendingClear (by_ : Requester) (s : State) : Answer := whenLive (byManagement by_ Dev.clearNotify) s

end Sys2Proof.Machine
end

