-- ==== Sys2Proof/Machine/Stats.lean ====
section
/-!
DEFINITION. Machine/Stats.lean: the management tick, wall time, lifetime counts, EVRD, CTRD, TIME and the final log write
(R28, R411, R414, R429 to R434).
-/
namespace Sys2Proof.Machine

/-! ## Event records as bytes (R414) -/

/-- The 64 bytes of an event record. -/
def EventRec.bytes (e : EventRec) : Bytes :=
  leBytes 2 e.code.toNat ++
    leBytes 1 (severity e.code.toNat + b2n e.stamped * 16 + b2n e.degraded * 32) ++ leBytes 1 e.repeats ++
    leBytes 2 e.source.toNat ++ leBytes 8 (stampNat e.cycle e.ms) ++ leBytes 8 e.seq ++
    (List.range 5).flatMap (fun i => leBytes 8 (e.params.getD i 0)) ++ zeros 2

/-! ## The management tick (R28, R139, R163, R433) -/

/-- Temperature bin of a reading in m degrees C. -/
def tempBin (t : Int) : Nat := min 63 ((t + 40000) / 2500).toNat

/-- The readings of the nine sensors join their histograms. -/
def Dev.readTemperatures (ts : List Int) (d : Dev) : Dev :=
  Dev.each ((List.range 9).zip ts) (fun x d =>
    if d.chip.sensorFault.getLsbD x.1 then d
    else (d.onChip fun c => { c with temperature := c.temperature.set x.1 x.2 }).onLife fun l =>
      { l with temperature := l.temperature.update 0 (x.1 * 64 + tempBin x.2) bump }) d

/-- Token generations of ACTIVE namespaces count ticks; one that would wrap waits for TOKEN_GENERATION_WRAP. -/
def Namespace.tick (n : Namespace) : Namespace :=
  if n.state = .active then { n with tokenGen := min (n.tokenGen + 1) (2 ^ 32) } else n

/-- Responder limits start again each second (R268). -/
def Mac.second (c : Mac) : Mac := { c with arpSent := 0, echoSent := 0 }

/-- One tick: lifetime counts and histograms advance on it (R28), and every region's banks take their throttle level (R163). -/
def Dev.tick (ts : List Int) (d : Dev) : Dev :=
  let d := d.onChip fun c => { c with
    tick := c.tick + 1, powerOnMs := if c.statsLoaded then bump c.powerOnMs else c.powerOnMs }
  let d := (d.readTemperatures ts).onPtp Ptp.advance
  let d := d.foldLife
  let d := if d.chip.tick % 1000 = 0 then d.onNet fun n => { n with macs := n.macs.mapVals fun _ c => c.second } else d
  let d := Dev.each (List.range 8) Dev.throttleRegion d
  if d.failsafe then d else d.onStore fun s => { s with namespaces := s.namespaces.mapVals fun _ n => n.tick }

/-- MANAGEMENT_TICK: the readings are those of sensors 0 to 8, in m degrees C. -/
def execManagementTick (temperatures : List Int) (s : State) : Answer :=
  onDev (guarded Dev.running (Dev.tick temperatures)) s

/-! ## TIME (R216, R431, R432) -/

/-- The wake patrol of a region is cancelled by an off time shorter than its threshold. -/
def Dev.cancelWake (r off : Nat) (d : Dev) : Dev :=
  let x := d.region r
  let d := d.onRegion r fun y => { y with offTime := off }
  if x.wake && decide (off < x.wakeDays.toNat * 86400) then
    (d.onRegion r fun y => { y with wake := false, wakeLeft := [] }).reportRegion r 0x600A [2, off, 0, 0, 0]
  else d

/-- The wall time of this power cycle is set. -/
def Dev.setTime (ns : Nat) (d : Dev) : Dev :=
  let old := d.wallNow
  let first := !d.wall.known
  let last := d.wall.lastKnown
  let d := { d with wall := { d.wall with wall := ns, cycle := d.stampCycle, ms := d.chip.powerOnMs, known := true } }
  let d := d.onLife fun l => { l with times := bump l.times }
  let d := d.report 8 11 0 0x7004 [ns, old, (BitVec.ofInt 64 ((ns : Int) - old)).toNat, 0, 0]
  if first && last != 0 then Dev.each d.openRegions (fun r d => d.cancelWake r ((ns - last) / 1000000000)) d else d

/-- TIME. -/
def execTime (ctx : CtxId) (s : State) : Answer :=
  runActing ctx 0x48 (fun i c w d =>
    let ns := c.run.num w.a
    if ns < 1577836800 * 10 ^ 9 ∨ 2 ^ 63 ≤ ns then d.fail i stIllegalValue else (d.setTime ns).endWith i stOk id) s

/-! ## EVRD (R427, R429) -/

/-- EVRD of the event store or of the on-chip ring. -/
def evrdEffect (log : LogReadEnv) (i : Nat) (c : Coach) (w : Fields) (d : Dev) : Dev :=
  let count := w.imm % 512
  let start := c.run.num w.a
  if count < 1 ∨ 256 < count ∨ 2 ^ 63 ≤ start then d.fail i stIllegalValue
  else
    let d := if w.m = 0 then d.readLog log else d
    let all := if w.m = 0 then d.heldRecords start else d.ringRecords start
    let got := (all.filter fun e => w.m == 1 || !log.badSeqs.contains e.seq).take count
    let next := (got.getLast?.map fun e => e.seq + 1).getD start
    let met := if got.length = count then all.filter fun e => decide (e.seq < next) else all
    let bad := if w.m = 0 then (met.filter fun e => log.badSeqs.contains e.seq).length else 0
    (d.onEvt fun v => { v with slotBad := satAdd v.slotBad bad }).endWith i stOk fun r =>
      { r with fetch := got.flatMap EventRec.bytes }.setReg w.d (BitVec.ofNat 64 next)

/-- EVRD. -/
def execEvrd (ctx : CtxId) (log : LogReadEnv) (s : State) : Answer :=
  runInstr ctx (·.op == 0x42) (accepted (noted (evrdEffect log))) s

/-! ## CTRD (R433, R434) -/

/-- The 512 values of the chip section. -/
def Dev.chipSection (d : Dev) : List Nat :=
  ({ d.lifeSaved with wall := d.wall }).chipSection

/-- The values of a namespace. -/
def Dev.nsValues (d : Dev) (n : Nat) : List Nat :=
  let x := d.ns n
  [nsStateNum x.state, x.quota, x.usage, x.liveKeys, x.epoch, x.tokenGen % 2 ^ 32, x.keySlot,
    ((List.range 8).map fun r => (d.region r).versions.get 0 n).foldl max 0]

/-- The values that a selector returns; none outside the table. -/
def Dev.counters (d : Dev) (kind index : Nat) : Option (List Nat) :=
  let l := d.chip.lifeTick
  let from_ (t : Tab Counter) (lo n : Nat) : Option (List Nat) := some ((List.range n).map fun i => t.get 0 (lo + i))
  match kind with
  | 1 => if index = 0 then some d.chipSection else none
  | 2 => if index < 2048 ∧ index % 512 = 0 then from_ l.dies (index * 4) 2048 else none
  | 3 =>
    if index < 8 then from_ l.ldpc (index * 32) 32
    else if index = 8 then some ((List.range 32).map fun b => (List.range 8).foldl (fun n r => satAdd n (l.ldpc.get 0 (r * 32 + b))) 0)
    else none
  | 4 =>
    if index < 8 then some ((List.range 64).map (fun b => l.latency.get 0 (index * 64 + b)) ++
      (List.range 64).map fun b => l.latency.get 0 ((8 + index) * 64 + b))
    else none
  | 5 => if index < 9 then from_ l.temperature (index * 64) 64 else none
  | 6 => if index < 24 then from_ l.dram (index * 160) 160 else none
  | 7 => if index = 0 then from_ l.falseHits 0 32 else none
  | 8 =>
    if index = 0 ∨ index = 128 ∨ index = 256 then
      some ((List.range (if index = 256 then 4 else 128)).flatMap fun e =>
        [l.traps.get 0 (index + e), l.machineChecks.get 0 (index + e)])
    else none
  | 9 => if index = 0 then from_ l.linkDowns 0 528 else none
  | 10 => if index % 256 = 0 then some ((List.range 256).flatMap fun i => d.nsValues (index + i)) else none
  | _ => none

/-- CTRD. -/
def ctrdEffect (i : Nat) (c : Coach) (w : Fields) (d : Dev) : Dev :=
  let sel := c.run.num w.a
  let kind := sel % 256
  let index := bits sel 16 16
  match (if sel = kind + index * 2 ^ 16 then d.counters kind index else none) with
  | none => d.fail i stIllegalValue
  | some vs => d.endWith i stOk fun r =>
    { r with fetch := vs.flatMap (leBytes 8) }.setReg w.d (BitVec.ofNat 64 (vs.headD 0))

/-- CTRD. -/
def execCtrd (ctx : CtxId) (s : State) : Answer := runInstr ctx (·.op == 0x43) (accepted (noted ctrdEffect)) s

/-! ## The final log write (R411) -/

/-- FINAL_LOG_WRITE: the open log page group, holding 0x1001, is programmed; then NAND is cut off and the state is fail-safe. -/
def execFinalLogWrite (primaryOk mirrorOk : Bool) (s : State) : Answer :=
  onDev (guarded (fun d => d.running && d.failsafe && d.chip.state != 3) (fun d =>
    let e := d.evt.entry
    let reached := d.logWritable && ((primaryOk && !d.evt.deadPrimary.getLsbD e) || (mirrorOk && !d.evt.deadMirror.getLsbD e))
    let d := d.closeLog primaryOk mirrorOk
    let d := d.onPins fun p => { p with wpHigh := false, ceHigh := true }
    d.onChip fun c => { c with finalLog := c.finalLog || reached, state := 3, step := 0 })) s

end Sys2Proof.Machine
end

