-- ==== Sys2Proof/Machine/Dma.lean ====
section
/-!
DEFINITION. Machine/Dma.lean: host memory and the peer window as the endpoint uses them: tags, translations, response
regions, completion entries (R328, R330, R337 to R340, R344).
-/
namespace Sys2Proof.Machine

/-! ## Tags (R315, R340) -/

/-- Tags of the link as it runs. -/
def Pcie.tags (p : Pcie) : Nat := if p.flit then 4096 else 768

/-- A queue of class 7. -/
def Pcie.sevenQueue (p : Pcie) (q : Nat) : Bool := (p.queues.get? q).any fun x => x.cls == 7

/-- The queue whose request a read serves. -/
def DmaKind.queue : DmaKind → Nat
  | .entry q _ => q
  | .data q _ _ _ => q
  | .translation q _ _ => q

/-- The lowest tag that is neither in use nor kept out of use; 256 are class 7's (R24). -/
def Pcie.freeTag (p : Pcie) (seven : Bool) : Option Nat :=
  let low := (p.reads.filter fun e => !p.sevenQueue e.2.kind.queue).length
  if !seven && decide (p.tags - 256 ≤ low) then none
  else findNat p.tags fun t => (p.reads.get? t).isNone && (p.quarantine.get? t).isNone

/-- A non-posted request goes out under a free tag; with none free it is not issued yet. -/
def Dev.issue (r : DmaRead) (d : Dev) : Dev :=
  match d.pcie.freeTag (d.pcie.sevenQueue r.kind.queue) with
  | none => d
  | some t => (d.onPcie fun p => { p with reads := p.reads.set t r }).emit (.dmaRequest t r)

/-! ## Translations (R338) -/

/-- PF0 uses translated addresses. -/
def Dev.atsOn (d : Dev) : Bool := d.pcie.pf0.atsControl.getLsbD 15

/-- The address that a host address of PF0 translates to, where it is known. -/
def Dev.targetOf (d : Dev) (resolved : List (Nat × Nat)) (a : Nat) : Option Nat :=
  if !d.atsOn then some a
  else
    let known := resolved ++ d.pcie.cache.map fun t => (t.page, t.target)
    (known.find? fun t => t.1 == a / 4096).map fun t => t.2 * 4096 + a % 4096

/-- A translation is requested for a command, once at a time for a page. -/
def Dev.askTranslation (q : Nat) (key : Option Nat) (a : Nat) (d : Dev) : Dev :=
  let kind : DmaKind := .translation q key (a / 4096)
  if d.pcie.reads.any fun e => e.2.kind == kind then d
  else
    let at_ := a / 4096 * 4096
    d.issue { kind := kind, address := BitVec.ofNat 64 at_, host := at_, length := 8, since := d.chip.tick }

/-! ## Regions (R328, R344) -/

/-- A piece of a region: a host address or a place in the window pool, and a length. -/
inductive Piece where
  | host (address length : Nat)
  | pool (offset length : Nat)
  deriving DecidableEq, Repr

/-- Length of a piece. -/
def Piece.length : Piece → Nat
  | .host _ n => n
  | .pool _ n => n

/-- Host bytes [a, a + n) cut at page boundaries, and after `most` bytes. -/
def hostPieces (most : Nat) : Nat → Nat → Nat → List Piece
  | 0, _, _ => []
  | fuel + 1, a, n =>
    if n = 0 then []
    else
      let k := min n (min (4096 - a % 4096) most)
      .host a k :: hostPieces most fuel (a + k) (n - k)

/-- The pieces of a region of `n` bytes. -/
def regionPieces (most : Nat) (listed window : Bool) (address n : Nat) (pages : List Nat) (pool : List (Nat × Nat)) : List Piece :=
  if window then pool.map fun r => .pool r.1 r.2
  else if listed then
    (List.range (ceilDiv n 4096)).flatMap fun i => hostPieces most 4097 (pages.getD i 0) (min 4096 (n - i * 4096))
  else hostPieces most (n / most + n / 4096 + 3) address n

/-- The pieces that `n` bytes of a command's response take. -/
def Command.respPieces (c : Command) (n : Nat) : List Piece :=
  let cut (l : List (Nat × Nat)) : List (Nat × Nat) :=
    (l.foldl (fun (st : List (Nat × Nat) × Nat) r => (st.1 ++ [(r.1, min r.2 st.2)], st.2 - r.2)) ([], n)).1
  regionPieces 4096 (c.sub.flags.getLsbD 4) (c.sub.flags.getLsbD 5) c.sub.respAddr n c.respPages (cut c.respPool)

/-- Host addresses among pieces. -/
def hostAddrs (l : List Piece) : List Nat := l.filterMap fun
  | .host a n => if n = 0 then none else some a
  | .pool _ _ => none

/-- Write a byte string over pieces: function `fn` of the endpoint, addresses through `target`. -/
def Dev.writePieces (fn : Nat) (target : Nat → Option Nat) : List Piece → Bytes → Memories × Dev → Memories × Dev
  | [], _, s => s
  | .host a n :: ps, b, (m, d) =>
    let address : W64 := BitVec.ofNat 64 ((target a).getD a)
    Dev.writePieces fn target ps (b.drop n)
      (m, if n = 0 then d else d.sendHeld fn (.write address (b.take n)) (.pcieWrite address (b.take n)))
  | .pool o n :: ps, b, (m, d) =>
    Dev.writePieces fn target ps (b.drop n) ({ m with pool := Mem.writeBytes 0 m.pool o (b.take n) }, d)

/-! ## Results of queue commands (R322, R333) -/

/-- A queue command ends: its result becomes valid and PF0 vector 0 is raised. -/
def Dev.queueResult (st : Byte) (d : Dev) : Dev :=
  (d.onPcie fun p => { p with qresult := { valid := true, busy := false, status := st } }).raise 0 0

/-- A command has left its queue: an abort that waited for it ends. -/
def Dev.commandGone (q key : Nat) (d : Dev) : Dev :=
  match d.pcie.abortWait with
  | none => d
  | some (q', key', st) => if q' = q ∧ key' = key then (d.onPcie fun p => { p with abortWait := none }).queueResult st else d

/-! ## Completion entries (R330, R337) -/

/-- The response is not emitted, or emission has stopped, or the endpoint masters nothing more (R248, R351). -/
def Dev.mastering (d : Dev) : Bool := !d.failsafe && (d.pfail.flush == .none || d.pfail.flush == .closing)

/-- Host address of the next completion entry of a queue. -/
def QueuePair.cqSlot (q : QueuePair) : Nat := q.cqBase.toNat + 32 * q.cqTail

/-- The completion of a command is posted; an armed queue sends its vector and is disarmed. -/
def Dev.post (q slot : Nat) (outcome : W32) (status : Byte) (nfields bodyLen crc : Nat) (d : Dev) : Dev :=
  match d.queue? q with
  | none => d
  | some x =>
    match x.commands.get? slot with
    | none => d
    | some c =>
      let entry : Completion :=
        { outcome := outcome, status := status, phase := x.phase, nfields := nfields, cid := c.sub.cid, sqid := BitVec.ofNat 16 q,
          sqHead := x.sqHead, slot := c.slot, bodyLen := bodyLen, crc := crc }
      let address : W64 := BitVec.ofNat 64 ((d.targetOf c.resolved x.cqSlot).getD x.cqSlot)
      let d := d.sendHeld 0 (.completion address entry) (.pcieCompletion address entry)
      let wraps := decide (x.size ≤ x.cqTail + 1)
      let d := d.onQueue q fun x => { x with
        commands := x.commands.erase slot, cqTail := if wraps then 0 else x.cqTail + 1, phase := if wraps then !x.phase else x.phase
        armed := false }
      let d := d.onPcie fun p => { p with cmds := bump p.cmds }
      (if x.armed then d.raise 0 x.vector else d).commandGone q slot

/-- The mailbox command ends with a result (R335). -/
def Dev.mboxDone (c : Command) (outcome : W32) (status : Byte) (nfields bodyLen crc : Nat) (d : Dev) : Dev :=
  let entry : Completion :=
    { outcome := outcome, status := status, phase := true, nfields := nfields, cid := c.sub.cid, sqid := 0xFFFF, sqHead := 0, slot := 0,
      bodyLen := bodyLen, crc := crc }
  let d := d.onPcie fun p => { p with
    mboxResult := some entry, mboxCmd := none, mboxStatus := { valid := true, busy := false, status := status } }
  if d.mastering then d.raise 1 0 else d

/-- A queue is in error: fetching stops (R341). -/
def Dev.queueError (q cause : Nat) (d : Dev) : Dev :=
  match d.queue? q with
  | none => d
  | some x =>
    if x.error then d
    else (d.onQueue q fun x => { x with error := true, cause := BitVec.ofNat 8 cause, fetching := false }).report 8 2 0 0xB006
      [q, cause, 0, 0, 0]

end Sys2Proof.Machine
end

