-- ==== Sys2Proof/Machine/Emission.lean ====
section
/-!
DEFINITION. Machine/Emission.lean: the response of an ended coach: durability, checks while values stream, framing on each
path, the replay entry, the completion (chapters 02, 08, 10, 11, 12).
-/
namespace Sys2Proof.Machine

/-! ## Durability (R243 to R246) -/

/-- Rank of a durability code among protected, media, verified. -/
def durabilityRank (code : Nat) : Nat := if code = 3 then 2 else if code = 1 then 1 else 0

/-- The level a coach's response waits for, as a rank: the request's own, or the highest default of the namespaces it wrote to, as
they stood at its admission (R116, R244). -/
def Dev.levelOf (d : Dev) (c : Coach) : Nat :=
  if c.durability ≠ 0 then durabilityRank c.durability
  else (c.wrote.map fun n => durabilityRank (d.nsFor c n.toNat).durability).foldl max 0

/-- A record, or the copy made of it, is programmed. -/
def Dev.programmedRecord (d : Dev) (a : Nat) : Bool :=
  match d.store.buf.get? a with
  | none => true
  | some b => b.phase != .buffered || b.streamed || d.store.moves.any fun m => m.2.old == a &&
      ((d.store.buf.get? m.1).map fun x => x.phase != .buffered).getD true

/-- A record, or the copy made of it, is verified. -/
def Dev.verifiedRecord (d : Dev) (a : Nat) : Bool :=
  match d.store.buf.get? a with
  | none => true
  | some b => b.streamed

/-- The region of a record is fenced and has programmed its carts (R17 step 3). -/
def Dev.fenceDone (d : Dev) (a : Nat) : Bool := d.fencedRegion (regionOfAddr a) && !d.chip.fencing.getLsbD (regionOfAddr a)

/-- The durability a response waits for is reached. -/
def Dev.durable (d : Dev) (c : Coach) : Bool :=
  c.awaits.all fun a => match d.levelOf c with
    | 0 => true
    | 1 => d.programmedRecord a || d.fenceDone a
    | _ => d.verifiedRecord a || d.fenceDone a

/-- At verified level a record of a fenced region that is not verified makes the response `UNAVAILABLE` (R246). -/
def Dev.finalStatus (d : Dev) (c : Coach) : Byte :=
  if d.levelOf c = 2 ∧ c.awaits.any (fun a => !d.verifiedRecord a && d.fenceDone a) = true then stUnavailable else c.final

/-! ## Attached values (R53, R74, R371, R372) -/

/-- A field as it leaves: its bytes, and the failure met while it streamed. -/
structure OutField where
  attached : Bool := false
  bytes : Bytes := []
  st : Byte := 0
  /-- Places in the field where a segment begins that was held and had failed before its first byte left (R372). -/
  failedAt : List Nat := []
  deriving DecidableEq, Repr

/-- First and last segment of what is sent. -/
def Attached.segments (a : Attached) : Nat × Nat :=
  let lo := a.offset / 1048576
  (lo, if a.whole then a.addrs.length else if a.length = 0 then lo else (a.offset + a.length - 1) / 1048576 + 1)

/-- A segment as it is sent: with hold until verified, one that failed is zeros. -/
def Attached.shown (a : Attached) (index : Nat) (x : SegRead) : Bytes :=
  let n := min 1048576 (a.totalLen - index * 1048576)
  if a.hold && x.st != stOk then zeros n else padTo n x.data

/-- Addresses of the segments that a field sends. -/
def RespField.sent : RespField → List Nat
  | .bytes _ => []
  | .attached a => (a.addrs.take a.segments.2).drop a.segments.1

/-- Read segments in order with what the media gives. -/
def Dev.readList (d : Dev) : List Nat → List ReadBack → List SegRead
  | [], _ => []
  | a :: as, rb => d.readSegment a (rb.headD .good) :: d.readList as rb.tail

/-- The segments of a coach's attached values that no lane job has started on. -/
def Coach.unstreamed (c : Coach) : List Nat := (c.run.resp.flatMap RespField.sent).drop c.streamed.length

/-- Stream one attached value, whose segments came out as `segs`: the field, and what it changes. -/
def Dev.streamValue (a : Attached) (segs : List SegRead) (d : Dev) : OutField × Dev :=
  let (lo, _) := a.segments
  let plain := ((List.range segs.length).map fun i => a.shown (lo + i) (segs.getD i {})).flatten
  let st := firstFailure segs
  let checks := a.whole && a.fixity != 0
  let digestBad := st == stOk && checks && digestOf a.fixity plain != a.digest
  let sent := if digestBad && a.hold && a.addrs.length == 1 then zeros a.length else slice plain (a.offset - lo * 1048576) a.length
  let st := if digestBad then stIntegrityFailed else st
  let record := a.header ++ sent
  let d := d.noteTags (if a.export_ then 4 else 1) a.home a.ns a.fp (a.addrs.headD 0) segs
  let d := if checks then d.countLane a.home 0 a.totalLen else d
  let starts := (List.range segs.length).filter fun i => (segs.getD i {}).st != stOk || (digestBad && a.addrs.length == 1)
  let failedAt := if a.hold then starts.map fun i => a.header.length + ((lo + i) * 1048576 - a.offset) else []
  ({ attached := true, bytes := if a.export_ then record ++ beBytes 4 (crc32c record) else sent, st := st, failedAt := failedAt }, d)

/-- The fields of a response, streamed in order from the segments read for them. -/
def Dev.streamFields : List RespField → List SegRead → Dev → List OutField × Dev
  | [], _, d => ([], d)
  | .bytes b :: fs, segs, d =>
    let (l, d) := Dev.streamFields fs segs d
    ({ bytes := b } :: l, d)
  | .attached a :: fs, segs, d =>
    let n := (RespField.attached a).sent.length
    let (f, d) := d.streamValue a (segs.take n)
    let (l, d) := Dev.streamFields fs (segs.drop n) d
    (f :: l, d)

/-- A response. -/
structure Response where
  /-- The coach's final status. -/
  status : Byte := 0
  committed : Bool := false
  stale : Bool := false
  index : Nat := 0
  steps : Nat := 0
  fields : List OutField := []

/-- The result: the first failure in field order, else the final status (R74). -/
def Response.result (r : Response) : Byte := ((r.fields.find? fun f => f.st != stOk).map (·.st)).getD r.status
/-- The trust bit. -/
def Response.trust (r : Response) : Bool := r.fields.all fun f => f.st == stOk
/-- The outcome word with the checks' result. -/
def Response.word (r : Response) : W32 := outcomeWord r.result r.committed r.trust r.stale r.index r.steps
/-- CRC-64 of the attached values as sent. -/
def Response.crc (r : Response) : Nat := crc64 ((r.fields.filter (·.attached)).map (·.bytes)).flatten

/-- The response of a coach. -/
def Coach.response (c : Coach) (status : Byte) (fields : List OutField) : Response :=
  { status := status, committed := c.run.flags.committed, stale := c.run.flags.stale, index := c.run.last, steps := c.run.steps, fields := fields }

/-! ## Jenloth framing (R298 to R302) -/

/-- The field section. -/
def jenSection (gen : Nat) (fs : List OutField) : Bytes :=
  fs.flatMap fun f => (if gen = 1 then [] else [BitVec.ofNat 8 (b2n f.attached), 0, 0, 0] ++ beBytes 4 f.bytes.length) ++ f.bytes

/-- The head of a body. -/
def jenHead (gen : Nat) (word : W32) (trailer : Bool) (nfields : Nat) : Bytes :=
  if gen = 1 then [word.setWidth 8, BitVec.ofNat 8 (b2n (word.getLsbD 9) + 2 * b2n trailer), word.setWidth 8, 0]
  else beBytes 4 word.toNat ++ [word.setWidth 8, BitVec.ofNat 8 (2 * b2n trailer), BitVec.ofNat 8 nfields, 0]

/-- Where the fields' bytes begin in the body. -/
def fieldStarts (gen : Nat) : Nat → List OutField → List Nat
  | _, [] => []
  | at_, f :: fs =>
    let start := at_ + (if gen = 1 then 0 else 8)
    start :: fieldStarts gen (start + f.bytes.length) fs

/-- No check had failed when the head of the body left: those of the held segments that begin in its first frame of `size` bytes
had been made (R39, R372). -/
def Response.earlyTrust (r : Response) (gen size : Nat) : Bool :=
  ((fieldStarts gen (if gen = 1 then 4 else 8) r.fields).zip r.fields).all fun e => e.2.failedAt.all fun k => decide (size ≤ e.1 + k)

/-- The outcome word that leaves before the checks end. -/
def Response.early (r : Response) (gen size : Nat) : W32 :=
  outcomeWord r.status r.committed (r.earlyTrust gen size) r.stale r.index r.steps

/-- The trailer of R300. -/
def Response.trailer (r : Response) : Bytes := [r.result, BitVec.ofNat 8 (b2n r.trust)] ++ zeros 6 ++ beBytes 8 r.crc

/-- Bytes of body that a frame to a peer carries (R299). -/
def Dev.sliceSize (d : Dev) (m : Nat) (p : Peer) : Nat :=
  min p.maxFrame (d.mac m).maxBytes - 18 - (if p.v6 then 40 else 20) - 8 - 24 - (if p.vid.isSome then 4 else 0)

/-- The body: whole in one frame, or with the trailer. -/
def Response.jenBody (r : Response) (gen size : Nat) : Bytes :=
  let section_ := jenSection gen r.fields
  let one := jenHead gen r.word false r.fields.length ++ section_
  if one.length ≤ size then one else jenHead gen (r.early gen size) true r.fields.length ++ section_ ++ r.trailer

/-- A frame to the client, in the class the response has. -/
def Dev.sendResponseFrame (m cls : Nat) (p : Peer) (message : Bytes) : Dev → Dev :=
  Dev.queueFrame m (if m < 64 then cls else 0) { tag := p.vid.map fun v => (v, BitVec.ofNat 3 cls), dst := p.addr, srcPort := p.dport,
                                                 dstPort := p.port, payload := message }

/-- The frames of a RESPONSE, in ascending offset order. -/
def Dev.sendResponse (c : Coach) (n : Nat) (seq : W32) (body : Bytes) (d : Dev) : Dev :=
  let size := d.sliceSize c.mac c.peer
  let frame (i : Nat) : Bytes :=
    jenMessage c.generation 0x81 (wireSession n) c.peer.cookie.toNat seq.toNat body.length (i * size) (slice body (i * size) size)
  Dev.each (List.range (max 1 (ceilDiv body.length size))) (fun i d => d.sendResponseFrame c.mac c.clsNow c.peer (frame i)) d

/-- The field section that a replayable entry keeps: leading data fields that fit in 48 bytes, the rest omitted. DEDUCED (log
entry 25). -/
def keptFields (gen : Nat) : Nat → List OutField → Bytes × Bool
  | _, [] => ([], false)
  | room, f :: fs =>
    let size := f.bytes.length + (if gen = 1 then 0 else 8)
    let head (kind : Byte) : Bytes := if gen = 1 then [] else [kind, 0, 0, 0] ++ beBytes 4 f.bytes.length
    if !f.attached && decide (size ≤ room) then
      let (b, p) := keptFields gen (room - size) fs
      (head 0 ++ f.bytes ++ b, p)
    else (head 2 ++ (keptFields gen (if f.attached then room else 0) fs).1, true)

/-- The window entry that the response leaves (R302). -/
def Coach.replayEntry (c : Coach) (r : Response) : Entry :=
  if r.committed || c.acted || c.aborted then
    let (b, p) := keptFields c.generation 48 r.fields
    .replayable r.word b p r.fields.length
  else .reexecutable

/-- The response goes to its session's client; ABORT answers follow it, and a closing session may end. -/
def Dev.emitJenloth (i : Nat) (c : Coach) (n : Nat) (seq : W32) (r : Response) (d : Dev) : Dev :=
  let d := d.sendResponse c n seq (r.jenBody c.generation (d.sliceSize c.mac c.peer))
  let ack (st : Byte) (d : Dev) : Dev := d.sendResponseFrame c.mac c.clsNow c.peer
    (jenMessage c.generation 0x84 (wireSession n) c.peer.cookie.toNat seq.toNat 4 0 [st, 0, 0, 0])
  let d := Dev.each c.acks ack d
  let mine : Bool := match d.net.sessions.get? n with
    | some s => s.cookie == c.peer.cookie && s.entry seq == some (.inFlight i)
    | none => false
  if mine then (d.setEntry n seq (c.replayEntry r)).closeIfDone n else d

/-! ## PCIe responses (R330, R331, R338, R341) -/

/-- A field of a PCIe response body. -/
def pcieField (f : OutField) : Bytes := [BitVec.ofNat 8 (b2n f.attached), 0, 0, 0] ++ leBytes 4 f.bytes.length ++ f.bytes

/-- The fields that fit whole, up to the first that does not. -/
def fitting : Nat → List OutField → List OutField
  | _, [] => []
  | room, f :: fs => if f.bytes.length + 8 ≤ room then f :: fitting (room - (f.bytes.length + 8)) fs else []

/-- What a command's response writes and completes with. -/
structure PcieResult where
  body : Bytes
  status : Byte
  bodyLen : Nat
  crc : Nat

/-- The body and the completion of a response with `room` bytes for it. -/
def Response.pcie (r : Response) (room : Nat) : PcieResult :=
  let full := (r.fields.flatMap pcieField).length
  let sent := if room < full then fitting room r.fields else r.fields
  { body := sent.flatMap pcieField, status := if room < full then 0x47 else r.result, bodyLen := full,
    crc := ({ r with fields := sent } : Response).crc }

/-- A queue command's response: where a translation is missing it is asked for and the response waits. -/
def emitQueue (q slot : Nat) (cmd : Command) (r : Response) (s : Memories × Dev) : Option (Memories × Dev) :=
  let (m, d) := s
  let out := r.pcie cmd.sub.respLen
  let pieces := cmd.respPieces out.body.length
  let needed := hostAddrs pieces ++ ((d.queue? q).map fun x => [x.cqSlot]).getD []
  if needed.any fun a => (d.targetOf cmd.resolved a).isNone then none
  else
    let (m, d) := Dev.writePieces 0 (d.targetOf cmd.resolved) pieces out.body (m, d)
    some (m, d.post q slot r.word out.status r.fields.length out.bodyLen out.crc)

/-- Translations that a response still needs are asked for. -/
def Dev.askResponse (q slot : Nat) (cmd : Command) (r : Response) (d : Dev) : Dev :=
  let out := r.pcie cmd.sub.respLen
  let needed := hostAddrs (cmd.respPieces out.body.length) ++ ((d.queue? q).map fun x => [x.cqSlot]).getD []
  Dev.each (needed.filter fun a => (d.targetOf cmd.resolved a).isNone) (Dev.askTranslation q (some slot)) d

/-- The mailbox's response: PF1 uses untranslated addresses; in the fail-safe state nothing is mastered (R338, R351). -/
def emitMailbox (cmd : Command) (r : Response) (s : Memories × Dev) : Memories × Dev :=
  let out := r.pcie cmd.sub.respLen
  let (m, d) := if s.2.mastering then Dev.writePieces 1 some (cmd.respPieces out.body.length) out.body s else s
  (m, d.mboxDone cmd r.word out.status r.fields.length out.bodyLen out.crc)

/-! ## The row -/

/-- Latency bin of R433. -/
def latencyBin (ns : Nat) : Nat := (findNat 63 fun i => decide (ns < 64 * 2 ^ (i + 1))).getD 63

/-- What an emission leaves beside the response: latency, migration stream, cards held for the stream, the coach itself. -/
def Dev.emitted (i : Nat) (c : Coach) (r : Response) (latencyNs : Nat) (d : Dev) : Dev :=
  let d := if c.path < 2 then
      d.onLife fun l => { l with latency := l.latency.update 0 ((c.path * 8 + c.clsNow) * 64 + latencyBin latencyNs) bump }
    else d
  let d := match c.streamHeld with
    | none => d
    | some (k, _, _) =>
      let isExport (f : RespField) : Bool := match f with
        | .attached a => a.export_
        | .bytes _ => false
      let exported : List (RespField × OutField) := (c.run.resp.zip r.fields).filter fun e => isExport e.1
      let bound (x : Stream) : Bool := match c.source with
        | .session n _ => x.kind == 1 && x.source == n
        | .queue q _ => x.kind == 2 && x.source == q
        | _ => false
      let size : Nat := (exported.map fun (e : RespField × OutField) => e.2.bytes.length).sum
      let note (x : Stream) : Stream :=
        if bound x then
          { x with cursor := c.cursor.getD x.cursor, records := satAdd x.records exported.length, bytes := satAdd x.bytes size }
        else x
      d.onNet fun t => { t with streams := t.streams.adjust k note }
  let d := d.onEng fun e => { e with coaches := e.coaches.erase i }
  let held (a : Nat) : Bool := d.eng.coaches.any fun e => e.2.heldAddrs.contains a
  d.onStore fun x => { x with buf := x.buf.filter fun e => !e.2.streamed || held e.1 }

/-- The coach's response can leave now. -/
def Dev.mayEmit (d : Dev) (c : Coach) : Bool :=
  c.stage == .ended && !c.muted && d.pathRuns c.privileged && (d.pfail.flush == .none || d.pfail.flush == .closing) && d.durable c &&
    (match c.source with
     | .session _ _ =>
       let q := (d.mac c.mac).egress.get [] (if c.mac < 64 then c.clsNow else 0)
       decide ((q.map fun f => f.payload.length).sum < 65536)
     | _ => true)

/-- Lane jobs start on the next `n` segments of a coach's response: they come out under the keys held now (R74). -/
def Dev.streamAhead (i n : Nat) (rd : ReadEnv) (d : Dev) : Dev :=
  d.onCoach i fun c => { c with streamed := c.streamed ++ d.readList (c.unstreamed.take n) rd.bodies }

/-- RESPONSE_EMISSION: `rd.bodies` is what the media gives for the segments read now, in order; `part` is how many segments are
read while the response goes on, none where the rest of it leaves; `latencyNs` is the latency of R433. -/
def emissionEffect (i : Nat) (rd : ReadEnv) (part : Option Nat) (latencyNs : Nat) (m : Memories) (d0 : Dev) : Memories × Dev :=
  match d0.coach? i with
  | none => (m, d0)
  | some c =>
    if !d0.mayEmit c then (m, d0)
    else match part with
    | some n => (m, d0.streamAhead i n rd)
    | none =>
      let (fields, d) := Dev.streamFields c.run.resp (c.streamed ++ d0.readList c.unstreamed rd.bodies) d0
      let r := c.response (d0.finalStatus c) fields
      let done (s : Memories × Dev) : Memories × Dev := (s.1, s.2.emitted i c r latencyNs)
      match c.source with
      | .session n seq => done (m, d.emitJenloth i c n seq r)
      | .queue q _ =>
        let cmd := (d.queue? q).bind fun x => x.commands.find? fun e => e.2.stage == .coached i
        match cmd with
        | none => done (m, d)
        | some (slot, cmd) =>
          match emitQueue q slot cmd r (m, d) with
          | some s => done s
          | none => (m, d0.askResponse q slot cmd r)
      | .mailbox _ => match d.pcie.mboxCmd with
        | some cmd => done (emitMailbox cmd r (m, d))
        | none => done (m, d)
      | .mctp => done (m, d.emit (.mctp (leBytes 4 r.word.toNat ++ [r.result, 0, BitVec.ofNat 8 r.fields.length, 0] ++
          r.fields.flatMap pcieField)))
      | .orphan => done (m, d)

/-- RESPONSE_EMISSION. -/
def execResponseEmission (coach : Nat) (rd : StreamEnv) (latencyNs : W64) (s : State) : Answer :=
  onAll (emissionEffect coach rd.toReadEnv rd.part latencyNs.toNat) s

end Sys2Proof.Machine
end

