-- ==== Sys2Proof/Machine/Power.lean ====
section
/-!
DEFINITION. Machine/Power.lean: PWRFAIL# and the flush (R227, R247 to R249, R450).
-/
namespace Sys2Proof.Machine

/-- Every data port with a link sends PFC for all eight priorities with pause time 0xFFFF (R248). -/
def Dev.powerPfc (d : Dev) : Dev :=
  let all (t : Tab Counter) : Tab Counter := (List.range 8).foldl bumpAt t
  Dev.each ((List.range 64).filter fun m => (d.mac m).enabled && (d.mac m).linkUp) (fun m d =>
    (d.onMac m fun c => { c with pfcSent := all c.pfcSent }).emit (.pfc m 0xFF 0xFFFF)) d

/-- Every running coach, and every coach that waits for a context, ends with `UNAVAILABLE` by micro-trap (R248, R402). -/
def Dev.endAll (d : Dev) : Dev :=
  let mine := d.eng.coaches.filter fun e => e.2.stage == .running || e.2.stage == .admitted
  Dev.each mine (fun e d => (match e.2.ctx with
    | some x => d.countTrap x
    | none => d).endCoach e.1 stUnavailable true) d

/-- Reads, erases and patrol end: an erase cut short leaves its stripe FREE and unerased; suspended programs run on (R227). -/
def Dev.stopMedia (d : Dev) : Dev :=
  d.onStore fun x => { x with
    fronts := x.fronts.mapVals fun _ f => { f with preparing := none }
    queues := x.queues.mapVals fun _ q => q.resume d.chip.tick }

/-- The flush begins: of a power failure, or of a failed trial (R227, R248, R392). -/
def Dev.beginFlush (trial : Bool) (d : Dev) : Dev :=
  let d := d.onPfail fun p => { p with flush := .closing, flushTick := d.chip.tick, trialFlush := trial, flushBytes := 0 }
  (d.endAll.stopMedia).closeWindows

/-- An assertion is counted and reported as 0x1006, with the bytes in buffer carts and CHIP_STATE (R417). -/
def Dev.notePwrfail (d : Dev) : Dev :=
  (d.onLife fun l => { l with pwrfails := bump l.pwrfails }).report 8 0 0 0x1006
    [4096 * ((List.range 8).map d.cartSectors).sum, d.chip.stateWord, 0, 0, 0]

/-- PWRFAIL# is latched (R247): the flush in service, a halt during start-up, nothing elsewhere (R249). The flush of a failed
trial goes on as that of a power failure. -/
def Dev.pwrfail (d : Dev) : Dev :=
  let d := d.onPins fun p => { p with pwrfailLow := true }
  if d.pfail.flush != .none then
    if d.pfail.trialFlush then (d.notePwrfail.closeWindows.onPfail fun p => { p with trialFlush := false }).powerPfc else d
  else if d.chip.state == 1 then (d.notePwrfail.beginFlush false).powerPfc
  else if d.chip.state == 0 then d.notePwrfail.closeWindows.onPfail fun p => { p with halted := true }
  else d

/-- PWRFAIL_ASSERTED. -/
def execPwrfailAsserted (s : State) : Answer := whenLive Dev.pwrfail s

/-- PWRFAIL_PULSE_IGNORED: a pulse shorter than 1 us, of `ns` ns (R247, 0x1007). -/
def execPwrfailPulseIgnored (ns : W64) (s : State) : Answer :=
  whenLive (guarded (fun _ => decide (ns.toNat < 1000)) (fun d =>
    (d.onLife fun l => { l with pulses := bump l.pulses }).report 8 0 0 0x1007 [ns.toNat, 0, 0, 0, 0])) s

/-- PWRFAIL_DEASSERT_AT_START: a start that waits in step 1 goes on (R450). -/
def execPwrfailDeassertAtStart (s : State) : Answer :=
  whenLive (guarded (fun d => d.pfail.waiting) (fun d =>
    (d.onPins fun p => { p with pwrfailLow := false }).onPfail fun p => { p with waiting := false })) s

/-- PWRFAIL_PFC_REPEAT: every 3.2 us after PWRFAIL#. -/
def execPwrfailPfcRepeat (s : State) : Answer :=
  whenLive (guarded (fun d => d.pfail.flush != .none && d.pins.pwrfailLow) Dev.powerPfc) s

/-- EMISSION_CUTOFF: 1 ms after PWRFAIL# emission stops for good. -/
def execEmissionCutoff (s : State) : Answer :=
  whenLive (guarded (fun d => d.pfail.flush == .closing) (Dev.onPfail fun p => { p with flush := .stopped })) s

/-- The fronts of a region for which `p` holds are padded to the end of the course they fill (R207, R227). -/
def Dev.padFronts (p : Nat → Bool) (d : Dev) : Dev :=
  Dev.each (d.openRegions.flatMap fun r => ((List.range 7).map (r * 7 + ·)).filter p) (fun f d => d.padCourses f 0) d

/-- A front fills a stripe that holds the copy of a record that is still in carts (R208, R209). -/
def Dev.carriesCopy (d : Dev) (f : Nat) : Bool :=
  (d.front f).stripe.any fun s => d.store.moves.any fun m => stripeOf m.1 == s && (d.store.buf.get? m.2.old).isSome

/-- FLUSH_PROGRAM_START: the courses that hold client records, or copies of them, are filled, so that every cart can be programmed
(log entry 26). -/
def execFlushProgramStart (s : State) : Answer :=
  whenLive (guarded (fun d => d.pfail.flush == .stopped) (fun d =>
    (d.padFronts fun f => decide (frontStream f < 2) || d.carriesCopy f).onPfail fun p =>
      { p with flush := .programming })) s

/-- Every cart of the regions that are not fenced has been programmed. -/
def Dev.drained (d : Dev) : Bool :=
  d.store.buf.all fun e => decide (2 ≤ e.2.rec_.stream) || e.2.lost || e.2.discarded || d.fencedRegion (regionOfAddr e.1) ||
    d.programmedRecord e.1

/-- BUFFER_DRAINED: open courses are padded; 0x1008 is filed and the log page group programmed (R227, R423). `us` is the
duration of the flush. -/
def execBufferDrained (us : W64) (s : State) : Answer :=
  whenLive (guarded (fun d => d.pfail.flush == .programming && d.drained) (fun d =>
    let d := d.padFronts fun _ => true
    let d := (d.report 8 0 0 0x1008 [d.pfail.flushBytes, us.toNat, 0, 0, 0]).closeWindows
    (d.closeLog true true).onPfail fun p => { p with flush := .drained })) s

/-- Every filled course of the regions that are not fenced has been programmed. -/
def Dev.coursesDone (d : Dev) : Bool :=
  d.store.courses.all fun c => !c.2.filled || c.2.programmed || d.fencedRegion (stripeRegion c.2.stripe)

/-- FLUSH_COMPLETE (R227). -/
def execFlushComplete (s : State) : Answer :=
  whenLive (guarded (fun d => d.pfail.flush == .drained && d.coursesDone) (fun d =>
    let d := (d.onPins fun p => { p with selfRefresh := true }).onPfail fun p => { p with flush := .flushed }
    Dev.each d.openRegions (fun r => Dev.onRegion r fun x => { x with flushed := true }) d)) s

end Sys2Proof.Machine
end

