-- ==== Sys2Proof/Machine/Pcie.lean ====
section
/-!
DEFINITION. Machine/Pcie.lean: queue pairs, submission entries and their reads, the management mailbox, and privileged
programs over MCTP (R322 to R345). A row that names a register write of the host stands for a request that has reached the
register; a request that the BAR turns away is UNSUPPORTED_REQUEST (log entry 27).
-/
namespace Sys2Proof.Machine

/-! ## Commands and where they stand -/

/-- The number that stands for the mailbox among the queues. -/
def mailboxQ : Nat := 4096

/-- Function of the endpoint that a queue belongs to. -/
def fnOf (q : Nat) : Nat := if q = mailboxQ then 1 else 0

/-- A command that has been fetched. -/
def Dev.command? (d : Dev) (q key : Nat) : Option Command :=
  if q = mailboxQ then d.pcie.mboxCmd else (d.queue? q).bind fun x => x.commands.get? key

/-- Change a command that has been fetched. -/
def Dev.onCommand (q key : Nat) (f : Command → Command) (d : Dev) : Dev :=
  if q = mailboxQ then d.onPcie fun p => { p with mboxCmd := p.mboxCmd.map f }
  else d.onQueue q fun x => { x with commands := x.commands.adjust key f }

/-- Where a host address of a command translates to; PF1 uses untranslated addresses (R338). -/
def Dev.commandTarget (d : Dev) (q : Nat) (c : Command) (a : Nat) : Option Nat :=
  if q = mailboxQ then some a else d.targetOf c.resolved a

/-- Reads of a command that are out. -/
def Dev.readsOf (d : Dev) (q key : Nat) : Bool :=
  d.pcie.reads.any fun e => match e.2.kind with
    | .data q' key' _ _ => q' == q && key' == key
    | _ => false

/-- Largest read of a function: Max_Read_Request_Size, at most 4,096 bytes (R315). -/
def PcieFunction.maxRead (f : PcieFunction) : Nat := min 4096 (128 * 2 ^ bits f.devControl.toNat 12 3)

/-! ## The submission entry (R327 to R329) -/

/-- The 128 bytes of an entry. -/
def parseEntry (b : Bytes) : Submission :=
  let icount := leAt b 3 1
  let n := min icount 12
  { cid := BitVec.ofNat 16 (leAt b 0 2), flags := BitVec.ofNat 8 (leAt b 2 1), icount := icount, kcount := leAt b 4 1,
    kbytes := leAt b 6 2, vlen := leAt b 8 4, respLen := leAt b 12 4, dataAddr := leAt b 16 8, respAddr := leAt b 24 8,
    inline_ := (List.range n).map fun i => BitVec.ofNat 64 (leAt b (32 + 8 * i) 8)
    reservedOk := leAt b 5 1 == 0 && decide (leAt b 2 1 < 64) && zeroRange b (32 + 8 * n) (96 - 8 * n) }

/-- Words of the program extension. -/
def Submission.extension (x : Submission) : Nat := x.icount - 12

/-- Length D of the data region. -/
def Submission.dataLength (x : Submission) : Nat := 8 * x.extension + x.kbytes + x.vlen

/-- The flag bits of the two regions. -/
def Submission.dataList (x : Submission) : Bool := x.flags.getLsbD 2
@[inherit_doc Submission.dataList] def Submission.dataWindow (x : Submission) : Bool := x.flags.getLsbD 3
@[inherit_doc Submission.dataList] def Submission.respList (x : Submission) : Bool := x.flags.getLsbD 4
@[inherit_doc Submission.dataList] def Submission.respWindow (x : Submission) : Bool := x.flags.getLsbD 5

/-- Check 1 of R329. -/
def Submission.legal (x : Submission) : Bool :=
  x.reservedOk && !(x.dataList && x.dataWindow) && !(x.respList && x.respWindow) && decide (x.vlen ≤ 67108864) &&
    decide (x.kcount ≤ 32) && decide (x.kbytes ≤ 8192)

/-- The pool ranges of [a, a + n) of BAR4/5; none where a slice is not enabled (R328, R342). -/
def Pcie.windowRanges (p : Pcie) : Nat → Nat → Nat → Option (List (Nat × Nat))
  | 0, _, _ => some []
  | fuel + 1, a, n =>
    if n = 0 then some []
    else
      let s := a / 2 ^ 30
      let w := (p.pwActive.get 0 s).toNat
      if p.windowGiB ≤ s ∨ w % 2 = 0 then none
      else
        let k := min n (2 ^ 30 - a % 2 ^ 30)
        (p.windowRanges fuel (a + k) (n - k)).map fun l => (bits w 1 6 * 2 ^ 30 + a % 2 ^ 30, k) :: l

/-- Check 3 of R329 for one region; the pool ranges of a window region. -/
def Pcie.regionRanges (p : Pcie) (listed window : Bool) (address n : Nat) : Option (List (Nat × Nat)) :=
  if n = 0 then (if address = 0 then some [] else none)
  else if window then p.windowRanges 66 address n
  else if listed && address % 8 != 0 then none
  else some []

/-- Reads of host bytes [a, a + n) for part `what` of a command, from offset `off` of it. -/
def unreadPieces (what most off a n : Nat) : List Unread :=
  ((hostPieces most (n / most + n / 4096 + 3) a n).foldl (fun (st : List Unread × Nat) p => match p with
    | .host h k => (st.1 ++ [{ what := what, offset := st.2, address := h, length := k }], st.2 + k)
    | .pool _ _ => st) ([], off)).1

/-- What a command reads first: its lists, or its data where it lies at one address. -/
def Submission.firstReads (x : Submission) (most : Nat) : List Unread :=
  let n := x.dataLength
  let data := if n = 0 ∨ x.dataWindow = true then []
    else if x.dataList then unreadPieces 1 most 0 x.dataAddr (8 * ceilDiv n 4096)
    else unreadPieces 0 most 0 x.dataAddr n
  let resp := if x.respLen = 0 ∨ x.respList = false then [] else unreadPieces 2 most 0 x.respAddr (8 * ceilDiv x.respLen 4096)
  data ++ resp

/-- Where a part of a region or list stands among the bytes received. -/
def partKey (what offset : Nat) : Nat := what * 2 ^ 40 + offset

/-- Bytes received of a part of a command. -/
def Command.received (c : Command) (what : Nat) : Bytes := (c.parts.filter fun e => e.1 / 2 ^ 40 == what).flatMap Prod.snd

/-- The page list received. -/
def Command.pageList (c : Command) (what n : Nat) : List Nat :=
  (List.range (ceilDiv n 4096)).map fun i => leAt (c.received what) (8 * i) 8

/-! ## Reads and their end (R329) -/

/-- The command fails with a status before any instruction ran. Its completion waits for the translation of its slot. -/
def Dev.failCommand (q key : Nat) (st : Byte) (c : Command) (d : Dev) : Dev :=
  let word := outcomeWord st false true false 0 0
  if q = mailboxQ then d.mboxDone c word st 0 0 0
  else match d.queue? q with
    | none => d
    | some x =>
      if (d.targetOf c.resolved x.cqSlot).isNone then d.askTranslation q (some key) x.cqSlot
      else d.post q key word st 0 0 0

/-- Issue the reads of a command as far as translations and tags allow; a function in D3hot fetches nothing (R349). -/
def Dev.pump (q key : Nat) (d : Dev) : Dev :=
  match d.command? q key with
  | none => d
  | some c =>
    if (d.pcie.fn (fnOf q)).d3hot || !d.mastering then d
    else
      let keep (u : Unread) : Dev → Dev := Dev.onCommand q key fun c => { c with unread := c.unread ++ [u] }
      Dev.each c.unread (fun u d =>
        if (d.pcie.freeTag (d.pcie.sevenQueue q)).isNone then keep u d
        else match d.commandTarget q c u.address with
          | none => keep u (d.askTranslation q (some key) u.address)
          | some t => d.issue { kind := .data q key u.what u.offset, address := BitVec.ofNat 64 t, host := u.address, length := u.length,
                                since := d.chip.tick })
        (d.onCommand q key fun c => { c with unread := [] })

/-- The command's coach (checks 5 and 6 of R329). -/
def Dev.formCoach (q key : Nat) (c : Command) (d : Dev) : Dev :=
  let x := c.sub
  let data := c.received 0
  let body := data.drop (8 * x.extension)
  let fail : Dev := d.failCommand q key stIllegalValue c
  match takeKeys x.kcount (body.take x.kbytes) with
  | some (keys, []) =>
    if keys.any List.isEmpty then fail
    else
      let id := d.eng.nextCoach
      let words := x.inline_ ++ (List.range x.extension).map fun i => BitVec.ofNat 64 (leAt data (8 * i) 8)
      let queue : QueuePair := (d.queue? q).getD {}
      let mailbox := decide (q = mailboxQ)
      let coach : Coach :=
        { source := if mailbox then .mailbox x.cid else .queue q x.cid, path := if mailbox then 2 else 1, order := c.order,
          bound := if mailbox then 3 else queue.cls, durability := x.flags.toNat % 4, announced := x.icount, program := words,
          keys := keys, inbound := body.drop x.kbytes, defaultNs := queue.nsDefault, ruleset := queue.ruleset, respRoom := x.respLen }
      (d.onEng fun e => { e with nextCoach := id + 1, coaches := e.coaches.set id coach }).onCommand q key fun c =>
        { c with stage := .coached id, parts := [] }
  | _ => fail

/-- The page lists of a command have come: pages must be aligned (R328). -/
def Dev.takeLists (q key : Nat) (c : Command) (d : Dev) : Dev :=
  let x := c.sub
  let pages := if x.dataList then c.pageList 1 x.dataLength else []
  let resp := if x.respList then c.pageList 2 x.respLen else []
  let most := (d.pcie.fn (fnOf q)).maxRead
  let data := ((List.range pages.length).flatMap fun i =>
    unreadPieces 0 most (4096 * i) (pages.getD i 0) (min 4096 (x.dataLength - 4096 * i)))
  let bad := (pages ++ resp).any fun p => p % 4096 != 0
  d.onCommand q key fun c => { c with
    listed := true, pages := pages, respPages := resp, unread := if bad then [] else data
    failure := if bad then some 0x44 else c.failure }

/-- Carry a command that is being read as far as it goes. -/
def Dev.progressOnce (q key : Nat) (d : Dev) : Dev :=
  match d.command? q key with
  | none => d
  | some c =>
    if c.stage != .reading then d
    else match c.failure with
      | some st => d.failCommand q key st c
      | none =>
        let d := d.pump q key
        match d.command? q key with
        | none => d
        | some c =>
          if !c.unread.isEmpty || d.readsOf q key then d
          else if c.listed then d.formCoach q key c
          else d.takeLists q key c

/-- Carry a command that is being read as far as it goes: lists, data, coach or failure. -/
def Dev.progress (q key : Nat) (d : Dev) : Dev := ((d.progressOnce q key).progressOnce q key).progressOnce q key

/-- A command fails while it is read. -/
def Dev.failReading (q key : Nat) (st : Byte) (d : Dev) : Dev :=
  (d.onCommand q key fun c => { c with failure := if c.failure.isNone then some st else c.failure, unread := [] }).progress q key

/-- Commands that wait for tags go on. -/
def Dev.pumpAll (d : Dev) : Dev :=
  let waits (c : Command) : Bool := c.stage == .reading && (!c.unread.isEmpty || c.failure.isSome)
  let queued := d.pcie.queues.flatMap fun e => (e.2.commands.filter fun c => waits c.2).map fun c => (e.1, c.1)
  let mailbox := match d.pcie.mboxCmd with
    | some c => if waits c then [(mailboxQ, c.order)] else []
    | none => []
  Dev.each (queued ++ mailbox) (fun k d => d.progress k.1 k.2) d

/-! ## Queue commands (R322 to R324, R333) -/

/-- Queue, size, class and interrupt enable of PCIE_QP_PARAM. -/
def Pcie.qpId (p : Pcie) : Nat := bits p.qpParam.toNat 0 12
@[inherit_doc Pcie.qpId] def Pcie.qpSize (p : Pcie) : Nat := bits p.qpParam.toNat 12 16
@[inherit_doc Pcie.qpId] def Pcie.qpClass (p : Pcie) : Nat := bits p.qpParam.toNat 28 3

/-- Create checks, first failure (R323). -/
def Pcie.createStatus (p : Pcie) : Byte :=
  if (p.queues.get? p.qpId).isSome then 0x41
  else if p.qpSize = 0 then 0x42
  else if p.qpSqBase = 0 ∨ p.qpCqBase = 0 ∨ p.qpSqBase.toNat % 4096 ≠ 0 ∨ p.qpCqBase.toNat % 4096 ≠ 0 then 0x44
  else if 2048 ≤ p.qpVec.toNat % 65536 then 0x43
  else if bits p.policy.toNat 32 3 < p.qpClass then 0x45
  else stOk

/-- The queue that a create makes. -/
def Pcie.newQueue (p : Pcie) : QueuePair :=
  let intEn := p.qpParam.getLsbD 31
  { sqBase := p.qpSqBase, cqBase := p.qpCqBase, size := p.qpSize + 1, cls := p.qpClass, intEn := intEn,
    vector := p.qpVec.toNat % 65536, ruleset := p.policy.setWidth 16, nsDefault := (p.policy >>> 16).setWidth 16, armed := intEn }

/-- A PCIE_QCMD write is ignored and counted while a command runs or its result stands (R322). -/
def queueCommand (f : Dev → Dev) (d : Dev) : Dev :=
  if d.pcie.qresult.busy || d.pcie.qresult.valid then d.onPcie fun p => { p with cmdIgnored := bump p.cmdIgnored } else f d

/-- A queue command runs on. -/
def Dev.queueBusy : Dev → Dev := Dev.onPcie fun p => { p with qresult := { valid := false, busy := true, status := stNotReady } }

/-- Create. -/
def queueCreateEffect (d : Dev) : Dev :=
  let st := d.pcie.createStatus
  (if st = stOk then d.onPcie fun p => { p with queues := p.queues.set p.qpId p.newQueue } else d).queueResult st

/-- QUEUE_CREATE. -/
def execQueueCreate (_by : FuncId) (s : State) : Answer := whenLive (queueCommand queueCreateEffect) s

/-- Delete: fetching stops; streams of the queue close (R311, R324). -/
def queueDeleteEffect (d : Dev) : Dev :=
  let q := d.pcie.qpId
  match d.queue? q with
  | none => d.queueResult 0x40
  | some _ =>
    ((d.onQueue q fun x => { x with deleting := true }).closeStreamsOf 2 q).queueBusy.onPcie fun p => { p with deletingQ := some q }

/-- QUEUE_DELETE. -/
def execQueueDelete (_by : FuncId) (s : State) : Answer := whenLive (queueCommand queueDeleteEffect) s

/-- QUEUE_DELETE_DONE: every command fetched has posted its completion. -/
def execQueueDeleteDone (s : State) : Answer :=
  whenLive (fun d => match d.pcie.deletingQ with
    | none => d
    | some q => match d.queue? q with
      | none => d
      | some x =>
        if x.commands.isEmpty && !x.fetching then
          (d.onPcie fun p => { p with queues := p.queues.erase q, deletingQ := none }).queueResult stOk
        else d) s

/-- What an abort finds once every entry has been fetched (R333). The result follows the completion of its target. -/
def Dev.decideAbort (q : Nat) (cid : W16) (d : Dev) : Dev :=
  match (d.queue? q).bind fun x => x.commands.find? fun e => e.2.sub.cid == cid with
  | none => d.queueResult stAlreadyComplete
  | some (key, c) =>
    let await (st : Byte) : Dev → Dev := Dev.onPcie fun p => { p with abortWait := some (q, key, st) }
    match c.stage with
    | .coached i =>
      let (st, d) := d.abortCoach i
      await st d
    | .reading =>
      if c.failure.isSome then await stAlreadyComplete d else (await stOk d).failReading q key stAborted

/-- An abort that fetches goes on: decided where nothing is left to fetch, or nothing more is fetched. -/
def Dev.abortStep (d : Dev) : Dev :=
  match d.pcie.abortAsk with
  | none => d
  | some (q, cid) =>
    let more := match d.queue? q with
      | none => false
      | some x => !x.error && (x.fetching || x.sqHead != x.sqTail)
    if more then d else (d.onPcie fun p => { p with abortAsk := none }).decideAbort q cid

/-- Abort. -/
def queueAbortEffect (cid : W16) (d : Dev) : Dev :=
  let q := d.pcie.qpId
  if (d.queue? q).isNone then d.queueResult 0x40
  else (d.queueBusy.onPcie fun p => { p with abortAsk := some (q, cid) }).abortStep

/-- QUEUE_ABORT. -/
def execQueueAbort (_by : FuncId) (cid : W16) (s : State) : Answer := whenLive (queueCommand (queueAbortEffect cid)) s

/-- QUEUE_RESULT_ACK. -/
def execQueueResultAck (_by : FuncId) (s : State) : Answer :=
  whenLive (guarded (fun d => d.pcie.qresult.valid) (Dev.onPcie fun p => { p with qresult := {} })) s

/-! ## Doorbells (R325, R337) -/

/-- A doorbell is ignored (0xB005). -/
def Dev.badDoorbell (q which value : Nat) (d : Dev) : Dev :=
  (d.onPcie fun p => { p with dbInvalid := bump p.dbInvalid }).report 8 2 0 0xB005 [q, which, value, 0, 0]

/-- SQ tail. -/
def sqTailEffect (q value : Nat) (d : Dev) : Dev :=
  match d.queue? q with
  | none => d.badDoorbell q 1 value
  | some x => if x.size ≤ value then d.badDoorbell q 1 value else d.onQueue q fun x => { x with sqTail := value }

/-- SQ_TAIL_DOORBELL. -/
def execSqTailDoorbell (q : QueueId) (value : W32) (s : State) : Answer := whenLive (sqTailEffect q.val value.toNat) s

/-- Completions posted and not yet consumed, with the head at `h`. -/
def QueuePair.posted (x : QueuePair) (h : Nat) : Nat := (x.cqTail + x.size - h) % x.size

/-- CQ head: re-arms the queue; where completions remain, its vector is sent again. -/
def cqHeadEffect (q value : Nat) (d : Dev) : Dev :=
  match d.queue? q with
  | none => d.badDoorbell q 2 value
  | some x =>
    if x.size ≤ value ∨ x.posted x.cqHead < (value + x.size - x.cqHead) % x.size then d.badDoorbell q 2 value
    else
      let again := x.intEn && x.posted value != 0
      let d := d.onQueue q fun x => { x with cqHead := value, armed := x.intEn && !again }
      if again then d.raise 0 x.vector else d

/-- CQ_HEAD_DOORBELL. -/
def execCqHeadDoorbell (q : QueueId) (value : W32) (s : State) : Answer := whenLive (cqHeadEffect q.val value.toNat) s

/-! ## Fetch (R326) -/

/-- An entry of the queue may be fetched: a CQ slot can be reserved for it. -/
def QueuePair.mayFetch (x : QueuePair) : Bool :=
  !x.deleting && !x.error && !x.fetching && x.sqHead != x.sqTail && decide (x.commands.length + x.posted x.cqHead < x.size - 1)

/-- Fetch of the next entry of a queue; its address may first need a translation. -/
def fetchEffect (q : Nat) (d : Dev) : Dev :=
  match d.queue? q with
  | none => d
  | some x =>
    if !x.mayFetch || d.pcie.pf0.d3hot || d.pfail.flush != .none || (d.pcie.freeTag (d.pcie.sevenQueue q)).isNone then d
    else
      let a := x.sqBase.toNat + 128 * x.sqHead
      match d.targetOf [] a with
      | none => d.askTranslation q none a
      | some t =>
        (d.issue { kind := .entry q x.sqHead, address := BitVec.ofNat 64 t, host := a, length := 128, since := d.chip.tick }).onQueue q
          fun x => { x with fetching := true }

/-- SQ_ENTRY_FETCH. -/
def execSqEntryFetch (q : QueueId) (s : State) : Answer := onDev (guarded Dev.serving (fetchEffect q.val)) s

/-- The first reads of a command whose entry has been read; window data is copied from the pool at once (R329, R344). -/
def Dev.beginCommand (q : Nat) (c : Command) (clash : Bool) (pool : Mem) (d : Dev) : Dev :=
  let x := c.sub
  let key := c.order
  if !x.legal then d.failReading q key stIllegalValue
  else if clash then d.failReading q key 0x48
  else match d.pcie.regionRanges x.dataList x.dataWindow x.dataAddr x.dataLength,
        d.pcie.regionRanges x.respList x.respWindow x.respAddr x.respLen with
    | some data, some resp =>
      let copied := if x.dataWindow then [(0, data.flatMap fun r => Mem.readBytes 0 pool r.1 r.2)] else []
      let most := (d.pcie.fn (fnOf q)).maxRead
      (d.onCommand q key fun c => { c with dataPool := data, respPool := resp, parts := copied, unread := x.firstReads most }).progress q key
    | _, _ => d.failReading q key 0x44

/-- An entry has come (SQ_ENTRY_CHECK). -/
def Dev.entryArrived (q : Nat) (b : Bytes) (pool : Mem) (d : Dev) : Dev :=
  match d.queue? q with
  | none => d
  | some x =>
    if x.deleting then d.onQueue q fun x => { x with fetching := false }
    else
      let key := d.eng.nextStamp
      let c : Command := { slot := x.sqHead, order := key, sub := parseEntry b }
      let clash := x.commands.any fun e => e.2.sub.cid == c.sub.cid
      let next := if x.size ≤ x.sqHead + 1 then 0 else x.sqHead + 1
      let d := d.onEng fun e => { e with nextStamp := key + 1 }
      let d := d.onQueue q fun x => { x with fetching := false, sqHead := next, commands := x.commands.set key c }
      (d.beginCommand q c clash pool).abortStep

/-! ## Answers (R329, R338, R341) -/

/-- A queue is in error; an abort that waits for more entries is decided. -/
def Dev.fetchFailed (q cause : Nat) (d : Dev) : Dev := (d.queueError q cause).abortStep

/-- A translation that a command's response or completion needs is denied: nothing more is written for it, and the queue is
in error (R341). -/
def Dev.dropCommand (q key : Nat) (c : Command) (d : Dev) : Dev :=
  let d := match c.stage with
    | .coached i => d.onCoach i fun c => { c with source := .orphan }
    | .reading => d
  ((d.onQueue q fun x => { x with commands := x.commands.erase key }).fetchFailed q 4).commandGone q key

/-- A translation is denied (R338). -/
def Dev.denied (q : Nat) (key : Option Nat) (d : Dev) : Dev :=
  match key with
  | none => d.fetchFailed q 4
  | some k => match d.command? q k with
    | none => d
    | some c => if c.stage == .reading && c.failure.isNone then d.failReading q k 0x46 else d.dropCommand q k c

/-- A translation has come: the cache holds 1,024, and a command keeps its own until it completes. -/
def Dev.learn (q : Nat) (key : Option Nat) (page target : Nat) (d : Dev) : Dev :=
  let d := d.onPcie fun p => { p with
    cache := ({ page := page, target := target } :: p.cache.filter fun t => t.page != page).take 1024 }
  match key with
  | none => d
  | some k => (d.onCommand q k fun c => { c with resolved := (page, target) :: c.resolved }).progress q k

/-- The answer to an outstanding request. One that is shorter than asked leaves it outstanding (R339). -/
def Dev.answered (tag : Nat) (a : DmaAnswer) (pool : Mem) (d : Dev) : Dev :=
  match d.pcie.reads.get? tag with
  | none => d
  | some r =>
    let d' := d.onPcie fun p => { p with reads := p.reads.erase tag }
    match r.kind, a with
    | .entry q _, .data b => if b.length < r.length then d else (d'.entryArrived q (b.take r.length) pool).pumpAll
    | .entry q _, .unsupported => (d'.fetchFailed q 2).pumpAll
    | .entry q _, .completerAbort => (d'.fetchFailed q 2).pumpAll
    | .entry q _, .poisoned => (d'.fetchFailed q 3).pumpAll
    | .entry _ _, _ => d
    | .data q key what off, .data b =>
      if b.length < r.length then d
      else ((d'.onCommand q key fun c => { c with parts := c.parts.set (partKey what off) (b.take r.length) }).progress q key).pumpAll
    | .data _ _ _ _, .translated _ => d
    | .data _ _ _ _, .translationDenied => d
    | .data q key _ _, _ => (d'.failReading q key 0x46).pumpAll
    | .translation q key page, .translated t =>
      (if r.stale then (match key with
        | none => d'
        | some k => d'.progress q k) else d'.learn q key page (t.toNat / 4096)).pumpAll
    | .translation _ _ _, .data _ => d
    | .translation q key _, _ => (d'.denied q key).pumpAll

/-- DMA_READ_COMPLETION. -/
def execDmaReadCompletion (tag : Nat) (answer : DmaAnswer) (s : State) : Answer := whenLive (Dev.answered tag answer s.mem.pool) s

/-! ## Timeouts (R339, R340) -/

/-- Completion timeout in ms: the upper limit of the sub-range that Device Control 2 selects; 50 ms by default. PRESUMED: the
ranges of the Base specification (log entry 28). -/
def PcieFunction.timeoutMs (f : PcieFunction) : Nat :=
  match f.devControl2.toNat % 16 with
  | 1 => 1 | 2 => 10 | 5 => 55 | 6 => 210 | 9 => 900 | 10 => 3500 | 13 => 13000 | 14 => 64000
  | _ => 50

/-- Function, kind, queue and cid of a request, as 0xB003 gives them. -/
def Dev.requestOf (d : Dev) (k : DmaKind) : Nat × Nat × Nat × Nat :=
  let cid (q key : Nat) : Nat := ((d.command? q key).map fun c => c.sub.cid.toNat).getD 0
  match k with
  | .entry q _ => (0, 1, q, 0)
  | .data q key _ _ => (fnOf q, 2, if q = mailboxQ then 0xFFFF else q, cid q key)
  | .translation q key _ => (0, 3, q, (key.map (cid q)).getD 0)

/-- AER error bits of a function (R316, R339, R340): Completion Timeout 14, Unexpected Completion 16, Unsupported Request 20. -/
def Dev.aer (fn b : Nat) : Dev → Dev := Dev.onFn fn fun f => { f with aerUncorr := setBit f.aerUncorr b true }

/-- A tag is kept out of use for four times the timeout. -/
def Dev.quarantined (tag fn : Nat) (d : Dev) : Dev :=
  d.onPcie fun p => { p with
    reads := p.reads.erase tag, quarantine := p.quarantine.set tag (d.chip.tick + 4 * (p.fn fn).timeoutMs, fn) }

/-- A request times out. -/
def Dev.timedOut (tag : Nat) (r : DmaRead) (d : Dev) : Dev :=
  let (fn, kind, q, cid) := d.requestOf r.kind
  let d := (d.aer fn 14).onPcie fun p => { p with cplTimeouts := bump p.cplTimeouts }
  let d := (d.report 8 2 0 0xB003 [fn, tag, kind, q, cid]).quarantined tag fn
  match r.kind with
  | .entry q _ => d.fetchFailed q 1
  | .data q key _ _ => d.failReading q key stTimeout
  | .translation q none _ => d.fetchFailed q 1
  | .translation q (some key) _ => match d.command? q key with
    | none => d
    | some c => if c.stage == .reading && c.failure.isNone then d.failReading q key stTimeout else d.progress q key

/-- COMPLETION_TIMEOUT (log entry 4). -/
def execCompletionTimeout (tag : Nat) (s : State) : Answer :=
  whenLive (fun d => match d.pcie.reads.get? tag with
    | none => d
    | some r =>
      if r.since + (d.pcie.fn (d.requestOf r.kind).1).timeoutMs ≤ d.chip.tick then d.timedOut tag r else d) s

/-- LATE_COMPLETION. -/
def execLateCompletion (tag byteCount : Nat) (s : State) : Answer :=
  whenLive (fun d => match d.pcie.quarantine.get? tag with
    | none => d
    | some (_, fn) =>
      ((d.aer fn 16).onPcie fun p => { p with lateCpl := bump p.lateCpl }).report 8 2 0 0xB004 [fn, tag, byteCount, 0, 0]) s

/-- TAG_QUARANTINE_EXPIRY. -/
def execTagQuarantineExpiry (tag : Nat) (s : State) : Answer :=
  whenLive (fun d => match d.pcie.quarantine.get? tag with
    | none => d
    | some (until_, _) =>
      if until_ ≤ d.chip.tick then (d.onPcie fun p => { p with quarantine := p.quarantine.erase tag }).pumpAll else d) s

/-! ## Invalidation of translations (R338) -/

/-- Does a 4 KiB page meet a range of addresses? -/
def pageMeets (range : Nat × Nat) (page : Nat) : Bool := decide (range.1 ≤ page * 4096 + 4095 ∧ page * 4096 ≤ range.2)

/-- A translation request. -/
def DmaKind.isTranslation : DmaKind → Bool
  | .translation _ _ _ => true
  | _ => false

/-- An Invalidate Request: translations of the range are forgotten, so that later accesses ask again. -/
def invalidateEffect (range : Nat × Nat) (d : Dev) : Dev :=
  if 32 ≤ d.pcie.invalidating.length then d
  else
    let forget (c : Command) : Command := { c with resolved := c.resolved.filter fun t => !pageMeets range t.1 }
    let queue (x : QueuePair) : QueuePair := { x with commands := x.commands.mapVals fun _ c => forget c }
    let overtake (r : DmaRead) : DmaRead :=
      if r.kind.isTranslation && pageMeets range (r.host / 4096) then { r with stale := true } else r
    d.onPcie fun p => { p with
      invalidating := p.invalidating ++ [range], cache := p.cache.filter fun t => !pageMeets range t.page
      queues := p.queues.mapVals fun _ x => queue x, reads := p.reads.mapVals fun _ r => overtake r }

/-- ATS_INVALIDATE_REQUEST: first and last address of the range. -/
def execAtsInvalidateRequest (first last : W64) (s : State) : Answer :=
  whenLive (guarded Dev.atsOn (invalidateEffect (first.toNat, last.toNat))) s

/-- ATS_INVALIDATE_DONE: every read already issued under the oldest range has completed. -/
def execAtsInvalidateDone (s : State) : Answer :=
  whenLive (fun d => match d.pcie.invalidating with
    | [] => d
    | range :: rest =>
      let out := d.pcie.reads.any fun e =>
        !e.2.kind.isTranslation && (d.requestOf e.2.kind).1 == 0 && pageMeets range (e.2.host / 4096)
      if out then d
      else (d.onPcie fun p => { p with invalidating := rest, atsInval := bump p.atsInval }).emit .atsComplete) s

/-! ## The management mailbox (R335) -/

/-- The mailbox command runs. -/
def mboxEffect (pool : Mem) (d : Dev) : Dev :=
  if d.pcie.mboxStatus.busy || d.pcie.mboxStatus.valid then d.onPcie fun p => { p with cmdIgnored := bump p.cmdIgnored }
  else
    let key := d.eng.nextStamp
    let c : Command := { order := key, sub := parseEntry (Mem.readBytes 0 d.pcie.mboxEntry 0 128) }
    let d := d.onEng fun e => { e with nextStamp := key + 1 }
    let d := d.onPcie fun p => { p with mboxCmd := some c, mboxStatus := { valid := false, busy := true, status := stNotReady } }
    d.beginCommand mailboxQ c false pool

/-- MBOX_DOORBELL. -/
def execMboxDoorbell (s : State) : Answer := whenLive (mboxEffect s.mem.pool) s

/-- MBOX_ACK. -/
def execMboxAck (s : State) : Answer :=
  whenLive (guarded (fun d => d.pcie.mboxStatus.valid) (Dev.onPcie fun p => { p with mboxStatus := {}, mboxResult := none })) s

/-! ## SMBus with MCTP (R63) -/

/-- A privileged program over MCTP. DESIGN CHOICE: the message is a submission entry of R327 with its data region behind it
(log entry 29). -/
def mctpEffect (b : Bytes) (d : Dev) : Dev :=
  let x := parseEntry (b.take 128)
  let data := b.drop 128
  let body := data.drop (8 * x.extension)
  let fail : Dev := d.emit (.mctp (leBytes 4 (outcomeWord stIllegalValue false true false 0 0).toNat ++ [stIllegalValue, 0, 0, 0]))
  let plain := x.dataAddr == 0 && x.respAddr == 0 && x.respLen == 0 && decide (x.flags.toNat < 4)
  if b.length < 128 ∨ x.legal = false ∨ plain = false ∨ data.length ≠ x.dataLength then fail
  else match takeKeys x.kcount (body.take x.kbytes) with
    | some (keys, []) =>
      if keys.any List.isEmpty then fail
      else
        let id := d.eng.nextCoach
        let coach : Coach :=
          { source := .mctp, path := 2, order := d.eng.nextStamp, bound := 3, durability := x.flags.toNat % 4, announced := x.icount,
            program := x.inline_ ++ (List.range x.extension).map (fun i => BitVec.ofNat 64 (leAt data (8 * i) 8))
            keys := keys, inbound := body.drop x.kbytes }
        d.onEng fun e => { e with nextCoach := id + 1, nextStamp := e.nextStamp + 1, coaches := e.coaches.set id coach }
    | _ => fail

/-- MCTP_MESSAGE. -/
def execMctpMessage (message : Bytes) (s : State) : Answer := onDev (guarded (fun d => d.pathRuns true) (mctpEffect message)) s

end Sys2Proof.Machine
end

