-- ==== Sys2Proof/Machine/PcieLink.lean ====
section
/-!
DEFINITION. Machine/PcieLink.lean: the endpoint apart from its queues: the peer window, function resets and link, power
states, MSI-X masks, configuration space and the Device Description Table (R315 to R321, R336, R342 to R352).
-/
namespace Sys2Proof.Machine

/-! ## The peer window (R342, R343) -/

/-- Registers that settings give, by control-space offset (entries of type 1, R395). -/
def Firmware.registerEntries (f : Firmware) : List Bytes :=
  (f.entries.filter fun e => e.kind == 1 && decide (16 ≤ e.value.length)).map fun e => e.value

/-- The window mapping that settings give. -/
def Firmware.windowEntries (f : Firmware) : Tab W64 :=
  f.registerEntries.foldl (fun (t : Tab W64) b =>
    let a := leAt b 0 4
    if 0x203000 ≤ a ∧ a < 0x203200 ∧ a % 8 = 0 then
      t.set ((a - 0x203000) / 8) (BitVec.ofNat 64 (leAt b 8 (leAt b 4 1 % 16) % 128))
    else t) []

/-- The window mapping is loaded from settings again (R350). -/
def Dev.reloadWindow (d : Dev) : Dev :=
  let t := d.fw.windowEntries
  d.onPcie fun p => { p with pwShadow := t, pwActive := t, badCommit := false }

/-- A commit names a pool slice that does not exist. -/
def Pcie.badShadow (p : Pcie) : Bool :=
  p.pwShadow.any fun e => decide (e.1 < p.windowGiB) && e.2.getLsbD 0 && decide (p.windowGiB ≤ bits e.2.toNat 1 6)

/-- Commit of the shadow mapping. -/
def Pcie.commitWindow (p : Pcie) : Pcie :=
  if p.badShadow then { p with badCommit := true } else { p with badCommit := false, pwActive := p.pwShadow }

/-- PW_COMMIT. -/
def execPwCommit (s : State) : Answer := whenLive (Dev.onPcie Pcie.commitWindow) s

/-- The pool byte that an offset of BAR4/5 reaches; none where its slice is disabled. -/
def Pcie.poolByte (p : Pcie) (offset : Nat) : Option Nat := ((p.windowRanges 1 offset 1).bind List.head?).map Prod.fst

/-- An access to the peer window, which lies within one slice. -/
def windowEffect (write : Bool) (offset length : Nat) (bytes : Bytes) (m : Memories) (d : Dev) : Memories × Dev :=
  if d.failsafe then (m, if write then d else d.emit .completerAbort)
  else match d.pcie.poolByte offset with
    | none =>
      (m, if write then (d.aer 0 20).onPcie fun p => { p with pwDiscard := bump p.pwDiscard } else d.emit .unsupported)
    | some a =>
      if write then ({ m with pool := Mem.writeBytes 0 m.pool a (bytes.take length) }, d)
      else (m, d.emit (.readData (Mem.readBytes 0 m.pool a length)))

/-- PEER_WINDOW_ACCESS: one request, which lies within 4 KiB. -/
def execPeerWindowAccess (write : Bool) (offset length : Nat) (bytes : Bytes) (s : State) : Answer :=
  onAll (fun m d =>
    if d.running && decide (offset < d.pcie.windowGiB * 2 ^ 30 ∧ offset % 4096 + length ≤ 4096) then windowEffect write offset length bytes m d
    else (m, d)) s

/-- UNSUPPORTED_REQUEST: a request of R316 is answered with Unsupported Request, or discarded and reported. -/
def execUnsupportedRequest (posted : Bool) (s : State) : Answer :=
  onDev (guarded Dev.running (fun d => if posted then d.aer 0 20 else d.emit .unsupported)) s

/-! ## Resets of a function (R350) -/

/-- An orphaned command: dropped where it had not been dispatched; otherwise it runs on and its writes and completion are
discarded. -/
def Dev.orphan (c : Command) (d : Dev) : Dev :=
  match c.stage with
  | .reading => d
  | .coached i =>
    match (d.coach i).stage with
    | .running => d.onCoach i fun c => { c with source := .orphan }
    | .ended => d.onCoach i fun c => { c with source := .orphan }
    | _ => d.onEng fun e => { e with coaches := e.coaches.erase i }

/-- Outstanding reads of a function are late from now on (R340). -/
def Dev.dropReads (fn : Nat) (d : Dev) : Dev :=
  let mine := d.pcie.reads.filter fun e => (d.requestOf e.2.kind).1 == fn
  Dev.each (mine.map Prod.fst) (fun t d => d.quarantined t fn) d

/-- Commands of PF0 that have been fetched. -/
def Pcie.outstanding (p : Pcie) : List Command := p.queues.flatMap fun e => e.2.commands.map Prod.snd

/-- A function's configuration after FLR or hot reset: defaults, but for the sticky error registers. PRESUMED: which registers
of the Base specification are RWS (log entry 28). -/
def PcieFunction.sticky (f : PcieFunction) : PcieFunction :=
  { aerUncorr := f.aerUncorr, aerCorr := f.aerCorr, aerMask := f.aerMask, aerSeverity := f.aerSeverity, aerCorrMask := f.aerCorrMask }

/-- Reset of PF0: its configuration, its queues and the queue command registers. -/
def Dev.resetPf0 (d : Dev) : Dev :=
  let d := d.dropReads 0
  let d := Dev.each d.pcie.outstanding Dev.orphan d
  let d := Dev.each (d.pcie.queues.map Prod.fst) (fun q d => d.closeStreamsOf 2 q) d
  d.onPcie fun p => { p with
    pf0 := p.pf0.sticky, queues := [], heldPf0 := [], deletingQ := none, abortAsk := none, abortWait := none, qresult := {}
    qpSqBase := 0, qpCqBase := 0, qpParam := 0, qpVec := 0, cache := [], invalidating := [] }

/-- Reset of PF1: its configuration and the mailbox. -/
def Dev.resetPf1 (d : Dev) : Dev :=
  let d := d.dropReads 1
  let d := match d.pcie.mboxCmd with
    | some c => d.orphan c
    | none => d
  d.onPcie fun p => { p with pf1 := p.pf1.sticky, heldPf1 := [], mboxEntry := [], mboxStatus := {}, mboxResult := none, mboxCmd := none }

/-- FLR of PF0 (0xB007). -/
def Dev.flr0 (d : Dev) : Dev := d.resetPf0.report 8 2 0 0xB007 [0, d.pcie.outstanding.length, 0, 0, 0]

/-- FLR of PF1. -/
def Dev.flr1 (d : Dev) : Dev := d.resetPf1.report 8 2 0 0xB007 [1, b2n d.pcie.mboxCmd.isSome, 0, 0, 0]

/-- FLR_PF0. -/
def execFlrPf0 (s : State) : Answer := whenLive Dev.flr0 s
/-- FLR_PF1. -/
def execFlrPf1 (s : State) : Answer := whenLive Dev.flr1 s

/-- The link goes down for a cause of 0xB002, which the lifetime counts take (R352, R433). -/
def Dev.pcieLinkDown (cause : Nat) (d : Dev) : Dev :=
  let d := d.onPcie fun p => { p with linkUp := false, gen := 0, width := 0, flit := false, link := .l0 }
  (d.onLife fun l => { l with linkDowns := l.linkDowns.update 0 (520 + cause) bump }).report 8 2 0 0xB002 [cause, 0, 0, 0, 0]

/-- Both functions are reset, and the window is loaded again. -/
def Dev.resetEndpoint (cause : Nat) (d : Dev) : Dev :=
  let d := (d.resetPf0.resetPf1).reloadWindow
  if d.pcie.linkUp then d.pcieLinkDown cause else d

/-- HOT_RESET: hot reset or surprise down. -/
def execHotReset (cause : PcieDownCause) (s : State) : Answer :=
  onDev (guarded (fun d => d.running && d.pcie.linkUp) (Dev.resetEndpoint (match cause with
    | .hotReset => 2
    | .surpriseDown => 3))) s

/-! ## The link (R315, R346, R352, R453) -/

/-- Rate in GT/s of a generation; the 2.5 GT/s of generation 1 counts as 2 (log entry 27). -/
def rateGT (gen : Nat) : Nat := [0, 2, 5, 8, 16, 32, 64].getD gen 0

/-- PCIE_LINK_UP. -/
def execPcieLinkUp (gen : Fin 7) (width : Fin 17) (flit : Bool) (s : State) : Answer :=
  onDev (guarded (fun d => d.running && d.pcie.training && !d.pcie.linkUp && decide (gen.val ≠ 0) &&
      [1, 2, 4, 8, 16].contains width.val && (gen.val != 6 || flit))
    (fun d => (d.onPcie fun p => { p with linkUp := true, gen := gen.val, width := width.val, flit := flit, link := .l0 }).report 8 2 0 0xB001
      [rateGT gen.val, width.val, b2n flit, 0, 0])) s

/-- ASPM of PF0 as the host enables it: L0s and L1. -/
def Pcie.aspm (p : Pcie) (b : Nat) : Bool := p.pf0.linkControl.getLsbD b

/-- L0S_ENTRY: after 1 us idle in one direction (log entry 4). -/
def execL0sEntry (s : State) : Answer :=
  onDev (guarded (fun d => d.running && d.pcie.linkUp && !d.pcie.flit && d.pcie.link == .l0 && d.pcie.aspm 0)
    (Dev.onPcie fun p => { p with link := .l0s })) s

/-- L1_ENTRY: after 32 us idle with no non-posted request outstanding. -/
def execL1Entry (s : State) : Answer :=
  onDev (guarded (fun d => d.running && d.pcie.linkUp && (d.pcie.link == .l0 || d.pcie.link == .l0s) && d.pcie.aspm 1 && d.pcie.reads.isEmpty)
    (Dev.onPcie fun p => { p with link := .l1 })) s

/-- The L1 substate that the host enables: L1.2 before L1.1. PRESUMED: L1 PM Substates Control 1 of the Base specification
(log entry 28). -/
def Pcie.substate (p : Pcie) : Option LinkPower :=
  let w := p.pf0.other.get 0 0x288
  if w.getLsbD 0 || w.getLsbD 2 then some .l12 else if w.getLsbD 1 || w.getLsbD 3 then some .l11 else none

/-- CLKREQ_RELEASE: PCIE_CLKREQ# is released in L1. -/
def execClkreqRelease (s : State) : Answer :=
  onDev (guarded (fun d => d.running && d.pcie.link == .l1) (fun d => match d.pcie.substate with
    | none => d
    | some l => (d.onPcie fun p => { p with link := l }).onPins fun p => { p with clkreqReleased := true })) s

/-- LINK_STATE_EXIT. -/
def execLinkStateExit (s : State) : Answer :=
  onDev (guarded (fun d => d.running && d.pcie.link != .l0)
    (fun d => (d.onPcie fun p => { p with link := .l0 }).onPins fun p => { p with clkreqReleased := false })) s

/-! ## Device power states (R347, R348) -/

/-- Idle time in ms after which the device enters power state `ps`; a timer of 0 acts as 1. -/
def Pcie.idleMs (p : Pcie) (ps : Nat) : Nat :=
  let w := p.psCtl.toNat
  match ps with
  | 2 => max 1 (bits w 4 8)
  | 3 => 100 * max 1 (bits w 12 8)
  | _ => 1000 * max 1 (bits w 20 8)

/-- The deepest state that idling allows now. -/
def Dev.idleState (d : Dev) : Nat :=
  let most := min 4 (bits d.pcie.psCtl.toNat 1 3)
  let due (ps : Nat) : Bool := decide (ps ≤ most ∧ d.pcie.lastAdmit + d.pcie.idleMs ps ≤ d.chip.tick)
  if due 4 then 4 else if due 3 then 3 else if due 2 then 2 else d.pcie.ps

/-- A move on idling: PS3 and PS4 first need the open courses padded and the buffer drained. -/
def idleEffect (d : Dev) : Dev :=
  let ps := d.idleState
  if ps ≤ d.pcie.ps then d
  else if ps < 3 || (d.drained && d.coursesDone) then d.movePower ps 2
  else d.padFronts fun _ => true

/-- POWER_STATE_IDLE_TIMEOUT. -/
def execPowerStateIdleTimeout (s : State) : Answer :=
  onDev (guarded (fun d => d.serving && d.pfail.flush == .none &&
    d.eng.coaches.all fun e => e.2.stage != .admitted && e.2.stage != .running) idleEffect) s

/-! ## D3hot (R349) -/

/-- A function enters D3hot. -/
def Dev.enterD3 (fn : Nat) : Dev → Dev := Dev.onFn fn fun f => { f with d3hot := true }

/-- D3HOT_ENTRY. -/
def execD3hotEntry (fn : FuncId) (s : State) : Answer := whenLive (Dev.enterD3 fn.val) s

/-- Output that was held is sent. -/
def Dev.sendNow (fn : Nat) (h : Held) : Dev → Dev :=
  Dev.emit (match h with
    | .write a b => .pcieWrite a b
    | .completion a c => .pcieCompletion a c
    | .message v => .msix fn v)

/-- A function returns to D0: its held output is sent, and its reads go on. -/
def Dev.leaveD3 (fn : Nat) (d : Dev) : Dev :=
  if (d.pcie.fn fn).d3hot then
    let held := if fn = 0 then d.pcie.heldPf0 else d.pcie.heldPf1
    let d := d.onFn fn fun f => { f with d3hot := false }
    let d := d.onPcie fun p => if fn = 0 then { p with heldPf0 := [] } else { p with heldPf1 := [] }
    let d := if d.pfail.flush == .none || d.pfail.flush == .closing then Dev.each held (Dev.sendNow fn) d else d
    d.pumpAll
  else d

/-- D0_RETURN. -/
def execD0Return (fn : FuncId) (s : State) : Answer := whenLive (Dev.leaveD3 fn.val) s

/-! ## MSI-X masks (R336) -/

/-- Pending messages of a function whose vectors are no longer masked are sent. -/
def Dev.sendPending (fn : Nat) (d : Dev) : Dev :=
  let f := d.pcie.fn fn
  let due := f.msixPending.reverse.filter fun v => f.msixOn && !f.masked v
  let d := d.onFn fn fun f => { f with msixPending := f.msixPending.filter fun v => !due.contains v }
  Dev.each due (fun v d => d.sendHeld fn (.message v) (.msix fn v)) d

/-- A mask bit is cleared: of one vector, or of the function. -/
def unmaskEffect (fn : Nat) (vector : Option Nat) (d : Dev) : Dev :=
  let vectors := if fn = 0 then 2048 else 16
  match vector with
  | none => (d.onFn fn fun f => { f with msixControl := setBit f.msixControl 14 false }).sendPending fn
  | some v =>
    if v < vectors then
      (d.onFn fn fun f => { f with msixTable := f.msixTable.set (4 * v + 3) (setBit (f.msixTable.get 1 (4 * v + 3)) 0 false) }).sendPending fn
    else d

/-- MSIX_VECTOR_UNMASK. -/
def execMsixVectorUnmask (fn : FuncId) (vector : Option Nat) (s : State) : Answer := whenLive (unmaskEffect fn.val vector) s

/-! ## The Device Description Table (R321) -/

/-- The four fields of one power state. -/
def ddtPower (milliwatt latencyUs idleMs flags : Nat) : Bytes :=
  leBytes 4 milliwatt ++ leBytes 4 latencyUs ++ leBytes 4 idleMs ++ leBytes 4 flags

/-- The table; its crc follows. -/
def Dev.ddtBody (deviceId : W64) (d : Dev) : Bytes :=
  let p := d.pcie
  [0x53, 0x4B, 0x44, 0x44] ++ leBytes 2 1 ++ leBytes 2 160 ++ [0x42, 0x31] ++ zeros 2 ++ leBytes 4 d.fw.ttrMs.toNat ++
    leBytes 2 4096 ++ zeros 2 ++ leBytes 4 65536 ++ [128, 32] ++ leBytes 2 64 ++ leBytes 2 2048 ++ leBytes 2 16 ++ [12, 64, 32, 255] ++
    leBytes 4 256 ++ leBytes 8 67108864 ++ leBytes 8 deviceId.toNat ++ leBytes 4 p.windowGiB ++ zeros 4 ++
    ddtPower 360000 0 0 1 ++ ddtPower 300000 0 0 1 ++ ddtPower 150000 20 (p.idleMs 2) 2 ++ ddtPower 60000 500 (p.idleMs 3) 2 ++
    ddtPower 25000 20000 (p.idleMs 4) 2 ++ zeros 12

/-- Management firmware builds the table (R382 gives ttr_ms). -/
def Dev.buildDdt (deviceId : W64) (d : Dev) : Dev :=
  let b := d.ddtBody deviceId
  d.onPcie fun p => { p with ddt := some (b ++ leBytes 4 (crc32c b)) }

/-! ## Configuration space (R317 to R319) -/

/-- Address bits of a BAR pair that can be written. -/
def barMask (p : Pcie) (fn bar : Nat) : Nat :=
  let top (lo : Nat) : Nat := 2 ^ 64 - 2 ^ lo
  match bar with
  | 0 => top 25
  | 2 => if fn = 0 then top 20 else 0
  | _ => if fn = 0 then top (30 + Nat.log2 p.windowGiB) else 0

/-- The value of a BAR pair, with its type bits. -/
def barValue (p : Pcie) (fn bar : Nat) : Nat :=
  let f := p.fn fn
  match bar with
  | 0 => f.bar0.toNat + 4
  | 2 => if fn = 0 then f.bar2.toNat + 4 else 0
  | _ => if fn = 0 then f.bar4.toNat + 12 else 0

/-- Subsystem Vendor ID and Subsystem ID (R317). -/
def Firmware.subsystem (f : Firmware) : Nat :=
  if f.options.subVendor = 0 ∧ f.options.subDevice = 0 then 0x9640C1E0 else f.options.subVendor + f.options.subDevice * 65536

/-- Header of an extended capability: identifier, version 1, next. PRESUMED: identifiers of the Base specification (log entry 28). -/
def extHeader (id next : Nat) : Nat := id + 0x10000 + next * 0x100000

/-- Dwords of the capabilities that the host writes and that only the link hardware uses: link control, link control 2,
secondary PCI Express link control 3, L1 PM substates control 1 and 2, latency tolerance. -/
def plainConfig (fn offset : Nat) : Bool := fn == 0 && [0xA0, 0x164, 0x288, 0x28C, 0x294].contains offset

/-- A dword of configuration space. PRESUMED: places of the capability registers of the Base specification (log entry 28). -/
def Dev.configRead (deviceId : W64) (fn offset : Nat) (d : Dev) : Nat :=
  let p := d.pcie
  let f := p.fn fn
  match offset with
  | 0x00 => 0xC1E0 + (if fn = 0 then 0x9640 else 0x9641) * 65536
  | 0x04 => f.command.toNat + 0x00100000
  | 0x08 => 0x11 + (if fn = 0 then 0x018000 else 0x088000) * 256
  | 0x0C => f.cacheLine.toNat + (if fn = 0 then 0x00800000 else 0)
  | 0x10 => barValue p fn 0 % 2 ^ 32
  | 0x14 => barValue p fn 0 / 2 ^ 32
  | 0x18 => barValue p fn 2 % 2 ^ 32
  | 0x1C => barValue p fn 2 / 2 ^ 32
  | 0x20 => barValue p fn 4 % 2 ^ 32
  | 0x24 => barValue p fn 4 / 2 ^ 32
  | 0x2C => d.fw.subsystem
  | 0x30 => if fn = 0 then f.rom.toNat else 0
  | 0x34 => 0x40
  | 0x3C => f.intLine.toNat
  | 0x40 => 0x00035001
  | 0x44 => 8 + (if f.d3hot then 3 else 0) + b2n f.pmeEn * 256
  | 0x50 => 0x7011 + (f.msixControl.toNat / 2 ^ 14 * 2 ^ 14 + (if fn = 0 then 2047 else 15)) * 65536
  | 0x54 => if fn = 0 then 0x208000 else 0x210100
  | 0x58 => if fn = 0 then 0x210000 else 0x210200
  | 0x70 => 0x00020010
  | 0x74 => 0x10008022
  | 0x78 => f.devControl.toNat
  | 0x7C => 0x00400C06 + 16 * 16
  | 0x80 => f.linkControl.toNat + (p.gen + p.width * 16) * 65536
  | 0x94 => 0x0003000F
  | 0x98 => f.devControl2.toNat
  | 0x9C => 0x7E
  | 0x100 => extHeader 0x0001 0x140
  | 0x104 => f.aerUncorr.toNat
  | 0x108 => f.aerMask.toNat
  | 0x10C => f.aerSeverity.toNat
  | 0x110 => f.aerCorr.toNat
  | 0x114 => f.aerCorrMask.toNat
  | 0x140 => extHeader 0x0003 (if fn = 0 then 0x150 else 0)
  | 0x144 => deviceId.toNat % 2 ^ 32
  | 0x148 => deviceId.toNat / 2 ^ 32
  | 0x150 => if fn = 0 then extHeader 0x000F 0x160 else 0
  | 0x154 => if fn = 0 then 0x20 + f.atsControl.toNat * 65536 else 0
  | 0x160 => if fn = 0 then extHeader 0x0019 0x180 else 0
  | 0x180 => if fn = 0 then extHeader 0x0025 0x190 else 0
  | 0x184 => if fn = 0 then 0x80000001 else 0
  | 0x190 => if fn = 0 then extHeader 0x0026 0x1C0 else 0
  | 0x1C0 => if fn = 0 then extHeader 0x002A 0x200 else 0
  | 0x200 => if fn = 0 then extHeader 0x0031 0x240 else 0
  | 0x240 => if fn = 0 then extHeader 0x0027 0x280 else 0
  | 0x280 => if fn = 0 then extHeader 0x001E 0x290 else 0
  | 0x284 => if fn = 0 then 0x0028001F + 30 * 256 else 0
  | 0x290 => if fn = 0 then extHeader 0x0018 0 else 0
  | _ => (f.other.get 0 offset).toNat

/-- Bits that byte enables select. -/
def enableMask (e : BitVec 4) : Nat := ((List.range 4).map fun i => if e.getLsbD i then 255 * 256 ^ i else 0).sum

/-- A field under a mask takes the bits written. -/
def put16 (mask : Nat) (v : W16) (w : Nat) : W16 := BitVec.ofNat 16 (merge mask v.toNat w)
@[inherit_doc put16] def put32 (mask : Nat) (v : W32) (w : Nat) : W32 := BitVec.ofNat 32 (merge mask v.toNat w)
@[inherit_doc put16] def put64 (mask : Nat) (v : W64) (w : Nat) : W64 := BitVec.ofNat 64 (merge mask v.toNat w)

/-- Write half `hi` of a BAR pair. -/
def writeBar (p : Pcie) (fn bar m w : Nat) (hi : Bool) (v : W64) : W64 :=
  let k := if hi then 2 ^ 32 else 1
  put64 (m * k &&& barMask p fn bar) v (w * k)

/-- A configuration write of `w` under mask `m` (FLR and D3hot act at once). -/
def Dev.configWrite (fn offset m w : Nat) (d : Dev) : Dev :=
  let p := d.pcie
  let on (f : PcieFunction → PcieFunction) : Dev := d.onFn fn f
  match offset with
  | 0x04 => on fun f => { f with command := put16 (m &&& 0x0546) f.command w }
  | 0x0C => on fun f => { f with cacheLine := BitVec.ofNat 8 (merge (m &&& 0xFF) f.cacheLine.toNat w) }
  | 0x10 => on fun f => { f with bar0 := writeBar p fn 0 m w false f.bar0 }
  | 0x14 => on fun f => { f with bar0 := writeBar p fn 0 m w true f.bar0 }
  | 0x18 => on fun f => { f with bar2 := writeBar p fn 2 m w false f.bar2 }
  | 0x1C => on fun f => { f with bar2 := writeBar p fn 2 m w true f.bar2 }
  | 0x20 => on fun f => { f with bar4 := writeBar p fn 4 m w false f.bar4 }
  | 0x24 => on fun f => { f with bar4 := writeBar p fn 4 m w true f.bar4 }
  | 0x30 => if fn = 0 then on fun f => { f with rom := put32 (m &&& 0xFFFF0001) f.rom w } else d
  | 0x3C => on fun f => { f with intLine := BitVec.ofNat 8 (merge (m &&& 0xFF) f.intLine.toNat w) }
  | 0x44 =>
    let d := on fun f => { f with pmeEn := if bit m 8 then bit w 8 else f.pmeEn }
    if m % 4 = 3 then (if w % 4 = 3 then d.enterD3 fn else if w % 4 = 0 then d.leaveD3 fn else d) else d
  | 0x50 => (on fun f => { f with msixControl := put16 (m / 65536 &&& 0xC000) f.msixControl (w / 65536) }).sendPending fn
  | 0x78 =>
    let d := on fun f => { f with devControl := put16 (m &&& 0x7FFF) f.devControl w }
    if bit m 15 && bit w 15 then (if fn = 0 then d.flr0 else d.flr1) else d
  | 0x80 => on fun f => { f with linkControl := put16 (m &&& 0x03CB) f.linkControl w }
  | 0x98 => on fun f => { f with devControl2 := put16 (m &&& 0x040F) f.devControl2 w }
  | 0x104 => on fun f => { f with aerUncorr := f.aerUncorr &&& ~~~BitVec.ofNat 32 (m &&& w) }
  | 0x108 => on fun f => { f with aerMask := put32 (m &&& 0x07FFF030) f.aerMask w }
  | 0x10C => on fun f => { f with aerSeverity := put32 (m &&& 0x07FFF030) f.aerSeverity w }
  | 0x110 => on fun f => { f with aerCorr := f.aerCorr &&& ~~~BitVec.ofNat 32 (m &&& w) }
  | 0x114 => on fun f => { f with aerCorrMask := put32 (m &&& 0xF1C1) f.aerCorrMask w }
  | 0x154 =>
    if fn = 0 then
      let d := on fun f => { f with atsControl := put16 (m / 65536 &&& 0x801F) f.atsControl (w / 65536) }
      if d.atsOn then d else d.onPcie fun p => { p with cache := [] }
    else d
  | _ => if plainConfig fn offset then on fun f => { f with other := f.other.set offset (put32 m (f.other.get 0 offset) w) } else d

/-- A configuration request: Request Retry Status until the Device Description Table is built; writes are ignored in the
fail-safe state (R321, R351). -/
def configEffect (deviceId : W64) (fn : Nat) (write : Bool) (offset : Nat) (e : BitVec 4) (value : W32) (d : Dev) : Dev :=
  if d.pcie.ddt.isNone && d.fw.recovery != 1 then d.emit .retry
  else
    let at_ := offset / 4 * 4
    if write then (if d.failsafe then d else d.configWrite fn at_ (enableMask e) value.toNat)
    else d.emit (.readData (leBytes 4 (d.configRead deviceId fn at_)))

/-- CONFIGURATION_REQUEST. -/
def execConfigurationRequest (fn : FuncId) (write : Bool) (offset : Nat) (enables : BitVec 4) (value : W32) (s : State) : Answer :=
  onDev (guarded (fun d => d.running && decide (offset < 4096)) (configEffect s.fuses.deviceId fn.val write offset enables value)) s

end Sys2Proof.Machine
end

