-- ==== Sys2Proof/Machine/Firmware.lean ====
section
/-!
DEFINITION. Machine/Firmware.lean: the NOR devices: boot control, images, staging, trial and commit, settings (R384 to R397).
-/
namespace Sys2Proof.Machine

/-! ## Boot control (R385, R386) -/

/-- The slot at place `i` of a pair. -/
def pick {α : Type} (p : α × α) (i : Nat) : α := if i = 0 then p.1 else p.2
/-- Change place `i` of a pair. -/
def setPick {α : Type} (p : α × α) (i : Nat) (v : α) : α × α := if i = 0 then (v, p.2) else (p.1, v)

/-- Bytes 0 to 4,091 of a boot control record. -/
def BootControl.body (b : BootControl) : Bytes :=
  [0x53, 0x4B, 0x42, 0x43, 1] ++ leBytes 1 b.active ++ leBytes 1 b.trial ++ leBytes 1 b.tstate ++ leBytes 8 b.seq ++
    leBytes 1 b.setArea ++ leBytes 1 b.convArea ++ leBytes 1 b.slotState.1 ++ leBytes 1 b.slotState.2 ++ leBytes 4 b.floor ++
    leBytes 1 b.lastResult ++ zeros 7 ++ leBytes 4 b.version.1 ++ leBytes 4 b.version.2 ++ zeros 4052

/-- The page of a boot control record. -/
def BootControl.page (b : BootControl) : Bytes := b.body ++ leBytes 4 (crc32c b.body)

/-- The record of a page; none where magic, layout or crc fail. -/
def readBoot (nor : Mem) (at_ : Nat) : Option BootControl :=
  if Mem.readBytes 0xFF nor at_ 5 != [0x53, 0x4B, 0x42, 0x43, 1] then none
  else
    let b := Mem.readBytes 0xFF nor at_ 4096
    if crc32c (b.take 4092) != leAt b 4092 4 then none
    else some { active := leAt b 5 1, trial := leAt b 6 1, tstate := leAt b 7 1, seq := leAt b 8 8, setArea := leAt b 16 1,
                convArea := leAt b 17 1, slotState := (leAt b 18 1, leAt b 19 1), floor := leAt b 20 4, lastResult := leAt b 24 1,
                version := (leAt b 32 4, leAt b 36 4) }

/-- The valid record: the page of either copy with the highest seq; none where no page passes. -/
def validBoot (nor : Mem) : Option BootControl :=
  ((List.range 32).filterMap fun i => readBoot nor (4096 * i)).foldl (fun (best : Option BootControl) b => match best with
    | none => some b
    | some x => if x.seq < b.seq then some b else some x) none

/-- Write a record to the next erased page of the copy of its seq, which is erased first when full. -/
def writeBoot (b : BootControl) (nor : Mem) : Mem :=
  let base := b.seq % 2 * 65536
  match (List.range 16).find? fun i => Mem.blank nor (base + 4096 * i) 4096 with
  | some i => Mem.writeBytes 0xFF nor (base + 4096 * i) b.page
  | none => Mem.writeBytes 0xFF (Mem.erase nor base 65536) base b.page

/-- A new boot control record: the one in force changed by `f`, with the next seq. -/
def bootRecord (f : BootControl → BootControl) (s : Memories × Dev) : Memories × Dev :=
  let b := f { s.2.fw.bcr with seq := s.2.fw.bcr.seq + 1 }
  ({ s.1 with norA := writeBoot b s.1.norA }, s.2.onFw fun x => { x with bcr := b })

/-! ## Images (R387, R388) -/

/-- Bytes of an image slot, and where it starts. -/
def slotSize : Nat := 32505856
@[inherit_doc slotSize] def slotBase (slot : Nat) : Nat := if slot = 0 then 0x100000 else 0x2000000

/-- The 4,096 header bytes in a slot. -/
def headerBytes (nor : Mem) (slot : Nat) : Bytes := Mem.readBytes 0xFF nor (slotBase slot) 4096

/-- Offset and length of a section of a header: 0 firmware, 1 microcode, 2 patch. -/
def sectionOf (h : Bytes) (i : Nat) : Nat × Nat := (leAt h (32 + 16 * i) 8, leAt h (40 + 16 * i) 8)

/-- The bytes of a section. -/
def sectionBytes (nor : Mem) (slot : Nat) (h : Bytes) (i : Nat) : Bytes :=
  Mem.readBytes 0xFF nor (slotBase slot + (sectionOf h i).1) (sectionOf h i).2

/-- What the device keeps of a header. -/
def imageInfo (h : Bytes) : ImageInfo :=
  { version := leAt h 12 4, security := leAt h 16 4, setReadMin := leAt h 20 2, setReadMax := leAt h 22 2, setConvMin := leAt h 24 2,
    setWrite := leAt h 26 2, length := leAt h 8 4 }

/-- Magic, layout and stepping of a header. -/
def headerStarts (h : Bytes) : Bool := h.take 6 == [0x53, 0x4B, 0x46, 0x57, 1, 0x11]

/-- Two sections overlap. -/
def overlap (a b : Nat × Nat) : Bool := decide (0 < a.2 ∧ 0 < b.2 ∧ a.1 < b.1 + b.2 ∧ b.1 < a.1 + a.2)

/-- The header fields lie within their meanings; sections lie within length and do not overlap. -/
def headerGood (h : Bytes) : Bool :=
  let x := imageInfo h
  let fw := sectionOf h 0
  let mc := sectionOf h 1
  let patch := sectionOf h 2
  let within (a : Nat × Nat) : Bool := decide (4096 ≤ a.1 ∧ a.1 + a.2 ≤ x.length)
  headerStarts h && leAt h 6 1 == 1 && leAt h 7 1 == 0 && decide (x.length ≤ slotSize) &&
    decide (x.setReadMin ≤ x.setReadMax ∧ x.setConvMin ≤ x.setReadMin ∧ x.setReadMin ≤ x.setWrite ∧ x.setWrite ≤ x.setReadMax) &&
    zeroRange h 244 3756 && within fw && within mc && (patch == (0, 0) || within patch) && !overlap fw mc && !overlap fw patch &&
    !overlap mc patch

/-- The content key that the key block holds for this device. -/
def contentKey (fu : Fuses) (h : Bytes) : Option Bytes :=
  let point := pointOf (slice h 108 96)
  if !onP384 point then none
  else match enrolmentKey "SKV9640-IMAGE" (Config.devicePrivateKey fu.secret) point fu.deviceId with
    | none => none
    | some e => (keyUnwrap e (slice h 204 32 ++ slice h 236 8)).bind fun k => if k.length = 32 then some k else none

/-- The signature verifies under the image public key, whose digest the fuses hold. -/
def signatureGood (fu : Fuses) (nor : Mem) (slot : Nat) (h : Bytes) : Bool :=
  let text := h.take 4000 ++ sectionBytes nor slot h 0 ++ sectionBytes nor slot h 1
  sha384 Config.imagePublicKey == fu.imageKeyHash && ecdsaVerify (pointOf Config.imagePublicKey) (sha384 text) (slice h 4000 96)

/-- IMAGE_CHECK: the status of the image in a slot, `OK` when it is good (R388, R404). -/
def imageStatus (fu : Fuses) (nor : Mem) (slot floor : Nat) : Byte :=
  if !headerStarts (Mem.readBytes 0xFF nor (slotBase slot) 6) then 0x61
  else
    let h := headerBytes nor slot
    if !headerGood h then 0x61
    else if !signatureGood fu nor slot h then 0x60
    else if (imageInfo h).security < floor then 0x62
    else if (contentKey fu h).isNone then 0x60
    else stOk

/-- The tag of the microcode section (R387, R404). -/
def microcodeTagGood (fu : Fuses) (nor : Mem) (slot : Nat) : Bool :=
  let h := headerBytes nor slot
  match contentKey fu h with
  | none => false
  | some k => gcmTag k (slice h 80 12) (h.take 80) (sectionBytes nor slot h 1) == slice h 92 16

/-! ## Instructions that reach the byte memories -/

/-- The meaning of a privileged instruction that reaches the byte memories (as `runInstr`; as `acting` and `noted`). -/
def runInstrAll (ctx : CtxId) (p : Fields → Bool) (f : Nat → Coach → Fields → Memories × Dev → Memories × Dev) (s : State) : Answer :=
  onAll (fun m d => match d.coachIn ctx.val with
    | none => (m, d)
    | some (i, c) =>
      if d.pathRuns c.privileged && c.wait == .none && decide (c.run.steps < 256) && p c.current then
        if d.failsafe then (m, d.terminate i stFailsafe)
        else
          let (m, d) := f i c c.current (m, d)
          (m, d.onCoach i fun c => { c with acted := true })
      else (m, d)) s

/-! ## Staging (R389, R390) -/

/-- The staging slot. -/
def BootControl.stagingSlot (b : BootControl) : Nat :=
  if b.active < 2 then 1 - b.active
  else if b.slotState.1 ≠ 1 then 0
  else if b.slotState.2 ≠ 1 then 1
  else if b.version.1 < b.version.2 then 0 else 1

/-- Staging ends with a result (0xD002). -/
def Dev.stagingEnds (result : Byte) (version security : Nat) (d : Dev) : Dev :=
  (d.onFw fun f => { f with stageActive := false, stageChecking := false, stageResult := result }).report 8 3 0 0xD002
    [d.fw.stageSlot, version, security, result.toNat, 0]

/-- What FWSTAGE refuses, or nothing. The length of the image is known once bytes 8 to 11 of its header are there. DEDUCED
(log entry 33). -/
def Dev.stageRefusal (d : Dev) (c : Coach) (w : Fields) : Option Byte :=
  let ga := c.run.num w.a
  let gb := c.run.num w.b
  let off := bits w.imm 0 26
  let f := d.fw
  let length := if off = 0 then leAt (slice c.inbound ga gb) 8 4 else f.stageLength
  let known := decide (12 ≤ (if off = 0 then gb else f.stageBytes))
  if !inArea c.inbound ga gb || gb == 0 || decide (4194304 < gb) then some stIllegalValue
  else if f.bcr.tstate = 2 ∨ f.stageChecking = true ∨ f.setBusy = true then some stBusy
  else if (off ≠ 0 ∧ (f.stageActive = false ∨ off ≠ f.stageBytes)) ∨ slotSize < off + gb ∨
      (4096 < off + gb ∧ known = true ∧ length < off + gb) then some stIllegalValue
  else if off = 0 ∧ headerStarts (slice c.inbound ga gb) = false then some 0x61
  else none

/-- Bytes are staged; at offset 0 the slot is marked and erased first. -/
def stageWrite (off : Nat) (bytes : Bytes) (norOk : Bool) (s : Memories × Dev) : Memories × Dev :=
  let (m, d) := if off = 0 then
      let slot := s.2.fw.bcr.stagingSlot
      let (m, d) := bootRecord (fun b => { b with slotState := setPick b.slotState slot 3 }) s
      ({ m with norA := Mem.erase m.norA (slotBase slot) slotSize },
        d.onFw fun f => { f with stageActive := true, stageSlot := slot, stageBytes := 0, stageLength := 0, stageResult := 0 })
    else s
  let slot := d.fw.stageSlot
  if !norOk then
    bootRecord (fun b => { b with slotState := setPick b.slotState slot 2, lastResult := 0x63 }) (m, d.stagingEnds 0x63 0 0)
  else
    let m := { m with norA := Mem.writeBytes 0xFF m.norA (slotBase slot + off) bytes }
    let n := off + bytes.length
    let len := if 12 ≤ n then (imageInfo (headerBytes m.norA slot)).length else 0
    (m, d.onFw fun f => { f with
      stageBytes := n, stageLength := len, stageTick := d.chip.tick, stageChecking := decide (4096 ≤ n ∧ len ≤ n) })

/-- FWSTAGE; `norOk` is what programming the NOR gives. -/
def execFwstage (ctx : CtxId) (norOk : Bool) (s : State) : Answer :=
  runInstrAll ctx (·.op == 0x49) (fun i c w s => match s.2.stageRefusal c w with
    | some st => (s.1, s.2.fail i st)
    | none =>
      let (m, d) := stageWrite (bits w.imm 0 26) (slice c.inbound (c.run.num w.a) (c.run.num w.b)) norOk s
      (m, d.endWith i stOk id)) s

/-- The verdict on a staged image. -/
def stagedStatus (fu : Fuses) (nor : Mem) (slot floor : Nat) : Byte :=
  let st := imageStatus fu nor slot floor
  if st = stOk ∧ microcodeTagGood fu nor slot = false then 0x60 else st

/-- The check of a staged image ends: a good one is pending for the next start. -/
def stagedCheck (fu : Fuses) (s : Memories × Dev) : Memories × Dev :=
  let f := s.2.fw
  let slot := f.stageSlot
  let st := stagedStatus fu s.1.norA slot f.bcr.floor
  let x := imageInfo (headerBytes s.1.norA slot)
  let d := s.2.stagingEnds st x.version x.security
  bootRecord (fun b =>
    if st = stOk then
      { b with slotState := setPick b.slotState slot 1, trial := slot, tstate := 1, lastResult := 0, version := setPick b.version slot x.version }
    else { b with slotState := setPick b.slotState slot 2, lastResult := st.toNat }) (s.1, d)

/-- STAGED_IMAGE_CHECK_DONE. -/
def execStagedImageCheckDone (s : State) : Answer :=
  onAll (fun m d => if d.live && d.fw.stageChecking then stagedCheck s.fuses (m, d) else (m, d)) s

/-- STAGING_IDLE_TIMEOUT: 10 s with no FWSTAGE. -/
def execStagingIdleTimeout (s : State) : Answer :=
  whenLive (guarded (fun d => d.fw.stageActive && !d.fw.stageChecking && decide (d.fw.stageTick + 10000 ≤ d.chip.tick))
    (Dev.stagingEnds 0x66 0 0)) s

/-! ## Trial and commit (R392, R394) -/

/-- The trial image becomes the active one. -/
def commitTrial (s : Memories × Dev) : Memories × Dev :=
  let d := s.2
  let slot := d.fw.bcr.trial
  let d := d.report 8 3 0 0xD004 [slot, d.fw.image.version, d.fw.image.security, 0, 0]
  bootRecord (fun b => { b with
    active := b.trial, trial := 0xFF, tstate := 0, setArea := if b.convArea = 0xFF then b.setArea else b.convArea, convArea := 0xFF
    floor := d.fw.image.security, lastResult := 0 }) (s.1, d.onFw fun f => { f with onTrial := false })

/-- FWCOMMIT. -/
def execFwcommit (ctx : CtxId) (s : State) : Answer :=
  runInstrAll ctx (·.op == 0x4A) (fun i _ _ s =>
    if s.2.fw.recovery = 1 then (s.1, s.2.fail i stUnavailable)
    else if s.2.chip.state = 1 ∧ s.2.fw.bcr.tstate = 2 then
      let (m, d) := commitTrial s
      (m, d.endWith i stOk id)
    else (s.1, s.2.fail i stIllegalValue)) s

/-- A trial fails, for a cause of 0xD005: in service the device flushes as on PWRFAIL#; before, it resets at once. -/
def Dev.failTrial (cause : Nat) (d : Dev) : Dev :=
  let d := d.onFw fun f => { f with trialFailed := some cause }
  if d.chip.state == 1 then (d.beginFlush true).powerPfc else d.onFw fun f => { f with selfReset := true }

/-- TRIAL_EXPIRY: 120 s after the start of step 3. -/
def execTrialExpiry (s : State) : Answer :=
  whenLive (guarded (fun d => d.fw.onTrial && d.fw.trialFailed.isNone && d.pfail.flush == .none &&
    decide (d.fw.trialTick + 120000 ≤ d.chip.tick)) (Dev.failTrial 1)) s

/-! ## Settings (R395 to R397) -/

/-- A settings record. -/
structure SettingsRecord where
  format : Nat
  flags : Nat
  seq : Nat
  body : Bytes

/-- Where a settings area starts on NOR A; its mirror on NOR B. -/
def areaBase (area : Nat) : Nat := 0x3F00000 + area * 0x80000
@[inherit_doc areaBase] def mirrorBase (area : Nat) : Nat := area * 0x80000

/-- The record at an address of a byte memory; none where its magic or a CRC fails. -/
def readSettings (d : Byte) (m : Mem) (at_ : Nat) : Option SettingsRecord :=
  if Mem.readBytes d m at_ 4 != [0x53, 0x4B, 0x53, 0x54] then none
  else
    let h := Mem.readBytes d m at_ 64
    let n := leAt h 16 4
    if 524224 < n ∨ crc32c (h.take 60) ≠ leAt h 60 4 then none
    else
      let body := Mem.readBytes d m (at_ + 64) n
      if crc32c body ≠ leAt h 56 4 then none
      else some { format := leAt h 4 2, flags := leAt h 6 2, seq := leAt h 8 8, body := body }

/-- The bytes of a record. -/
def settingsBytes (format flags seq source trial : Nat) (body : Bytes) : Bytes :=
  let h := [0x53, 0x4B, 0x53, 0x54] ++ leBytes 2 format ++ leBytes 2 flags ++ leBytes 8 seq ++ leBytes 4 body.length ++ zeros 4 ++
    leBytes 8 source ++ leBytes 1 trial ++ zeros 23 ++ leBytes 4 (crc32c body)
  h ++ leBytes 4 (crc32c h) ++ body

/-- The entries of a body: each is padded to a multiple of 8 bytes. -/
def settingsEntries : Nat → Bytes → List SettingsEntry
  | 0, _ => []
  | fuel + 1, b =>
    if b.length < 4 then []
    else
      let n := leAt b 2 2
      { kind := leAt b 0 2, value := slice b 4 n } :: settingsEntries fuel (b.drop (ceilDiv (4 + n) 8 * 8))

/-- The copy in use: area `set_area` on NOR A, its mirror, the other area, its mirror; with the area it came from, and the
cause of 0xD007, 0 where no fall-back was made. -/
def findSettings (m : Memories) (area : Nat) : Option (Nat × Nat × SettingsRecord) :=
  if 2 ≤ area then none
  else
    let other := 1 - area
    match readSettings 0xFF m.norA (areaBase area) with
    | some r => some (0, area, r)
    | none => match readSettings 0xFF m.norB (mirrorBase area) with
      | some r => some (1, area, r)
      | none => match readSettings 0xFF m.norA (areaBase other) with
        | some r => some (2, other, r)
        | none => (readSettings 0xFF m.norB (mirrorBase other)).map fun r => (2, other, r)

/-- Write a record to an area and to its mirror. -/
def writeArea (area : Nat) (b : Bytes) (m : Memories) : Memories :=
  { m with norA := Mem.writeBytes 0xFF (Mem.erase m.norA (areaBase area) 0x80000) (areaBase area) b
           norB := Mem.writeBytes 0xFF (Mem.erase m.norB (mirrorBase area) 0x80000) (mirrorBase area) b }

/-- The device-options entry (type 4) among entries. -/
def deviceOptions (l : List SettingsEntry) : DeviceOptions :=
  match (l.filter fun e => e.kind == 4 && decide (8 ≤ e.value.length)).getLast? with
  | none => {}
  | some e => { clockSource := leAt e.value 0 1, perstChip := leAt e.value 1 1, windowGiB := leAt e.value 2 1,
                subVendor := leAt e.value 4 2, subDevice := leAt e.value 6 2 }

/-- W: 1, 2, 4, 8, 16, 32 or 64; another value acts as 1. DESIGN CHOICE (log entry 30). -/
def DeviceOptions.window (o : DeviceOptions) : Nat := if [1, 2, 4, 8, 16, 32, 64].contains o.windowGiB then o.windowGiB else 1

/-- A settings commit ends with a result. -/
def Dev.commitResult (st : Byte) : Dev → Dev := Dev.onFw fun f => { f with setBusy := false, setValid := true, setResult := st, setRecord := [] }

/-- A write of 1 to SET_CMD.commit. -/
def commitSettings (m : Memories) (d : Dev) : Dev :=
  let f := d.fw
  if f.setBusy then d
  else if f.bcr.tstate = 2 ∨ f.stageActive = true then d.commitResult stBusy
  else match readSettings 0 m.setWindow 0 with
    | none => d.commitResult 0x64
    | some r =>
      if r.format ≠ f.image.setWrite then d.commitResult 0x64
      else d.onFw fun f => { f with setBusy := true, setRecord := settingsBytes r.format r.flags (f.settingsSeq + 1) 0 0xFF r.body }

/-- SETTINGS_COMMIT. -/
def execSettingsCommit (by_ : Requester) (s : State) : Answer := whenLive (byManagement by_ (commitSettings s.mem)) s

/-- The commit's NOR work ends: the area not in use holds the record, and a boot control record names it. -/
def commitDone (norOk : Bool) (s : Memories × Dev) : Memories × Dev :=
  let d := s.2
  if !norOk then (s.1, d.commitResult 0x63)
  else
    let area := if d.fw.bcr.setArea = 0 then 1 else 0
    let m := writeArea area d.fw.setRecord s.1
    bootRecord (fun b => { b with setArea := area, lastResult := 0 }) (m, d.commitResult stOk)

/-- SETTINGS_COMMIT_DONE. -/
def execSettingsCommitDone (norOk : Bool) (s : State) : Answer :=
  onAll (fun m d => if d.live && d.fw.setBusy then commitDone norOk (m, d) else (m, d)) s

end Sys2Proof.Machine
end

