-- ==== Sys2Proof/Machine/Registers.lean ====
section
/-!
DEFINITION. Machine/Registers.lean: control space: every register as it reads and as it takes a write, the paths into it,
MRD and MWR (R4 to R6, R29, R30, R75, R108, R143, R170, R234, R286 to R288, R309, R314, R353, R379, R380, R406, R407, R436,
R437). The unit of access is the aligned 8-byte word; a 32-bit access is a half of one.
-/
namespace Sys2Proof.Machine

/-! ## Registers as they read -/

/-- Two 32-bit registers that share an 8-byte word. -/
def pair (lo hi : Nat) : Nat := lo % 2 ^ 32 + hi % 2 ^ 32 * 2 ^ 32

/-- Word `off` of a byte string; zero past its end. -/
def wordAt (b : Bytes) (off : Nat) : Nat := leAt b off 8

/-- CHIP_CLK_STATUS. -/
def Chip.clockWord (c : Chip) : Nat :=
  b2n c.rootLock + c.dclkSel.toNat * 2 + c.nclkSel.toNat * 8 + b2n c.pcieRefclk * 32 + c.serdesLock.toNat * 64 + b2n c.mgmtLaneLock * 2 ^ 14

/-- The chip common registers (01). CHIP_CCLK_COUNT counts 1,600,000 periods a tick (log entry 4). -/
def Chip.read (c : Chip) (off : Nat) : Nat :=
  match off with
  | 0x00 => pair 0x9640C1E0 0x11
  | 0x08 => pair c.stateWord (c.fenced.toNat + c.fencing.toNat * 256)
  | 0x10 => pair c.failsafeWord c.clockWord
  | 0x18 => c.tick
  | 0x20 => c.tick * 1600000
  | 0x28 => c.powerOnMs
  | 0x30 => c.powerCycles
  | 0x38 => c.scratch.toNat
  | _ => 0

/-- PCIE_QRESULT and MBOX_STATUS. -/
def CmdResult.word (r : CmdResult) : Nat := b2n r.valid + b2n r.busy * 2 + r.status.toNat * 256

/-- A completion entry (R330). -/
def Completion.bytes (c : Completion) : Bytes :=
  leBytes 4 c.outcome.toNat ++ [c.status] ++ leBytes 1 (b2n c.phase) ++ leBytes 1 c.nfields ++ [0] ++ leBytes 2 c.cid.toNat ++
    leBytes 2 c.sqid.toNat ++ leBytes 2 c.sqHead ++ leBytes 2 c.slot ++ leBytes 4 c.bodyLen ++ zeros 4 ++ leBytes 8 c.crc

/-- A word of an MSI-X table: vector control resets to masked. -/
def PcieFunction.tableWord (f : PcieFunction) (i : Nat) : Nat :=
  let at_ (k : Nat) : Nat := (f.msixTable.get (if k % 4 = 3 then 1 else 0) k).toNat
  pair (at_ (2 * i)) (at_ (2 * i + 1))

/-- A word of a pending bit array. -/
def PcieFunction.pendingWord (f : PcieFunction) (i : Nat) : Nat := ((List.range 64).map fun b => b2n (f.msixPending.contains (64 * i + b)) * 2 ^ b).sum

/-- Q_STATE. -/
def QueuePair.stateWord (q : QueuePair) : Nat :=
  1 + b2n q.error * 2 + b2n q.deleting * 4 + b2n q.armed * 8 + q.cause.toNat * 256 + q.sqHead * 65536

/-- The endpoint block (R353). -/
def Pcie.read (tick : Nat) (p : Pcie) (off : Nat) : Nat :=
  if off < 0x1000 then match off with
    | 0x00 => pair (p.fsVector.toNat + b2n p.perstChip * 2048)
        (b2n p.linkUp + p.gen * 2 + p.width * 16 + b2n p.flit * 512 + b2n p.failsafe * 1024)
    | 0x08 => p.policy.toNat
    | 0x10 => pair p.psCtl.toNat (p.ps + b2n (decide (tick < p.wakeTick)) * 8)
    | 0x18 => p.cplTimeouts
    | 0x20 => p.lateCpl
    | 0x28 => p.blocked
    | 0x30 => p.dbInvalid
    | 0x38 => p.pwDiscard
    | 0x40 => p.atsInval
    | 0x48 => p.cmds
    | 0x50 => p.cmdIgnored
    | _ => 0
  else if off < 0x2000 then match off with
    | 0x1000 => p.qpSqBase.toNat
    | 0x1008 => p.qpCqBase.toNat
    | 0x1010 => pair p.qpParam.toNat p.qpVec.toNat
    | 0x1018 => pair 0 p.qresult.word
    | _ => 0
  else if off < 0x3000 then
    if off < 0x2080 then leNat (Mem.readBytes 0 p.mboxEntry (off - 0x2000) 8)
    else if off = 0x2080 then pair 0 p.mboxStatus.word
    else if 0x20A0 ≤ off ∧ off < 0x20C0 then wordAt ((p.mboxResult.map Completion.bytes).getD []) (off - 0x20A0)
    else 0
  else if off < 0x3200 then (p.pwShadow.get 0 ((off - 0x3000) / 8)).toNat
  else if off < 0x3400 then (p.pwActive.get 0 ((off - 0x3200) / 8)).toNat
  else if off = 0x3400 then pair 0 (b2n p.badCommit + p.windowGiB * 2)
  else if off < 0x8000 then 0
  else if off < 0x10000 then p.pf0.tableWord ((off - 0x8000) / 8)
  else if off < 0x10100 then p.pf0.pendingWord ((off - 0x10000) / 8)
  else if off < 0x10200 then p.pf1.tableWord ((off - 0x10100) / 8)
  else if off < 0x10208 then p.pf1.pendingWord 0
  else if 0x20000 ≤ off ∧ off < 0x30000 ∧ off % 16 = 0 then match p.queues.get? ((off - 0x20000) / 16) with
    | none => 0
    | some q => pair q.stateWord (q.cqTail + q.commands.length * 65536)
  else 0

/-- The firmware registers (R406). -/
def Firmware.read (tick : Nat) (f : Firmware) (off : Nat) : Nat :=
  let step (n : Nat) : Nat := (f.stepMs.get 0 n).toNat
  match off with
  | 0x00 => pair (f.slot + b2n f.onTrial * 4 + f.recovery.toNat * 8 + b2n f.settingsDefault * 32 + b2n f.converted * 64 + f.bcr.lastResult * 256)
      (b2n f.stageActive + b2n f.stageWriting * 2 + b2n f.stageChecking * 4 + b2n (f.bcr.tstate == 1) * 8 + f.stageResult.toNat * 256 +
        f.stageSlot * 65536)
  | 0x08 => pair f.stageBytes (if f.onTrial then f.trialTick + 120000 - tick else 0)
  | 0x10 => pair f.bcr.version.1 f.bcr.version.2
  | 0x18 => pair f.bcr.floor (b2n f.setBusy + b2n f.setValid * 2 + f.setResult.toNat * 256 + b2n (f.bcr.setArea == 1) * 65536)
  | 0x20 => pair 0 f.ttrMs.toNat
  | _ => if 0x40 ≤ off ∧ off < 0x68 then pair (step ((off - 0x40) / 4 + 1)) (step ((off - 0x40) / 4 + 2)) else 0

/-- The chip Jenloth registers (R314). -/
def Net.read (n : Net) (off : Nat) : Nat :=
  if off < 0x1000 then match off with
    | 0x00 => pair n.jenCfg.toNat n.sessCfg.toNat
    | 0x08 => n.discMask.toNat
    | 0x10 => (n.partners.filter fun e => e.2.state == 1).length + (n.partners.filter fun e => e.2.state != 0).length * 2 ^ 13
    | 0x18 => n.annSent
    | 0x20 => n.annIgnored
    | 0x28 => (n.streams.map fun e => b2n e.2.isOpen * 2 ^ e.1).sum
    | _ => 0
  else if off < 0x1800 then
    let s := n.streams.get {} ((off - 0x1000) / 32)
    match off % 32 with
    | 0 => pair (b2n s.isOpen + s.dir * 2 + s.kind * 8 + s.source * 32) s.ns.toNat
    | 8 => s.cursor
    | 16 => s.records
    | _ => s.bytes
  else 0

/-- A partner table entry (R309). -/
def Partner.bytes (p : Partner) : Bytes :=
  leBytes 8 p.deviceId.toNat ++ leBytes 1 p.state ++ [p.gens] ++ leBytes 1 p.mac ++ [0] ++ leBytes 4 p.interval.toNat ++
    leBytes 16 p.addr.toNat ++ leBytes 8 p.lastSeen ++ leBytes 2 p.fmtgen.toNat ++ leBytes 2 p.dataPort.toNat ++ zeros 4 ++
    leBytes 8 p.counter.toNat ++ zeros 8

/-- An engine cluster or management engine (R75, R407). -/
def Dev.readCluster (d : Dev) (k off : Nat) : Nat :=
  let c := d.cluster k
  match off with
  | 0x00 => pair c.timeout.toNat c.ctxFenced.toNat
  | 0x08 => ((d.busyContexts k).eraseDups.map (2 ^ ·)).sum
  | 0x10 => c.progs
  | 0x18 => c.rejects
  | 0x20 => c.stepLimits
  | 0x28 => c.timeouts
  | 0x30 => c.reexecs
  | 0x38 => c.resumes
  | 0x40 => c.lockConflicts
  | 0x100 => pair (c.reloading.toNat + c.retired.toNat * 16 + b2n c.goldenFault * 256 + b2n c.patched * 512) c.baseVer.toNat
  | 0x108 => c.patchVer.toNat
  | 0x110 => c.parity
  | 0x118 => c.reloads
  | 0x120 => c.traps
  | 0x128 => c.stackFaults
  | _ => 0

/-- The unwrap unit and key slots (R379); the certificate is in fuses. -/
def Dev.readKeys (fu : Fuses) (d : Dev) (off : Nat) : Nat :=
  let k := d.keys
  if off < 0x1000 then
    if 0x40 ≤ off ∧ off < 0xA0 then wordAt k.devPub (off - 0x40)
    else if 0xA0 ≤ off ∧ off < 0x100 then wordAt fu.devCert (off - 0xA0)
    else match off with
      | 0x00 => pair (k.lockOwner.toNat * 16) (b2n k.unwrapBusy + k.unwrapOp.toNat * 2 + k.unwrapResult.toNat * 256)
      | 0x08 => pair (k.rekey.slot + b2n k.rekey.running * 2 ^ 12 + k.rekey.regionsDone.toNat * 2 ^ 13)
          ((List.range 16).map fun o => b2n (d.owner o).enrolled * 2 ^ o).sum
      | 0x10 => k.rekey.scanned
      | 0x18 => k.rekey.copied
      | 0x20 => k.rekey.failed
      | 0x28 => k.unwraps
      | 0x30 => k.unwrapFails
      | 0x38 => k.lockTimeouts
      | _ => 0
  else if off < 0x9000 then
    let n := (off - 0x1000) / 8
    let s := d.slot n
    let st := match s.state with
      | .empty => 0
      | .loaded => 1
      | .rekeying => 2
      | .exhausted => 3
    pair (st + b2n (k.storeFault.contains n) * 4 + s.owner * 16) s.gen.toNat
  else if off < 0x11000 then (d.slot ((off - 0x9000) / 8)).limit
  else 0

/-- The chip recorder (R428, R436). -/
def Dev.readEvents (d : Dev) (off : Nat) : Nat :=
  let v := d.evt
  if off < 0x1000 then match off with
    | 0x00 => b2n d.chip.logDegraded + b2n (decide (16384 ≤ v.nextSeq)) * 2 + v.entry * 4 + d.liveEntries * 256 +
        (d.recorder 8).ring.length * 2 ^ 15
    | 0x08 => v.nextSeq
    | 0x10 => if v.logOpen then d.oldestSeq else 0
    | 0x18 => (d.recorder 8).lost
    | 0x20 => v.slotBad
    | 0x28 => v.minSev.toNat + b2n v.notifyEnable * 16 + b2n v.notifyPending * 32
    | 0x30 => if d.wall.known then d.wall.wall else 0
    | 0x38 => if d.wall.known then stampNat d.wall.cycle d.wall.ms else 0
    | 0x40 => d.wallNow
    | _ => 0
  else if off < 0x2000 then
    match v.chipRing.find? fun e => e.seq % 64 == (off - 0x1000) / 64 with
    | none => 0
    | some e => wordAt e.bytes (off % 64)
  else 0

/-- A recorder of a region (R437). -/
def Recorder.read (q : Recorder) (off : Nat) : Nat :=
  match off with
  | 0x00 => q.ring.length + q.peak * 2 ^ 9 + b2n q.fenced * 2 ^ 18
  | 0x08 => q.lost
  | 0x10 => q.forwarded
  | 0x18 => q.coalesced
  | _ => 0

/-- PTP clock and 1PPS (R288). -/
def Ptp.read (p : Ptp) (off : Nat) : Nat :=
  match off with
  | 0x4000 => ptpWord p.seconds p.ns
  | 0x4008 => p.timeHi.toNat
  | 0x4020 => p.adjRate.toNat
  | 0x4028 => p.ppsCfg.toNat
  | 0x4030 => ptpWord p.capSeconds p.capNs
  | 0x4038 => pair (p.capSeconds / 2 ^ 32) p.ppsIn.toNat
  | _ => 0

/-- MAC_STATUS. -/
def Mac.statusWord (c : Mac) : Nat :=
  b2n c.linkUp + b2n c.rxLocalFault * 2 + b2n c.rxRemoteFault * 4 + b2n c.failsafeTx * 8 + b2n c.noPort * 16 + c.held.toNat * 256 +
    b2n c.pauseHeld * 65536

/-- A MAC (R287); that of the management lane has no classes (R284). -/
def Mac.read (fu : Fuses) (m : Nat) (c : Mac) (off : Nat) : Nat :=
  let oldest : TsEntry := c.tsQueue.head?.getD {}
  if off < 0x40 then match off with
    | 0x00 => pair c.cfg.toNat c.statusWord
    | 0x08 => pair (if m < 64 then c.prioMap.toNat else 0) c.maxFrame.toNat
    | 0x10 => pair (if m < 64 then c.pfcCfg.toNat else c.pfcCfg.toNat / 65536 * 65536) c.ipv4.toNat
    | 0x20 => c.ipv6a.toNat % 2 ^ 64
    | 0x28 => c.ipv6a.toNat / 2 ^ 64
    | 0x30 => c.ipv6b.toNat % 2 ^ 64
    | 0x38 => c.ipv6b.toNat / 2 ^ 64
    | _ => 0
  else if off < 0xC0 then (c.filter fu m ((off - 0x40) / 8)).toNat
  else if off < 0x100 then 0
  else if off < 0x300 then pair (c.mcHash.get 0 ((off - 0x100) / 4)).toNat (c.mcHash.get 0 ((off - 0x100) / 4 + 1)).toNat
  else if off < 0x400 then match off with
    | 0x300 => pair c.tsCfg.toNat (c.tsQueue.length + c.lastLostTag.toNat * 256)
    | 0x308 => ptpWord oldest.seconds oldest.ns
    | 0x310 => oldest.tag.toNat + oldest.seconds / 2 ^ 32 % 65536 * 65536
    | _ => 0
  else if off < 0x480 then
    [c.rxFrames, c.rxBytes, c.txFrames, c.txBytes, c.fcsErr, c.lenErr, c.filtered, c.csumErr, c.notServed, c.fecCorr, c.fecUncorr,
      c.pauseRcvd, c.tsLost, c.linkDowns, c.txResponder, 0].getD ((off - 0x400) / 8) 0
  else if off < 0x4C0 then c.rxDrop.get 0 ((off - 0x480) / 8)
  else if off < 0x500 then c.pfcSent.get 0 ((off - 0x4C0) / 8)
  else if off < 0x540 then c.pfcRcvd.get 0 ((off - 0x500) / 8)
  else 0

/-- A bank (R170). -/
def Dev.readBank (d : Dev) (b off : Nat) : Nat :=
  let x := d.bank b
  match off with
  | 0x00 => pair (if isClassBank b then 0x1A else 4)
      (x.throttle.toNat + b2n (d.scrubbing b) * 4 + b2n (d.chip.sensorFault.getLsbD (bankRegion b)) * 8 + x.replaced.length * 16 +
        b2n x.failed * 128)
  | 0x08 => pair x.scrubPeriod.toNat (d.validRows b).length
  | 0x10 => x.searches
  | 0x18 => x.c7Searches
  | 0x20 => x.falseHits
  | 0x28 => x.parityHits
  | 0x30 => x.scrubFixes
  | 0x38 => x.throttleMs
  | 0x40 => x.noMatch
  | 0x48 => x.denied
  | _ => 0

/-- A lane pair (R380). -/
def Lane.read (l : Lane) (off : Nat) : Nat :=
  match off with
  | 0x00 => b2n l.fenced + b2n l.waiting * 2
  | 0x08 => l.cipherBytes
  | 0x10 => l.hashBytes
  | 0x18 => l.tagFails
  | 0x20 => l.selfcheckFails
  | _ => 0

/-- Overflow buckets that are not linked, buckets of the longest chain, and valid entries of a region (R143). -/
def Dev.indexState (d : Dev) (r : Nat) : Nat × Nat × Nat :=
  let x := d.region r
  (d.geom.overflow - x.linked.length, (x.chains.map fun e => 1 + e.2.links.length).foldl max 1,
    (x.chains.map fun e => (e.2.slots.filter Option.isSome).length).sum)

/-- MEDIA_STATE, but for its write state read with the rest (R234). -/
def Dev.mediaStateWord (d : Dev) (r : Nat) : Nat :=
  let x := d.region r
  let draining := (d.store.dies.filter fun e => e.1 / 256 == r && e.2.state == 1).length
  x.writeState.toNat + b2n (d.store.geom.isSome && x.loaded && decide ((d.eligible r).length < 4)) * 4 + b2n x.wake * 8 + b2n x.flushed * 16 +
    b2n x.keystoneSingle * 32 + d.diesOut r * 64 + draining * 2 ^ 15

/-- The region common registers (R143, R234, R286, R314); the index registers read zero before step 7. -/
def Dev.readRegion (tProgUs : Nat) (d : Dev) (r off : Nat) : Nat :=
  let x := d.region r
  let there := d.store.geom.isSome && x.loaded
  let (free, chain, live) := d.indexState r
  if off < 0x9000 then match off with
    | 0x8000 => if there then pair d.geom.k d.geom.overflow else 0
    | 0x8008 => if there then pair free chain else 0
    | 0x8010 => if there then live else 0
    | 0x8018 => x.indexFull
    | 0x8020 => x.collisions
    | 0x8028 => x.tokIssued
    | 0x8030 => x.tokCurrent
    | 0x8038 => x.tokStale
    | 0x8040 => x.tokInvalid
    | 0x8048 => d.unitsUsed r + x.pkdPeak * 65536
    | 0x8050 => x.pkdWaits
    | _ => 0
  else if off < 0xA000 then match off with
    | 0x9000 => pair (d.mediaStateWord r) (x.readExp.toNat + x.patrolDays.toNat * 32 + x.wakeDays.toNat * 2 ^ 13)
    | 0x9008 => pair (x.roDies.toNat + x.exDies.toNat * 256 + x.gcLow.toNat * 65536 + x.holdMs.toNat * 2 ^ 24)
        ((d.eligible r).length + min 65535 ((d.store.stripes.filter fun e => stripeRegion e.1 == r && e.2.state == .retired).length) * 65536)
    | 0x9010 => pair x.fmtPhase.toNat (if there then flushRate tProgUs (d.presentDies r) d.geom / 1000000 else 0)
    | 0x9018 => x.ckptGen
    | 0x9020 => x.sectorsWritten
    | 0x9028 => x.progFails
    | 0x9030 => x.eraseFails
    | 0x9038 => x.uncorr
    | 0x9040 => x.rebuilds
    | 0x9048 => x.refreshes
    | 0x9050 => x.gcStripes
    | 0x9058 => x.relocSectors
    | 0x9060 => if there then d.liveSectors r else 0
    | 0x9068 => if there then d.usableSectors r else 0
    | _ => 0
  else match off with
    | 0xA000 => pair x.netCfg.toNat (b2n x.badLayout + x.laneLock.toNat * 2)
    | 0xB000 => (d.net.sessions.filter fun e => decide (e.2.mac < 64) && macRegion e.2.mac == r).length + d.net.sessPeak.get 0 r * 2 ^ 32
    | _ => if 0xB008 ≤ off ∧ off < 0xB078 then x.jen.getD ((off - 0xB000) / 8) 0 else 0

/-- A block of a region (R12). -/
def Dev.readBlock (fu : Fuses) (d : Dev) (r b off : Nat) : Nat :=
  if b < 8 then d.readCluster (r * 8 + b) off
  else if b < 27 then 0
  else if b < 31 then d.readBank (r * 4 + (b - 27)) off
  else if b < 39 then (d.mac (r * 8 + (b - 31))).read fu (r * 8 + (b - 31)) off
  else if b < 47 then (d.lane (r * 8 + (b - 39))).read off
  else if b = 47 then (d.recorder r).read off
  else 0

/-- A chip-level block (R13). -/
def Dev.readChipBlock (fu : Fuses) (window : Mem) (d : Dev) (b off : Nat) : Nat :=
  match b with
  | 0 => d.chip.read off
  | 2 => d.pcie.read d.chip.tick off
  | 3 =>
    if off < 0x10000 then 0
    else if off < 0x20000 then d.fw.read d.chip.tick (off - 0x10000)
    else if off < 0x30000 then 0
    else if off < 0x40000 then d.net.read (off - 0x30000)
    else if off < 0x80000 then wordAt ((d.net.partners.get? ((off - 0x40000) / 64)).map Partner.bytes |>.getD []) (off % 64)
    else leNat (Mem.readBytes 0 window (off - 0x80000) 8)
  | 4 => d.readCluster 64 off
  | 5 => d.readCluster 65 off
  | 6 => d.readCluster 66 off
  | 7 => d.readCluster 67 off
  | 8 => d.readKeys fu off
  | 10 => match off with
    | 0 => pair d.keys.alarm.toNat (b2n d.keys.entropyPassed + b2n d.keys.entropyFailed * 2 + d.keys.seeded.toNat * 4)
    | 8 => d.keys.reseeds
    | _ => 0
  | 11 => d.readEvents off
  | 13 => (d.mac 64).read fu 64 off
  | 14 => d.net.ptp.read off
  | _ => 0

/-- The aligned 8-byte word of control space at `a` (R30, table of the address map). -/
def Dev.readUnit (fu : Fuses) (tProgUs : Nat) (window : Mem) (d : Dev) (a : Nat) : Nat :=
  if a < 0x1000000 then d.readChipBlock fu window (a / 0x100000) (a % 0x100000) % 2 ^ 64
  else
    let r := (a - 0x1000000) / 0x200000
    let off := a % 0x200000
    (if off < 0x10000 then d.readRegion tProgUs r off else d.readBlock fu r ((off - 0x10000) / 0x8000) (off % 0x8000)) % 2 ^ 64

/-- A read of control space. -/
def Dev.readControl (fu : Fuses) (tProgUs : Nat) (window : Mem) (wide : Bool) (d : Dev) (a : Nat) : Nat :=
  let v := d.readUnit fu tProgUs window (a / 8 * 8)
  if wide then v else if a % 8 = 0 then v % 2 ^ 32 else v / 2 ^ 32

/-- A read of PTP_TIME latches the upper seconds (R288). -/
def Dev.afterRead (a : Nat) (d : Dev) : Dev :=
  if a / 8 * 8 = 0xE04000 then d.onPtp fun p => { p with timeHi := BitVec.ofNat 16 (p.seconds / 2 ^ 32) } else d

/-! ## Registers as they take a write -/

/-- A write to an 8-byte word: the bits written and their values; the halves of the pair of 32-bit registers in it. -/
structure RegWrite where
  mask : Nat
  value : Nat

/-- Is the low (high) half written? -/
def RegWrite.lo (w : RegWrite) : Bool := w.mask % 2 ^ 32 != 0
@[inherit_doc RegWrite.lo] def RegWrite.hi (w : RegWrite) : Bool := decide (2 ^ 32 ≤ w.mask)

/-- The value of the low (high) half. -/
def RegWrite.low (w : RegWrite) : W32 := BitVec.ofNat 32 (w.value % 2 ^ 32)
@[inherit_doc RegWrite.low] def RegWrite.high (w : RegWrite) : W32 := BitVec.ofNat 32 (w.value / 2 ^ 32)

/-- A 64-bit register whose writable bits are `bits_`. -/
def RegWrite.into (w : RegWrite) (bits_ : Nat) (v : W64) : W64 := put64 (w.mask &&& bits_) v w.value

/-- A 32-bit register in the low (high) half whose writable bits are `bits_`. -/
def RegWrite.intoLow (w : RegWrite) (bits_ : Nat) (v : W32) : W32 := put32 (w.mask % 2 ^ 32 &&& bits_) v (w.value % 2 ^ 32)
@[inherit_doc RegWrite.intoLow] def RegWrite.intoHigh (w : RegWrite) (bits_ : Nat) (v : W32) : W32 :=
  put32 (w.mask / 2 ^ 32 &&& bits_) v (w.value / 2 ^ 32)

/-- A register that only PF1, privileged coaches and firmware write: a PF0 write is ignored and counted (R320). -/
def pf1Only (by_ : Requester) (f : Dev → Dev) : Dev → Dev := byManagement by_ f

/-- PCIE_PS_CTL: the serving state follows cap at once (R348). -/
def Dev.writePsCtl (w : RegWrite) (d : Dev) : Dev :=
  let d := d.onPcie fun p => { p with psCtl := w.intoLow 0xFFFFFFF p.psCtl }
  if d.pcie.ps < 2 then d.movePower d.pcie.serving 1 else d

/-- PCIE_QCMD (R322). -/
def Dev.writeQcmd (v : W32) (d : Dev) : Dev :=
  match v.toNat % 4 with
  | 1 => queueCommand queueCreateEffect d
  | 2 => queueCommand queueDeleteEffect d
  | 3 => queueCommand (queueAbortEffect ((v >>> 16).setWidth 16)) d
  | _ => d

/-- An MSI-X table word: messages held for vectors that it unmasks are sent. -/
def Dev.writeTable (fn i : Nat) (w : RegWrite) (d : Dev) : Dev :=
  let lo := 2 * i
  let old (t : Tab W32) (k : Nat) : W32 := t.get (if k % 4 = 3 then 1 else 0) k
  (d.onFn fn fun f =>
    let t := if w.lo then f.msixTable.set lo (w.intoLow 0xFFFFFFFF (old f.msixTable lo)) else f.msixTable
    { f with msixTable := if w.hi then t.set (lo + 1) (w.intoHigh (if i % 2 = 1 then 1 else 0xFFFFFFFF) (old t (lo + 1))) else t }).sendPending fn

/-- A write to the endpoint block. -/
def Dev.writePcie (by_ : Requester) (pool : Mem) (off : Nat) (w : RegWrite) (d : Dev) : Dev :=
  let on (f : Pcie → Pcie) : Dev := d.onPcie f
  if off < 0x2000 then match off with
    | 0x00 => on fun p => { p with fsVector := (w.intoLow 0x7FF (p.fsVector.setWidth 32)).setWidth 11 }
    | 0x08 => pf1Only by_ (Dev.onPcie fun p => { p with policy := w.into (2 ^ 35 - 1) p.policy }) d
    | 0x10 => if w.lo then d.writePsCtl w else d
    | 0x1000 => on fun p => { p with qpSqBase := w.into (2 ^ 64 - 1) p.qpSqBase }
    | 0x1008 => on fun p => { p with qpCqBase := w.into (2 ^ 64 - 1) p.qpCqBase }
    | 0x1010 => on fun p => { p with qpParam := w.intoLow 0xFFFFFFFF p.qpParam, qpVec := w.intoHigh 0xFFFF p.qpVec }
    | 0x1018 => if w.lo then d.writeQcmd w.low else d
    | 0x1020 => if w.lo && w.low.getLsbD 0 && d.pcie.qresult.valid then on fun p => { p with qresult := {} } else d
    | _ => d
  else if off < 0x3000 then
    if off < 0x2080 then
      let store (p : Pcie) : Pcie :=
        let old := leNat (Mem.readBytes 0 p.mboxEntry (off - 0x2000) 8)
        { p with mboxEntry := Mem.writeBytes 0 p.mboxEntry (off - 0x2000) (leBytes 8 (merge w.mask old w.value)) }
      pf1Only by_ (Dev.onPcie store) d
    else if off = 0x2080 ∧ w.lo = true ∧ w.low.getLsbD 0 = true then pf1Only by_ (mboxEffect pool) d
    else if off = 0x2088 ∧ w.lo = true ∧ w.low.getLsbD 0 = true then
      pf1Only by_ (guarded (fun d => d.pcie.mboxStatus.valid) (Dev.onPcie fun p => { p with mboxStatus := {}, mboxResult := none })) d
    else d
  else if off < 0x3200 then
    let s := (off - 0x3000) / 8
    pf1Only by_ (Dev.onPcie fun p => { p with pwShadow := p.pwShadow.set s (w.into 127 (p.pwShadow.get 0 s)) }) d
  else if off < 0x3400 then d
  else if off = 0x3400 then (if w.lo && w.low.getLsbD 0 then pf1Only by_ (Dev.onPcie Pcie.commitWindow) d else d)
  else if off < 0x8000 then d
  else if off < 0x10000 then d.writeTable 0 ((off - 0x8000) / 8) w
  else if 0x10100 ≤ off ∧ off < 0x10200 then pf1Only by_ (Dev.writeTable 1 ((off - 0x10100) / 8) w) d
  else d

/-- A write to a MAC. -/
def Dev.writeMac (m off : Nat) (w : RegWrite) (d : Dev) : Dev :=
  let on (f : Mac → Mac) : Dev := d.onMac m f
  if off < 0x40 then match off with
    | 0x00 => if w.lo then d.writeMacCfg m w.low else d
    | 0x08 => on fun c => { c with prioMap := w.intoLow (if m < 64 then 0xFFFFFF else 0) c.prioMap, maxFrame := w.intoHigh 0x3FFF c.maxFrame }
    | 0x10 => on fun c => { c with pfcCfg := w.intoLow (if m < 64 then 0x3FFFF else 0x30000) c.pfcCfg, ipv4 := w.intoHigh 0xFFFFFFFF c.ipv4 }
    | 0x20 => on fun c => { c with ipv6a := BitVec.ofNat 128 (merge w.mask c.ipv6a.toNat w.value) }
    | 0x28 => on fun c => { c with ipv6a := BitVec.ofNat 128 (merge (w.mask * 2 ^ 64) c.ipv6a.toNat (w.value * 2 ^ 64)) }
    | 0x30 => on fun c => { c with ipv6b := BitVec.ofNat 128 (merge w.mask c.ipv6b.toNat w.value) }
    | 0x38 => on fun c => { c with ipv6b := BitVec.ofNat 128 (merge (w.mask * 2 ^ 64) c.ipv6b.toNat (w.value * 2 ^ 64)) }
    | _ => d
  else if off < 0x100 then d
  else if off < 0x300 then
    let i := (off - 0x100) / 4
    on fun c =>
      let t := if w.lo then c.mcHash.set i (w.intoLow 0xFFFFFFFF (c.mcHash.get 0 i)) else c.mcHash
      { c with mcHash := if w.hi then t.set (i + 1) (w.intoHigh 0xFFFFFFFF (t.get 0 (i + 1))) else t }
  else match off with
    | 0x300 => on fun c => { c with tsCfg := w.intoLow 0xF c.tsCfg }
    | 0x310 => if w.hi && w.high.getLsbD 0 then on Mac.pop else d
    | _ => d

/-- A write to a filter entry of a MAC, whose entry 0 resets to the fused address (R270). -/
def Dev.writeFilter (fu : Fuses) (m n : Nat) (w : RegWrite) (d : Dev) : Dev :=
  d.onMac m fun c => { c with ucFilter := c.ucFilter.set n (w.into (2 ^ 49 - 1) (c.filter fu m n)) }

/-- MEDIA_POLICY. -/
def Region.writePolicy (w : RegWrite) (x : Region) : Region :=
  let v := (w.intoHigh 0x1FFFFF (BitVec.ofNat 32 (x.readExp.toNat + x.patrolDays.toNat * 32 + x.wakeDays.toNat * 2 ^ 13))).toNat
  { x with readExp := BitVec.ofNat 5 v, patrolDays := BitVec.ofNat 8 (v / 32), wakeDays := BitVec.ofNat 8 (v / 2 ^ 13) }

/-- MEDIA_LIMITS; ro_dies has no value 0, which leaves the field (R6). -/
def Region.writeLimits (w : RegWrite) (x : Region) : Region :=
  let v := (w.intoLow 0xFFFFFFFF (BitVec.ofNat 32 (x.roDies.toNat + x.exDies.toNat * 256 + x.gcLow.toNat * 65536 + x.holdMs.toNat * 2 ^ 24))).toNat
  { x with roDies := if v % 256 = 0 then x.roDies else BitVec.ofNat 8 v, exDies := BitVec.ofNat 8 (v / 256)
           gcLow := BitVec.ofNat 8 (v / 65536), holdMs := BitVec.ofNat 8 (v / 2 ^ 24) }

/-- A write to a region's registers. -/
def Dev.writeRegion (fu : Fuses) (r off : Nat) (w : RegWrite) (d : Dev) : Dev :=
  if off < 0x10000 then match off with
    | 0x9000 => if w.hi then d.onRegion r (Region.writePolicy w) else d
    | 0x9008 => if w.lo then (d.onRegion r (Region.writeLimits w)).when (d.store.geom.isSome && (d.region r).loaded) (Dev.checkWriteState r) else d
    | 0xA000 => d.onRegion r fun x => { x with netCfg := w.intoLow 0xFFFFFFF x.netCfg }
    | _ => d
  else
    let b := (off - 0x10000) / 0x8000
    let o := off % 0x8000
    if b < 8 then (if o = 0 ∧ w.lo = true then d.onCluster (r * 8 + b) fun c => { c with timeout := (w.intoLow 0xFF (c.timeout.setWidth 32)).setWidth 8 } else d)
    else if 27 ≤ b ∧ b < 31 then
      (if o = 8 ∧ w.lo = true then d.onBank (r * 4 + (b - 27)) fun x => { x with scrubPeriod := (w.intoLow 0xFF (x.scrubPeriod.setWidth 32)).setWidth 8 } else d)
    else if 31 ≤ b ∧ b < 39 then
      (if 0x40 ≤ o ∧ o < 0xC0 then d.writeFilter fu (r * 8 + (b - 31)) ((o - 0x40) / 8) w else d.writeMac (r * 8 + (b - 31)) o w)
    else d

/-- A write to the PTP registers (R288). Of PTP_SET, a half that is not written keeps the clock's own. -/
def Ptp.writeReg (off : Nat) (w : RegWrite) (p : Ptp) : Ptp :=
  match off with
  | 0x4010 => if w.hi then p.write (BitVec.ofNat 64 (merge w.mask (ptpWord p.seconds p.ns) w.value)) else
      { p with ns := if bits w.value 0 30 < 1000000000 then bits w.value 0 30 else p.ns }
  | 0x4018 => { p with setHi := (w.intoLow 0xFFFF (p.setHi.setWidth 32)).setWidth 16 }
  | 0x4020 =>
    let p := { p with adjRate := w.intoLow 0xFFFFFFFF p.adjRate }
    if w.hi then p.step w.high else p
  | 0x4028 => { p with ppsCfg := w.intoLow 0x1FFF p.ppsCfg }
  | _ => p

/-- EVT_NOTIFY: pending is cleared by writing 1. -/
def EventState.writeNotify (w : RegWrite) (v : EventState) : EventState :=
  if w.lo then { v with minSev := w.low.setWidth 4, notifyEnable := w.low.getLsbD 4, notifyPending := v.notifyPending && !w.low.getLsbD 5 } else v

/-- UNWRAP_LOCK: acquire, then release. -/
def Dev.writeUnwrapLock (by_ : Requester) (v : W32) (d : Dev) : Dev :=
  (d.when (v.getLsbD 0) (Dev.acquireLock by_)).when (v.getLsbD 1) (Dev.releaseLock by_)

/-- A write to the 8-byte word at `a`. -/
def Dev.writeUnit (fu : Fuses) (by_ : Requester) (m : Memories) (a : Nat) (w : RegWrite) (d : Dev) : Dev :=
  let off := a % 0x100000
  if 0x1000000 ≤ a then d.writeRegion fu ((a - 0x1000000) / 0x200000) (a % 0x200000) w
  else match a / 0x100000 with
    | 0 => if off = 0x38 then d.onChip fun c => { c with scratch := w.intoLow 0xFFFFFFFF c.scratch } else d
    | 2 => d.writePcie by_ m.pool off w
    | 3 =>
      if off = 0x10020 ∧ w.lo = true ∧ w.low.getLsbD 0 = true then commitSettings m d
      else if off = 0x30000 then d.onNet fun n =>
        { n with jenCfg := w.intoLow 0xFFFFFFFF n.jenCfg, sessCfg := w.intoHigh 0x3FFFFFF n.sessCfg }
      else if off = 0x30008 then d.onNet fun n => { n with discMask := w.into (2 ^ 64 - 1) n.discMask }
      else d
    | 8 => if off = 0 ∧ w.lo = true then d.writeUnwrapLock by_ w.low else d
    | 11 => if off = 0x28 then d.onEvt (EventState.writeNotify w) else d
    | 13 => if 0x40 ≤ off ∧ off < 0xC0 then d.writeFilter fu 64 ((off - 0x40) / 8) w else d.writeMac 64 off w
    | 14 => d.onPtp (Ptp.writeReg off w)
    | k =>
      if 4 ≤ k ∧ k < 8 ∧ off = 0 ∧ w.lo = true then d.onCluster (64 + (k - 4)) fun c => { c with timeout := (w.intoLow 0xFF (c.timeout.setWidth 32)).setWidth 8 }
      else d

/-- The word that an access of 4 or 8 bytes at `a` writes. -/
def regWrite (a : Nat) (wide : Bool) (v : W64) : RegWrite :=
  if wide then { mask := 2 ^ 64 - 1, value := v.toNat }
  else if a % 8 = 0 then { mask := 2 ^ 32 - 1, value := v.toNat % 2 ^ 32 }
  else { mask := (2 ^ 32 - 1) * 2 ^ 32, value := v.toNat % 2 ^ 32 * 2 ^ 32 }

/-- SET_WINDOW is written (R406). -/
def inSetWindow (a : Nat) : Bool := decide (0x380000 ≤ a ∧ a < 0x400000)

/-- An aligned access below 32 MiB (R108). -/
def controlAligned (a : Nat) (wide : Bool) : Bool := decide (a < 0x2000000 ∧ a % (if wide then 8 else 4) = 0)

/-- PF0 reaches the chip common registers and the endpoint block only (R29). -/
def pf0Reaches (a : Nat) : Bool := decide (a < 0x10000 ∨ (0x200000 ≤ a ∧ a < 0x300000))

/-- A register write (R29, R30): every write is ignored in the fail-safe state. -/
def controlWrite (fu : Fuses) (by_ : Requester) (a : Nat) (wide : Bool) (v : W64) (s : Memories × Dev) : Memories × Dev :=
  let (m, d) := s
  if d.failsafe then s
  else if by_ = .pf0 ∧ pf0Reaches a = false then (m, d.onPcie fun p => { p with blocked := bump p.blocked })
  else if inSetWindow a then
    ({ m with setWindow := Mem.writeBytes 0 m.setWindow (a - 0x380000) (leBytes (if wide then 8 else 4) v.toNat) }, d)
  else (m, d.writeUnit fu by_ m (a / 8 * 8) (regWrite a wide v))

/-- A register read through a path (R29, R30): PF0 reads zero outside its reach, and each such read is counted. The fail-safe
state changes nothing of it. -/
def controlRead (fu : Fuses) (tProgUs : Nat) (window : Mem) (by_ : Requester) (a : Nat) (wide : Bool) (d : Dev) : Nat × Dev :=
  if by_ = .pf0 ∧ pf0Reaches a = false then (0, d.onPcie fun p => { p with blocked := bump p.blocked })
  else (d.readControl fu tProgUs window wide a, d.afterRead a)

/-- GENERIC_REGISTER_WRITE: an access to a register from outside a program, a write of `value`, or with none a read, whose
data leaves by the path it came. -/
def execGenericRegisterWrite (by_ : Requester) (address : Nat) (wide : Bool) (value : Option W64) (s : State) : Answer :=
  onAll (fun m d =>
    if d.running && controlAligned address wide then match value with
      | some v => controlWrite s.fuses by_ address wide v (m, d)
      | none =>
        let (v, d) := controlRead s.fuses s.board.tProgUs m.setWindow by_ address wide d
        (m, d.emit (.readData (leBytes (if wide then 8 else 4) v)))
    else (m, d)) s

/-! ## Registers that settings may load (R395) -/

/-- The 8-byte word holds an RW field in the half or halves that an access writes; SET_WINDOW is none (R406). -/
def rwUnit (a : Nat) (lo hi : Bool) : Bool :=
  let off := a % 0x100000
  let mac (o : Nat) : Bool :=
    (o == 0 && lo && !hi) || o == 8 || o == 0x10 || decide (0x20 ≤ o ∧ o < 0xC0) || decide (0x100 ≤ o ∧ o < 0x300) || (o == 0x300 && lo)
  if 0x1000000 ≤ a then
    let o := a % 0x200000
    if o < 0x10000 then (o == 0x9000 && hi) || (o == 0x9008 && lo) || (o == 0xA000 && lo)
    else
      let b := (o - 0x10000) / 0x8000
      if b < 8 then o % 0x8000 == 0 && lo
      else if 27 ≤ b ∧ b < 31 then o % 0x8000 == 8 && lo
      else if 31 ≤ b ∧ b < 39 then mac (o % 0x8000)
      else false
  else match a / 0x100000 with
    | 0 => off == 0x38 && lo
    | 2 => (off == 0 && lo) || off == 8 || (off == 0x10 && lo) || off == 0x1000 || off == 0x1008 || off == 0x1010 ||
        decide ((0x2000 ≤ off ∧ off < 0x2080) ∨ (0x3000 ≤ off ∧ off < 0x3200) ∨ (0x8000 ≤ off ∧ off < 0x10000) ∨ (0x10100 ≤ off ∧ off < 0x10200))
    | 3 => off == 0x30000 || off == 0x30008
    | 11 => off == 0x28 && lo
    | 13 => mac off
    | 14 => (off == 0x4020 && lo) || (off == 0x4028 && lo)
    | k => decide (4 ≤ k ∧ k < 8) && off == 0 && lo

/-- An access to an RW field. -/
def isRw (a : Nat) (wide : Bool) : Bool :=
  controlAligned a wide && rwUnit (a / 8 * 8) (wide || a % 8 == 0) (wide || a % 8 == 4)

/-! ## MRD and MWR (R108) -/

/-- The operand address and width; none where it is not aligned or lies at or beyond 32 MiB. -/
def Coach.control (c : Coach) (w : Fields) : Option (Nat × Bool) :=
  let a := c.run.num w.a
  let wide := w.m == 1
  if controlAligned a wide then some (a, wide) else none

/-- Management engine of a context, as a requester. -/
def engineOf (ctx : Nat) : Requester := .engine (Fin.ofNat 4 ((ctx - 2048) / 8))

/-- MRD. -/
def mrdEffect (fu : Fuses) (tProgUs : Nat) (window : Mem) (i : Nat) (c : Coach) (w : Fields) (d : Dev) : Dev :=
  match c.control w with
  | none => d.fail i stIllegalValue
  | some (a, wide) =>
    let v := d.readControl fu tProgUs window wide a
    (d.afterRead a).endWith i stOk (Run.setReg w.d (BitVec.ofNat 64 v))

/-- MRD. -/
def execMrd (ctx : CtxId) (s : State) : Answer :=
  runInstr ctx (·.op == 0x40) (noted (mrdEffect s.fuses s.board.tProgUs s.mem.setWindow)) s

/-- MWR; in the fail-safe state the write is ignored. -/
def mwrEffect (fu : Fuses) (i : Nat) (c : Coach) (w : Fields) (s : Memories × Dev) : Memories × Dev :=
  match c.control w with
  | none => (s.1, s.2.fail i stIllegalValue)
  | some (a, wide) =>
    let (m, d) := controlWrite fu (engineOf c.context) a wide (c.run.reg w.b) s
    (m, d.endWith i stOk id)

/-- MWR. -/
def execMwr (ctx : CtxId) (s : State) : Answer :=
  onAll (fun m d => match d.coachIn ctx.val with
    | none => (m, d)
    | some (i, c) =>
      if d.pathRuns c.privileged && c.wait == .none && decide (c.run.steps < 256) && c.current.op == 0x41 then
        let (m, d) := mwrEffect s.fuses i c c.current (m, d)
        (m, d.onCoach i fun c => { c with acted := true })
      else (m, d)) s

end Sys2Proof.Machine
end

