-- ==== Sys2Proof/Machine/Boot.lean ====
section
/-!
DEFINITION. Machine/Boot.lean: start-up steps 1 to 5: ROM, slot choice, settings, DRAM training, microcode (R381 to R383,
R386, R391, R393, R395, R396, R398, R403, R450, R453). The row of step n stands for the whole step; it runs when step n - 1
has ended and nothing halts the start (log entry 31).
-/
namespace Sys2Proof.Machine

/-! ## The order of the steps (R381, R449, R450) -/

/-- Step `k` may run: the step before it has ended; the start is not halted, does not wait and is not being abandoned. -/
def Dev.mayStart (k : Nat) (d : Dev) : Bool :=
  d.live && d.chip.state == 0 && decide (d.chip.step.toNat + 1 = k) && !d.pfail.halted && !d.pfail.waiting && !d.fw.selfReset

/-- Step `k` has run and took `ms`. -/
def Dev.stepEnds (k : Nat) (ms : W32) (d : Dev) : Dev :=
  (d.onChip fun c => { c with step := BitVec.ofNat 4 k }).onFw fun f => { f with stepMs := f.stepMs.set k ms }

/-- A start-up event (R405). -/
def Dev.reportStart (code : Nat) (params : List Nat) : Dev → Dev := Dev.report 8 3 0 code params

/-- The recovery state (R398). -/
def Dev.enterRecovery (cause : Nat) (d : Dev) : Dev :=
  let d := d.onChip fun c => { c with state := 2, step := 0, mgmtLaneLock := true }
  let slot (f : Firmware) : Nat := if cause = 1 then 3 else f.slot
  (d.onFw fun f => { f with recovery := BitVec.ofNat 2 cause, slot := slot f }).reportStart 0xD00A [cause, 0, 0, 0, 0]

/-- A check of step 1 to 5 fails that leaves nothing to run: a trial fails, another start goes to recovery. -/
def Dev.startFails (d : Dev) : Dev := if d.fw.onTrial then d.failTrial 3 else d.enterRecovery 1

/-! ## Step 1 (R381, R443, R450) -/

/-- The pins at the release of RESET#. -/
def Pins.released (r : RomResult) (p : Pins) : Pins :=
  { p with stage := .running, smbAddrHigh := r.smbAddrHigh, pwrfailLow := r.pwrfailLow, testEnHigh := false, uartUp := true
           ceHigh := true, wpHigh := false, dramResetHigh := false, selfRefresh := false }

/-- Step 1. -/
def Dev.rom (r : RomResult) (d : Dev) : Dev :=
  let d := d.onPins (Pins.released r)
  let d := d.onChip fun c => { c with state := 0, rootLock := r.pllLocked, serdesLock := BitVec.allOnes 8 }
  let d := (d.stepEnds 1 r.ms).onPfail fun p => { p with waiting := r.pwrfailLow }
  if !r.pllLocked then d.enterFailsafe fsRootPll 0
  else if !r.selfTestOk then d.enterFailsafe fsSelftest 0
  else if !r.entropyOk then d.alarm .entropy r.lowestMv r.highestMc
  else d.onKeys fun k => { k with entropyPassed := true }

/-- START_ROM: RESET# is released. A TEST_EN found high holds the device (R442). -/
def execStartRom (r : RomResult) (s : State) : Answer :=
  onDev (guarded (fun d => d.pins.stage == .held && !d.pins.perstHolds) (fun d =>
    if r.testEnHigh then d.onPins fun p => { p with testEnHigh := true } else d.rom r)) s

/-! ## Step 2 (R386, R391, R393, R453) -/

/-- The settings options that the ROM loader reads; none where no copy can be read or it holds no entry. -/
def loaderOptions (m : Memories) (b : BootControl) : DeviceOptions :=
  match findSettings m b.setArea with
  | some (_, _, r) => deviceOptions (settingsEntries 131072 r.body)
  | none => {}

/-- W and the clock source apply at step 2 and at each fundamental reset from then on (R395, R453). -/
def Dev.applyOptions (o : DeviceOptions) (d : Dev) : Dev :=
  (d.onPcie fun p => { p with windowGiB := o.window }).onChip fun c =>
    { c with pcieRefclk := o.clockSource == 1 || o.clockSource == 2 }

/-- A trial is reverted: the record, then the converted area and its mirror are erased. -/
def revertTrial (cause : Nat) (s : Memories × Dev) : Memories × Dev :=
  let b := s.2.fw.bcr
  let d := s.2.reportStart 0xD005 [b.trial, pick b.version b.trial, cause, 0, 0]
  let (m, d) := bootRecord (fun x => { x with
    trial := 0xFF, tstate := 0, slotState := setPick x.slotState b.trial 2, convArea := 0xFF, lastResult := 0x65 }) (s.1, d)
  if b.convArea < 2 then
    ({ m with norA := Mem.erase m.norA (areaBase b.convArea) 0x80000, norB := Mem.erase m.norB (mirrorBase b.convArea) 0x80000 }, d)
  else (m, d)

/-- The image in a slot is good under the floor in force; a slot in state 3 never boots (R388, R390). -/
def bootable (fu : Fuses) (s : Memories × Dev) (slot : Nat) : Bool := pick s.2.fw.bcr.slotState slot != 3 && imageStatus fu s.1.norA slot s.2.fw.bcr.floor == stOk

/-- Slots to try with no trial: the active one, then the other where valid; with no active slot, the valid ones, higher
version first (cases 3 and 4 of R391). -/
def slotOrder (nor : Mem) (b : BootControl) : List Nat :=
  let version (i : Nat) : Nat := (imageInfo (headerBytes nor i)).version
  let valid (l : List Nat) : List Nat := l.filter fun i => pick b.slotState i == 1
  if b.active < 2 then b.active :: valid [1 - b.active]
  else valid (if version 0 < version 1 then [1, 0] else [0, 1])

/-- The first slot with a good image boots; a slot found not good before it has failed, and a slot that boots without having
been active becomes active. -/
def bootCommitted (fu : Fuses) (s : Memories × Dev) : Option Nat × Memories × Dev :=
  let b := s.2.fw.bcr
  let order := slotOrder s.1.norA b
  let failed := order.takeWhile fun i => !bootable fu s i
  let chosen := order.find? (bootable fu s)
  let fail (x : Nat × Nat) : Nat × Nat := failed.foldl (fun x i => setPick x i 2) x
  if failed.isEmpty && (chosen == some b.active || chosen.isNone) then (chosen, s)
  else (chosen, bootRecord (fun x => { x with
    active := chosen.getD x.active, slotState := fail x.slotState
    version := match chosen with
      | some i => setPick x.version i (imageInfo (headerBytes s.1.norA i)).version
      | none => x.version }) s)

/-- The slot that boots, and whether on trial. -/
def chooseSlot (fu : Fuses) (s : Memories × Dev) : (Option Nat × Bool) × Memories × Dev :=
  let b := s.2.fw.bcr
  let committed (s : Memories × Dev) : (Option Nat × Bool) × Memories × Dev :=
    let (o, s) := bootCommitted fu s
    ((o, false), s)
  if b.tstate = 1 then
    let s := bootRecord (fun x => { x with tstate := 2 }) s
    if bootable fu s b.trial then
      ((some b.trial, true), (s.1, s.2.reportStart 0xD003 [b.trial, pick b.version b.trial, 0, 0, 0]))
    else committed (revertTrial 3 s)
  else if b.tstate = 2 then committed (revertTrial (s.2.fw.revertCause.getD 4) s)
  else committed s

/-- Step 2. -/
def norStep (fu : Fuses) (ms : W32) (s : Memories × Dev) : Memories × Dev :=
  let b := (validBoot s.1.norA).getD {}
  let options := loaderOptions s.1 b
  let d := s.2.onFw fun f => { f with bcr := b, options := options }
  let d := (d.applyOptions options).onPcie fun p => { p with training := !d.pins.perstAsserted }
  let ((slot, trial), m, d) := chooseSlot fu (s.1, d.stepEnds 2 ms)
  match slot with
  | none => (m, d.enterRecovery 1)
  | some i => (m, d.onFw fun f => { f with slot := i, onTrial := trial, revertCause := none, image := imageInfo (headerBytes m.norA i) })

/-- START_NOR. -/
def execStartNor (ms : W32) (s : State) : Answer :=
  onAll (fun m d => if d.mayStart 2 then norStep s.fuses ms (m, d) else (m, d)) s

/-! ## Step 3: settings (R395, R396) -/

/-- The settings in use. -/
def Dev.useSettings (r : SettingsRecord) (converted : Bool) : Dev → Dev :=
  Dev.onFw fun f => { f with
    settingsSeq := r.seq, settingsFormat := r.format, entries := settingsEntries 131072 r.body, converted := converted
    settingsDefault := false }

/-- The device starts from reset values. -/
def Dev.defaultSettings (area : Nat) (d : Dev) : Dev :=
  (d.onFw fun f => { f with settingsDefault := true, entries := [] }).reportStart 0xD007 [3, area, 0, 0, 0]

/-- A trial image converts the settings copy it read to the format it writes. -/
def convertTrial (area : Nat) (r : SettingsRecord) (s : Memories × Dev) : Memories × Dev :=
  let (m, d) := s
  let other := 1 - area
  let format := d.fw.image.setWrite
  let body := Config.convertSettings r.format format r.body
  let made : SettingsRecord := { format := format, flags := r.flags ||| 1, seq := r.seq + 1, body := body }
  let m := writeArea other (settingsBytes format made.flags made.seq r.seq d.fw.slot body) m
  let (m, d) := bootRecord (fun b => { b with convArea := other }) (m, d)
  (m, (d.useSettings made true).reportStart 0xD006 [r.format, format, r.seq, made.seq, other])

/-- Settings are read; false where the trial fails on them. -/
def loadSettings (s : Memories × Dev) : Bool × Memories × Dev :=
  let (m, d) := s
  let area := d.fw.bcr.setArea
  match findSettings m area with
  | none => (true, m, d.defaultSettings area)
  | some (cause, from_, r) =>
    let d := if cause = 0 then d else d.reportStart 0xD007 [cause, from_, 0, 0, 0]
    let x := d.fw.image
    if x.setReadMin ≤ r.format ∧ r.format ≤ x.setReadMax then (true, m, d.useSettings r false)
    else if !d.fw.onTrial then (true, m, d.defaultSettings area)
    else if x.setConvMin ≤ r.format ∧ r.format < x.setReadMin then
      let (m, d) := convertTrial from_ r (m, d)
      (true, m, d)
    else (false, m, d)

/-- A settings entry is skipped. -/
def Dev.skipEntry (kind place : Nat) : Dev → Dev := Dev.reportStart 0xD00B [kind, place, 0, 0, 0]

/-- A register entry: offset, width, step, value. -/
def SettingsEntry.register (e : SettingsEntry) : Nat × Nat × Nat × W64 :=
  (leAt e.value 0 4, leAt e.value 4 1, leAt e.value 5 1, BitVec.ofNat 64 (leAt e.value 8 8))

/-- A register entry is applied at its step. -/
def Dev.applyRegister (fu : Fuses) (m : Memories) (e : SettingsEntry) (d : Dev) : Dev :=
  let (a, width, _, v) := e.register
  let wide := width == 8
  if (width == 4 || wide) && isRw a wide then d.writeUnit fu .firmware m (a / 8 * 8) (regWrite a wide v) else d.skipEntry 1 a

/-- The entries that `step` applies among the register entries. -/
def Dev.applyRegisters (fu : Fuses) (m : Memories) (step : Nat) (d : Dev) : Dev :=
  Dev.each (d.fw.entries.filter fun e => e.kind == 1 && e.register.2.2.1 == step) (Dev.applyRegister fu m) d

/-- What is not a register entry, at step 3: management peers, device options, entries of an unknown type. -/
def Dev.applyEntry (i : Nat) (e : SettingsEntry) (d : Dev) : Dev :=
  match e.kind with
  | 1 => if e.register.2.2.1 == 3 || e.register.2.2.1 == 10 then d else d.skipEntry 1 e.register.1
  | 2 => d
  | 3 =>
    if d.fw.allowList.length < 16 then d.onFw fun f => { f with allowList := f.allowList ++ [BitVec.ofNat 128 (leAt e.value 0 16)] }
    else d.skipEntry 3 i
  | 4 => if (deviceOptions [e]).clockSource < 3 then d else d.skipEntry 4 i
  | k => d.skipEntry k i

/-- Settings entries are applied that name step 3. W and the clock source stay as the ROM loader read them, and take their
reset values where the device runs on reset values (R395, R453). -/
def Dev.applySettings (fu : Fuses) (m : Memories) (d : Dev) : Dev :=
  let read := deviceOptions d.fw.entries
  let options := if d.fw.settingsDefault then {} else { read with clockSource := d.fw.options.clockSource, windowGiB := d.fw.options.windowGiB }
  let d := d.onFw fun f => { f with options := options }
  let d := d.onPcie fun p => { p with perstChip := options.perstChip == 1 }
  let d := Dev.each ((List.range d.fw.entries.length).zip d.fw.entries) (fun e d => d.applyEntry e.1 e.2) d
  (d.applyRegisters fu m 3).reloadWindow

/-! ## Step 3: ttr_ms, the Device Description Table, management paths (R321, R382, R392) -/

/-- The newest geometry record on the media. -/
def NonVolatile.newest (n : NonVolatile) : Option Geometry :=
  (n.regions.flatMap fun e => [e.2.copyA, e.2.copyB]).foldl (fun best o => match best, o with
    | none, o => o
    | some b, some g => if b.fmtgen < g.fmtgen then some g else some b
    | some b, none => some b) none

/-- Populated channels of region `r`. -/
def Geometry.channels (g : Geometry) (r : Nat) : Nat := ((List.range 16).filter (g.populated r)).length

/-- Sectors of region `r`. -/
def Geometry.sectors (g : Geometry) (r : Nat) : Nat :=
  g.channels r * g.ces * g.luns * g.planes * g.bpp * g.ppb * g.spg

/-- Bytes of the live map of region `r`. -/
def Geometry.liveMapBytes (g : Geometry) (r : Nat) : Nat := ceilDiv (g.sectors r) 8

/-- Bytes of the index and the live map of every region. -/
def Geometry.indexBytes (g : Geometry) : Nat :=
  ((List.range 8).map fun r => (2 ^ g.k + g.overflow) * 128 + g.liveMapBytes r).sum

/-- The typical times of the table of R381, at 1DPC. -/
def typicalSteps : Tab W32 := [(1, 15), (2, 170), (3, 120), (4, 1600), (5, 450), (6, 5), (9, 1), (10, 20)]

/-- ttr_ms (R382). -/
def NonVolatile.ttr (n : NonVolatile) : W32 :=
  let steps := if n.lastSteps.isEmpty then typicalSteps else n.lastSteps
  let fixed := ([1, 2, 3, 4, 5, 6, 9, 10].map fun k => (steps.get 0 k).toNat).sum
  BitVec.ofNat 32 (fixed + ceilDiv (2000 * (n.newest.map Geometry.indexBytes |>.getD 0)) (2 ^ 40) + 350)

/-- Step 3. -/
def firmwareStep (fu : Fuses) (selfCheckOk : Bool) (ms : W32) (s : Memories × Dev) : Memories × Dev :=
  let d := s.2.onFw fun f => { f with trialTick := s.2.chip.tick }
  let d := d.stepEnds 3 ms
  if !selfCheckOk then (s.1, d.startFails)
  else
    let (ok, m, d) := loadSettings (s.1, d)
    if !ok then (m, d.failTrial 2)
    else
      let d := d.applySettings fu m
      let d := d.onFw fun f => { f with ttrMs := d.nv.ttr }
      (m, (d.buildDdt fu.deviceId).onChip fun c => { c with mgmtLaneLock := true })

/-- START_MANAGEMENT_FIRMWARE. -/
def execStartManagementFirmware (selfCheckOk : Bool) (ms : W32) (s : State) : Answer :=
  onAll (fun m d => if d.mayStart 3 then firmwareStep s.fuses selfCheckOk ms (m, d) else (m, d)) s

/-! ## Step 4 (R381) -/

/-- CHIP_CLK_STATUS.dclk_sel of a DDR5 speed (R26). -/
def dclkSelect (mts : Nat) : BitVec 2 := if mts ≤ 4800 then 2 else if mts ≤ 6400 then 1 else 0

/-- START_DRAM_TRAINING: DCLK follows the DDR5 fitted, DEDUCED (log entry 33); a channel that fails to train fences its region. -/
def execStartDramTraining (trained : BitVec 24) (ms : W32) (s : State) : Answer :=
  onDev (guarded (Dev.mayStart 4) (fun d =>
    let d := { d with trained := trained }
    let d := d.onChip fun c => { c with dclkSel := dclkSelect s.board.ddrMts }
    let d := (d.stepEnds 4 ms).onPins fun p => { p with dramResetHigh := true, ceHigh := false }
    let bad := (List.range 8).filter fun r => (List.range 3).any fun c => !trained.getLsbD (r * 3 + c)
    Dev.each bad (fun r => Dev.fenceRegion r 5) d)) s

/-! ## Step 5 (R356, R399, R403) -/

/-- The device root key and key pair are derived. -/
def Dev.deriveKeys (fu : Fuses) (d : Dev) : Dev :=
  let pub := ((p384Scale (Config.devicePrivateKey fu.secret) p384G).map pointBytes).getD []
  d.onKeys fun k => { k with
    root := some (leBytes 32 (Config.deviceRootKey fu.secret fu.deviceId).toNat), privateHeld := true, devPub := pub
    devCert := fu.devCert, lanesKeyed := true, seeded := BitVec.allOnes 8 }

/-- Every control store runs the base microcode, and the patch where there is one. -/
def Dev.loadStores (base patch : W32) (d : Dev) : Dev :=
  let d := Dev.each (List.range 68) (fun c => Dev.onCluster c fun x => { x with
    baseVer := base, patchVer := patch, patched := patch != 0 }) d
  d.onFw fun f => { f with baseVersion := base.toNat, patchVersion := patch.toNat }

/-- Microcode and patch are loaded; none where the tag of the microcode section fails. -/
def Dev.loadMicrocode (fu : Fuses) (nor : Mem) (d : Dev) : Option Dev :=
  let slot := d.fw.slot
  let h := headerBytes nor slot
  match contentKey fu h with
  | none => none
  | some key =>
    if !microcodeTagGood fu nor slot then none
    else
      let base := Config.microcodeVersion (gcmPlain key (slice h 80 12) (sectionBytes nor slot h 1))
      if sectionOf h 2 = (0, 0) then some (d.loadStores base 0)
      else
        let (patch, cause) := Config.patchResult (key ++ sectionBytes nor slot h 2) base
        if cause = 0 then some (d.loadStores base patch)
        else some ((d.loadStores base 0).reportStart 0xD008 [cause, base.toNat, 0, 0, 0])

/-- A row that fails its self-test is retired to a replacement register; a fifth in a bank fails the bank (R160, R161). -/
def Dev.retireRow (b row : Nat) (d : Dev) : Dev :=
  let x := d.bank b
  if x.replaced.contains row || decide (bankEntries b ≤ row) then d
  else if 4 ≤ x.replaced.length then d.failBank b row 1
  else (d.onBank b fun y => { y with replaced := y.replaced ++ [row] }).reportBank b 63 0x5004 [row, x.replaced.length, 0, 0, 0]

/-- Step 5. -/
def microcodeStep (fu : Fuses) (nor : Mem) (failedClusters : BitVec 64) (failedRows : List (BankId × Nat)) (ms : W32) (d : Dev) : Dev :=
  let d := (d.stepEnds 5 ms).deriveKeys fu
  match d.loadMicrocode fu nor with
  | none => (d.unwrapDone 5 0 stIntegrityFailed).startFails
  | some d =>
    let d := d.unwrapDone 5 0 stOk
    let d := Dev.each ((List.range 64).filter failedClusters.getLsbD) Dev.fenceCluster d
    Dev.each failedRows (fun x => Dev.retireRow x.1.val x.2) d

/-- START_MICROCODE_LOAD. -/
def execStartMicrocodeLoad (failedClusters : BitVec 64) (failedRows : List (BankId × Nat)) (ms : W32) (s : State) : Answer :=
  onDev (guarded (Dev.mayStart 5) (microcodeStep s.fuses s.mem.norA failedClusters failedRows ms)) s

end Sys2Proof.Machine
end

