-- ==== Sys2Proof/Machine/Recovery.lean ====
section
/-!
DEFINITION. Machine/Recovery.lean: start-up steps 6 to 10: geometry and keystones, tables, replay, wake patrol, service
(R153, R194, R197, R216, R223 to R226, R281, R356, R392, R426, R434, R461).
-/
namespace Sys2Proof.Machine

/-! ## Step 6 (R194, R197) -/

/-- The copies do not disagree in fmtgen. -/
def RegionMedia.agree (m : RegionMedia) : Bool :=
  match m.copyA, m.copyB with
  | some a, some b => a.fmtgen == b.fmtgen
  | _, _ => true

/-- Keystones of a generation, newest first: the first of them is the valid one (R194). -/
def RegionMedia.valid (fmtgen : Nat) (m : RegionMedia) : List Keystone := m.keystones.filter fun k => k.fmtgen == fmtgen

/-- A region's format is complete in generation `fmtgen`. -/
def RegionMedia.complete (fmtgen : Nat) (m : RegionMedia) : Bool :=
  m.agree && (match m.newest with
    | some g => g.fmtgen == fmtgen
    | none => false) && !(m.valid fmtgen).isEmpty

/-- Geometry copies that are not good, and keystones that fail their check, are as good as absent: a predecessor then stands. -/
def Dev.readCopies (k : KeystoneRead) (r : Nat) : Dev → Dev :=
  Dev.onMedia r fun m => { m with
    copyA := if k.copyAGood then m.copyA else none, copyB := if k.copyBGood then m.copyB else none
    keystones := m.keystones.filter fun x => !k.torn.contains x.kseq }

/-- The newest geometry of the regions that are not fenced. -/
def Dev.newestGeometry (d : Dev) : Option Geometry :=
  d.openRegions.foldl (fun best r => match best, (d.media r).newest with
    | none, o => o
    | some b, some g => if b.fmtgen < g.fmtgen then some g else some b
    | some b, none => some b) none

/-- The valid keystone of each region that has one. -/
def Dev.validKeystones (d : Dev) (fmtgen : Nat) : List Keystone :=
  (List.range 8).filterMap fun r => ((d.media r).valid fmtgen).head?

/-- The geometry comes into force, and the write sequence counter goes on from the highest limit. -/
def Dev.useGeometry (g : Geometry) (d : Dev) : Dev :=
  let top := ((d.validKeystones g.fmtgen).map (·.wsnLimit)).foldl max 0
  let d := d.onStore fun x => { x with geom := some g, nextWsn := top, wsnLimit := top }
  let d := d.onChip fun c => { c with nclkSel := BitVec.ofNat 2 g.nclk }
  Dev.each d.openRegions (fun r d =>
    let k := ((d.media r).valid g.fmtgen).head?.getD {}
    d.onRegion r fun x => { x with kseq := k.kseq }) d

/-- Step 6; an incomplete format leads to the recovery state. -/
def keystoneStep (copies : List KeystoneRead) (ms : W32) (d : Dev) : Dev :=
  let d := (d.stepEnds 6 ms).onPins fun p => { p with wpHigh := true }
  let d := Dev.each d.openRegions (fun r => Dev.readCopies (copies.getD r {}) r) d
  match d.newestGeometry with
  | none => d.enterRecovery 2
  | some g =>
    if d.openRegions.all fun r => (d.media r).complete g.fmtgen then d.useGeometry g else d.enterRecovery 2

/-- START_KEYSTONE_READ. -/
def execStartKeystoneRead (copies : List KeystoneRead) (ms : W32) (s : State) : Answer :=
  onDev (guarded (Dev.mayStart 6) (keystoneStep copies ms)) s

/-! ## Step 7: the tables of a region (R189, R191, R194) -/

/-- The checkpoint of a seal; the empty seal of a first keystone has empty tables (R197). -/
def RegionMedia.checkpoint (m : RegionMedia) (seal_ : Nat) : Checkpoint :=
  ((m.checkpoints.find? fun c => c.addr == seal_).getD {})

/-- The seal that step 7 reads: the one the keystone names, or the one before where that is not good. -/
def Dev.sealRead (d : Dev) (sealsBad : BitVec 8) (r : Nat) : Nat :=
  let k := ((d.media r).valid d.geom.fmtgen).head?.getD {}
  if sealsBad.getLsbD r then k.sealPrev else k.sealAddr

/-- Entries of one table join another. -/
def Tab.join {α : Type} (t u : Tab α) : Tab α := u.foldl (fun t e => t.set e.1 e.2) t

/-- The tables of a region are loaded. -/
def Dev.loadRegion (sealsBad : BitVec 8) (r : Nat) (d : Dev) : Dev :=
  let m := d.media r
  let c := m.checkpoint (d.sealRead sealsBad r)
  let before := if sealsBad.getLsbD r then {} else m.checkpoint ((m.valid d.geom.fmtgen).head?.getD {}).sealPrev
  let d := d.onRegion r fun x => { x with
    chains := c.index.mapVals fun _ t => { t with slots := t.slots.map (Option.map fun e => { e with cached := false }) }, live := c.live, versions := c.versions, ckptGen := c.gen, sealNow := c.gen, sealBefore := before.gen
    chunkAt := c.chunkAt, manifestAt := c.manifestAt, listed := c.stripeList, listedBefore := before.stripeList, replayWsn := c.replayWsn, sealTick := d.chip.tick, loaded := true }
  d.onStore fun x => { x with
    stripes := c.egens.foldl (fun t e => Tab.set t e.1 { egen := e.2 }) x.stripes
    dies := x.dies.join c.dies, blocks := x.blocks.join c.blocks }

/-! ## Step 7: the tables of the chip (R31, R434, R356, R368) -/

/-- Regions by their latest checkpoint. -/
def Dev.latestCheckpoint (d : Dev) (sealsBad : BitVec 8) (r : Nat) : Checkpoint := (d.media r).checkpoint (d.sealRead sealsBad r)

/-- The region whose chip section is taken: highest power-on ms, lowest region on a tie. Its copies of the tables that every
region holds whole are taken too. DEDUCED (log entry 32). -/
def Dev.chipRegion (d : Dev) (sealsBad : BitVec 8) : Nat :=
  (List.range 8).foldl (fun b r =>
    if (d.latestCheckpoint sealsBad b).lifetime.powerOnMs < (d.latestCheckpoint sealsBad r).lifetime.powerOnMs then r else b) 0

/-- A lifetime table: each region's values from its own checkpoint, the chip's from the chip section; `regionOf` gives the
region of a number, 8 for the chip. -/
def joinRegions (regionOf : Nat → Nat) (pick_ : Lifetime → Tab Counter) (chip : Lifetime) (own : Nat → Lifetime) : Tab Counter :=
  let mine (t : Tab Counter) (r : Nat) : Tab Counter := t.filter fun e => min 8 (regionOf e.1) == r
  (List.range 8).foldl (fun t r => Tab.join t (mine (pick_ (own r)) r)) (mine (pick_ chip) 8)

/-- Counts of this start join what was saved. -/
def addCounts (t u : Tab Counter) : Tab Counter := u.foldl (fun t e => Tab.update 0 t e.1 fun c => satAdd c e.2) t

/-- The lifetime counts as loaded, with those counted since the start began. -/
def Lifetime.load (chip : Lifetime) (own : Nat → Lifetime) (now : Lifetime) : Lifetime :=
  { chip with
    pwrfails := satAdd chip.pwrfails now.pwrfails, pulses := satAdd chip.pulses now.pulses
    failsafes := satAdd chip.failsafes now.failsafes, fences := satAdd chip.fences now.fences
    recordsLost := satAdd chip.recordsLost now.recordsLost, times := satAdd chip.times now.times
    dies := addCounts (joinRegions (· / 1024) (·.dies) chip own) now.dies
    ldpc := addCounts (joinRegions (· / 32) (·.ldpc) chip own) now.ldpc
    latency := addCounts chip.latency now.latency
    temperature := addCounts (joinRegions (· / 64) (·.temperature) chip own) now.temperature
    dram := addCounts (joinRegions (· / 480) (·.dram) chip own) now.dram
    falseHits := addCounts (joinRegions (· / 4) (·.falseHits) chip own) now.falseHits
    traps := addCounts (joinRegions (· / 32) (·.traps) chip own) now.traps
    machineChecks := addCounts (joinRegions (· / 32) (·.machineChecks) chip own) now.machineChecks
    linkDowns := addCounts (joinRegions (· / 64) (·.linkDowns) chip own) now.linkDowns }

/-- The counts and clocks of the chip section come into force: the power cycle that began counts as the next one. The ms counted
since the reset join the power-on time of the checkpoint; R31 says only that the count is loaded. DESIGN CHOICE (log entry 38). -/
def Dev.loadLifetime (saved : Lifetime) (own : Nat → Lifetime) (d : Dev) : Dev :=
  let d := (d.onLife (Lifetime.load saved own)).foldLife
  let d := d.onChip fun c => { c with
    statsLoaded := true, powerOnMs := satAdd saved.powerOnMs c.tick, powerCycles := bump saved.powerCycles }
  let wall := if d.wall.known then { d.wall with lastKnown := saved.wall.lastKnown } else { saved.wall with known := false }
  { d with wall := wall, evt := { d.evt with deadPrimary := saved.deadPrimary, deadMirror := saved.deadMirror } }

/-- A slot's limit: the highest of the table and of the keystones, entries of lower generations not counted (R194). -/
def slotLimit (res : List (Nat × W32 × Nat)) (n : Nat) (s : SlotEntry) : SlotEntry :=
  { s with limit := ((res.filter fun e => e.1 == n && decide (s.gen.toNat ≤ e.2.1.toNat)).map fun e => e.2.2).foldl max s.limit }

/-- A slot's keys are unwrapped into the slot store; a key that fails leaves it empty (R356). -/
def Dev.unwrapSlot (n : Nat) (d : Dev) : Dev :=
  let s := d.slot n
  if s.state == .empty then d
  else
    let d := match d.openKey s.owner s.key with
      | some k => (d.unwrapDone 3 n stOk).onKeys fun x => { x with store := x.store.set n k }
      | none => (d.unwrapDone 3 n stIntegrityFailed).onKeys fun x => { x with storeFault := n :: x.storeFault }
    if s.state == .rekeying then match d.openKey s.prevOwner s.prevKey with
      | some k => (d.unwrapDone 3 n stOk).onKeys fun x => { x with prevStore := x.prevStore.set n k }
      | none => d.unwrapDone 3 n stIntegrityFailed
    else d

/-- The token key is unwrapped. -/
def Dev.unwrapToken (d : Dev) : Dev :=
  match (d.keys.root.bind fun root => keyUnwrap root d.geom.tokenWrapped).filter fun k => k.length == 32 with
  | some t => (d.unwrapDone 4 0 stOk).onKeys fun k => { k with tokenKey := some t }
  | none => d.unwrapDone 4 0 stIntegrityFailed

/-- The key-slot table comes into force, and a rekey walk that was cut off starts again (R363). -/
def Dev.loadKeys (t : KeyTable) (d : Dev) : Dev :=
  let res := (d.validKeystones d.geom.fmtgen).flatMap (·.res)
  let slots := Tab.mapVals (slotLimit res) t.slots
  let walking := slots.find? fun e => e.2.state == .rekeying
  let rekey : Rekey := match walking with
    | some e => { slot := e.1, running := true }
    | none => {}
  let d := d.onKeys fun k => { k with table := { t with slots := slots }, rekey := rekey }
  (Dev.each (slots.map Prod.fst) Dev.unwrapSlot d).unwrapToken

/-- Namespaces that were being removed are removed from the start again (R118). -/
def Dev.loadNamespaces (t : Tab Namespace) : Dev → Dev :=
  Dev.onStore fun x => { x with
    namespaces := t
    removals := (t.filter fun e => e.2.state == .removing).map fun e => (e.1, {}) }

/-- The tables that every region holds whole. -/
def Dev.loadChip (sealsBad : BitVec 8) (log : LogReadEnv) (d : Dev) : Dev :=
  let c := d.latestCheckpoint sealsBad (d.chipRegion sealsBad)
  let own (r : Nat) : Lifetime := (d.latestCheckpoint sealsBad r).lifetime
  let d := (d.loadNamespaces c.namespaces).loadLifetime c.lifetime own
  (d.loadKeys c.keys).openLog c.lifetime.nextSeq log

/-- START_INDEX_LOAD: `sealsBad` are the regions whose named seal is not good, `bothBad` those where seal_prev fails too. -/
def execStartIndexLoad (sealsBad bothBad : BitVec 8) (log : LogReadEnv) (ms : W32) (s : State) : Answer :=
  onDev (guarded (Dev.mayStart 7) (fun d =>
    let d := d.stepEnds 7 ms
    let d := Dev.each (d.openRegions.filter bothBad.getLsbD) (fun r => Dev.fenceRegion r 5) d
    (Dev.each d.openRegions (Dev.loadRegion sealsBad) d).loadChip sealsBad log)) s

/-! ## Step 8: what the media holds (R186, R187, R226) -/

/-- A record on the media, by address. -/
abbrev Found := Nat × FlashRec

/-- Records of the current format in the regions that have been loaded. -/
def Dev.scanned (d : Dev) : List Found :=
  d.nv.flash.filter fun e =>
    let r := regionOfAddr e.1
    (d.region r).loaded && !d.fencedRegion r && e.2.fmtgen == d.geom.fmtgen

/-- Every sector is good: all of them were programmed, and an unverified course passes its read-back. -/
def goodRecord (bad : BadRecords) (e : Found) : Bool :=
  decide (e.2.rec_.span ≤ e.2.have_) && (e.2.verified || !bad.contains e.1)

/-- The set of a member record was committed. -/
def memberWhole (good : List Found) (x : Record) : Bool :=
  !x.member || good.any fun e => e.2.rec_.kind == .setCommit && e.2.rec_.setId == x.setId

/-- Every segment of a value is present. -/
def segmentsWhole (good : List Found) (x : Record) : Bool :=
  decide (x.segCount ≤ 1) || (List.range x.segCount).all fun i => good.any fun e =>
    e.2.rec_.kind == .value && e.2.rec_.ns == x.ns && e.2.rec_.key == x.key && e.2.rec_.version == x.version && e.2.rec_.segIndex == i

/-- A value record or tombstone that a reader takes (R187). -/
def usable (good : List Found) (e : Found) : Bool :=
  (e.2.rec_.kind == .value || e.2.rec_.kind == .tombstone) && memberWhole good e.2.rec_ && segmentsWhole good e.2.rec_

/-- The record lies where replay looks: in a stripe of the seal's list, at or above replay_wsn (R223 step 4). -/
def Dev.replayed (d : Dev) (e : Found) : Bool :=
  let x := d.region (regionOfAddr e.1)
  decide (x.replayWsn ≤ e.2.rec_.wsn) && x.listed.contains (stripeOf e.1)

/-- Some index entry names an address. -/
def Dev.indexNames (d : Dev) (a : Nat) : Bool :=
  (d.region (regionOfAddr a)).chains.any fun c => (c.2.slotOf a).isSome

/-! ## Step 8: the index (R225, R226) -/

/-- Fingerprint of a record's entry. -/
def Dev.recordFp (d : Dev) (x : Record) : Nat := d.segFp x.ns x.key x.segIndex

/-- The entry that stands for a record's key and segment: its slot. -/
def Dev.entryFor (d : Dev) (r : Nat) (x : Record) : Option (Nat × IndexEntry) :=
  let f := d.recordFp x
  let c := d.chainOf r f
  let same (e : IndexEntry) : Bool := e.fp == f && e.segment == (x.segIndex != 0) && match d.nv.flash.get? e.addr with
    | some y => y.rec_.ns == x.ns && y.rec_.key == x.key && y.rec_.segIndex == x.segIndex
    | none => true
  (List.range c.all.length).findSome? fun i => match c.all.getD i none with
    | some e => if same e then some (i, e) else none
    | none => none

/-- Sectors of the record at an address, whether or not all of them are there. -/
def Dev.mediaSpan (d : Dev) (a : Nat) : Nat := ((d.nv.flash.get? a).map fun e => e.rec_.span).getD 0

/-- An entry leaves with its live bit and usage. -/
def Dev.removeEntry (r slot : Nat) (ns : W16) (e : IndexEntry) (d : Dev) : Dev :=
  let n := d.mediaSpan e.addr
  ((d.clearEntry r e.fp slot).clearLive e.addr).onNs ns.toNat fun x => { x with
    usage := x.usage - n * 4096, liveKeys := if e.segment then x.liveKeys else x.liveKeys - 1 }

/-- Home region of a record from the region it lies in. -/
def homeOfRecord (a : Nat) (x : Record) : Nat := (regionOfAddr a + 64 - x.segIndex) % 8

/-- Segment entries of the key from `from_` on leave. -/
def Dev.trimSegments (home from_ : Nat) (x : Record) (d : Dev) : Dev :=
  Dev.each ((List.range 64).drop (max 1 from_)) (fun i d =>
    let y := { x with segIndex := i }
    match d.entryFor ((home + i) % 8) y with
    | some (slot, e) => if e.version < x.version then d.removeEntry ((home + i) % 8) slot x.ns e else d
    | none => d) d

/-- Is a record newer than the entry that stands for its key? -/
def Dev.newerThan (d : Dev) (x : Record) (e : IndexEntry) : Bool :=
  let w := ((d.nv.flash.get? e.addr).map fun y => y.rec_.wsn).getD 0
  decide (e.version < x.version) || (e.version == x.version && decide (w < x.wsn))

/-- A value record takes the place of its key's entry. -/
def Dev.enterRecord (a : Nat) (x : Record) (d : Dev) : Dev :=
  let r := regionOfAddr a
  let home := homeOfRecord a x
  let e : IndexEntry := { fp := d.recordFp x, addr := a, lclass := lclassOf x.span, segmented := x.segIndex == 0 && decide (1 < x.segCount),
                          segment := x.segIndex != 0, version := x.version }
  let old := d.entryFor r x
  let d := match old with
    | some (slot, o) => (d.putEntry r slot none e).clearLive o.addr
    | none => (d.insertEntry r e).getD d
  let n := match old with
    | some (_, o) => d.mediaSpan o.addr
    | none => 0
  let d := (d.setLive a).onNs x.ns.toNat fun y => { y with
    usage := y.usage - n * 4096 + x.span * 4096, liveKeys := if old.isSome || x.segIndex != 0 then y.liveKeys else y.liveKeys + 1 }
  if x.segIndex = 0 then d.trimSegments home x.segCount x else d

/-- A tombstone removes its key's entries. -/
def Dev.enterTombstone (a : Nat) (x : Record) (d : Dev) : Dev :=
  let r := regionOfAddr a
  let d := match d.entryFor r x with
    | some (slot, e) => d.removeEntry r slot x.ns e
    | none => d
  d.trimSegments r 1 x

/-- A good tombstone of the record's key is newer: a copy of a deleted version does not bring the key back (R187). -/
def deletedSince (good : List Found) (x : Record) : Bool :=
  good.any fun e => e.2.rec_.kind == .tombstone && e.2.rec_.ns == x.ns && e.2.rec_.key == x.key &&
    decide (x.version < e.2.rec_.version) && usable good e

/-- One record is replayed (R225). -/
def Dev.replayRecord (good : List Found) (e : Found) (d : Dev) : Dev :=
  let x := e.2.rec_
  if (d.ns x.ns.toNat).state == .free then d
  else
    let newer := match d.entryFor (regionOfAddr e.1) x with
      | some (_, o) => d.newerThan x o
      | none => !deletedSince good x
    let d := d.raiseVersion (homeOfRecord e.1 x) x.ns.toNat x.version
    if !newer then d else if x.kind == .tombstone then d.enterTombstone e.1 x else d.enterRecord e.1 x

/-- The newest record of the same key among `good`: highest version, then highest sequence number. -/
def newestOf (good : List Found) (p : Found → Bool) : Option Found :=
  (good.filter p).foldl (fun best e => match best with
    | none => some e
    | some b => if b.2.rec_.version < e.2.rec_.version ∨ (b.2.rec_.version = e.2.rec_.version ∧ b.2.rec_.wsn < e.2.rec_.wsn)
      then some e else some b) none

/-- An entry whose record is lost gives way to the key's newest good record (R226). -/
def Dev.repairEntry (good : List Found) (r : Nat) (e : IndexEntry) (d : Dev) : Dev :=
  let ns : W16 := BitVec.ofNat 16 (fpNs e.fp)
  match (d.chainOf r e.fp).slotOf e.addr with
  | none => d
  | some slot =>
    let d' := d.removeEntry r slot ns e
    let mine (x : Found) : Bool :=
      regionOfAddr x.1 == r && usable good x && d.recordFp x.2.rec_ == e.fp && (x.2.rec_.segIndex != 0) == e.segment
    match newestOf good mine with
    | some x => if x.2.rec_.kind == .value then d'.enterRecord x.1 x.2.rec_ else d'
    | none => d'

/-- A record that has been lost: recorded and counted (0x6006, cause 2). -/
def Dev.recordLost (e : Found) (d : Dev) : Dev :=
  let r := regionOfAddr e.1
  let x := e.2.rec_
  let keyed := x.kind == .value || x.kind == .tombstone
  let d := d.onRegion r fun y => { y with uncorr := satAdd y.uncorr x.span }
  (d.reportRegion r 0x6006 [addr64 e.1, x.ns.toNat, if keyed then d.recordFp x else 0, 2, 0]).onNv fun n => { n with flash := n.flash.erase e.1 }

/-- Sets whose commit record is absent (0x6009). -/
def Dev.discardedSets (d : Dev) (good : List Found) : Dev :=
  let orphans := good.filter fun e => d.replayed e && !memberWhole good e.2.rec_
  Dev.each (orphans.map fun e => (regionOfAddr e.1, e.2.rec_.setId)).eraseDups (fun s d =>
    d.reportRegion s.1 0x6009 [s.2, (orphans.filter fun e => e.2.rec_.setId == s.2).length, 0, 0, 0]) d

/-! ## Step 8: stripes and the final seal (R204, R212, R223 steps 6 and 7, R226) -/

/-- A stripe as its records show it. -/
def Dev.foundStripe (d : Dev) (s : Nat) (recs : List Found) : Stripe :=
  let egen := (recs.map fun e => e.2.rec_.egen).foldl max (d.stripe s).egen
  let st : Stripe := { state := .verified, egen := egen, kept := recs.any fun e => e.2.rec_.kept, present := d.presentFor s egen }
  { st with written := (recs.map fun e => st.placeOf d.geom e.1 + e.2.rec_.span).foldl max 0 }

/-- Stripes that can have fewer than 12 present members: those with a block out, and all of a region with few channels. -/
def Dev.thinStripes (d : Dev) : List Nat :=
  let few (r : Nat) : Bool := decide (((List.range 16).filter (d.geom.populated r)).length < 12)
  (((d.store.blocks.filter fun b => b.2.state != 0).map fun b => stripeOfBlock b.1) ++
    (d.openRegions.filter few).flatMap d.geom.stripes).eraseDups

/-- Stripe states: VERIFIED where records lie, RETIRED with too few members, else FREE. -/
def Dev.deriveStripes (good : List Found) (d : Dev) : Dev :=
  let held := (good.map fun e => stripeOf e.1).eraseDups
  let d := Dev.each held (fun s d => d.onStripe s fun _ => d.foundStripe s (good.filter fun e => stripeOf e.1 == s)) d
  let short := d.thinStripes.filter fun s => !held.contains s && decide ((channelsOf (d.membersNext s)).length < 12)
  Dev.each short (fun s => Dev.onStripe s fun x => { x with state := .retired }) d

/-- A block of the geometry whose contents show a failure that the block table did not: `erase` tells which (R225, state 1 or 2). -/
def Dev.blockFound (b : Nat) (erase : Bool) (d : Dev) : Dev :=
  let s := stripeOfBlock b
  let c := dieChannel (b / 262144)
  let known := d.geom.populated (stripeRegion s) c && !d.fencedRegion (stripeRegion s) && (d.geom.stripes (stripeRegion s)).contains s
  d.when known (Dev.retireBlock s c (if erase then 2 else 1) (if erase then (d.stripe s).egen - 1 else (d.stripe s).egen))

/-- A course is programmed and verified at once. -/
def Dev.runCourse (k : Nat) (x : Course) (d : Dev) : Dev :=
  ((Dev.each (channelsOf (d.stripe x.stripe).present) (Dev.programUnit x.stripe x.page) d).courseProgrammed k x).verifyCourse k x

/-- Everything that the metadata front has placed is programmed and verified. -/
def Dev.runMetadata (r : Nat) (d : Dev) : Dev :=
  Dev.each (d.store.courses.filter fun c => c.1 / 2 ^ 40 == frontOf r 3 true) (fun e => Dev.runCourse e.1 e.2) d

/-- A stripe is erased and opened for the metadata front. -/
def Dev.openMetadata (r s : Nat) (d : Dev) : Dev :=
  let d := if (d.stripe s).erased then d
    else
      let d := d.onStripe s fun x => { x with egen := x.egen + 1 }
      Dev.each (channelsOf (d.presentFor s (d.stripe s).egen)) (fun c => Dev.eraseBlock s c) d
  d.takeStripe (frontOf r 3 true) s

/-- A stripe can be erased now: its next generation is no multiple of 4,096, before which a seal would have to be durable (R138). -/
def Dev.erasableNow (d : Dev) (s : Nat) : Bool := (d.stripe s).erased || (d.stripe s).egen % 4096 != 4095

/-- The chunks, manifests and seal of region `r` are written; from stripe to stripe, `n` of them at most. -/
def Dev.sealThrough (r : Nat) : Nat → Dev → Option Checkpoint × Dev
  | 0, d => (none, d)
  | n + 1, d =>
    match d.bestStripe (frontOf r 3 true) d.erasableNow with
    | none => (none, d)
    | some s =>
      match (d.openMetadata r s).writeSeal r with
      | (some c, d) => (some c, d)
      | (none, d) => sealThrough r n ((d.padStripe (frontOf r 3 true)).runMetadata r)

/-- A checkpoint is sealed and becomes durable at once, and its keystone is written (R223 step 7, R197). Where no eligible stripe
can be erased now the keystone is written alone. DESIGN CHOICE (log entry 21). -/
def Dev.sealNow (fate : KeystoneFate) (r : Nat) (d : Dev) : Dev :=
  match d.sealThrough r (d.eligible r).length with
  | (none, d) => d.writeKeystone fate r
  | (some c, d) =>
    let d := (d.padCourses (frontOf r 3 true) 4).runMetadata r
    (d.onRegion r fun x => { x with sinceSeal := 0, sealTick := d.chip.tick }).nameSeal fate r c

/-- The write state of a region follows its dies (R212). -/
def Dev.deriveWriteState (r : Nat) (d : Dev) : Dev :=
  let x := d.region r
  let n := d.diesOut r
  let ro := max 1 x.roDies.toNat
  let ex := max ro x.exDies.toNat
  d.onRegion r fun y => { y with writeState := if ex ≤ n then 2 else if ro ≤ n then 1 else 0 }

/-! ## Step 8: the power cycle before (R461) -/

/-- Records of a power cycle that the log holds. -/
def Dev.cycleRecords (d : Dev) (cycle : Nat) : List EventRec :=
  (d.nv.log.foundation ++ d.mediaRecords).filter fun e => e.cycle == cycle

/-- 0x100A where the power cycle before left traces and neither a flush nor the fail-safe state. -/
def Dev.checkPowerLoss (applied : List Found) (d : Dev) : Dev :=
  let prev := min (d.chip.powerCycles - 1) 1048575
  let log := d.cycleRecords prev
  let seen := applied.any fun e => e.2.rec_.stampCycle == prev
  let closed := log.any fun e => e.code == 0x1008 || e.code == 0x1001
  if prev = 0 ∨ (log.isEmpty = true ∧ seen = false) ∨ closed = true then d
  else
    let last := if log.isEmpty then 2 ^ 64 - 1 else (log.map (·.seq)).foldl max 0
    d.report 8 0 0 0x100A [prev, last, (applied.map fun e => e.2.rec_.wsn).foldl max 0, 0, 0]

/-- A region that the power cycle before fenced, as the log tells, has rejoined (R17, 0x1009). DEDUCED (log entry 35). -/
def Dev.reportRejoined (d : Dev) : Dev :=
  let prev := min (d.chip.powerCycles - 1) 1048575
  let was := ((d.cycleRecords prev).filter fun e => e.code == 0x1002).map fun e => e.params.headD 8
  if prev = 0 then d else Dev.each (d.openRegions.filter was.contains) (fun r d => d.report 8 0 0 0x1009 [r, 0, 0, 0, 0]) d

/-! ## Step 8 -/

/-- Replay (R225, R226), with what the media gives to it. -/
def replayStep (x : ReplayRead) (d : Dev) : Dev :=
  let all := d.scanned
  let good := all.filter (goodRecord x.bad)
  let lost := all.filter fun e => !goodRecord x.bad e && (d.replayed e || d.indexNames e.1)
  let applied := good.filter fun e => d.replayed e && usable good e
  let order : Tab Found := applied.foldl (fun t e => Tab.set t e.2.rec_.wsn e) []
  let goodAt (a : Nat) : Bool := good.any fun e => e.1 == a
  let dead := d.openRegions.flatMap fun r => ((d.region r).chains.flatMap fun c => c.2.all.filterMap id).filterMap fun e =>
    if goodAt e.addr then none else some (r, e)
  let d := d.discardedSets good
  let d := Dev.each dead (fun x => Dev.repairEntry good x.1 x.2) d
  let d := Dev.each (order.map Prod.snd) (Dev.replayRecord good) d
  let d := Dev.each lost Dev.recordLost d
  let d := d.onNv fun n => { n with flash := Tab.mapVals (fun a y => if goodAt a then { y with verified := true } else y) n.flash }
  let d := Dev.each x.failedBlocks (fun b => Dev.blockFound b.1 b.2) (d.deriveStripes good)
  let d := Dev.each d.openRegions (fun r d => (d.deriveWriteState r).sealNow (x.keystones.getD r .good) r) d
  d.reportRejoined.checkPowerLoss applied

/-- START_REPLAY. -/
def execStartReplay (found : ReplayRead) (ms : W32) (s : State) : Answer :=
  onDev (guarded (Dev.mayStart 8) (fun d => replayStep found (d.stepEnds 8 ms))) s

/-! ## Step 9 (R216) -/

/-- A patrol interval begins, and a region schedules its wake patrol, unless a TIME has shown a short off time. -/
def Dev.scheduleWake (r : Nat) (d : Dev) : Dev :=
  let d := d.onRegion r fun y => { y with patrolled := [], patrolStart := d.chip.powerOnMs }
  let x := d.region r
  if x.offTime < x.wakeDays.toNat * 86400 then d
  else
    let order : Tab (List Nat) := (d.patrolled r).foldl (fun t s => t.update [] (d.oldestOn s) fun l => l ++ [s]) []
    let left := (order.map Prod.snd).flatten
    let d := d.onRegion r fun y => { y with wake := !left.isEmpty, wakeLeft := left }
    let d := d.reportRegion r 0x600A [1, x.offTime, 0, 0, 0]
    if left.isEmpty then d.reportRegion r 0x600A [3, x.offTime, 0, 0, 0] else d

/-- START_WAKE_PATROL_SCHEDULING. -/
def execStartWakePatrolScheduling (ms : W32) (s : State) : Answer :=
  onDev (guarded (Dev.mayStart 9) (fun d => Dev.each d.openRegions Dev.scheduleWake (d.stepEnds 9 ms))) s

/-! ## Step 10 (R153, R281, R395) -/

/-- A classification rule of settings goes to bank 3 of the regions of its mask. -/
def Dev.loadRule (i : Nat) (e : SettingsEntry) (d : Dev) : Dev :=
  let row := leAt e.value 2 2
  let b := slice e.value 4 64
  if 2048 ≤ row ∨ e.value.length < 68 ∨ leAt b 0 20 &&& leAt b 20 20 ≠ leAt b 0 20 then d.skipEntry 2 i
  else Dev.each ((List.range 8).filter fun r => bit (leAt e.value 0 1) r) (fun r => Dev.onBank (r * 4 + 3) fun y =>
    { y.written row with rows := y.rows.set row (ClassRow.ofBlock b) }) d

/-- The Ethernet addresses of the discovery groups of R308. -/
def discoveryGroups : List (BitVec 48) :=
  [BitVec.ofNat 48 (leNat [0x01, 0x00, 0x5E, 0x40, 0x60, 0x28]), BitVec.ofNat 48 (leNat [0x33, 0x33, 0x00, 0x01, 0x96, 0x40])]

/-- The hash bit of a group address is set (R269, R271). -/
def Mac.joinGroup (c : Mac) (a : BitVec 48) : Mac :=
  { c with mcHash := c.mcHash.update 0 (groupHash a / 32) fun w => setBit w (groupHash a % 32) true }

/-- Every data MAC hears the announcements of partners. -/
def Dev.joinDiscovery (d : Dev) : Dev :=
  Dev.each (List.range 64) (fun m => Dev.onMac m fun c => discoveryGroups.foldl Mac.joinGroup c) d

/-- Service opens: classification rules, settings of step 10, discovery groups, port groups, PF0 fetching. -/
def Dev.openService (fu : Fuses) (m : Memories) (d : Dev) : Dev :=
  let rules := ((List.range d.fw.entries.length).zip d.fw.entries).filter fun e => e.2.kind == 2
  let d := Dev.each rules (fun e => Dev.loadRule e.1 e.2) d
  let d := (d.applyRegisters fu m 10).joinDiscovery
  (d.onChip fun c => { c with state := 1, step := 0 }).pumpAll

/-- The start ends: what R382 keeps of it, and 0xD001. -/
def Dev.serviceOpened (d : Dev) : Dev :=
  let step (k : Nat) : Nat := (d.fw.stepMs.get 0 k).toNat
  let total := ((List.range 10).map fun k => step (k + 1)).sum
  (d.onNv fun n => { n with lastSteps := d.fw.stepMs }).reportStart 0xD001 [total, d.fw.slot, d.fw.image.version, step 7, step 8]

/-- START_SERVICE_OPEN: a trial with a region fenced or a cluster that failed its self-test fails here (R392). -/
def execStartServiceOpen (ms : W32) (s : State) : Answer :=
  onDev (guarded (Dev.mayStart 10) (fun d =>
    let d := d.stepEnds 10 ms
    if d.fw.onTrial && (d.chip.fenced != 0 || (List.range 64).any fun c => (d.cluster c).fenced) then d.failTrial 3
    else (d.openService s.fuses s.mem).serviceOpened)) s

end Sys2Proof.Machine
end

