-- ==== Sys2Proof/Machine/Format.lean ====
section
/-!
DEFINITION. Machine/Format.lean: FMT: its checks, and what it does once the coaches that run have ended (R173, R174, R193 to
R201, R211, R421, R424, R459).
-/
namespace Sys2Proof.Machine

/-! ## The format descriptor (R199) -/

/-- A format descriptor with the density that FMT names. -/
structure FormatAsk where
  bpc : Nat
  expect : Nat
  k : Nat
  nclk : Nat
  overflow : Nat
  pbufMib : Nat
  permille : Nat
  erase : Bool

/-- The descriptor at ga, with imm[2:0]; none where it is not present, a field is outside its legal values or a reserved byte is
not zero. -/
def Coach.formatAsk (c : Coach) (w : Fields) : Option FormatAsk :=
  let off := c.run.num w.a
  if !inArea c.inbound off 64 then none
  else
    let b := slice c.inbound off 64
    let x : FormatAsk :=
      { bpc := w.imm % 8, expect := leAt b 0 2, k := leAt b 2 1, nclk := leAt b 3 1, overflow := leAt b 4 4, pbufMib := leAt b 8 4
        permille := leAt b 12 2, erase := bit (leAt b 14 1) 0 }
    let ok := decide (10 ≤ x.k ∧ x.k ≤ 30) && decide (x.nclk ≤ 3) &&
      decide (x.overflow % 1024 = 0 ∧ 2 ^ x.k ≤ 16 * x.overflow ∧ x.overflow ≤ 2 ^ x.k ∧ 2 ^ x.k + x.overflow ≤ 2 ^ 31) &&
      (x.pbufMib == 0 || decide (1024 ≤ x.pbufMib ∧ x.pbufMib ≤ 16384 ∧ x.pbufMib % 1024 = 0)) &&
      (x.permille == 0 || decide (5 ≤ x.permille ∧ x.permille ≤ 100)) && decide (leAt b 14 1 < 2) && zeroRange b 15 49
    if ok then some x else none

/-! ## Checks of R200 -/

/-- Check 1: the mode is 1 to 4 bits per cell, every die advertises it, and every die reports the same geometry (R198). -/
def Board.modeLegal (bd : Board) (bpc : Nat) : Bool :=
  decide (1 ≤ bpc ∧ bpc ≤ 4) && bd.bpcs.contains bpc && bd.sameGeometry

/-- Code size for a spare area: the largest mb whose spare fits; 0 when none does (R174). -/
def codeSize (spare : Nat) : Nat :=
  if 512 ≤ spare then 15 else if 480 ≤ spare then 14 else if 416 ≤ spare then 12 else if 352 ≤ spare then 10 else 0

/-- The current format generation: that of the newest good geometry record, 0 with none. -/
def Dev.currentFmtgen (d : Dev) : Nat := (d.nv.newest.map (·.fmtgen)).getD 0

/-- Bits per cell of the log blocks after this format (R421). -/
def Dev.logMode (d : Dev) (bpc : Nat) : Nat := if d.nv.log.assigned then d.nv.log.bpc else bpc

/-- Check 4: the geometry limits of R173, and log blocks of at least 320 sectors (R421). -/
def Board.geometryLegal (bd : Board) (bpc logMode : Nat) : Bool :=
  let spp := bd.pageSize / 4096
  let small (n : Nat) : Bool := decide (1 ≤ n ∧ n ≤ 4)
  decide (bd.pageSize % 4096 = 0 ∧ 1 ≤ spp ∧ spp ≤ 16 ∧ 1 ≤ bpc * spp ∧ bpc * spp ≤ 16) && codeSize bd.sparePer4k != 0 &&
    decide (64 ≤ bd.ppb ∧ bd.ppb ≤ 4096 ∧ 64 ≤ bd.bpp ∧ bd.bpp ≤ 65536) && small bd.planes && small bd.ces && small bd.luns &&
    bd.factoryBad.all (fun b => b % 262144 != 0) && decide (320 ≤ bd.ppb * logMode * spp)

/-- The geometry that a format asks for, before what FMT draws. -/
def Board.geometry (bd : Board) (x : FormatAsk) (logMode : Nat) : Geometry :=
  { bpc := x.bpc, spg := x.bpc * (bd.pageSize / 4096), chanMask := bd.channels, mb := codeSize bd.sparePer4k, planes := bd.planes
    ces := bd.ces, luns := bd.luns, pageSize := bd.pageSize, spareSize := bd.sparePer4k * (bd.pageSize / 4096), ppb := bd.ppb
    bpp := bd.bpp, k := x.k, nclk := x.nclk, overflow := x.overflow, pbufMib := if x.pbufMib = 0 then 4096 else x.pbufMib
    logBpc := logMode, spare := if x.permille = 0 then 20 else x.permille }

/-- DRAM that the tables of every region, the protected buffer and the window pool take (R459). -/
def Geometry.dramNeed (g : Geometry) (windowGiB : Nat) : Nat :=
  let fixed := 16 * 2 ^ 20 + 4 * 2 ^ 20 + (4096 + 16 * 1024 * 65536) + 32768 + 525312 + 524288
  ((List.range 8).map fun r => (2 ^ g.k + g.overflow) * 128 + g.liveMapBytes r + fixed).sum + g.pbufMib * 2 ^ 20 +
    windowGiB * 2 ^ 30

/-- DRAM of the channels that trained, in bytes. -/
def Dev.installedDram (bd : Board) (d : Dev) : Nat :=
  ((List.range 24).map fun c => if d.trained.getLsbD c then bd.dramGiB.getD c 0 else 0).sum * 2 ^ 30

/-- Check 6: a format runs, a migration stream is open, or a region is fenced. -/
def Dev.formatBusy (d : Dev) : Bool := d.store.fmtRunning || d.net.streams.any (·.2.isOpen) || d.chip.fenced != 0

/-- The populated dies of region `r`. -/
def Geometry.dies (g : Geometry) (r : Nat) : List Nat :=
  ((List.range 16).filter (g.populated r)).flatMap fun c => (List.range g.ces).flatMap fun ce =>
    (List.range g.luns).map fun lun => r * 256 + c * 16 + ce * 4 + lun

/-- A block of plane 0 of a die, as the block table numbers it. -/
def planeZero (die block : Nat) : Nat := die * 262144 + block

/-- Block 0 of plane 0 of every die shows no failure: it is good, a system block, or good on a die that is out of service (R173, R211;
the last is DEDUCED, log entry 23). -/
def Dev.rootBlocksGood (g : Geometry) (d : Dev) : Bool :=
  (List.range 8).all fun r => (g.dies r).all fun die => [0, 5, 6].contains (d.blockEntry (planeZero die 0)).state

/-- The checks of R200 in order: the status of the first that fails, or the format to make. -/
def Dev.formatCheck (bd : Board) (c : Coach) (w : Fields) (d : Dev) : Except Byte (FormatAsk × Geometry) :=
  if !bd.modeLegal (w.imm % 8) then .error stIllegalValue
  else match c.formatAsk w with
    | none => .error stIllegalValue
    | some x =>
      let mode := d.logMode x.bpc
      let g := bd.geometry x mode
      if x.expect ≠ d.currentFmtgen then .error stIllegalValue
      else if !bd.geometryLegal x.bpc mode || !d.rootBlocksGood g then .error stIllegalValue
      else if d.installedDram bd < g.dramNeed d.pcie.windowGiB + 16 * 2 ^ 30 then .error stIllegalValue
      else if d.formatBusy then .error stBusy
      else .ok (x, g)

/-- Every region is in a phase of MEDIA_FMT. -/
def Dev.setPhase (n : Nat) (d : Dev) : Dev :=
  Dev.each (List.range 8) (fun r => Dev.onRegion r fun x => { x with fmtPhase := BitVec.ofNat 3 n }) d

/-- The coaches that run now. -/
def Dev.runningCoaches (d : Dev) : List Nat := (d.eng.coaches.filter fun e => e.2.stage == .running).map Prod.fst

/-- FMT is accepted: data service closes, and the format waits for the coaches that run (R201 steps 1 and 2). -/
def fmtEffect (bd : Board) (i : Nat) (c : Coach) (w : Fields) (d : Dev) : Dev :=
  match d.formatCheck bd c w with
  | .error st => d.fail i st
  | .ok (x, g) =>
    let d := d.onStore fun y => { y with fmtRunning := true, fmtAsk := g, fmtErase := x.erase, fmtWaits := d.runningCoaches }
    (d.setPhase 1).endWith i stOk id

/-- FMT. -/
def execFmt (ctx : CtxId) (s : State) : Answer := runActing ctx 0x46 (fmtEffect s.board) s

/-! ## The block table is carried forward (R201 step 4, R211, R233) -/

/-- Read counts are set to zero; a retired block is absent from every content of the new format (log entry 23). -/
def Dev.carryBlocks (bd : Board) (d : Dev) : Dev :=
  let d := d.onStore fun x => { x with blocks := x.blocks.mapVals fun _ b => { b with reads := 0, retireEgen := 0 } }
  Dev.each bd.factoryBad (fun b => Dev.onBlock b fun e => if e.state = 0 then { e with state := 4 } else e) d

/-- Each die's spare budget is fixed (R211). -/
def Dev.setBudgets (g : Geometry) (d : Dev) : Dev :=
  let budget := ceilDiv (g.planes * g.bpp * g.spare) 1000
  let dies := (List.range 8).flatMap g.dies
  d.onStore fun x => { x with dies := dies.foldl (fun t i => Tab.update {} t i fun e => { e with budget := budget }) x.dies }

/-- The block of a die and plane 0 can be used: good, or a system block of the format before. -/
def Dev.fitBlock (d : Dev) (die block : Nat) : Bool :=
  let s := (d.blockEntry (planeZero die block)).state
  s == 0 || s == 5

/-- A system block (state 5). -/
def Dev.systemBlock (die block : Nat) : Dev → Dev := Dev.onBlock (planeZero die block) fun e => { e with state := 5, retireEgen := 0 }

/-- Address of a block of plane 0. -/
def blockAddr (die block : Nat) : Nat := mkAddr (die / 256 * 2 ^ 22 + die % 16 * 262144 + block) (dieChannel die) 0 0

/-- The keystone block of a die: block 1, or the next good one upward (R193). -/
def Dev.keystoneBlock (g : Geometry) (die : Nat) (d : Dev) : Nat :=
  (((List.range g.bpp).drop 1).find? (d.fitBlock die)).getD 1

/-- The 16 log blocks of region `r`: lowest good blocks of plane 0 from block 1 upward, on channel 4 and on from there (R421). -/
def Dev.logBlocksOf (g : Geometry) (r : Nat) (d : Dev) : List (Nat × Nat) :=
  (((List.range 16).drop 4).flatMap fun c =>
    let die := r * 256 + c * 16
    (((List.range g.bpp).drop 1).filter fun b => g.populated r c && (d.blockEntry (planeZero die b)).state == 0).map fun b => (die, b)).take 16

/-- The log entries are chosen by the first format of the device (R421). -/
def Dev.assignLog (g : Geometry) (d : Dev) : Geometry × Dev :=
  if d.nv.log.assigned then ({ g with logBlocks := (d.nv.newest.map (·.logBlocks)).getD [] }, d)
  else
    let own := (List.range 8).map fun r => d.logBlocksOf g r
    let at_ (r i : Nat) : Nat := match (own.getD r [])[i]? with
      | some p => addr64 (blockAddr p.1 p.2)
      | none => 0
    let blocks := (List.range 64).map fun e => (at_ (e % 8) (e / 8), at_ ((e + 4) % 8) (8 + e / 8))
    let d := Dev.each own.flatten (fun p => Dev.systemBlock p.1 p.2) d
    let d := d.onNv fun n => { n with log := { n.log with assigned := true, bpc := g.logBpc, entries := [(1, {})] } }
    ({ g with logBlocks := blocks }, d.onEvt fun v => { v with entry := 1 })

/-! ## Clearing (R201 steps 3 and 4) -/

/-- The protected buffer is discarded and the tables in DRAM are cleared, the block table excepted. -/
def Dev.clearTables (d : Dev) : Dev :=
  let clear (_ : Nat) (x : Region) : Region :=
    { x with chains := [], live := [], cache := [], versions := [], wake := false, wakeLeft := [], patrolled := [], patrolStart := 0, chunkAt := [], manifestAt := []
             keystoneSingle := false, ckptGen := 0, sinceSeal := 0, sealing := none, listed := [], listedBefore := [], sealNow := 0
             sealBefore := 0, replayWsn := 0, kseq := 0, reserved := [], loaded := true }
  let d := d.onStore fun x => { x with
    regions := Tab.mapVals clear ((List.range 8).map fun r => (r, x.regions.get {} r))
    namespaces := [], nsChanges := [], nsBefore := [], removals := [], dir := [], buf := [], stripes := [], fronts := [], courses := [], padRuns := [], moves := [], toCopy := [], queues := [] }
  let d := d.onKeys fun k => { k with
    table := {}, store := [], prevStore := [], storeFault := [], blocks := [], tokenKey := none, rekey := {} }
  { d with life := {} }.foldLife

/-- Every good block but the log blocks is erased: on request, or when fmtgen wraps. -/
def Dev.eraseAll (g : Geometry) (d : Dev) : Dev :=
  let logs := g.logBlocks.flatMap fun p => [p.1, p.2]
  let isLog (s c : Nat) : Bool := logs.contains (addr64 (mkAddr s c 0 0))
  Dev.each ((List.range 8).flatMap g.stripes) (fun s d =>
    Dev.each ((List.range 16).filter fun c => g.populated (stripeRegion s) c && !isLog s c) (fun c d =>
      let b := (d.blockEntry (blockKey s c)).state
      if b == 0 || b == 5 then d.eraseBlock s c else d) d) d

/-! ## What R197 writes -/

/-- The generation that follows. -/
def nextFmtgen (n : Nat) : Nat := if 65535 ≤ n then 1 else n + 1

/-- The seeds and the token key are drawn; T is kept wrapped under the device root key (R120, R134). -/
def Dev.drawSeeds (g : Geometry) (d : Dev) : Geometry × Dev :=
  let (a, d) := d.draw
  let (t, d) := d.draw
  let seeds := leBytes 32 a.toNat
  let token := leBytes 32 t.toNat
  let wrapped := (d.keys.root.map fun root => keyWrap root token).getD []
  ({ g with s1 := seeds.take 16, s2 := seeds.drop 16, tokenWrapped := wrapped },
    d.onKeys fun k => { k with tokenKey := if k.root.isSome then some token else none })

/-- A block of plane 0 is erased. -/
def Dev.eraseZero (die block : Nat) (d : Dev) : Dev := d.eraseBlock (stripeOf (blockAddr die block)) (dieChannel die)

/-- A region's geometry copies are erased and written; each fills a page group. -/
def Dev.writeGeometry (g : Geometry) (r : Nat) (d : Dev) : Dev :=
  let dieA := r * 256 + 32
  let dieB := r * 256 + 48
  let a := d.keystoneBlock g dieA
  let b := d.keystoneBlock g dieB
  let own := { g with keystoneA := addr64 (blockAddr dieA a), keystoneB := addr64 (blockAddr dieB b) }
  let d := (((d.systemBlock (r * 256) 0).systemBlock (r * 256 + 16) 0).systemBlock dieA a).systemBlock dieB b
  let d := (d.eraseZero (r * 256) 0).eraseZero (r * 256 + 16) 0
  (d.onMedia r fun _ => { copyA := some own, copyB := some own, geomWsn := (d.store.nextWsn, d.store.nextWsn + g.spg) }).takeWsn
    (2 * g.spg)

/-- Both keystone blocks of a region are erased. -/
def Dev.clearKeystones (r : Nat) (d : Dev) : Dev := (d.eraseKeystones r 0).eraseKeystones r 1

/-- The first keystone of a region, which names an empty seal. -/
def Dev.firstKeystone (g : Geometry) (r : Nat) (d : Dev) : Dev :=
  let fate := d.keystoneFate r
  (d.onRegion r fun x => { x with kseq := 1 }).putKeystone fate r { kseq := 1, fmtgen := g.fmtgen, wsnLimit := d.store.wsnLimit }

/-- The first checkpoint of a region: the stripes it lists are taken as listed twice, so that one can hold its seal
(DEDUCED, log entry 23). -/
def Dev.firstSeal (r : Nat) (d : Dev) : Dev :=
  let d := d.onRegion r fun x => { x with listed := d.stripeList r, listedBefore := d.stripeList r }
  (d.sealNow (d.keystoneFate r) r).onRegion r fun x => { x with listedBefore := x.listed }

/-! ## The end of a format (R201 steps 2 to 6) -/

/-- The coaches that ran when FMT was accepted have ended, no later one waits or holds a set, and nothing flushes. -/
def Dev.formatReady (d : Dev) : Bool :=
  d.store.fmtRunning && d.pfail.flush == .none && (d.chip.state == 1 || d.chip.state == 2) &&
    d.eng.coaches.all fun e => e.2.stage == .ended || (!d.store.fmtWaits.contains e.1 && e.2.wait == .none && e.2.set.isNone)

/-- Above every write sequence number that the device has used (R197). -/
def Dev.unusedWsn (d : Dev) : Nat :=
  let limits := (List.range 8).flatMap fun r => (d.media r).keystones.map (·.wsnLimit)
  limits.foldl max (max d.store.nextWsn d.store.wsnLimit)

/-- The log opens, where the start ended in the recovery state before it could. -/
def Dev.openLogOnce (d : Dev) : Dev :=
  if d.evt.logOpen then d
  else
    let d := d.onChip fun c => { c with statsLoaded := true, powerOnMs := c.tick, powerCycles := 1 }
    d.openLog 0 {}

/-- Everything from step 3 on. -/
def Dev.format (fu : Fuses) (bd : Board) (m : Memories) (d : Dev) : Dev :=
  let old := d.currentFmtgen
  let wasRecovery := d.chip.state == 2
  let base := d.unusedWsn
  let wrap := decide (65535 ≤ old)
  let d := ((d.clearTables.setPhase 2).carryBlocks bd).onPins fun p => { p with wpHigh := true }
  let (g, d) := d.assignLog { d.store.fmtAsk with fmtgen := nextFmtgen old, deviceId := fu.deviceId, fmtTime := d.wallNow, wsnBase := base }
  let (g, d) := d.drawSeeds g
  let d := (d.setBudgets g).onStore fun x => { x with geom := some g, nextWsn := g.wsnBase, wsnLimit := g.wsnBase + 2 ^ 32 }
  let short := d.thinStripes.filter fun s => decide ((channelsOf (d.membersNext s)).length < 12)
  let d := Dev.each short (fun s => Dev.onStripe s fun x => { x with state := .retired }) d
  let d := if d.store.fmtErase || wrap then (d.setPhase 4).eraseAll g else d
  let d := d.onNv fun n => { n with
    flash := n.flash.filter fun e => e.2.fmtgen != g.fmtgen, pads := n.pads.filter fun e => e.2.fmtgen != g.fmtgen }
  let d := Dev.each (List.range 8) Dev.clearKeystones (Dev.each (List.range 8) (Dev.writeGeometry g) (d.setPhase 3))
  let d := Dev.each (List.range 8) (Dev.firstKeystone g) d
  let d := d.onChip fun c => { c with nclkSel := BitVec.ofNat 2 g.nclk }
  let d := Dev.each d.openRegions (fun r d => (d.deriveWriteState r).firstSeal r) d
  let d := d.openLogOnce.programFoundation
  let d := (d.onFw fun f => { f with ttrMs := d.nv.ttr }).buildDdt fu.deviceId
  let d := d.onStore fun x => { x with fmtRunning := false, fmtAsk := {}, fmtErase := false, fmtWaits := [] }
  let d := d.setPhase 5
  if wasRecovery then (d.onFw fun f => { f with recovery := 0 }).openService fu m else d

/-- FMT_COMPLETE. -/
def execFmtComplete (s : State) : Answer :=
  whenLive (guarded Dev.formatReady (Dev.format s.fuses s.board s.mem)) s

end Sys2Proof.Machine
end

