-- ==== Sys2Proof/Machine/Reset.lean ====
section
/-!
DEFINITION. Machine/Reset.lean: resets and power (R18, R350, R392, R445, R447 to R451, R453).
-/
namespace Sys2Proof.Machine

/-! ## What a reset keeps (R448) -/

/-- The device after a reset of the whole chip: everything at its reset value but the media and the mirror on NOR B. The levels
of pins that the board drives stay, and so does what the model keeps for the record of a run. -/
def Dev.resetChip (d : Dev) : Dev :=
  { out := d.out, free := d.free, nv := d.nv
    pins := { perstAsserted := d.pins.perstAsserted, pwrfailLow := d.pins.pwrfailLow, perstHolds := d.pins.perstHolds } }

/-- The byte memories after a reset: NOR stays, SET_WINDOW and the window pool read zero. -/
def Memories.reset (m : Memories) : Memories := { m with setWindow := [], pool := [] }

/-- A reset of the whole chip. -/
def chipReset (s : Memories × Dev) : Memories × Dev := (s.1.reset, s.2.resetChip)

/-- A reset takes effect at once, or after the flush that runs (R449). -/
def resetOrDefer (s : Memories × Dev) : Memories × Dev :=
  let (m, d) := s
  if d.live && d.pfail.flush != .none && d.pfail.flush != .flushed then
    (m, d.onPfail fun p => { p with deferredReset := some (p.deferredReset.getD d.chip.tick) })
  else chipReset (m, d)

/-- The chip is powered. -/
def Dev.powered (d : Dev) : Bool := d.pins.stage == .held || d.pins.stage == .running

/-! ## RESET# (R449) -/

/-- RESET_ASSERT. -/
def execResetAssert (s : State) : Answer := onAll (fun m d => if d.powered then resetOrDefer (m, d) else (m, d)) s

/-- A reset that waited is due: the flush has completed, or 100 ms have passed. -/
def Dev.resetDue (d : Dev) : Bool :=
  match d.pfail.deferredReset with
  | none => false
  | some t => d.running && (d.pfail.flush == .flushed || decide (t + 100 ≤ d.chip.tick))

/-- DEFERRED_RESET. -/
def execDeferredReset (s : State) : Answer := onAll (fun m d => if d.resetDue then chipReset (m, d) else (m, d)) s

/-! ## PERST# (R350, R451, R453) -/

/-- A fundamental reset of the endpoint resets its sticky registers too (R350), and applies anew the options that step 2 read
(R395, R453). -/
def fundamentalReset (d : Dev) : Dev :=
  let d := d.resetEndpoint 1
  let d := if 2 ≤ d.chip.step.toNat || d.chip.state != 0 then d.applyOptions d.fw.options else d
  d.onPcie fun p => { p with training := false, pf0 := {}, pf1 := {} }

/-- PERST# is asserted. -/
def perstEffect (s : Memories × Dev) : Memories × Dev :=
  let (m, d) := s
  let d := d.onPins fun p => { p with perstAsserted := true }
  if d.running && d.pcie.perstChip then resetOrDefer (m, d.onPins fun p => { p with perstHolds := true })
  else if d.running then (m, fundamentalReset d)
  else (m, d)

/-- PERST_ASSERT. -/
def execPerstAssert (s : State) : Answer := onAll (fun m d => if d.powered then perstEffect (m, d) else (m, d)) s

/-- PERST_RELEASE: training starts once step 2 has read the device options. -/
def execPerstRelease (s : State) : Answer :=
  onDev (guarded Dev.powered (fun d =>
    let d := d.onPins fun p => { p with perstAsserted := false, perstHolds := false }
    let read := d.running && (decide (2 ≤ d.chip.step.toNat) || d.chip.state != 0)
    if read then d.onPcie fun p => { p with training := true } else d)) s

/-! ## Self-reset (R392) -/

/-- A failed trial resets the device: at once before step 10, else when its flush has completed. -/
def Dev.selfResetDue (d : Dev) : Bool :=
  d.live && (d.fw.selfReset || (d.fw.trialFailed.isSome && d.pfail.flush == .flushed && d.pfail.trialFlush))

/-- SELF_RESET: the next start reports why the trial failed. -/
def execSelfReset (s : State) : Answer :=
  onAll (fun m d =>
    if d.selfResetDue then
      let cause := d.fw.trialFailed
      let (m, d) := chipReset (m, d)
      (m, d.onFw fun f => { f with revertCause := cause })
    else (m, d)) s

/-! ## Power (R445, R447) -/

/-- POWER_ON_RESET_RELEASE: every rail has been within tolerance for 1 ms; RESET# holds the chip. -/
def execPowerOnResetRelease (s : State) : Answer :=
  onDev (guarded (fun d => d.pins.stage == .unpowered || d.pins.stage == .ramped)
    (Dev.onPins fun p => { p with stage := .held })) s

/-- POWER_REMOVAL: the rails fall. -/
def execPowerRemoval (s : State) : Answer :=
  onAll (fun m d =>
    let (m, d) := chipReset (m, d)
    (m, d.onPins fun p => { p with stage := .unpowered })) s

end Sys2Proof.Machine
end

