-- ==== Sys2Proof/Machine/Dispatch.lean ====
section
/-!
DEFINITION. Machine/Dispatch.lean: one arm per command of Syntax.lean, each a direct call of its meaning.
-/
namespace Sys2Proof.Machine

def exec (i : Instr) (s : State) : Host.Outcome State Fault Refusal :=
  match i with
  | .powerOnResetRelease => Sys2Proof.Machine.execPowerOnResetRelease s
  | .startRom r => Sys2Proof.Machine.execStartRom r s
  | .startNor ms => Sys2Proof.Machine.execStartNor ms s
  | .startManagementFirmware selfCheckOk ms => Sys2Proof.Machine.execStartManagementFirmware selfCheckOk ms s
  | .startDramTraining trained ms => Sys2Proof.Machine.execStartDramTraining trained ms s
  | .startMicrocodeLoad failedClusters failedRows ms => Sys2Proof.Machine.execStartMicrocodeLoad failedClusters failedRows ms s
  | .startKeystoneRead copies ms => Sys2Proof.Machine.execStartKeystoneRead copies ms s
  | .startIndexLoad sealsBad bothBad log ms => Sys2Proof.Machine.execStartIndexLoad sealsBad bothBad log ms s
  | .startReplay found ms => Sys2Proof.Machine.execStartReplay found ms s
  | .startWakePatrolScheduling ms => Sys2Proof.Machine.execStartWakePatrolScheduling ms s
  | .startServiceOpen ms => Sys2Proof.Machine.execStartServiceOpen ms s
  | .resetAssert => Sys2Proof.Machine.execResetAssert s
  | .deferredReset => Sys2Proof.Machine.execDeferredReset s
  | .perstAssert => Sys2Proof.Machine.execPerstAssert s
  | .perstRelease => Sys2Proof.Machine.execPerstRelease s
  | .pwrfailAsserted => Sys2Proof.Machine.execPwrfailAsserted s
  | .pwrfailPulseIgnored ns => Sys2Proof.Machine.execPwrfailPulseIgnored ns s
  | .pwrfailDeassertAtStart => Sys2Proof.Machine.execPwrfailDeassertAtStart s
  | .pwrfailPfcRepeat => Sys2Proof.Machine.execPwrfailPfcRepeat s
  | .emissionCutoff => Sys2Proof.Machine.execEmissionCutoff s
  | .flushProgramStart => Sys2Proof.Machine.execFlushProgramStart s
  | .bufferDrained us => Sys2Proof.Machine.execBufferDrained us s
  | .flushComplete => Sys2Proof.Machine.execFlushComplete s
  | .alarmTrip kind lowestMv highestMc => Sys2Proof.Machine.execAlarmTrip kind lowestMv highestMc s
  | .rootPllLockLoss => Sys2Proof.Machine.execRootPllLockLoss s
  | .crossbarCoreFailure port => Sys2Proof.Machine.execCrossbarCoreFailure port s
  | .mgmtHeartbeatTimeout => Sys2Proof.Machine.execMgmtHeartbeatTimeout s
  | .chipStateUncorrectable block => Sys2Proof.Machine.execChipStateUncorrectable block s
  | .finalLogWrite primaryOk mirrorOk => Sys2Proof.Machine.execFinalLogWrite primaryOk mirrorOk s
  | .sensorFault region => Sys2Proof.Machine.execSensorFault region s
  | .dramSymbolsCorrected channel dimm rank subchannel device => Sys2Proof.Machine.execDramSymbolsCorrected channel dimm rank subchannel device s
  | .dramUncorrectable channel dimm rank subchannel lost => Sys2Proof.Machine.execDramUncorrectable channel dimm rank subchannel lost s
  | .flitCrcError src dst retries recovered => Sys2Proof.Machine.execFlitCrcError src dst retries recovered s
  | .laneSelfcheckFailure lane => Sys2Proof.Machine.execLaneSelfcheckFailure lane s
  | .contextNoRetireTimeout ctx => Sys2Proof.Machine.execContextNoRetireTimeout ctx s
  | .contextReturnToService ctx => Sys2Proof.Machine.execContextReturnToService ctx s
  | .controlStoreParityError engine address goldenOk => Sys2Proof.Machine.execControlStoreParityError engine address goldenOk s
  | .stackFault engine address => Sys2Proof.Machine.execStackFault engine address s
  | .storeReloadComplete engine => Sys2Proof.Machine.execStoreReloadComplete engine s
  | .regionFenceComplete region stepsOk => Sys2Proof.Machine.execRegionFenceComplete region stepsOk s
  | .dieFailed die => Sys2Proof.Machine.execDieFailed die s
  | .managementTick temperatures => Sys2Proof.Machine.execManagementTick temperatures s
  | .frameReceive mac frame => Sys2Proof.Machine.execFrameReceive mac frame s
  | .pfcRefresh mac cls => Sys2Proof.Machine.execPfcRefresh mac cls s
  | .pfcXonRelease mac cls => Sys2Proof.Machine.execPfcXonRelease mac cls s
  | .pfcTimerExpiry mac queue => Sys2Proof.Machine.execPfcTimerExpiry mac queue s
  | .priorityHeld100ms mac queue => Sys2Proof.Machine.execPriorityHeld100ms mac queue s
  | .frameTransmit mac cls fw => Sys2Proof.Machine.execFrameTransmit mac cls fw s
  | .linkUp mac => Sys2Proof.Machine.execLinkUp mac s
  | .linkDown mac cause => Sys2Proof.Machine.execLinkDown mac cause s
  | .macEnable mac by_ value => Sys2Proof.Machine.execMacEnable mac by_ value s
  | .macDisable mac by_ value => Sys2Proof.Machine.execMacDisable mac by_ value s
  | .macTsPop mac by_ => Sys2Proof.Machine.execMacTsPop mac by_ s
  | .ptpTimeRead by_ => Sys2Proof.Machine.execPtpTimeRead by_ s
  | .ptpSet by_ value => Sys2Proof.Machine.execPtpSet by_ value s
  | .ptpAdjStep by_ step => Sys2Proof.Machine.execPtpAdjStep by_ step s
  | .ppsOutPulse => Sys2Proof.Machine.execPpsOutPulse s
  | .ppsInEdge falling => Sys2Proof.Machine.execPpsInEdge falling s
  | .jenlothOpen mac => Sys2Proof.Machine.execJenlothOpen mac s
  | .jenlothClose mac => Sys2Proof.Machine.execJenlothClose mac s
  | .jenlothPing mac => Sys2Proof.Machine.execJenlothPing mac s
  | .jenlothAbort mac => Sys2Proof.Machine.execJenlothAbort mac s
  | .jenlothRequest mac => Sys2Proof.Machine.execJenlothRequest mac s
  | .jenlothAnnounce mac => Sys2Proof.Machine.execJenlothAnnounce mac s
  | .reassemblyTimeout session seq => Sys2Proof.Machine.execReassemblyTimeout session seq s
  | .gapPassed session => Sys2Proof.Machine.execGapPassed session s
  | .sessionIdleExpiry session => Sys2Proof.Machine.execSessionIdleExpiry session s
  | .announceSend mac => Sys2Proof.Machine.execAnnounceSend mac s
  | .partnerExpiry entry => Sys2Proof.Machine.execPartnerExpiry entry s
  | .coachAdmission coach => Sys2Proof.Machine.execCoachAdmission coach s
  | .coachDispatch coach => Sys2Proof.Machine.execCoachDispatch coach s
  | .nop ctx => Sys2Proof.Machine.execNop ctx s
  | .movi ctx => Sys2Proof.Machine.execMovi ctx s
  | .mov ctx => Sys2Proof.Machine.execMov ctx s
  | .add ctx => Sys2Proof.Machine.execAdd ctx s
  | .sub ctx => Sys2Proof.Machine.execSub ctx s
  | .and ctx => Sys2Proof.Machine.execAnd ctx s
  | .or ctx => Sys2Proof.Machine.execOr ctx s
  | .xor ctx => Sys2Proof.Machine.execXor ctx s
  | .shl ctx => Sys2Proof.Machine.execShl ctx s
  | .shr ctx => Sys2Proof.Machine.execShr ctx s
  | .cmp ctx => Sys2Proof.Machine.execCmp ctx s
  | .br ctx => Sys2Proof.Machine.execBr ctx s
  | .brc ctx => Sys2Proof.Machine.execBrc ctx s
  | .loop ctx => Sys2Proof.Machine.execLoop ctx s
  | .end_ ctx => Sys2Proof.Machine.execEnd ctx s
  | .stepLimitReached ctx => Sys2Proof.Machine.execStepLimitReached ctx s
  | .executionTimeout ctx => Sys2Proof.Machine.execExecutionTimeout ctx s
  | .key ctx => Sys2Proof.Machine.execKey ctx s
  | .nsp ctx => Sys2Proof.Machine.execNsp ctx s
  | .get ctx rd => Sys2Proof.Machine.execGet ctx rd s
  | .getr ctx rd => Sys2Proof.Machine.execGetr ctx rd s
  | .head ctx rd => Sys2Proof.Machine.execHead ctx rd s
  | .put ctx rd => Sys2Proof.Machine.execPut ctx rd s
  | .append ctx rd => Sys2Proof.Machine.execAppend ctx rd s
  | .del ctx rd => Sys2Proof.Machine.execDel ctx rd s
  | .cas ctx rd => Sys2Proof.Machine.execCas ctx rd s
  | .lock ctx => Sys2Proof.Machine.execLock ctx s
  | .lockWaiterResume ctx rd => Sys2Proof.Machine.execLockWaiterResume ctx rd s
  | .commit ctx => Sys2Proof.Machine.execCommit ctx s
  | .abort ctx => Sys2Proof.Machine.execAbort ctx s
  | .token ctx rd => Sys2Proof.Machine.execToken ctx rd s
  | .usetok ctx rd => Sys2Proof.Machine.execUsetok ctx rd s
  | .iter ctx rd => Sys2Proof.Machine.execIter ctx rd s
  | .export_ ctx rd => Sys2Proof.Machine.execExport ctx rd s
  | .import_ ctx rd => Sys2Proof.Machine.execImport ctx rd s
  | .hash ctx => Sys2Proof.Machine.execHash ctx s
  | .verify ctx rd => Sys2Proof.Machine.execVerify ctx rd s
  | .resp ctx => Sys2Proof.Machine.execResp ctx s
  | .status ctx => Sys2Proof.Machine.execStatus ctx s
  | .subRequestAnswer ctx rd => Sys2Proof.Machine.execSubRequestAnswer ctx rd s
  | .mrd ctx => Sys2Proof.Machine.execMrd ctx s
  | .mwr ctx => Sys2Proof.Machine.execMwr ctx s
  | .evrd ctx log => Sys2Proof.Machine.execEvrd ctx log s
  | .ctrd ctx => Sys2Proof.Machine.execCtrd ctx s
  | .kslotLoad ctx => Sys2Proof.Machine.execKslotLoad ctx s
  | .kslotEnrolOwner ctx => Sys2Proof.Machine.execKslotEnrolOwner ctx s
  | .kslotClear ctx => Sys2Proof.Machine.execKslotClear ctx s
  | .kslotClearOwner ctx => Sys2Proof.Machine.execKslotClearOwner ctx s
  | .kslotRekey ctx => Sys2Proof.Machine.execKslotRekey ctx s
  | .kslotComplete ctx => Sys2Proof.Machine.execKslotComplete ctx s
  | .rekeyRecordCopy region address rd => Sys2Proof.Machine.execRekeyRecordCopy region address rd s
  | .rekeyWalkDone => Sys2Proof.Machine.execRekeyWalkDone s
  | .nsdefCreate ctx => Sys2Proof.Machine.execNsdefCreate ctx s
  | .nsdefModify ctx => Sys2Proof.Machine.execNsdefModify ctx s
  | .nsdefRemove ctx => Sys2Proof.Machine.execNsdefRemove ctx s
  | .nsdefComplete ctx => Sys2Proof.Machine.execNsdefComplete ctx s
  | .namespaceRemovalWalk region nsid => Sys2Proof.Machine.execNamespaceRemovalWalk region nsid s
  | .namespaceFree nsid => Sys2Proof.Machine.execNamespaceFree nsid s
  | .tokenGenerationWrap nsid => Sys2Proof.Machine.execTokenGenerationWrap nsid s
  | .fmt ctx => Sys2Proof.Machine.execFmt ctx s
  | .fmtComplete => Sys2Proof.Machine.execFmtComplete s
  | .migOpen ctx => Sys2Proof.Machine.execMigOpen ctx s
  | .migClose ctx => Sys2Proof.Machine.execMigClose ctx s
  | .time ctx => Sys2Proof.Machine.execTime ctx s
  | .fwstage ctx norOk => Sys2Proof.Machine.execFwstage ctx norOk s
  | .stagedImageCheckDone => Sys2Proof.Machine.execStagedImageCheckDone s
  | .stagingIdleTimeout => Sys2Proof.Machine.execStagingIdleTimeout s
  | .fwcommit ctx => Sys2Proof.Machine.execFwcommit ctx s
  | .trialExpiry => Sys2Proof.Machine.execTrialExpiry s
  | .selfReset => Sys2Proof.Machine.execSelfReset s
  | .settingsCommit by_ => Sys2Proof.Machine.execSettingsCommit by_ s
  | .settingsCommitDone norOk => Sys2Proof.Machine.execSettingsCommitDone norOk s
  | .camopReadRow ctx => Sys2Proof.Machine.execCamopReadRow ctx s
  | .camopWriteRow ctx => Sys2Proof.Machine.execCamopWriteRow ctx s
  | .camopClearRow ctx => Sys2Proof.Machine.execCamopClearRow ctx s
  | .camopSearch ctx upsets => Sys2Proof.Machine.execCamopSearch ctx upsets s
  | .camopNext ctx upsets => Sys2Proof.Machine.execCamopNext ctx upsets s
  | .camopScrubBank ctx => Sys2Proof.Machine.execCamopScrubBank ctx s
  | .camopScrubPassEnd ctx upsets => Sys2Proof.Machine.execCamopScrubPassEnd ctx upsets s
  | .assocSearch bank key cls upsets => Sys2Proof.Machine.execAssocSearch bank key cls upsets s
  | .scrubberRowCheck bank row upsets => Sys2Proof.Machine.execScrubberRowCheck bank row upsets s
  | .pageReadComplete die plane block page sector retried iterations decoded cls => Sys2Proof.Machine.execPageReadComplete die plane block page sector retried iterations decoded cls s
  | .programEraseResume die => Sys2Proof.Machine.execProgramEraseResume die s
  | .suspendLimitExpiry die => Sys2Proof.Machine.execSuspendLimitExpiry die s
  | .stripeOpen front => Sys2Proof.Machine.execStripeOpen front s
  | .blockEraseComplete front channel ok => Sys2Proof.Machine.execBlockEraseComplete front channel ok s
  | .unitProgramComplete front position channel ok => Sys2Proof.Machine.execUnitProgramComplete front position channel ok s
  | .courseVerified front position badChannels => Sys2Proof.Machine.execCourseVerified front position badChannels s
  | .padIdleTimeout front => Sys2Proof.Machine.execPadIdleTimeout front s
  | .padHeldTimeout front => Sys2Proof.Machine.execPadHeldTimeout front s
  | .frontIdlePad front => Sys2Proof.Machine.execFrontIdlePad front s
  | .dieDrainDone die => Sys2Proof.Machine.execDieDrainDone die s
  | .patrolVisit region stripe channel found hard => Sys2Proof.Machine.execPatrolVisit region stripe channel found hard s
  | .gcVictimSelect region => Sys2Proof.Machine.execGcVictimSelect region s
  | .relocationRecordCopy region address rd => Sys2Proof.Machine.execRelocationRecordCopy region address rd s
  | .relocatedStripeErase region stripe failed => Sys2Proof.Machine.execRelocatedStripeErase region stripe failed s
  | .sealStart region => Sys2Proof.Machine.execSealStart region s
  | .sealDurable region keystoneOk retryOk => Sys2Proof.Machine.execSealDurable region keystoneOk retryOk s
  | .responseEmission coach rd latencyNs => Sys2Proof.Machine.execResponseEmission coach rd latencyNs s
  | .sqTailDoorbell q value => Sys2Proof.Machine.execSqTailDoorbell q value s
  | .cqHeadDoorbell q value => Sys2Proof.Machine.execCqHeadDoorbell q value s
  | .sqEntryFetch q => Sys2Proof.Machine.execSqEntryFetch q s
  | .dmaReadCompletion tag answer => Sys2Proof.Machine.execDmaReadCompletion tag answer s
  | .completionTimeout tag => Sys2Proof.Machine.execCompletionTimeout tag s
  | .lateCompletion tag byteCount => Sys2Proof.Machine.execLateCompletion tag byteCount s
  | .tagQuarantineExpiry tag => Sys2Proof.Machine.execTagQuarantineExpiry tag s
  | .queueCreate by_ => Sys2Proof.Machine.execQueueCreate by_ s
  | .queueDelete by_ => Sys2Proof.Machine.execQueueDelete by_ s
  | .queueDeleteDone => Sys2Proof.Machine.execQueueDeleteDone s
  | .queueAbort by_ cid => Sys2Proof.Machine.execQueueAbort by_ cid s
  | .queueResultAck by_ => Sys2Proof.Machine.execQueueResultAck by_ s
  | .mboxDoorbell => Sys2Proof.Machine.execMboxDoorbell s
  | .mboxAck => Sys2Proof.Machine.execMboxAck s
  | .pwCommit => Sys2Proof.Machine.execPwCommit s
  | .atsInvalidateRequest first last => Sys2Proof.Machine.execAtsInvalidateRequest first last s
  | .atsInvalidateDone => Sys2Proof.Machine.execAtsInvalidateDone s
  | .flrPf0 => Sys2Proof.Machine.execFlrPf0 s
  | .flrPf1 => Sys2Proof.Machine.execFlrPf1 s
  | .hotReset cause => Sys2Proof.Machine.execHotReset cause s
  | .pcieLinkUp gen width flit => Sys2Proof.Machine.execPcieLinkUp gen width flit s
  | .l0sEntry => Sys2Proof.Machine.execL0sEntry s
  | .l1Entry => Sys2Proof.Machine.execL1Entry s
  | .clkreqRelease => Sys2Proof.Machine.execClkreqRelease s
  | .powerStateIdleTimeout => Sys2Proof.Machine.execPowerStateIdleTimeout s
  | .d3hotEntry fn => Sys2Proof.Machine.execD3hotEntry fn s
  | .d0Return fn => Sys2Proof.Machine.execD0Return fn s
  | .unwrapLockAcquire by_ => Sys2Proof.Machine.execUnwrapLockAcquire by_ s
  | .unwrapLockRelease by_ => Sys2Proof.Machine.execUnwrapLockRelease by_ s
  | .unwrapLockTimeout => Sys2Proof.Machine.execUnwrapLockTimeout s
  | .drbgReseed ok lowestMv highestMc => Sys2Proof.Machine.execDrbgReseed ok lowestMv highestMc s
  | .coalescingWindowClose region block => Sys2Proof.Machine.execCoalescingWindowClose region block s
  | .eventFile recorder => Sys2Proof.Machine.execEventFile recorder s
  | .recordsLostInsert recorder => Sys2Proof.Machine.execRecordsLostInsert recorder s
  | .logPageProgram primaryOk mirrorOk erasePrimaryOk eraseMirrorOk => Sys2Proof.Machine.execLogPageProgram primaryOk mirrorOk erasePrimaryOk eraseMirrorOk s
  | .evtNotifyPendingClear by_ => Sys2Proof.Machine.execEvtNotifyPendingClear by_ s
  | .genericRegisterWrite by_ address wide value => Sys2Proof.Machine.execGenericRegisterWrite by_ address wide value s
  | .powerRemoval => Sys2Proof.Machine.execPowerRemoval s
  | .sensorRecovery region => Sys2Proof.Machine.execSensorRecovery region s
  | .uncorrectableContextState ctx => Sys2Proof.Machine.execUncorrectableContextState ctx s
  | .blockCannotBeRepaired region block => Sys2Proof.Machine.execBlockCannotBeRepaired region block s
  | .mctpMessage message => Sys2Proof.Machine.execMctpMessage message s
  | .peerWindowAccess write offset length bytes => Sys2Proof.Machine.execPeerWindowAccess write offset length bytes s
  | .unsupportedRequest posted => Sys2Proof.Machine.execUnsupportedRequest posted s
  | .configurationRequest fn write offset enables value => Sys2Proof.Machine.execConfigurationRequest fn write offset enables value s
  | .msixVectorUnmask fn vector => Sys2Proof.Machine.execMsixVectorUnmask fn vector s
  | .linkStateExit => Sys2Proof.Machine.execLinkStateExit s

end Sys2Proof.Machine
end

