-- ==== Sys2Proof/Safety.lean ====
section
/-!
DEFINITION. Safety.lean: what counts as a safe run: the canonical form of the byte memories, the latched fail-safe state,
and the groups of the device that a command leaves alone.
-/
namespace Sys2Proof.Machine

/-- Every byte memory is in its canonical form: NOR reads erased where unlisted, SET_WINDOW and the window pool zero. -/
def Memories.wf (m : Memories) : Bool :=
  Mem.wf 0xFF m.norA && Mem.wf 0xFF m.norB && Mem.wf 0 m.setWindow && Mem.wf 0 m.pool

/-- The device is in the fail-safe state with this reason (R410, R411). -/
def State.latched (reason : Byte) (s : State) : Prop := reason ≠ 0 ∧ s.dev.chip.reason = reason

/-- The rows that lead out of the fail-safe state: a reset of the whole chip or the loss of power (R411, R448). -/
def Instr.resets : Instr → Bool
  | .resetAssert | .deferredReset | .perstAssert | .powerRemoval => true
  | _ => false

/-- The state that a reset of the whole chip leaves (R448): everything at its reset value but NOR, the media and the mirror,
fuses and board, the levels that the board drives on pins, the queue, and the model's own `out` and `free`. -/
def State.afterReset (s : State) : State :=
  { pending := s.pending, fuses := s.fuses, board := s.board
    mem := { norA := s.mem.norA, norB := s.mem.norB }
    dev := { out := s.dev.out, free := s.dev.free, nv := s.dev.nv
             pins := { perstAsserted := s.dev.pins.perstAsserted, pwrfailLow := s.dev.pins.pwrfailLow
                       perstHolds := s.dev.pins.perstHolds } } }

/-- Coach `i` is `c`, at an instruction with opcode `op` in context `ctx`, and nothing keeps it from running: its path runs,
it waits for nothing and has steps left (R42, R61). -/
structure Dev.At (d : Dev) (ctx : CtxId) (i : Nat) (c : Coach) (op : Nat) : Prop where
  coach : d.coach? i = some c
  running : d.coachIn ctx.val = some (i, c)
  path : d.pathRuns c.privileged = true
  free : c.wait = .none
  steps : c.run.steps < 256
  opcode : c.current.op = op

/-- The device once the directory of region `r` has been stepped through for the key of coach `c` (R128, R148). -/
def Dev.searched (d : Dev) (c : Coach) (r : Nat) : Dev :=
  d.stepDir r (if c.privileged then 3 else c.clsNow) c.run.nsReg c.run.keyReg

/-- Instruction `op` of a request acts on its key register: an active namespace, a key, the key's region open, and that
region the coach's own (checks 1 to 3 of R89; R80); the search of the directory meets no fault of the array (R157). -/
structure Dev.Keyed (d : Dev) (ctx : CtxId) (i : Nat) (c : Coach) (op : Nat) : Prop extends Dev.At d ctx i c op where
  accepted : d.fw.recovery ≠ 1
  active : d.nsActive c.run.nsReg = true
  key : c.run.keyReg ≠ []
  gate : d.regionGate c.home = none
  request : c.privileged = false
  home : d.homeOf c.run.nsReg c.run.keyReg = c.home
  clean : d.dirClean c.home (d.dirKeyOf c.run.nsReg c.run.keyReg) = true

/-- Instruction `op` of a coach acts on the device: the recovery state accepts it and the device is not in the fail-safe state
(R108, R398, R413). -/
structure Dev.Acts (d : Dev) (ctx : CtxId) (i : Nat) (c : Coach) (op : Nat) : Prop extends Dev.At d ctx i c op where
  accepted : d.fw.recovery ≠ 1
  alive : d.failsafe = false

/-- The coach of context `ctx` waits, in instruction `op`, for seals that are durable. -/
structure Dev.Sealed (d : Dev) (ctx : CtxId) (i : Nat) (c : Coach) (op : Nat) (gens : List (Nat × Nat)) : Prop where
  coach : d.coach? i = some c
  running : d.coachIn ctx.val = some (i, c)
  path : d.pathRuns c.privileged = true
  opcode : c.current.op = op
  waits : c.wait = .seals gens
  durable : d.sealedAll gens = true

/-- The visible state after an instruction that returns a status and goes on (R35, R42, R73): `r` with the status, `err`, one
more step, and the next instruction. -/
def Run.answers (r : Run) (st : Byte) : Run :=
  { r with status := st, flags := { r.flags with err := decide (st ≠ 0x00 ∧ st ≠ 0x0D) }
           steps := r.steps + 1, last := r.pc, pc := r.pc + 1 }

/-- The fingerprint of the key a coach acts on. -/
def Dev.fpFor (d : Dev) (c : Coach) : Nat := d.fpOf c.run.nsReg c.run.keyReg

/-- A set of the groups of the device. -/
structure Groups where
  out : Bool := false
  free : Bool := false
  pins : Bool := false
  pfail : Bool := false
  chip : Bool := false
  evt : Bool := false
  wall : Bool := false
  life : Bool := false
  keys : Bool := false
  fw : Bool := false
  store : Bool := false
  eng : Bool := false
  net : Bool := false
  pcie : Bool := false
  trained : Bool := false
  nv : Bool := false
  deriving DecidableEq, Repr

/-- The device with the groups of `T` blanked: two devices agree outside `T` when these are equal. -/
def Dev.mask (T : Groups) (d : Dev) : Dev :=
  { out := if T.out then [] else d.out, free := if T.free then 0 else d.free
    pins := if T.pins then {} else d.pins, pfail := if T.pfail then {} else d.pfail
    chip := if T.chip then {} else d.chip, evt := if T.evt then {} else d.evt
    wall := if T.wall then {} else d.wall, life := if T.life then {} else d.life
    keys := if T.keys then {} else d.keys, fw := if T.fw then {} else d.fw
    store := if T.store then {} else d.store, eng := if T.eng then {} else d.eng
    net := if T.net then {} else d.net, pcie := if T.pcie then {} else d.pcie
    trained := if T.trained then 0 else d.trained, nv := if T.nv then {} else d.nv }

/-- The devices agree in every group outside `T`. -/
def Dev.agree (T : Groups) (d e : Dev) : Prop := d.mask T = e.mask T

/-- `t` may differ from `s` in the groups of `T` only: queue, fuses, board and every other group are as before, and the byte
memories too unless `bytes`. -/
structure State.Within (T : Groups) (bytes : Bool) (s t : State) : Prop where
  pending : t.pending = s.pending
  fuses : t.fuses = s.fuses
  board : t.board = s.board
  memory : bytes = false → t.mem = s.mem
  groups : Dev.agree T t.dev s.dev

/-- The groups of the device that a row may change: every other group is as before, whatever the operands. -/
def Instr.reach : Instr → Groups
  | .sensorRecovery .. => { chip := true }
  | .contextReturnToService .. | .storeReloadComplete .. | .nop .. | .movi .. | .mov .. | .add .. | .sub .. | .and ..
  | .or .. | .xor .. | .shl .. | .shr .. | .cmp .. | .br .. | .brc .. | .loop .. | .key .. | .lockWaiterResume ..
  | .status .. | .subRequestAnswer .. | .ctrd .. => { eng := true }
  | .recordsLostInsert .. => { evt := true }
  | .settingsCommitDone .. => { fw := true }
  | .pfcTimerExpiry .. | .ppsInEdge .. | .announceSend .. => { net := true }
  | .queueResultAck .. | .mboxAck | .pwCommit | .atsInvalidateRequest .. | .l0sEntry | .l1Entry | .d3hotEntry ..
      =>
      { pcie := true }
  | .emissionCutoff => { pfail := true }
  | .powerOnResetRelease => { pins := true }
  | .namespaceRemovalWalk .. | .programEraseResume .. | .suspendLimitExpiry .. | .gcVictimSelect .. => { store := true }
  | .mrd .. => { eng := true, net := true }
  | .pwrfailPulseIgnored .. | .coalescingWindowClose .. => { evt := true, life := true }
  | .evtNotifyPendingClear .. => { evt := true, pcie := true }
  | .settingsCommit .. => { fw := true, pcie := true }
  | .kslotComplete .. => { keys := true, eng := true }
  | .unwrapLockAcquire .. | .unwrapLockRelease .. => { keys := true, pcie := true }
  | .macTsPop .. | .ptpTimeRead .. | .ptpSet .. | .ptpAdjStep .. => { net := true, pcie := true }
  | .mctpMessage .. => { out := true, eng := true }
  | .pwrfailPfcRepeat | .pfcRefresh .. | .pfcXonRelease .. => { out := true, net := true }
  | .sqEntryFetch .. | .queueCreate .. | .queueDeleteDone | .atsInvalidateDone | .peerWindowAccess ..
  | .unsupportedRequest .. | .msixVectorUnmask .. => { out := true, pcie := true }
  | .perstRelease | .clkreqRelease | .linkStateExit => { pins := true, pcie := true }
  | .pwrfailDeassertAtStart => { pins := true, pfail := true }
  | .coachDispatch .. | .end_ .. | .stepLimitReached .. | .nsp .. | .head .. | .lock .. | .abort .. | .token ..
  | .iter .. | .export_ .. | .hash .. | .resp .. | .nsdefCreate .. | .nsdefModify .. | .fmt .. | .camopReadRow ..
  | .camopWriteRow .. | .camopClearRow .. | .camopScrubBank .. => { store := true, eng := true }
  | .jenlothPing .. => { store := true, net := true }
  | .dramSymbolsCorrected .. => { chip := true, evt := true, life := true }
  | .laneSelfcheckFailure .. | .evrd .. => { evt := true, life := true, eng := true }
  | .stagedImageCheckDone | .stagingIdleTimeout => { evt := true, life := true, fw := true }
  | .rekeyWalkDone | .unwrapLockTimeout => { evt := true, life := true, keys := true }
  | .priorityHeld100ms .. | .partnerExpiry .. => { evt := true, life := true, net := true }
  | .sqTailDoorbell .. | .lateCompletion .. | .pcieLinkUp .. => { evt := true, life := true, pcie := true }
  | .namespaceFree .. | .tokenGenerationWrap .. | .pageReadComplete .. => { evt := true, life := true, store := true }
  | .executionTimeout .. => { life := true, store := true, eng := true }
  | .tagQuarantineExpiry .. | .mboxDoorbell | .d0Return .. => { out := true, eng := true, pcie := true }
  | .ppsOutPulse => { out := true, pins := true, net := true }
  | .flushComplete => { pins := true, pfail := true, store := true }
  | .jenlothRequest .. | .reassemblyTimeout .. | .gapPassed .. => { store := true, eng := true, net := true }
  | .sensorFault .. => { chip := true, evt := true, life := true, store := true }
  | .flrPf1 => { evt := true, life := true, eng := true, pcie := true }
  | .contextNoRetireTimeout .. | .get .. | .getr .. | .usetok .. | .verify .. | .nsdefRemove .. | .nsdefComplete ..
  | .uncorrectableContextState .. => { evt := true, life := true, store := true, eng := true }
  | .linkUp .. | .linkDown .. | .jenlothAnnounce .. => { evt := true, life := true, store := true, net := true }
  | .dieFailed .. | .stripeOpen .. | .blockEraseComplete .. | .padIdleTimeout .. | .padHeldTimeout ..
  | .frontIdlePad .. | .dieDrainDone .. | .relocatedStripeErase .. | .sealStart .. | .sealDurable ..
      =>
      { evt := true, life := true, store := true, nv := true }
  | .patrolVisit .. => { free := true, evt := true, life := true, store := true }
  | .jenlothAbort .. => { life := true, store := true, eng := true, net := true }
  | .cqHeadDoorbell .. => { out := true, evt := true, life := true, pcie := true }
  | .startNor .. => { chip := true, evt := true, life := true, fw := true, pcie := true }
  | .startWakePatrolScheduling .. => { chip := true, evt := true, life := true, fw := true, store := true }
  | .managementTick .. => { chip := true, evt := true, life := true, store := true, net := true }
  | .flrPf0 | .hotReset .. => { evt := true, life := true, eng := true, net := true, pcie := true }
  | .fwstage .. | .fwcommit .. => { evt := true, life := true, fw := true, store := true, eng := true }
  | .kslotLoad .. | .kslotEnrolOwner .. | .kslotClear .. | .kslotClearOwner .. | .kslotRekey ..
      =>
      { evt := true, life := true, keys := true, store := true, eng := true }
  | .courseVerified .. => { evt := true, life := true, keys := true, store := true, nv := true }
  | .jenlothClose .. | .sessionIdleExpiry .. | .migOpen .. | .migClose ..
      =>
      { evt := true, life := true, store := true, eng := true, net := true }
  | .del .. | .commit .. | .relocationRecordCopy ..
      =>
      { evt := true, life := true, store := true, eng := true, nv := true }
  | .coachAdmission .. => { evt := true, life := true, store := true, eng := true, pcie := true }
  | .blockCannotBeRepaired .. => { evt := true, life := true, store := true, net := true, nv := true }
  | .macEnable .. | .macDisable .. => { evt := true, life := true, store := true, net := true, pcie := true }
  | .powerStateIdleTimeout => { evt := true, life := true, store := true, pcie := true, nv := true }
  | .time .. => { evt := true, wall := true, life := true, store := true, eng := true }
  | .jenlothOpen .. => { free := true, evt := true, life := true, store := true, net := true }
  | .queueDelete .. => { out := true, evt := true, life := true, net := true, pcie := true }
  | .frameReceive .. | .frameTransmit .. => { out := true, evt := true, life := true, store := true, net := true }
  | .eventFile .. => { out := true, evt := true, store := true, pcie := true, nv := true }
  | .queueAbort .. => { out := true, life := true, store := true, eng := true, pcie := true }
  | .flushProgramStart | .unitProgramComplete ..
      =>
      { pfail := true, evt := true, life := true, store := true, nv := true }
  | .put .. | .append .. | .cas .. | .rekeyRecordCopy ..
      =>
      { evt := true, life := true, keys := true, store := true, eng := true, nv := true }
  | .configurationRequest .. => { out := true, evt := true, life := true, eng := true, net := true, pcie := true }
  | .dmaReadCompletion .. | .completionTimeout ..
      =>
      { out := true, evt := true, life := true, store := true, eng := true, pcie := true }
  | .import_ .. => { evt := true, life := true, keys := true, store := true, eng := true, net := true, nv := true }
  | .logPageProgram ..
      =>
      { out := true, chip := true, evt := true, life := true, store := true, pcie := true, nv := true }
  | .responseEmission ..
      =>
      { out := true, evt := true, life := true, store := true, eng := true, net := true, pcie := true }
  | .startKeystoneRead ..
      =>
      { pins := true, chip := true, evt := true, life := true, fw := true, store := true, nv := true }
  | .bufferDrained ..
      =>
      { out := true, pfail := true, chip := true, evt := true, life := true, store := true, pcie := true, nv := true }
  | .trialExpiry
      =>
      { out := true, pfail := true, evt := true, life := true, fw := true, store := true, eng := true, net := true }
  | .rootPllLockLoss | .crossbarCoreFailure .. | .mgmtHeartbeatTimeout | .chipStateUncorrectable ..
      =>
      { out := true, pins := true, chip := true, evt := true, life := true, eng := true, net := true, pcie := true }
  | .finalLogWrite ..
      =>
      { out := true, pins := true, chip := true, evt := true, life := true, store := true, pcie := true, nv := true }
  | .pwrfailAsserted
      =>
      { out := true, pins := true, pfail := true, evt := true, life := true, store := true, eng := true, net := true }
  | .startReplay ..
      =>
      { pfail := true, chip := true, evt := true, life := true, keys := true, fw := true, store := true, nv := true }
  | .alarmTrip .. | .drbgReseed ..
      =>
      { out := true, pins := true, chip := true, evt := true, life := true, keys := true, eng := true, net := true,
        pcie := true }
  | .dramUncorrectable .. | .flitCrcError .. | .controlStoreParityError .. | .stackFault .. | .camopSearch ..
  | .camopNext .. | .camopScrubPassEnd .. | .assocSearch .. | .scrubberRowCheck ..
      =>
      { out := true, pins := true, chip := true, evt := true, life := true, store := true, eng := true, net := true,
        pcie := true }
  | .mwr .. | .genericRegisterWrite ..
      =>
      { out := true, chip := true, evt := true, life := true, keys := true, fw := true, store := true, eng := true,
        net := true, pcie := true }
  | .regionFenceComplete ..
      =>
      { out := true, pins := true, chip := true, evt := true, life := true, store := true, eng := true, net := true,
        pcie := true, nv := true }
  | .startManagementFirmware ..
      =>
      { out := true, pfail := true, chip := true, evt := true, life := true, keys := true, fw := true, store := true,
        eng := true, net := true, pcie := true }
  | .startDramTraining ..
      =>
      { out := true, pins := true, chip := true, evt := true, life := true, fw := true, store := true, eng := true,
        net := true, pcie := true, trained := true }
  | .startRom ..
      =>
      { out := true, pins := true, pfail := true, chip := true, evt := true, life := true, keys := true, fw := true,
        eng := true, net := true, pcie := true }
  | .startServiceOpen ..
      =>
      { out := true, pfail := true, chip := true, evt := true, life := true, keys := true, fw := true, store := true,
        eng := true, net := true, pcie := true, nv := true }
  | .startMicrocodeLoad ..
      =>
      { out := true, pins := true, pfail := true, chip := true, evt := true, life := true, keys := true, fw := true,
        store := true, eng := true, net := true, pcie := true }
  | .startIndexLoad ..
      =>
      { out := true, pins := true, chip := true, evt := true, wall := true, life := true, keys := true, fw := true,
        store := true, eng := true, net := true, pcie := true, nv := true }
  | .resetAssert | .deferredReset | .perstAssert | .selfReset | .powerRemoval
      =>
      { pins := true, pfail := true, chip := true, evt := true, wall := true, life := true, keys := true, fw := true,
        store := true, eng := true, net := true, pcie := true, trained := true }
  | .fmtComplete
      =>
      { out := true, free := true, pins := true, pfail := true, chip := true, evt := true, life := true, keys := true,
        fw := true, store := true, eng := true, net := true, pcie := true, nv := true }

/-- The rows that may change a byte memory: NOR, or the memory behind BAR4 (R362, R395, R401, R402, R448). -/
def Instr.touchesBytes : Instr → Bool
  | .fwstage .. | .fwcommit .. | .stagedImageCheckDone | .settingsCommitDone .. | .genericRegisterWrite ..
  | .mwr .. | .peerWindowAccess .. | .responseEmission .. | .startNor .. | .startManagementFirmware ..
  | .resetAssert | .deferredReset | .perstAssert | .selfReset | .powerRemoval => true
  | _ => false

/-- Device `d'` differs from `d` in coach `i` only, which is now `c`. -/
structure Dev.Becomes (d d' : Dev) (i : Nat) (c : Coach) : Prop where
  coach : d'.coach? i = some c
  others : ∀ j, j ≠ i → d'.coach? j = d.coach? j
  groups : Dev.agree { eng := true } d' d
  engines : { d'.eng with coaches := [] } = { d.eng with coaches := [] }

/-- The rows `row` run the instruction `op`: where `g` holds of the coach, the command answers a next state in which that
coach's visible state is `after` of it, and nothing else has changed. -/
def runsAs (row : CtxId → Instr) (op : Nat) (g : Dev → Coach → Prop) (after : Dev → Coach → Run) : Prop :=
  ∀ (s : State) (ctx : CtxId) (i : Nat) (c : Coach), s.dev.At ctx i c op → g s.dev c →
    ∃ d', exec (row ctx) s = .next { s with dev := d' } ∧ s.dev.Becomes d' i { c with run := after s.dev c }

/-- The rows `row` run the arithmetic instruction `op`: gd receives `f` of the operands, z says that it is 0, c is `carry`. -/
def computes (row : CtxId → Instr) (op : Nat) (f : W64 → W64 → W64) (carry : W64 → W64 → Bool) : Prop :=
  runsAs row op (fun _ _ => True) fun _ c =>
    let x := c.run.reg c.current.a
    let y := c.run.second c.current
    { c.run.retire with
      g := c.run.g.set c.current.d (f x y)
      flags := { c.run.flags with z := f x y == 0, c := carry x y } }

/-- Frame `x`, a Jenloth message of a type, stands before `rest` at the parser of a MAC, which takes it. -/
structure Dev.Head (d : Dev) (m type : Nat) (x : RxFrame) (rest : List RxFrame) : Prop where
  queue : (d.mac m).rx = x :: rest
  open_ : d.laneOpen m = true
  type : x.type = type

end Sys2Proof.Machine
end

