-- ==== Sys2Proof/Certificates/Slice0/Obligations.lean ====
section
/-!
DEFINITION. Certificates/Slice0/Obligations.lean: the statements for the provers, family by family in the order of the table, then
those over every command. Each names the rules it rests on; the model's own choices that one rests on are named with their log entry.
-/
open Sys2Proof Sys2Proof.Machine

/-- A reset of the whole chip keeps fuses, NOR and the media and brings the rest to its reset value; RESET# during the
flush waits for it, or for 100 ms. PERST# resets the endpoint or, where settings say so, the whole chip, and holds it;
its release lets link training start once step 2 has read the device options. The values that the spec gives no reset
for are the model's choices (log entries 1, 6, 8). Rests on R392, R447 to R450, R350, R451, R453. -/
def Obligations.ResetsOfTheChip : Prop :=
  ((∀ s : State, s.dev.powered = true →
    (s.dev.live = false ∨ s.dev.pfail.flush = .none ∨ s.dev.pfail.flush = .flushed) →
    exec .resetAssert s = .next s.afterReset) ∧
  (∀ s : State, s.dev.live = true → s.dev.pfail.flush ≠ .none → s.dev.pfail.flush ≠ .flushed →
    s.dev.pfail.deferredReset = none →
    exec .resetAssert s =
      .next { s with dev := { s.dev with pfail := { s.dev.pfail with deferredReset := some s.dev.chip.tick } } }) ∧
  (∀ (s : State) (t : Nat), s.dev.running = true → s.dev.pfail.deferredReset = some t →
    (s.dev.pfail.flush = .flushed ∨ t + 100 ≤ s.dev.chip.tick) → exec .deferredReset s = .next s.afterReset) ∧
  (∀ s : State, s.dev.live = true → s.dev.fw.selfReset = true →
    exec .selfReset s =
      .next { s.afterReset with dev := { s.afterReset.dev with fw := { revertCause := s.dev.fw.trialFailed } } }) ∧
  (∀ s : State, exec .powerRemoval s =
    .next { s.afterReset with dev := { s.afterReset.dev with
      pins := { s.afterReset.dev.pins with stage := .unpowered } } }) ∧
  (∀ s : State, s.dev.pins.stage = .unpowered ∨ s.dev.pins.stage = .ramped →
    exec .powerOnResetRelease s =
      .next { s with dev := { s.dev with pins := { s.dev.pins with stage := .held } } })) ∧
  ((∀ s : State, s.dev.running = true → s.dev.pcie.perstChip = false →
    ∃ d', exec .perstAssert s = .next { s with dev := d' } ∧
      d'.pins = { s.dev.pins with perstAsserted := true } ∧
      d'.pcie.pf0 = {} ∧ d'.pcie.pf1 = {} ∧ d'.pcie.queues = [] ∧ d'.pcie.cache = [] ∧ d'.pcie.mboxEntry = [] ∧
      d'.pcie.linkUp = false ∧ d'.pcie.training = false ∧
      d'.nv = s.dev.nv ∧ d'.keys = s.dev.keys ∧ d'.net.macs = s.dev.net.macs ∧ d'.pfail = s.dev.pfail) ∧
  (∀ s : State, s.dev.running = true → s.dev.pcie.perstChip = true → s.dev.pfail.flush = .none →
    exec .perstAssert s =
      .next { s.afterReset with dev := { s.afterReset.dev with
        pins := { s.afterReset.dev.pins with perstAsserted := true, perstHolds := true } } }) ∧
  (∀ s : State, s.dev.running = true → (2 ≤ s.dev.chip.step.toNat ∨ s.dev.chip.state ≠ 0) →
    exec .perstRelease s =
      .next { s with dev := { s.dev with
        pins := { s.dev.pins with perstAsserted := false, perstHolds := false }
        pcie := { s.dev.pcie with training := true } } }) ∧
  (∀ s : State, s.dev.pins.stage = .held →
    exec .perstRelease s =
      .next { s with dev := { s.dev with pins := { s.dev.pins with perstAsserted := false, perstHolds := false } } }))

/-- Steps 1 to 5 of a start: each runs when the one before has ended and nothing halts the start, and leaves its
number, its duration and what it brings up. Steps 6 to 10: the geometry and keystones, the tables, replay, the wake
patrol and service; a device with no complete format enters the recovery state instead. What a row stands for within
its step, and the region that whole-device tables come from, are the model's choices (log entries 31, 32). Rests on
R356, R381, R382, R443, R450, R453, R216, R223, R381, R398. -/
def Obligations.StartStepsRun : Prop :=
  ((∀ (s : State) (r : RomResult), s.dev.pins.stage = .held → s.dev.pins.perstHolds = false → r.testEnHigh = false →
    r.pllLocked = true → r.selfTestOk = true → r.entropyOk = true →
    ∃ d', exec (.startRom r) s = .next { s with dev := d' } ∧ d'.pins.stage = .running ∧ d'.pins.uartUp = true ∧
      d'.pins.smbAddrHigh = r.smbAddrHigh ∧ d'.pfail.waiting = r.pwrfailLow ∧ d'.chip.state = 0 ∧ d'.chip.step = 1 ∧
      d'.chip.rootLock = true ∧ d'.keys.entropyPassed = true ∧ d'.fw.stepMs.get 0 1 = r.ms) ∧
  (∀ (s : State) (ms : W32), s.dev.mayStart 2 = true →
    ∃ t, exec (.startNor ms) s = .next t ∧ t.dev.pcie.training = (!s.dev.pins.perstAsserted) ∧
      t.dev.fw.stepMs.get 0 2 = ms ∧
      ((t.dev.chip.state = 0 ∧ t.dev.chip.step = 2) ∨
       (t.dev.chip.state = 2 ∧ t.dev.chip.step = 0 ∧ t.dev.fw.recovery = 1))) ∧
  (∀ (s : State) (ms : W32), s.dev.mayStart 3 = true → s.dev.fw.onTrial = false →
    (∃ t, exec (.startManagementFirmware true ms) s = .next t ∧ t.dev.pcie.ddt.isSome = true ∧
      t.dev.chip.mgmtLaneLock = true ∧ t.dev.fw.ttrMs = s.dev.nv.ttr ∧ t.dev.nv = s.dev.nv) ∧
    (∃ t, exec (.startManagementFirmware false ms) s = .next t ∧ t.dev.chip.state = 2 ∧ t.dev.fw.recovery = 1)) ∧
  (∀ (s : State) (trained : BitVec 24) (ms : W32), s.dev.mayStart 4 = true →
    (∃ d', exec (.startDramTraining trained ms) s = .next { s with dev := d' } ∧ d'.trained = trained ∧
      d'.fw.stepMs.get 0 4 = ms ∧ d'.pins.dramResetHigh = true) ∧
    exec (.startDramTraining (BitVec.allOnes 24) ms) s =
      .next { s with dev := { s.dev with
        trained := BitVec.allOnes 24, chip := { s.dev.chip with step := 4, dclkSel := dclkSelect s.board.ddrMts }
        fw := { s.dev.fw with stepMs := s.dev.fw.stepMs.set 4 ms }
        pins := { s.dev.pins with dramResetHigh := true, ceHigh := false } } }) ∧
  (∀ (s : State) (cs : BitVec 64) (rows : List (BankId × Nat)) (ms : W32), s.dev.mayStart 5 = true →
    ∃ d', exec (.startMicrocodeLoad cs rows ms) s = .next { s with dev := d' } ∧
      d'.keys.root = some (leBytes 32 (Config.deviceRootKey s.fuses.secret s.fuses.deviceId).toNat) ∧
      d'.keys.devCert = s.fuses.devCert ∧ d'.keys.privateHeld = true ∧ d'.keys.lanesKeyed = true ∧
      d'.keys.seeded = BitVec.allOnes 8 ∧ d'.nv = s.dev.nv ∧ d'.fw.stepMs.get 0 5 = ms)) ∧
  ((∀ (s : State) (cp : List KeystoneRead) (ms : W32), s.dev.mayStart 6 = true →
    ∃ d', exec (.startKeystoneRead cp ms) s = .next { s with dev := d' } ∧ d'.pins.wpHigh = true ∧
      ((d'.chip.state = 0 ∧ d'.chip.step = 6 ∧ d'.store.geom.isSome = true) ∨
       (d'.chip.state = 2 ∧ d'.chip.step = 0 ∧ d'.fw.recovery = 2))) ∧
  (∀ (s : State) (cp : List KeystoneRead) (ms : W32), s.dev.mayStart 6 = true → s.dev.nv.regions = [] →
    ∃ d', exec (.startKeystoneRead cp ms) s = .next { s with dev := d' } ∧ d'.chip.state = 2 ∧ d'.fw.recovery = 2) ∧
  (∀ (s : State) (a b : BitVec 8) (log : LogReadEnv) (ms : W32), s.dev.mayStart 7 = true →
    ∃ d', exec (.startIndexLoad a b log ms) s = .next { s with dev := d' } ∧ d'.evt.logOpen = true ∧
      d'.chip.statsLoaded = true ∧ d'.fw.stepMs.get 0 7 = ms ∧ d'.pfail = s.dev.pfail) ∧
  (∀ (s : State) (found : ReplayRead) (ms : W32), s.dev.mayStart 8 = true →
    ∃ d', exec (.startReplay found ms) s = .next { s with dev := d' } ∧ d'.chip.step = 8 ∧ d'.fw.stepMs.get 0 8 = ms ∧
      d'.eng = s.dev.eng ∧ d'.net = s.dev.net ∧ d'.pcie = s.dev.pcie) ∧
  (∀ (s : State) (ms : W32), s.dev.mayStart 9 = true →
    ∃ d', exec (.startWakePatrolScheduling ms) s = .next { s with dev := d' } ∧ d'.chip.step = 9 ∧
      d'.fw.stepMs.get 0 9 = ms ∧ d'.nv = s.dev.nv) ∧
  (∀ (s : State) (ms : W32), s.dev.mayStart 10 = true → s.dev.fw.onTrial = false →
    ∃ d', exec (.startServiceOpen ms) s = .next { s with dev := d' } ∧ d'.chip.state = 1 ∧ d'.chip.step = 0))

/-- PWRFAIL# in service closes admission and starts the flush; during start-up it halts the start; a pulse shorter
than 1 us is only counted and recorded. Rests on R227, R247, R248, R249, R450. -/
def Obligations.PowerFailureClosesAdmission : Prop :=
  (∀ s : State, s.dev.live = true → s.dev.pfail.flush = .none → s.dev.chip.state = 1 →
    ∃ d', exec .pwrfailAsserted s = .next { s with dev := d' } ∧
      d'.pfail =
        { s.dev.pfail with flush := .closing, flushTick := s.dev.chip.tick, trialFlush := false, flushBytes := 0 } ∧
      d'.pins = { s.dev.pins with pwrfailLow := true } ∧ d'.chip = s.dev.chip ∧ d'.nv = s.dev.nv) ∧
  (∀ s : State, s.dev.live = true → s.dev.pfail.flush = .none → s.dev.chip.state = 0 →
    ∃ d', exec .pwrfailAsserted s = .next { s with dev := d' } ∧
      d'.pfail = { s.dev.pfail with halted := true } ∧ d'.pins = { s.dev.pins with pwrfailLow := true } ∧
      d'.life.pwrfails = bump s.dev.life.pwrfails ∧ d'.chip = s.dev.chip ∧ d'.store = s.dev.store ∧
      d'.eng = s.dev.eng ∧ d'.nv = s.dev.nv) ∧
  (∀ (s : State) (ns : W64), s.dev.live = true → ns.toNat < 1000 →
    exec (.pwrfailPulseIgnored ns) s =
      .next { s with
        dev := (s.dev.onLife fun l => { l with pulses := bump l.pulses }).report 8 0 0 0x1007 [ns.toNat, 0, 0, 0, 0] }) ∧
  (∀ s : State, s.dev.live = true → s.dev.pfail.waiting = true →
    exec .pwrfailDeassertAtStart s =
      .next { s with dev := { s.dev with
        pins := { s.dev.pins with pwrfailLow := false }, pfail := { s.dev.pfail with waiting := false } } }) ∧
  (∀ s : State, s.dev.live = true → s.dev.pfail.flush ≠ .none → s.dev.pins.pwrfailLow = true →
    ∃ d', exec .pwrfailPfcRepeat s = .next { s with dev := d' } ∧ d'.pfail = s.dev.pfail ∧ d'.store = s.dev.store ∧
      ∀ m, m < 64 → (s.dev.mac m).enabled = true → (s.dev.mac m).linkUp = true → Output.pfc m 0xFF 0xFFFF ∈ d'.out)

/-- The flush stops emission 1 ms after PWRFAIL#, programs what is buffered, closes the log and ends with the media
flushed. Which courses are filled when is the model's choice (log entry 26). Rests on R227, R248, R423. -/
def Obligations.FlushProceedsInOrder : Prop :=
  (∀ s : State, s.dev.live = true → s.dev.pfail.flush = .closing →
    exec .emissionCutoff s = .next { s with dev := { s.dev with pfail := { s.dev.pfail with flush := .stopped } } }) ∧
  (∀ s : State, s.dev.live = true → s.dev.pfail.flush = .stopped →
    ∃ d', exec .flushProgramStart s = .next { s with dev := d' } ∧
      d'.pfail = { s.dev.pfail with flush := .programming } ∧ d'.keys = s.dev.keys ∧ d'.eng = s.dev.eng) ∧
  (∀ (s : State) (us : W64), s.dev.live = true → s.dev.pfail.flush = .programming → s.dev.drained = true →
    ∃ d', exec (.bufferDrained us) s = .next { s with dev := d' } ∧
      d'.pfail = { s.dev.pfail with flush := .drained } ∧ d'.keys = s.dev.keys ∧ d'.eng = s.dev.eng) ∧
  (∀ s : State, s.dev.live = true → s.dev.pfail.flush = .drained → s.dev.coursesDone = true →
    ∃ d', exec .flushComplete s = .next { s with dev := d' } ∧
      d'.pfail = { s.dev.pfail with flush := .flushed } ∧ d'.pins = { s.dev.pins with selfRefresh := true } ∧
      (∀ r ∈ s.dev.openRegions, (d'.region r).flushed = true) ∧ d'.nv = s.dev.nv)

/-- Each trigger enters the fail-safe state with its reason: ALARM_OUT# is driven, no coach runs on, and the media
keep what they hold; an alarm also erases every plaintext key, and the reasons of an alarm and of the root PLL cut
NAND off at once. Rests on R377, R402, R410, R411. -/
def Obligations.TriggersEnterFailsafe : Prop :=
  (∀ (s : State) (c : Instr) (reason detail : Byte), s.dev.running = true → s.dev.failsafe = false →
    ((c, reason, detail) = (.rootPllLockLoss, 0x71, 0) ∨
     (∃ p : Fin 10, (c, reason, detail) = (.crossbarCoreFailure p, 0x72, BitVec.ofNat 8 p.val)) ∨
     (c, reason, detail) = (.mgmtHeartbeatTimeout, 0x73, 0) ∨
     (∃ b : Fin 16, (c, reason, detail) = (.chipStateUncorrectable b, 0x76, BitVec.ofNat 8 b.val))) →
    ∃ d', exec c s = .next { s with dev := d' } ∧ d'.chip.reason = reason ∧ d'.chip.detail = detail ∧
      d'.pins.alarmOut = true ∧ d'.pins.selfRefresh = true ∧ d'.pcie.failsafe = true ∧
      (∀ e ∈ d'.eng.coaches, e.2.stage = .ended) ∧ d'.nv = s.dev.nv ∧ d'.keys = s.dev.keys ∧
      d'.life.failsafes = bump s.dev.life.failsafes) ∧
  (∀ s : State, s.dev.running = true → s.dev.failsafe = false →
    ∃ d', exec .rootPllLockLoss s = .next { s with dev := d' } ∧ d'.chip.rootLock = false ∧ d'.chip.state = 3 ∧
      d'.pins.wpHigh = false ∧ d'.pins.ceHigh = true) ∧
  (∀ (s : State) (k : AlarmKind) (mv mc : W64), s.dev.running = true → s.dev.failsafe = false →
    ∃ d', exec (.alarmTrip k mv mc) s = .next { s with dev := d' } ∧ d'.chip.reason = 0x70 ∧ d'.chip.state = 3 ∧
      d'.pins.wpHigh = false ∧ d'.pins.ceHigh = true ∧ d'.pins.alarmOut = true ∧
      d'.keys.alarm.getLsbD (alarmBit k) = true ∧ d'.keys.root = none ∧ d'.keys.privateHeld = false ∧
      d'.keys.tokenKey = none ∧ d'.keys.store = [] ∧ d'.keys.prevStore = [] ∧ d'.keys.lanesKeyed = false ∧
      d'.keys.table = s.dev.keys.table ∧ d'.nv = s.dev.nv) ∧
  (∀ (s : State) (p : Fin 10), s.dev.running = true → s.dev.failsafe = true →
    exec (.crossbarCoreFailure p) s = .next { s with dev := { s.dev with chip := { s.dev.chip with multiple := true } } })

/-- The final log write programs what the log has open, then cuts NAND off: the state is fail-safe and its reason
stands. Rests on R411. -/
def Obligations.FinalLogWriteCutsNandOff : Prop :=
  ∀ (s : State) (p m : Bool), s.dev.running = true → s.dev.failsafe = true → s.dev.chip.state ≠ 3 →
    ∃ d', exec (.finalLogWrite p m) s = .next { s with dev := d' } ∧ d'.chip.state = 3 ∧ d'.chip.step = 0 ∧
      d'.chip.reason = s.dev.chip.reason ∧ d'.pins = { s.dev.pins with wpHigh := false, ceHigh := true } ∧
      (p = false → m = false → s.dev.chip.finalLog = false → d'.chip.finalLog = false) ∧ d'.eng = s.dev.eng ∧ d'.net = s.dev.net ∧ d'.keys = s.dev.keys

/-- A context that makes no progress or holds a state that cannot be corrected is fenced; the second time in a power
cycle it is retired, and it returns to service only when it is neither retired nor waiting for its engine's store. A
region whose crossbar port, DDR5 channel or bank fails is fenced: its bits of CHIP_REGION_FENCE are set and its
recorder's blocks send to the chip recorder; a corrected fault only counts and is recorded. Which side a fault between
two ports fences, and what becomes of a coach struck twice, are the model's choices (log entry 20). Rests on R15, R16,
R17, R258, R409. -/
def Obligations.FaultsFenceContextsAndRegions : Prop :=
  ((∀ (s : State) (x : CtxId) (c : Instr), s.dev.live = true →
    (c = .uncorrectableContextState x ∨ (c = .contextNoRetireTimeout x ∧ (s.dev.coachIn x.val).isSome = true)) →
    (s.dev.cluster (clusterOf x.val)).ctxRetired.getLsbD (ctxBit x.val) = false →
    ∃ d', exec c s = .next { s with dev := d' } ∧
      (d'.cluster (clusterOf x.val)).ctxFenced =
        setBit (s.dev.cluster (clusterOf x.val)).ctxFenced (ctxBit x.val) true ∧
      (d'.cluster (clusterOf x.val)).ctxRetired =
        (if (s.dev.cluster (clusterOf x.val)).ctxFaulted.getLsbD (ctxBit x.val)
         then setBit (s.dev.cluster (clusterOf x.val)).ctxRetired (ctxBit x.val) true
         else (s.dev.cluster (clusterOf x.val)).ctxRetired) ∧
      d'.nv = s.dev.nv ∧ d'.keys = s.dev.keys ∧ d'.chip = s.dev.chip) ∧
  (∀ (s : State) (x : CtxId), s.dev.live = true →
    (s.dev.cluster (clusterOf x.val)).ctxRetired.getLsbD (ctxBit x.val) = false →
    (s.dev.cluster (clusterOf x.val)).reloading.getLsbD (ctxBit x.val / 8) = false →
    exec (.contextReturnToService x) s =
      .next { s with dev := s.dev.onCluster (clusterOf x.val) fun k =>
        { k with ctxFenced := setBit (s.dev.cluster (clusterOf x.val)).ctxFenced (ctxBit x.val) false } })) ∧
  ((∀ (s : State) (src dst : Fin 10), s.dev.live = true → src.val < 8 → s.dev.fencedRegion src.val = false →
    ∃ d', exec (.flitCrcError src dst 3 false) s = .next { s with dev := d' } ∧
      d'.chip.fenced = setBit s.dev.chip.fenced src.val true ∧ d'.chip.fencing = setBit s.dev.chip.fencing src.val true ∧
      d'.chip.fenceCause.get 0 src.val = 3 ∧ (d'.recorder src.val).fenced = true ∧ d'.nv = s.dev.nv) ∧
  (∀ (s : State) (src dst : Fin 10) (n : Fin 4), s.dev.live = true → 1 ≤ n.val →
    exec (.flitCrcError src dst n true) s =
      .next { s with dev := s.dev.report 8 1 src.val 0x3001 [src.val, dst.val, n.val, 0, 0] }) ∧
  (∀ (s : State) (ch : DdrId) (dimm : Fin 2) (rank : Fin 4) (sub : Fin 2) (lost : BadRecords), s.dev.live = true →
    s.dev.fencedRegion (ch.val / 3) = false →
    ∃ d', exec (.dramUncorrectable ch dimm rank sub lost) s = .next { s with dev := d' } ∧
      d'.chip.fenced = setBit s.dev.chip.fenced (ch.val / 3) true ∧ d'.chip.fenceCause.get 0 (ch.val / 3) = 1 ∧
      d'.nv = s.dev.nv) ∧
  (∀ (s : State) (ch : DdrId) (dimm : Fin 2) (rank : Fin 4) (sub : Fin 2) (dev : Fin 10), s.dev.live = true →
    ∃ d', exec (.dramSymbolsCorrected ch dimm rank sub dev) s = .next { s with dev := d' } ∧
      (let k := ch.val * 160 + ((dimm.val * 4 + rank.val) * 2 + sub.val) * 10 + dev.val
       d'.chip = { s.dev.chip with dramNow := s.dev.chip.dramNow.set k (s.dev.chip.dramNow.get 0 k + 1) }) ∧
      d'.store = s.dev.store) ∧
  (∀ (s : State) (l : LaneId), s.dev.live = true → (s.dev.lane l.val).fenced = false →
    ∃ d', exec (.laneSelfcheckFailure l) s = .next { s with dev := d' } ∧ (d'.lane l.val).fenced = true ∧
      (d'.lane l.val).selfcheckFails = bump (s.dev.lane l.val).selfcheckFails ∧
      ∀ k, k ≠ l.val → d'.lane k = s.dev.lane k))

/-- A parity error of a control store makes the engine reload from the golden copy, a second one in a power cycle
retires it; a stack fault makes it reload; the reload done, the engine rejoins. Rests on R400, R401. -/
def Obligations.ControlStoresReloadOrRetire : Prop :=
  (∀ (s : State) (e : EngineId) (a : BitVec 13), s.dev.live = true →
    (s.dev.cluster (engineCluster e.val)).retired.getLsbD (engineBit e.val) = false →
    (s.dev.cluster (engineCluster e.val)).reloading.getLsbD (engineBit e.val) = false →
    (∃ d', exec (.controlStoreParityError e a true) s = .next { s with dev := d' } ∧
      (d'.cluster (engineCluster e.val)).parity = bump (s.dev.cluster (engineCluster e.val)).parity ∧
      (d'.cluster (engineCluster e.val)).failedOnce =
        setBit (s.dev.cluster (engineCluster e.val)).failedOnce (engineBit e.val) true ∧
      ((s.dev.cluster (engineCluster e.val)).failedOnce.getLsbD (engineBit e.val) = false →
        (d'.cluster (engineCluster e.val)).reloading =
          setBit (s.dev.cluster (engineCluster e.val)).reloading (engineBit e.val) true) ∧
      ((s.dev.cluster (engineCluster e.val)).failedOnce.getLsbD (engineBit e.val) = true →
        (d'.cluster (engineCluster e.val)).retired =
          setBit (s.dev.cluster (engineCluster e.val)).retired (engineBit e.val) true)) ∧
    (∃ d', exec (.stackFault e a) s = .next { s with dev := d' } ∧
      (d'.cluster (engineCluster e.val)).stackFaults = bump (s.dev.cluster (engineCluster e.val)).stackFaults ∧
      (d'.cluster (engineCluster e.val)).reloading =
        setBit (s.dev.cluster (engineCluster e.val)).reloading (engineBit e.val) true ∧
      (d'.cluster (engineCluster e.val)).retired = (s.dev.cluster (engineCluster e.val)).retired)) ∧
  (∀ (s : State) (e : EngineId), s.dev.live = true →
    (s.dev.cluster (engineCluster e.val)).reloading.getLsbD (engineBit e.val) = true →
    ∃ d', exec (.storeReloadComplete e) s = .next { s with dev := d' } ∧
      (d'.cluster (engineCluster e.val)).reloading =
        setBit (s.dev.cluster (engineCluster e.val)).reloading (engineBit e.val) false ∧
      (d'.cluster (engineCluster e.val)).reloads = bump (s.dev.cluster (engineCluster e.val)).reloads)

/-- A sensor that fails holds its region's four banks at throttle level 3 and its recovery lets the level fall again;
the management tick counts time. That a failed sensor stands for level 3 at once, and that a tick is whole, are the
model's choices (log entries 4, 24). Rests on R28, R31, R163. -/
def Obligations.TickAndSensors : Prop :=
  (∀ (s : State) (r : RegionId), s.dev.live = true → s.dev.chip.sensorFault.getLsbD r.val = false →
    ∃ d', exec (.sensorFault r) s = .next { s with dev := d' } ∧
      d'.chip = { s.dev.chip with sensorFault := setBit s.dev.chip.sensorFault r.val true } ∧
      ∀ i, i < 4 → (d'.bank (r.val * 4 + i)).throttle = 3) ∧
  (∀ (s : State) (r : RegionId), s.dev.live = true →
    exec (.sensorRecovery r) s = .next { s with dev := { s.dev with chip := { s.dev.chip with
      sensorFault := setBit s.dev.chip.sensorFault r.val false } } }) ∧
  (∀ (s : State) (ts : List Int), s.dev.running = true →
    ∃ d', exec (.managementTick ts) s = .next { s with dev := d' } ∧ d'.chip.tick = s.dev.chip.tick + 1 ∧
      d'.chip.powerOnMs = (if s.dev.chip.statsLoaded then bump s.dev.chip.powerOnMs else s.dev.chip.powerOnMs) ∧
      d'.chip.state = s.dev.chip.state ∧ d'.chip.reason = s.dev.chip.reason ∧ d'.nv = s.dev.nv)

/-- At a port that may carry a link, a frame that passes checks 1 to 3 is counted; one with a bad FCS is discarded and
counted; one that finds no room in its partition, or arrives from PWRFAIL# on, is counted as dropped; a Jenloth frame
that a peer rule admits waits for the parser. A frame whose classification search would meet a fault of the array
waits for its repair (log entry 36). A partition above XON whose XOFF was sent sends it again, and one that has fallen
to XON sends pause time 0; a PFC or pause frame received holds the queues it names, and their timers release them.
Where a clause counts time it does so in whole ticks of 1 ms: the model's choice (log entry 4). Rests on R248, R262,
R264, R265, R291, R272, R274 to R276. -/
def Obligations.FramesAndFlowControl : Prop :=
  ((∀ (s : State) (m : MacId) (f : Frame), s.dev.macWorks m.val = true → s.dev.portReady m.val = true →
    s.dev.peerClean m.val f = true → s.dev.pfail.flush = .none → (if frameIsControl f then f.length ≤ 2048
      else (s.dev.mac m.val).heldBytes ((s.dev.mac m.val).classOf m.val f.tag) + f.length ≤
        (partitionSize m.val ((s.dev.mac m.val).classOf m.val f.tag)).1) →
    (f.fcsOk = true → f.fecBad = 0 → 64 ≤ f.length → f.length ≤ (s.dev.mac m.val).maxBytes →
      ∃ d', exec (.frameReceive m f) s = .next { s with dev := d' } ∧
        (d'.mac m.val).rxFrames = bump (s.dev.mac m.val).rxFrames ∧
        (d'.mac m.val).rxBytes = satAdd (s.dev.mac m.val).rxBytes f.length ∧
        (d'.mac m.val).fcsErr = (s.dev.mac m.val).fcsErr ∧ d'.nv = s.dev.nv ∧ d'.chip = s.dev.chip) ∧
    (f.fcsOk = false →
      exec (.frameReceive m f) s = .next { s with dev := s.dev.onMac m.val fun c => { c with
        fecCorr := satAdd c.fecCorr f.fecCorr, fecUncorr := satAdd c.fecUncorr f.fecBad, fcsErr := bump c.fcsErr } })) ∧
  (∀ (s : State) (m : MacId) (f : Frame), s.dev.macWorks m.val = true → s.dev.portReady m.val = true →
    s.dev.peerClean m.val f = true → ((s.dev.pfail.flush ≠ .none ∧ m.val < 64) ∨
     (s.dev.pfail.flush = .none ∧ frameIsControl f = false ∧
      (partitionSize m.val ((s.dev.mac m.val).classOf m.val f.tag)).1 <
        (s.dev.mac m.val).heldBytes ((s.dev.mac m.val).classOf m.val f.tag) + f.length)) →
    ∃ d', exec (.frameReceive m f) s = .next { s with dev := d' } ∧
      (d'.mac m.val).rxDrop.get 0 ((s.dev.mac m.val).classOf m.val f.tag) =
        bump ((s.dev.mac m.val).rxDrop.get 0 ((s.dev.mac m.val).classOf m.val f.tag)) ∧
      (d'.mac m.val).rx = (s.dev.mac m.val).rx ∧ (d'.mac m.val).rxFrames = (s.dev.mac m.val).rxFrames) ∧
  (∀ (s : State) (m : MacId) (f : Frame) (v6 : Bool) (src dst : W128) (sp dp : W16) (p : Bytes) (k : Nat) (row : ClassRow),
    s.dev.live = true → m.val < 64 → s.dev.portReady m.val = true → s.dev.peerClean m.val f = true →
    s.dev.pfail.flush = .none → (s.dev.mac m.val).heldBytes ((s.dev.mac m.val).classOf m.val f.tag) + f.length ≤
      (partitionSize m.val ((s.dev.mac m.val).classOf m.val f.tag)).1 →
    f.fcsOk = true → f.fecBad = 0 → 64 ≤ f.length → f.length ≤ (s.dev.mac m.val).maxBytes →
    f.body = .ip v6 true true src dst (.udp sp dp .right p) → (s.dev.mac m.val).accepts s.fuses m.val f.dst false = true →
    (s.dev.mac m.val).tagOk f.tag = true → (s.dev.mac m.val).ipOk v6 dst f.dst = true →
    dp ≠ 319 → dp ≠ 320 → jenHeaderOk s.dev.net m.val dp.toNat p = true →
    (s.dev.bank (m.val / 8 * 4 + 3)).lowest (peerKey (leAt p 2 1) m.val dp.toNat src) = some (k, row) →
    bit row.assoc 35 = true →
    ∃ d', exec (.frameReceive m f) s = .next { s with dev := d' } ∧
      (d'.mac m.val).rx = (s.dev.mac m.val).rx ++
        [{ src := src, v6 := v6, srcPort := sp, dstPort := dp, vid := f.tag.map (·.vid)
           cls := (s.dev.mac m.val).classOf m.val f.tag, ruleset := BitVec.ofNat 16 (bits row.assoc 0 16)
           nsDefault := BitVec.ofNat 16 (bits row.assoc 16 16), ceiling := bits row.assoc 32 3
           payload := p, size := f.length, ether := f.src, own := dst }] ∧
      (d'.mac m.val).heldBytes ((s.dev.mac m.val).classOf m.val f.tag) =
        (s.dev.mac m.val).heldBytes ((s.dev.mac m.val).classOf m.val f.tag) + f.length)) ∧
  ((∀ (s : State) (m : MacId) (c : ClassId), s.dev.live = true → (s.dev.mac m.val).xoff.getLsbD c.val = true →
    (s.dev.mac m.val).pauseCause.getLsbD c.val = false →
    ((partitionSize m.val c.val).2.2 < (s.dev.mac m.val).heldBytes c.val →
      ∃ d', exec (.pfcRefresh m c) s = .next { s with dev := d' } ∧
        d'.out = .pfc m.val (setBit 0 c.val true) 0xFFFF :: s.dev.out ∧ (d'.mac m.val).xoff.getLsbD c.val = true ∧
        (d'.mac m.val).pfcSent.get 0 c.val = bump ((s.dev.mac m.val).pfcSent.get 0 c.val)) ∧
    ((s.dev.mac m.val).heldBytes c.val ≤ (partitionSize m.val c.val).2.2 →
      ∃ d', exec (.pfcXonRelease m c) s = .next { s with dev := d' } ∧
        d'.out = .pfc m.val (setBit 0 c.val true) 0 :: s.dev.out ∧
        (d'.mac m.val).xoff = setBit (s.dev.mac m.val).xoff c.val false ∧
        (d'.mac m.val).pfcSent.get 0 c.val = bump ((s.dev.mac m.val).pfcSent.get 0 c.val))) ∧
  (∀ (s : State) (m : MacId) (c : ClassId), s.dev.live = true → (s.dev.mac m.val).xoff.getLsbD c.val = true →
    (s.dev.mac m.val).pauseCause.getLsbD c.val = true →
    ((partitionSize m.val c.val).2.2 < (s.dev.mac m.val).heldBytes c.val →
      ∃ d', exec (.pfcRefresh m c) s = .next { s with dev := d' } ∧ d'.out = .pause m.val 0xFFFF :: s.dev.out) ∧
    ((s.dev.mac m.val).heldBytes c.val ≤ (partitionSize m.val c.val).2.2 →
      ∃ d', exec (.pfcXonRelease m c) s = .next { s with dev := d' } ∧
        (d'.mac m.val).xoff = setBit (s.dev.mac m.val).xoff c.val false ∧
        (d'.mac m.val).pauseCause = setBit (s.dev.mac m.val).pauseCause c.val false ∧
        d'.out = (if setBit (s.dev.mac m.val).pauseCause c.val false = 0 then .pause m.val 0 :: s.dev.out else s.dev.out))) ∧
  (∀ (s : State) (m : MacId) (f : Frame) (enables : Byte) (times : List W16), s.dev.live = true → m.val < 64 →
    s.dev.portReady m.val = true → s.dev.pfail.flush = .none → f.fcsOk = true → f.fecBad = 0 → 64 ≤ f.length →
    f.length ≤ 1518 → f.body = .macControl 0x0101 enables times →
    ∃ d', exec (.frameReceive m f) s = .next { s with dev := d' } ∧
      ∀ c, c < 8 → (d'.mac m.val).held.getLsbD c =
        (if enables.getLsbD c && (s.dev.mac m.val).pfcCfg.getLsbD c then times.getD c 0 != 0
         else (s.dev.mac m.val).held.getLsbD c)) ∧
  (∀ (s : State) (m : MacId) (c : ClassId), s.dev.live = true →
    (s.dev.mac m.val).pausePassed s.dev.chip.tick c.val = true →
    ∃ d', exec (.pfcTimerExpiry m (some c)) s = .next { s with dev := d' } ∧
      (d'.mac m.val).held = setBit (s.dev.mac m.val).held c.val false ∧
      (d'.mac m.val).pauseHeld = (s.dev.mac m.val).pauseHeld) ∧
  (∀ (s : State) (m : MacId), s.dev.live = true → (s.dev.mac m.val).pausePassed s.dev.chip.tick 8 = true →
    ∃ d', exec (.pfcTimerExpiry m none) s = .next { s with dev := d' } ∧ (d'.mac m.val).pauseHeld = false ∧
      (d'.mac m.val).held = (s.dev.mac m.val).held) ∧
  (∀ (s : State) (m : MacId) (q : Option ClassId),
    (s.dev.mac m.val).pausePassed s.dev.chip.tick (queueNumber q) = false → exec (.pfcTimerExpiry m q) s = .next s) ∧
  (∀ (s : State) (m : MacId) (q : Option ClassId), s.dev.live = true →
    (match q with | some c => (s.dev.mac m.val).held.getLsbD c.val | none => (s.dev.mac m.val).pauseHeld) = true →
    (s.dev.mac m.val).heldTold.getLsbD (queueNumber q) = false →
    (s.dev.mac m.val).heldSince.get 0 (queueNumber q) + 100 ≤ s.dev.chip.tick →
    ∃ d', exec (.priorityHeld100ms m q) s = .next { s with dev := d' } ∧
      d' = Dev.report (macRegion m.val) (macBlock m.val) (q.elim 0 Fin.val) 0x9005 [m.val, queueNumber q, 0, 0, 0]
        (s.dev.onMac m.val fun c => { c with heldTold := setBit c.heldTold (queueNumber q) true })))

/-- A MAC whose link is up sends the oldest frame of a queue that is not held, or a message of management firmware,
whose timestamp waits in the queue of MAC_TS_POP where it is not written into the message; the frame carries the
port's own address as its source and the checksums that transmission generates; in near-end loopback nothing reaches
the line. Where the one-step stamp lies is the model's choice (log entry 15). Rests on R252, R266, R270, R278, R279,
R287. -/
def Obligations.FramesLeaveInOrder : Prop :=
  (∀ (s : State) (m : MacId) (c : ClassId) (f : OutFrame) (rest : List OutFrame), s.dev.macWorks m.val = true →
    (s.dev.mac m.val).maySend c.val = true → (s.dev.pfail.flush = .none ∨ s.dev.pfail.flush = .closing) →
    (s.dev.mac m.val).cfg.getLsbD 2 = false → (s.dev.mac m.val).egress.get [] c.val = f :: rest →
    ∃ d', exec (.frameTransmit m c none) s = .next { s with dev := d' } ∧
      d'.out = .frame m.val { f with srcMac := (s.dev.mac m.val).ownMac s.fuses m.val } :: s.dev.out ∧
      (d'.mac m.val).egress.get [] c.val = rest ∧ (d'.mac m.val).txFrames = bump (s.dev.mac m.val).txFrames ∧
      ∀ k, k ≠ m.val → d'.mac k = s.dev.mac k) ∧
  (∀ (s : State) (m : MacId) (c : ClassId) (f : OutFrame) (rest : List OutFrame), s.dev.macWorks m.val = true →
    (s.dev.mac m.val).maySend c.val = true → (s.dev.pfail.flush = .none ∨ s.dev.pfail.flush = .closing) →
    (s.dev.mac m.val).cfg.getLsbD 2 = true → (s.dev.mac m.val).egress.get [] c.val = f :: rest →
    ∃ d', exec (.frameTransmit m c none) s = .next { s with dev := d' } ∧
      (d'.mac m.val).txFrames = bump (s.dev.mac m.val).txFrames ∧
      ∀ g, Output.frame m.val g ∈ d'.out → Output.frame m.val g ∈ s.dev.out) ∧
  (∀ (f : OutFrame) (n : Nat), foldCarry (wordSum (f.ipv4Header n)) = 65535 ∧ (f.ipv4Header n).getD 6 0 = 0x40) ∧
  (∀ f : OutFrame, f.proto = .udp →
    f.checksum ≠ 0 ∧ foldCarry (wordSum (f.pseudo ++ putWord 6 f.checksum f.segment)) = 65535) ∧
  (∀ (s : State) (m : MacId) (c : ClassId) (fw : FirmwareFrame), s.dev.macWorks m.val = true →
    (s.dev.mac m.val).cfg.getLsbD 2 = false → (s.dev.mac m.val).maySend c.val = true → (s.dev.pfail.flush = .none ∨ s.dev.pfail.flush = .closing) →
    (s.dev.mac m.val).tsCfg.getLsbD 1 = true → (s.dev.mac m.val).tsCfg.getLsbD (if fw.l2 then 2 else 3) = true →
    fw.oneStep = false → (s.dev.mac m.val).tsQueue.length < 64 →
    ∃ d' f, exec (.frameTransmit m c (some fw)) s = .next { s with dev := d' } ∧ d'.out = .frame m.val f :: s.dev.out ∧
      f.payload = fw.message ∧ (d'.mac m.val).tsQueue =
        (s.dev.mac m.val).tsQueue ++ [{ seconds := s.dev.net.ptp.seconds, ns := s.dev.net.ptp.ns, tag := fw.tag }]) ∧
  (∀ (s : State) (m : MacId) (by_ : Requester), s.dev.live = true → by_ ≠ .pf0 →
    exec (.macTsPop m by_) s =
      .next { s with dev := s.dev.onMac m.val fun c => { c with tsQueue := c.tsQueue.drop 1 } })

/-- A port that its group's layout gives a MAC brings its link up and loses it; MAC_CFG enables and disables the MAC,
and the layout is read when the first MAC of a group is enabled. An ANNOUNCE of another device makes or refreshes its
partner entry, which expires after three intervals; the device announces itself on its ports once a second. Where a
clause counts time it does so in whole ticks of 1 ms: the model's choice (log entry 4). The partner slot taken and the
ANNOUNCE counter are the model's choices (log entry 19). Rests on R29, R261, R262, R281, R283, R308, R309. -/
def Obligations.LinksLayoutsAndPartners : Prop :=
  ((∀ (s : State) (m : MacId), s.dev.live = true → s.dev.portReady m.val = true → (s.dev.mac m.val).linkUp = false →
    ∃ d', exec (.linkUp m) s = .next { s with dev := d' } ∧
      d'.mac m.val = { s.dev.mac m.val with linkUp := true, rxLocalFault := false, rxRemoteFault := false } ∧
      ∀ k, k ≠ m.val → d'.mac k = s.dev.mac k) ∧
  (∀ (s : State) (m : MacId) (cause : LinkDownCause),
    (if cause = .negotiation then s.dev.live = true ∧ s.dev.portReady m.val = true ∧ (s.dev.mac m.val).negotiates = true
      else s.dev.running = true ∧ (s.dev.mac m.val).linkUp = true) →
    ∃ d', exec (.linkDown m cause) s = .next { s with dev := d' } ∧ (d'.mac m.val).linkUp = false ∧
      (d'.mac m.val).linkDowns = bump (s.dev.mac m.val).linkDowns ∧
      (d'.mac m.val).rxLocalFault = (cause == .localFault) ∧ (d'.mac m.val).rxRemoteFault = (cause == .remoteFault)) ∧
  (∀ (s : State) (m : MacId) (by_ : Requester) (v : W32), s.dev.live = true → by_ ≠ .pf0 → m.val < 64 →
    (∀ k, k < 8 → (s.dev.mac (m.val / 8 * 8 + k)).enabled = false) →
    bit (bits (s.dev.region (m.val / 8)).netCfg.toNat 2 8) (m.val % 8) = true → v.getLsbD 0 = true →
    ∃ d', exec (.macEnable m by_ v) s = .next { s with dev := d' } ∧ (d'.mac m.val).enabled = true ∧
      (d'.mac m.val).noPort = false ∧ (d'.region (m.val / 8)).layout = (s.dev.region (m.val / 8)).netCfg ∧
      (d'.region (m.val / 8)).badLayout = !layoutLegal (s.dev.region (m.val / 8)).netCfg.toNat) ∧
  (∀ (s : State) (m : MacId) (by_ : Requester) (v : W32), s.dev.live = true → by_ ≠ .pf0 → v.getLsbD 0 = false →
    (s.dev.mac m.val).linkUp = true →
    ∃ d', exec (.macDisable m by_ v) s = .next { s with dev := d' } ∧ (d'.mac m.val).linkUp = false ∧
      (d'.mac m.val).cfg = setBit (v &&& if m.val < 64 then 0x7FFF7 else 0x7FFFF) 0 false ∧
      (d'.mac m.val).linkDowns = bump (s.dev.mac m.val).linkDowns) ∧
  (∀ (s : State) (m : MacId) (by_ : Requester) (v : W32), s.dev.live = true → by_ ≠ .pf0 → v.getLsbD 0 = false →
    (s.dev.mac m.val).linkUp = false →
    exec (.macDisable m by_ v) s = .next { s with dev := s.dev.onMac m.val fun c =>
      { c with cfg := setBit (v &&& if m.val < 64 then 0x7FFF7 else 0x7FFFF) 0 false } }) ∧
  (∀ (s : State) (m : MacId) (v : W32), s.dev.live = true →
    exec (.macEnable m .pf0 v) s =
      .next { s with dev := { s.dev with pcie := { s.dev.pcie with blocked := bump s.dev.pcie.blocked } } })) ∧
  ((∀ (s : State) (m : MacId) (x : RxFrame) (rest : List RxFrame) (e : Nat), s.dev.Head m.val 8 x rest →
    x.total = 64 → x.offset = 0 → x.body.length = 64 → beAt x.body 12 4 ≠ 0 →
    BitVec.ofNat 64 (beAt x.body 0 8) ≠ s.fuses.deviceId →
    ((∃ p, s.dev.net.partners.find? (fun q => q.2.deviceId == BitVec.ofNat 64 (beAt x.body 0 8)) = some (e, p)) ∨
     (s.dev.net.partners.find? (fun q => q.2.deviceId == BitVec.ofNat 64 (beAt x.body 0 8)) = none ∧
      partnerSlot s.dev.net.partners = some e)) →
    ∃ d' p, exec (.jenlothAnnounce m) s = .next { s with dev := d' } ∧ d'.net.partners.get? e = some p ∧
      p.deviceId = BitVec.ofNat 64 (beAt x.body 0 8) ∧ p.state = 1 ∧ p.mac = m.val ∧ p.addr = x.src ∧
      p.lastSeen = s.dev.chip.tick ∧ p.interval = BitVec.ofNat 32 (beAt x.body 12 4) ∧ (d'.mac m.val).rx = rest) ∧
  (∀ (s : State) (m : MacId), s.dev.serving = true → m.val < 64 → (s.dev.mac m.val).linkUp = true →
    s.dev.net.discMask.getLsbD m.val = true → (s.dev.mac m.val).ipv4 ≠ 0 → (s.dev.mac m.val).ipv6a = 0 →
    ∃ d' f body, exec (.announceSend m) s = .next { s with dev := d' } ∧ d'.net.annSent = bump s.dev.net.annSent ∧
      (d'.mac m.val).egress.get [] 0 = (s.dev.mac m.val).egress.get [] 0 ++ [f] ∧ f.dst = announceV4 ∧
      f.payload = jenMessage 3 8 0 0 (d'.net.annSent % 2 ^ 32) 64 0 body ∧ body.take 8 = beBytes 8 s.fuses.deviceId.toNat) ∧
  (∀ (s : State) (e : Fin 4096) (p : Partner), s.dev.live = true → s.dev.net.partners.get? e.val = some p → p.state = 1 →
    p.lastSeen + 3 * p.interval.toNat ≤ s.dev.chip.tick →
    ∃ d', exec (.partnerExpiry e) s = .next { s with dev := d' } ∧
      d'.net.partners.get? e.val = some { p with state := 2 } ∧
      ∀ k, k ≠ e.val → d'.net.partners.get? k = s.dev.net.partners.get? k))

/-- The PTP clock is read, set and stepped, and 1PPS drives and latches it. Rests on R277, R280, R288. -/
def Obligations.PtpClockFollowsItsRegisters : Prop :=
  (∀ (s : State) (by_ : Requester), s.dev.running = true → by_ ≠ .pf0 →
    exec (.ptpTimeRead by_) s = .next { s with dev := { s.dev with net := { s.dev.net with
      ptp := { s.dev.net.ptp with timeHi := BitVec.ofNat 16 (s.dev.net.ptp.seconds / 2 ^ 32) } } } }) ∧
  (∀ (s : State) (by_ : Requester) (v : W64), s.dev.live = true → by_ ≠ .pf0 → bits v.toNat 0 30 < 1000000000 →
    exec (.ptpSet by_ v) s = .next { s with dev := { s.dev with net := { s.dev.net with
      ptp := { s.dev.net.ptp with
        seconds := bits v.toNat 32 32 + s.dev.net.ptp.setHi.toNat * 2 ^ 32, ns := bits v.toNat 0 30
        ppsDue := false } } } }) ∧
  (∀ (s : State) (by_ : Requester) (v : W32), s.dev.live = true → by_ ≠ .pf0 →
    ∃ d', exec (.ptpAdjStep by_ v) s = .next { s with dev := d' } ∧ d'.net.ptp.ns < 1000000000 ∧
      (0 ≤ s.dev.net.ptp.total + v.toInt → s.dev.net.ptp.total + v.toInt < 2 ^ 48 * 1000000000 →
        d'.net.ptp.total = s.dev.net.ptp.total + v.toInt)) ∧
  (∀ s : State, s.dev.live = true → s.dev.net.ptp.ppsCfg.getLsbD 0 = true → s.dev.net.ptp.ppsDue = true →
    ∃ w d', exec .ppsOutPulse s = .next { s with dev := d' } ∧ d'.out = .ppsPulse w :: s.dev.out ∧ 1 ≤ w ∧ w ≤ 999 ∧ d'.net.ptp.ppsDue = false ∧
      (1 ≤ bits s.dev.net.ptp.ppsCfg.toNat 3 10 → bits s.dev.net.ptp.ppsCfg.toNat 3 10 ≤ 999 →
        w = bits s.dev.net.ptp.ppsCfg.toNat 3 10)) ∧
  (∀ (s : State) (falling : Bool), s.dev.live = true → s.dev.net.ptp.ppsCfg.getLsbD 1 = true →
    s.dev.net.ptp.ppsCfg.getLsbD 2 = falling →
    exec (.ppsInEdge falling) s = .next { s with dev := { s.dev with net := { s.dev.net with
      ptp := { s.dev.net.ptp with
        capSeconds := s.dev.net.ptp.seconds, capNs := s.dev.net.ptp.ns, ppsIn := s.dev.net.ptp.ppsIn + 1 } } } })

/-- An OPEN makes a session with the lowest free number of its port group and a cookie of the DRBG; PING answers PONG;
a CLOSE with nothing in flight, and the idle time, end the session. Where a clause counts time it does so in whole
ticks of 1 ms: the model's choice (log entry 4). A CLOSE drops requests in reassembly: the model's choice (log entry
19). Rests on R294, R295, R307. -/
def Obligations.SessionsOpenAndEnd : Prop :=
  (∀ (s : State) (m : MacId) (x : RxFrame) (rest : List RxFrame) (i : Nat), s.dev.Head m.val 2 x rest →
    x.total = 16 → x.offset = 0 → x.body.length = 16 → zeroRange x.body 14 2 = true → 1518 ≤ beAt x.body 12 2 →
    beAt x.body 12 2 ≤ 9216 →
    (∀ e ∈ s.dev.net.sessions, ¬(e.2.nonce = BitVec.ofNat 64 (beAt x.body 0 8) ∧ e.2.src = x.src ∧
      e.2.srcPort = x.srcPort ∧ e.2.mac = m.val ∧ e.2.gen = x.gen ∧ e.2.closers = 0)) →
    (i < groupSize (macRegion m.val) ∧ ∀ k, k ≤ i →
      ((s.dev.net.sessions.get? (groupBase (macRegion m.val) + k)).isNone = true ↔ k = i)) →
    ∃ d' y f body, exec (.jenlothOpen m) s = .next { s with dev := d' } ∧
      d'.net.sessions.get? (groupBase (macRegion m.val) + i) = some y ∧
      y.cookie = (Config.drbg s.dev.free).setWidth 32 ∧ d'.free = s.dev.free + 1 ∧
      y.seq0 = BitVec.ofNat 32 (beAt x.body 8 4) ∧ y.nextSeq = y.seq0 ∧ y.ruleset = x.ruleset ∧
      y.nsDefault = x.nsDefault ∧ y.ceiling = x.ceiling ∧ y.maxFrame = beAt x.body 12 2 ∧ (d'.mac m.val).rx = rest ∧
      (d'.mac m.val).egress.get [] x.cls = (s.dev.mac m.val).egress.get [] x.cls ++ [f] ∧
      f.payload = jenMessage x.gen 0x82 (wireSession (groupBase (macRegion m.val) + i)) y.cookie.toNat x.seq.toNat 40 0 body ∧
      body.take 9 = beBytes 8 y.nonce.toNat ++ [stOk]) ∧
  (∀ (s : State) (m : MacId) (x : RxFrame) (rest : List RxFrame) (n : Nat) (y : Session), s.dev.Head m.val 5 x rest →
    s.dev.sessionFor m.val x = some (n, y) → x.empty = true →
    ∃ d' f, exec (.jenlothPing m) s = .next { s with dev := d' } ∧ (d'.mac m.val).rx = rest ∧
      d'.net.sessions.get? n =
        some { y with lastTick := s.dev.chip.tick, vid := x.vid, dstPort := x.dstPort, ether := x.ether, own := x.own } ∧
      (d'.mac m.val).egress.get [] x.cls = (s.dev.mac m.val).egress.get [] x.cls ++ [f] ∧
      f.payload = jenMessage y.gen 0x85 (wireSession n) y.cookie.toNat 0 0 0 []) ∧
  (∀ (s : State) (m : MacId) (x : RxFrame) (rest : List RxFrame) (n : Nat) (y : Session), s.dev.Head m.val 3 x rest →
    s.dev.sessionFor m.val x = some (n, y) → x.empty = true → y.closers = 0 → y.inFlight = false →
    ∃ d' f, exec (.jenlothClose m) s = .next { s with dev := d' } ∧ d'.net.sessions.get? n = none ∧
      (d'.mac m.val).egress.get [] 0 = (s.dev.mac m.val).egress.get [] 0 ++ [f] ∧
      f.payload = jenMessage y.gen 0x83 (wireSession n) y.cookie.toNat 0 4 0 [stOk, 0, 0, 0]) ∧
  (∀ (s : State) (n : Nat) (y : Session), s.dev.live = true → s.dev.net.sessions.get? n = some y →
    y.lastTick + s.dev.net.idleMs ≤ s.dev.chip.tick →
    ∃ d', exec (.sessionIdleExpiry n) s = .next { s with dev := d' } ∧ d'.net.sessions.get? n = none ∧
      ∀ k, k ≠ n → d'.net.sessions.get? k = s.dev.net.sessions.get? k)

/-- The next number in one frame becomes a coach that is admitted in its turn; a number that ended replays its
outcome; an ABORT ends a coach before its commit point; a message that stays incomplete, and a number that never
comes, are passed. Where a clause counts time it does so in whole ticks of 1 ms: the model's choice (log entry 4). An
ABORT of a number that never came is the model's choice (log entry 19). Rests on R54, R296, R301 to R305. -/
def Obligations.RequestsThroughTheWindow : Prop :=
  (∀ (s : State) (m : MacId) (x : RxFrame) (rest : List RxFrame) (n : Nat) (y : Session), s.dev.Head m.val 1 x rest →
    s.dev.sessionFor m.val x = some (n, y) → y.window = [] → x.seq = y.high + 1 → y.nextSeq = x.seq →
    x.offset = 0 → x.body.length = x.total → x.total ≤ 67117576 →
    ∃ d' y' c, exec (.jenlothRequest m) s = .next { s with dev := d' } ∧ (d'.mac m.val).rx = rest ∧
      d'.coach? s.dev.eng.nextCoach = some c ∧ c.stage = .arrived ∧ c.source = .session n x.seq ∧
      c.order = s.dev.eng.nextStamp ∧ d'.eng.nextCoach = s.dev.eng.nextCoach + 1 ∧
      d'.net.sessions.get? n = some y' ∧ y'.entry x.seq = some (.inFlight s.dev.eng.nextCoach) ∧ y'.high = x.seq ∧
      y'.nextSeq = x.seq + 1) ∧
  (∀ (s : State) (m : MacId) (x : RxFrame) (rest : List RxFrame) (n : Nat) (y : Session) (o : W32) (fields : Bytes)
      (partly : Bool) (k : Nat), s.dev.Head m.val 1 x rest → s.dev.sessionFor m.val x = some (n, y) → y.gen ≠ 1 →
    -64 < seqDiff x.seq y.high → seqDiff x.seq y.high ≤ 0 → y.entry x.seq = some (.replayable o fields partly k) →
    x.offset = 0 →
    ∃ d' f, exec (.jenlothRequest m) s = .next { s with dev := d' } ∧ d'.eng = s.dev.eng ∧
      (d'.mac m.val).egress.get [] x.cls = (s.dev.mac m.val).egress.get [] x.cls ++ [f] ∧
      f.payload = jenMessage y.gen 0x81 (wireSession n) y.cookie.toNat x.seq.toNat (8 + fields.length) 0
        (beBytes 4 o.toNat ++ [stReplayed, BitVec.ofNat 8 (b2n partly)] ++ beBytes 1 k ++ [0] ++ fields)) ∧
  (∀ (s : State) (m : MacId) (x : RxFrame) (rest : List RxFrame) (n : Nat) (y : Session) (i : Nat) (c : Coach),
    s.dev.Head m.val 4 x rest → s.dev.sessionFor m.val x = some (n, y) → x.empty = true →
    -64 < seqDiff x.seq y.high → seqDiff x.seq y.high ≤ 0 → y.entry x.seq = some (.inFlight i) →
    s.dev.coach? i = some c → c.stage ≠ .ended → c.run.flags.committed = false →
    ∃ d' c', exec (.jenlothAbort m) s = .next { s with dev := d' } ∧ d'.coach? i = some c' ∧ c'.stage = .ended ∧
      c'.final = stAborted ∧ c'.aborted = true ∧ c'.acks = c.acks ++ [stOk] ∧ c'.run.resp = []) ∧
  (∀ (s : State) (n : Nat) (q : W32) (y : Session) (total last cls : Nat) (parts : List (Nat × Bytes)) (again : Bool)
      (peer : Peer),
    s.dev.live = true → s.dev.net.sessions.get? n = some y →
    y.entry q = some (.reassembling total parts last cls again peer) → last + s.dev.net.gapMs ≤ s.dev.chip.tick →
    ∃ d' y' f, exec (.reassemblyTimeout n q) s = .next { s with dev := d' } ∧
      d'.net.sessions.get? n = some y' ∧ y'.entry q = some .passed ∧
      (d'.mac y.mac).egress.get [] cls = (s.dev.mac y.mac).egress.get [] cls ++ [f] ∧
      f.payload = jenMessage y.gen 0x81 (wireSession n) y.cookie.toNat q.toNat
        (bareBody y.gen stReassemblyTimeout).length 0 (bareBody y.gen stReassemblyTimeout)) ∧
  (∀ (s : State) (n : Nat) (y : Session) (k i since : Nat), s.dev.live = true → s.dev.net.sessions.get? n = some y →
    (k, Entry.held i since) ∈ y.window → since + s.dev.net.gapMs ≤ s.dev.chip.tick → y.entry y.nextSeq = none →
    ∃ d' y', exec (.gapPassed n) s = .next { s with dev := d' } ∧ d'.net.sessions.get? n = some y' ∧
      y'.entry y.nextSeq = some .passed)

/-- A request that has arrived is admitted to its home region where that is open and has room, and else answered
`UNAVAILABLE`; the dispatcher gives it a free context or rejects its program. Rests on R33 to R35, R41, R66, R237,
R248. -/
def Obligations.CoachesAreAdmittedAndDispatched : Prop :=
  (∀ (s : State) (i : Nat) (c : Coach), s.dev.coach? i = some c → c.stage = .arrived →
    (if c.privileged then s.dev.managementOpen else s.dev.serving) = true → s.dev.pfail.flush = .none →
    ((c.privileged = true ∨ s.dev.closedRegion (s.dev.homeRegion c) = false) →
      s.dev.queueRoom c (s.dev.homeRegion c) (s.dev.admissionClass c) = true →
      ∃ d', exec (.coachAdmission i) s = .next { s with dev := d' } ∧
        d'.coach? i = some { c with stage := .admitted, home := s.dev.homeRegion c, cls := s.dev.admissionClass c,
                                    clsNow := s.dev.admissionClass c, stamp := s.dev.eng.nextStamp,
                                    streamHeld := s.dev.boundStream c.source
                                    classWait := s.dev.admissionClass c == 7 && s.dev.sevenFull (s.dev.homeRegion c) } ∧
        d'.eng.nextStamp = s.dev.eng.nextStamp + 1 ∧ d'.nv = s.dev.nv) ∧
    (c.privileged = false → s.dev.closedRegion (s.dev.homeRegion c) = true →
      ∃ d' c', exec (.coachAdmission i) s = .next { s with dev := d' } ∧ d'.coach? i = some c' ∧ c'.stage = .ended ∧
        c'.final = stUnavailable ∧ c'.run.resp = [])) ∧
  (∀ (s : State) (i k : Nat) (c : Coach), s.dev.coach? i = some c → c.stage = .admitted →
    s.dev.pathRuns c.privileged = true → s.dev.pcie.wakeTick ≤ s.dev.chip.tick → s.dev.mustWait i c = false →
    s.dev.clusterFor c = some k →
    (∀ x, c.rejection = none → s.dev.chooseContext k c.cls c.classWait = some x → c.faults = 0 → c.saved = none →
      ∃ d' c', exec (.coachDispatch i) s = .next { s with dev := d' } ∧ d'.coach? i = some c' ∧ c'.stage = .running ∧
        c'.ctx = some x ∧ c'.given = none ∧ c'.started = s.dev.chip.tick ∧ c'.timeout = (s.dev.cluster (clusterOf x)).timeout.toNat ∧
        c'.run = { g := List.replicate 14 0 ++ [BitVec.ofNat 64 c.inbound.length, c.arrivalWord]
                   nsReg := c.defaultNs } ∧
        ∀ j, j ≠ i → d'.coach? j = s.dev.coach? j) ∧
    (c.rejection = none → s.dev.chooseContext k c.cls c.classWait = none → c.privileged = false →
      ∃ d', exec (.coachDispatch i) s = .next { s with dev := d' } ∧ d'.coach? i = some { c with given := some k } ∧
        ∀ j, j ≠ i → d'.coach? j = s.dev.coach? j) ∧
    (∀ st at_, c.rejection = some (st, at_) →
      ∃ d' c', exec (.coachDispatch i) s = .next { s with dev := d' } ∧ d'.coach? i = some c' ∧ c'.stage = .ended ∧
        c'.final = st ∧ c'.run.last = at_ ∧ c'.run.resp = [] ∧
        (d'.cluster k).rejects = bump (s.dev.cluster k).rejects))

/-- The general instructions do what their table says, and none sets the status register: NOP changes nothing; MOVI
loads an immediate, its sign extension or the upper 24 bits; MOV copies a register or reads the flags, the status, a
length, the namespace or the loop count; ADD to SHR write their result to gd, set z where it is 0, and c to the carry
or borrow of ADD and SUB, 0 for the others, and shift by 0 to 63; CMP compares unsigned. A program is rejected where
an immediate bit is set that MOVI or a shift does not use. (R83.) -/
def Obligations.GeneralInstructionsActAsGiven : Prop :=
  runsAs .nop 0x00 (fun _ _ => True) (fun _ c => c.run.retire) ∧
  runsAs .movi 0x01 (fun _ c => c.current.m = 0)
    (fun _ c => { c.run.retire with g := c.run.g.set c.current.d (BitVec.ofNat 64 c.current.imm) }) ∧
  runsAs .movi 0x01 (fun _ c => c.current.m = 1)
    (fun _ c => { c.run.retire with g := c.run.g.set c.current.d ((BitVec.ofNat 40 c.current.imm).signExtend 64) }) ∧
  runsAs .movi 0x01 (fun _ c => c.current.m = 2) (fun _ c => { c.run.retire with
    g := c.run.g.set c.current.d
      (BitVec.ofNat 64 (c.current.imm % 2 ^ 24 * 2 ^ 40 + (c.run.g.getD c.current.d 0).toNat % 2 ^ 40)) }) ∧
  runsAs .mov 0x02 (fun _ c => c.current.m ≤ 6) (fun _ c => { c.run.retire with
    g := c.run.g.set c.current.d (
      if c.current.m = 0 then c.run.g.getD c.current.a 0
      else if c.current.m = 1 then BitVec.ofNat 64 c.run.flags.word
      else if c.current.m = 2 then c.run.status.setWidth 64
      else if c.current.m = 3 then BitVec.ofNat 64 c.run.keyReg.length
      else if c.current.m = 4 then c.run.nsReg.setWidth 64
      else if c.current.m = 5 then BitVec.ofNat 64 c.run.fetch.length
      else BitVec.ofNat 64 c.run.loopCount) }) ∧
  computes .add 0x03 (fun x y => x + y) (fun x y => decide (2 ^ 64 ≤ x.toNat + y.toNat)) ∧
  computes .sub 0x04 (fun x y => x - y) (fun x y => decide (x.toNat < y.toNat)) ∧
  computes .and 0x05 (fun x y => x &&& y) (fun _ _ => false) ∧
  computes .or 0x06 (fun x y => x ||| y) (fun _ _ => false) ∧
  computes .xor 0x07 (fun x y => x ^^^ y) (fun _ _ => false) ∧
  computes .shl 0x08 (fun x y => x <<< (y.toNat % 64)) (fun _ _ => false) ∧
  computes .shr 0x09 (fun x y => x >>> (y.toNat % 64)) (fun _ _ => false) ∧
  runsAs .cmp 0x0A (fun _ _ => True) (fun _ c => { c.run.retire with flags := { c.run.flags with
    z := (c.run.reg c.current.a).toNat == (c.run.second c.current).toNat
    lt := decide ((c.run.reg c.current.a).toNat < (c.run.second c.current).toNat)
    gt := decide ((c.run.second c.current).toNat < (c.run.reg c.current.a).toNat) } }) ∧
  (∀ (priv : Bool) (prog : List W64) (i : Nat) (f : Fields), f.imm < 2 ^ 40 →
    ((f.op = 0x01 ∧ f.m = 2 ∧ 2 ^ 24 ≤ f.imm) ∨ ((f.op = 0x08 ∨ f.op = 0x09) ∧ f.m = 1 ∧ 2 ^ 6 ≤ f.imm)) →
    checkWord priv prog i f = some stIllegalInstruction)

/-- BR goes to its target, BRC where its condition holds; LOOP goes back until it has made its passes; END, the step
limit and the execution time end the coach. The CCLK periods since the coach was first dispatched come with the
command (log entry 4). (R85, R86; rests also on parts of R42, R45, R61, R72, R84 to R86.) -/
def Obligations.ControlFlowAndEnd : Prop :=
  runsAs .br 0x10 (fun _ _ => True) (fun _ c =>
    { c.run with steps := c.run.steps + 1, last := c.run.pc, pc := c.current.imm % 64 }) ∧
  runsAs .brc 0x11 (fun _ _ => True) (fun _ c =>
    { c.run with steps := c.run.steps + 1, last := c.run.pc
                 pc := if c.run.flags.holds c.current.m then c.current.imm % 64 else c.run.pc + 1 }) ∧
  runsAs .loop 0x12 (fun _ c => (if c.run.loopOwner = some c.run.pc then c.run.loopCount else 0) + 1 <
      bits c.current.imm 8 5) (fun _ c =>
    { c.run with steps := c.run.steps + 1, last := c.run.pc, pc := c.current.imm % 64, loopOwner := some c.run.pc
                 loopCount := (if c.run.loopOwner = some c.run.pc then c.run.loopCount else 0) + 1 }) ∧
  runsAs .loop 0x12 (fun _ c => bits c.current.imm 8 5 ≤
      (if c.run.loopOwner = some c.run.pc then c.run.loopCount else 0) + 1) (fun _ c =>
    { c.run with steps := c.run.steps + 1, last := c.run.pc, pc := c.run.pc + 1, loopOwner := some c.run.pc
                 loopCount := 0 }) ∧
  (∀ (s : State) (ctx : CtxId) (i : Nat) (c : Coach), s.dev.At ctx i c 0x13 →
    ∃ d' c', exec (.end_ ctx) s = .next { s with dev := d' } ∧ d'.coach? i = some c' ∧ c'.stage = .ended ∧
      c'.final = (if c.set.isSome ∧ c.run.status = stOk then stAborted else c.run.status) ∧ c'.run.resp = c.run.resp ∧
      c'.ctx = none ∧ c'.set = none ∧
      c'.run.steps = (if c.run.pc < c.program.length then c.run.steps + 1 else c.run.steps) ∧
      (d'.cluster (clusterOf ctx.val)).progs = bump (s.dev.cluster (clusterOf ctx.val)).progs) ∧
  (∀ (s : State) (ctx : CtxId) (i : Nat) (c : Coach), s.dev.coach? i = some c → s.dev.coachIn ctx.val = some (i, c) →
    s.dev.pathRuns c.privileged = true →
    (256 ≤ c.run.steps → c.run.pc < c.program.length →
      ∃ d' c', exec (.stepLimitReached ctx) s = .next { s with dev := d' } ∧ d'.coach? i = some c' ∧ c'.stage = .ended ∧
        c'.final = stStepLimit ∧ c'.run.resp = [] ∧ c'.ctx = none) ∧
    (256 ≤ c.run.steps → c.program.length ≤ c.run.pc → c.wait = .none → c.set = none →
      ∃ d' c', exec (.end_ ctx) s = .next { s with dev := d' } ∧ d'.coach? i = some c' ∧ c'.stage = .ended ∧
        c'.final = c.run.status ∧ c'.run = c.run) ∧
    (∀ n : Nat, (c.timeout + 1) * 160000 ≤ n → n < (s.dev.chip.tick - c.started + 1) * 1600000 →
      ∃ d' c', exec (.executionTimeout ⟨ctx, n⟩) s = .next { s with dev := d' } ∧ d'.coach? i = some c' ∧ c'.stage = .ended ∧
        c'.final = stTimeout ∧ c'.run.resp = [] ∧ c'.ctx = none ∧
        (d'.cluster (clusterOf ctx.val)).traps = bump (s.dev.cluster (clusterOf ctx.val)).traps))

/-- RESP appends a field, and ends the coach where there is none; KEY loads the key register; NSP selects a namespace
that is ACTIVE and granted, at the lower of the coach's class and its ceiling, and any other gives
`NAMESPACE_UNKNOWN`. Rests on R65, R67, R87, R88, R106. -/
def Obligations.ResponseAndSelection : Prop :=
  (∀ (b : Bytes) (l : List RespField), runsAs .resp 0x3C
    (fun _ c => c.respField c.current = some b ∧ appendField c.run.resp (.bytes b) = some l)
    (fun _ c => { c.run.retire with resp := l })) ∧
  (∀ (s : State) (ctx : CtxId) (i : Nat) (c : Coach), s.dev.At ctx i c 0x3C → c.respField c.current = none →
    ∃ d' c', exec (.resp ctx) s = .next { s with dev := d' } ∧ d'.coach? i = some c' ∧ c'.stage = .ended ∧
      c'.final = stIllegalValue) ∧
  (∀ k : Bytes, runsAs .key 0x20 (fun d c => d.fw.recovery ≠ 1 ∧ c.keySource c.current = some k)
    (fun _ c => { c.run.retire with keyReg := k, status := stOk, flags := { c.run.flags with err := false } })) ∧
  runsAs .key 0x20 (fun d c => d.fw.recovery ≠ 1 ∧ c.keySource c.current = none)
    (fun _ c => { c.run.retire with status := stIllegalValue, flags := { c.run.flags with err := true } }) ∧
  (∀ (s : State) (ctx : CtxId) (i : Nat) (c : Coach) (ns : W16), s.dev.At ctx i c 0x21 → s.dev.fw.recovery ≠ 1 →
    (if c.current.m = 0 then c.current.imm % 65536 else (c.run.reg c.current.a).toNat) = ns.toNat →
    (s.dev.nsActive ns = true → s.dev.granted c ns = true →
      ∃ d' c', exec (.nsp ctx) s = .next { s with dev := d' } ∧ d'.coach? i = some c' ∧ c'.run.nsReg = ns ∧
        c'.run.status = stOk ∧ c'.clsNow = min c.clsNow (s.dev.ns ns.toNat).ceiling ∧ ns ∈ c'.loaded) ∧
    (s.dev.nsActive ns = false ∨ s.dev.granted c ns = false →
      ∃ d' c', exec (.nsp ctx) s = .next { s with dev := d' } ∧ d'.coach? i = some c' ∧ c'.run.nsReg = 0 ∧
        c'.run.status = stNamespaceUnknown ∧ c'.clsNow = c.clsNow ∧ c'.loaded = c.loaded)) ∧
  (∀ (s : State) (ctx : CtxId) (i : Nat) (c : Coach), s.dev.At ctx i c 0x21 → s.dev.fw.recovery ≠ 1 → c.current.m = 1 →
    2 ^ 16 ≤ (c.run.reg c.current.a).toNat →
    ∃ d' c', exec (.nsp ctx) s = .next { s with dev := d' } ∧ s.dev.Becomes d' i c' ∧ c'.run = c.run.answers 0x1B)

/-- STATUS sets the status register to imm[7:0] with m = 0 and to ga[7:0] with m = 1, and `err` as that status says,
and changes no other flag; a code that it may not set gives `ILLEGAL_VALUE`. The codes that chapters assign are 0x20
to 0x25, 0x40 to 0x48, 0x60 to 0x66 and 0x70 to 0x77. (R107; rests also on parts of R107.) -/
def Obligations.StatusSetsTheStatusRegister : Prop :=
  (∀ v : Nat, runsAs .status 0x3D
    (fun _ c => v = (if c.current.m = 0 then c.current.imm else (c.run.reg c.current.a).toNat) % 256 ∧
      (v ≤ 0x17 ∨ v = 0x19 ∨ v = 0x1B ∨ v = 0x1C ∨ (0x20 ≤ v ∧ v ≤ 0x25) ∨ (0x40 ≤ v ∧ v ≤ 0x48) ∨
        (0x60 ≤ v ∧ v ≤ 0x66) ∨ (0x70 ≤ v ∧ v ≤ 0x77)))
    (fun _ c => { c.run.retire with
      status := BitVec.ofNat 8 v, flags := { c.run.flags with err := decide (v ≠ 0x00 ∧ v ≠ 0x0D) } })) ∧
  (∀ v : Nat, runsAs .status 0x3D
    (fun _ c => v = (if c.current.m = 0 then c.current.imm else (c.run.reg c.current.a).toNat) % 256 ∧
      ¬ (v ≤ 0x17 ∨ v = 0x19 ∨ v = 0x1B ∨ v = 0x1C ∨ (0x20 ≤ v ∧ v ≤ 0x25) ∨ (0x40 ≤ v ∧ v ≤ 0x48) ∨
        (0x60 ≤ v ∧ v ≤ 0x66) ∨ (0x70 ≤ v ∧ v ≤ 0x77)))
    (fun _ c => { c.run.retire with status := stIllegalValue, flags := { c.run.flags with err := true } }))

/-- HASH digests bytes [ga, ga + gb) of the inbound area with m[0] = 0 and of the fetch area with m[0] = 1: with m[1]
= 0 gd receives their CRC-32C, with m[1] = 1 their SHA-256 is appended as a field and gd receives its first eight
bytes; a range past the end of the area gives `ILLEGAL_VALUE` and changes nothing. (R104; rests also on parts of
R104.) -/
def Obligations.HashDigestsARange : Prop :=
  (∀ area bs : Bytes, runsAs .hash 0x38
    (fun d c => d.fw.recovery ≠ 1 ∧ c.current.m < 2 ∧ area = (if c.current.m = 1 then c.run.fetch else c.inbound) ∧
      (c.run.reg c.current.a).toNat + (c.run.reg c.current.b).toNat ≤ area.length ∧
      bs = slice area (c.run.reg c.current.a).toNat (c.run.reg c.current.b).toNat)
    (fun _ c => { c.run.retire with
      g := c.run.g.set c.current.d (BitVec.ofNat 64 (crc32c bs)), status := stOk
      flags := { c.run.flags with err := false } })) ∧
  (∀ (area bs : Bytes) (l : List RespField), runsAs .hash 0x38
    (fun d c => d.fw.recovery ≠ 1 ∧ (c.current.m = 2 ∨ c.current.m = 3) ∧
      area = (if c.current.m = 3 then c.run.fetch else c.inbound) ∧
      (c.run.reg c.current.a).toNat + (c.run.reg c.current.b).toNat ≤ area.length ∧
      bs = slice area (c.run.reg c.current.a).toNat (c.run.reg c.current.b).toNat ∧
      appendField c.run.resp (.bytes (sha256 bs)) = some l)
    (fun _ c => { c.run.retire with
      g := c.run.g.set c.current.d (BitVec.ofNat 64 (leNat ((sha256 bs).take 8))), resp := l, status := stOk
      flags := { c.run.flags with err := false } })) ∧
  (∀ area : Bytes, runsAs .hash 0x38
    (fun d c => d.fw.recovery ≠ 1 ∧ area = (if c.current.m = 1 ∨ c.current.m = 3 then c.run.fetch else c.inbound) ∧
      c.current.m < 4 ∧ area.length < (c.run.reg c.current.a).toNat + (c.run.reg c.current.b).toNat)
    (fun _ c => { c.run.retire with status := stIllegalValue, flags := { c.run.flags with err := true } }))

/-- The search of the directory that an instruction on a key makes counts in its region and changes nothing else; the
rules of the lookup then serve the key: GET fills the fetch area or attaches the value, GETR a range of it, HEAD gives
its metadata, at once or by the answer of a sub-request; a lookup that finds nothing ends with `NOT_FOUND`; an ITER at
the end of its walk lists nothing. Rests on R53, R80, R89 to R93, R100, R126, R128, R129, R148, R170. -/
def Obligations.ReadsServeTheNewestRecord : Prop :=
  (∀ (d e : Dev) (c : Coach) (r b : Nat), e = d.searched c r →
    Dev.agree { store := true } e d ∧ e.store = { d.store with banks := e.store.banks, regions := e.store.regions } ∧
    (∀ q, e.region q = { d.region q with dirWord := (e.region q).dirWord }) ∧
    e.bank b = { d.bank b with searches := (e.bank b).searches, c7Searches := (e.bank b).c7Searches } ∧
    (b ∉ dirBanks r → e.bank b = d.bank b) ∧
    (b ∈ dirBanks r → (d.bank b).searches < 2 ^ 64 - 1 → (d.bank b).searches < (e.bank b).searches)) ∧
  (∀ (s : State) (ctx : CtxId) (i : Nat) (c : Coach) (rd : ReadEnv) (e : Dev) (h : Hit) (r : Record),
    s.dev.Keyed ctx i c 0x22 → e = s.dev.searched c c.home →
    c.current.m = 0 → (e.lookFor c c.home c.run.nsReg c.run.keyReg true rd.headers).1.hit = some h →
    e.recordAt (h.addrs.headD 0) = some r → e.servesClosed h.addrs 0 r.totalLen true = false →
    firstFailure (e.readSegments h.addrs 0 1 rd.bodies) = stOk →
    (h.addrs.length = 1 → digestOf r.fixity (segBytes (e.readSegments h.addrs 0 1 rd.bodies)) = r.digest) →
    ∃ d' c', exec (.get ctx rd) s = .next { s with dev := d' } ∧ d'.coach? i = some c' ∧ c'.run.status = stOk ∧
      c'.run.fetch = (segBytes (e.readSegments h.addrs 0 1 rd.bodies)).take (min r.totalLen 16384) ∧
      c'.run.g = c.run.g.set c.current.d (BitVec.ofNat 64 h.version) ∧ c'.run.flags.found = true ∧
      c'.run.flags.pending = h.pending ∧ c'.run.flags.trunc = decide (16384 < r.totalLen) ∧ c'.run.pc = c.run.pc + 1) ∧
  (∀ (s : State) (ctx : CtxId) (i : Nat) (c : Coach) (rd : ReadEnv) (e : Dev) (h : Hit) (r : Record) (a : Attached)
      (resp : List RespField), s.dev.Keyed ctx i c 0x23 → e = s.dev.searched c c.home → c.current.m = 1 →
    (e.lookFor c c.home c.run.nsReg c.run.keyReg true rd.headers).1.hit = some h →
    e.recordAt (h.addrs.headD 0) = some r → c.run.num c.current.a ≤ r.totalLen →
    a = { ns := c.run.nsReg, fp := s.dev.fpFor c, home := c.home, addrs := h.addrs, totalLen := r.totalLen
          offset := c.run.num c.current.a
          length := if c.run.num c.current.b = 0 then r.totalLen - c.run.num c.current.a
            else min (c.run.num c.current.b) (r.totalLen - c.run.num c.current.a)
          hold := (s.dev.nsFor c c.run.nsReg.toNat).options / 2 % 2 == 1, fixity := r.fixity, digest := r.digest } →
    e.servesClosed h.addrs a.offset a.length false = false → e.keysHeld h.addrs = true →
    appendField c.run.resp (.attached a) = some resp →
    ∃ d', e.Becomes d' i { c with run := { c.run.retire with
      g := c.run.g.set c.current.d (BitVec.ofNat 64 h.version), resp := resp, status := stOk
      flags := { c.run.flags with err := false, found := true, pending := h.pending } } } ∧
      exec (.getr ctx rd) s = .next { s with dev := d'.cacheStep rd c.home (s.dev.fpFor c) (h.addrs.headD 0) } ∧
      (rd.keep = false → rd.evict = [] → d'.cacheStep rd c.home (s.dev.fpFor c) (h.addrs.headD 0) = d')) ∧
  (∀ (s : State) (ctx : CtxId) (i : Nat) (c : Coach) (rd : ReadEnv) (e : Dev) (h : Hit) (x : Record) (left : List ReadBack),
    s.dev.Keyed ctx i c 0x24 → e = s.dev.searched c c.home →
    (e.lookFor c c.home c.run.nsReg c.run.keyReg false rd.headers).1.hit = some h →
    e.readHeader (h.addrs.headD 0) (e.lookFor c c.home c.run.nsReg c.run.keyReg false rd.headers).1.left =
      (.found x, left) →
    ∃ d', exec (.head ctx rd) s = .next { s with dev := d' } ∧ e.Becomes d' i { c with run := { c.run.retire with
      fetch := metadataBlock x h.version h.pending h.entry, status := stOk
      g := c.run.g.set c.current.d (BitVec.ofNat 64
        (if c.current.m = 0 then h.version else if c.current.m = 1 then x.totalLen else x.writeTime))
      flags := { c.run.flags with err := false, found := true, pending := h.pending } } }) ∧
  (∀ (s : State) (ctx : CtxId) (i : Nat) (c : Coach) (rd : ReadEnv) (e : Dev) (con : CtxId → ReadEnv → Instr) (op : Nat)
      (always : Bool), (con, op, always) = (.get, 0x22, true) ∨ (con, op, always) = (.getr, 0x23, true) ∨
      (con, op, always) = (.head, 0x24, false) → s.dev.Keyed ctx i c op → e = s.dev.searched c c.home →
    (e.lookFor c c.home c.run.nsReg c.run.keyReg always rd.headers).1.hit = none →
    (e.lookFor c c.home c.run.nsReg c.run.keyReg always rd.headers).1.blocked = none →
    ∃ d' c', exec (con ctx rd) s = .next { s with dev := d' } ∧ e.Becomes d' i c' ∧ c'.run.status = stNotFound ∧
      c'.run.g = c.run.g.set c.current.d 0 ∧ c'.run.flags.found = false ∧ c'.run.flags.err = true ∧
      c'.run.pc = c.run.pc + 1) ∧
  (∀ (s : State) (ctx : CtxId) (i r : Nat) (c : Coach) (rd : ReadEnv) (e : Dev) (h : Hit) (x : Record) (left : List ReadBack),
    s.dev.coach? i = some c → s.dev.coachIn ctx.val = some (i, c) → s.dev.pathRuns c.privileged = true →
    c.wait = .subRequest r → c.current.op = 0x24 → s.dev.nsActive c.run.nsReg = true → c.run.keyReg ≠ [] →
    s.dev.homeOf c.run.nsReg c.run.keyReg = r → s.dev.regionGate r = none →
    s.dev.dirClean r (s.dev.dirKeyOf c.run.nsReg c.run.keyReg) = true → e = s.dev.searched c r →
    (e.lookFor c r c.run.nsReg c.run.keyReg false rd.headers).1.hit = some h →
    e.readHeader (h.addrs.headD 0) (e.lookFor c r c.run.nsReg c.run.keyReg false rd.headers).1.left = (.found x, left) →
    ∃ d', exec (.subRequestAnswer ctx rd) s = .next { s with dev := d' } ∧ e.Becomes d' i { c with
      wait := .none
      run := { c.run.retire with
        fetch := metadataBlock x h.version h.pending h.entry, status := stOk
        g := c.run.g.set c.current.d (BitVec.ofNat 64
          (if c.current.m = 0 then h.version else if c.current.m = 1 then x.totalLen else x.writeTime))
        flags := { c.run.flags with err := false, found := true, pending := h.pending } } }) ∧
  (∀ (s : State) (ctx : CtxId) (i : Nat) (c : Coach) (rd : ReadEnv), s.dev.At ctx i c 0x32 → s.dev.fw.recovery ≠ 1 →
    s.dev.nsActive c.run.nsReg = true → c.run.num c.current.a = cursorEnd → 1 ≤ c.current.imm % 128 →
    c.current.imm % 128 ≤ 64 →
    ∃ d', exec (.iter ctx rd) s = .next { s with dev := d' } ∧ s.dev.Becomes d' i { c with
      cursor := some cursorEnd
      run := { c.run.retire with
        fetch := [], g := c.run.g.set c.current.d (BitVec.ofNat 64 cursorEnd), status := stOk
        flags := { c.run.flags with err := false } } })

/-- VERIFY checks the whole value against its digest; TOKEN appends a token of the record; a token that does not carry
its tag is invalid, and one that names the pending record serves it. Rests on R98, R99, R105, R133 to R136. -/
def Obligations.TokensAndVerification : Prop :=
  (∀ (s : State) (ctx : CtxId) (i : Nat) (c : Coach) (rd : ReadEnv) (e : Dev) (h : Hit) (r : Record),
    s.dev.Keyed ctx i c 0x39 → e = s.dev.searched c c.home →
    (e.look c.home c.run.nsReg c.run.keyReg true rd.headers).hit = some h → e.segmentClosed h.addrs 0 64 = false →
    e.recordAt (h.addrs.headD 0) = some r → firstFailure (e.readSegments h.addrs 0 64 rd.bodies) = stOk →
    ∃ d' c', exec (.verify ctx rd) s = .next { s with dev := d' } ∧ d'.coach? i = some c' ∧
      c'.run.g = c.run.g.set c.current.d (BitVec.ofNat 64 h.version) ∧ c'.run.flags.found = true ∧
      c'.run.flags.pending = h.pending ∧ c'.run.status =
        (if digestOf r.fixity (segBytes (e.readSegments h.addrs 0 64 rd.bodies)) = r.digest then stOk
         else stIntegrityFailed)) ∧
  (∀ (s : State) (ctx : CtxId) (i : Nat) (c : Coach) (rd : ReadEnv) (e : Dev) (h : Hit) (resp : List RespField),
    s.dev.Keyed ctx i c 0x30 → e = s.dev.searched c c.home →
    (e.look c.home c.run.nsReg c.run.keyReg false rd.headers).hit = some h →
    appendField c.run.resp (.bytes (e.tokenFor c.run.nsReg (h.addrs.headD 0) (e.spanAt (h.addrs.headD 0))
      h.version)) = some resp →
    ∃ d' c', exec (.token ctx rd) s = .next { s with dev := d' } ∧ d'.coach? i = some c' ∧ c'.run.resp = resp ∧
      c'.run.status = stOk ∧ c'.run.g = c.run.g.set c.current.d (BitVec.ofNat 64 h.version) ∧
      (d'.region c.home).tokIssued = bump (s.dev.region c.home).tokIssued ∧ d'.nv = s.dev.nv) ∧
  (∀ (s : State) (ctx : CtxId) (i : Nat) (c : Coach) (rd : ReadEnv) (e : Dev) (tk : Bytes), s.dev.Keyed ctx i c 0x31 →
    e = s.dev.searched c c.home →
    s.dev.keys.tokenKey = some tk → inArea c.inbound (c.run.num c.current.a) 16 = true →
    (tokenTag tk c.run.nsReg ((slice c.inbound (c.run.num c.current.a) 16).drop 4) ≠
        (slice c.inbound (c.run.num c.current.a) 16).take 4 →
      ∃ d' c', exec (.usetok ctx rd) s = .next { s with dev := d' } ∧ d'.coach? i = some c' ∧
        c'.run.status = stTokenInvalid ∧ c'.run.g = c.run.g ∧
        (d'.region c.home).tokInvalid = bump (s.dev.region c.home).tokInvalid) ∧
    (∀ (h : Hit) (r : Record) (a : Attached) (resp : List RespField),
      tokenTag tk c.run.nsReg ((slice c.inbound (c.run.num c.current.a) 16).drop 4) =
        (slice c.inbound (c.run.num c.current.a) 16).take 4 →
      (e.look c.home c.run.nsReg c.run.keyReg true rd.headers).hit = some h → h.pending = true →
      h.addrs.headD 0 = (tokenFields (slice c.inbound (c.run.num c.current.a) 16)).addr →
      e.recordAt (h.addrs.headD 0) = some r → c.current.m = 1 →
      e.servesClosed h.addrs 0 r.totalLen true = false → e.keysHeld h.addrs = true →
      a = { ns := c.run.nsReg, fp := s.dev.fpFor c, home := c.home, addrs := h.addrs, totalLen := r.totalLen
            length := r.totalLen, whole := true, hold := (s.dev.nsFor c c.run.nsReg.toNat).options / 2 % 2 == 1
            fixity := r.fixity, digest := r.digest } →
      appendField c.run.resp (.attached a) = some resp →
      ∃ d' c', exec (.usetok ctx rd) s = .next { s with dev := d' } ∧ d'.coach? i = some c' ∧ c'.run.status = stOk ∧
        c'.run.resp = resp ∧ c'.run.g = c.run.g.set c.current.d (BitVec.ofNat 64 h.version) ∧
        (d'.region c.home).tokCurrent = bump (s.dev.region c.home).tokCurrent))

/-- PUT, APPEND and a CAS that holds write the value as the next version: outside a set they commit, the key's
directory unit names the new record, and the response waits for it; within a set they stage it; one that waits for
credits holds its key. What APPEND reads of sectors that cannot be read is free (log entry 5). Rests on R46, R51, R59,
R94 to R97, R119, R130, R140. -/
def Obligations.UpdatesCommitOrStage : Prop :=
  (∀ (s : State) (ctx : CtxId) (i : Nat) (c : Coach) (rd : ReadEnv) (con : CtxId → ReadEnv → Instr) (op u : Nat)
      (v : Bytes) (e : Dev) (l : Lookup) (w : WriteAsk),
    e = s.dev.searched c c.home → l = e.look c.home c.run.nsReg c.run.keyReg true rd.headers →
    (con, op) = (.put, 0x25) ∧ c.current.m = 0 ∧
        inArea c.inbound (c.run.num c.current.a) (c.run.num c.current.b) = true ∧
        v = slice c.inbound (c.run.num c.current.a) (c.run.num c.current.b) ∨
      (con, op) = (.append, 0x26) ∧ c.current.m = 0 ∧
        inArea c.inbound (c.run.num c.current.a) (c.run.num c.current.b) = true ∧
        (∃ old, e.oldValue c l rd.bodies = .ok old ∧
          v = old ++ slice c.inbound (c.run.num c.current.a) (c.run.num c.current.b)) ∨
      (con, op) = (.cas, 0x28) ∧ c.current.m = 0 ∧
        inArea c.inbound (c.run.num c.current.b) (c.run.num (c.current.b + 1)) = true ∧
        (∃ h, l.hit = some h ∧ h.version = c.run.num c.current.a) ∧
        v = slice c.inbound (c.run.num c.current.b) (c.run.num (c.current.b + 1)) →
    s.dev.Keyed ctx i c op → e.heldByOther i c.home c.run.nsReg c.run.keyReg = none →
    c.set = none → c.run.flags.committed = false → e.unitFor c.home c.clsNow c.run.nsReg c.run.keyReg = some u →
    w = e.askFor c.home (s.dev.fpFor c) c l { value := v } →
    (∀ (addrs : List (Nat × Nat)) (d2 : Dev), e.writeRecords s.board w = .done addrs d2 →
      ∃ d' c' n, exec (con ctx rd) s = .next { s with dev := d' } ∧ d'.coach? i = some c' ∧ c'.run.status = stOk ∧
        n = (match l.hit with
          | some h => h.version + 1
          | none => (match l.blocked with
            | some (_, x, _) => x.version + 1
            | none => (s.dev.region c.home).versions.get 0 c.run.nsReg.toNat + 1)) ∧
        c'.run.g = c.run.g.set c.current.d (BitVec.ofNat 64 n) ∧ c'.run.flags.committed = true ∧
        c'.saved = some c'.run ∧ c'.awaits = c.awaits ++ addrs.map Prod.fst ∧ c.run.nsReg ∈ c'.wrote ∧
        d'.store.dir.get? u = some { fp := s.dev.fpFor c, key := c.run.keyReg, ns := c.run.nsReg, rec_ := 1
                                     addrs := addrs.map Prod.fst, version := n, seven := d2.sevenAt u c.clsNow }) ∧
    (e.writeRecords s.board w = .waits none →
      ∃ d' x, exec (con ctx rd) s = .next { s with dev := d' } ∧ d'.coach? i = some c ∧
        d'.store.dir.get? u = some x ∧ x.holder = some i ∧ x.hold = 1 ∧ x.stamp = c.stamp)) ∧
  (∀ (s : State) (ctx : CtxId) (i : Nat) (c : Coach) (rd : ReadEnv) (set : AtomicSet) (u a span : Nat) (d2 e : Dev)
      (w : WriteAsk),
    s.dev.Keyed ctx i c 0x25 → e = s.dev.searched c c.home → c.current.m = 0 → c.set = some set →
    set.locks.contains (c.run.nsReg, c.run.keyReg) = true →
    inArea c.inbound (c.run.num c.current.a) (c.run.num c.current.b) = true →
    e.heldByOther i c.home c.run.nsReg c.run.keyReg = none →
    e.unitFor c.home c.clsNow c.run.nsReg c.run.keyReg = some u →
    w = e.askFor c.home (s.dev.fpFor c) c (e.look c.home c.run.nsReg c.run.keyReg true rd.headers)
      { value := slice c.inbound (c.run.num c.current.a) (c.run.num c.current.b) } →
    e.writeRecords s.board w = .done [(a, span)] d2 →
    ∃ d' c' x, exec (.put ctx rd) s = .next { s with dev := d' } ∧ d'.coach? i = some c' ∧ c'.run.status = stOk ∧
      c'.set.map (·.staged) = some (set.staged ++ [x]) ∧ c'.set.map (·.locks) = some set.locks ∧ x.key = c.run.keyReg ∧
      x.ns = c.run.nsReg ∧ x.addr = a ∧ x.kind = .value ∧
      c'.run.g = c.run.g.set c.current.d (BitVec.ofNat 64 x.version) ∧
      c'.run.flags.committed = c.run.flags.committed ∧ c'.saved = c.saved) ∧
  (∀ (s : State) (ctx : CtxId) (i : Nat) (c : Coach) (rd : ReadEnv) (h : Hit) (e : Dev), s.dev.Keyed ctx i c 0x28 →
    e = s.dev.searched c c.home →
    c.current.m = 0 → inArea c.inbound (c.run.num c.current.b) (c.run.num (c.current.b + 1)) = true → c.set = none →
    e.heldByOther i c.home c.run.nsReg c.run.keyReg = none →
    (e.look c.home c.run.nsReg c.run.keyReg true rd.headers).hit = some h → h.version ≠ c.run.num c.current.a →
    ∃ d', exec (.cas ctx rd) s = .next { s with dev := d' } ∧ e.Becomes d' i { c with run := { c.run.retire with
      g := c.run.g.set c.current.d (BitVec.ofNat 64 h.version), status := stVersionMismatch
      flags := { c.run.flags with err := true, found := true, pending := h.pending } } })

/-- DEL removes the key with a tombstone of the next version; a key that is not there gives `NOT_FOUND`. Rests on R47,
R97, R182. -/
def Obligations.DeleteLeavesATombstone : Prop :=
  (∀ (s : State) (ctx : CtxId) (i : Nat) (c : Coach) (rd : ReadEnv) (h : Hit) (u a : Nat) (d2 e : Dev),
    s.dev.Keyed ctx i c 0x27 → e = s.dev.searched c c.home → e.heldByOther i c.home c.run.nsReg c.run.keyReg = none →
    c.set = none → c.run.flags.committed = false → e.writable c.home = none →
    (e.look c.home c.run.nsReg c.run.keyReg true rd.headers).hit = some h →
    e.unitFor c.home c.clsNow c.run.nsReg c.run.keyReg = some u →
    e.writeTombstone s.board c.run.nsReg c.run.keyReg c.home (h.version + 1) c.clsNow none = .done [(a, 1)] d2 →
    ∃ d' c', exec (.del ctx rd) s = .next { s with dev := d' } ∧ d'.coach? i = some c' ∧ c'.run.status = stOk ∧
      c'.run.g = c.run.g.set c.current.d (BitVec.ofNat 64 h.version) ∧ c'.run.flags.committed = true ∧
      c'.awaits = c.awaits ++ [a] ∧
      d'.store.dir.get? u = some { fp := s.dev.fpFor c, key := c.run.keyReg, ns := c.run.nsReg, rec_ := 3
                                   addrs := [a], version := h.version + 1, seven := d2.sevenAt u c.clsNow }) ∧
  (∀ (s : State) (ctx : CtxId) (i : Nat) (c : Coach) (rd : ReadEnv) (e : Dev), s.dev.Keyed ctx i c 0x27 →
    e = s.dev.searched c c.home →
    e.heldByOther i c.home c.run.nsReg c.run.keyReg = none → c.set = none → e.writable c.home = none →
    (e.look c.home c.run.nsReg c.run.keyReg true rd.headers).hit = none →
    (e.look c.home c.run.nsReg c.run.keyReg true rd.headers).blocked = none →
    ∃ d', exec (.del ctx rd) s = .next { s with dev := d' } ∧ e.Becomes d' i { c with run := { c.run.retire with
      g := c.run.g.set c.current.d 0, status := stNotFound
      flags := { c.run.flags with err := true, found := false, pending := false } } })

/-- LOCK holds the key's directory unit for the coach and opens its set; a younger coach that meets a key another set
holds fails with `CONFLICT` and its set dissolves, and a waiting one does so when an older coach takes the key; COMMIT
makes the set current and ABORT gives it up; a coach that waited for a key goes on once no set holds it. Rests on R55
to R61. -/
def Obligations.AtomicSetsLockAndCommit : Prop :=
  (∀ (s : State) (ctx : CtxId) (i n : Nat) (c : Coach) (e : Dev), s.dev.Keyed ctx i c 0x29 → e = s.dev.searched c c.home →
    c.set = none → e.unit? c.home c.run.nsReg c.run.keyReg = none → e.freeUnit c.home c.clsNow = some n →
    ∃ d' c' x, exec (.lock ctx) s = .next { s with dev := d' } ∧ d'.coach? i = some c' ∧ c'.run.status = stOk ∧
      c'.set = some { locks := [(c.run.nsReg, c.run.keyReg)] } ∧ c'.run.flags.setOpen = true ∧
      d'.store.dir.get? (unitBase c.home + n) = some x ∧ x.holder = some i ∧ x.hold = 2 ∧ x.stamp = c.stamp ∧
      x.key = c.run.keyReg) ∧
  (∀ (s : State) (ctx : CtxId) (i u : Nat) (c : Coach) (x : DirUnit) (e : Dev), s.dev.Keyed ctx i c 0x29 →
    e = s.dev.searched c c.home → c.set = none →
    e.unit? c.home c.run.nsReg c.run.keyReg = some (u, x) → x.hold ≠ 0 → x.holder ≠ some i →
    (x.hold = 1 ∨ c.stamp < x.stamp →
      ∃ d', exec (.lock ctx) s = .next { s with dev := d' } ∧
        e.Becomes d' i { c with wait := .holder c.run.nsReg c.run.keyReg }) ∧
    (x.hold ≠ 1 → x.stamp ≤ c.stamp →
      ∃ d' c', exec (.lock ctx) s = .next { s with dev := d' } ∧ d'.coach? i = some c' ∧ c'.run.status = stConflict ∧
        c'.set = none ∧
        (d'.cluster c.cluster).lockConflicts = bump (s.dev.cluster c.cluster).lockConflicts)) ∧
  (∀ (s : State) (ctx : CtxId) (i : Nat) (c : Coach) (set : AtomicSet), s.dev.At ctx i c 0x2A → s.dev.fw.recovery ≠ 1 →
    s.dev.nsActive c.run.nsReg = true → s.dev.regionGate c.home = none → c.privileged = false → c.set = some set →
    c.run.flags.committed = false →
    (set.staged = [] ∨ (s.dev.room (frontOf c.home 1 true) 1 = true ∧
      s.dev.cartRoom s.board.tProgUs s.board.tProgMaxUs c.home 1 c.clsNow = true)) →
    ∃ d' c', exec (.commit ctx) s = .next { s with dev := d' } ∧ d'.coach? i = some c' ∧ c'.run.status = stOk ∧
      c'.set = none ∧ c'.run.flags.setOpen = false ∧ c'.run.flags.committed = true ∧ c'.saved = some c'.run ∧
      (∀ x ∈ set.members, x.addr ∈ c'.awaits) ∧ ∀ x ∈ set.members, x.ns ∈ c'.wrote) ∧
  (∀ (s : State) (ctx : CtxId) (i : Nat) (c : Coach), s.dev.At ctx i c 0x2B → s.dev.fw.recovery ≠ 1 →
    s.dev.nsActive c.run.nsReg = true → s.dev.regionGate c.home = none → c.privileged = false →
    ∃ d' c', exec (.abort ctx) s = .next { s with dev := d' } ∧ d'.coach? i = some c' ∧
      c'.run.status = (if c.set.isSome then stAborted else stOk) ∧ c'.set = none ∧
      c'.run.flags.committed = c.run.flags.committed) ∧
  (∀ (s : State) (ctx : CtxId) (rd : ReadEnv) (i u : Nat) (c : Coach) (x : DirUnit), s.dev.coach? i = some c →
    s.dev.coachIn ctx.val = some (i, c) → s.dev.pathRuns c.privileged = true → c.privileged = false →
    c.wait = .holder c.run.nsReg c.run.keyReg → c.current.op = 0x29 → s.dev.nsActive c.run.nsReg = true →
    c.run.keyReg ≠ [] → s.dev.homeOf c.run.nsReg c.run.keyReg = c.home → s.dev.regionGate c.home = none →
    s.dev.dirClean c.home (s.dev.dirKeyOf c.run.nsReg c.run.keyReg) = true →
    s.dev.unit? c.home c.run.nsReg c.run.keyReg = some (u, x) → c.set = none →
    (x.hold = 0 →
      ∃ d' c', exec (.lockWaiterResume ctx rd) s = .next { s with dev := d' } ∧ d'.coach? i = some c' ∧
        c'.run.status = stOk ∧ c'.wait = .none ∧ c'.set = some { locks := [(c.run.nsReg, c.run.keyReg)] }) ∧
    (x.hold = 2 → x.holder ≠ some i → x.stamp ≤ c.stamp →
      ∃ d' c', exec (.lockWaiterResume ctx rd) s = .next { s with dev := d' } ∧ d'.coach? i = some c' ∧
        c'.run.status = stConflict ∧ c'.wait = .none ∧ c'.set = none))

/-- ITER lists the keys of a namespace from a cursor; EXPORT attaches a migration record and IMPORT commits one that
is newer and refuses any other; a sub-request that a coach waits for completes its instruction. Rests on R64, R80,
R100 to R103, R142, R312, R314. -/
def Obligations.IterationAndMigration : Prop :=
  (∀ (s : State) (ctx : CtxId) (i : Nat) (c : Coach) (rd : ReadEnv) (w : Walk), s.dev.At ctx i c 0x32 →
    s.dev.fw.recovery ≠ 1 → s.dev.nsActive c.run.nsReg = true →
    c.run.num c.current.a < cursorEnd → 1 ≤ c.current.imm % 128 → c.current.imm % 128 ≤ 64 →
    bits (c.run.num c.current.a) 5 32 < 2 ^ s.dev.geom.k →
    s.dev.regionGate (bits (c.run.num c.current.a) 37 3) = none →
    w = s.dev.walkFrom c.run.nsReg (c.run.num c.current.a) (c.current.imm % 128) rd.headers →
    w.entries.length ≤ c.current.imm % 128 ∧ (∀ x ∈ w.entries, x.length = 256) ∧
    ∃ d', exec (.iter ctx rd) s = .next { s with dev := d' } ∧ s.dev.Becomes d' i { c with
      cursor := some w.next
      run := { c.run.answers w.st with
        fetch := w.entries.flatten, g := c.run.g.set c.current.d (BitVec.ofNat 64 w.next) } }) ∧
  (∀ (s : State) (ctx : CtxId) (i : Nat) (c : Coach) (rd : ReadEnv) (h : Hit) (r : Record) (a : Attached)
      (resp : List RespField) (e : Dev), s.dev.Keyed ctx i c 0x33 → e = s.dev.searched c c.home → c.boundFor 1 = true →
    (e.look c.home c.run.nsReg c.run.keyReg true rd.headers).hit = some h →
    e.recordAt (h.addrs.headD 0) = some r → e.segmentClosed h.addrs 0 64 = false → e.keysHeld h.addrs = true →
    a = { ns := c.run.nsReg, fp := s.dev.fpFor c, home := c.home, addrs := h.addrs, totalLen := r.totalLen
          length := r.totalLen, whole := true, hold := (s.dev.nsFor c c.run.nsReg.toNat).options / 2 % 2 == 1
          fixity := r.fixity, digest := r.digest, header := migrationHeader r h.version, export_ := true } →
    appendField c.run.resp (.attached a) = some resp →
    ∃ d', exec (.export_ ctx rd) s = .next { s with dev := d' } ∧ e.Becomes d' i { c with run := { c.run.retire with
      g := c.run.g.set c.current.d (BitVec.ofNat 64 h.version), resp := resp, status := stOk
      flags := { c.run.flags with err := false, found := true, pending := h.pending } } }) ∧
  (∀ (s : State) (ctx : CtxId) (i : Nat) (c c1 : Coach) (rd : ReadEnv) (m key : Bytes) (e : Dev) (l : Lookup),
    s.dev.At ctx i c 0x34 →
    s.dev.fw.recovery ≠ 1 → s.dev.nsActive c.run.nsReg = true → s.dev.regionGate c.home = none → c.privileged = false →
    c.boundFor 2 = true → c.set = none → inArea c.inbound (c.run.num c.current.a) (c.run.num c.current.b) = true →
    m = slice c.inbound (c.run.num c.current.a) (c.run.num c.current.b) → migrationFault m = none →
    key = slice m 72 (beAt m 4 1) → s.dev.homeOf c.run.nsReg key = c.home →
    s.dev.dirClean c.home (s.dev.dirKeyOf c.run.nsReg key) = true →
    c1 = { c with run := { c.run with keyReg := key } } →
    e = (s.dev.onRun i fun r => { r with keyReg := key }).searched c1 c.home →
    e.heldByOther i c.home c.run.nsReg key = none → l = e.look c.home c.run.nsReg key true rd.headers →
    (∀ h, l.hit = some h → beAt m 8 8 ≤ h.version →
      ∃ d', exec (.import_ ctx rd) s = .next { s with dev := d' } ∧ e.Becomes d' i { c1 with run := { c1.run.retire with
        status := stVersionMismatch, flags := { c.run.flags with err := true, found := true, pending := h.pending } } }) ∧
    (∀ (u : Nat) (addrs : List (Nat × Nat)) (w : WriteAsk) (d2 : Dev), c.run.flags.committed = false →
      (∀ h, l.hit = some h → h.version < beAt m 8 8) →
      w = e.askFor c.home (s.dev.fpOf c.run.nsReg key) c1 l
        { value := slice m (72 + beAt m 4 1) (beAt m 24 8)
          imported := some (beAt m 8 8, beAt m 16 8,
            if (s.dev.ns c.run.nsReg.toNat).fixity = beAt m 5 1 then
              slice m 32 (digestOf (beAt m 5 1) (slice m (72 + beAt m 4 1) (beAt m 24 8))).length
            else digestOf (s.dev.ns c.run.nsReg.toNat).fixity (slice m (72 + beAt m 4 1) (beAt m 24 8))) } →
      e.unitFor c.home c.clsNow c.run.nsReg key = some u → e.writeRecords s.board w = .done addrs d2 →
      ∃ d' c', exec (.import_ ctx rd) s = .next { s with dev := d' } ∧ d'.coach? i = some c' ∧ c'.run.status = stOk ∧
        c'.run.keyReg = key ∧ c'.run.g = c.run.g.set c.current.d (BitVec.ofNat 64 (beAt m 8 8)) ∧
        c'.run.flags.committed = true ∧ c'.run.pc = c.run.pc + 1 ∧
        d'.store.dir.get? u = some { fp := s.dev.fpOf c.run.nsReg key, key := key, ns := c.run.nsReg, rec_ := 1
                                     addrs := addrs.map Prod.fst, version := beAt m 8 8
                                     seven := d2.sevenAt u c.clsNow } ∧
        ∀ k dir ns x, c.streamHeld = some (k, dir, ns) → s.dev.net.streams.get? k = some x →
          d'.net.streams.get? k = some { x with records := bump x.records, bytes := satAdd x.bytes m.length })) ∧
  (∀ (s : State) (ctx : CtxId) (rd : ReadEnv) (i r : Nat) (c : Coach) (h : Hit) (x : Record) (a : Attached)
      (resp : List RespField) (e : Dev),
    s.dev.coach? i = some c → s.dev.coachIn ctx.val = some (i, c) → s.dev.pathRuns c.privileged = true →
    c.wait = .subRequest r → c.current.op = 0x22 → c.current.m = 1 → s.dev.nsActive c.run.nsReg = true →
    c.run.keyReg ≠ [] → s.dev.homeOf c.run.nsReg c.run.keyReg = r → s.dev.regionGate r = none →
    s.dev.dirClean r (s.dev.dirKeyOf c.run.nsReg c.run.keyReg) = true → e = s.dev.searched c r →
    (e.lookFor c r c.run.nsReg c.run.keyReg true rd.headers).1.hit = some h →
    e.recordAt (h.addrs.headD 0) = some x → e.servesClosed h.addrs 0 x.totalLen true = false → e.keysHeld h.addrs = true →
    a = { ns := c.run.nsReg, fp := s.dev.fpFor c, home := r, addrs := h.addrs, totalLen := x.totalLen
          length := x.totalLen, whole := true, hold := (s.dev.nsFor c c.run.nsReg.toNat).options / 2 % 2 == 1
          fixity := x.fixity, digest := x.digest } →
    appendField c.run.resp (.attached a) = some resp → rd.keep = false → rd.evict = [] →
    ∃ d', exec (.subRequestAnswer ctx rd) s = .next { s with dev := d' } ∧ e.Becomes d' i { c with
      wait := .none
      run := { c.run.retire with
        g := c.run.g.set c.current.d (BitVec.ofNat 64 h.version), resp := resp, status := stOk
        flags := { c.run.flags with err := false, found := true, pending := h.pending } } })

/-- MRD reads a control register, EVRD event records and CTRD counts: each puts what it read where it says and changes
no register. Counting the bad sequence numbers of EVRD by slot is the model's choice (log entry 24). Rests on R108,
R109, R110, R429, R433. -/
def Obligations.ManagementReads : Prop :=
  (∀ (s : State) (ctx : CtxId) (i a : Nat) (wide : Bool) (c : Coach), s.dev.At ctx i c 0x40 →
    c.control c.current = some (a, wide) →
    ∃ d' c', exec (.mrd ctx) s = .next { s with dev := d' } ∧ d'.coach? i = some c' ∧
      c'.run = { c.run with g := c.run.g.set c.current.d (BitVec.ofNat 64
        (s.dev.readControl s.fuses s.board.tProgUs s.mem.setWindow wide a)) }.answers 0x00 ∧ d'.keys = s.dev.keys ∧
      d'.nv = s.dev.nv ∧ d'.store = s.dev.store) ∧
  (∀ (s : State) (ctx : CtxId) (i : Nat) (c : Coach), s.dev.At ctx i c 0x40 → c.control c.current = none →
    ∃ d' c', exec (.mrd ctx) s = .next { s with dev := d' } ∧ s.dev.Becomes d' i c' ∧ c'.run = c.run.answers 0x1B) ∧
  (∀ (s : State) (ctx : CtxId) (i : Nat) (c : Coach) (log : LogReadEnv), s.dev.At ctx i c 0x42 → s.dev.fw.recovery ≠ 1 →
    1 ≤ c.current.imm % 512 → c.current.imm % 512 ≤ 256 → (c.run.reg c.current.a).toNat < 2 ^ 63 → c.current.m = 1 →
    ∃ (d' : Dev) (c' : Coach) (got : List EventRec), exec (.evrd ctx log) s = .next { s with dev := d' } ∧
      d'.coach? i = some c' ∧ d'.store = s.dev.store ∧ d'.nv = s.dev.nv ∧ d'.keys = s.dev.keys ∧
      got = (s.dev.ringRecords (c.run.reg c.current.a).toNat).take (c.current.imm % 512) ∧
      c'.run = { c.run with
        fetch := got.flatMap EventRec.bytes
        g := c.run.g.set c.current.d (BitVec.ofNat 64
          ((got.getLast?.map fun (e : EventRec) => e.seq + 1).getD (c.run.reg c.current.a).toNat)) }.answers 0x00) ∧
  (∀ (s : State) (ctx : CtxId) (i : Nat) (c : Coach) (log : LogReadEnv), s.dev.At ctx i c 0x42 → s.dev.fw.recovery ≠ 1 →
    1 ≤ c.current.imm % 512 → c.current.imm % 512 ≤ 256 → (c.run.reg c.current.a).toNat < 2 ^ 63 → c.current.m = 0 →
    log.badSeqs = [] → log.deadCopies = [] →
    ∃ (d' : Dev) (c' : Coach) (got : List EventRec), exec (.evrd ctx log) s = .next { s with dev := d' } ∧
      d'.coach? i = some c' ∧ d'.store = s.dev.store ∧ d'.nv = s.dev.nv ∧ d'.keys = s.dev.keys ∧
      got = (s.dev.heldRecords (c.run.reg c.current.a).toNat).take (c.current.imm % 512) ∧
      c'.run = { c.run with
        fetch := got.flatMap EventRec.bytes
        g := c.run.g.set c.current.d (BitVec.ofNat 64
          ((got.getLast?.map fun (e : EventRec) => e.seq + 1).getD (c.run.reg c.current.a).toNat)) }.answers 0x00) ∧
  (∀ (s : State) (ctx : CtxId) (i : Nat) (c : Coach) (kind index : Nat) (vs : List Nat), s.dev.At ctx i c 0x43 →
    s.dev.fw.recovery ≠ 1 → kind < 256 → index < 65536 → (c.run.reg c.current.a).toNat = kind + index * 65536 →
    s.dev.counters kind index = some vs →
    ∃ d' c', exec (.ctrd ctx) s = .next { s with dev := d' } ∧ s.dev.Becomes d' i c' ∧
      c'.run = { c.run with
        fetch := vs.flatMap (leBytes 8)
        g := c.run.g.set c.current.d (BitVec.ofNat 64 (vs.headD 0)) }.answers 0x00)

/-- KSLOT loads a data key into an empty slot, enrols an owner and rekeys a slot: the slot takes its owner, the next
generation and the wrapped key, and the coach waits for seals; a key that does not open gives `INTEGRITY_FAILED` and
changes no slot. KSLOT clears a slot, erasing its keys at once, or an owner that no slot names; once its change is
sealed in every region that is not fenced the coach goes on and the lock is released. When a lock is refused or times
out while a KSLOT runs is the model's choice (log entry 22). Rests on R112, R358 to R363, R112, R360, R362. -/
def Obligations.KslotActsOnKeys : Prop :=
  ((∀ (s : State) (ctx : CtxId) (i n o : Nat) (c : Coach) (wrapped : Bytes), s.dev.Acts ctx i c 0x44 → c.current.m = 0 →
    (((c.run.reg c.current.a).toNat < 4096 ∧ n = (c.run.reg c.current.a).toNat ∧ (s.dev.slot n).state = .empty) ∨
      ((c.run.reg c.current.a).toNat = 4096 ∧ s.dev.emptySlot = some n)) →
    c.dataBlob c.current = some (o, wrapped) → (s.dev.owner o).enrolled = true → s.dev.lockRefused ctx.val = false →
    (s.dev.slot n).loads < 65535 →
    ∃ d' c', exec (.kslotLoad ctx) s = .next { s with dev := d' } ∧ d'.coach? i = some c' ∧ d'.nv = s.dev.nv ∧
      match s.dev.openKey o wrapped with
      | some key => c'.wait = .seals s.dev.sealsWanted ∧ c'.result = BitVec.ofNat 64 n ∧ c'.run = c.run ∧
          d'.slot n = { state := .loaded, owner := o, loads := (s.dev.slot n).loads + 1
                        gen := BitVec.ofNat 32 (s.dev.geom.fmtgen * 65536 + (s.dev.slot n).loads + 1), key := wrapped } ∧
          d'.keys.store.get? n = some key ∧ d'.keys.lockOwner = engineCode ctx.val ∧ d'.keys.unwrapResult = 0x00
      | none => c'.run = c.run.answers 0x0F ∧ d'.slot n = s.dev.slot n ∧ d'.keys.store = s.dev.keys.store ∧
          d'.keys.unwrapFails = bump s.dev.keys.unwrapFails) ∧
  (∀ (s : State) (ctx : CtxId) (i o : Nat) (c : Coach) (pub wrapped : Bytes), s.dev.Acts ctx i c 0x44 →
    c.current.m = 0 → o < 16 → (c.run.reg c.current.a).toNat = 8192 + o → c.ownerBlob c.current = some (pub, wrapped) →
    (s.dev.owner o).enrolled = false → s.dev.lockRefused ctx.val = false →
    ∃ d' c', exec (.kslotEnrolOwner ctx) s = .next { s with dev := d' } ∧ d'.coach? i = some c' ∧ d'.nv = s.dev.nv ∧
      d'.keys.table.slots = s.dev.keys.table.slots ∧
      match s.dev.enrolledKek s.fuses pub wrapped, s.dev.keys.root with
      | some kek, some root => c'.wait = .seals s.dev.sealsWanted ∧
          d'.owner o = { enrolled := true, kek := keyWrap root kek, kcv := (aesBlock kek (zeros 16)).take 8 } ∧
          c'.result = BitVec.ofNat 64 (leNat ((aesBlock kek (zeros 16)).take 8)) ∧
          d'.keys.lockOwner = engineCode ctx.val
      | _, _ => c'.run = c.run.answers 0x0F ∧ d'.owner o = s.dev.owner o) ∧
  (∀ (s : State) (ctx : CtxId) (i n o : Nat) (c : Coach) (wrapped : Bytes), s.dev.Acts ctx i c 0x44 → c.current.m = 2 →
    n < 4096 → (c.run.reg c.current.a).toNat = n →
    ((s.dev.slot n).state = .loaded ∨ (s.dev.slot n).state = .exhausted) → c.dataBlob c.current = some (o, wrapped) →
    (s.dev.owner o).enrolled = true → s.dev.lockRefused ctx.val = false → s.dev.keys.rekey.running = false →
    (s.dev.slot n).loads < 65535 →
    ∃ d' c', exec (.kslotRekey ctx) s = .next { s with dev := d' } ∧ d'.coach? i = some c' ∧ d'.nv = s.dev.nv ∧
      match s.dev.openKey o wrapped with
      | some key => c'.wait = .seals s.dev.sealsWanted ∧
          d'.slot n = { state := .rekeying, owner := o, loads := (s.dev.slot n).loads + 1
                        gen := BitVec.ofNat 32 (s.dev.geom.fmtgen * 65536 + (s.dev.slot n).loads + 1), key := wrapped
                        prevKey := (s.dev.slot n).key, prevGen := (s.dev.slot n).gen
                        prevOwner := (s.dev.slot n).owner } ∧
          d'.keys.store.get? n = some key ∧ d'.keys.prevStore.get? n = s.dev.keys.store.get? n ∧
          d'.keys.rekey = { slot := n, running := true, started := s.dev.sealsWanted, gens := s.dev.sealsWanted }
      | none => c'.run = c.run.answers 0x0F ∧ d'.slot n = s.dev.slot n ∧ d'.keys.rekey = s.dev.keys.rekey)) ∧
  ((∀ (s : State) (ctx : CtxId) (i n : Nat) (c : Coach), s.dev.Acts ctx i c 0x44 → c.current.m = 1 → n < 4096 →
    (c.run.reg c.current.a).toNat = n → (s.dev.slot n).state ≠ .empty → s.dev.lockRefused ctx.val = false →
    ∃ d' c', exec (.kslotClear ctx) s = .next { s with dev := d' } ∧ d'.coach? i = some c' ∧
      c'.wait = .seals s.dev.sealsWanted ∧ d'.keys.store.get? n = none ∧ d'.keys.prevStore.get? n = none ∧
      d'.slot n = { state := .empty, owner := (s.dev.slot n).owner, loads := (s.dev.slot n).loads
                    gen := (s.dev.slot n).gen, limit := (s.dev.slot n).limit } ∧
      d'.keys.lockOwner = engineCode ctx.val ∧ d'.nv = s.dev.nv) ∧
  (∀ (s : State) (ctx : CtxId) (i o : Nat) (c : Coach), s.dev.Acts ctx i c 0x44 → c.current.m = 1 → o < 16 →
    (c.run.reg c.current.a).toNat = 8192 + o → s.dev.lockRefused ctx.val = false →
    ((s.dev.owner o).enrolled = true → s.dev.ownerNamed o = false →
      ∃ d' c', exec (.kslotClearOwner ctx) s = .next { s with dev := d' } ∧ d'.coach? i = some c' ∧
        c'.wait = .seals s.dev.sealsWanted ∧ d'.owner o = {} ∧ d'.keys.store = s.dev.keys.store ∧ d'.nv = s.dev.nv) ∧
    (s.dev.ownerNamed o = true →
      ∃ d' c', exec (.kslotClearOwner ctx) s = .next { s with dev := d' } ∧ s.dev.Becomes d' i c' ∧
        c'.run = c.run.answers 0x1B)) ∧
  (∀ (s : State) (ctx : CtxId) (i : Nat) (c : Coach) (gens : List (Nat × Nat)), s.dev.Sealed ctx i c 0x44 gens →
    ∃ d', exec (.kslotComplete ctx) s = .next { s with dev := d' } ∧
      d'.coach? i = some { c with
        wait := .none, run := { c.run with g := c.run.g.set c.current.d c.result }.answers 0x00 } ∧
      d'.keys = (if s.dev.keys.lockOwner = engineCode ctx.val then { s.dev.keys with lockOwner := 0 } else s.dev.keys) ∧
      d'.store = s.dev.store ∧ d'.nv = s.dev.nv))

/-- The walk of a rekey copies each record that is under the previous generation, once the rekey is sealed; when
nothing is left under it the slot is loaded again and its previous key is gone. Rests on R363. -/
def Obligations.RekeyWalksTheRecords : Prop :=
  (∀ (s : State) (r : RegionId) (a : Nat) (rd : ReadBack), s.dev.tending r.val = true → s.dev.keys.rekey.running = true →
    s.dev.sealedAll s.dev.keys.rekey.started = true → s.dev.entryNames r.val a = true → s.dev.beingMoved a = false →
    (s.dev.underPrev a = false →
      ∃ d', exec (.rekeyRecordCopy r a rd) s = .next { s with dev := d' } ∧ a ∈ d'.keys.rekey.visited ∧
        d'.keys.rekey.copied = s.dev.keys.rekey.copied ∧ d'.store = s.dev.store) ∧
    (∀ (x y : Record) (iv : Nat) (d1 d2 : Dev), s.dev.underPrev a = true → s.dev.keys.rekey.failedAt.contains a = false →
      (s.dev.readSegment a rd).st = 0x00 → s.dev.recordAt a = some x →
      (s.dev.visitEntry a).nextCounter (s.dev.homeOf x.ns x.key) s.dev.keys.rekey.slot = .value iv d1 →
      y = { x with slotGen := (d1.slot s.dev.keys.rekey.slot).gen, ivCounter := iv } →
      d1.copyRecord a { y with
        payload := (gcmSeal ((d1.keys.store.get? s.dev.keys.rekey.slot).getD []) y.iv y.header (s.dev.readSegment a rd).data).1
        tag := (gcmSeal ((d1.keys.store.get? s.dev.keys.rekey.slot).getD []) y.iv y.header (s.dev.readSegment a rd).data).2 }
        true = some d2 →
      ∃ d', exec (.rekeyRecordCopy r a rd) s = .next { s with dev := d' } ∧
        d'.keys.rekey.copied = bump d2.keys.rekey.copied ∧ d'.store = d2.store ∧ d'.nv = d2.nv)) ∧
  (∀ (s : State) (n : Nat), s.dev.live = true → s.dev.keys.rekey.running = true →
    s.dev.sealedAll s.dev.keys.rekey.started = true → s.dev.openRegions.all s.dev.rekeyRegionDone = true →
    s.dev.store.moves.any (fun m => m.2.rekey) = false → s.dev.sealedAll s.dev.keys.rekey.gens = true →
    n = s.dev.keys.rekey.slot →
    ∃ d', exec .rekeyWalkDone s = .next { s with dev := d' } ∧ d'.keys.rekey.running = false ∧
      d'.slot n = { s.dev.slot n with
        state := if (s.dev.slot n).state = .rekeying then .loaded else (s.dev.slot n).state
        prevKey := [], prevGen := 0, prevOwner := 0 } ∧
      d'.keys.prevStore.get? n = none ∧ d'.keys.store = s.dev.keys.store ∧ d'.store = s.dev.store ∧ d'.nv = s.dev.nv)

/-- NSDEF checks a namespace's descriptor, notes a create or a modify for the next seals and waits for them; once they
are durable the change takes effect: a create makes the namespace ACTIVE with the next epoch, a modify gives it its
new options and retires its tokens where it is told to. A removal waits for the coaches that loaded the namespace. A
removal that has started takes the entries of the namespace from the index of each region; when every region has been
walked, and those that are not fenced sealed, the namespace is free again, with no usage and no keys. A token
generation that would wrap advances the epoch. Rests on R48, R113 to R118, R138, R118, R138, R139. -/
def Obligations.NamespacesComeAndGo : Prop :=
  ((∀ (s : State) (ctx : CtxId) (i n : Nat) (c : Coach) (x : NsDescriptor), s.dev.Acts ctx i c 0x45 → c.current.m = 0 →
    0 < n → n < 65536 → (c.run.reg c.current.a).toNat = n → (s.dev.ns n).state = .free → s.dev.creating i n = false →
    c.nsDescriptor c.current = some x → x.options < 4 → s.dev.slotHoldsKey x.keySlot = true →
    ∃ d' c', exec (.nsdefCreate ctx) s = .next { s with dev := d' } ∧ d'.coach? i = some c' ∧
      c'.wait = .seals s.dev.sealsWanted ∧ d'.nv = s.dev.nv ∧ d'.keys = s.dev.keys ∧
      d'.store = { s.dev.store with nsChanges := d'.store.nsChanges } ∧ d'.store.nsChanges =
        s.dev.store.nsChanges.set i { nsid := n, create := true, desc := x, gens := s.dev.sealsWanted }) ∧
  (∀ (s : State) (ctx : CtxId) (i n : Nat) (c : Coach) (x : NsDescriptor), s.dev.Acts ctx i c 0x45 → c.current.m = 1 →
    n < 65536 → (c.run.reg c.current.a).toNat = n → (s.dev.ns n).state = .active → c.nsDescriptor c.current = some x →
    (x.groupPrefix = (s.dev.ns n).groupPrefix ∨ (s.dev.ns n).liveKeys = 0) →
    (x.keySlot = (s.dev.ns n).keySlot ∨ s.dev.slotHoldsKey x.keySlot = true) →
    ∃ d' c', exec (.nsdefModify ctx) s = .next { s with dev := d' } ∧ d'.coach? i = some c' ∧
      c'.wait = .seals s.dev.sealsWanted ∧ d'.nv = s.dev.nv ∧ d'.keys = s.dev.keys ∧
      d'.store = { s.dev.store with nsChanges := d'.store.nsChanges } ∧ d'.store.nsChanges = s.dev.store.nsChanges.set i
        { nsid := n, create := false, retire := decide (4 ≤ x.options), desc := x, gens := s.dev.sealsWanted }) ∧
  (∀ (s : State) (ctx : CtxId) (i n : Nat) (c : Coach), s.dev.Acts ctx i c 0x45 → c.current.m = 2 → n < 65536 →
    (c.run.reg c.current.a).toNat = n → (s.dev.ns n).state = .active →
    ∃ d' c', exec (.nsdefRemove ctx) s = .next { s with dev := d' } ∧ d'.coach? i = some c' ∧
      c'.wait = .coaches (BitVec.ofNat 16 n) ∧ d'.ns n = { s.dev.ns n with state := .removing } ∧
      d'.store.removals.get? n = some { remover := some i, started := s.dev.sealsWanted } ∧ d'.nv = s.dev.nv) ∧
  (∀ (s : State) (ctx : CtxId) (i : Nat) (c : Coach) (gens : List (Nat × Nat)) (x : NsChange),
    s.dev.Sealed ctx i c 0x45 gens → s.dev.store.nsChanges.get? i = some x →
    (x.create = true →
      ∃ d', exec (.nsdefComplete ctx) s = .next { s with dev := d' } ∧
        d'.coach? i = some { c with wait := .none, run := c.run.answers 0x00 } ∧ d'.nv = s.dev.nv ∧
        d'.store.nsChanges.get? i = none ∧
        d'.ns x.nsid = { state := .active, keySlot := x.desc.keySlot, fixity := x.desc.fixity
                         groupPrefix := x.desc.groupPrefix, durability := x.desc.durability, ceiling := x.desc.ceiling
                         options := x.desc.options % 4, quota := x.desc.quota, epoch := (s.dev.ns x.nsid).epoch + 1 }) ∧
    (x.create = false → (s.dev.ns x.nsid).state ≠ .free →
      ((s.dev.ns x.nsid).groupPrefix = x.desc.groupPrefix ∨ (s.dev.ns x.nsid).liveKeys = 0) →
      ∃ d', exec (.nsdefComplete ctx) s = .next { s with dev := d' } ∧
        d'.coach? i = some { c with wait := .none, run := c.run.answers 0x00 } ∧ d'.nv = s.dev.nv ∧
        d'.store.nsChanges.get? i = none ∧
        d'.ns x.nsid = { s.dev.ns x.nsid with
          keySlot := x.desc.keySlot, fixity := x.desc.fixity, groupPrefix := x.desc.groupPrefix
          durability := x.desc.durability, ceiling := x.desc.ceiling, options := x.desc.options % 4, quota := x.desc.quota
          epoch := (s.dev.ns x.nsid).epoch + (if x.retire then 1 else 0)
          tokenGen := if x.retire then 0 else (s.dev.ns x.nsid).tokenGen })) ∧
  (∀ (s : State) (ctx : CtxId) (i : Nat) (c : Coach) (n : W16), s.dev.coach? i = some c →
    s.dev.coachIn ctx.val = some (i, c) → s.dev.pathRuns c.privileged = true → c.current.op = 0x45 →
    c.wait = .coaches n → s.dev.store.nsChanges.get? i = none →
    (s.dev.removalStarted n.toNat = true →
      ∃ d', exec (.nsdefComplete ctx) s = .next { s with dev := d' } ∧
        s.dev.Becomes d' i { c with wait := .none, run := c.run.answers 0x00 }) ∧
    (s.dev.removalStarted n.toNat = false → exec (.nsdefComplete ctx) s = .next s))) ∧
  ((∀ (s : State) (r : RegionId) (n : W16), s.dev.tending r.val = true → (s.dev.ns n.toNat).state = .removing →
    s.dev.removalStarted n.toNat = true →
    ∃ d' x, exec (.namespaceRemovalWalk r n) s = .next { s with dev := d' } ∧
      d'.region r.val = (s.dev.region r.val).without n.toNat ∧
      (∀ k, k ≠ r.val → d'.region k = s.dev.region k) ∧ d'.store.removals.get? n.toNat = some x ∧
      x.walked.getLsbD r.val = true ∧ d'.nv = s.dev.nv ∧ d'.keys = s.dev.keys) ∧
  (∀ (s : State) (n : W16), s.dev.live = true → (s.dev.ns n.toNat).state = .removing →
    s.dev.removalStarted n.toNat = true →
    (List.range 8).all (s.dev.store.removals.get {} n.toNat).walked.getLsbD = true →
    s.dev.sealedAll (s.dev.store.removals.get {} n.toNat).gens = true →
    ∃ d', exec (.namespaceFree n) s = .next { s with dev := d' } ∧
      d'.ns n.toNat = { s.dev.ns n.toNat with state := .free, usage := 0, liveKeys := 0 } ∧
      d'.store.removals.get? n.toNat = none ∧ d'.nv = s.dev.nv) ∧
  (∀ (s : State) (n : W16), s.dev.live = true → (s.dev.ns n.toNat).state = .active → 2 ^ 32 ≤ (s.dev.ns n.toNat).tokenGen →
    ∃ d', exec (.tokenGenerationWrap n) s = .next { s with dev := d' } ∧
      d'.ns n.toNat = { s.dev.ns n.toNat with epoch := (s.dev.ns n.toNat).epoch + 1, tokenGen := 0 } ∧
      (∀ k, k ≠ n.toNat → d'.ns k = s.dev.ns k) ∧ d'.nv = s.dev.nv))

/-- FMT runs its checks in order: the first that fails gives its status and nothing else; where all pass data service
closes and the format waits; when the coaches have ended it clears namespaces, directory, slots and owners and writes
a geometry of the next generation. Retired blocks, the first seals and the lifetime table at FMT are the model's
choices (log entry 23). Rests on R199 to R201. -/
def Obligations.FormatClearsTheDevice : Prop :=
  (∀ (s : State) (ctx : CtxId) (i : Nat) (c : Coach) (st : Byte), s.dev.Acts ctx i c 0x46 →
    s.dev.formatCheck s.board c c.current = .error st →
    ∃ d' c', exec (.fmt ctx) s = .next { s with dev := d' } ∧ s.dev.Becomes d' i c' ∧ c'.run = c.run.answers st) ∧
  (∀ (s : State) (ctx : CtxId) (i : Nat) (c : Coach) (x : FormatAsk) (g : Geometry), s.dev.Acts ctx i c 0x46 →
    s.dev.formatCheck s.board c c.current = .ok (x, g) →
    ∃ d' c', exec (.fmt ctx) s = .next { s with dev := d' } ∧ d'.coach? i = some c' ∧ c'.run = c.run.answers 0x00 ∧
      d'.store.fmtRunning = true ∧ d'.store.fmtAsk = g ∧ d'.store.fmtErase = x.erase ∧
      d'.store.fmtWaits = s.dev.runningCoaches ∧
      (∀ r, r < 8 → d'.closedRegion r = true ∧ (d'.region r).fmtPhase = 1) ∧ d'.nv = s.dev.nv) ∧
  (∀ (s : State) (ctx : CtxId) (i : Nat) (c : Coach), s.dev.Acts ctx i c 0x46 →
    s.board.modeLegal (c.current.imm % 8) = false → s.dev.formatCheck s.board c c.current = .error 0x1B) ∧
  (∀ s : State, s.dev.live = true → s.dev.formatReady = true → s.dev.chip.state = 1 →
    ∃ d' g, exec .fmtComplete s = .next { s with dev := d' } ∧ d'.store.fmtRunning = false ∧
      d'.store.geom = some g ∧ g.fmtgen = nextFmtgen s.dev.currentFmtgen ∧ g.k = s.dev.store.fmtAsk.k ∧
      g.bpc = s.dev.store.fmtAsk.bpc ∧ d'.store.namespaces = [] ∧ d'.store.dir = [] ∧ d'.keys.table = {} ∧
      d'.keys.store = [] ∧ (∀ r, r < 8 → (d'.region r).fmtPhase = 5) ∧ d'.chip.reason = s.dev.chip.reason)

/-- MIG opens a migration stream bound to its source and closes it; TIME sets the wall time, which then advances with
the power-on count. Rests on R114, R310, R311, R431, R432. -/
def Obligations.StreamsAndTime : Prop :=
  (∀ (s : State) (ctx : CtxId) (i n : Nat) (c : Coach) (b : Bytes), s.dev.Acts ctx i c 0x47 → c.current.m = 0 →
    inArea c.inbound (c.run.reg c.current.b).toNat 64 = true → b = slice c.inbound (c.run.reg c.current.b).toNat 64 →
    s.dev.streamLegal b = true →
    (((c.run.reg c.current.a).toNat < 64 ∧ n = (c.run.reg c.current.a).toNat ∧ (s.dev.net.streams.get {} n).isOpen = false) ∨
      ((c.run.reg c.current.a).toNat = 64 ∧ n < 64 ∧ (s.dev.net.streams.get {} n).isOpen = false ∧
        ∀ k, k < n → (s.dev.net.streams.get {} k).isOpen = true)) →
    ∃ d' c', exec (.migOpen ctx) s = .next { s with dev := d' } ∧ d'.coach? i = some c' ∧
      c'.run = { c.run with g := c.run.g.set c.current.d (BitVec.ofNat 64 n) }.answers 0x00 ∧
      d'.net.streams.get? n = some { isOpen := true, dir := leAt b 0 1, kind := leAt b 1 1, source := leAt b 4 4
                                     ns := BitVec.ofNat 16 (leAt b 8 2), cursor := leAt b 16 8
                                     partner := BitVec.ofNat 64 (leAt b 24 8) } ∧
      (∀ k, k ≠ n → d'.net.streams.get? k = s.dev.net.streams.get? k) ∧ d'.nv = s.dev.nv) ∧
  (∀ (s : State) (ctx : CtxId) (i n : Nat) (c : Coach), s.dev.Acts ctx i c 0x47 → c.current.m = 1 → n < 64 →
    (c.run.reg c.current.a).toNat = n → (s.dev.net.streams.get {} n).isOpen = true →
    ∃ d' c', exec (.migClose ctx) s = .next { s with dev := d' } ∧ d'.coach? i = some c' ∧
      c'.run = { c.run with g := c.run.g.set c.current.d (BitVec.ofNat 64 n) }.answers 0x00 ∧
      (d'.net.streams.get {} n).isOpen = false ∧ d'.nv = s.dev.nv) ∧
  (∀ (s : State) (ctx : CtxId) (i ns : Nat) (c : Coach), s.dev.Acts ctx i c 0x48 → (c.run.reg c.current.a).toNat = ns →
    (1577836800 * 10 ^ 9 ≤ ns → ns < 2 ^ 63 →
      ∃ d' c', exec (.time ctx) s = .next { s with dev := d' } ∧ d'.coach? i = some c' ∧ c'.run = c.run.answers 0x00 ∧
        d'.wall.known = true ∧ d'.wallNow = ns ∧ d'.life.times = bump s.dev.life.times ∧ d'.nv = s.dev.nv ∧
        d'.chip = s.dev.chip) ∧
    (ns < 1577836800 * 10 ^ 9 →
      ∃ d' c', exec (.time ctx) s = .next { s with dev := d' } ∧ s.dev.Becomes d' i c' ∧ c'.run = c.run.answers 0x1B))

/-- FWSTAGE programs the staged bytes into the staging slot, the check of a complete image makes it the trial image or
marks its slot bad, and 10 s without FWSTAGE end staging. Where a clause counts time it does so in whole ticks of 1
ms: the model's choice (log entry 4). The erased NOR reads 0xFF and NOR writes are immediate: the model's choices (log
entries 14, 33). Rests on R111, R389 to R391. -/
def Obligations.ImagesAreStaged : Prop :=
  (∀ (s : State) (ctx : CtxId) (i slot off : Nat) (c : Coach) (bytes : Bytes), s.dev.At ctx i c 0x49 →
    s.dev.failsafe = false → s.dev.stageRefusal c c.current = none → off = c.current.imm % 2 ^ 26 →
    bytes = slice c.inbound (c.run.reg c.current.a).toNat (c.run.reg c.current.b).toNat →
    slot = (if off = 0 then s.dev.fw.bcr.stagingSlot else s.dev.fw.stageSlot) →
    (∃ m' d' c', exec (.fwstage ctx true) s = .next { s with mem := m', dev := d' } ∧ d'.coach? i = some c' ∧
      c'.run = c.run.answers 0x00 ∧ d'.fw.stageSlot = slot ∧ d'.fw.stageBytes = off + bytes.length ∧
      d'.fw.stageTick = s.dev.chip.tick ∧ m'.norB = s.mem.norB ∧ m'.setWindow = s.mem.setWindow ∧
      ∀ k, k < bytes.length → Mem.read 0xFF m'.norA (slotBase slot + off + k) = bytes.getD k 0) ∧
    (∃ m' d' c', exec (.fwstage ctx false) s = .next { s with mem := m', dev := d' } ∧ d'.coach? i = some c' ∧
      c'.run = c.run.answers 0x00 ∧ d'.fw.stageActive = false ∧ d'.fw.stageResult = 0x63 ∧
      pick d'.fw.bcr.slotState slot = 2)) ∧
  (∀ (s : State) (ctx : CtxId) (i : Nat) (c : Coach) (st : Byte) (ok : Bool), s.dev.At ctx i c 0x49 →
    s.dev.failsafe = false → s.dev.stageRefusal c c.current = some st →
    ∃ d' c', exec (.fwstage ctx ok) s = .next { s with dev := d' } ∧ s.dev.Becomes d' i c' ∧ c'.run = c.run.answers st) ∧
  (∀ (s : State) (st : Byte), s.dev.live = true → s.dev.fw.stageChecking = true →
    st = stagedStatus s.fuses s.mem.norA s.dev.fw.stageSlot s.dev.fw.bcr.floor →
    ∃ m' d', exec .stagedImageCheckDone s = .next { s with mem := m', dev := d' } ∧ d'.fw.stageActive = false ∧
      d'.fw.stageChecking = false ∧ d'.fw.stageResult = st ∧ d'.fw.bcr.seq = s.dev.fw.bcr.seq + 1 ∧
      (st = 0x00 → d'.fw.bcr.trial = s.dev.fw.stageSlot ∧ d'.fw.bcr.tstate = 1 ∧
        pick d'.fw.bcr.slotState s.dev.fw.stageSlot = 1) ∧
      (st ≠ 0x00 → d'.fw.bcr.trial = s.dev.fw.bcr.trial ∧ d'.fw.bcr.tstate = s.dev.fw.bcr.tstate ∧
        pick d'.fw.bcr.slotState s.dev.fw.stageSlot = 2) ∧ d'.fw.bcr.active = s.dev.fw.bcr.active) ∧
  (∀ s : State, s.dev.live = true → s.dev.fw.stageActive = true → s.dev.fw.stageChecking = false →
    s.dev.fw.stageTick + 10000 ≤ s.dev.chip.tick →
    ∃ d', exec .stagingIdleTimeout s = .next { s with dev := d' } ∧
      d'.fw = { s.dev.fw with stageActive := false, stageChecking := false, stageResult := 0x66 } ∧ d'.nv = s.dev.nv)

/-- FWCOMMIT makes a trial that runs the active image, with its settings area and its security floor; a trial that is
not committed within 120 s fails, and the device flushes or resets. Where a clause counts time it does so in whole
ticks of 1 ms: the model's choice (log entry 4). Rests on R111, R392, R394. -/
def Obligations.TrialsAreCommittedOrFail : Prop :=
  (∀ (s : State) (ctx : CtxId) (i : Nat) (c : Coach), s.dev.At ctx i c 0x4A → s.dev.failsafe = false →
    s.dev.fw.recovery ≠ 1 →
    (s.dev.chip.state = 1 → s.dev.fw.bcr.tstate = 2 →
      ∃ m' d' c', exec (.fwcommit ctx) s = .next { s with mem := m', dev := d' } ∧ d'.coach? i = some c' ∧
        c'.run = c.run.answers 0x00 ∧ d'.fw.onTrial = false ∧
        d'.fw.bcr = { s.dev.fw.bcr with
          seq := s.dev.fw.bcr.seq + 1, active := s.dev.fw.bcr.trial, trial := 0xFF, tstate := 0, convArea := 0xFF
          setArea := if s.dev.fw.bcr.convArea = 0xFF then s.dev.fw.bcr.setArea else s.dev.fw.bcr.convArea
          floor := s.dev.fw.image.security, lastResult := 0 } ∧ m'.norB = s.mem.norB) ∧
    (s.dev.fw.bcr.tstate ≠ 2 →
      ∃ d' c', exec (.fwcommit ctx) s = .next { s with dev := d' } ∧ s.dev.Becomes d' i c' ∧
        c'.run = c.run.answers 0x1B)) ∧
  (∀ s : State, s.dev.live = true → s.dev.fw.onTrial = true → s.dev.fw.trialFailed = none → s.dev.pfail.flush = .none →
    s.dev.fw.trialTick + 120000 ≤ s.dev.chip.tick →
    ∃ d', exec .trialExpiry s = .next { s with dev := d' } ∧ d'.fw.trialFailed = some 1 ∧
      (s.dev.chip.state = 1 → d'.pfail.flush = .closing ∧ d'.pfail.trialFlush = true) ∧
      (s.dev.chip.state ≠ 1 → d'.fw.selfReset = true ∧ d'.pfail = s.dev.pfail) ∧ d'.nv = s.dev.nv)

/-- A settings commit takes the record in SET_WINDOW where its format is the one that the running image writes, and
ends with the area not in use holding it on both dies and a boot control record that names that area. How settings are
converted is free; commit while busy is ignored by the model's choice (log entries 5, 33). Rests on R396, R397, R406.
-/
def Obligations.SettingsAreCommitted : Prop :=
  (∀ (s : State) (who : Requester), s.dev.live = true → who ≠ .pf0 → s.dev.fw.setBusy = false →
    (∀ r, s.dev.fw.bcr.tstate ≠ 2 → s.dev.fw.stageActive = false → readSettings 0 s.mem.setWindow 0 = some r →
      r.format = s.dev.fw.image.setWrite →
      exec (.settingsCommit who) s = .next { s with dev := { s.dev with fw := { s.dev.fw with
        setBusy := true
        setRecord := settingsBytes r.format r.flags (s.dev.fw.settingsSeq + 1) 0 0xFF r.body } } }) ∧
    (s.dev.fw.bcr.tstate = 2 ∨ s.dev.fw.stageActive = true →
      exec (.settingsCommit who) s = .next { s with dev := { s.dev with fw := { s.dev.fw with
        setBusy := false, setValid := true, setResult := 0x12, setRecord := [] } } }) ∧
    (s.dev.fw.bcr.tstate ≠ 2 → s.dev.fw.stageActive = false → readSettings 0 s.mem.setWindow 0 = none →
      exec (.settingsCommit who) s = .next { s with dev := { s.dev with fw := { s.dev.fw with
        setBusy := false, setValid := true, setResult := 0x64, setRecord := [] } } })) ∧
  (∀ s : State, s.dev.live = true →
    exec (.settingsCommit .pf0) s =
      .next { s with dev := { s.dev with pcie := { s.dev.pcie with blocked := bump s.dev.pcie.blocked } } }) ∧
  (∀ (s : State) (area : Nat), s.dev.live = true → s.dev.fw.setBusy = true →
    area = (if s.dev.fw.bcr.setArea = 0 then 1 else 0) →
    (∃ m' d', exec (.settingsCommitDone true) s = .next { s with mem := m', dev := d' } ∧ d'.fw.setBusy = false ∧
      d'.fw.setValid = true ∧ d'.fw.setResult = 0x00 ∧ d'.fw.bcr.setArea = area ∧
      d'.fw.bcr.seq = s.dev.fw.bcr.seq + 1 ∧
      ∀ k, k < s.dev.fw.setRecord.length →
        Mem.read 0xFF m'.norA (areaBase area + k) = s.dev.fw.setRecord.getD k 0 ∧
        Mem.read 0xFF m'.norB (mirrorBase area + k) = s.dev.fw.setRecord.getD k 0) ∧
    exec (.settingsCommitDone false) s = .next { s with dev := { s.dev with fw := { s.dev.fw with
      setBusy := false, setValid := true, setResult := 0x63, setRecord := [] } } })

/-- A region fence that completes programs the region's carts and writes a keystone, and one that cannot complete
enters the fail-safe state; a die that fails is out, a MAC or a recorder that fails is fenced. Rests on R16, R17,
R211, R246, R410. -/
def Obligations.FencesComplete : Prop :=
  (∀ (s : State) (r : RegionId) (fate : KeystoneFate), s.dev.live = true → s.dev.chip.fencing.getLsbD r.val = true →
    (∃ d', exec (.regionFenceComplete r { stepsOk := true, keystone := fate }) s = .next { s with dev := d' } ∧
      d'.chip = { s.dev.chip with fencing := setBit s.dev.chip.fencing r.val false } ∧
      (s.dev.store.geom.isSome = true →
        (∀ e ∈ d'.store.buf, regionOfAddr e.1 = r.val → e.2.rec_.stream < 2 → e.2.lost = false → e.2.phase ≠ .buffered) ∧
        (d'.region r.val).kseq = (s.dev.region r.val).kseq + 1 ∧
        ((d'.media r.val).keystones.head?.map (·.kseq)) = some ((s.dev.region r.val).kseq + 1))) ∧
    (∃ d', exec (.regionFenceComplete r { stepsOk := false, keystone := fate }) s = .next { s with dev := d' } ∧ d'.chip.reason = 0x74 ∧
      d'.chip.detail = BitVec.ofNat 8 r.val ∧ d'.pins.alarmOut = true ∧ d'.nv = s.dev.nv)) ∧
  (∀ (s : State) (x : DieId), s.dev.live = true →
    ((s.dev.die x.val).state < 2 → ∃ d', exec (.dieFailed x) s = .next { s with dev := d' } ∧ (d'.die x.val).state = 3 ∧
      d'.eng = s.dev.eng ∧ d'.net = s.dev.net ∧ d'.keys = s.dev.keys) ∧
    (2 ≤ (s.dev.die x.val).state → exec (.dieFailed x) s = .next s)) ∧
  (∀ (s : State) (r m : RegionId), s.dev.live = true → (s.dev.mac (r.val * 8 + m.val)).fenced = false →
    ∃ d', exec (.blockCannotBeRepaired r (.mac m)) s = .next { s with dev := d' } ∧
      (d'.mac (r.val * 8 + m.val)).fenced = true ∧ (d'.mac (r.val * 8 + m.val)).linkUp = false ∧ d'.nv = s.dev.nv) ∧
  (∀ (s : State) (r : RegionId), s.dev.live = true → (s.dev.recorder r.val).fenced = false →
    ∃ d', exec (.blockCannotBeRepaired r .recorder) s = .next { s with dev := d' } ∧
      (d'.recorder r.val).fenced = true ∧ d'.recorderFor r.val = 8 ∧ d'.store = s.dev.store ∧ d'.nv = s.dev.nv) ∧
  (∀ (s : State) (r : RegionId) (ch : Fin 16), s.dev.live = true →
    s.dev.geom.populated r.val ch.val = true → 0 < s.dev.geom.ces → 0 < s.dev.geom.luns →
    ∃ d', exec (.blockCannotBeRepaired r (.nandChannel ch)) s = .next { s with dev := d' } ∧
      2 ≤ (d'.die (r.val * 256 + ch.val * 16)).state ∧ d'.eng = s.dev.eng ∧ d'.net = s.dev.net ∧ d'.keys = s.dev.keys)

/-- A bank counts each search and leaves its result word; a search that meets a row whose parity is wrong, or a match
that its shadow does not confirm, counts it, rewrites the row from its shadow and is repeated; a row that differs
again within 1 s goes to a replacement register; an uncorrectable shadow fails the bank and fences its region. A scrub
pass that ends gives the number of rows it repaired, and repairs those rows. Where a clause counts time it does so in
whole ticks of 1 ms: the model's choice (log entry 4). Upsets of rows come as operands (log entry 36). Rests on R151,
R154, R157 to R161, R164, R165, R160, R167, R168. -/
def Obligations.BanksSearchRepairAndScrub : Prop :=
  ((∀ (s : State) (b : BankId) (key : BitVec 160) (cls : Option ClassId) (k : Nat), s.dev.live = true →
    s.dev.fencedRegion (bankRegion b.val) = false →
    k = (if b.val % 4 = 3 then key.toNat else key.toNat % 2 ^ 80) →
    (s.dev.faultMet b.val k 0 = .none →
      ∃ d', exec (.assocSearch b key cls []) s = .next { s with dev := d' } ∧
        d'.bank b.val = { s.dev.bank b.val with
          searches := bump (s.dev.bank b.val).searches
          c7Searches := if cls.map Fin.val = some 7 then bump (s.dev.bank b.val).c7Searches
                        else (s.dev.bank b.val).c7Searches
          word := s.dev.searchWord b.val k 0 false } ∧
        (∀ q, q ≠ b.val → d'.bank q = s.dev.bank q) ∧ d'.nv = s.dev.nv ∧ d'.chip = s.dev.chip) ∧
    (∀ (us : List Upset) (e : Dev) (row m : Nat), e = s.dev.strikeBank b.val us → (e.bank b.val).struck = [(row, m)] →
      (e.bank b.val).shadowBad = [] → (e.bank b.val).replaced.contains row = false →
      (e.bank b.val).rewritten.get? row = none → (e.bank b.val).failed = false →
      ((∃ seen, e.faultMet b.val k 0 = .falseHit row seen) ∨ ∃ u, e.faultMet b.val k 0 = .parity row u) →
      ∃ d', exec (.assocSearch b key cls us) s = .next { s with dev := d' } ∧ (d'.bank b.val).struck = [] ∧
        (∀ seen, e.faultMet b.val k 0 = .falseHit row seen → (d'.bank b.val).falseHits = bump (s.dev.bank b.val).falseHits ∧
          (d'.bank b.val).parityHits = (s.dev.bank b.val).parityHits) ∧
        (∀ u, e.faultMet b.val k 0 = .parity row u → (d'.bank b.val).parityHits = bump (s.dev.bank b.val).parityHits ∧
          (d'.bank b.val).falseHits = (s.dev.bank b.val).falseHits) ∧
        (d'.bank b.val).rewritten.get? row = some s.dev.chip.tick ∧
        (d'.bank b.val).word = d'.searchWord b.val k 0 true ∧
        d'.life.falseHits.get 0 b.val = bump (s.dev.life.falseHits.get 0 b.val) ∧ d'.chip = s.dev.chip)) ∧
  (∀ (s : State) (b : BankId) (row m t : Nat) (us : List Upset) (e : Dev), s.dev.live = true →
    s.dev.fencedRegion (bankRegion b.val) = false → e = s.dev.strikeBank b.val us →
    (e.bank b.val).shadowBad.contains row = false → (e.bank b.val).struck.get? row = some m →
    (e.bank b.val).replaced.contains row = false → (e.bank b.val).replaced.length < 4 →
    (e.bank b.val).rewritten.get? row = some t → s.dev.chip.tick < t + 1000 →
    ∃ d', exec (.scrubberRowCheck b row us) s = .next { s with dev := d' } ∧
      (d'.bank b.val).scrubFixes = bump (s.dev.bank b.val).scrubFixes ∧ (d'.bank b.val).struck.get? row = none ∧
      (d'.bank b.val).replaced = (s.dev.bank b.val).replaced ++ [row] ∧ d'.chip = s.dev.chip) ∧
  (∀ (s : State) (b : BankId) (row : Nat), (s.dev.bank b.val).shadowBad.contains row = false →
    (s.dev.bank b.val).struck.get? row = none → exec (.scrubberRowCheck b row []) s = .next s) ∧
  (∀ (s : State) (b : BankId) (row : Nat) (us : List Upset), s.dev.live = true →
    s.dev.fencedRegion (bankRegion b.val) = false →
    (s.dev.bank b.val).failed = false → ((s.dev.strikeBank b.val us).bank b.val).shadowBad.contains row = true →
    ∃ d', exec (.scrubberRowCheck b row us) s = .next { s with dev := d' } ∧
      (d'.bank b.val).failed = true ∧ d'.chip.fenced = setBit s.dev.chip.fenced (bankRegion b.val) true ∧
      d'.chip.fenceCause.get 0 (bankRegion b.val) = 2)) ∧
  (∀ (s : State) (ctx : CtxId) (i bank : Nat) (c : Coach) (us : List Upset) (e : Dev), s.dev.live = true →
    s.dev.coach? i = some c → s.dev.coachIn ctx.val = some (i, c) → c.wait = .scrub bank →
    e = s.dev.strikeBank bank us → (e.bank bank).shadowBad = [] → (e.bank bank).struck.wf = true →
    (e.bank bank).replaced.length + (e.bank bank).struck.length ≤ 4 →
    (∀ r ∈ (e.bank bank).replaced, (e.bank bank).struck.get? r = none) →
    ∃ d' c', exec (.camopScrubPassEnd ctx us) s = .next { s with dev := d' } ∧ d'.coach? i = some c' ∧ c'.wait = .none ∧
      c'.run = { c.run with
        g := c.run.g.set c.current.d (BitVec.ofNat 64 (e.bank bank).struck.length) }.answers 0x00 ∧
      (d'.bank bank).struck = [] ∧ d'.nv = s.dev.nv)

/-- CAMOP reads, writes and clears a row, of one bank or of a classification bank of every region, searches a bank for
the lowest row that matches and the next, which a repaired fault repeats, and scrubs a bank: a pass ends with the
number of rows repaired. Rests on R5, R113, R150, R154, R166 to R168. -/
def Obligations.CamopActsOnRows : Prop :=
  ∀ (s : State) (ctx : CtxId) (i row bank : Nat) (all : Bool) (c : Coach), s.dev.Acts ctx i c 0x4B →
    camTarget (c.run.reg c.current.a).toNat = some (row, bank, all) → s.dev.camOk c.current.m row bank all = true →
    (c.current.m = 0 →
      ∃ d' c', exec (.camopReadRow ctx) s = .next { s with dev := d' } ∧ s.dev.Becomes d' i c' ∧
        c'.run = { c.run with
          fetch := s.dev.rowBlock bank row
          g := c.run.g.set c.current.d (BitVec.ofNat 64 ((if (s.dev.validRows bank).contains row then 1 else 0) +
            2 * (if (s.dev.bank bank).replaced.contains row then 1 else 0))) }.answers 0x00) ∧
    (∀ (b : Bytes) (x : ClassRow), c.current.m = 1 → c.camBlock c.current = some b →
      x = ClassRow.ofBlock b → leAt b 0 20 &&& leAt b 20 20 = leAt b 0 20 →
      x.mask = leAt b 20 20 ∧ (x.value / 2 ^ 156 = 1 → x.assoc = leAt b 40 24 % 2 ^ 36) ∧
      (x.value / 2 ^ 156 = 2 → x.assoc = leAt b 40 24 % 2) ∧
      ∃ d' c', exec (.camopWriteRow ctx) s = .next { s with dev := d' } ∧ d'.coach? i = some c' ∧
        c'.run = { c.run with g := c.run.g.set c.current.d 0 }.answers 0x00 ∧
        (∀ k ∈ s.dev.camBanks bank all, (d'.bank k).rows.get? row = some x) ∧
        (∀ k, k ∉ s.dev.camBanks bank all → d'.bank k = s.dev.bank k) ∧ d'.nv = s.dev.nv) ∧
    (c.current.m = 2 →
      ∃ d' c', exec (.camopClearRow ctx) s = .next { s with dev := d' } ∧ d'.coach? i = some c' ∧
        c'.run = { c.run with g := c.run.g.set c.current.d 0 }.answers 0x00 ∧
        (∀ k ∈ s.dev.camBanks bank all, (d'.bank k).rows.get? row = none) ∧
        (∀ k, k ∉ s.dev.camBanks bank all → d'.bank k = s.dev.bank k) ∧ d'.nv = s.dev.nv) ∧
    (∀ (con : CtxId → List Upset → Instr) (lo key : Nat), (con = .camopSearch ∧ c.current.m = 3 ∧ lo = 0) ∨
        (con = .camopNext ∧ c.current.m = 4 ∧ lo = row + 1) → (c.camBlock c.current).bind (searchKey bank) = some key →
      (s.dev.faultMet bank key lo = .none →
        ∃ d' c', exec (con ctx []) s = .next { s with dev := d' } ∧ d'.coach? i = some c' ∧
          c'.run = { c.run with
            g := c.run.g.set c.current.d (BitVec.ofNat 64 (s.dev.searchWord bank key lo false)) }.answers 0x00 ∧
          d'.bank bank = { s.dev.bank bank with
            searches := bump (s.dev.bank bank).searches, word := s.dev.searchWord bank key lo false } ∧
          d'.nv = s.dev.nv) ∧
      (∀ (us : List Upset) (e : Dev) (p m unit : Nat), e = s.dev.strikeBank bank us → (e.bank bank).struck = [(p, m)] →
        (e.bank bank).shadowBad = [] → (e.bank bank).replaced.contains p = false →
        (e.bank bank).rewritten.get? p = none → e.faultMet bank key lo = .parity p unit →
        ∃ d' c', exec (con ctx us) s = .next { s with dev := d' } ∧ d'.coach? i = some c' ∧
          c'.run = { c.run with
            g := c.run.g.set c.current.d (BitVec.ofNat 64 (d'.searchWord bank key lo true)) }.answers 0x00 ∧
          (d'.bank bank).struck = [] ∧
          (d'.bank bank).parityHits = bump (s.dev.bank bank).parityHits ∧ d'.nv = s.dev.nv)) ∧
    (c.current.m = 5 → row = 0 → s.dev.scrubbing bank = false →
      ∃ d' c', exec (.camopScrubBank ctx) s = .next { s with dev := d' } ∧ s.dev.Becomes d' i c' ∧ c'.wait = .scrub bank ∧
        c'.run = c.run)

/-- A page read counts for its block and for its LDPC bin; a sector that cannot be read is rebuilt from mortar or
lost, is counted, and its stripe refreshed; a class-7 read suspends the program or erase of its die, until it resumes
or has used its 10 ms; patrol reads four page groups of a block. Rests on R213 to R215, R253, R434. -/
def Obligations.ReadsOfTheMedia : Prop :=
  (∀ (s : State) (x : DieId) (plane : Fin 4) (block page : Nat) (sector : Fin 16) (n st : Nat) (cls : ClassId),
    s.dev.live = true → s.dev.store.geom.isSome = true →
    s.dev.geom.holds x.val plane.val block page sector.val = true →
    block < 65536 → page < 4096 → s.dev.pfail.flush = .none →
    st = x.val / 256 * 2 ^ 22 + x.val % 16 * 262144 + plane.val * 65536 + block →
    (cls.val ≠ 7 → n ≤ 12 →
      ∃ d', exec (.pageReadComplete x plane block page sector false n .good cls) s = .next { s with dev := d' } ∧
        (d'.blockEntry (blockKey st (dieChannel x.val))).reads =
          min ((s.dev.blockEntry (blockKey st (dieChannel x.val))).reads + 1) 4294967295 ∧
        d'.life.ldpc.get 0 (x.val / 256 * 32 + n) = bump (s.dev.life.ldpc.get 0 (x.val / 256 * 32 + n)) ∧
        d'.store.queues = s.dev.store.queues ∧ d'.nv = s.dev.nv) ∧
    (cls.val = 7 → s.dev.dieBusy x.val = true → (s.dev.store.queues.get {} x.val).spent = false →
      (s.dev.store.queues.get {} x.val).suspended = false →
      ∃ d', exec (.pageReadComplete x plane block page sector false n .good cls) s = .next { s with dev := d' } ∧
        d'.store.queues.get? x.val = some { s.dev.store.queues.get {} x.val with
          suspended := true, since := s.dev.chip.tick } ∧ d'.nv = s.dev.nv) ∧
    (∀ out : SectorResult, out = .failed ∨ (out = .rebuilt ∧ s.dev.rebuildable st page = false) →
      ∃ d', exec (.pageReadComplete x plane block page sector true n out cls) s = .next { s with dev := d' } ∧
        (d'.region (x.val / 256)).uncorr = bump (s.dev.region (x.val / 256)).uncorr ∧ (d'.stripe st).refresh = true ∧
        (d'.stripe st).retireLater.getLsbD (dieChannel x.val) = true ∧ d'.nv = s.dev.nv) ∧
    (s.dev.rebuildable st page = true →
      ∃ d', exec (.pageReadComplete x plane block page sector true n .rebuilt cls) s = .next { s with dev := d' } ∧
        (d'.region (x.val / 256)).rebuilds = bump (s.dev.region (x.val / 256)).rebuilds ∧ (d'.stripe st).refresh = true ∧
        (d'.stripe st).retireLater.getLsbD (dieChannel x.val) = true ∧ d'.nv = s.dev.nv)) ∧
  (∀ (s : State) (x : DieId) (q : DieQueue), s.dev.live = true → s.dev.store.queues.get? x.val = some q →
    q.suspended = true →
    (∃ d', exec (.programEraseResume x) s = .next { s with dev := d' } ∧
      d'.store.queues.get? x.val = some { q with
        suspended := false, held := q.held + (s.dev.chip.tick - q.since) } ∧ d'.nv = s.dev.nv ∧
      d'.store.courses = s.dev.store.courses) ∧
    (10 ≤ q.held + (s.dev.chip.tick - q.since) →
      ∃ d', exec (.suspendLimitExpiry x) s = .next { s with dev := d' } ∧
        d'.store.queues.get? x.val = some { q with
          suspended := false, spent := true, held := q.held + (s.dev.chip.tick - q.since) } ∧ d'.nv = s.dev.nv) ∧
    (q.held + (s.dev.chip.tick - q.since) < 10 →
      ∃ d', exec (.suspendLimitExpiry x) s = .next { s with dev := d' } ∧ d'.store.queues.get? x.val = some q)) ∧
  (∀ (s : State) (r : RegionId) (st : Nat) (ch : Fin 16) (hard : Bool) (e : Dev), s.dev.tending r.val = true →
    e = s.dev.patrolRound r.val → e.patrolNext r.val st ch.val = true → e.patrolDue r.val = true →
    ∃ d', exec (.patrolVisit r st ch [] hard) s = .next { s with dev := d' } ∧
      (d'.blockEntry (blockKey st ch.val)).reads =
        min ((s.dev.blockEntry (blockKey st ch.val)).reads + 4 * s.dev.geom.bpc) 4294967295 ∧
      (hard = true → (d'.stripe st).refresh = true) ∧
      (d'.region r.val).patrolled = (st * 16 + ch.val) :: (e.region r.val).patrolled ∧
      d'.nv = s.dev.nv ∧ d'.keys = s.dev.keys)

/-- A front takes the eligible stripe that is chosen, at once where it is erased, else once each member has been
erased; an erase that fails retires its block. Ties go to the lowest number: the model's choice (log entry 21). Rests
on R205, R210, R211. -/
def Obligations.StripesAreOpenedAndErased : Prop :=
  (∀ (s : State) (f : FrontId) (x : Nat), s.dev.tending (frontRegion f.val) = true → (s.dev.front f.val).stripe = none →
    (s.dev.front f.val).preparing = none →
    (s.dev.eligible (frontRegion f.val)).all (fun y => decide (12 ≤ (channelsOf (s.dev.membersNext y)).length)) = true →
    s.dev.chooseStripe f.val = some x →
    ((s.dev.stripe x).erased = true →
      ∃ d', exec (.stripeOpen f) s = .next { s with dev := d' } ∧ (d'.front f.val).stripe = some x ∧
        (d'.front f.val).next = 0 ∧
        d'.stripe x = { state := .opened, egen := (s.dev.stripe x).egen, kept := frontKept f.val
                        present := s.dev.presentFor x (s.dev.stripe x).egen } ∧ d'.nv = s.dev.nv) ∧
    ((s.dev.stripe x).erased = false → ((s.dev.stripe x).egen + 1) % 4096 ≠ 0 →
      ∃ d', exec (.stripeOpen f) s = .next { s with dev := d' } ∧ (d'.front f.val).stripe = none ∧
        (d'.front f.val).preparing = some (x, s.dev.presentFor x ((s.dev.stripe x).egen + 1)) ∧
        d'.stripe x = { s.dev.stripe x with egen := (s.dev.stripe x).egen + 1, raised := true } ∧ d'.nv = s.dev.nv)) ∧
  (∀ (s : State) (f : FrontId) (ch : Fin 16) (x : Nat) (left : BitVec 16), s.dev.tending (frontRegion f.val) = true →
    (s.dev.front f.val).preparing = some (x, left) → left.getLsbD ch.val = true →
    s.dev.sealedAll (s.dev.stripe x).epochGens = true → (s.dev.store.queues.get {} (stripeDie x ch.val)).suspended = false →
    (∃ d', exec (.blockEraseComplete f ch true) s = .next { s with dev := d' } ∧
      (d'.blockEntry (blockKey x ch.val)).erases = (s.dev.blockEntry (blockKey x ch.val)).erases + 1 ∧
      (d'.blockEntry (blockKey x ch.val)).reads = 0 ∧
      (∀ e ∈ d'.nv.flash, stripeOf e.1 ≠ x ∨ channelOf e.1 ≠ ch.val) ∧
      (setBit left ch.val false ≠ 0 → (d'.front f.val).preparing = some (x, setBit left ch.val false)) ∧
      (setBit left ch.val false = 0 →
        12 ≤ (channelsOf (s.dev.presentFor x (s.dev.stripe x).egen)).length →
        (d'.front f.val).stripe = some x ∧ (d'.stripe x).state = .opened) ∧
      (setBit left ch.val false = 0 →
        (channelsOf (s.dev.presentFor x (s.dev.stripe x).egen)).length < 12 →
        (d'.front f.val).preparing = none ∧ (d'.stripe x).state = .retired)) ∧
    ((s.dev.blockEntry (blockKey x ch.val)).state = 0 →
      ∃ d', exec (.blockEraseComplete f ch false) s = .next { s with dev := d' } ∧
        (d'.blockEntry (blockKey x ch.val)).state = 2 ∧
        (d'.region (stripeRegion x)).eraseFails = bump (s.dev.region (stripeRegion x)).eraseFails ∧ d'.nv = s.dev.nv))

/-- A unit that programs is done, and one that fails is counted; a course whose read-back is good leaves flight and
frees the carts of the records that lie in it alone; a die that has drained is retired. A course that a durability
wait depends on, or that has held data for 10 ms, is padded to its end; a front idle for 10 ms pads on until its
latest course with records can be verified. Where a clause counts time it does so in whole ticks of 1 ms: the model's
choice (log entry 4). Rests on R206, R208, R209, R211, R207. -/
def Obligations.CoursesAreProgrammedVerifiedAndPadded : Prop :=
  ((∀ (s : State) (f : FrontId) (p : Nat) (ch : Fin 16) (x : Course), s.dev.mediaOpen = true →
    s.dev.fencedRegion (frontRegion f.val) = false → s.dev.store.courses.get? (courseKey f.val p) = some x →
    (∀ e ∈ s.dev.store.courses, e.1 = courseKey f.val p → e.2 = x) →
    x.done.getLsbD ch.val = false → x.failed.getLsbD ch.val = false → s.dev.unitFilled f.val ch.val x = true →
    s.dev.inStreamQueue (courseKey f.val p) x = true → s.dev.inDieQueue (courseKey f.val p) x ch.val = true →
    s.dev.unitHeld x ch.val = false →
    (setBit x.done ch.val true ||| x.failed ≠ BitVec.allOnes 16 →
      ∃ d', exec (.unitProgramComplete f p ch true) s = .next { s with dev := d' } ∧
        d'.store.courses.get? (courseKey f.val p) = some { x with done := setBit x.done ch.val true } ∧
        ((∀ e ∈ s.dev.store.courses, e.2.stripe = x.stripe → e.2.programmed = true ∨ e.2.done ||| e.2.failed ≠ BitVec.allOnes 16) →
          d'.store.buf = s.dev.store.buf)) ∧
    (setBit x.done ch.val true ||| x.failed = BitVec.allOnes 16 → x.filled = true → x.holdsData = true →
      x.programmed = false →
      ∃ d', exec (.unitProgramComplete f p ch true) s = .next { s with dev := d' } ∧
        d'.store.courses.get? (courseKey f.val p) =
          some { x with done := setBit x.done ch.val true, programmed := true }) ∧
    (∃ d', exec (.unitProgramComplete f p ch false) s = .next { s with dev := d' } ∧
      (d'.region (stripeRegion x.stripe)).progFails = bump (s.dev.region (stripeRegion x.stripe)).progFails ∧
      ((s.dev.blockEntry (blockKey x.stripe ch.val)).state = 0 → (d'.blockEntry (blockKey x.stripe ch.val)).state = 1) ∧
      d'.eng = s.dev.eng ∧ d'.net = s.dev.net ∧ d'.keys = s.dev.keys)) ∧
  (∀ (s : State) (f : FrontId) (p : Nat) (x : Course), s.dev.tending (frontRegion f.val) = true →
    s.dev.store.courses.get? (courseKey f.val p) = some x → x.programmed = true → x.holdsData = true →
    s.dev.programmedAt f.val (p + 4) = true →
    (∀ e ∈ s.dev.store.courses, e.1 ≠ courseKey f.val p → e.2.stripe = x.stripe → e.2.page ≠ x.page) →
    ∃ d', exec (.courseVerified f p 0) s = .next { s with dev := d' } ∧
      d'.store.courses.get? (courseKey f.val p) = none ∧
      ∀ e ∈ s.dev.store.buf, stripeOf e.1 = x.stripe →
        (s.dev.stripe x.stripe).coursesOf s.dev.geom e.1 e.2.rec_.span = [x.page] → s.dev.store.toCopy.get? e.1 = none →
        s.dev.beingMoved e.1 = false → (∀ c ∈ s.dev.eng.coaches, c.2.heldAddrs.contains e.1 = false) → d'.store.buf.get? e.1 = none) ∧
  (∀ (s : State) (x : DieId), s.dev.tending (x.val / 256) = true → (s.dev.die x.val).state = 1 →
    s.dev.dieHolds x.val = false →
    ∃ d', exec (.dieDrainDone x) s = .next { s with dev := d' } ∧ (d'.die x.val).state = 2 ∧
      d'.eng = s.dev.eng ∧ d'.net = s.dev.net ∧ d'.keys = s.dev.keys)) ∧
  ((∀ (s : State) (f : FrontId) (x : Course) (st per : Nat) (con : FrontId → Instr),
    s.dev.tending (frontRegion f.val) = true → s.dev.openCourse f.val = some x → (s.dev.front f.val).stripe = some st →
    per = (s.dev.stripe st).perCourse s.dev.geom →
    ((con = .padIdleTimeout ∧ s.dev.courseAwaited x = true) ∨
      (con = .padHeldTimeout ∧ x.holdsData = true ∧ x.since + 10 ≤ s.dev.chip.tick)) →
    ∃ d', exec (con f) s = .next { s with dev := d' } ∧
      (d'.front f.val).next = max (s.dev.front f.val).next
        (min ((s.dev.stripe st).capacity s.dev.geom) (ceilDiv (s.dev.front f.val).next per * per)) ∧
      (d'.front f.val).stripe = some st ∧ d'.store.buf = s.dev.store.buf ∧ d'.keys = s.dev.keys) ∧
  (∀ (s : State) (f : FrontId) (st per p : Nat), s.dev.tending (frontRegion f.val) = true →
    (s.dev.sealOwed f.val = true ∨ (s.dev.front f.val).dataTick + 10 ≤ s.dev.chip.tick) → s.dev.lastData f.val = some p →
    (s.dev.front f.val).stripe = some st → per = (s.dev.stripe st).perCourse s.dev.geom →
    ∃ d', exec (.frontIdlePad f) s = .next { s with dev := d' } ∧
      (d'.front f.val).next = max (s.dev.front f.val).next (min ((s.dev.stripe st).capacity s.dev.geom)
        ((ceilDiv (s.dev.front f.val).next per + (p + 5 - s.dev.positions f.val)) * per)) ∧
      d'.store.buf = s.dev.store.buf))

/-- Garbage collection takes its victim, copies each of its records to the relocation stream and erases it; a stripe
that waits for nothing more is free and erased. Ties go to the lowest number: the model's choice (log entry 21). Rests
on R213, R217 to R219. -/
def Obligations.StripesAreRelocated : Prop :=
  (∀ (s : State) (r : RegionId), s.dev.tending r.val = true → (s.dev.region r.val).wake = true →
    exec (.gcVictimSelect r) s = .next s) ∧
  (∀ (s : State) (r : RegionId), s.dev.tending r.val = true → (s.dev.region r.val).wake = false →
    (∀ v b, s.dev.victim r.val = some (v, b) →
      ∃ d', exec (.gcVictimSelect r) s = .next { s with dev := d' } ∧
        d'.stripe v = { s.dev.stripe v with state := .relocating, refresh := false, forRefresh := b, copyWsn := 0 } ∧
        (∀ k, k ≠ v → d'.stripe k = s.dev.stripe k) ∧ d'.nv = s.dev.nv) ∧
    (s.dev.victim r.val = none → exec (.gcVictimSelect r) s = .next s)) ∧
  (∀ (s : State) (r : RegionId) (a : Nat) (rd : ReadBack), s.dev.copying r.val a = true → regionOfAddr a = r.val →
    s.dev.wantsCopy a = true →
    (∀ x f st new, s.dev.readForCopy a rd = some x → f = frontOf (regionOfAddr a) 2 (s.dev.stripe (stripeOf a)).kept →
      s.dev.room f x.span = true → (s.dev.front f).stripe = some st →
      new = (s.dev.stripe st).addrAt s.dev.geom st (s.dev.front f).next → new ≠ a →
      ∃ d' y, exec (.relocationRecordCopy r a rd) s = .next { s with dev := d' } ∧
        d'.store.moves.get? new = some (s.dev.moveFrom a false) ∧ d'.store.toCopy.get? a = none ∧
        (d'.store.buf.get? new).map (·.rec_) = some y ∧ y.payload = x.payload ∧ y.version = x.version ∧ y.key = x.key ∧
        y.relocated = true ∧
        (s.dev.tending r.val = true → s.dev.store.nextWsn + x.span + wsnMargin ≤ s.dev.store.wsnLimit →
          y.wsn = s.dev.store.nextWsn ∧ d'.store.nextWsn = s.dev.store.nextWsn + x.span)) ∧
    (∀ x, s.dev.readForCopy a rd = some x →
      s.dev.room (frontOf (regionOfAddr a) 2 (s.dev.stripe (stripeOf a)).kept) x.span = false →
      ∃ d', exec (.relocationRecordCopy r a rd) s = .next { s with dev := d' } ∧ d'.store.moves = s.dev.store.moves ∧
        d'.store.buf = s.dev.store.buf ∧ d'.store.toCopy = s.dev.store.toCopy) ∧
    (∀ i b, s.dev.store.buf.get? a = none → s.dev.onFailedDie a (s.dev.spanAt a) = false →
      (rd = .uncorrectable [i] ∨ rd = .uncorrectable [] ∧ i = 0) → b = s.dev.sectorAddr a i →
      ∃ d', exec (.relocationRecordCopy r a rd) s = .next { s with dev := d' } ∧
        (d'.region (regionOfAddr b)).uncorr = bump (s.dev.region (regionOfAddr b)).uncorr ∧
        (d'.stripe (stripeOf b)).retireLater.getLsbD (channelOf b) = true ∧
        d'.eng = s.dev.eng ∧ d'.net = s.dev.net ∧ d'.keys = s.dev.keys) ∧
    (s.dev.store.buf.get? a = none → s.dev.onFailedDie a (s.dev.spanAt a) = true →
      ∃ d', exec (.relocationRecordCopy r a rd) s = .next { s with dev := d' } ∧
        (d'.region r.val).uncorr = (s.dev.region r.val).uncorr ∧ d'.store.moves = s.dev.store.moves)) ∧
  (∀ (s : State) (r : RegionId) (st e : Nat), s.dev.tending r.val = true → stripeRegion st = r.val →
    s.dev.mayErase st = true → (s.dev.stripe st).epochGens = [] →
    ((s.dev.stripe st).raised = true ∧ e = (s.dev.stripe st).egen ∨
      (s.dev.stripe st).raised = false ∧ (s.dev.stripe st).retireLater = 0 ∧ e = (s.dev.stripe st).egen + 1 ∧
        e % 4096 ≠ 0) →
    12 ≤ (channelsOf (s.dev.presentFor st e)).length →
    (∀ c ∈ channelsOf (s.dev.presentFor st e), (s.dev.store.queues.get {} (stripeDie st c)).suspended = false) →
    ∃ d', exec (.relocatedStripeErase r st 0) s = .next { s with dev := d' } ∧
      d'.stripe st = { state := .free, erased := true, egen := e } ∧
      (∀ c ∈ channelsOf (s.dev.presentFor st e), ∀ x ∈ d'.nv.flash, stripeOf x.1 ≠ st ∨ channelOf x.1 ≠ c) ∧
      ((s.dev.stripe st).forRefresh = false → (d'.region r.val).gcStripes = bump (s.dev.region r.val).gcStripes) ∧
      ((s.dev.stripe st).forRefresh = true → (d'.region r.val).refreshes = bump (s.dev.region r.val).refreshes))

/-- A seal notes the tables, writes what has changed of them and places its record; durable, a keystone names it, its
list takes the place of the one before, and a keystone block that fails twice is left. Which chunks are dirty is told
by their content: the model's choice (log entry 21). Rests on R191, R193, R205, R220 to R222. -/
def Obligations.SealsBecomeDurable : Prop :=
  (∀ (s : State) (r : RegionId), s.dev.tending r.val = true → (s.dev.region r.val).sealing = none →
    (∀ c, (s.dev.writeSeal r.val).1 = some c →
      ∃ d' x, exec (.sealStart r) s = .next { s with dev := d' } ∧ (d'.region r.val).sealing = some x ∧ x.noted = c ∧
        x.noted.gen = (s.dev.region r.val).sealNow + 1 ∧ x.noted.index = (s.dev.region r.val).chains ∧
        x.noted.stripeList = s.dev.stripeList r.val ∧ (d'.region r.val).sealTick = s.dev.chip.tick ∧
        (d'.region r.val).sealNow = (s.dev.region r.val).sealNow) ∧
    ((s.dev.writeSeal r.val).1 = none →
      ∃ d', exec (.sealStart r) s = .next { s with dev := d' } ∧ (d'.region r.val).sealing = none)) ∧
  (∀ (s : State) (r : RegionId) (x : Sealing), (s.dev.region r.val).sealing = some x →
    (s.dev.tending r.val = true → exec (.sealStart r) s = .next s) ∧
    (s.dev.settled x.noted.addr = false → ∀ ok retry, s.dev.tending r.val = true →
      exec (.sealDurable r ok retry) s = .next s)) ∧
  (∀ (s : State) (r : RegionId) (x : Sealing) (ok retry : Bool), s.dev.tending r.val = true →
    (s.dev.region r.val).sealing = some x → s.dev.settled x.noted.addr = true →
    ∃ d', exec (.sealDurable r ok retry) s = .next { s with dev := d' } ∧ (d'.region r.val).sealing = none ∧
      (d'.region r.val).sealNow = x.noted.gen ∧ (d'.region r.val).sealBefore = (s.dev.region r.val).sealNow ∧
      (d'.region r.val).listed = x.noted.stripeList ∧ (d'.region r.val).listedBefore = (s.dev.region r.val).listed ∧
      (d'.region r.val).kseq = (s.dev.region r.val).kseq + 1 ∧
      ((d'.media r.val).keystones.head?.map fun k => (k.kseq, k.sealAddr, k.ckptGen)) =
        some ((s.dev.region r.val).kseq + 1, x.noted.addr, x.noted.gen) ∧
      (d'.media r.val).checkpoints.head? = some x.noted ∧
      ((d'.media r.val).keystones.head?.map (·.sealPrev)) =
        some ((s.dev.media r.val).keystones.head?.getD {}).sealAddr ∧
      (ok = false → retry = false →
        s.dev.keystoneDead r.val (1 - s.dev.keystoneBlockOf r.val ((s.dev.region r.val).kseq + 1)) = false →
        (d'.region r.val).keystoneSingle = true))

/-- A doorbell moves its queue's index, and one that is out of range is counted and ignored; an entry is fetched under
a free tag, its arrival advances the head, and a read that fails stops its queue. A read that times out is counted and
its tag kept out of use for four times the timeout; a completion that comes late is counted, and the tag returns in
time. Where a clause counts time it does so in whole ticks of 1 ms: the model's choice (log entry 4). The ranges of
the completion timeout are those of the PCI Express specification (log entry 28). Rests on R325, R326, R337, R341,
R316, R339, R340. -/
def Obligations.DoorbellsFetchAndReads : Prop :=
  ((∀ (s : State) (q : QueueId) (v : W32), s.dev.live = true →
    (∀ x, s.dev.queue? q.val = some x → v.toNat < x.size →
      ∃ d', exec (.sqTailDoorbell q v) s = .next { s with dev := d' } ∧
        d'.queue? q.val = some { x with sqTail := v.toNat } ∧ (∀ k, k ≠ q.val → d'.queue? k = s.dev.queue? k) ∧
        d'.pcie.dbInvalid = s.dev.pcie.dbInvalid ∧ d'.eng = s.dev.eng) ∧
    (∀ x, s.dev.queue? q.val = some x → v.toNat < x.size →
      (v.toNat + x.size - x.cqHead) % x.size ≤ (x.cqTail + x.size - x.cqHead) % x.size →
      ∃ d', exec (.cqHeadDoorbell q v) s = .next { s with dev := d' } ∧
        d'.queue? q.val = some { x with
          cqHead := v.toNat, armed := x.intEn && decide ((x.cqTail + x.size - v.toNat) % x.size = 0) } ∧
        d'.eng = s.dev.eng ∧ d'.store = s.dev.store) ∧
    ((∀ x, s.dev.queue? q.val = some x → x.size ≤ v.toNat) →
      (∃ d', exec (.sqTailDoorbell q v) s = .next { s with dev := d' } ∧ d'.pcie.queues = s.dev.pcie.queues ∧
        d'.pcie.dbInvalid = bump s.dev.pcie.dbInvalid) ∧
      (∃ d', exec (.cqHeadDoorbell q v) s = .next { s with dev := d' } ∧ d'.pcie.queues = s.dev.pcie.queues ∧
        d'.pcie.dbInvalid = bump s.dev.pcie.dbInvalid))) ∧
  (∀ (s : State) (q : QueueId) (x : QueuePair) (t : Nat) (r : DmaRead), s.dev.serving = true → s.dev.pfail.flush = .none →
    s.dev.queue? q.val = some x → x.mayFetch = true → s.dev.pcie.pf0.d3hot = false → s.dev.atsOn = false →
    s.dev.pcie.freeTag (s.dev.pcie.sevenQueue q.val) = some t →
    r = { kind := .entry q.val x.sqHead, address := BitVec.ofNat 64 (x.sqBase.toNat + 128 * x.sqHead)
          host := x.sqBase.toNat + 128 * x.sqHead, length := 128, since := s.dev.chip.tick } →
    ∃ d', exec (.sqEntryFetch q) s = .next { s with dev := d' } ∧ d'.pcie.reads.get? t = some r ∧
      d'.out = .dmaRequest t r :: s.dev.out ∧ d'.queue? q.val = some { x with fetching := true }) ∧
  (∀ (s : State) (tag q slot : Nat) (r : DmaRead) (x : QueuePair), s.dev.live = true →
    s.dev.pcie.reads.get? tag = some r → r.kind = .entry q slot → s.dev.queue? q = some x →
    (∀ b : Bytes, b.length < r.length → exec (.dmaReadCompletion tag (.data b)) s = .next s) ∧
    (∀ b : Bytes, r.length ≤ b.length → x.deleting = true →
      ∃ d' x', exec (.dmaReadCompletion tag (.data b)) s = .next { s with dev := d' } ∧ d'.queue? q = some x' ∧
        x'.sqHead = x.sqHead ∧ x'.fetching = false) ∧
    (∀ b : Bytes, r.length ≤ b.length → x.deleting = false →
      ∃ d' x', exec (.dmaReadCompletion tag (.data b)) s = .next { s with dev := d' } ∧ d'.queue? q = some x' ∧
        x'.sqHead = (if x.size ≤ x.sqHead + 1 then 0 else x.sqHead + 1) ∧ x'.fetching = false) ∧
    (x.error = false →
      ∃ d' x', exec (.dmaReadCompletion tag .unsupported) s = .next { s with dev := d' } ∧ d'.queue? q = some x' ∧
        x'.error = true ∧ x'.cause = 2 ∧ x'.fetching = false))) ∧
  ((∀ (s : State) (tag fn : Nat) (r : DmaRead), s.dev.live = true → s.dev.pcie.reads.get? tag = some r →
    fn = (s.dev.requestOf r.kind).1 → r.since + (s.dev.pcie.fn fn).timeoutMs ≤ s.dev.chip.tick →
    ∃ d', exec (.completionTimeout tag) s = .next { s with dev := d' } ∧
      d'.pcie.cplTimeouts = bump s.dev.pcie.cplTimeouts ∧
      d'.pcie.quarantine.get? tag = some (s.dev.chip.tick + 4 * (s.dev.pcie.fn fn).timeoutMs, fn) ∧
      (d'.pcie.fn fn).aerUncorr.getLsbD 14 = true ∧ d'.nv = s.dev.nv) ∧
  (∀ (s : State) (tag n u fn : Nat), s.dev.live = true → s.dev.pcie.quarantine.get? tag = some (u, fn) →
    ∃ d', exec (.lateCompletion tag n) s = .next { s with dev := d' } ∧ d'.pcie.lateCpl = bump s.dev.pcie.lateCpl ∧
      d'.pcie.reads = s.dev.pcie.reads ∧ d'.pcie.quarantine = s.dev.pcie.quarantine ∧ d'.eng = s.dev.eng) ∧
  (∀ (s : State) (tag u fn : Nat), s.dev.live = true → s.dev.pcie.quarantine.get? tag = some (u, fn) →
    (u ≤ s.dev.chip.tick →
      ∃ d', exec (.tagQuarantineExpiry tag) s = .next { s with dev := d' } ∧ d'.pcie.quarantine.get? tag = none ∧
        d'.store = s.dev.store) ∧
    (s.dev.chip.tick < u → exec (.tagQuarantineExpiry tag) s = .next s)))

/-- A queue command runs where none runs and no result stands, and is else ignored and counted: create makes the queue
that its registers describe, delete ends once every command has completed, abort finds its target or answers that it
is done. Rests on R322 to R324, R333. -/
def Obligations.QueueCommandsRun : Prop :=
  (∀ (s : State) (fn : FuncId) (cid : W16), s.dev.live = true →
    (s.dev.pcie.qresult.busy = true ∨ s.dev.pcie.qresult.valid = true) →
    ∀ c, (c = .queueCreate fn ∨ c = .queueDelete fn ∨ c = .queueAbort fn cid) →
      exec c s = .next { s with dev := { s.dev with pcie := { s.dev.pcie with
        cmdIgnored := bump s.dev.pcie.cmdIgnored } } }) ∧
  (∀ (s : State) (fn : FuncId) (q : Nat), s.dev.live = true → s.dev.pcie.qresult.busy = false →
    s.dev.pcie.qresult.valid = false → q = bits s.dev.pcie.qpParam.toNat 0 12 →
    (∃ d', exec (.queueCreate fn) s = .next { s with dev := d' } ∧
      d'.pcie.qresult = { valid := true, busy := false, status := s.dev.pcie.createStatus } ∧
      (s.dev.pcie.createStatus = 0x00 → d'.queue? q = some
        { sqBase := s.dev.pcie.qpSqBase, cqBase := s.dev.pcie.qpCqBase
          size := bits s.dev.pcie.qpParam.toNat 12 16 + 1, cls := bits s.dev.pcie.qpParam.toNat 28 3
          intEn := s.dev.pcie.qpParam.getLsbD 31, vector := s.dev.pcie.qpVec.toNat % 65536
          ruleset := s.dev.pcie.policy.setWidth 16, nsDefault := (s.dev.pcie.policy >>> 16).setWidth 16
          armed := s.dev.pcie.qpParam.getLsbD 31 }) ∧
      (s.dev.pcie.createStatus ≠ 0x00 → d'.pcie.queues = s.dev.pcie.queues)) ∧
    (∀ x, s.dev.queue? q = some x →
      ∃ d', exec (.queueDelete fn) s = .next { s with dev := d' } ∧ d'.queue? q = some { x with deleting := true } ∧
        d'.pcie.deletingQ = some q ∧ d'.pcie.qresult.busy = true ∧ d'.pcie.qresult.valid = false) ∧
    (s.dev.queue? q = none →
      ∃ d', exec (.queueDelete fn) s = .next { s with dev := d' } ∧
        d'.pcie.qresult = { valid := true, busy := false, status := 0x40 } ∧ d'.pcie.queues = s.dev.pcie.queues) ∧
    (∀ (x : QueuePair) (cid : W16), s.dev.queue? q = some x →
      (x.error = true ∨ (x.fetching = false ∧ x.sqHead = x.sqTail)) →
      x.commands.find? (fun e => e.2.sub.cid == cid) = none →
      ∃ d', exec (.queueAbort fn cid) s = .next { s with dev := d' } ∧
        d'.pcie.qresult = { valid := true, busy := false, status := 0x1D } ∧ d'.pcie.abortAsk = none ∧
        d'.pcie.queues = s.dev.pcie.queues) ∧
    (∀ (x : QueuePair) (cid : W16) (key i : Nat) (c : Command) (k : Coach), s.dev.queue? q = some x →
      (x.error = true ∨ (x.fetching = false ∧ x.sqHead = x.sqTail)) →
      x.commands.find? (fun e => e.2.sub.cid == cid) = some (key, c) → c.stage = .coached i →
      s.dev.coach? i = some k → k.stage ≠ .ended → k.run.flags.committed = false →
      ∃ d' k', exec (.queueAbort fn cid) s = .next { s with dev := d' } ∧ d'.coach? i = some k' ∧ k'.stage = .ended ∧
        k'.final = 0x13 ∧ k'.aborted = true ∧ d'.pcie.abortWait = some (q, key, 0x00)) ∧
    (∀ (x : QueuePair) (cid : W16), s.dev.queue? q = some x → x.error = false → x.fetching = true →
      ∃ d', exec (.queueAbort fn cid) s = .next { s with dev := d' } ∧ d'.pcie.abortAsk = some (q, cid) ∧
        d'.pcie.qresult.busy = true)) ∧
  (∀ (s : State) (q : Nat) (x : QueuePair), s.dev.live = true → s.dev.pcie.deletingQ = some q → s.dev.queue? q = some x →
    x.commands = [] → x.fetching = false →
    ∃ d', exec .queueDeleteDone s = .next { s with dev := d' } ∧ d'.queue? q = none ∧ d'.pcie.deletingQ = none ∧
      d'.pcie.qresult = { valid := true, busy := false, status := 0x00 }) ∧
  (∀ (s : State) (fn : FuncId), s.dev.live = true → s.dev.pcie.qresult.valid = true →
    exec (.queueResultAck fn) s = .next { s with dev := { s.dev with pcie := { s.dev.pcie with qresult := {} } } })

/-- The mailbox and MCTP bring privileged programs: a legal entry becomes a coach of a management path, one that is
not legal is answered `ILLEGAL_VALUE`. The form of the MCTP message is the model's choice (log entry 29). Rests on
R63, R327, R329, R335. -/
def Obligations.MailboxAndMctp : Prop :=
  (∀ (s : State) (x : Submission), s.dev.live = true → s.dev.pcie.mboxStatus.busy = false →
    s.dev.pcie.mboxStatus.valid = false → x = parseEntry (Mem.readBytes 0 s.dev.pcie.mboxEntry 0 128) →
    (x.legal = false →
      ∃ d', exec .mboxDoorbell s = .next { s with dev := d' } ∧ d'.pcie.mboxCmd = none ∧
        d'.pcie.mboxStatus = { valid := true, busy := false, status := 0x1B } ∧ d'.eng.coaches = s.dev.eng.coaches) ∧
    (x.legal = true → x.dataLength = 0 → x.dataAddr = 0 → x.respLen = 0 → x.respAddr = 0 → x.kcount = 0 →
      s.dev.readsOf 4096 s.dev.eng.nextStamp = false →
      ∃ d' c, exec .mboxDoorbell s = .next { s with dev := d' } ∧ d'.coach? s.dev.eng.nextCoach = some c ∧
        c.program = x.inline_ ∧ c.path = 2 ∧ c.stage = .arrived ∧ c.source = .mailbox x.cid ∧
        d'.pcie.mboxStatus = { valid := false, busy := true, status := 0x1C } ∧
        d'.eng.nextCoach = s.dev.eng.nextCoach + 1)) ∧
  (∀ s : State, s.dev.live = true → (s.dev.pcie.mboxStatus.busy = true ∨ s.dev.pcie.mboxStatus.valid = true) →
    exec .mboxDoorbell s = .next { s with dev := { s.dev with pcie := { s.dev.pcie with
      cmdIgnored := bump s.dev.pcie.cmdIgnored } } }) ∧
  (∀ s : State, s.dev.live = true → s.dev.pcie.mboxStatus.valid = true →
    exec .mboxAck s = .next { s with dev := { s.dev with pcie := { s.dev.pcie with mboxStatus := {}, mboxResult := none } } }) ∧
  (∀ (s : State) (b : Bytes) (x : Submission), s.dev.pathRuns true = true → x = parseEntry (b.take 128) →
    (b.length = 128 → x.legal = true → x.dataLength = 0 → x.dataAddr = 0 → x.respLen = 0 → x.respAddr = 0 →
      x.kcount = 0 → x.flags.toNat < 4 →
      ∃ d' c, exec (.mctpMessage b) s = .next { s with dev := d' } ∧ d'.coach? s.dev.eng.nextCoach = some c ∧
        c.program = x.inline_ ∧ c.path = 2 ∧ c.stage = .arrived ∧ c.source = .mctp ∧ d'.out = s.dev.out) ∧
    (b.length < 128 →
      ∃ d' m, exec (.mctpMessage b) s = .next { s with dev := d' } ∧ d'.out = .mctp m :: s.dev.out ∧
        d'.eng = s.dev.eng))

/-- A write to a shadow of the peer window has no effect until a commit, which copies every shadow or, where one names
a pool slice that is not there, changes nothing; the window reaches the pool bytes that its mapping in force gives,
and nothing through a slice that is not enabled; requests outside the rules are answered with Unsupported Request; an
Invalidate Request forgets translations and completes once the reads under it have. (R343; rests also on parts of
R316, R338, R342 to R344, R351.) -/
def Obligations.PeerWindowAndTranslations : Prop :=
  (∀ s : State, s.dev.live = true →
    (s.dev.pcie.badShadow = false → exec .pwCommit s = .next { s with dev := { s.dev with pcie := { s.dev.pcie with
      badCommit := false, pwActive := s.dev.pcie.pwShadow } } }) ∧
    (s.dev.pcie.badShadow = true → exec .pwCommit s = .next { s with dev := { s.dev with pcie := { s.dev.pcie with
      badCommit := true } } })) ∧
  (∀ (s : State) (x : Fin 64) (v : W64), s.dev.running = true → s.dev.failsafe = false →
    ∃ d', exec (.genericRegisterWrite .pf1 (0x203000 + 8 * x.val) true v) s = .next { s with dev := d' } ∧
      (d'.pcie.pwShadow.get 0 x.val).setWidth 7 = v.setWidth 7 ∧
      (∀ y, y ≠ x.val → d'.pcie.pwShadow.get? y = s.dev.pcie.pwShadow.get? y) ∧
      d'.pcie.pwActive = s.dev.pcie.pwActive ∧ d'.pcie.badCommit = s.dev.pcie.badCommit) ∧
  (∀ (s : State) (off len : Nat) (b : Bytes), s.dev.running = true → off < s.dev.pcie.windowGiB * 2 ^ 30 →
    off % 4096 + len ≤ 4096 →
    (s.dev.failsafe = true →
      exec (.peerWindowAccess true off len b) s = .next s ∧
      exec (.peerWindowAccess false off len b) s =
        .next { s with dev := { s.dev with out := .completerAbort :: s.dev.out } }) ∧
    (∀ a, s.dev.failsafe = false → s.dev.pcie.poolByte off = some a →
      exec (.peerWindowAccess true off len b) s =
        .next { s with mem := { s.mem with pool := Mem.writeBytes 0 s.mem.pool a (b.take len) } } ∧
      exec (.peerWindowAccess false off len b) s =
        .next { s with dev := { s.dev with out := .readData (Mem.readBytes 0 s.mem.pool a len) :: s.dev.out } }) ∧
    (s.dev.failsafe = false → s.dev.pcie.poolByte off = none →
      exec (.peerWindowAccess false off len b) s =
        .next { s with dev := { s.dev with out := .unsupported :: s.dev.out } } ∧
      ∃ d', exec (.peerWindowAccess true off len b) s = .next { s with dev := d' } ∧
        d'.pcie.pwDiscard = bump s.dev.pcie.pwDiscard ∧ d'.pcie.pf0.aerUncorr.getLsbD 20 = true ∧
        d'.out = s.dev.out)) ∧
  (∀ s : State, s.dev.running = true →
    exec (.unsupportedRequest false) s = .next { s with dev := { s.dev with out := .unsupported :: s.dev.out } } ∧
    ∃ d', exec (.unsupportedRequest true) s = .next { s with dev := d' } ∧ d'.pcie.pf0.aerUncorr.getLsbD 20 = true ∧
      d'.out = s.dev.out ∧ d'.eng = s.dev.eng) ∧
  (∀ (s : State) (lo hi : W64), s.dev.live = true → s.dev.atsOn = true → s.dev.pcie.invalidating.length < 32 →
    ∃ d', exec (.atsInvalidateRequest lo hi) s = .next { s with dev := d' } ∧
      d'.pcie.invalidating = s.dev.pcie.invalidating ++ [(lo.toNat, hi.toNat)] ∧
      (∀ t ∈ d'.pcie.cache, t ∈ s.dev.pcie.cache ∧
        (hi.toNat < t.page * 4096 ∨ t.page * 4096 + 4095 < lo.toNat)) ∧ d'.eng = s.dev.eng) ∧
  (∀ (s : State) (g : Nat × Nat) (rest : List (Nat × Nat)), s.dev.live = true → s.dev.pcie.invalidating = g :: rest →
    (s.dev.pcie.reads.any fun e =>
      !e.2.kind.isTranslation && (s.dev.requestOf e.2.kind).1 == 0 && pageMeets g (e.2.host / 4096)) = false →
    exec .atsInvalidateDone s = .next { s with dev := { s.dev with
      out := .atsComplete :: s.dev.out
      pcie := { s.dev.pcie with invalidating := rest, atsInval := bump s.dev.pcie.atsInval } } })

/-- A function level reset clears its function, but for its sticky error registers, and that function's queues or
mailbox; a hot reset clears both and takes the link down; the link trains to what it negotiates and moves among its
power states. Which registers are sticky is taken from the PCI Express specification (log entry 28). Rests on R315,
R346, R350, R352. -/
def Obligations.ResetsOfTheEndpoint : Prop :=
  (∀ s : State, s.dev.live = true →
    (∃ d', exec .flrPf0 s = .next { s with dev := d' } ∧ d'.pcie.pf0 = s.dev.pcie.pf0.sticky ∧ d'.pcie.queues = [] ∧ d'.pcie.cache = [] ∧
      d'.pcie.qresult = {} ∧ d'.pcie.heldPf0 = [] ∧ d'.pcie.pf1 = s.dev.pcie.pf1 ∧
      d'.pcie.mboxCmd = s.dev.pcie.mboxCmd ∧ d'.pcie.linkUp = s.dev.pcie.linkUp ∧ d'.store = s.dev.store ∧
      d'.nv = s.dev.nv) ∧
    (∃ d', exec .flrPf1 s = .next { s with dev := d' } ∧ d'.pcie.pf1 = s.dev.pcie.pf1.sticky ∧ d'.pcie.mboxCmd = none ∧
      d'.pcie.mboxStatus = {} ∧ d'.pcie.mboxEntry = [] ∧ d'.pcie.pf0 = s.dev.pcie.pf0 ∧
      d'.pcie.queues = s.dev.pcie.queues ∧ d'.store = s.dev.store ∧ d'.nv = s.dev.nv)) ∧
  (∀ (s : State) (cause : PcieDownCause), s.dev.running = true → s.dev.pcie.linkUp = true →
    ∃ d', exec (.hotReset cause) s = .next { s with dev := d' } ∧ d'.pcie.pf0 = s.dev.pcie.pf0.sticky ∧
      d'.pcie.pf1 = s.dev.pcie.pf1.sticky ∧ d'.pcie.queues = [] ∧ d'.pcie.linkUp = false ∧ d'.pcie.gen = 0 ∧ d'.pcie.width = 0 ∧
      d'.pcie.pwActive = s.dev.fw.windowEntries ∧ d'.store = s.dev.store ∧ d'.nv = s.dev.nv) ∧
  (∀ (s : State) (gen : Fin 7) (width : Fin 17) (flit : Bool), s.dev.running = true → s.dev.pcie.training = true →
    s.dev.pcie.linkUp = false → gen.val ≠ 0 → width.val ∈ [1, 2, 4, 8, 16] → (gen.val = 6 → flit = true) →
    ∃ d', exec (.pcieLinkUp gen width flit) s = .next { s with dev := d' } ∧
      d'.pcie = { s.dev.pcie with linkUp := true, gen := gen.val, width := width.val, flit := flit, link := .l0 }) ∧
  (∀ s : State, s.dev.running = true → s.dev.pcie.linkUp = true → s.dev.pcie.link = .l0 →
    (s.dev.pcie.flit = false → s.dev.pcie.pf0.linkControl.getLsbD 0 = true →
      exec .l0sEntry s = .next { s with dev := { s.dev with pcie := { s.dev.pcie with link := .l0s } } }) ∧
    (s.dev.pcie.reads = [] → s.dev.pcie.pf0.linkControl.getLsbD 1 = true →
      exec .l1Entry s = .next { s with dev := { s.dev with pcie := { s.dev.pcie with link := .l1 } } })) ∧
  (∀ (s : State) (l : LinkPower), s.dev.running = true → s.dev.pcie.link = .l1 → s.dev.pcie.substate = some l →
    exec .clkreqRelease s = .next { s with dev := { s.dev with
      pcie := { s.dev.pcie with link := l }, pins := { s.dev.pins with clkreqReleased := true } } }) ∧
  (∀ s : State, s.dev.running = true → s.dev.pcie.link ≠ .l0 →
    exec .linkStateExit s = .next { s with dev := { s.dev with
      pcie := { s.dev.pcie with link := .l0 }, pins := { s.dev.pins with clkreqReleased := false } } })

/-- The device enters the deepest power state that idling allows, a function in D3hot holds its output until D0, a
vector that is unmasked sends its pending message, and configuration space answers with the device's identifiers once
its description table is built. Where a clause counts time it does so in whole ticks of 1 ms: the model's choice (log
entry 4). The places of capability registers are those of the PCI Express specification (log entry 28). Rests on R317,
R321, R336, R347 to R349. -/
def Obligations.PowerStatesAndConfiguration : Prop :=
  (∀ s : State, s.dev.serving = true → s.dev.pfail.flush = .none →
    (∀ e ∈ s.dev.eng.coaches, e.2.stage ≠ .admitted ∧ e.2.stage ≠ .running) → s.dev.pcie.ps < s.dev.idleState →
    (s.dev.idleState < 3 ∨ (s.dev.drained = true ∧ s.dev.coursesDone = true)) →
    ∃ d', exec .powerStateIdleTimeout s = .next { s with dev := d' } ∧ d'.pcie.ps = s.dev.idleState ∧
      d'.pcie.queues = s.dev.pcie.queues ∧ d'.store = s.dev.store ∧ d'.nv = s.dev.nv) ∧
  (∀ (s : State) (fn : FuncId), s.dev.live = true →
    (∃ d', exec (.d3hotEntry fn) s = .next { s with dev := d' } ∧ (d'.pcie.fn fn.val).d3hot = true ∧
      d'.pcie.queues = s.dev.pcie.queues ∧ d'.eng = s.dev.eng) ∧
    ((s.dev.pcie.fn fn.val).d3hot = true → s.dev.pfail.flush = .none →
      ∃ d', exec (.d0Return fn) s = .next { s with dev := d' } ∧ (d'.pcie.fn fn.val).d3hot = false ∧
        ∀ v, Held.message v ∈ (if fn.val = 0 then s.dev.pcie.heldPf0 else s.dev.pcie.heldPf1) →
          Output.msix fn.val v ∈ d'.out)) ∧
  (∀ (s : State) (fn : FuncId) (v : Nat), s.dev.live = true → v < (if fn.val = 0 then 2048 else 16) →
    ∃ d', exec (.msixVectorUnmask fn (some v)) s = .next { s with dev := d' } ∧
      ((d'.pcie.fn fn.val).msixTable.get 1 (4 * v + 3)).getLsbD 0 = false ∧
      ((s.dev.pcie.fn fn.val).msixControl.getLsbD 15 = true → (s.dev.pcie.fn fn.val).msixControl.getLsbD 14 = false →
        v ∈ (s.dev.pcie.fn fn.val).msixPending → (s.dev.pcie.fn fn.val).d3hot = false → s.dev.pfail.flush = .none →
        v ∉ (d'.pcie.fn fn.val).msixPending ∧ Output.msix fn.val v ∈ d'.out)) ∧
  (∀ (s : State) (fn : FuncId) (e : BitVec 4) (v : W32), s.dev.running = true →
    (s.dev.pcie.ddt = none → s.dev.fw.recovery ≠ 1 →
      exec (.configurationRequest fn false 0 e v) s = .next { s with dev := { s.dev with out := .retry :: s.dev.out } }) ∧
    (s.dev.pcie.ddt.isSome = true →
      (∃ o, o = .readData (if fn.val = 0 then [0xE0, 0xC1, 0x40, 0x96] else [0xE0, 0xC1, 0x41, 0x96]) :: s.dev.out ∧
        exec (.configurationRequest fn false 0 e v) s = .next { s with dev := { s.dev with out := o } }) ∧
      (s.dev.failsafe = false → e.getLsbD 0 = true →
        ∃ d', exec (.configurationRequest fn true 0x3C e v) s = .next { s with dev := d' } ∧
          (d'.pcie.fn fn.val).intLine = v.setWidth 8 ∧ d'.eng = s.dev.eng) ∧
      (s.dev.failsafe = true → exec (.configurationRequest fn true 0x3C e v) s = .next s)))

/-- The unwrap lock goes to the requester that finds it free and back from its owner only, and is freed after 100 ms
with no operation; a reseed counts for each open region, and one that fails is an alarm. Where a clause counts time it
does so in whole ticks of 1 ms: the model's choice (log entry 4). That the lock does not time out under a KSLOT is the
model's choice (log entry 22). Rests on R364, R375, R376. -/
def Obligations.UnwrapLockAndReseed : Prop :=
  (∀ (s : State) (who : Requester), s.dev.live = true → who ≠ .pf0 →
    (s.dev.keys.lockOwner = 0 → exec (.unwrapLockAcquire who) s = .next { s with dev := { s.dev with keys :=
      { s.dev.keys with lockOwner := lockCode who, lockTick := s.dev.chip.tick } } }) ∧
    (s.dev.keys.lockOwner ≠ 0 → exec (.unwrapLockAcquire who) s = .next s) ∧
    (s.dev.keys.lockOwner = lockCode who → exec (.unwrapLockRelease who) s = .next { s with dev := { s.dev with keys :=
      { s.dev.keys with lockOwner := 0 } } }) ∧
    (s.dev.keys.lockOwner ≠ lockCode who → exec (.unwrapLockRelease who) s = .next s)) ∧
  (∀ s : State, s.dev.live = true → s.dev.keys.lockOwner ≠ 0 → s.dev.keys.lockTick + 100 ≤ s.dev.chip.tick →
    s.dev.keys.unwrapBusy = false → s.dev.kslotRunning = false →
    ∃ d', exec .unwrapLockTimeout s = .next { s with dev := d' } ∧
      d'.keys = { s.dev.keys with lockOwner := 0, lockTimeouts := bump s.dev.keys.lockTimeouts } ∧ d'.store = s.dev.store) ∧
  (∀ (s : State) (mv mc : W64), s.dev.live = true → s.dev.keys.entropyPassed = true →
    ∃ d', exec (.drbgReseed true mv mc) s = .next { s with dev := d' } ∧
      d'.keys.reseeds = satAdd s.dev.keys.reseeds s.dev.openRegions.length ∧
      (∀ r ∈ s.dev.openRegions, d'.keys.seeded.getLsbD r = true) ∧ d'.chip = s.dev.chip) ∧
  (∀ (s : State) (mv mc : W64), s.dev.running = true → s.dev.failsafe = false →
    ∃ d', exec (.drbgReseed false mv mc) s = .next { s with dev := d' } ∧ d'.chip.reason = 0x70 ∧
      d'.keys.alarm.getLsbD 4 = true ∧ d'.keys.root = none ∧ d'.keys.store = [] ∧ d'.pins.wpHigh = false)

/-- A report that matches an open window of its block adds one to it, and any other opens a window; a window closes at
its second tick and its record goes to a ring; a full ring loses records, which one record then tells; the chip
recorder files them in turn, numbered in order. A full page-group buffer is programmed to the copies of its entry that
take it, and a copy that fails is dead; a write of 1 clears the notification. Where a clause counts time it does so in
whole ticks of 1 ms: the model's choice (log entry 4). Rests on R16, R418 to R420, R428, R423, R425, R427, R430. -/
def Obligations.EventsAreFiledAndLogged : Prop :=
  ((∀ (d : Dev) (r b cell code : Nat) (ps : List Nat), (d.recorder r).windows.get [] b = [] →
    ((d.report r b cell code ps).recorder r).windows.get [] b =
      [{ opened := d.chip.tick
         entry := { code := BitVec.ofNat 16 code, source := BitVec.ofNat 16 (r * 4096 + b * 64 + cell)
                    cycle := min d.chip.powerCycles 1048575, ms := d.chip.powerOnMs % 2 ^ 44, params := ps } }]) ∧
  (∀ (d : Dev) (r b cell code : Nat) (ps : List Nat) (w : Window), (d.recorder r).windows.get [] b = [w] →
    w.entry.code = BitVec.ofNat 16 code → w.entry.source = BitVec.ofNat 16 (r * 4096 + b * 64 + cell) →
    w.entry.params = ps → w.entry.repeats ≠ 254 →
    ((d.report r b cell code ps).recorder r).windows.get [] b =
      [{ w with entry := { w.entry with repeats := w.entry.repeats + 1 } }]) ∧
  (∀ (s : State) (r : Fin 9) (b : Fin 64) (w : Window) (rest : List Window), s.dev.running = true →
    (s.dev.recorder r.val).windows.get [] b.val = w :: rest → w.opened + 2 ≤ s.dev.chip.tick →
    (s.dev.recorder (s.dev.recorderFor r.val)).ring.length < 256 →
    ∃ d', exec (.coalescingWindowClose r b) s = .next { s with dev := d' } ∧
      (d'.recorder r.val).windows.get [] b.val = rest ∧
      (d'.recorder (s.dev.recorderFor r.val)).ring = (s.dev.recorder (s.dev.recorderFor r.val)).ring ++ [w.entry] ∧
      d'.nv = s.dev.nv) ∧
  (∀ (s : State) (r : Fin 9) (b : Fin 64) (w : Window) (rest : List Window), s.dev.running = true →
    (s.dev.recorder r.val).windows.get [] b.val = w :: rest → w.opened + 2 ≤ s.dev.chip.tick →
    256 ≤ (s.dev.recorder (s.dev.recorderFor r.val)).ring.length →
    ∃ d', exec (.coalescingWindowClose r b) s = .next { s with dev := d' } ∧
      (d'.recorder (s.dev.recorderFor r.val)).ring = (s.dev.recorder (s.dev.recorderFor r.val)).ring ∧
      (d'.recorder (s.dev.recorderFor r.val)).lost = bump (s.dev.recorder (s.dev.recorderFor r.val)).lost ∧
      d'.life.recordsLost = bump s.dev.life.recordsLost) ∧
  (∀ (s : State) (r : Fin 9), s.dev.running = true → 0 < (s.dev.recorder r.val).lostNow →
    (s.dev.recorder r.val).ring.length ≤ 192 →
    ∃ d' e, exec (.recordsLostInsert r) s = .next { s with dev := d' } ∧ (d'.recorder r.val).lostNow = 0 ∧
      (d'.recorder r.val).ring = (s.dev.recorder r.val).ring ++ [e] ∧ e.code = 0x7001 ∧
      e.params.head? = some (s.dev.recorder r.val).lostNow ∧ d'.life = s.dev.life) ∧
  (∀ (s : State) (r : Fin 9) (e : EventRec) (rest : List EventRec), s.dev.filing = true →
    s.dev.nextRecorder = some r.val → (s.dev.recorder r.val).ring = e :: rest →
    ∃ d' x, exec (.eventFile r) s = .next { s with dev := d' } ∧ (d'.recorder r.val).ring = rest ∧
      d'.evt.nextSeq = s.dev.evt.nextSeq + 1 ∧ d'.evt.chipRing.head? = some x ∧ x.seq = s.dev.evt.nextSeq ∧
      x.code = e.code ∧ x.params = e.params ∧ d'.evt.turn = (r.val + 1) % 9)) ∧
  ((∀ (s : State) (g : List EventRec) (rest : List (List EventRec)) (p m : Bool), s.dev.running = true →
    s.dev.logWritable = true → s.dev.evt.waiting = g :: rest → s.dev.evt.deadPrimary.getLsbD s.dev.evt.entry = false →
    s.dev.evt.deadMirror.getLsbD s.dev.evt.entry = false → s.dev.evt.entry < 64 →
    (s.dev.nv.log.entry s.dev.evt.entry).groups.length + 1 < s.dev.logGeom.ppb →
    (p = true ∨ m = true →
      ∃ d' w, exec (.logPageProgram p m true true) s = .next { s with dev := d' } ∧ d'.evt.waiting = rest ∧
        (d'.nv.log.entry s.dev.evt.entry).groups =
          (s.dev.nv.log.entry s.dev.evt.entry).groups ++ [{ recs := g, wsn := w, primary := p, mirror := m }] ∧
        (s.dev.store.nextWsn + 2 * s.dev.logSpg + wsnMargin ≤ s.dev.store.wsnLimit →
          w = (s.dev.store.nextWsn, s.dev.store.nextWsn + s.dev.logSpg) ∧
          d'.store.nextWsn = s.dev.store.nextWsn + 2 * s.dev.logSpg) ∧
        d'.evt.deadPrimary.getLsbD s.dev.evt.entry = !p ∧ d'.evt.deadMirror.getLsbD s.dev.evt.entry = !m ∧
        d'.evt.entry = s.dev.evt.entry) ∧
    (p = false → m = false →
      ∃ d', exec (.logPageProgram p m true true) s = .next { s with dev := d' } ∧ d'.evt.waiting = rest ∧
        d'.chip.logDegraded = true ∧ d'.life.passes = bump s.dev.life.passes)) ∧
  (∀ (s : State) (who : Requester), s.dev.live = true → who ≠ .pf0 →
    exec (.evtNotifyPendingClear who) s =
      .next { s with dev := { s.dev with evt := { s.dev.evt with notifyPending := false } } }))

/-- A register write reaches the scratch register or SET_WINDOW as written, from the host or by MWR; PF0 is turned
away from what only PF1 reaches, where it reads zero, and every write is ignored in the fail-safe state, every read
answered. Rests on R29, R30, R108, R406. -/
def Obligations.RegistersAreWritten : Prop :=
  (∀ (s : State) (who : Requester) (v : W64), s.dev.running = true → s.dev.failsafe = false →
    exec (.genericRegisterWrite who 0x38 false v) s =
      .next { s with dev := { s.dev with chip := { s.dev.chip with scratch := v.setWidth 32 } } }) ∧
  (∀ (s : State) (who : Requester) (a : Nat) (v : W64), s.dev.running = true → s.dev.failsafe = false → who ≠ .pf0 →
    0x380000 ≤ a → a + 8 ≤ 0x400000 → a % 8 = 0 →
    ∃ m', exec (.genericRegisterWrite who a true v) s = .next { s with mem := m' } ∧ m'.norA = s.mem.norA ∧
      m'.norB = s.mem.norB ∧ m'.pool = s.mem.pool ∧
      (∀ k, k < 8 → Mem.read 0 m'.setWindow (a - 0x380000 + k) = BitVec.ofNat 8 (v.toNat / 256 ^ k)) ∧
      ∀ x, x < a - 0x380000 ∨ a - 0x380000 + 8 ≤ x → Mem.read 0 m'.setWindow x = Mem.read 0 s.mem.setWindow x) ∧
  (∀ (s : State) (a : Nat) (wide : Bool) (v : W64), s.dev.running = true → s.dev.failsafe = false →
    a < 0x2000000 → a % 8 = 0 → 0x10000 ≤ a → (a < 0x200000 ∨ 0x300000 ≤ a) →
    exec (.genericRegisterWrite .pf0 a wide v) s =
      .next { s with dev := { s.dev with pcie := { s.dev.pcie with blocked := bump s.dev.pcie.blocked } } }) ∧
  (∀ (s : State) (who : Requester) (a : Nat) (wide : Bool), s.dev.running = true → controlAligned a wide = true →
    (who ≠ .pf0 ∨ pf0Reaches a = true →
      ∃ d', exec (.genericRegisterWrite who a wide none) s = .next { s with dev := d' } ∧
        d'.out = .readData (leBytes (if wide then 8 else 4)
          (s.dev.readControl s.fuses s.board.tProgUs s.mem.setWindow wide a)) :: s.dev.out ∧ d'.store = s.dev.store) ∧
    (pf0Reaches a = false → exec (.genericRegisterWrite .pf0 a wide none) s =
      .next { s with dev := { s.dev with pcie := { s.dev.pcie with blocked := bump s.dev.pcie.blocked }
                                         out := .readData (leBytes (if wide then 8 else 4) 0) :: s.dev.out } })) ∧
  (∀ (s : State) (who : Requester) (a : Nat) (wide : Bool) (v : W64), s.dev.failsafe = true →
    exec (.genericRegisterWrite who a wide (some v)) s = .next s) ∧
  (∀ (s : State) (ctx : CtxId) (i : Nat) (c : Coach), s.dev.At ctx i c 0x41 → s.dev.failsafe = false →
    c.control c.current = some (0x38, false) →
    ∃ d' c', exec (.mwr ctx) s = .next { s with dev := d' } ∧ d'.coach? i = some c' ∧ c'.run = c.run.answers 0x00 ∧
      d'.chip = { s.dev.chip with scratch := (c.run.reg c.current.b).setWidth 32 } ∧ d'.nv = s.dev.nv) ∧
  (∀ (s : State) (ctx : CtxId) (i a : Nat) (wide : Bool) (c : Coach), s.dev.At ctx i c 0x41 → s.dev.failsafe = true →
    c.control c.current = some (a, wide) →
    ∃ d' c', exec (.mwr ctx) s = .next { s with dev := d' } ∧ s.dev.Becomes d' i c' ∧ c'.run = c.run.answers 0x00)

/-- The response of an ended coach leaves once its records are as durable as it asked: the coach is gone, and its path
has its answer: the window entry of its session, the completion of its queue command, the result of the mailbox;
segments may be read ahead while it goes on. The cut of a replayable field section is the model's choice (log entry
25). Rests on R243 to R246, R298, R302, R330, R335, R433. -/
def Obligations.ResponsesLeave : Prop :=
  (∀ (s : State) (i : Nat) (c : Coach) (rd : StreamEnv) (ns : W64), s.dev.coach? i = some c → s.dev.mayEmit c = true →
    rd.part = none → c.run.resp = [] →
    (c.source = .orphan →
      ∃ d', exec (.responseEmission i rd ns) s = .next { s with dev := d' } ∧ d'.coach? i = none ∧ d'.out = s.dev.out ∧
        (∀ j, j ≠ i → d'.coach? j = s.dev.coach? j)) ∧
    (c.source = .mctp →
      ∃ d', exec (.responseEmission i rd ns) s = .next { s with dev := d' } ∧ d'.coach? i = none ∧
        d'.out = .mctp (leBytes 4 (outcomeWord (s.dev.finalStatus c) c.run.flags.committed true c.run.flags.stale
          c.run.last c.run.steps).toNat ++ [s.dev.finalStatus c, 0, 0, 0]) :: s.dev.out) ∧
    (∀ (cid : W16) (cmd : Command), c.source = .mailbox cid → s.dev.pcie.mboxCmd = some cmd → cmd.respPieces 0 = [] →
      ∃ d', exec (.responseEmission i rd ns) s = .next { s with dev := d' } ∧ d'.coach? i = none ∧
        d'.pcie.mboxCmd = none ∧
        d'.pcie.mboxStatus = { valid := true, busy := false, status := s.dev.finalStatus c } ∧
        d'.pcie.mboxResult.map (·.status) = some (s.dev.finalStatus c)) ∧
    (∀ (n : Nat) (seq : W32) (x : Session), c.source = .session n seq → s.dev.net.sessions.get? n = some x →
      x.closers = 0 → x.cookie = c.peer.cookie → x.entry seq = some (.inFlight i) → c.acks = [] → c.path = 0 →
      ∃ d' x', exec (.responseEmission i rd ns) s = .next { s with dev := d' } ∧ d'.coach? i = none ∧
        d'.net.sessions.get? n = some x' ∧
        x'.entry seq = some (c.replayEntry (c.response (s.dev.finalStatus c) [])) ∧
        d'.life.latency.get 0 (c.clsNow * 64 + latencyBin ns.toNat) =
          bump (s.dev.life.latency.get 0 (c.clsNow * 64 + latencyBin ns.toNat)))) ∧
  (∀ (s : State) (i slot q : Nat) (cid : W16) (c : Coach) (rd : StreamEnv) (ns : W64) (x : QueuePair) (cmd : Command),
    s.dev.coach? i = some c → s.dev.mayEmit c = true → rd.part = none → c.run.resp = [] → c.source = .queue q cid →
    s.dev.queue? q = some x → x.commands.find? (fun e => e.2.stage == .coached i) = some (slot, cmd) →
    x.commands.get? slot = some cmd → cmd.respPieces 0 = [] → s.dev.atsOn = false →
    ∃ d' x', exec (.responseEmission i rd ns) s = .next { s with dev := d' } ∧ d'.coach? i = none ∧
      d'.queue? q = some x' ∧ x'.commands = x.commands.erase slot ∧
      x'.cqTail = (if x.size ≤ x.cqTail + 1 then 0 else x.cqTail + 1) ∧
      x'.phase = (if x.size ≤ x.cqTail + 1 then !x.phase else x.phase) ∧ x'.armed = false ∧
      d'.pcie.cmds = bump s.dev.pcie.cmds) ∧
  (∀ (s : State) (i : Nat) (c : Coach) (rd : StreamEnv) (ns : W64), s.dev.coach? i = some c → s.dev.durable c = false →
    exec (.responseEmission i rd ns) s = .next s) ∧
  (∀ (s : State) (i n : Nat) (c : Coach) (rd : StreamEnv) (ns : W64), s.dev.coach? i = some c → s.dev.mayEmit c = true →
    rd.part = some n →
    ∃ d', exec (.responseEmission i rd ns) s = .next { s with dev := d' } ∧ s.dev.Becomes d' i
      { c with streamed := c.streamed ++ s.dev.readList (c.unstreamed.take n) rd.bodies })

/-- A step takes the command at the front of the queue: it is `exec` of that command on the state with the queue's
rest; on an empty queue the block idles. That it idles is the model's choice (log entry 2). -/
def Obligations.StepRunsFrontCommand : Prop :=
  (∀ (c : Instr) (rest : List Instr) (s : State), step { s with pending := c :: rest } = exec c { s with pending := rest }) ∧
  ∀ s : State, step { s with pending := [] } = .next { s with pending := [] }

/-- What control space reads right after reset, at the reset values of the register tables: the chip's registers
(R30), the clusters (R75), the banks of the associative engine (R170), the port groups and MACs (R286, R287), the
clock (R288), Jenloth (R314); the byte memories are in canonical form and no command waits. Clauses on what the spec
gives no reset for are the model's choices (log entries 6, 8, 14). -/
def Obligations.ResetReadsTheTables : Prop :=
  let rd := State.reset.dev.readControl State.reset.fuses State.reset.board.tProgUs State.reset.mem.setWindow false
  let at_ (r b off : Nat) := rd (0x1000000 + r * 0x200000 + 0x10000 + b * 0x8000 + off)
  (rd 0 = 0x9640C1E0 ∧ rd 4 = 0x11 ∧ rd 8 = 0 ∧ rd 0xC = 0 ∧ rd 0x10 = 0 ∧ rd 0x14 = 0 ∧ rd 0x38 = 0) ∧
  (∀ r b : Fin 8, at_ r b 0 = 0x63 ∧ at_ r b 4 = 0 ∧ at_ r b 8 = 0) ∧
  (∀ (r : Fin 8) (k : Fin 4), at_ r (27 + k) 0 = (if k.val = 3 then 0x1A else 4) ∧ at_ r (27 + k) 8 = 0xF) ∧
  (∀ r : Fin 8, rd (0x1000000 + r.val * 0x200000 + 0xA000) = 0x3FC) ∧
  (∀ r m : Fin 8, at_ r (31 + m) 0 = 0x70000 ∧ at_ r (31 + m) 8 = 0xFAC688 ∧ at_ r (31 + m) 0xC = 0x2400 ∧
    at_ r (31 + m) 0x10 = 0x1FFFF ∧ at_ r (31 + m) 0x300 = 0xF) ∧
  rd 0xE04028 = 0x320 ∧
  (rd 0x330000 = 0x1D251D24 ∧ rd 0x330004 = 0x64003C ∧ rd 0x330008 = 0xFFFFFFFF ∧ rd 0x33000C = 0xFFFFFFFF) ∧
  State.reset.mem.wf = true ∧ State.reset.pending = []

/-- Every command answers a next state, whatever the state: none stops the block, and none changes the queue, the
fuses or the board. -/
def Obligations.EveryCommandAnswers : Prop :=
  ∀ (c : Instr) (s : State), ∃ t, exec c s = .next t ∧ t.pending = s.pending ∧ t.fuses = s.fuses ∧ t.board = s.board

/-- The frame of every row: each command leaves every group of the device outside its reach as it was, and the byte
memories too unless it is one of the rows that write NOR or the memory behind BAR4. Rests on R362, R384, R395, R401,
R402, R448. -/
def Obligations.CommandsStayWithinTheirReach : Prop :=
  ∀ (c : Instr) (s t : State), exec c s = .next t → State.Within (Instr.reach c) (Instr.touchesBytes c) s t

/-- Every step keeps the canonical form of the byte memories, in every state: addresses strictly rising, and no entry
equal to what an unlisted address reads as. -/
def Obligations.StepsKeepMemoriesCanonical : Prop :=
  ∀ s t : State, s.mem.wf = true → step s = .next t → t.mem.wf = true

/-- The fail-safe state is latched: CHIP_FAILSAFE_REASON.reason keeps the code of the first trigger over every command
but a reset of the whole chip (RESET#, a chip-reset PERST#) and the loss of power. Rests on R30, R410, R411. -/
def Obligations.FailsafeReasonIsLatched : Prop :=
  ∀ (reason : Byte) (c : Instr) (s t : State),
    State.latched reason s → Instr.resets c = false → exec c s = .next t → State.latched reason t
end

