-- ==== Sys2Proof/Laws/FrameOps.lean ====
section
/-!
SUPPORT. Laws/FrameOps.lean: what each operation of Ops, Media, Array, Index, Coach, Records, KeyOps, Network may change. `f_mask` says of an operation `f` which groups of the device it may change: the hypotheses
name them, and every other group is as before.
-/
namespace Sys2Proof.Machine

/-- Blanking goes through a choice. -/
@[simp] theorem ite_mask {T : Groups} {c : Prop} [Decidable c] (a b : Dev) :
    (if c then a else b).mask T = if c then a.mask T else b.mask T := apply_ite (Dev.mask T) c a b

/-- A fold of effects that keep the other groups keeps them. -/
theorem foldl_mask {α : Type} {T : Groups} (l : List α) (f : Dev → α → Dev)
    (h : ∀ d a, (f d a).mask T = d.mask T) (d : Dev) : (l.foldl f d).mask T = d.mask T := by
  induction l generalizing d with
  | nil => rfl
  | cons a l ih => rw [List.foldl_cons, ih, h]

/-- Every device that the result of a counter request holds satisfies `P`. -/
def Counted.all (P : Dev → Prop) : Counted → Prop
  | .waits => True
  | .exhausted e => P e
  | .value _ e => P e

/-- Every device that the result of a record write holds satisfies `P`. -/
def Wrote.all (P : Dev → Prop) : Wrote → Prop
  | .waits _ => True
  | .fails _ e => P e
  | .done _ e => P e

/-! ## Ops -/

@[simp] theorem guarded_mask {T : Groups} (p : Dev → Bool) (f : Dev → Dev) (d : Dev) (hf : ∀ x0, (f x0).mask T =
    x0.mask T) : (guarded p f d).mask T = d.mask T := by
  unfold guarded
  (repeat' split) <;> simp [*]

@[simp] theorem Dev.onChip_mask {T : Groups} (_chip : T.chip = true) (f : Chip → Chip) (d : Dev) : (Dev.onChip f
    d).mask T = d.mask T := by
  simp [Dev.onChip, Dev.mask, *]

@[simp] theorem Dev.onPins_mask {T : Groups} (_pins : T.pins = true) (f : Pins → Pins) (d : Dev) : (Dev.onPins f
    d).mask T = d.mask T := by
  simp [Dev.onPins, Dev.mask, *]

@[simp] theorem Dev.onPfail_mask {T : Groups} (_pfail : T.pfail = true) (f : PowerFail → PowerFail) (d : Dev) :
    (Dev.onPfail f d).mask T = d.mask T := by
  simp [Dev.onPfail, Dev.mask, *]

@[simp] theorem Dev.onEvt_mask {T : Groups} (_evt : T.evt = true) (f : EventState → EventState) (d : Dev) :
    (Dev.onEvt f d).mask T = d.mask T := by
  simp [Dev.onEvt, Dev.mask, *]

@[simp] theorem Dev.onLife_mask {T : Groups} (_life : T.life = true) (f : Lifetime → Lifetime) (d : Dev) :
    (Dev.onLife f d).mask T = d.mask T := by
  simp [Dev.onLife, Dev.mask, *]

@[simp] theorem Dev.foldLife_mask {T : Groups} (_chip : T.chip = true) (d : Dev) : (Dev.foldLife d).mask T = d.mask
    T := by
  simp [Dev.foldLife, *]

@[simp] theorem Dev.onKeys_mask {T : Groups} (_keys : T.keys = true) (f : KeyState → KeyState) (d : Dev) :
    (Dev.onKeys f d).mask T = d.mask T := by
  simp [Dev.onKeys, Dev.mask, *]

@[simp] theorem Dev.onFw_mask {T : Groups} (_fw : T.fw = true) (f : Firmware → Firmware) (d : Dev) : (Dev.onFw f
    d).mask T = d.mask T := by
  simp [Dev.onFw, Dev.mask, *]

@[simp] theorem Dev.onStore_mask {T : Groups} (_store : T.store = true) (f : Store → Store) (d : Dev) : (Dev.onStore
    f d).mask T = d.mask T := by
  simp [Dev.onStore, Dev.mask, *]

@[simp] theorem Dev.onEng_mask {T : Groups} (_eng : T.eng = true) (f : Engines → Engines) (d : Dev) : (Dev.onEng f
    d).mask T = d.mask T := by
  simp [Dev.onEng, Dev.mask, *]

@[simp] theorem Dev.onNet_mask {T : Groups} (_net : T.net = true) (f : Net → Net) (d : Dev) : (Dev.onNet f d).mask T
    = d.mask T := by
  simp [Dev.onNet, Dev.mask, *]

@[simp] theorem Dev.onPcie_mask {T : Groups} (_pcie : T.pcie = true) (f : Pcie → Pcie) (d : Dev) : (Dev.onPcie f
    d).mask T = d.mask T := by
  simp [Dev.onPcie, Dev.mask, *]

@[simp] theorem Dev.onNv_mask {T : Groups} (_nv : T.nv = true) (f : NonVolatile → NonVolatile) (d : Dev) : (Dev.onNv
    f d).mask T = d.mask T := by
  simp [Dev.onNv, Dev.mask, *]

@[simp] theorem Dev.onRegion_mask {T : Groups} (_store : T.store = true) (r : Nat) (f : Region → Region) (d : Dev) :
    (Dev.onRegion r f d).mask T = d.mask T := by
  simp [Dev.onRegion, *]

@[simp] theorem Dev.onMedia_mask {T : Groups} (_nv : T.nv = true) (r : Nat) (f : RegionMedia → RegionMedia) (d :
    Dev) : (Dev.onMedia r f d).mask T = d.mask T := by
  simp [Dev.onMedia, *]

@[simp] theorem Dev.onCluster_mask {T : Groups} (_eng : T.eng = true) (c : Nat) (f : Cluster → Cluster) (d : Dev) :
    (Dev.onCluster c f d).mask T = d.mask T := by
  simp [Dev.onCluster, *]

@[simp] theorem Dev.onLane_mask {T : Groups} (_eng : T.eng = true) (l : Nat) (f : Lane → Lane) (d : Dev) :
    (Dev.onLane l f d).mask T = d.mask T := by
  simp [Dev.onLane, *]

@[simp] theorem Dev.onCoach_mask {T : Groups} (_eng : T.eng = true) (i : Nat) (f : Coach → Coach) (d : Dev) :
    (Dev.onCoach i f d).mask T = d.mask T := by
  simp [Dev.onCoach, *]

@[simp] theorem Dev.onBank_mask {T : Groups} (_store : T.store = true) (b : Nat) (f : Bank → Bank) (d : Dev) :
    (Dev.onBank b f d).mask T = d.mask T := by
  simp [Dev.onBank, *]

@[simp] theorem Dev.onMac_mask {T : Groups} (_net : T.net = true) (a1 : Nat) (f : Mac → Mac) (d : Dev) : (Dev.onMac
    a1 f d).mask T = d.mask T := by
  simp [Dev.onMac, *]

@[simp] theorem Dev.onQueue_mask {T : Groups} (_pcie : T.pcie = true) (q : Nat) (f : QueuePair → QueuePair) (d :
    Dev) : (Dev.onQueue q f d).mask T = d.mask T := by
  simp [Dev.onQueue, *]

@[simp] theorem Dev.onNs_mask {T : Groups} (_store : T.store = true) (n : Nat) (f : Namespace → Namespace) (d : Dev)
    : (Dev.onNs n f d).mask T = d.mask T := by
  simp [Dev.onNs, *]

@[simp] theorem Dev.onRecorder_mask {T : Groups} (_evt : T.evt = true) (r : Nat) (f : Recorder → Recorder) (d : Dev)
    : (Dev.onRecorder r f d).mask T = d.mask T := by
  simp [Dev.onRecorder, *]

@[simp] theorem Dev.onSlot_mask {T : Groups} (_keys : T.keys = true) (a1 : Nat) (f : SlotEntry → SlotEntry) (d :
    Dev) : (Dev.onSlot a1 f d).mask T = d.mask T := by
  simp [Dev.onSlot, *]

@[simp] theorem Dev.each_mask {T : Groups} {α : Type} (l : List α) (f : α → Dev → Dev) (d : Dev) (hf : ∀ x0 x1, (f
    x0 x1).mask T = x1.mask T) : (Dev.each l f d).mask T = d.mask T := by
  exact foldl_mask l _ (fun d a => hf a d) d

@[simp] theorem Dev.when_mask {T : Groups} (c : Bool) (f : Dev → Dev) (d : Dev) (hf : ∀ x0, (f x0).mask T = x0.mask
    T) : (Dev.when c f d).mask T = d.mask T := by
  unfold Dev.when
  (repeat' split) <;> simp [*]

@[simp] theorem Dev.emit_mask {T : Groups} (_out : T.out = true) (o : Output) (d : Dev) : (Dev.emit o d).mask T =
    d.mask T := by
  simp [Dev.emit, Dev.mask, *]

@[simp] theorem Dev.draw_mask {T : Groups} (_free : T.free = true) (d : Dev) : (Dev.draw d).2.mask T = d.mask T :=
    by
  simp [Dev.draw, Dev.mask, *]

@[simp] theorem Dev.countTrap_mask {T : Groups} (_life : T.life = true) (_eng : T.eng = true) (ctx : Nat) (d : Dev)
    : (Dev.countTrap ctx d).mask T = d.mask T := by
  simp [Dev.countTrap, *]

@[simp] theorem Dev.onFn_mask {T : Groups} (_pcie : T.pcie = true) (i : Nat) (f : PcieFunction → PcieFunction) (d :
    Dev) : (Dev.onFn i f d).mask T = d.mask T := by
  simp [Dev.onFn, *]

@[simp] theorem Dev.sendHeld_mask {T : Groups} (_out : T.out = true) (_pcie : T.pcie = true) (fn : Nat) (h : Held)
    (o : Output) (d : Dev) : (Dev.sendHeld fn h o d).mask T = d.mask T := by
  unfold Dev.sendHeld
  (repeat' split) <;> simp [*]

@[simp] theorem Dev.raise_mask {T : Groups} (_out : T.out = true) (_pcie : T.pcie = true) (fn : Nat) (v : Nat) (d :
    Dev) : (Dev.raise fn v d).mask T = d.mask T := by
  unfold Dev.raise
  simp only []
  (repeat' split) <;> try simp [*]

@[simp] theorem byManagement_mask {T : Groups} (_pcie : T.pcie = true) (by_ : Requester) (f : Dev → Dev) (d : Dev)
    (hf : ∀ x0, (f x0).mask T = x0.mask T) : (byManagement by_ f d).mask T = d.mask T := by
  unfold byManagement
  (repeat' split) <;> simp [*]

@[simp] theorem Dev.toRing_mask {T : Groups} (_evt : T.evt = true) (_life : T.life = true) (r : Nat) (a2 : EventRec)
    (d : Dev) : (Dev.toRing r a2 d).mask T = d.mask T := by
  unfold Dev.toRing
  simp only []
  (repeat' split) <;> try simp [*]

@[simp] theorem Dev.sendRecord_mask {T : Groups} (_evt : T.evt = true) (_life : T.life = true) (region : Nat) (a2 :
    EventRec) (d : Dev) : (Dev.sendRecord region a2 d).mask T = d.mask T := by
  simp [Dev.sendRecord, *]

@[simp] theorem Dev.reportCounted_mask {T : Groups} (_evt : T.evt = true) (_life : T.life = true) (counted : Option
    Nat) (region : Nat) (block : Nat) (cell : Nat) (code : Nat) (params : List Nat) (d : Dev) : (Dev.reportCounted
    counted region block cell code params d).mask T = d.mask T := by
  unfold Dev.reportCounted
  simp only []
  (repeat' split) <;> try simp [*]

@[simp] theorem Dev.report_mask {T : Groups} (_evt : T.evt = true) (_life : T.life = true) (region : Nat) (block :
    Nat) (cell : Nat) (code : Nat) (params : List Nat) (d : Dev) : (Dev.report region block cell code params d).mask
    T = d.mask T := by
  simp [Dev.report, *]

@[simp] theorem Dev.closeWindows_mask {T : Groups} (_evt : T.evt = true) (_life : T.life = true) (d : Dev) :
    (Dev.closeWindows d).mask T = d.mask T := by
  unfold Dev.closeWindows
  exact Dev.each_mask _ _ _ fun r d => (Dev.each_mask _ _ _ fun w d => by simp [*]).trans (by simp [*])

@[simp] theorem Dev.enterFailsafe_mask {T : Groups} (_out : T.out = true) (_pins : T.pins = true) (_chip : T.chip =
    true) (_evt : T.evt = true) (_life : T.life = true) (_eng : T.eng = true) (_net : T.net = true) (_pcie : T.pcie
    = true) (reason : Byte) (detail : Byte) (d : Dev) : (Dev.enterFailsafe reason detail d).mask T = d.mask T := by
  unfold Dev.enterFailsafe
  (repeat' split) <;> simp [*]

/-! ## Media -/

@[simp] theorem Dev.onStripe_mask {T : Groups} (_store : T.store = true) (a1 : Nat) (f : Stripe → Stripe) (d : Dev)
    : (Dev.onStripe a1 f d).mask T = d.mask T := by
  simp [Dev.onStripe, *]

@[simp] theorem Dev.onFront_mask {T : Groups} (_store : T.store = true) (i : Nat) (f : Front → Front) (d : Dev) :
    (Dev.onFront i f d).mask T = d.mask T := by
  simp [Dev.onFront, *]

@[simp] theorem Dev.onCourse_mask {T : Groups} (_store : T.store = true) (k : Nat) (f : Course → Course) (d : Dev) :
    (Dev.onCourse k f d).mask T = d.mask T := by
  simp [Dev.onCourse, *]

@[simp] theorem Dev.onBlock_mask {T : Groups} (_store : T.store = true) (b : Nat) (f : BlockEntry → BlockEntry) (d :
    Dev) : (Dev.onBlock b f d).mask T = d.mask T := by
  simp [Dev.onBlock, *]

@[simp] theorem Dev.eraseBlock_mask {T : Groups} (_life : T.life = true) (_store : T.store = true) (_nv : T.nv =
    true) (a1 : Nat) (c : Nat) (d : Dev) : (Dev.eraseBlock a1 c d).mask T = d.mask T := by
  simp [Dev.eraseBlock, *]

@[simp] theorem Dev.reportRegion_mask {T : Groups} (_evt : T.evt = true) (_life : T.life = true) (r : Nat) (code :
    Nat) (params : List Nat) (d : Dev) : (Dev.reportRegion r code params d).mask T = d.mask T := by
  simp [Dev.reportRegion, *]

@[simp] theorem Dev.reportDie_mask {T : Groups} (_evt : T.evt = true) (_life : T.life = true) (die : Nat) (code :
    Nat) (params : List Nat) (d : Dev) : (Dev.reportDie die code params d).mask T = d.mask T := by
  simp [Dev.reportDie, *]

@[simp] theorem Dev.takeWsn_mask {T : Groups} (_store : T.store = true) (n : Nat) (d : Dev) : (Dev.takeWsn n d).mask
    T = d.mask T := by
  simp [Dev.takeWsn, *]

@[simp] theorem Dev.eraseKeystones_mask {T : Groups} (_life : T.life = true) (_store : T.store = true) (_nv : T.nv =
    true) (r : Nat) (b : Nat) (d : Dev) : (Dev.eraseKeystones r b d).mask T = d.mask T := by
  simp [Dev.eraseKeystones, *]

@[simp] theorem Dev.programKeystone_mask {T : Groups} (_life : T.life = true) (_store : T.store = true) (_nv : T.nv
    = true) (r : Nat) (b : Nat) (k : Keystone) (d : Dev) : (Dev.programKeystone r b k d).mask T = d.mask T := by
  simp [Dev.programKeystone, *]

@[simp] theorem Dev.keystoneFailed_mask {T : Groups} (_evt : T.evt = true) (_life : T.life = true) (_store : T.store
    = true) (r : Nat) (b : Nat) (d : Dev) : (Dev.keystoneFailed r b d).mask T = d.mask T := by
  simp [Dev.keystoneFailed, *]

@[simp] theorem Dev.putKeystone_mask {T : Groups} (_evt : T.evt = true) (_life : T.life = true) (_store : T.store =
    true) (_nv : T.nv = true) (fate : KeystoneFate) (r : Nat) (k : Keystone) (d : Dev) : (Dev.putKeystone fate r k
    d).mask T = d.mask T := by
  simp [Dev.putKeystone, *]

@[simp] theorem Dev.writeKeystone_mask {T : Groups} (_evt : T.evt = true) (_life : T.life = true) (_store : T.store
    = true) (_nv : T.nv = true) (fate : KeystoneFate) (r : Nat) (d : Dev) : (Dev.writeKeystone fate r d).mask T =
    d.mask T := by
  simp [Dev.writeKeystone, *]

@[simp] theorem Dev.writeKeystones_mask {T : Groups} (_evt : T.evt = true) (_life : T.life = true) (_store : T.store
    = true) (_nv : T.nv = true) (d : Dev) : (Dev.writeKeystones d).mask T = d.mask T := by
  simp [Dev.writeKeystones, *]

@[simp] theorem Dev.reserveWsn_mask {T : Groups} (_evt : T.evt = true) (_life : T.life = true) (_store : T.store =
    true) (_nv : T.nv = true) (n : Nat) (d : Dev) : (Dev.reserveWsn n d).mask T = d.mask T := by
  unfold Dev.reserveWsn
  (repeat' split) <;> simp [*]

@[simp] theorem Dev.openCourses_mask {T : Groups} (_store : T.store = true) (f : Nat) (lo : Nat) (hi : Nat) (data :
    Bool) (d : Dev) : (Dev.openCourses f lo hi data d).mask T = d.mask T := by
  unfold Dev.openCourses
  simp only []
  (repeat' split) <;> try simp [*]

@[simp] theorem Dev.padFront_mask {T : Groups} (_evt : T.evt = true) (_life : T.life = true) (_store : T.store =
    true) (_nv : T.nv = true) (f : Nat) (n : Nat) (d : Dev) : (Dev.padFront f n d).mask T = d.mask T := by
  unfold Dev.padFront
  simp only []
  (repeat' split) <;> try simp [*]

@[simp] theorem Dev.padStripe_mask {T : Groups} (_evt : T.evt = true) (_life : T.life = true) (_store : T.store =
    true) (_nv : T.nv = true) (f : Nat) (d : Dev) : (Dev.padStripe f d).mask T = d.mask T := by
  unfold Dev.padStripe
  (repeat' split) <;> simp [*]

@[simp] theorem Dev.place_mask {T : Groups} (_evt : T.evt = true) (_life : T.life = true) (_store : T.store = true)
    (_nv : T.nv = true) (f : Nat) (r : Record) (staged : Bool) (d : Dev) : (Dev.place f r staged d).2.mask T =
    d.mask T := by
  unfold Dev.place
  (repeat' split) <;> simp [*]

/-! ## Array -/

@[simp] theorem Dev.countSearch_mask {T : Groups} (_store : T.store = true) (b : Nat) (cls : Nat) (d : Dev) :
    (Dev.countSearch b cls d).mask T = d.mask T := by
  simp [Dev.countSearch, *]

@[simp] theorem Dev.giveWord_mask {T : Groups} (_store : T.store = true) (b : Nat) (w : Nat) (d : Dev) :
    (Dev.giveWord b w d).mask T = d.mask T := by
  simp [Dev.giveWord, *]

@[simp] theorem Dev.searchDir_mask {T : Groups} (_store : T.store = true) (r : Nat) (key : Nat) (cls : Nat) (n :
    Nat) (lo : Nat) (d : Dev) : (Dev.searchDir r key cls n lo d).mask T = d.mask T := by
  have h := fun b e => Dev.each_mask (T := T) (List.range (n + 1)) (fun _ => Dev.countSearch b cls) e
    (fun _ e => Dev.countSearch_mask _store b cls e)
  simp only [Dev.searchDir, Dev.onRegion_mask _store]
  exact Dev.each_mask _ _ _ h

/-! ## Index -/

@[simp] theorem Dev.setChain_mask {T : Groups} (_store : T.store = true) (r : Nat) (f : Nat) (c : Chain) (d : Dev) :
    (Dev.setChain r f c d).mask T = d.mask T := by
  simp [Dev.setChain, *]

@[simp] theorem Dev.putEntry_mask {T : Groups} (_store : T.store = true) (r : Nat) (slot : Nat) (link : Option Nat)
    (a4 : IndexEntry) (d : Dev) : (Dev.putEntry r slot link a4 d).mask T = d.mask T := by
  simp [Dev.putEntry, *]

@[simp] theorem Dev.clearEntry_mask {T : Groups} (_store : T.store = true) (r : Nat) (f : Nat) (slot : Nat) (d :
    Dev) : (Dev.clearEntry r f slot d).mask T = d.mask T := by
  simp [Dev.clearEntry, *]

@[simp] theorem Dev.stepDir_mask {T : Groups} (_store : T.store = true) (r : Nat) (cls : Nat) (ns : W16) (key :
    Bytes) (d : Dev) : (Dev.stepDir r cls ns key d).mask T = d.mask T := by
  simp [Dev.stepDir, *]

@[simp] theorem Dev.onUnit_mask {T : Groups} (_store : T.store = true) (u : Nat) (f : DirUnit → DirUnit) (d : Dev) :
    (Dev.onUnit u f d).mask T = d.mask T := by
  simp [Dev.onUnit, *]

@[simp] theorem Dev.writeRow_mask {T : Groups} (_store : T.store = true) (u : Nat) (d : Dev) : (Dev.writeRow u
    d).mask T = d.mask T := by
  simp [Dev.writeRow, *]

@[simp] theorem Dev.setUnit_mask {T : Groups} (_store : T.store = true) (u : Nat) (x : DirUnit) (d : Dev) :
    (Dev.setUnit u x d).mask T = d.mask T := by
  simp [Dev.setUnit, *]

@[simp] theorem Dev.releaseUnit_mask {T : Groups} (_store : T.store = true) (u : Nat) (d : Dev) : (Dev.releaseUnit u
    d).mask T = d.mask T := by
  unfold Dev.releaseUnit
  (repeat' split) <;> simp [*]

@[simp] theorem Dev.setLive_mask {T : Groups} (_store : T.store = true) (a : Nat) (d : Dev) : (Dev.setLive a d).mask
    T = d.mask T := by
  simp [Dev.setLive, *]

@[simp] theorem Dev.clearLive_mask {T : Groups} (_store : T.store = true) (a : Nat) (d : Dev) : (Dev.clearLive a
    d).mask T = d.mask T := by
  simp [Dev.clearLive, *]

@[simp] theorem Dev.uncache_mask {T : Groups} (_store : T.store = true) (home : Nat) (f : Nat) (a : Nat) (d : Dev) :
    (Dev.uncache home f a d).mask T = d.mask T := by
  unfold Dev.uncache
  simp only []
  (repeat' split) <;> (try simp [*])

@[simp] theorem Dev.cache_mask {T : Groups} (_store : T.store = true) (home : Nat) (f : Nat) (a : Nat) (d : Dev) :
    (Dev.cache home f a d).mask T = d.mask T := by
  unfold Dev.cache
  simp only []
  (repeat' split) <;> (try simp [*])

@[simp] theorem Dev.cacheStep_mask {T : Groups} (_store : T.store = true) (rd : ReadEnv) (home : Nat) (f : Nat) (a :
    Nat) (d : Dev) : (Dev.cacheStep rd home f a d).mask T = d.mask T := by
  unfold Dev.cacheStep
  refine (Dev.when_mask _ _ _ fun e => Dev.cache_mask _store _ _ _ e).trans (Dev.each_mask _ _ _ fun a e => ?_)
  (repeat' split) <;> simp [*]

@[simp] theorem Dev.raiseVersion_mask {T : Groups} (_store : T.store = true) (r : Nat) (ns : Nat) (v : Nat) (d :
    Dev) : (Dev.raiseVersion r ns v d).mask T = d.mask T := by
  simp [Dev.raiseVersion, *]

@[simp] theorem Dev.dropRecords_mask {T : Groups} (_store : T.store = true) (a1 : W16) (a2 : Bytes) (a3 : Nat) (a4 :
    Hit) (a5 : Nat) (d : Dev) : (Dev.dropRecords a1 a2 a3 a4 a5 d).mask T = d.mask T:= by
  unfold Dev.dropRecords
  exact (Dev.onNs_mask _store _ _ _).trans ((Dev.each_mask _ _ _ fun i d => by simp only []; (repeat' split) <;> simp [*]).trans (by simp [*]))

/-! ## Coach -/

@[simp] theorem Dev.onRun_mask {T : Groups} (_eng : T.eng = true) (i : Nat) (f : Run → Run) (d : Dev) : (Dev.onRun i
    f d).mask T = d.mask T := by
  simp [Dev.onRun, *]

@[simp] theorem Dev.onInstr_mask {T : Groups} (ctx : Nat) (p : Fields → Bool) (f : Nat → Coach → Fields → Dev → Dev)
    (d : Dev) (hf : ∀ x0 x1 x2 x3, (f x0 x1 x2 x3).mask T = x3.mask T) : (Dev.onInstr ctx p f d).mask T = d.mask T
    := by
  unfold Dev.onInstr
  (repeat' split) <;> simp [*]

@[simp] theorem accepted_mask {T : Groups} (_eng : T.eng = true) (f : Nat → Coach → Fields → Dev → Dev) (i : Nat) (c
    : Coach) (w : Fields) (d : Dev) (hf : ∀ x0 x1 x2 x3, (f x0 x1 x2 x3).mask T = x3.mask T) : (accepted f i c w
    d).mask T = d.mask T := by
  unfold accepted
  (repeat' split) <;> simp [*]

@[simp] theorem noted_mask {T : Groups} (_eng : T.eng = true) (f : Nat → Coach → Fields → Dev → Dev) (i : Nat) (c :
    Coach) (w : Fields) (d : Dev) (hf : ∀ x0 x1 x2 x3, (f x0 x1 x2 x3).mask T = x3.mask T) : (noted f i c w d).mask
    T = d.mask T := by
  unfold noted
  simp only []
  (repeat' split) <;> try simp [*]

@[simp] theorem pureInstr_mask {T : Groups} (_eng : T.eng = true) (f : Fields → Run → Run) (i : Nat) (a3 : Coach) (w
    : Fields) (d : Dev) : (pureInstr f i a3 w d).mask T = d.mask T := by
  simp [pureInstr, *]

@[simp] theorem Dev.discardRecord_mask {T : Groups} (_store : T.store = true) (a : Nat) (d : Dev) :
    (Dev.discardRecord a d).mask T = d.mask T := by
  simp [Dev.discardRecord, *]

@[simp] theorem Dev.releaseHolds_mask {T : Groups} (_store : T.store = true) (i : Nat) (d : Dev) : (Dev.releaseHolds
    i d).mask T = d.mask T := by
  simp [Dev.releaseHolds, *]

@[simp] theorem Dev.dissolve_mask {T : Groups} (_store : T.store = true) (_eng : T.eng = true) (i : Nat) (d : Dev) :
    (Dev.dissolve i d).mask T = d.mask T := by
  unfold Dev.dissolve
  (repeat' split) <;> simp [*]

@[simp] theorem Dev.endCoach_mask {T : Groups} (_store : T.store = true) (_eng : T.eng = true) (i : Nat) (st : Byte)
    (terminal : Bool) (d : Dev) : (Dev.endCoach i st terminal d).mask T = d.mask T := by
  unfold Dev.endCoach
  simp only []
  (repeat' split) <;> try simp [*]

@[simp] theorem Dev.terminate_mask {T : Groups} (_store : T.store = true) (_eng : T.eng = true) (i : Nat) (st :
    Byte) (d : Dev) : (Dev.terminate i st d).mask T = d.mask T := by
  simp [Dev.terminate, *]

@[simp] theorem acting_mask {T : Groups} (_store : T.store = true) (_eng : T.eng = true) (f : Nat → Coach → Fields →
    Dev → Dev) (i : Nat) (c : Coach) (w : Fields) (d : Dev) (hf : ∀ x0 x1 x2 x3, (f x0 x1 x2 x3).mask T = x3.mask T)
    : (acting f i c w d).mask T = d.mask T := by
  unfold acting
  (repeat' split) <;> simp [*]

@[simp] theorem Dev.finishCoach_mask {T : Groups} (_store : T.store = true) (_eng : T.eng = true) (i : Nat) (d :
    Dev) : (Dev.finishCoach i d).mask T = d.mask T := by
  simp [Dev.finishCoach, *]

@[simp] theorem Dev.appendThen_mask {T : Groups} (_store : T.store = true) (_eng : T.eng = true) (i : Nat) (f :
    RespField) (k : Dev → Dev) (d : Dev) (hk : ∀ x0, (k x0).mask T = x0.mask T) : (Dev.appendThen i f k d).mask T =
    d.mask T := by
  unfold Dev.appendThen
  (repeat' split) <;> simp [*]

@[simp] theorem hashEffect_mask {T : Groups} (_store : T.store = true) (_eng : T.eng = true) (i : Nat) (c : Coach)
    (w : Fields) (d : Dev) : (hashEffect i c w d).mask T = d.mask T := by
  unfold hashEffect
  simp only []
  (repeat' split) <;> try simp [*]

/-! ## Records -/

@[simp] theorem Dev.countLane_mask {T : Groups} (_eng : T.eng = true) (region : Nat) (cipher : Nat) (hash : Nat) (d
    : Dev) : (Dev.countLane region cipher hash d).mask T = d.mask T := by
  simp [Dev.countLane, *]

@[simp] theorem Dev.markSuspect_mask {T : Groups} (_store : T.store = true) (home : Nat) (f : Nat) (a : Nat) (d :
    Dev) : (Dev.markSuspect home f a d).mask T = d.mask T := by
  unfold Dev.markSuspect
  simp only []
  (repeat' split) <;> try simp [*]

@[simp] theorem Dev.countRead_mask {T : Groups} (_eng : T.eng = true) (x : SegRead) (d : Dev) : (Dev.countRead x
    d).mask T = d.mask T := by
  unfold Dev.countRead
  (repeat' split) <;> simp [*]

@[simp] theorem Dev.noteTags_mask {T : Groups} (_evt : T.evt = true) (_life : T.life = true) (_store : T.store =
    true) (_eng : T.eng = true) (cause : Nat) (home : Nat) (ns : W16) (f : Nat) (addr0 : Nat) (l : List SegRead) (d
    : Dev) : (Dev.noteTags cause home ns f addr0 l d).mask T = d.mask T := by
  simp [Dev.noteTags, *]

@[simp] theorem Dev.exhaustSlot_mask {T : Groups} (_evt : T.evt = true) (_life : T.life = true) (_keys : T.keys =
    true) (slot : Nat) (d : Dev) : (Dev.exhaustSlot slot d).mask T = d.mask T := by
  unfold Dev.exhaustSlot
  simp only []
  (repeat' split) <;> try simp [*]

@[simp] theorem Dev.reserveBlock_mask {T : Groups} (_evt : T.evt = true) (_life : T.life = true) (_keys : T.keys =
    true) (_store : T.store = true) (_nv : T.nv = true) (r : Nat) (slot : Nat) (d : Dev) : ∀ e, Dev.reserveBlock r
    slot d = .ok e → e.2.mask T = d.mask T := by
  unfold Dev.reserveBlock
  simp only []
  (repeat' split) <;> try simp [*]

@[simp] theorem Dev.setBlock_mask {T : Groups} (_keys : T.keys = true) (r : Nat) (slot : Nat) (b : CounterBlock) (d
    : Dev) : (Dev.setBlock r slot b d).mask T = d.mask T := by
  simp [Dev.setBlock, *]

theorem Dev.takeCounter_all {T : Groups} (_evt : T.evt = true) (_life : T.life = true) (_keys : T.keys = true)
    (_store : T.store = true) (_nv : T.nv = true) (r slot : Nat)
    (b : CounterBlock) (d : Dev) : (d.takeCounter r slot b).all fun e => e.mask T = d.mask T := by
  unfold Dev.takeCounter
  simp only []
  split
  · split
    · next h => exact (Dev.setBlock_mask _keys _ _ _ _).trans (Dev.reserveBlock_mask _evt _life _keys _store _nv _ _ _ _ h)
    · exact Dev.setBlock_mask _keys _ _ _ _
  · exact Dev.setBlock_mask _keys _ _ _ _

theorem Dev.nextCounter_all {T : Groups} (_keys : T.keys = true) (_store : T.store = true) (_nv : T.nv = true)  (_evt : T.evt = true) (_life : T.life = true) (r slot : Nat)
    (d : Dev) : (d.nextCounter r slot).all fun e => e.mask T = d.mask T := by
  have t := fun b d => Dev.takeCounter_all _evt _life _keys _store _nv r slot b d
  have s := fun b d => Dev.setBlock_mask _keys r slot b d
  have r := fun limit e h => Dev.reserveBlock_mask _evt _life _keys _store _nv r slot d (limit, e) h
  unfold Dev.nextCounter
  simp only []
  (repeat' split) <;> first
    | trivial
    | exact t _ _
    | exact s _ _
    | exact (r _ _ ‹_›) ▸ t _ _
    | simp [Counted.all, *]

@[simp] theorem Dev.countIssued_mask {T : Groups} (_store : T.store = true) (r : Nat) (d : Dev) : (Dev.countIssued r
    d).mask T = d.mask T := by
  simp [Dev.countIssued, *]

@[simp] theorem Dev.insertEntry_mask {T : Groups} (_store : T.store = true) (r : Nat) (a2 : IndexEntry) (d : Dev) :
    ∀ e, Dev.insertEntry r a2 d = some e → e.mask T = d.mask T := by
  intro e h
  simp only [Dev.insertEntry, Option.map_eq_some_iff] at h
  obtain ⟨p, -, rfl⟩ := h
  simp [*]

@[simp] theorem Dev.counterSpent_mask {T : Groups} (_evt : T.evt = true) (_life : T.life = true) (_keys : T.keys =
    true) (_store : T.store = true) (_nv : T.nv = true) (r : Nat) (slot : Nat) (d : Dev) : ∀ e, Dev.counterSpent r
    slot d = some e → e.mask T = d.mask T := by
  intro e h
  have k := Dev.nextCounter_all _keys _store _nv _evt _life r slot d
  unfold Dev.counterSpent at h
  split at h
  · next q => rw [q] at k; cases h; exact k
  · cases h

@[simp] theorem Dev.writeCheck_mask {T : Groups} (_evt : T.evt = true) (_life : T.life = true) (_keys : T.keys =
    true) (_store : T.store = true) (_nv : T.nv = true) (w : WriteAsk) (d : Dev) : ∀ e, Dev.writeCheck w d = some e
    → e.2.mask T = d.mask T := by
  have k : ∀ s, ((d.counterSpent w.home s).getD d).mask T = d.mask T := fun s => by
    cases h : d.counterSpent w.home s with
    | none => rfl
    | some e => exact Dev.counterSpent_mask _evt _life _keys _store _nv _ _ _ _ h
  unfold Dev.writeCheck
  simp only []
  (repeat' split) <;> simp [*]

@[simp] theorem Dev.markSeven_mask {T : Groups} (_store : T.store = true) (a : Nat) (cls : Nat) (d : Dev) :
    (Dev.markSeven a cls d).mask T = d.mask T := by
  simp [Dev.markSeven, *]

theorem Dev.writeSegment_all {T : Groups} (_keys : T.keys = true) (_store : T.store = true) (_nv : T.nv = true)
    (_evt : T.evt = true) (_life : T.life = true) (_eng : T.eng = true) (bd : Board) (w : WriteAsk) (n i : Nat) (seg : Bytes)
    (d : Dev) : (d.writeSegment bd w n i seg).all fun e => e.mask T = d.mask T := by
  have p := fun f x b d => Dev.place_mask _evt _life _store _nv f x b d
  have c := fun r a b d => Dev.countLane_mask _eng r a b d
  have m := fun a n d => Dev.markSeven_mask _store a n d
  have k := Dev.nextCounter_all _keys _store _nv _evt _life w.home (d.ns w.ns.toNat).keySlot d
  have kv : ∀ iv e, d.nextCounter w.home (d.ns w.ns.toNat).keySlot = .value iv e → e.mask T = d.mask T :=
    fun _ _ h => by rw [h] at k; exact k
  have ke : ∀ e, d.nextCounter w.home (d.ns w.ns.toNat).keySlot = .exhausted e → e.mask T = d.mask T :=
    fun _ h => by rw [h] at k; exact k
  unfold Dev.writeSegment
  simp only []
  (repeat' split) <;> first
    | trivial
    | exact ke _ ‹_›
    | exact (m _ _ _).trans ((p _ _ _ _).trans (c _ _ _ _))
    | exact (m _ _ _).trans ((p _ _ _ _).trans ((c _ _ _ _).trans (kv _ _ ‹_›)))

theorem Dev.writeRecords_all {T : Groups} (_keys : T.keys = true) (_store : T.store = true) (_nv : T.nv = true)
    (_evt : T.evt = true) (_life : T.life = true) (_eng : T.eng = true) (bd : Board) (w : WriteAsk)
    (d : Dev) : (d.writeRecords bd w).all fun e => e.mask T = d.mask T := by
  have g := fun n i seg d => Dev.writeSegment_all _keys _store _nv _evt _life _eng bd w n i seg d
  unfold Dev.writeRecords
  split
  · next h => exact Dev.writeCheck_mask _evt _life _keys _store _nv _ _ _ h
  simp only []
  suffices h : ∀ (l : List Nat) (a : Wrote), (a.all fun e => e.mask T = d.mask T) → Wrote.all (fun e => e.mask T = d.mask T)
      (l.foldl _ a) from h _ _ rfl
  intro l
  induction l with
  | nil => exact fun _ h => h
  | cons i l ih =>
    refine fun a h => ih _ ?_
    cases a with
    | waits p => trivial
    | fails st e => exact h
    | done as e =>
      have k := g (segmentsOf w.value).length i ((segmentsOf w.value).getD i []) e
      simp only []
      split
      · next q => rw [q] at k; exact k.trans h
      · next q =>
        rw [q] at k
        split
        · exact k.trans h
        · simp [Wrote.all, *]
      · trivial

@[simp] theorem Dev.commitValue_mask {T : Groups} (_store : T.store = true) (a1 : WriteAsk) (a2 : Nat) (a3 : List
    (Nat × Nat)) (d : Dev) : (Dev.commitValue a1 a2 a3 d).mask T = d.mask T:= by
  have h : ∀ r e d, (((Dev.insertEntry r e d).getD d).mask T) = d.mask T := fun r e d => by
    cases h : Dev.insertEntry r e d with
    | none => rfl
    | some e' => exact Dev.insertEntry_mask _store _ _ _ _ h
  unfold Dev.commitValue
  simp only []
  rw [Dev.setUnit_mask _store, Dev.raiseVersion_mask _store, Dev.onNs_mask _store,
    Dev.each_mask _ _ _ (fun _ _ => Dev.setLive_mask _store _ _),
    Dev.each_mask _ _ _ (fun _ _ => by split; exact Dev.putEntry_mask _store _ _ _ _ _; exact h _ _ _)]
  split <;> simp [*]

@[simp] theorem Dev.commitDelete_mask {T : Groups} (_store : T.store = true) (ns : W16) (key : Bytes) (home : Nat)
    (f : Nat) (h : Hit) (unit : Nat) (a : Nat) (version : Nat) (cls : Nat) (d : Dev) : (Dev.commitDelete ns key home
    f h unit a version cls d).mask T = d.mask T := by
  unfold Dev.commitDelete
  (repeat' split) <;> simp [*]

theorem Dev.writeTombstone_all {T : Groups} (_evt : T.evt = true) (_life : T.life = true) (_store : T.store = true) (_nv : T.nv = true) (bd : Board) (ns : W16) (key : Bytes)
    (home version cls : Nat) (m : Option Nat) (d : Dev) :
    (d.writeTombstone bd ns key home version cls m).all fun e => e.mask T = d.mask T := by
  have p := fun f x b => Dev.place_mask _evt _life _store _nv f x b d
  have m := fun a n d => Dev.markSeven_mask _store a n d
  unfold Dev.writeTombstone
  simp only []
  split
  · trivial
  split
  · trivial
  exact (m _ _ _).trans (p _ _ _)

/-! ## KeyOps -/

@[simp] theorem Dev.endWith_mask {T : Groups} (_eng : T.eng = true) (i : Nat) (st : Byte) (f : Run → Run) (d : Dev)
    : (Dev.endWith i st f d).mask T = d.mask T := by
  simp [Dev.endWith, *]

@[simp] theorem Dev.fail_mask {T : Groups} (_eng : T.eng = true) (i : Nat) (st : Byte) (d : Dev) : (Dev.fail i st
    d).mask T = d.mask T := by
  simp [Dev.fail, *]

@[simp] theorem Dev.waitFor_mask {T : Groups} (_eng : T.eng = true) (i : Nat) (w : Wait) (d : Dev) : (Dev.waitFor i
    w d).mask T = d.mask T := by
  simp [Dev.waitFor, *]

@[simp] theorem Dev.gateFail_mask {T : Groups} (_store : T.store = true) (_eng : T.eng = true) (i : Nat) (c : Coach)
    (r : Nat) (st : Byte) (d : Dev) : (Dev.gateFail i c r st d).mask T = d.mask T := by
  unfold Dev.gateFail
  (repeat' split) <;> simp [*]

@[simp] theorem keyEffect_mask {T : Groups} (_eng : T.eng = true) (i : Nat) (c : Coach) (w : Fields) (d : Dev) :
    (keyEffect i c w d).mask T = d.mask T := by
  unfold keyEffect
  (repeat' split) <;> simp [*]

@[simp] theorem nspEffect_mask {T : Groups} (_store : T.store = true) (_eng : T.eng = true) (i : Nat) (c : Coach) (w
    : Fields) (d : Dev) : (nspEffect i c w d).mask T = d.mask T := by
  unfold nspEffect
  simp only []
  (repeat' split) <;> try simp [*]

@[simp] theorem Dev.readDone_mask {T : Groups} (_store : T.store = true) (_eng : T.eng = true) (i : Nat) (w :
    Fields) (a : ReadAsk) (version : Nat) (f : Run → Run) (d : Dev) : (Dev.readDone i w a version f d).mask T =
    d.mask T := by
  unfold Dev.readDone
  (repeat' split) <;> simp [*]

@[simp] theorem Dev.serve_mask {T : Groups} (_evt : T.evt = true) (_life : T.life = true) (_store : T.store = true)
    (_eng : T.eng = true) (i : Nat) (home : Nat) (f : Nat) (c : Coach) (w : Fields) (a : ReadAsk) (h : Hit) (bodies
    : List ReadBack) (d : Dev) : (Dev.serve i home f c w a h bodies d).mask T = d.mask T := by
  unfold Dev.serve
  simp only []
  (repeat' split) <;> try simp [*]

@[simp] theorem Dev.notServedKey_mask {T : Groups} (_eng : T.eng = true) (i : Nat) (w : Fields) (attach : Bool) (l :
    Lookup) (own : Bool) (d : Dev) : (Dev.notServedKey i w attach l own d).mask T = d.mask T := by
  unfold Dev.notServedKey
  (repeat' split) <;> simp [*]

@[simp] theorem Dev.fallBack_mask {T : Groups} (_evt : T.evt = true) (_life : T.life = true) (_store : T.store =
    true) (_eng : T.eng = true) (home : Nat) (f : Nat) (rd : ReadEnv) (i : Nat) (c : Coach) (w : Fields) (l :
    Lookup) (d : Dev) : (Dev.fallBack home f rd i c w l d).mask T = d.mask T := by
  unfold Dev.fallBack
  simp only []
  (repeat' split) <;> try simp [*]

@[simp] theorem Dev.countCollision_mask {T : Groups} (_store : T.store = true) (home : Nat) (d : Dev) :
    (Dev.countCollision home d).mask T = d.mask T := by
  simp [Dev.countCollision, *]

@[simp] theorem Dev.noteOld_mask {T : Groups} (_evt : T.evt = true) (_life : T.life = true) (_store : T.store =
    true) (home : Nat) (ns : W16) (f : Nat) (l : Lookup) (staged : Bool) (d : Dev) : (Dev.noteOld home ns f l staged
    d).mask T = d.mask T := by
  unfold Dev.noteOld
  (repeat' split) <;> simp [*]

@[simp] theorem Dev.commitPoint_mask {T : Groups} (_eng : T.eng = true) (i : Nat) (awaits : List Nat) (ns : List
    W16) (d : Dev) : (Dev.commitPoint i awaits ns d).mask T = d.mask T := by
  simp [Dev.commitPoint, *]

@[simp] theorem Dev.stage_mask {T : Groups} (_store : T.store = true) (_eng : T.eng = true) (i : Nat) (ns : W16)
    (key : Bytes) (f : Nat) (home : Nat) (u : Updated) (d : Dev) : (Dev.stage i ns key f home u d).mask T = d.mask T
    := by
  unfold Dev.stage
  (repeat' split) <;> simp [*]

@[simp] theorem Dev.waitUnit_mask {T : Groups} (_store : T.store = true) (_eng : T.eng = true) (i : Nat) (home :
    Nat) (d : Dev) : (Dev.waitUnit i home d).mask T = d.mask T := by
  unfold Dev.waitUnit
  (repeat' split) <;> simp [*]

@[simp] theorem Dev.padWaiting_mask {T : Groups} (_evt : T.evt = true) (_life : T.life = true) (_store : T.store =
    true) (_nv : T.nv = true) (p : Option Nat) (d : Dev) : (Dev.padWaiting p d).mask T = d.mask T := by
  unfold Dev.padWaiting
  (repeat' split) <;> simp [*]

@[simp] theorem Dev.updated_mask {T : Groups} (_store : T.store = true) (_eng : T.eng = true) (i : Nat) (home : Nat)
    (w : Fields) (gd : Nat) (token : Option Bytes) (found : Bool) (pending : Bool) (d : Dev) : (Dev.updated i home w
    gd token found pending d).mask T = d.mask T := by
  unfold Dev.updated
  (repeat' split) <;> simp [*]

@[simp] theorem Dev.holdKey_mask {T : Groups} (_store : T.store = true) (i : Nat) (unit : Nat) (f : Nat) (ns : W16)
    (key : Bytes) (c : Coach) (d : Dev) : (Dev.holdKey i unit f ns key c d).mask T = d.mask T := by
  simp [Dev.holdKey, *]

@[simp] theorem Dev.updateFails_mask {T : Groups} (_store : T.store = true) (_eng : T.eng = true) (i : Nat) (c :
    Coach) (st : Byte) (f : Run → Run) (d : Dev) : (Dev.updateFails i c st f d).mask T = d.mask T := by
  simp [Dev.updateFails, *]

@[simp] theorem Dev.putValue_mask {T : Groups} (_evt : T.evt = true) (_life : T.life = true) (_keys : T.keys = true)
    (_store : T.store = true) (_eng : T.eng = true) (_nv : T.nv = true) (bd : Board) (i home f : Nat) (c : Coach)
    (w : Fields) (l : Lookup) (a : ValueAsk) (d : Dev) : (Dev.putValue bd i home f c w l a d).mask T = d.mask T:= by
  have kd : ∀ x as e, d.writeRecords bd x = .done as e → e.mask T = d.mask T := fun x _ _ h => by
    have k := Dev.writeRecords_all _keys _store _nv _evt _life _eng bd x d
    rw [h] at k; exact k
  have kf : ∀ x as e, d.writeRecords bd x = .fails as e → e.mask T = d.mask T := fun x _ _ h => by
    have k := Dev.writeRecords_all _keys _store _nv _evt _life _eng bd x d
    rw [h] at k; exact k
  have kc : ∀ x e, d.writeCheck x = some e → e.2.mask T = d.mask T := fun x e h =>
    Dev.writeCheck_mask _evt _life _keys _store _nv _ _ _ h
  unfold Dev.putValue
  simp only []
  (repeat' split) <;> simp [*] <;> first | exact kd _ _ _ ‹_› | exact kf _ _ _ ‹_› | exact kc _ _ ‹_›

@[simp] theorem Dev.deleteKey_mask {T : Groups} (_evt : T.evt = true) (_life : T.life = true) (_store : T.store = true)
    (_eng : T.eng = true) (_nv : T.nv = true) (bd : Board) (i home f : Nat) (c : Coach) (w : Fields) (l : Lookup) (h : Hit)
    (pending : Bool) (d : Dev) : (Dev.deleteKey bd i home f c w l h pending d).mask T = d.mask T:= by
  have kd : ∀ v as e, d.writeTombstone bd c.run.nsReg c.run.keyReg home v c.clsNow c.memberId = .done as e →
      e.mask T = d.mask T := fun v _ _ h => by
    have k := Dev.writeTombstone_all _evt _life _store _nv bd c.run.nsReg c.run.keyReg home v c.clsNow c.memberId d
    rw [h] at k; exact k
  have kf : ∀ v st e, d.writeTombstone bd c.run.nsReg c.run.keyReg home v c.clsNow c.memberId = .fails st e →
      e.mask T = d.mask T := fun v _ _ h => by
    have k := Dev.writeTombstone_all _evt _life _store _nv bd c.run.nsReg c.run.keyReg home v c.clsNow c.memberId d
    rw [h] at k; exact k
  unfold Dev.deleteKey
  simp only []
  (repeat' split) <;> simp [*] <;> first | exact kd _ _ _ ‹_› | exact kf _ _ _ ‹_›

@[simp] theorem Dev.lockFails_mask {T : Groups} (_store : T.store = true) (_eng : T.eng = true) (i : Nat) (st :
    Byte) (d : Dev) : (Dev.lockFails i st d).mask T = d.mask T := by
  simp [Dev.lockFails, *]

@[simp] theorem Dev.publish_mask {T : Groups} (_store : T.store = true) (home : Nat) (cls : Nat) (x : Staged) (d :
    Dev) : (Dev.publish home cls x d).mask T = d.mask T := by
  unfold Dev.publish
  simp only []
  (repeat' split) <;> try simp [*]

@[simp] theorem commitCore_mask {T : Groups} (_evt : T.evt = true) (_life : T.life = true) (_store : T.store = true)
    (_eng : T.eng = true) (_nv : T.nv = true) (bd : Board) (i : Nat) (c : Coach) (set : AtomicSet) (d : Dev) :
    (commitCore bd i c set d).mask T = d.mask T := by
  have k := fun f x b d => Dev.place_mask _evt _life _store _nv f x b d
  unfold commitCore
  simp only []
  (repeat' split) <;> simp [*]

@[simp] theorem Dev.countImport_mask {T : Groups} (_net : T.net = true) (i : Nat) (c : Coach) (n : Nat) (d : Dev) :
    (Dev.countImport i c n d).mask T = d.mask T := by
  unfold Dev.countImport
  simp only []
  (repeat' split) <;> try simp [*]

/-! ## Network -/

@[simp] theorem Dev.reportMac_mask {T : Groups} (_evt : T.evt = true) (_life : T.life = true) (a1 : Nat) (cell :
    Nat) (code : Nat) (params : List Nat) (d : Dev) : (Dev.reportMac a1 cell code params d).mask T = d.mask T := by
  simp [Dev.reportMac, *]

@[simp] theorem Dev.sendPfc_mask {T : Groups} (_out : T.out = true) (_net : T.net = true) (a1 : Nat) (cls : Nat)
    (time : Nat) (d : Dev) : (Dev.sendPfc a1 cls time d).mask T = d.mask T := by
  simp [Dev.sendPfc, *]

@[simp] theorem Dev.sendPause_mask {T : Groups} (_out : T.out = true) (_net : T.net = true) (a1 : Nat) (cls : Nat)
    (time : Nat) (d : Dev) : (Dev.sendPause a1 cls time d).mask T = d.mask T := by
  simp [Dev.sendPause, *]

@[simp] theorem Dev.sendFlow_mask {T : Groups} (_out : T.out = true) (_net : T.net = true) (a1 : Nat) (cls : Nat)
    (time : Nat) (d : Dev) : (Dev.sendFlow a1 cls time d).mask T = d.mask T := by
  unfold Dev.sendFlow
  simp only []
  (repeat' split) <;> try simp [*]

@[simp] theorem Dev.fillPartition_mask {T : Groups} (_out : T.out = true) (_net : T.net = true) (a1 : Nat) (cls :
    Nat) (n : Nat) (d : Dev) : (Dev.fillPartition a1 cls n d).mask T = d.mask T := by
  unfold Dev.fillPartition
  simp only []
  (repeat' split) <;> try simp [*]

@[simp] theorem Dev.drainPartition_mask {T : Groups} (_net : T.net = true) (a1 : Nat) (cls : Nat) (n : Nat) (d :
    Dev) : (Dev.drainPartition a1 cls n d).mask T = d.mask T := by
  simp [Dev.drainPartition, *]

@[simp] theorem Dev.respond_mask {T : Groups} (_net : T.net = true) (a1 : Nat) (tag : Option VlanTag) (f : OutFrame)
    (d : Dev) : (Dev.respond a1 tag f d).mask T = d.mask T := by
  simp [Dev.respond, *]

@[simp] theorem Dev.notServed_mask {T : Groups} (_net : T.net = true) (a1 : Nat) (d : Dev) : (Dev.notServed a1
    d).mask T = d.mask T := by
  simp [Dev.notServed, *]

@[simp] theorem Dev.arpReply_mask {T : Groups} (_net : T.net = true) (a1 : Nat) (tag : Option VlanTag) (f :
    OutFrame) (d : Dev) : (Dev.arpReply a1 tag f d).mask T = d.mask T := by
  unfold Dev.arpReply
  simp only []
  (repeat' split) <;> try simp [*]

@[simp] theorem Dev.echoReply_mask {T : Groups} (_net : T.net = true) (enable : Nat) (a2 : Nat) (tag : Option
    VlanTag) (f : OutFrame) (d : Dev) : (Dev.echoReply enable a2 tag f d).mask T = d.mask T := by
  unfold Dev.echoReply
  simp only []
  (repeat' split) <;> try simp [*]

@[simp] theorem Dev.macControl_mask {T : Groups} (_net : T.net = true) (a1 : Nat) (opcode : W16) (enables : Byte)
    (times : List W16) (d : Dev) : (Dev.macControl a1 opcode enables times d).mask T = d.mask T := by
  unfold Dev.macControl
  simp only []
  (repeat' split) <;> simp [*]

@[simp] theorem Dev.jenCount_mask {T : Groups} (_store : T.store = true) (r : Nat) (i : Nat) (d : Dev) :
    (Dev.jenCount r i d).mask T = d.mask T := by
  simp [Dev.jenCount, *]

@[simp] theorem Dev.toParser_mask {T : Groups} (_out : T.out = true) (_store : T.store = true) (_net : T.net = true)
    (a1 : Nat) (cls : Nat) (a3 : Frame) (v6 : Bool) (src : W128) (dst : W128) (srcPort : W16) (dstPort : W16) (p :
    Bytes) (d : Dev) : (Dev.toParser a1 cls a3 v6 src dst srcPort dstPort p d).mask T = d.mask T := by
  unfold Dev.toParser
  simp only []
  (repeat' split) <;> try simp [*]

@[simp] theorem Dev.ptpReceive_mask {T : Groups} (_out : T.out = true) (a1 : Nat) (event : Bool) (allowed : Bool)
    (msg : Bytes) (d : Dev) : (Dev.ptpReceive a1 event allowed msg d).mask T = d.mask T := by
  simp [Dev.ptpReceive, *]

@[simp] theorem Dev.deliver_mask {T : Groups} (_out : T.out = true) (_store : T.store = true) (_net : T.net = true)
    (fu : Fuses) (a2 : Nat) (cls : Nat) (f : Frame) (d : Dev) : (Dev.deliver fu a2 cls f d).mask T = d.mask T := by
  unfold Dev.deliver
  simp only []
  (repeat' split) <;> try simp [*]

@[simp] theorem Dev.receiveChecks_mask {T : Groups} (_out : T.out = true) (_store : T.store = true) (_net : T.net =
    true) (fu : Fuses) (a2 : Nat) (cls : Nat) (f : Frame) (d : Dev) : (Dev.receiveChecks fu a2 cls f d).mask T =
    d.mask T := by
  unfold Dev.receiveChecks
  simp only []
  (repeat' split) <;> try simp [*]

@[simp] theorem Dev.receive_mask {T : Groups} (_out : T.out = true) (_evt : T.evt = true) (_life : T.life = true)
    (_store : T.store = true) (_net : T.net = true) (fu : Fuses) (a2 : Nat) (f : Frame) (d : Dev) : (Dev.receive fu
    a2 f d).mask T = d.mask T := by
  unfold Dev.receive
  simp only []
  (repeat' split) <;> try simp [*]

@[simp] theorem Dev.countTx_mask {T : Groups} (_net : T.net = true) (a1 : Nat) (f : OutFrame) (d : Dev) :
    (Dev.countTx a1 f d).mask T = d.mask T := by
  simp [Dev.countTx, *]

@[simp] theorem Dev.sendFrame_mask {T : Groups} (_out : T.out = true) (_evt : T.evt = true) (_life : T.life = true)
    (_store : T.store = true) (_net : T.net = true) (fu : Fuses) (a2 : Nat) (f : OutFrame) (d : Dev) :
    (Dev.sendFrame fu a2 f d).mask T = d.mask T := by
  simp [Dev.sendFrame, *]

@[simp] theorem Dev.firmwareSend_mask {T : Groups} (_out : T.out = true) (_evt : T.evt = true) (_life : T.life =
    true) (_store : T.store = true) (_net : T.net = true) (fu : Fuses) (a2 : Nat) (fw : FirmwareFrame) (d : Dev) :
    (Dev.firmwareSend fu a2 fw d).mask T = d.mask T := by
  unfold Dev.firmwareSend
  simp only []
  (repeat' split) <;> try simp [*]

@[simp] theorem Dev.transmit_mask {T : Groups} (_out : T.out = true) (_evt : T.evt = true) (_life : T.life = true)
    (_store : T.store = true) (_net : T.net = true) (fu : Fuses) (a2 : Nat) (cls : Nat) (d : Dev) : (Dev.transmit fu
    a2 cls d).mask T = d.mask T := by
  unfold Dev.transmit
  (repeat' split) <;> simp [*]

@[simp] theorem Dev.readLayout_mask {T : Groups} (_store : T.store = true) (_net : T.net = true) (r : Nat) (d : Dev)
    : (Dev.readLayout r d).mask T = d.mask T := by
  simp [Dev.readLayout, *]

@[simp] theorem Dev.lockLanes_mask {T : Groups} (_store : T.store = true) (a1 : Nat) (on : Bool) (d : Dev) :
    (Dev.lockLanes a1 on d).mask T = d.mask T := by
  unfold Dev.lockLanes
  (repeat' split) <;> simp [*]

@[simp] theorem Dev.linkDown_mask {T : Groups} (_evt : T.evt = true) (_life : T.life = true) (_store : T.store =
    true) (_net : T.net = true) (a1 : Nat) (cause : LinkDownCause) (d : Dev) : (Dev.linkDown a1 cause d).mask T =
    d.mask T := by
  unfold Dev.linkDown
  (repeat' split) <;> simp [*]

@[simp] theorem Dev.writeMacCfg_mask {T : Groups} (_evt : T.evt = true) (_life : T.life = true) (_store : T.store =
    true) (_net : T.net = true) (a1 : Nat) (v : W32) (d : Dev) : (Dev.writeMacCfg a1 v d).mask T = d.mask T := by
  unfold Dev.writeMacCfg
  simp only []
  (repeat' split) <;> try simp [*]

@[simp] theorem Dev.onPtp_mask {T : Groups} (_net : T.net = true) (f : Ptp → Ptp) (d : Dev) : (Dev.onPtp f d).mask T
    = d.mask T := by
  simp [Dev.onPtp, *]

end Sys2Proof.Machine
end

