-- ==== Sys2Proof/Laws/FrameStore.lean ====
section
/-!
SUPPORT. Laws/FrameStore.lean: what each operation of Jenloth, Fences, Admission, Seals, Courses, Store may change. `f_mask` says of an operation `f` which groups of the device it may change: the hypotheses
name them, and every other group is as before.
-/
namespace Sys2Proof.Machine

/-! ## Jenloth -/

@[simp] theorem Dev.queueFrame_mask {T : Groups} (_net : T.net = true) (a1 : Nat) (cls : Nat) (f : OutFrame) (d :
    Dev) : (Dev.queueFrame a1 cls f d).mask T = d.mask T := by
  simp [Dev.queueFrame, *]

@[simp] theorem Dev.sendJen_mask {T : Groups} (_net : T.net = true) (a1 : Nat) (cls : Nat) (p : Peer) (message :
    Bytes) (d : Dev) : (Dev.sendJen a1 cls p message d).mask T = d.mask T := by
  simp [Dev.sendJen, *]

@[simp] theorem Dev.refuse_mask {T : Groups} (_store : T.store = true) (_net : T.net = true) (a1 : Nat) (x :
    RxFrame) (st : Byte) (d : Dev) : (Dev.refuse a1 x st d).mask T = d.mask T := by
  simp [Dev.refuse, *]

@[simp] theorem jenRow_mask {T : Groups} (_net : T.net = true) (type : Nat) (a2 : Nat) (f : RxFrame → Dev → Dev) (d
    : Dev) (hf : ∀ x0 x1, (f x0 x1).mask T = x1.mask T) : (jenRow type a2 f d).mask T = d.mask T := by
  unfold jenRow
  (repeat' split) <;> simp [*]

@[simp] theorem Dev.onSession_mask {T : Groups} (_net : T.net = true) (n : Nat) (f : Session → Session) (d : Dev) :
    (Dev.onSession n f d).mask T = d.mask T := by
  simp [Dev.onSession, *]

@[simp] theorem Dev.closeStream_mask {T : Groups} (_evt : T.evt = true) (_life : T.life = true) (_net : T.net =
    true) (n : Nat) (cause : Nat) (d : Dev) : (Dev.closeStream n cause d).mask T = d.mask T := by
  simp [Dev.closeStream, *]

@[simp] theorem Dev.closeStreamsOf_mask {T : Groups} (_evt : T.evt = true) (_life : T.life = true) (_net : T.net =
    true) (kind : Nat) (source : Nat) (d : Dev) : (Dev.closeStreamsOf kind source d).mask T = d.mask T := by
  simp [Dev.closeStreamsOf, *]

@[simp] theorem Dev.dropHeld_mask {T : Groups} (_eng : T.eng = true) (n : Nat) (d : Dev) : (Dev.dropHeld n d).mask T
    = d.mask T := by
  simp [Dev.dropHeld, *]

@[simp] theorem Dev.endSession_mask {T : Groups} (_evt : T.evt = true) (_life : T.life = true) (_eng : T.eng = true)
    (_net : T.net = true) (n : Nat) (d : Dev) : (Dev.endSession n d).mask T = d.mask T := by
  simp [Dev.endSession, *]

@[simp] theorem Dev.sendControl_mask {T : Groups} (_net : T.net = true) (a1 : Session) (n : Nat) (type : Nat) (seq :
    Nat) (body : Bytes) (d : Dev) : (Dev.sendControl a1 n type seq body d).mask T = d.mask T := by
  simp [Dev.sendControl, *]

@[simp] theorem Dev.openAck_mask {T : Groups} (_net : T.net = true) (fu : Fuses) (a2 : Nat) (x : RxFrame) (n : Nat)
    (a5 : Session) (d : Dev) : (Dev.openAck fu a2 x n a5 d).mask T = d.mask T := by
  simp [Dev.openAck, *]

@[simp] theorem Dev.openFails_mask {T : Groups} (_net : T.net = true) (a1 : Nat) (x : RxFrame) (st : Byte) (d : Dev)
    : (Dev.openFails a1 x st d).mask T = d.mask T := by
  simp [Dev.openFails, *]

@[simp] theorem openEffect_mask {T : Groups} (_free : T.free = true) (_evt : T.evt = true) (_life : T.life = true)
    (_store : T.store = true) (_net : T.net = true) (fu : Fuses) (a2 : Nat) (x : RxFrame) (d : Dev) : (openEffect fu
    a2 x d).mask T = d.mask T := by
  unfold openEffect
  simp only []
  (repeat' split) <;> try simp [*]

@[simp] theorem withSession_mask {T : Groups} (_store : T.store = true) (_net : T.net = true) (a1 : Nat) (f : Nat →
    Session → RxFrame → Dev → Dev) (x : RxFrame) (d : Dev) (hf : ∀ x0 x1 x2 x3, (f x0 x1 x2 x3).mask T = x3.mask T)
    : (withSession a1 f x d).mask T = d.mask T := by
  unfold withSession
  (repeat' split) <;> simp [*]

@[simp] theorem Dev.closeIfDone_mask {T : Groups} (_evt : T.evt = true) (_life : T.life = true) (_eng : T.eng =
    true) (_net : T.net = true) (n : Nat) (d : Dev) : (Dev.closeIfDone n d).mask T = d.mask T := by
  unfold Dev.closeIfDone
  (repeat' split) <;> simp [*]

@[simp] theorem closeEffect_mask {T : Groups} (_evt : T.evt = true) (_life : T.life = true) (_store : T.store =
    true) (_eng : T.eng = true) (_net : T.net = true) (a1 : Nat) (n : Nat) (a3 : Session) (x : RxFrame) (d : Dev) :
    (closeEffect a1 n a3 x d).mask T = d.mask T := by
  unfold closeEffect
  (repeat' split) <;> simp [*]

@[simp] theorem pingEffect_mask {T : Groups} (_store : T.store = true) (_net : T.net = true) (a1 : Nat) (n : Nat)
    (a3 : Session) (x : RxFrame) (d : Dev) : (pingEffect a1 n a3 x d).mask T = d.mask T := by
  unfold pingEffect
  (repeat' split) <;> simp [*]

@[simp] theorem Dev.countGaps_mask {T : Groups} (_store : T.store = true) (r : Nat) (n : Nat) (d : Dev) :
    (Dev.countGaps r n d).mask T = d.mask T := by
  simp [Dev.countGaps, *]

@[simp] theorem Dev.submit_mask {T : Groups} (_eng : T.eng = true) (coach : Nat) (d : Dev) : (Dev.submit coach
    d).mask T = d.mask T := by
  simp [Dev.submit, *]

@[simp] theorem Dev.setEntry_mask {T : Groups} (_net : T.net = true) (n : Nat) (q : W32) (a3 : Entry) (d : Dev) :
    (Dev.setEntry n q a3 d).mask T = d.mask T := by
  simp [Dev.setEntry, *]

@[simp] theorem Dev.advance_mask {T : Groups} (_eng : T.eng = true) (_net : T.net = true) (n : Nat) (a2 : Nat) (d :
    Dev) : (Dev.advance n a2 d).mask T = d.mask T := by
  induction a2 generalizing d with
  | zero => simp [Dev.advance]
  | succ k ih =>
    unfold Dev.advance
    simp only []
    (repeat' split) <;> simp [*]

@[simp] theorem Dev.replay_mask {T : Groups} (_store : T.store = true) (_net : T.net = true) (a1 : Nat) (n : Nat)
    (a3 : Session) (x : RxFrame) (outcome : W32) (fields : Bytes) (partly : Bool) (nfields : Nat) (d : Dev) :
    (Dev.replay a1 n a3 x outcome fields partly nfields d).mask T = d.mask T := by
  simp [Dev.replay, *]

@[simp] theorem Dev.completeRequest_mask {T : Groups} (_store : T.store = true) (_eng : T.eng = true) (_net : T.net
    = true) (a1 : Nat) (n : Nat) (x : RxFrame) (cls : Nat) (body : Bytes) (d : Dev) : (Dev.completeRequest a1 n x
    cls body d).mask T = d.mask T := by
  unfold Dev.completeRequest
  (repeat' split) <;> simp [*]

@[simp] theorem Dev.joinMessage_mask {T : Groups} (_store : T.store = true) (_eng : T.eng = true) (_net : T.net =
    true) (a1 : Nat) (n : Nat) (x : RxFrame) (parts : List (Nat × Bytes)) (cls : Nat) (again : Bool) (totalOk :
    Bool) (d : Dev) : (Dev.joinMessage a1 n x parts cls again totalOk d).mask T = d.mask T := by
  unfold Dev.joinMessage
  simp only []
  (repeat' split) <;> try simp [*]

@[simp] theorem requestEffect_mask {T : Groups} (_store : T.store = true) (_eng : T.eng = true) (_net : T.net =
    true) (a1 : Nat) (n : Nat) (a3 : Session) (x : RxFrame) (d : Dev) : (requestEffect a1 n a3 x d).mask T = d.mask
    T := by
  unfold requestEffect
  simp only []
  (repeat' split) <;> try simp [*]

@[simp] theorem Dev.abortAck_mask {T : Groups} (_net : T.net = true) (a1 : Nat) (n : Nat) (a3 : Session) (x :
    RxFrame) (st : Byte) (d : Dev) : (Dev.abortAck a1 n a3 x st d).mask T = d.mask T := by
  simp [Dev.abortAck, *]

@[simp] theorem Dev.abortCoach_mask {T : Groups} (_life : T.life = true) (_store : T.store = true) (_eng : T.eng =
    true) (i : Nat) (d : Dev) : (Dev.abortCoach i d).2.mask T = d.mask T := by
  unfold Dev.abortCoach
  simp only []
  (repeat' split) <;> try simp [*]

@[simp] theorem Dev.abortDropped_mask {T : Groups} (_eng : T.eng = true) (_net : T.net = true) (a1 : Nat) (n : Nat)
    (a3 : Session) (x : RxFrame) (cls : Nat) (peer : Peer) (d : Dev) : (Dev.abortDropped a1 n a3 x cls peer d).mask
    T = d.mask T := by
  simp [Dev.abortDropped, *]

@[simp] theorem abortMessage_mask {T : Groups} (_life : T.life = true) (_store : T.store = true) (_eng : T.eng =
    true) (_net : T.net = true) (a1 : Nat) (n : Nat) (a3 : Session) (x : RxFrame) (d : Dev) : (abortMessage a1 n a3
    x d).mask T = d.mask T := by
  unfold abortMessage
  simp only []
  (repeat' split) <;> try simp [*]

@[simp] theorem announceEffect_mask {T : Groups} (_evt : T.evt = true) (_life : T.life = true) (_store : T.store =
    true) (_net : T.net = true) (fu : Fuses) (a2 : Nat) (x : RxFrame) (d : Dev) : (announceEffect fu a2 x d).mask T
    = d.mask T := by
  unfold announceEffect
  simp only []
  (repeat' split) <;> try simp [*]

@[simp] theorem Dev.announceTo_mask {T : Groups} (_net : T.net = true) (fu : Fuses) (a2 : Nat) (src : W128) (dst :
    W128) (d : Dev) : (Dev.announceTo fu a2 src dst d).mask T = d.mask T := by
  simp [Dev.announceTo, *]

@[simp] theorem migOpenEffect_mask {T : Groups} (_evt : T.evt = true) (_life : T.life = true) (_eng : T.eng = true)
    (_net : T.net = true) (i : Nat) (c : Coach) (w : Fields) (d : Dev) : (migOpenEffect i c w d).mask T = d.mask T
    := by
  unfold migOpenEffect
  simp only []
  (repeat' split) <;> try simp [*]

@[simp] theorem migCloseEffect_mask {T : Groups} (_evt : T.evt = true) (_life : T.life = true) (_eng : T.eng = true)
    (_net : T.net = true) (i : Nat) (c : Coach) (w : Fields) (d : Dev) : (migCloseEffect i c w d).mask T = d.mask T
    := by
  unfold migCloseEffect
  simp only []
  (repeat' split) <;> try simp [*]

/-! ## Fences -/

@[simp] theorem Dev.strike_mask {T : Groups} (_store : T.store = true) (_eng : T.eng = true) (i : Nat) (d : Dev) :
    (Dev.strike i d).1.mask T = d.mask T := by
  unfold Dev.strike
  simp only []
  (repeat' split) <;> try simp [*]

@[simp] theorem Dev.strikeAll_mask {T : Groups} (_store : T.store = true) (_eng : T.eng = true) (p : Nat → Bool) (d
    : Dev) : (Dev.strikeAll p d).1.mask T = d.mask T:= by
  unfold Dev.strikeAll
  simp only []
  generalize d.eng.coaches.filterMap _ = l
  have h : ∀ (l : List Nat) (a b : Nat) (e : Dev), (l.foldl (fun (x : Dev × Nat × Nat) i =>
      ((x.1.strike i).1, x.2.1 + (x.1.strike i).2.1, x.2.2 + (x.1.strike i).2.2)) (e, a, b)).1.mask T = e.mask T := by
    intro l
    induction l with
    | nil => intros; rfl
    | cons i l ih => intro a b e; simp [*]
  exact h l 0 0 d

@[simp] theorem Dev.fenceContext_mask {T : Groups} (_eng : T.eng = true) (x : Nat) (d : Dev) : (Dev.fenceContext x
    d).mask T = d.mask T := by
  simp [Dev.fenceContext, *]

@[simp] theorem Dev.contextFault_mask {T : Groups} (_evt : T.evt = true) (_life : T.life = true) (_store : T.store =
    true) (_eng : T.eng = true) (x : Nat) (d : Dev) : (Dev.contextFault x d).mask T = d.mask T := by
  unfold Dev.contextFault
  simp only []
  (repeat' split) <;> try simp [*]

@[simp] theorem Dev.fenceCoach_mask {T : Groups} (_life : T.life = true) (_store : T.store = true) (_eng : T.eng =
    true) (i : Nat) (d : Dev) : (Dev.fenceCoach i d).mask T = d.mask T := by
  unfold Dev.fenceCoach
  simp only []
  (repeat' split) <;> try simp [*]

@[simp] theorem Dev.fenceRegion_mask {T : Groups} (_out : T.out = true) (_pins : T.pins = true) (_chip : T.chip =
    true) (_evt : T.evt = true) (_life : T.life = true) (_store : T.store = true) (_eng : T.eng = true) (_net :
    T.net = true) (_pcie : T.pcie = true) (r : Nat) (cause : Nat) (d : Dev) : (Dev.fenceRegion r cause d).mask T =
    d.mask T := by
  unfold Dev.fenceRegion
  simp only []
  (repeat' split) <;> try simp [*]

@[simp] theorem Dev.reportBlock_mask {T : Groups} (_evt : T.evt = true) (_life : T.life = true) (region : Nat)
    (block : Nat) (cause : Nat) (d : Dev) : (Dev.reportBlock region block cause d).mask T = d.mask T := by
  simp [Dev.reportBlock, *]

@[simp] theorem Dev.fenceCluster_mask {T : Groups} (_out : T.out = true) (_pins : T.pins = true) (_chip : T.chip =
    true) (_evt : T.evt = true) (_life : T.life = true) (_store : T.store = true) (_eng : T.eng = true) (_net :
    T.net = true) (_pcie : T.pcie = true) (k : Nat) (d : Dev) : (Dev.fenceCluster k d).mask T = d.mask T := by
  unfold Dev.fenceCluster
  simp only []
  (repeat' split) <;> try simp [*]

@[simp] theorem Dev.machineCheck_mask {T : Groups} (_out : T.out = true) (_pins : T.pins = true) (_chip : T.chip =
    true) (_evt : T.evt = true) (_life : T.life = true) (_store : T.store = true) (_eng : T.eng = true) (_net :
    T.net = true) (_pcie : T.pcie = true) (a1 : Nat) (address : Nat) (cause : Nat) (goldenOk : Bool) (d : Dev) :
    (Dev.machineCheck a1 address cause goldenOk d).mask T = d.mask T := by
  unfold Dev.machineCheck
  simp only []
  (repeat' split) <;> try simp [*]

@[simp] theorem Dev.alarm_mask {T : Groups} (_out : T.out = true) (_pins : T.pins = true) (_chip : T.chip = true)
    (_evt : T.evt = true) (_life : T.life = true) (_keys : T.keys = true) (_eng : T.eng = true) (_net : T.net =
    true) (_pcie : T.pcie = true) (kind : AlarmKind) (lowestMv : W64) (highestMc : W64) (d : Dev) : (Dev.alarm kind
    lowestMv highestMc d).mask T = d.mask T := by
  simp [Dev.alarm, *]

/-! ## Admission -/

@[simp] theorem Dev.movePower_mask {T : Groups} (_evt : T.evt = true) (_life : T.life = true) (_pcie : T.pcie =
    true) (ps : Nat) (cause : Nat) (d : Dev) : (Dev.movePower ps cause d).mask T = d.mask T := by
  unfold Dev.movePower
  simp only []
  (repeat' split) <;> try simp [*]

@[simp] theorem Dev.wakeForRequest_mask {T : Groups} (_evt : T.evt = true) (_life : T.life = true) (_pcie : T.pcie =
    true) (d : Dev) : (Dev.wakeForRequest d).mask T = d.mask T := by
  unfold Dev.wakeForRequest
  simp only []
  (repeat' split) <;> try simp [*]

@[simp] theorem admitEffect_mask {T : Groups} (_evt : T.evt = true) (_life : T.life = true) (_store : T.store =
    true) (_eng : T.eng = true) (_pcie : T.pcie = true) (i : Nat) (d : Dev) : (admitEffect i d).mask T = d.mask T :=
    by
  unfold admitEffect
  simp only []
  (repeat' split) <;> try simp [*]

@[simp] theorem Dev.start_mask {T : Groups} (_eng : T.eng = true) (i : Nat) (x : Nat) (d : Dev) : (Dev.start i x
    d).mask T = d.mask T := by
  simp [Dev.start, *]

@[simp] theorem dispatchEffect_mask {T : Groups} (_store : T.store = true) (_eng : T.eng = true) (i : Nat) (d : Dev)
    : (dispatchEffect i d).mask T = d.mask T := by
  unfold dispatchEffect
  (repeat' split) <;> simp [*]

/-! ## Seals -/

@[simp] theorem Dev.advanceEpoch_mask {T : Groups} (_evt : T.evt = true) (_life : T.life = true) (_store : T.store =
    true) (cause : Nat) (n : Nat) (d : Dev) : (Dev.advanceEpoch cause n d).mask T = d.mask T := by
  simp [Dev.advanceEpoch, *]

@[simp] theorem Dev.advanceEpochs_mask {T : Groups} (_evt : T.evt = true) (_life : T.life = true) (_store : T.store
    = true) (d : Dev) : (Dev.advanceEpochs d).mask T = d.mask T := by
  simp [Dev.advanceEpochs, *]

@[simp] theorem Dev.setNsState_mask {T : Groups} (_evt : T.evt = true) (_life : T.life = true) (_store : T.store =
    true) (n : Nat) (st : NsState) (d : Dev) : (Dev.setNsState n st d).mask T = d.mask T := by
  simp [Dev.setNsState, *]

@[simp] theorem Dev.keepBefore_mask {T : Groups} (_store : T.store = true) (n : Nat) (d : Dev) : (Dev.keepBefore n
    d).mask T = d.mask T := by
  simp [Dev.keepBefore, *]

@[simp] theorem Dev.applyChange_mask {T : Groups} (_evt : T.evt = true) (_life : T.life = true) (_store : T.store =
    true) (i : Nat) (d : Dev) : (Dev.applyChange i d).mask T = d.mask T := by
  unfold Dev.applyChange
  (repeat' split) <;> simp [*]

@[simp] theorem Dev.applySealed_mask {T : Groups} (_evt : T.evt = true) (_life : T.life = true) (_store : T.store =
    true) (d : Dev) : (Dev.applySealed d).mask T = d.mask T := by
  simp [Dev.applySealed, *]

@[simp] theorem Dev.retireStripe_mask {T : Groups} (_evt : T.evt = true) (_life : T.life = true) (_store : T.store =
    true) (a1 : Nat) (d : Dev) : (Dev.retireStripe a1 d).mask T = d.mask T := by
  simp [Dev.retireStripe, *]

@[simp] theorem Dev.padCourses_mask {T : Groups} (_evt : T.evt = true) (_life : T.life = true) (_store : T.store =
    true) (_nv : T.nv = true) (f : Nat) (n : Nat) (d : Dev) : (Dev.padCourses f n d).mask T = d.mask T := by
  unfold Dev.padCourses
  (repeat' split) <;> simp [*]

@[simp] theorem Dev.placeMeta_mask {T : Groups} (_evt : T.evt = true) (_life : T.life = true) (_store : T.store =
    true) (_nv : T.nv = true) (r : Nat) (x : Record) (d : Dev) : ∀ e, Dev.placeMeta r x d = some e → e.2.mask T =
    d.mask T := by
  simp [Dev.placeMeta, *]

@[simp] theorem Dev.whileRoom_mask {T : Groups} {α : Type} (l : List α) (f : α → Dev → Option Dev) (d : Dev)
    (hf : ∀ x d e, f x d = some e → e.mask T = d.mask T) : (Dev.whileRoom l f d).2.mask T = d.mask T:= by
  have h : ∀ (l : List α) (p : Bool × Dev), (l.foldl (fun (ok, d) a => if ok then match f a d with
      | some d => (true, d)
      | none => (false, d) else (false, d)) p).2.mask T = p.2.mask T := by
    intro l
    induction l with
    | nil => exact fun _ => rfl
    | cons a l ih =>
      intro p
      rw [List.foldl_cons, ih]
      dsimp only
      (repeat' split) <;> first | rfl | exact hf _ _ _ ‹_›
  exact h l (true, d)

@[simp] theorem Dev.writeChunks_mask {T : Groups} (_evt : T.evt = true) (_life : T.life = true) (_store : T.store =
    true) (_nv : T.nv = true) (r : Nat) (c : Checkpoint) (d : Dev) : (Dev.writeChunks r c d).2.mask T = d.mask T :=
    by
  unfold Dev.writeChunks
  refine Dev.whileRoom_mask _ _ _ fun m e e' h => ?_
  obtain ⟨p, hp, rfl⟩ := Option.map_eq_some_iff.1 h
  exact (Dev.onRegion_mask _store _ _ _).trans (Dev.placeMeta_mask _evt _life _store _nv _ _ _ _ hp)

@[simp] theorem Dev.writeManifests_mask {T : Groups} (_evt : T.evt = true) (_life : T.life = true) (_store : T.store
    = true) (_nv : T.nv = true) (r : Nat) (gen : Nat) (d : Dev) : (Dev.writeManifests r gen d).2.mask T = d.mask T
    := by
  unfold Dev.writeManifests
  refine Dev.whileRoom_mask _ _ _ fun m e e' h => ?_
  obtain ⟨p, hp, rfl⟩ := Option.map_eq_some_iff.1 h
  exact (Dev.onRegion_mask _store _ _ _).trans (Dev.placeMeta_mask _evt _life _store _nv _ _ _ _ hp)

@[simp] theorem Dev.writeSeal_mask {T : Groups} (_evt : T.evt = true) (_life : T.life = true) (_store : T.store =
    true) (_nv : T.nv = true) (r : Nat) (d : Dev) : (Dev.writeSeal r d).2.mask T = d.mask T := by
  have c := fun x => Dev.writeChunks_mask _evt _life _store _nv r x d
  have m := fun g e => Dev.writeManifests_mask _evt _life _store _nv r g e
  unfold Dev.writeSeal
  simp only []
  split
  · next h => simpa only [h] using c (d.noteTables r)
  · next e h =>
    have c := c (d.noteTables r)
    rw [h] at c
    split
    · next q => exact (by simpa only [q] using m (d.noteTables r).gen e : _ = _).trans c
    · next e' q =>
      have m := m (d.noteTables r).gen e
      rw [q] at m
      split
      · exact m.trans c
      · next q => exact (Dev.placeMeta_mask _evt _life _store _nv _ _ _ _ q).trans (m.trans c)

@[simp] theorem Dev.startSeal_mask {T : Groups} (_evt : T.evt = true) (_life : T.life = true) (_store : T.store =
    true) (_nv : T.nv = true) (r : Nat) (d : Dev) : (Dev.startSeal r d).mask T = d.mask T := by
  have w := Dev.writeSeal_mask _evt _life _store _nv r d
  unfold Dev.startSeal
  simp only []
  split
  · rfl
  · split
    · next h => rw [h] at w; exact (Dev.padStripe_mask _evt _life _store _nv _ _).trans w
    · next h =>
      rw [h] at w
      exact (Dev.onRegion_mask _store _ _ _).trans ((Dev.padCourses_mask _evt _life _store _nv _ _ _).trans w)

@[simp] theorem Dev.nameSeal_mask {T : Groups} (_evt : T.evt = true) (_life : T.life = true) (_store : T.store =
    true) (_nv : T.nv = true) (fate : KeystoneFate) (r : Nat) (c : Checkpoint) (d : Dev) : (Dev.nameSeal fate r c
    d).mask T = d.mask T := by
  simp [Dev.nameSeal, *]

/-! ## Courses -/

@[simp] theorem Dev.setWriteState_mask {T : Groups} (_evt : T.evt = true) (_life : T.life = true) (_store : T.store
    = true) (r : Nat) (new : Nat) (d : Dev) : (Dev.setWriteState r new d).mask T = d.mask T := by
  unfold Dev.setWriteState
  simp only []
  (repeat' split) <;> try simp [*]

@[simp] theorem Dev.checkWriteState_mask {T : Groups} (_evt : T.evt = true) (_life : T.life = true) (_store :
    T.store = true) (r : Nat) (d : Dev) : (Dev.checkWriteState r d).mask T = d.mask T := by
  simp [Dev.checkWriteState, *]

@[simp] theorem Dev.setDie_mask {T : Groups} (_evt : T.evt = true) (_life : T.life = true) (_store : T.store = true)
    (die : Nat) (new : Nat) (d : Dev) : (Dev.setDie die new d).mask T = d.mask T := by
  simp [Dev.setDie, *]

@[simp] theorem Dev.retireIfShort_mask {T : Groups} (_evt : T.evt = true) (_life : T.life = true) (_store : T.store
    = true) (a1 : Nat) (d : Dev) : (Dev.retireIfShort a1 d).mask T = d.mask T := by
  simp [Dev.retireIfShort, *]

@[simp] theorem Dev.retireBlock_mask {T : Groups} (_evt : T.evt = true) (_life : T.life = true) (_store : T.store =
    true) (a1 : Nat) (c : Nat) (state : Nat) (egen : Nat) (d : Dev) : (Dev.retireBlock a1 c state egen d).mask T =
    d.mask T := by
  unfold Dev.retireBlock
  simp only []
  (repeat' split) <;> try simp [*]

@[simp] theorem Dev.dropDieBlocks_mask {T : Groups} (_evt : T.evt = true) (_life : T.life = true) (_store : T.store
    = true) (die : Nat) (d : Dev) : (Dev.dropDieBlocks die d).mask T = d.mask T := by
  unfold Dev.dropDieBlocks
  simp only []
  (repeat' split) <;> simp [*]

@[simp] theorem Dev.requireCopy_mask {T : Groups} (_store : T.store = true) (a : Nat) (d : Dev) : (Dev.requireCopy a
    d).mask T = d.mask T := by
  unfold Dev.requireCopy
  (repeat' split) <;> simp [*]

@[simp] theorem Dev.settleStripe_mask {T : Groups} (_store : T.store = true) (a1 : Nat) (d : Dev) :
    (Dev.settleStripe a1 d).mask T = d.mask T := by
  unfold Dev.settleStripe
  simp only []
  (repeat' split) <;> try simp [*]

@[simp] theorem Dev.unitsProgrammed_mask {T : Groups} (_store : T.store = true) (d : Dev) : (Dev.unitsProgrammed
    d).mask T = d.mask T := by
  simp [Dev.unitsProgrammed, *]

@[simp] theorem Dev.leaveFull_mask {T : Groups} (_store : T.store = true) (f : Nat) (a2 : Nat) (d : Dev) :
    (Dev.leaveFull f a2 d).mask T = d.mask T := by
  unfold Dev.leaveFull
  simp only []
  (repeat' split) <;> try simp [*]

@[simp] theorem Dev.courseProgrammed_mask {T : Groups} (_store : T.store = true) (k : Nat) (x : Course) (d : Dev) :
    (Dev.courseProgrammed k x d).mask T = d.mask T := by
  unfold Dev.courseProgrammed
  (repeat' split) <;> simp [*]

@[simp] theorem Dev.completeCourses_mask {T : Groups} (_store : T.store = true) (a1 : Nat) (d : Dev) :
    (Dev.completeCourses a1 d).mask T = d.mask T := by
  simp [Dev.completeCourses, *]

@[simp] theorem Dev.holdBlock_mask {T : Groups} (_store : T.store = true) (a1 : Nat) (c : Nat) (d : Dev) :
    (Dev.holdBlock a1 c d).mask T = d.mask T := by
  simp [Dev.holdBlock, *]

@[simp] theorem Dev.closeAfter_mask {T : Groups} (_evt : T.evt = true) (_life : T.life = true) (_store : T.store =
    true) (_nv : T.nv = true) (f : Nat) (a2 : Nat) (p : Nat) (d : Dev) : (Dev.closeAfter f a2 p d).mask T = d.mask T
    := by
  unfold Dev.closeAfter
  simp only []
  (repeat' split) <;> simp [*]

@[simp] theorem Dev.failUnit_mask {T : Groups} (_evt : T.evt = true) (_life : T.life = true) (_store : T.store =
    true) (_nv : T.nv = true) (f : Nat) (a2 : Nat) (p : Nat) (c : Nat) (d : Dev) : (Dev.failUnit f a2 p c d).mask T
    = d.mask T := by
  simp [Dev.failUnit, *]

@[simp] theorem Dev.closeOnDie_mask {T : Groups} (_evt : T.evt = true) (_life : T.life = true) (_store : T.store =
    true) (_nv : T.nv = true) (die : Nat) (d : Dev) : (Dev.closeOnDie die d).mask T = d.mask T := by
  simp [Dev.closeOnDie, *]

@[simp] theorem Dev.dieOut_mask {T : Groups} (_evt : T.evt = true) (_life : T.life = true) (_store : T.store = true)
    (_nv : T.nv = true) (die : Nat) (new : Nat) (d : Dev) : (Dev.dieOut die new d).mask T = d.mask T := by
  simp [Dev.dieOut, *]

@[simp] theorem Dev.failDie_mask {T : Groups} (_evt : T.evt = true) (_life : T.life = true) (_store : T.store =
    true) (_nv : T.nv = true) (die : Nat) (d : Dev) : (Dev.failDie die d).mask T = d.mask T := by
  unfold Dev.failDie
  (repeat' split) <;> simp [*]

@[simp] theorem Dev.failChannel_mask {T : Groups} (_evt : T.evt = true) (_life : T.life = true) (_store : T.store =
    true) (_nv : T.nv = true) (r : Nat) (c : Nat) (d : Dev) : (Dev.failChannel r c d).mask T = d.mask T := by
  unfold Dev.failChannel
  (repeat' split) <;> simp [*]

@[simp] theorem Dev.takeStripe_mask {T : Groups} (_store : T.store = true) (f : Nat) (a2 : Nat) (d : Dev) :
    (Dev.takeStripe f a2 d).mask T = d.mask T := by
  simp [Dev.takeStripe, *]

@[simp] theorem Dev.raiseEgen_mask {T : Groups} (_evt : T.evt = true) (_life : T.life = true) (_store : T.store =
    true) (a1 : Nat) (d : Dev) : (Dev.raiseEgen a1 d).mask T = d.mask T := by
  unfold Dev.raiseEgen
  simp only []
  (repeat' split) <;> try simp [*]

@[simp] theorem Dev.starved_mask {T : Groups} (_evt : T.evt = true) (_life : T.life = true) (_store : T.store =
    true) (_nv : T.nv = true) (f : Nat) (d : Dev) : (Dev.starved f d).mask T = d.mask T := by
  unfold Dev.starved
  simp only []
  (repeat' split) <;> try simp [*]

@[simp] theorem Dev.openErased_mask {T : Groups} (_store : T.store = true) (f : Nat) (d : Dev) : (Dev.openErased f
    d).mask T = d.mask T := by
  unfold Dev.openErased
  (repeat' split) <;> simp [*]

@[simp] theorem Dev.failErase_mask {T : Groups} (_evt : T.evt = true) (_life : T.life = true) (_store : T.store =
    true) (a1 : Nat) (c : Nat) (d : Dev) : (Dev.failErase a1 c d).mask T = d.mask T := by
  simp [Dev.failErase, *]

@[simp] theorem Dev.programUnit_mask {T : Groups} (_pfail : T.pfail = true) (_life : T.life = true) (_store :
    T.store = true) (_nv : T.nv = true) (a1 : Nat) (p : Nat) (c : Nat) (d : Dev) : (Dev.programUnit a1 p c d).mask T
    = d.mask T := by
  unfold Dev.programUnit
  simp only []
  (repeat' split) <;> try simp [*]

@[simp] theorem Dev.switchIndex_mask {T : Groups} (_store : T.store = true) (old : Nat) (new : Nat) (x : Record) (d
    : Dev) : (Dev.switchIndex old new x d).mask T = d.mask T := by
  unfold Dev.switchIndex
  simp only []
  (repeat' split) <;> try simp [*]

@[simp] theorem Dev.releaseUnits_mask {T : Groups} (_store : T.store = true) (a : Nat) (d : Dev) : (Dev.releaseUnits
    a d).mask T = d.mask T := by
  simp [Dev.releaseUnits, *]

@[simp] theorem Dev.settleRecord_mask {T : Groups} (_keys : T.keys = true) (_store : T.store = true) (_nv : T.nv =
    true) (a : Nat) (b : BufRec) (d : Dev) : (Dev.settleRecord a b d).mask T = d.mask T := by
  unfold Dev.settleRecord
  simp only []
  (repeat' split) <;> try simp [*]

@[simp] theorem Dev.failVerify_mask {T : Groups} (_evt : T.evt = true) (_life : T.life = true) (_store : T.store =
    true) (_nv : T.nv = true) (f : Nat) (a2 : Nat) (p : Nat) (c : Nat) (d : Dev) : (Dev.failVerify f a2 p c d).mask
    T = d.mask T := by
  unfold Dev.failVerify
  simp only []
  (repeat' split) <;> try simp [*]

@[simp] theorem Dev.countReads_mask {T : Groups} (_store : T.store = true) (a1 : Nat) (c : Nat) (n : Nat) (d : Dev)
    : (Dev.countReads a1 c n d).mask T = d.mask T := by
  unfold Dev.countReads
  simp only []
  (repeat' split) <;> try simp [*]

@[simp] theorem Dev.verifyCourse_mask {T : Groups} (_keys : T.keys = true) (_store : T.store = true) (_nv : T.nv =
    true) (k : Nat) (x : Course) (d : Dev) : (Dev.verifyCourse k x d).mask T = d.mask T := by
  simp [Dev.verifyCourse, *]

@[simp] theorem Dev.suspendFor_mask {T : Groups} (_store : T.store = true) (die : Nat) (d : Dev) : (Dev.suspendFor
    die d).mask T = d.mask T := by
  unfold Dev.suspendFor
  (repeat' split) <;> simp [*]

/-! ## Store -/

@[simp] theorem Dev.queueRefresh_mask {T : Groups} (_store : T.store = true) (a1 : Nat) (d : Dev) :
    (Dev.queueRefresh a1 d).mask T = d.mask T := by
  simp [Dev.queueRefresh, *]

@[simp] theorem Dev.dropCopy_mask {T : Groups} (_store : T.store = true) (old : Nat) (d : Dev) : (Dev.dropCopy old
    d).mask T = d.mask T := by
  simp [Dev.dropCopy, *]

@[simp] theorem Dev.renameRecord_mask {T : Groups} (_store : T.store = true) (_eng : T.eng = true) (old : Nat) (a :
    Nat) (d : Dev) : (Dev.renameRecord old a d).mask T = d.mask T := by
  simp [Dev.renameRecord, *]

@[simp] theorem Dev.copyRecord_mask {T : Groups} (_evt : T.evt = true) (_life : T.life = true) (_store : T.store =
    true) (_eng : T.eng = true) (_nv : T.nv = true) (old : Nat) (x : Record) (rekey : Bool) (d : Dev) : ∀ e,
    Dev.copyRecord old x rekey d = some e → e.mask T = d.mask T := by
  unfold Dev.copyRecord
  simp only []
  (repeat' split) <;> try simp [*]

@[simp] theorem Dev.padRelocation_mask {T : Groups} (_evt : T.evt = true) (_life : T.life = true) (_store : T.store
    = true) (_nv : T.nv = true) (old : Nat) (d : Dev) : (Dev.padRelocation old d).mask T = d.mask T := by
  simp [Dev.padRelocation, *]

@[simp] theorem Dev.retireLater_mask {T : Groups} (_store : T.store = true) (a : Nat) (d : Dev) : (Dev.retireLater a
    d).mask T = d.mask T := by
  simp [Dev.retireLater, *]

@[simp] theorem Dev.lostSector_mask {T : Groups} (_evt : T.evt = true) (_life : T.life = true) (_store : T.store =
    true) (a : Nat) (cause : Nat) (d : Dev) : (Dev.lostSector a cause d).mask T = d.mask T := by
  simp [Dev.lostSector, *]

@[simp] theorem Dev.rebuiltSector_mask {T : Groups} (_evt : T.evt = true) (_life : T.life = true) (_store : T.store
    = true) (a : Nat) (d : Dev) : (Dev.rebuiltSector a d).mask T = d.mask T := by
  simp [Dev.rebuiltSector, *]

@[simp] theorem Dev.failedSector_mask {T : Groups} (_evt : T.evt = true) (_life : T.life = true) (_store : T.store =
    true) (a : Nat) (rebuilt : Bool) (d : Dev) : (Dev.failedSector a rebuilt d).mask T = d.mask T := by
  simp [Dev.failedSector, *]

@[simp] theorem Dev.countCopyReads_mask {T : Groups} (_store : T.store = true) (a : Nat) (d : Dev) :
    (Dev.countCopyReads a d).mask T = d.mask T := by
  unfold Dev.countCopyReads
  exact Dev.each_mask _ _ _ fun p e => Dev.each_mask _ _ _ fun c e => Dev.when_mask _ _ _ fun e =>
    Dev.countReads_mask _store _ _ _ e

@[simp] theorem Dev.copyOrLose_mask {T : Groups} (_evt : T.evt = true) (_life : T.life = true) (_store : T.store =
    true) (_eng : T.eng = true) (_nv : T.nv = true) (a : Nat) (rd : ReadBack) (d : Dev) : (Dev.copyOrLose a rd
    d).mask T = d.mask T := by
  unfold Dev.copyOrLose
  split
  · next x _ =>
    cases h : d.copyRecord a x false with
    | none => simp [*]
    | some e => exact Dev.copyRecord_mask _evt _life _store _eng _nv _ _ _ _ _ h
  · (repeat' split) <;> simp [*]

@[simp] theorem Dev.patrolRound_mask {T : Groups} (_store : T.store = true) (r : Nat) (d : Dev) : (Dev.patrolRound r
    d).mask T = d.mask T := by
  simp [Dev.patrolRound, *]

@[simp] theorem Dev.patrolDone_mask {T : Groups} (_evt : T.evt = true) (_life : T.life = true) (_store : T.store =
    true) (r : Nat) (a2 : Nat) (c : Nat) (d : Dev) : (Dev.patrolDone r a2 c d).mask T = d.mask T := by
  unfold Dev.patrolDone
  simp only []
  (repeat' split) <;> try simp [*]

@[simp] theorem Dev.patrolFound_mask {T : Groups} (_evt : T.evt = true) (_life : T.life = true) (_store : T.store =
    true) (a1 : Nat) (c : Nat) (page : Nat) (x : PageFound) (d : Dev) : (Dev.patrolFound a1 c page x d).mask T =
    d.mask T := by
  simp [Dev.patrolFound, *]

@[simp] theorem Dev.programCarts_mask {T : Groups} (_store : T.store = true) (_nv : T.nv = true) (r : Nat) (d : Dev)
    : (Dev.programCarts r d).mask T = d.mask T := by
  simp [Dev.programCarts, *]

end Sys2Proof.Machine
end

