-- ==== Sys2Proof/Laws/FramePorts.lean ====
section
/-!
SUPPORT. Laws/FramePorts.lean: what each operation of Keys, Names, Assoc, Events, Stats, Dma, Emission, Power, Pcie, PcieLink may change. `f_mask` says of an operation `f` which groups of the device it may change: the hypotheses
name them, and every other group is as before.
-/
namespace Sys2Proof.Machine

/-! ## Keys -/

@[simp] theorem Dev.awaitSeals_mask {T : Groups} (_eng : T.eng = true) (i : Nat) (result : W64) (d : Dev) :
    (Dev.awaitSeals i result d).mask T = d.mask T := by
  simp [Dev.awaitSeals, *]

@[simp] theorem Dev.acquireLock_mask {T : Groups} (_keys : T.keys = true) (by_ : Requester) (d : Dev) :
    (Dev.acquireLock by_ d).mask T = d.mask T := by
  simp [Dev.acquireLock, *]

@[simp] theorem Dev.releaseLock_mask {T : Groups} (_keys : T.keys = true) (by_ : Requester) (d : Dev) :
    (Dev.releaseLock by_ d).mask T = d.mask T := by
  simp [Dev.releaseLock, *]

@[simp] theorem Dev.onOwner_mask {T : Groups} (_keys : T.keys = true) (o : Nat) (f : OwnerEntry → OwnerEntry) (d :
    Dev) : (Dev.onOwner o f d).mask T = d.mask T := by
  simp [Dev.onOwner, *]

@[simp] theorem Dev.takeLock_mask {T : Groups} (_keys : T.keys = true) (ctx : Nat) (d : Dev) : (Dev.takeLock ctx
    d).mask T = d.mask T := by
  simp [Dev.takeLock, *]

@[simp] theorem Dev.unwrapDone_mask {T : Groups} (_evt : T.evt = true) (_life : T.life = true) (_keys : T.keys =
    true) (op : Nat) (target : Nat) (st : Byte) (d : Dev) : (Dev.unwrapDone op target st d).mask T = d.mask T := by
  unfold Dev.unwrapDone
  (repeat' split) <;> simp [*]

@[simp] theorem Dev.loadSlot_mask {T : Groups} (_evt : T.evt = true) (_life : T.life = true) (_keys : T.keys = true)
    (n : Nat) (owner : Nat) (wrapped : Bytes) (key : Bytes) (d : Dev) : (Dev.loadSlot n owner wrapped key d).mask T
    = d.mask T := by
  simp [Dev.loadSlot, *]

@[simp] theorem kslotLoadEffect_mask {T : Groups} (_evt : T.evt = true) (_life : T.life = true) (_keys : T.keys =
    true) (_eng : T.eng = true) (i : Nat) (c : Coach) (w : Fields) (d : Dev) : (kslotLoadEffect i c w d).mask T =
    d.mask T := by
  unfold kslotLoadEffect
  simp only []
  (repeat' split) <;> try simp [*]

@[simp] theorem Dev.enrol_mask {T : Groups} (_evt : T.evt = true) (_life : T.life = true) (_keys : T.keys = true) (o
    : Nat) (root : Bytes) (kek : Bytes) (d : Dev) : (Dev.enrol o root kek d).mask T = d.mask T := by
  simp [Dev.enrol, *]

@[simp] theorem kslotEnrolEffect_mask {T : Groups} (_evt : T.evt = true) (_life : T.life = true) (_keys : T.keys =
    true) (_eng : T.eng = true) (fu : Fuses) (i : Nat) (c : Coach) (w : Fields) (d : Dev) : (kslotEnrolEffect fu i c
    w d).mask T = d.mask T := by
  unfold kslotEnrolEffect
  simp only []
  (repeat' split) <;> try simp [*]

@[simp] theorem Dev.clearSlot_mask {T : Groups} (_evt : T.evt = true) (_life : T.life = true) (_keys : T.keys =
    true) (n : Nat) (d : Dev) : (Dev.clearSlot n d).mask T = d.mask T := by
  simp [Dev.clearSlot, *]

@[simp] theorem kslotClearEffect_mask {T : Groups} (_evt : T.evt = true) (_life : T.life = true) (_keys : T.keys =
    true) (_eng : T.eng = true) (i : Nat) (c : Coach) (w : Fields) (d : Dev) : (kslotClearEffect i c w d).mask T =
    d.mask T := by
  unfold kslotClearEffect
  simp only []
  (repeat' split) <;> try simp [*]

@[simp] theorem kslotClearOwnerEffect_mask {T : Groups} (_evt : T.evt = true) (_life : T.life = true) (_keys :
    T.keys = true) (_eng : T.eng = true) (i : Nat) (c : Coach) (w : Fields) (d : Dev) : (kslotClearOwnerEffect i c w
    d).mask T = d.mask T := by
  unfold kslotClearOwnerEffect
  simp only []
  (repeat' split) <;> try simp [*]

@[simp] theorem Dev.startRekey_mask {T : Groups} (_evt : T.evt = true) (_life : T.life = true) (_keys : T.keys =
    true) (n : Nat) (owner : Nat) (wrapped : Bytes) (key : Bytes) (d : Dev) : (Dev.startRekey n owner wrapped key
    d).mask T = d.mask T := by
  simp [Dev.startRekey, *]

@[simp] theorem kslotRekeyEffect_mask {T : Groups} (_evt : T.evt = true) (_life : T.life = true) (_keys : T.keys =
    true) (_eng : T.eng = true) (i : Nat) (c : Coach) (w : Fields) (d : Dev) : (kslotRekeyEffect i c w d).mask T =
    d.mask T := by
  unfold kslotRekeyEffect
  simp only []
  (repeat' split) <;> try simp [*]

@[simp] theorem Dev.onRekey_mask {T : Groups} (_keys : T.keys = true) (f : Rekey → Rekey) (d : Dev) : (Dev.onRekey f
    d).mask T = d.mask T := by
  simp [Dev.onRekey, *]

@[simp] theorem Dev.visitEntry_mask {T : Groups} (_keys : T.keys = true) (a : Nat) (d : Dev) : (Dev.visitEntry a
    d).mask T = d.mask T := by
  simp [Dev.visitEntry, *]

@[simp] theorem Dev.rekeyFails_mask {T : Groups} (_evt : T.evt = true) (_life : T.life = true) (_keys : T.keys =
    true) (_store : T.store = true) (_eng : T.eng = true) (a : Nat) (x : SegRead) (d : Dev) : (Dev.rekeyFails a x
    d).mask T = d.mask T := by
  simp [Dev.rekeyFails, *]

@[simp] theorem Dev.rekeyCopy_mask {T : Groups} (_evt : T.evt = true) (_life : T.life = true) (_keys : T.keys =
    true) (_store : T.store = true) (_eng : T.eng = true) (_nv : T.nv = true) (a1 : Nat) (a2 : Record) (a3 : Bytes)
    (d : Dev) : (Dev.rekeyCopy a1 a2 a3 d).mask T = d.mask T:= by
  have k := Dev.nextCounter_all _keys _store _nv _evt _life (d.homeOf a2.ns a2.key) d.keys.rekey.slot d
  unfold Dev.rekeyCopy
  simp only []
  split
  · rfl
  · next h => rw [h] at k; exact k
  next h =>
  rw [h] at k
  split
  · exact Dev.padRelocation_mask _evt _life _store _nv _ _
  next h =>
  rw [Dev.countLane_mask _eng, Dev.onRekey_mask _keys]
  exact (Dev.copyRecord_mask _evt _life _store _eng _nv _ _ _ _ _ h).trans k

/-! ## Names -/

@[simp] theorem Dev.noteChange_mask {T : Groups} (_store : T.store = true) (i : Nat) (x : NsChange) (d : Dev) :
    (Dev.noteChange i x d).mask T = d.mask T := by
  simp [Dev.noteChange, *]

@[simp] theorem nsdefCreateEffect_mask {T : Groups} (_store : T.store = true) (_eng : T.eng = true) (i : Nat) (c :
    Coach) (w : Fields) (d : Dev) : (nsdefCreateEffect i c w d).mask T = d.mask T := by
  unfold nsdefCreateEffect
  simp only []
  (repeat' split) <;> try simp [*]

@[simp] theorem nsdefModifyEffect_mask {T : Groups} (_store : T.store = true) (_eng : T.eng = true) (i : Nat) (c :
    Coach) (w : Fields) (d : Dev) : (nsdefModifyEffect i c w d).mask T = d.mask T := by
  unfold nsdefModifyEffect
  simp only []
  (repeat' split) <;> try simp [*]

@[simp] theorem nsdefRemoveEffect_mask {T : Groups} (_evt : T.evt = true) (_life : T.life = true) (_store : T.store
    = true) (_eng : T.eng = true) (i : Nat) (c : Coach) (w : Fields) (d : Dev) : (nsdefRemoveEffect i c w d).mask T
    = d.mask T := by
  unfold nsdefRemoveEffect
  simp only []
  (repeat' split) <;> try simp [*]

/-! ## Assoc -/

@[simp] theorem Dev.reportBank_mask {T : Groups} (_evt : T.evt = true) (_life : T.life = true) (b : Nat) (cell :
    Nat) (code : Nat) (params : List Nat) (d : Dev) : (Dev.reportBank b cell code params d).mask T = d.mask T := by
  simp [Dev.reportBank, *]

@[simp] theorem Dev.strikeBank_mask {T : Groups} (_store : T.store = true) (b : Nat) (us : List Upset) (d : Dev) :
    (Dev.strikeBank b us d).mask T = d.mask T := by
  simp [Dev.strikeBank, *]

@[simp] theorem Dev.failBank_mask {T : Groups} (_out : T.out = true) (_pins : T.pins = true) (_chip : T.chip = true)
    (_evt : T.evt = true) (_life : T.life = true) (_store : T.store = true) (_eng : T.eng = true) (_net : T.net =
    true) (_pcie : T.pcie = true) (b : Nat) (row : Nat) (cause : Nat) (d : Dev) : (Dev.failBank b row cause d).mask
    T = d.mask T := by
  unfold Dev.failBank
  (repeat' split) <;> simp [*]

@[simp] theorem Dev.repairRow_mask {T : Groups} (_out : T.out = true) (_pins : T.pins = true) (_chip : T.chip =
    true) (_evt : T.evt = true) (_life : T.life = true) (_store : T.store = true) (_eng : T.eng = true) (_net :
    T.net = true) (_pcie : T.pcie = true) (b : Nat) (row : Nat) (d : Dev) : (Dev.repairRow b row d).mask T = d.mask
    T := by
  unfold Dev.repairRow
  simp only []
  (repeat' split) <;> try simp [*]

@[simp] theorem Dev.countFalseHit_mask {T : Groups} (_life : T.life = true) (b : Nat) (d : Dev) : (Dev.countFalseHit
    b d).mask T = d.mask T := by
  simp [Dev.countFalseHit, *]

@[simp] theorem Dev.meetFault_mask {T : Groups} (_out : T.out = true) (_pins : T.pins = true) (_chip : T.chip =
    true) (_evt : T.evt = true) (_life : T.life = true) (_store : T.store = true) (_eng : T.eng = true) (_net :
    T.net = true) (_pcie : T.pcie = true) (b : Nat) (cls : Nat) (f : ArrayFault) (d : Dev) : (Dev.meetFault b cls f
    d).mask T = d.mask T := by
  unfold Dev.meetFault
  (repeat' split) <;> simp [*]

@[simp] theorem Dev.repairSearch_mask {T : Groups} (_out : T.out = true) (_pins : T.pins = true) (_chip : T.chip =
    true) (_evt : T.evt = true) (_life : T.life = true) (_store : T.store = true) (_eng : T.eng = true) (_net :
    T.net = true) (_pcie : T.pcie = true) (b key lo cls n : Nat) (s : Bool × Dev) :
    (Dev.repairSearch b key lo cls n s).2.mask T = s.2.mask T:= by
  induction n generalizing s with
  | zero => rfl
  | succ n ih =>
    unfold Dev.repairSearch
    (repeat' split) <;> simp [*]

@[simp] theorem Dev.searchBank_mask {T : Groups} (_out : T.out = true) (_pins : T.pins = true) (_chip : T.chip =
    true) (_evt : T.evt = true) (_life : T.life = true) (_store : T.store = true) (_eng : T.eng = true) (_net :
    T.net = true) (_pcie : T.pcie = true) (b : Nat) (key : Nat) (lo : Nat) (cls : Nat) (d : Dev) : (Dev.searchBank b
    key lo cls d).2.mask T = d.mask T := by
  simp [Dev.searchBank, *]

@[simp] theorem Dev.scrubRow_mask {T : Groups} (_out : T.out = true) (_pins : T.pins = true) (_chip : T.chip = true)
    (_evt : T.evt = true) (_life : T.life = true) (_store : T.store = true) (_eng : T.eng = true) (_net : T.net =
    true) (_pcie : T.pcie = true) (b : Nat) (row : Nat) (d : Dev) : (Dev.scrubRow b row d).1.mask T = d.mask T := by
  unfold Dev.scrubRow
  simp only []
  (repeat' split) <;> (try simp [*])

@[simp] theorem Dev.setThrottle_mask {T : Groups} (_evt : T.evt = true) (_life : T.life = true) (_store : T.store =
    true) (b : Nat) (level : Nat) (t : Int) (d : Dev) : (Dev.setThrottle b level t d).mask T = d.mask T := by
  unfold Dev.setThrottle
  simp only []
  (repeat' split) <;> try simp [*]

@[simp] theorem Dev.throttleRegion_mask {T : Groups} (_evt : T.evt = true) (_life : T.life = true) (_store : T.store
    = true) (r : Nat) (d : Dev) : (Dev.throttleRegion r d).mask T = d.mask T := by
  unfold Dev.throttleRegion
  simp only []
  (repeat' split) <;> simp [*]

@[simp] theorem camSearch_mask {T : Groups} (_out : T.out = true) (_pins : T.pins = true) (_chip : T.chip = true)
    (_evt : T.evt = true) (_life : T.life = true) (_store : T.store = true) (_eng : T.eng = true) (_net : T.net =
    true) (_pcie : T.pcie = true) (lo : Nat) (bank : Nat) (upsets : List Upset) (i : Nat) (c : Coach) (w : Fields)
    (d : Dev) : (camSearch lo bank upsets i c w d).mask T = d.mask T := by
  unfold camSearch
  simp only []
  (repeat' split) <;> simp [*]

/-! ## Events -/

@[simp] theorem Dev.notifyNow_mask {T : Groups} (_out : T.out = true) (_evt : T.evt = true) (_pcie : T.pcie = true)
    (d : Dev) : (Dev.notifyNow d).mask T = d.mask T := by
  unfold Dev.notifyNow
  (repeat' split) <;> simp [*]

@[simp] theorem Dev.notifyRecord_mask {T : Groups} (_out : T.out = true) (_evt : T.evt = true) (_pcie : T.pcie =
    true) (sev : Nat) (d : Dev) : (Dev.notifyRecord sev d).mask T = d.mask T := by
  unfold Dev.notifyRecord
  (repeat' split) <;> simp [*]

@[simp] theorem Dev.setDegraded_mask {T : Groups} (_out : T.out = true) (_chip : T.chip = true) (_evt : T.evt =
    true) (_life : T.life = true) (_pcie : T.pcie = true) (entry : Nat) (mask : Nat) (d : Dev) : (Dev.setDegraded
    entry mask d).mask T = d.mask T := by
  simp [Dev.setDegraded, *]

@[simp] theorem Dev.programFoundation_mask {T : Groups} (_store : T.store = true) (_nv : T.nv = true) (d : Dev) :
    (Dev.programFoundation d).mask T = d.mask T := by
  unfold Dev.programFoundation
  (repeat' split) <;> simp [*]

@[simp] theorem Dev.fileRecord_mask {T : Groups} (_out : T.out = true) (_evt : T.evt = true) (_store : T.store =
    true) (_pcie : T.pcie = true) (_nv : T.nv = true) (a1 : EventRec) (d : Dev) : (Dev.fileRecord a1 d).mask T =
    d.mask T := by
  unfold Dev.fileRecord
  simp only []
  (repeat' split) <;> try simp [*]

@[simp] theorem Dev.fileFrom_mask {T : Groups} (_out : T.out = true) (_evt : T.evt = true) (_store : T.store = true)
    (_pcie : T.pcie = true) (_nv : T.nv = true) (r : Nat) (d : Dev) : (Dev.fileFrom r d).mask T = d.mask T := by
  unfold Dev.fileFrom
  (repeat' split) <;> simp [*]

@[simp] theorem Dev.fileAll_mask {T : Groups} (_out : T.out = true) (_evt : T.evt = true) (_store : T.store = true)
    (_pcie : T.pcie = true) (_nv : T.nv = true) (a1 : Nat) (d : Dev) : (Dev.fileAll a1 d).mask T = d.mask T := by
  induction a1 generalizing d with
  | zero => simp [Dev.fileAll]
  | succ k ih =>
    unfold Dev.fileAll
    (repeat' split) <;> simp [*]

@[simp] theorem Dev.killCopy_mask {T : Groups} (_evt : T.evt = true) (_life : T.life = true) (a1 : Nat) (mirror :
    Bool) (why : Nat) (d : Dev) : (Dev.killCopy a1 mirror why d).mask T = d.mask T := by
  unfold Dev.killCopy
  (repeat' split) <;> simp [*]

@[simp] theorem Dev.advanceEntry_mask {T : Groups} (_evt : T.evt = true) (_life : T.life = true) (_nv : T.nv = true)
    (eraseP : Bool) (eraseM : Bool) (d : Dev) : (Dev.advanceEntry eraseP eraseM d).mask T = d.mask T := by
  unfold Dev.advanceEntry
  (repeat' split) <;> simp [*]

@[simp] theorem Dev.programGroup_mask {T : Groups} (_out : T.out = true) (_chip : T.chip = true) (_evt : T.evt =
    true) (_life : T.life = true) (_store : T.store = true) (_pcie : T.pcie = true) (_nv : T.nv = true) (recs : List
    EventRec) (primaryOk : Bool) (mirrorOk : Bool) (eraseP : Bool) (eraseM : Bool) (d : Dev) : (Dev.programGroup
    recs primaryOk mirrorOk eraseP eraseM d).mask T = d.mask T := by
  unfold Dev.programGroup
  simp only []
  (repeat' split) <;> try simp [*]

@[simp] theorem Dev.programWaiting_mask {T : Groups} (_out : T.out = true) (_chip : T.chip = true) (_evt : T.evt =
    true) (_life : T.life = true) (_store : T.store = true) (_pcie : T.pcie = true) (_nv : T.nv = true) (primaryOk :
    Bool) (mirrorOk : Bool) (eraseP : Bool) (eraseM : Bool) (d : Dev) : (Dev.programWaiting primaryOk mirrorOk
    eraseP eraseM d).mask T = d.mask T := by
  unfold Dev.programWaiting
  (repeat' split) <;> simp [*]

@[simp] theorem Dev.closeLog_mask {T : Groups} (_out : T.out = true) (_chip : T.chip = true) (_evt : T.evt = true)
    (_life : T.life = true) (_store : T.store = true) (_pcie : T.pcie = true) (_nv : T.nv = true) (primaryOk : Bool)
    (mirrorOk : Bool) (d : Dev) : (Dev.closeLog primaryOk mirrorOk d).mask T = d.mask T := by
  unfold Dev.closeLog
  simp only []
  (repeat' split) <;> try simp [*]

@[simp] theorem Dev.readLog_mask {T : Groups} (_evt : T.evt = true) (_life : T.life = true) (env : LogReadEnv) (d :
    Dev) : (Dev.readLog env d).mask T = d.mask T := by
  simp [Dev.readLog, *]

@[simp] theorem Dev.openLog_mask {T : Groups} (_out : T.out = true) (_chip : T.chip = true) (_evt : T.evt = true)
    (_life : T.life = true) (_store : T.store = true) (_pcie : T.pcie = true) (_nv : T.nv = true) (saved : Nat) (env
    : LogReadEnv) (d : Dev) : (Dev.openLog saved env d).mask T = d.mask T := by
  unfold Dev.openLog
  simp only []
  (repeat' split) <;> try simp [*]

@[simp] theorem Dev.reserveLog_mask {T : Groups} (_evt : T.evt = true) (_life : T.life = true) (_store : T.store =
    true) (_nv : T.nv = true) (d : Dev) : (Dev.reserveLog d).mask T = d.mask T := by
  simp [Dev.reserveLog, *]

@[simp] theorem Dev.clearNotify_mask {T : Groups} (_evt : T.evt = true) (d : Dev) : (Dev.clearNotify d).mask T =
    d.mask T := by
  simp [Dev.clearNotify, *]

/-! ## Stats -/

@[simp] theorem Dev.readTemperatures_mask {T : Groups} (_chip : T.chip = true) (_life : T.life = true) (ts : List
    Int) (d : Dev) : (Dev.readTemperatures ts d).mask T = d.mask T := by
  unfold Dev.readTemperatures
  (repeat' split) <;> simp [*]

@[simp] theorem Dev.tick_mask {T : Groups} (_chip : T.chip = true) (_evt : T.evt = true) (_life : T.life = true)
    (_store : T.store = true) (_net : T.net = true) (ts : List Int) (d : Dev) : (Dev.tick ts d).mask T = d.mask T :=
    by
  unfold Dev.tick
  simp only []
  (repeat' split) <;> try simp [*]

@[simp] theorem Dev.cancelWake_mask {T : Groups} (_evt : T.evt = true) (_life : T.life = true) (_store : T.store =
    true) (r : Nat) (off : Nat) (d : Dev) : (Dev.cancelWake r off d).mask T = d.mask T := by
  unfold Dev.cancelWake
  simp only []
  (repeat' split) <;> try simp [*]

@[simp] theorem Dev.setTime_mask {T : Groups} (_evt : T.evt = true)(_life : T.life = true) (_store : T.store = true)
    (_wall : T.wall = true) (a1 : Nat) (d : Dev) : (Dev.setTime a1 d).mask T = d.mask T:= by
  have w : ∀ w, ({ d with wall := w } : Dev).mask T = d.mask T := fun w => by simp [Dev.mask, *]
  unfold Dev.setTime
  simp only []
  (repeat' split) <;> simp [*]

@[simp] theorem evrdEffect_mask {T : Groups} (_evt : T.evt = true) (_life : T.life = true) (_eng : T.eng = true)
    (log : LogReadEnv) (i : Nat) (c : Coach) (w : Fields) (d : Dev) : (evrdEffect log i c w d).mask T = d.mask T :=
    by
  unfold evrdEffect
  simp only []
  (repeat' split) <;> try simp [*]

@[simp] theorem ctrdEffect_mask {T : Groups} (_eng : T.eng = true) (i : Nat) (c : Coach) (w : Fields) (d : Dev) :
    (ctrdEffect i c w d).mask T = d.mask T := by
  unfold ctrdEffect
  simp only []
  (repeat' split) <;> try simp [*]

/-! ## Dma -/

@[simp] theorem Dev.issue_mask {T : Groups} (_out : T.out = true) (_pcie : T.pcie = true) (r : DmaRead) (d : Dev) :
    (Dev.issue r d).mask T = d.mask T := by
  unfold Dev.issue
  (repeat' split) <;> simp [*]

@[simp] theorem Dev.askTranslation_mask {T : Groups} (_out : T.out = true) (_pcie : T.pcie = true) (q : Nat) (key :
    Option Nat) (a : Nat) (d : Dev) : (Dev.askTranslation q key a d).mask T = d.mask T := by
  unfold Dev.askTranslation
  simp only []
  (repeat' split) <;> try simp [*]

@[simp] theorem Dev.writePieces_mask {T : Groups} (_out : T.out = true) (_pcie : T.pcie = true) (fn : Nat) (tg : Nat
    → Option Nat) (ps : List Piece) (b : Bytes) (s : Memories × Dev) : (Dev.writePieces fn tg ps b s).2.mask T =
    s.2.mask T:= by
  induction ps generalizing b s with
  | nil => rfl
  | cons p ps ih => 
    obtain ⟨m, d⟩ := s
    cases p <;> simp [Dev.writePieces, *]

@[simp] theorem Dev.queueResult_mask {T : Groups} (_out : T.out = true) (_pcie : T.pcie = true) (st : Byte) (d :
    Dev) : (Dev.queueResult st d).mask T = d.mask T := by
  simp [Dev.queueResult, *]

@[simp] theorem Dev.commandGone_mask {T : Groups} (_out : T.out = true) (_pcie : T.pcie = true) (q : Nat) (key :
    Nat) (d : Dev) : (Dev.commandGone q key d).mask T = d.mask T := by
  unfold Dev.commandGone
  (repeat' split) <;> simp [*]

@[simp] theorem Dev.post_mask {T : Groups} (_out : T.out = true) (_pcie : T.pcie = true) (q : Nat) (slot : Nat)
    (outcome : W32) (status : Byte) (nfields : Nat) (bodyLen : Nat) (crc : Nat) (d : Dev) : (Dev.post q slot outcome
    status nfields bodyLen crc d).mask T = d.mask T := by
  unfold Dev.post
  (repeat' split) <;> simp [*]

@[simp] theorem Dev.mboxDone_mask {T : Groups} (_out : T.out = true) (_pcie : T.pcie = true) (c : Command) (outcome
    : W32) (status : Byte) (nfields : Nat) (bodyLen : Nat) (crc : Nat) (d : Dev) : (Dev.mboxDone c outcome status
    nfields bodyLen crc d).mask T = d.mask T := by
  unfold Dev.mboxDone
  simp only []
  (repeat' split) <;> try simp [*]

@[simp] theorem Dev.queueError_mask {T : Groups} (_evt : T.evt = true) (_life : T.life = true) (_pcie : T.pcie =
    true) (q : Nat) (cause : Nat) (d : Dev) : (Dev.queueError q cause d).mask T = d.mask T := by
  unfold Dev.queueError
  (repeat' split) <;> simp [*]

/-! ## Emission -/

@[simp] theorem Dev.streamValue_mask {T : Groups} (_evt : T.evt = true) (_life : T.life = true) (_store : T.store =
    true) (_eng : T.eng = true) (a : Attached) (segs : List SegRead) (d : Dev) : (Dev.streamValue a segs d).2.mask T
    = d.mask T := by
  unfold Dev.streamValue
  simp only []
  (repeat' split) <;> try simp [*]

@[simp] theorem Dev.streamFields_mask {T : Groups} (_evt : T.evt = true) (_life : T.life = true) (_store : T.store =
    true) (_eng : T.eng = true) (l : List RespField) (rb : List SegRead) (d : Dev) : (Dev.streamFields l rb
    d).2.mask T = d.mask T:= by
  induction l generalizing rb d with
  | nil => rfl
  | cons f fs ih => cases f <;> simp [Dev.streamFields, *]

@[simp] theorem Dev.sendResponseFrame_mask {T : Groups} (_net : T.net = true) (a1 : Nat) (cls : Nat) (p : Peer)
    (message : Bytes) (d : Dev) : (Dev.sendResponseFrame a1 cls p message d).mask T = d.mask T := by
  simp [Dev.sendResponseFrame, *]

@[simp] theorem Dev.sendResponse_mask {T : Groups} (_net : T.net = true) (c : Coach) (n : Nat) (seq : W32) (body :
    Bytes) (d : Dev) : (Dev.sendResponse c n seq body d).mask T = d.mask T := by
  simp [Dev.sendResponse, *]

@[simp] theorem Dev.emitJenloth_mask {T : Groups} (_evt : T.evt = true) (_life : T.life = true) (_eng : T.eng =
    true) (_net : T.net = true) (i : Nat) (c : Coach) (n : Nat) (seq : W32) (r : Response) (d : Dev) :
    (Dev.emitJenloth i c n seq r d).mask T = d.mask T := by
  unfold Dev.emitJenloth
  simp only []
  (repeat' split) <;> try simp [*]

@[simp] theorem emitQueue_mask {T : Groups} (_out : T.out = true) (_pcie : T.pcie = true) (q : Nat) (slot : Nat)
    (cmd : Command) (r : Response) (s : Memories × Dev) : ∀ e, emitQueue q slot cmd r s = some e → e.2.mask T =
    s.2.mask T := by
  simp [emitQueue, *]

@[simp] theorem Dev.askResponse_mask {T : Groups} (_out : T.out = true) (_pcie : T.pcie = true) (q : Nat) (slot :
    Nat) (cmd : Command) (r : Response) (d : Dev) : (Dev.askResponse q slot cmd r d).mask T = d.mask T := by
  simp [Dev.askResponse, *]

@[simp] theorem emitMailbox_mask {T : Groups} (_out : T.out = true) (_pcie : T.pcie = true) (cmd : Command) (r :
    Response) (s : Memories × Dev) : (emitMailbox cmd r s).2.mask T = s.2.mask T := by
  unfold emitMailbox
  (repeat' split) <;> simp [*]

@[simp] theorem Dev.emitted_mask {T : Groups} (_life : T.life = true) (_store : T.store = true) (_eng : T.eng =
    true) (_net : T.net = true) (i : Nat) (c : Coach) (r : Response) (latencyNs : Nat) (d : Dev) : (Dev.emitted i c
    r latencyNs d).mask T = d.mask T := by
  unfold Dev.emitted
  (repeat' split) <;> simp [*]

@[simp] theorem Dev.streamAhead_mask {T : Groups} (_eng : T.eng = true) (i : Nat) (n : Nat) (rd : ReadEnv) (d : Dev)
    : (Dev.streamAhead i n rd d).mask T = d.mask T := by
  simp [Dev.streamAhead, *]

@[simp] theorem emissionEffect_mask {T : Groups} (_out : T.out = true) (_evt : T.evt = true) (_life : T.life = true)
    (_store : T.store = true) (_eng : T.eng = true) (_net : T.net = true) (_pcie : T.pcie = true) (i : Nat) (rd : ReadEnv)
    (part : Option Nat) (latencyNs : Nat) (m : Memories) (d : Dev) :
    (emissionEffect i rd part latencyNs m d).2.mask T = d.mask T:= by
  have f := fun (c : Coach) l => Dev.streamFields_mask (T := T) ‹_› ‹_› ‹_› ‹_› c.run.resp l d
  unfold emissionEffect
  simp only []
  (repeat' split) <;> simp [*]
  next h => exact (emitQueue_mask _out _pcie _ _ _ _ _ _ h).trans (by simp [*])

/-! ## Power -/

@[simp] theorem Dev.powerPfc_mask {T : Groups} (_out : T.out = true) (_net : T.net = true) (d : Dev) : (Dev.powerPfc
    d).mask T = d.mask T := by
  simp [Dev.powerPfc, *]

@[simp] theorem Dev.endAll_mask {T : Groups} (_life : T.life = true) (_store : T.store = true) (_eng : T.eng = true)
    (d : Dev) : (Dev.endAll d).mask T = d.mask T := by
  unfold Dev.endAll
  simp only []
  exact (Dev.each_mask _ _ _ fun _ _ => by (repeat' split) <;> simp [*]).trans (by simp [*])

@[simp] theorem Dev.stopMedia_mask {T : Groups} (_store : T.store = true) (d : Dev) : (Dev.stopMedia d).mask T =
    d.mask T := by
  simp [Dev.stopMedia, *]

@[simp] theorem Dev.beginFlush_mask {T : Groups} (_pfail : T.pfail = true) (_evt : T.evt = true) (_life : T.life =
    true) (_store : T.store = true) (_eng : T.eng = true) (trial : Bool) (d : Dev) : (Dev.beginFlush trial d).mask T
    = d.mask T := by
  simp [Dev.beginFlush, *]

@[simp] theorem Dev.notePwrfail_mask {T : Groups} (_evt : T.evt = true) (_life : T.life = true) (d : Dev) :
    (Dev.notePwrfail d).mask T = d.mask T := by
  simp [Dev.notePwrfail, *]

@[simp] theorem Dev.pwrfail_mask {T : Groups} (_out : T.out = true) (_pins : T.pins = true) (_pfail : T.pfail =
    true) (_evt : T.evt = true) (_life : T.life = true) (_store : T.store = true) (_eng : T.eng = true) (_net :
    T.net = true) (d : Dev) : (Dev.pwrfail d).mask T = d.mask T := by
  unfold Dev.pwrfail
  simp only []
  (repeat' split) <;> try simp [*]

@[simp] theorem Dev.padFronts_mask {T : Groups} (_evt : T.evt = true) (_life : T.life = true) (_store : T.store =
    true) (_nv : T.nv = true) (p : Nat → Bool) (d : Dev) : (Dev.padFronts p d).mask T = d.mask T := by
  simp [Dev.padFronts, *]

/-! ## Pcie -/

@[simp] theorem Dev.onCommand_mask {T : Groups} (_pcie : T.pcie = true) (q : Nat) (key : Nat) (f : Command →
    Command) (d : Dev) : (Dev.onCommand q key f d).mask T = d.mask T := by
  unfold Dev.onCommand
  (repeat' split) <;> simp [*]

@[simp] theorem Dev.failCommand_mask {T : Groups} (_out : T.out = true) (_pcie : T.pcie = true) (q : Nat) (key :
    Nat) (st : Byte) (c : Command) (d : Dev) : (Dev.failCommand q key st c d).mask T = d.mask T := by
  unfold Dev.failCommand
  (repeat' split) <;> simp [*]

@[simp] theorem Dev.pump_mask {T : Groups} (_out : T.out = true) (_pcie : T.pcie = true) (q : Nat) (key : Nat) (d :
    Dev) : (Dev.pump q key d).mask T = d.mask T := by
  unfold Dev.pump
  simp only []
  (repeat' split) <;> try simp [*]
  exact (Dev.each_mask _ _ _ fun u d => by (repeat' split) <;> simp [*]).trans (by simp [*])

@[simp] theorem Dev.formCoach_mask {T : Groups} (_out : T.out = true) (_eng : T.eng = true) (_pcie : T.pcie = true)
    (q : Nat) (key : Nat) (c : Command) (d : Dev) : (Dev.formCoach q key c d).mask T = d.mask T := by
  unfold Dev.formCoach
  simp only []
  (repeat' split) <;> try simp [*]

@[simp] theorem Dev.takeLists_mask {T : Groups} (_pcie : T.pcie = true) (q : Nat) (key : Nat) (c : Command) (d :
    Dev) : (Dev.takeLists q key c d).mask T = d.mask T := by
  simp [Dev.takeLists, *]

@[simp] theorem Dev.progressOnce_mask {T : Groups} (_out : T.out = true) (_eng : T.eng = true) (_pcie : T.pcie =
    true) (q : Nat) (key : Nat) (d : Dev) : (Dev.progressOnce q key d).mask T = d.mask T := by
  unfold Dev.progressOnce
  simp only []
  (repeat' split) <;> try simp [*]

@[simp] theorem Dev.progress_mask {T : Groups} (_out : T.out = true) (_eng : T.eng = true) (_pcie : T.pcie = true)
    (q : Nat) (key : Nat) (d : Dev) : (Dev.progress q key d).mask T = d.mask T := by
  simp [Dev.progress, *]

@[simp] theorem Dev.failReading_mask {T : Groups} (_out : T.out = true) (_eng : T.eng = true) (_pcie : T.pcie =
    true) (q : Nat) (key : Nat) (st : Byte) (d : Dev) : (Dev.failReading q key st d).mask T = d.mask T := by
  simp [Dev.failReading, *]

@[simp] theorem Dev.pumpAll_mask {T : Groups} (_out : T.out = true) (_eng : T.eng = true) (_pcie : T.pcie = true) (d
    : Dev) : (Dev.pumpAll d).mask T = d.mask T := by
  simp [Dev.pumpAll, *]

@[simp] theorem queueCommand_mask {T : Groups} (_pcie : T.pcie = true) (f : Dev → Dev) (d : Dev) (hf : ∀ x0, (f
    x0).mask T = x0.mask T) : (queueCommand f d).mask T = d.mask T := by
  unfold queueCommand
  (repeat' split) <;> simp [*]

@[simp] theorem Dev.queueBusy_mask {T : Groups} (_pcie : T.pcie = true) (d : Dev) : (Dev.queueBusy d).mask T =
    d.mask T := by
  simp [Dev.queueBusy, *]

@[simp] theorem queueCreateEffect_mask {T : Groups} (_out : T.out = true) (_pcie : T.pcie = true) (d : Dev) :
    (queueCreateEffect d).mask T = d.mask T := by
  unfold queueCreateEffect
  simp only []
  (repeat' split) <;> try simp [*]

@[simp] theorem queueDeleteEffect_mask {T : Groups} (_out : T.out = true) (_evt : T.evt = true) (_life : T.life =
    true) (_net : T.net = true) (_pcie : T.pcie = true) (d : Dev) : (queueDeleteEffect d).mask T = d.mask T := by
  unfold queueDeleteEffect
  simp only []
  (repeat' split) <;> try simp [*]

@[simp] theorem Dev.decideAbort_mask {T : Groups} (_out : T.out = true) (_life : T.life = true) (_store : T.store =
    true) (_eng : T.eng = true) (_pcie : T.pcie = true) (q : Nat) (cid : W16) (d : Dev) : (Dev.decideAbort q cid
    d).mask T = d.mask T := by
  unfold Dev.decideAbort
  simp only []
  (repeat' split) <;> try simp [*]

@[simp] theorem Dev.abortStep_mask {T : Groups} (_out : T.out = true) (_life : T.life = true) (_store : T.store =
    true) (_eng : T.eng = true) (_pcie : T.pcie = true) (d : Dev) : (Dev.abortStep d).mask T = d.mask T := by
  unfold Dev.abortStep
  simp only []
  (repeat' split) <;> try simp [*]

@[simp] theorem queueAbortEffect_mask {T : Groups} (_out : T.out = true) (_life : T.life = true) (_store : T.store =
    true) (_eng : T.eng = true) (_pcie : T.pcie = true) (cid : W16) (d : Dev) : (queueAbortEffect cid d).mask T =
    d.mask T := by
  unfold queueAbortEffect
  simp only []
  (repeat' split) <;> try simp [*]

@[simp] theorem Dev.badDoorbell_mask {T : Groups} (_evt : T.evt = true) (_life : T.life = true) (_pcie : T.pcie =
    true) (q : Nat) (which : Nat) (value : Nat) (d : Dev) : (Dev.badDoorbell q which value d).mask T = d.mask T :=
    by
  simp [Dev.badDoorbell, *]

@[simp] theorem sqTailEffect_mask {T : Groups} (_evt : T.evt = true) (_life : T.life = true) (_pcie : T.pcie = true)
    (q : Nat) (value : Nat) (d : Dev) : (sqTailEffect q value d).mask T = d.mask T := by
  unfold sqTailEffect
  (repeat' split) <;> simp [*]

@[simp] theorem cqHeadEffect_mask {T : Groups} (_out : T.out = true) (_evt : T.evt = true) (_life : T.life = true)
    (_pcie : T.pcie = true) (q : Nat) (value : Nat) (d : Dev) : (cqHeadEffect q value d).mask T = d.mask T := by
  unfold cqHeadEffect
  simp only []
  (repeat' split) <;> try simp [*]

@[simp] theorem fetchEffect_mask {T : Groups} (_out : T.out = true) (_pcie : T.pcie = true) (q : Nat) (d : Dev) :
    (fetchEffect q d).mask T = d.mask T := by
  unfold fetchEffect
  simp only []
  (repeat' split) <;> try simp [*]

@[simp] theorem Dev.beginCommand_mask {T : Groups} (_out : T.out = true) (_eng : T.eng = true) (_pcie : T.pcie =
    true) (q : Nat) (c : Command) (clash : Bool) (pool : Mem) (d : Dev) : (Dev.beginCommand q c clash pool d).mask T
    = d.mask T := by
  unfold Dev.beginCommand
  simp only []
  (repeat' split) <;> try simp [*]

@[simp] theorem Dev.entryArrived_mask {T : Groups} (_out : T.out = true) (_life : T.life = true) (_store : T.store =
    true) (_eng : T.eng = true) (_pcie : T.pcie = true) (q : Nat) (b : Bytes) (pool : Mem) (d : Dev) :
    (Dev.entryArrived q b pool d).mask T = d.mask T := by
  unfold Dev.entryArrived
  (repeat' split) <;> simp [*]

@[simp] theorem Dev.fetchFailed_mask {T : Groups} (_out : T.out = true) (_evt : T.evt = true) (_life : T.life =
    true) (_store : T.store = true) (_eng : T.eng = true) (_pcie : T.pcie = true) (q : Nat) (cause : Nat) (d : Dev)
    : (Dev.fetchFailed q cause d).mask T = d.mask T := by
  simp [Dev.fetchFailed, *]

@[simp] theorem Dev.dropCommand_mask {T : Groups} (_out : T.out = true) (_evt : T.evt = true) (_life : T.life =
    true) (_store : T.store = true) (_eng : T.eng = true) (_pcie : T.pcie = true) (q : Nat) (key : Nat) (c :
    Command) (d : Dev) : (Dev.dropCommand q key c d).mask T = d.mask T := by
  unfold Dev.dropCommand
  (repeat' split) <;> simp [*]

@[simp] theorem Dev.denied_mask {T : Groups} (_out : T.out = true) (_evt : T.evt = true) (_life : T.life = true)
    (_store : T.store = true) (_eng : T.eng = true) (_pcie : T.pcie = true) (q : Nat) (key : Option Nat) (d : Dev) :
    (Dev.denied q key d).mask T = d.mask T := by
  unfold Dev.denied
  (repeat' split) <;> simp [*]

@[simp] theorem Dev.learn_mask {T : Groups} (_out : T.out = true) (_eng : T.eng = true) (_pcie : T.pcie = true) (q :
    Nat) (key : Option Nat) (page : Nat) (target : Nat) (d : Dev) : (Dev.learn q key page target d).mask T = d.mask
    T := by
  unfold Dev.learn
  (repeat' split) <;> simp [*]

@[simp] theorem Dev.answered_mask {T : Groups} (_out : T.out = true) (_evt : T.evt = true) (_life : T.life = true)
    (_store : T.store = true) (_eng : T.eng = true) (_pcie : T.pcie = true) (a1 : Nat) (a2 : DmaAnswer) (a3 : Mem)
    (d : Dev) : (Dev.answered a1 a2 a3 d).mask T = d.mask T:= by
  unfold Dev.answered
  split
  · rfl
  next r h =>
  have g : ∀ d : Dev, d.pumpAll.mask T = d.mask T := fun d => by simp only [Dev.pumpAll_mask, *]
  cases r.kind <;> cases a2 <;> dsimp only <;> (repeat' split) <;> first | rfl | (rw [g]; simp only [Dev.entryArrived_mask, Dev.fetchFailed_mask, Dev.denied_mask, Dev.progress_mask, Dev.learn_mask, Dev.failReading_mask, Dev.onPcie_mask, Dev.onCommand_mask, *])

@[simp] theorem Dev.aer_mask {T : Groups} (_pcie : T.pcie = true) (fn : Nat) (b : Nat) (d : Dev) : (Dev.aer fn b
    d).mask T = d.mask T := by
  simp [Dev.aer, *]

@[simp] theorem Dev.quarantined_mask {T : Groups} (_pcie : T.pcie = true) (tag : Nat) (fn : Nat) (d : Dev) :
    (Dev.quarantined tag fn d).mask T = d.mask T := by
  simp [Dev.quarantined, *]

@[simp] theorem Dev.timedOut_mask {T : Groups} (_out : T.out = true) (_evt : T.evt = true) (_life : T.life = true)
    (_store : T.store = true) (_eng : T.eng = true) (_pcie : T.pcie = true) (tag : Nat) (r : DmaRead) (d : Dev) :
    (Dev.timedOut tag r d).mask T = d.mask T := by
  unfold Dev.timedOut
  simp only []
  (repeat' split) <;> try simp [*]

@[simp] theorem invalidateEffect_mask {T : Groups} (_pcie : T.pcie = true) (range : Nat × Nat) (d : Dev) :
    (invalidateEffect range d).mask T = d.mask T := by
  unfold invalidateEffect
  (repeat' split) <;> simp [*]

@[simp] theorem mboxEffect_mask {T : Groups} (_out : T.out = true) (_eng : T.eng = true) (_pcie : T.pcie = true)
    (pool : Mem) (d : Dev) : (mboxEffect pool d).mask T = d.mask T := by
  unfold mboxEffect
  (repeat' split) <;> simp [*]

@[simp] theorem mctpEffect_mask {T : Groups} (_out : T.out = true) (_eng : T.eng = true) (b : Bytes) (d : Dev) :
    (mctpEffect b d).mask T = d.mask T := by
  unfold mctpEffect
  simp only []
  (repeat' split) <;> try simp [*]

/-! ## PcieLink -/

@[simp] theorem Dev.reloadWindow_mask {T : Groups} (_pcie : T.pcie = true) (d : Dev) : (Dev.reloadWindow d).mask T =
    d.mask T := by
  simp [Dev.reloadWindow, *]

@[simp] theorem windowEffect_mask {T : Groups} (_out : T.out = true) (_pcie : T.pcie = true) (write : Bool) (offset
    : Nat) (length : Nat) (bytes : Bytes) (m : Memories) (d : Dev) : (windowEffect write offset length bytes m
    d).2.mask T = d.mask T := by
  unfold windowEffect
  (repeat' split) <;> simp [*]

@[simp] theorem Dev.orphan_mask {T : Groups} (_eng : T.eng = true) (c : Command) (d : Dev) : (Dev.orphan c d).mask T
    = d.mask T := by
  unfold Dev.orphan
  (repeat' split) <;> simp [*]

@[simp] theorem Dev.dropReads_mask {T : Groups} (_pcie : T.pcie = true) (fn : Nat) (d : Dev) : (Dev.dropReads fn
    d).mask T = d.mask T := by
  simp [Dev.dropReads, *]

@[simp] theorem Dev.resetPf0_mask {T : Groups} (_evt : T.evt = true) (_life : T.life = true) (_eng : T.eng = true)
    (_net : T.net = true) (_pcie : T.pcie = true) (d : Dev) : (Dev.resetPf0 d).mask T = d.mask T := by
  simp [Dev.resetPf0, *]

@[simp] theorem Dev.resetPf1_mask {T : Groups} (_eng : T.eng = true) (_pcie : T.pcie = true) (d : Dev) :
    (Dev.resetPf1 d).mask T = d.mask T := by
  unfold Dev.resetPf1
  simp only []
  (repeat' split) <;> try simp [*]

@[simp] theorem Dev.flr0_mask {T : Groups} (_evt : T.evt = true) (_life : T.life = true) (_eng : T.eng = true) (_net
    : T.net = true) (_pcie : T.pcie = true) (d : Dev) : (Dev.flr0 d).mask T = d.mask T := by
  simp [Dev.flr0, *]

@[simp] theorem Dev.flr1_mask {T : Groups} (_evt : T.evt = true) (_life : T.life = true) (_eng : T.eng = true)
    (_pcie : T.pcie = true) (d : Dev) : (Dev.flr1 d).mask T = d.mask T := by
  simp [Dev.flr1, *]

@[simp] theorem Dev.pcieLinkDown_mask {T : Groups} (_evt : T.evt = true) (_life : T.life = true) (_pcie : T.pcie =
    true) (cause : Nat) (d : Dev) : (Dev.pcieLinkDown cause d).mask T = d.mask T := by
  simp [Dev.pcieLinkDown, *]

@[simp] theorem Dev.resetEndpoint_mask {T : Groups} (_evt : T.evt = true) (_life : T.life = true) (_eng : T.eng =
    true) (_net : T.net = true) (_pcie : T.pcie = true) (cause : Nat) (d : Dev) : (Dev.resetEndpoint cause d).mask T
    = d.mask T := by
  unfold Dev.resetEndpoint
  simp only []
  (repeat' split) <;> try simp [*]

@[simp] theorem idleEffect_mask {T : Groups} (_evt : T.evt = true) (_life : T.life = true) (_store : T.store = true)
    (_pcie : T.pcie = true) (_nv : T.nv = true) (d : Dev) : (idleEffect d).mask T = d.mask T := by
  unfold idleEffect
  simp only []
  (repeat' split) <;> try simp [*]

@[simp] theorem Dev.enterD3_mask {T : Groups} (_pcie : T.pcie = true) (fn : Nat) (d : Dev) : (Dev.enterD3 fn d).mask
    T = d.mask T := by
  simp [Dev.enterD3, *]

@[simp] theorem Dev.sendNow_mask {T : Groups} (_out : T.out = true) (fn : Nat) (h : Held) (d : Dev) : (Dev.sendNow
    fn h d).mask T = d.mask T := by
  simp [Dev.sendNow, *]

@[simp] theorem Dev.leaveD3_mask {T : Groups} (_out : T.out = true) (_eng : T.eng = true) (_pcie : T.pcie = true)
    (fn : Nat) (d : Dev) : (Dev.leaveD3 fn d).mask T = d.mask T := by
  unfold Dev.leaveD3
  simp only []
  (repeat' split) <;> try simp [*]

@[simp] theorem Dev.sendPending_mask {T : Groups} (_out : T.out = true) (_pcie : T.pcie = true) (fn : Nat) (d : Dev)
    : (Dev.sendPending fn d).mask T = d.mask T := by
  simp [Dev.sendPending, *]

@[simp] theorem unmaskEffect_mask {T : Groups} (_out : T.out = true) (_pcie : T.pcie = true) (fn : Nat) (vector :
    Option Nat) (d : Dev) : (unmaskEffect fn vector d).mask T = d.mask T := by
  unfold unmaskEffect
  simp only []
  (repeat' split) <;> try simp [*]

@[simp] theorem Dev.buildDdt_mask {T : Groups} (_pcie : T.pcie = true) (deviceId : W64) (d : Dev) : (Dev.buildDdt
    deviceId d).mask T = d.mask T := by
  simp [Dev.buildDdt, *]

@[simp] theorem Dev.configWrite_mask {T : Groups} (_out : T.out = true) (_evt : T.evt = true) (_life : T.life =
    true) (_eng : T.eng = true) (_net : T.net = true) (_pcie : T.pcie = true) (fn : Nat) (offset : Nat) (a3 : Nat)
    (w : Nat) (d : Dev) : (Dev.configWrite fn offset a3 w d).mask T = d.mask T := by
  unfold Dev.configWrite
  simp only []
  (repeat' split) <;> try simp [*]

@[simp] theorem configEffect_mask {T : Groups} (_out : T.out = true) (_evt : T.evt = true) (_life : T.life = true)
    (_eng : T.eng = true) (_net : T.net = true) (_pcie : T.pcie = true) (deviceId : W64) (fn : Nat) (write : Bool)
    (offset : Nat) (a5 : BitVec 4) (value : W32) (d : Dev) : (configEffect deviceId fn write offset a5 value d).mask
    T = d.mask T := by
  unfold configEffect
  (repeat' split) <;> simp [*]

end Sys2Proof.Machine
end

