-- ==== Sys2Proof/Laws/FrameChip.lean ====
section
/-!
SUPPORT. Laws/FrameChip.lean: what each operation of Firmware, Registers, Boot, Recovery, Format, Reset may change. `f_mask` says of an operation `f` which groups of the device it may change: the hypotheses
name them, and every other group is as before.
-/
namespace Sys2Proof.Machine

/-! ## Firmware -/

@[simp] theorem bootRecord_mask {T : Groups} (_fw : T.fw = true) (f : BootControl → BootControl) (s : Memories ×
    Dev) : (bootRecord f s).2.mask T = s.2.mask T := by
  simp [bootRecord, *]

@[simp] theorem Dev.stagingEnds_mask {T : Groups} (_evt : T.evt = true) (_life : T.life = true) (_fw : T.fw = true)
    (result : Byte) (version : Nat) (security : Nat) (d : Dev) : (Dev.stagingEnds result version security d).mask T
    = d.mask T := by
  simp [Dev.stagingEnds, *]

@[simp] theorem stageWrite_mask {T : Groups} (_evt : T.evt = true) (_life : T.life = true) (_fw : T.fw = true) (off
    : Nat) (bytes : Bytes) (norOk : Bool) (s : Memories × Dev) : (stageWrite off bytes norOk s).2.mask T = s.2.mask
    T := by
  unfold stageWrite
  simp only []
  (repeat' split) <;> try simp [*]

@[simp] theorem stagedCheck_mask {T : Groups} (_evt : T.evt = true) (_life : T.life = true) (_fw : T.fw = true) (fu
    : Fuses) (s : Memories × Dev) : (stagedCheck fu s).2.mask T = s.2.mask T := by
  simp [stagedCheck, *]

@[simp] theorem commitTrial_mask {T : Groups} (_evt : T.evt = true) (_life : T.life = true) (_fw : T.fw = true) (s :
    Memories × Dev) : (commitTrial s).2.mask T = s.2.mask T := by
  simp [commitTrial, *]

@[simp] theorem Dev.failTrial_mask {T : Groups} (_out : T.out = true) (_pfail : T.pfail = true) (_evt : T.evt =
    true) (_life : T.life = true) (_fw : T.fw = true) (_store : T.store = true) (_eng : T.eng = true) (_net : T.net
    = true) (cause : Nat) (d : Dev) : (Dev.failTrial cause d).mask T = d.mask T := by
  unfold Dev.failTrial
  simp only []
  (repeat' split) <;> try simp [*]

@[simp] theorem Dev.commitResult_mask {T : Groups} (_fw : T.fw = true) (st : Byte) (d : Dev) : (Dev.commitResult st
    d).mask T = d.mask T := by
  simp [Dev.commitResult, *]

@[simp] theorem commitSettings_mask {T : Groups} (_fw : T.fw = true) (m : Memories) (d : Dev) : (commitSettings m
    d).mask T = d.mask T := by
  unfold commitSettings
  simp only []
  (repeat' split) <;> try simp [*]

@[simp] theorem commitDone_mask {T : Groups} (_fw : T.fw = true) (norOk : Bool) (s : Memories × Dev) : (commitDone
    norOk s).2.mask T = s.2.mask T := by
  unfold commitDone
  (repeat' split) <;> simp [*]

/-! ## Registers -/

@[simp] theorem Dev.afterRead_mask {T : Groups} (_net : T.net = true) (a : Nat) (d : Dev) : (Dev.afterRead a d).mask
    T = d.mask T := by
  unfold Dev.afterRead
  (repeat' split) <;> simp [*]

@[simp] theorem pf1Only_mask {T : Groups} (_pcie : T.pcie = true) (by_ : Requester) (f : Dev → Dev) (d : Dev) (hf :
    ∀ x0, (f x0).mask T = x0.mask T) : (pf1Only by_ f d).mask T = d.mask T := by
  simp [pf1Only, *]

@[simp] theorem Dev.writePsCtl_mask {T : Groups} (_evt : T.evt = true) (_life : T.life = true) (_pcie : T.pcie =
    true) (w : RegWrite) (d : Dev) : (Dev.writePsCtl w d).mask T = d.mask T := by
  unfold Dev.writePsCtl
  simp only []
  (repeat' split) <;> try simp [*]

@[simp] theorem Dev.writeQcmd_mask {T : Groups} (_out : T.out = true) (_evt : T.evt = true) (_life : T.life = true)
    (_store : T.store = true) (_eng : T.eng = true) (_net : T.net = true) (_pcie : T.pcie = true) (v : W32) (d :
    Dev) : (Dev.writeQcmd v d).mask T = d.mask T := by
  unfold Dev.writeQcmd
  (repeat' split) <;> simp [*]

@[simp] theorem Dev.writeTable_mask {T : Groups} (_out : T.out = true) (_pcie : T.pcie = true) (fn : Nat) (i : Nat)
    (w : RegWrite) (d : Dev) : (Dev.writeTable fn i w d).mask T = d.mask T := by
  simp [Dev.writeTable, *]

@[simp] theorem Dev.writePcie_mask {T : Groups} (_out : T.out = true) (_evt : T.evt = true) (_life : T.life = true)
    (_store : T.store = true) (_eng : T.eng = true) (_net : T.net = true) (_pcie : T.pcie = true) (a1 : Requester)
    (a2 : Mem) (a3 : Nat) (a4 : RegWrite) (d : Dev) : (Dev.writePcie a1 a2 a3 a4 d).mask T = d.mask T:= by
  unfold Dev.writePcie
  simp only []
  have h : ∀ p f, (∀ d : Dev, (f d).mask T = d.mask T) → ∀ d, (pf1Only a1 (guarded p f) d).mask T = d.mask T := fun p f h d => by simp [*]
  (repeat' split) <;> try simp [*]

@[simp] theorem Dev.writeMac_mask {T : Groups} (_evt : T.evt = true) (_life : T.life = true) (_store : T.store =
    true) (_net : T.net = true) (a1 : Nat) (off : Nat) (w : RegWrite) (d : Dev) : (Dev.writeMac a1 off w d).mask T =
    d.mask T := by
  unfold Dev.writeMac
  (repeat' split) <;> simp [*]

@[simp] theorem Dev.writeFilter_mask {T : Groups} (_net : T.net = true) (fu : Fuses) (a2 : Nat) (n : Nat) (w :
    RegWrite) (d : Dev) : (Dev.writeFilter fu a2 n w d).mask T = d.mask T := by
  simp [Dev.writeFilter, *]

@[simp] theorem Dev.writeRegion_mask {T : Groups} (_evt : T.evt = true) (_life : T.life = true) (_store : T.store =
    true) (_eng : T.eng = true) (_net : T.net = true) (fu : Fuses) (r : Nat) (off : Nat) (w : RegWrite) (d : Dev) :
    (Dev.writeRegion fu r off w d).mask T = d.mask T := by
  unfold Dev.writeRegion
  simp only []
  (repeat' split) <;> try simp [*]

@[simp] theorem Dev.writeUnwrapLock_mask {T : Groups} (_keys : T.keys = true) (by_ : Requester) (v : W32) (d : Dev)
    : (Dev.writeUnwrapLock by_ v d).mask T = d.mask T := by
  simp [Dev.writeUnwrapLock, *]

@[simp] theorem Dev.writeUnit_mask {T : Groups} (_out : T.out = true) (_chip : T.chip = true) (_evt : T.evt = true)
    (_life : T.life = true) (_keys : T.keys = true) (_fw : T.fw = true) (_store : T.store = true) (_eng : T.eng =
    true) (_net : T.net = true) (_pcie : T.pcie = true) (fu : Fuses) (by_ : Requester) (m : Memories) (a : Nat) (w :
    RegWrite) (d : Dev) : (Dev.writeUnit fu by_ m a w d).mask T = d.mask T := by
  unfold Dev.writeUnit
  simp only []
  (repeat' split) <;> try simp [*]

@[simp] theorem controlWrite_mask {T : Groups} (_out : T.out = true) (_chip : T.chip = true) (_evt : T.evt = true)
    (_life : T.life = true) (_keys : T.keys = true) (_fw : T.fw = true) (_store : T.store = true) (_eng : T.eng =
    true) (_net : T.net = true) (_pcie : T.pcie = true) (fu : Fuses) (by_ : Requester) (a : Nat) (wide : Bool) (v :
    W64) (s : Memories × Dev) : (controlWrite fu by_ a wide v s).2.mask T = s.2.mask T := by
  unfold controlWrite
  (repeat' split) <;> simp [*]

@[simp] theorem controlRead_mask {T : Groups} (_net : T.net = true) (_pcie : T.pcie = true) (fu : Fuses) (tProgUs :
    Nat) (window : Mem) (by_ : Requester) (a : Nat) (wide : Bool) (d : Dev) : (controlRead fu tProgUs window by_ a
    wide d).2.mask T = d.mask T := by
  unfold controlRead
  (repeat' split) <;> simp [*]

@[simp] theorem mrdEffect_mask {T : Groups} (_eng : T.eng = true) (_net : T.net = true) (fu : Fuses) (tProgUs : Nat)
    (window : Mem) (i : Nat) (c : Coach) (w : Fields) (d : Dev) : (mrdEffect fu tProgUs window i c w d).mask T =
    d.mask T := by
  unfold mrdEffect
  (repeat' split) <;> simp [*]

@[simp] theorem mwrEffect_mask {T : Groups} (_out : T.out = true) (_chip : T.chip = true) (_evt : T.evt = true)
    (_life : T.life = true) (_keys : T.keys = true) (_fw : T.fw = true) (_store : T.store = true) (_eng : T.eng =
    true) (_net : T.net = true) (_pcie : T.pcie = true) (fu : Fuses) (i : Nat) (c : Coach) (w : Fields) (s :
    Memories × Dev) : (mwrEffect fu i c w s).2.mask T = s.2.mask T := by
  unfold mwrEffect
  simp only []
  (repeat' split) <;> try simp [*]

/-! ## Boot -/

@[simp] theorem Dev.stepEnds_mask {T : Groups} (_chip : T.chip = true) (_fw : T.fw = true) (k : Nat) (ms : W32) (d :
    Dev) : (Dev.stepEnds k ms d).mask T = d.mask T := by
  simp [Dev.stepEnds, *]

@[simp] theorem Dev.reportStart_mask {T : Groups} (_evt : T.evt = true) (_life : T.life = true) (code : Nat) (params
    : List Nat) (d : Dev) : (Dev.reportStart code params d).mask T = d.mask T := by
  simp [Dev.reportStart, *]

@[simp] theorem Dev.enterRecovery_mask {T : Groups} (_chip : T.chip = true) (_evt : T.evt = true) (_life : T.life =
    true) (_fw : T.fw = true) (cause : Nat) (d : Dev) : (Dev.enterRecovery cause d).mask T = d.mask T := by
  simp [Dev.enterRecovery, *]

@[simp] theorem Dev.startFails_mask {T : Groups} (_out : T.out = true) (_pfail : T.pfail = true) (_chip : T.chip =
    true) (_evt : T.evt = true) (_life : T.life = true) (_fw : T.fw = true) (_store : T.store = true) (_eng : T.eng
    = true) (_net : T.net = true) (d : Dev) : (Dev.startFails d).mask T = d.mask T := by
  unfold Dev.startFails
  (repeat' split) <;> simp [*]

@[simp] theorem Dev.rom_mask {T : Groups} (_out : T.out = true) (_pins : T.pins = true) (_pfail : T.pfail = true)
    (_chip : T.chip = true) (_evt : T.evt = true) (_life : T.life = true) (_keys : T.keys = true) (_fw : T.fw =
    true) (_eng : T.eng = true) (_net : T.net = true) (_pcie : T.pcie = true) (r : RomResult) (d : Dev) : (Dev.rom r
    d).mask T = d.mask T := by
  unfold Dev.rom
  (repeat' split) <;> simp [*]

@[simp] theorem Dev.applyOptions_mask {T : Groups} (_chip : T.chip = true) (_pcie : T.pcie = true) (o :
    DeviceOptions) (d : Dev) : (Dev.applyOptions o d).mask T = d.mask T := by
  simp [Dev.applyOptions, *]

@[simp] theorem revertTrial_mask {T : Groups} (_evt : T.evt = true) (_life : T.life = true) (_fw : T.fw = true)
    (cause : Nat) (s : Memories × Dev) : (revertTrial cause s).2.mask T = s.2.mask T := by
  unfold revertTrial
  simp only []
  (repeat' split) <;> try simp [*]

@[simp] theorem bootCommitted_mask {T : Groups} (_fw : T.fw = true) (fu : Fuses) (s : Memories × Dev) :
    (bootCommitted fu s).2.2.mask T = s.2.mask T := by
  unfold bootCommitted
  simp only []
  (repeat' split) <;> try simp [*]

@[simp] theorem chooseSlot_mask {T : Groups} (_evt : T.evt = true) (_life : T.life = true) (_fw : T.fw = true) (fu :
    Fuses) (s : Memories × Dev) : (chooseSlot fu s).2.2.mask T = s.2.mask T := by
  unfold chooseSlot
  simp only []
  (repeat' split) <;> try simp [*]

@[simp] theorem norStep_mask {T : Groups} (_chip : T.chip = true) (_evt : T.evt = true) (_life : T.life = true) (_fw
    : T.fw = true) (_pcie : T.pcie = true) (fu : Fuses) (ms : W32) (s : Memories × Dev) : (norStep fu ms s).2.mask T
    = s.2.mask T := by
  unfold norStep
  simp only []
  (repeat' split) <;> try simp [*]

@[simp] theorem Dev.useSettings_mask {T : Groups} (_fw : T.fw = true) (r : SettingsRecord) (converted : Bool) (d :
    Dev) : (Dev.useSettings r converted d).mask T = d.mask T := by
  simp [Dev.useSettings, *]

@[simp] theorem Dev.defaultSettings_mask {T : Groups} (_evt : T.evt = true) (_life : T.life = true) (_fw : T.fw =
    true) (area : Nat) (d : Dev) : (Dev.defaultSettings area d).mask T = d.mask T := by
  simp [Dev.defaultSettings, *]

@[simp] theorem convertTrial_mask {T : Groups} (_evt : T.evt = true) (_life : T.life = true) (_fw : T.fw = true)
    (area : Nat) (r : SettingsRecord) (s : Memories × Dev) : (convertTrial area r s).2.mask T = s.2.mask T := by
  simp [convertTrial, *]

@[simp] theorem loadSettings_mask {T : Groups} (_evt : T.evt = true) (_life : T.life = true) (_fw : T.fw = true) (s
    : Memories × Dev) : (loadSettings s).2.2.mask T = s.2.mask T := by
  unfold loadSettings
  simp only []
  (repeat' split) <;> try simp [*]

@[simp] theorem Dev.skipEntry_mask {T : Groups} (_evt : T.evt = true) (_life : T.life = true) (kind : Nat) (place :
    Nat) (d : Dev) : (Dev.skipEntry kind place d).mask T = d.mask T := by
  simp [Dev.skipEntry, *]

@[simp] theorem Dev.applyRegister_mask {T : Groups} (_out : T.out = true) (_chip : T.chip = true) (_evt : T.evt =
    true) (_life : T.life = true) (_keys : T.keys = true) (_fw : T.fw = true) (_store : T.store = true) (_eng :
    T.eng = true) (_net : T.net = true) (_pcie : T.pcie = true) (fu : Fuses) (m : Memories) (a3 : SettingsEntry) (d
    : Dev) : (Dev.applyRegister fu m a3 d).mask T = d.mask T := by
  unfold Dev.applyRegister
  simp only []
  (repeat' split) <;> try simp [*]

@[simp] theorem Dev.applyRegisters_mask {T : Groups} (_out : T.out = true) (_chip : T.chip = true) (_evt : T.evt =
    true) (_life : T.life = true) (_keys : T.keys = true) (_fw : T.fw = true) (_store : T.store = true) (_eng :
    T.eng = true) (_net : T.net = true) (_pcie : T.pcie = true) (fu : Fuses) (m : Memories) (step : Nat) (d : Dev) :
    (Dev.applyRegisters fu m step d).mask T = d.mask T := by
  simp [Dev.applyRegisters, *]

@[simp] theorem Dev.applyEntry_mask {T : Groups} (_evt : T.evt = true) (_life : T.life = true) (_fw : T.fw = true)
    (i : Nat) (a2 : SettingsEntry) (d : Dev) : (Dev.applyEntry i a2 d).mask T = d.mask T := by
  unfold Dev.applyEntry
  (repeat' split) <;> simp [*]

@[simp] theorem Dev.applySettings_mask {T : Groups} (_out : T.out = true) (_chip : T.chip = true) (_evt : T.evt =
    true) (_life : T.life = true) (_keys : T.keys = true) (_fw : T.fw = true) (_store : T.store = true) (_eng :
    T.eng = true) (_net : T.net = true) (_pcie : T.pcie = true) (fu : Fuses) (m : Memories) (d : Dev) :
    (Dev.applySettings fu m d).mask T = d.mask T := by
  simp [Dev.applySettings, *]

@[simp] theorem firmwareStep_mask {T : Groups} (_out : T.out = true) (_pfail : T.pfail = true) (_chip : T.chip =
    true) (_evt : T.evt = true) (_life : T.life = true) (_keys : T.keys = true) (_fw : T.fw = true) (_store :
    T.store = true) (_eng : T.eng = true) (_net : T.net = true) (_pcie : T.pcie = true) (fu : Fuses) (selfCheckOk :
    Bool) (ms : W32) (s : Memories × Dev) : (firmwareStep fu selfCheckOk ms s).2.mask T = s.2.mask T := by
  unfold firmwareStep
  simp only []
  (repeat' split) <;> try simp [*]

@[simp] theorem Dev.deriveKeys_mask {T : Groups} (_keys : T.keys = true) (fu : Fuses) (d : Dev) : (Dev.deriveKeys fu
    d).mask T = d.mask T := by
  simp [Dev.deriveKeys, *]

@[simp] theorem Dev.loadStores_mask {T : Groups} (_fw : T.fw = true) (_eng : T.eng = true) (base : W32) (patch :
    W32) (d : Dev) : (Dev.loadStores base patch d).mask T = d.mask T := by
  simp [Dev.loadStores, *]

@[simp] theorem Dev.loadMicrocode_mask {T : Groups} (_evt : T.evt = true) (_life : T.life = true) (_fw : T.fw =
    true) (_eng : T.eng = true) (fu : Fuses) (nor : Mem) (d : Dev) : ∀ e, Dev.loadMicrocode fu nor d = some e →
    e.mask T = d.mask T := by
  unfold Dev.loadMicrocode
  simp only []
  (repeat' split) <;> simp [*]

@[simp] theorem Dev.retireRow_mask {T : Groups} (_out : T.out = true) (_pins : T.pins = true) (_chip : T.chip =
    true) (_evt : T.evt = true) (_life : T.life = true) (_store : T.store = true) (_eng : T.eng = true) (_net :
    T.net = true) (_pcie : T.pcie = true) (b : Nat) (row : Nat) (d : Dev) : (Dev.retireRow b row d).mask T = d.mask
    T := by
  unfold Dev.retireRow
  simp only []
  (repeat' split) <;> try simp [*]

@[simp] theorem microcodeStep_mask {T : Groups} (_out : T.out = true) (_pins : T.pins = true) (_pfail : T.pfail =
    true) (_chip : T.chip = true) (_evt : T.evt = true) (_life : T.life = true) (_keys : T.keys = true) (_fw : T.fw
    = true) (_store : T.store = true) (_eng : T.eng = true) (_net : T.net = true) (_pcie : T.pcie = true) (a1 :
    Fuses) (a2 : Mem) (a3 : BitVec 64) (a4 : List (BankId × Nat)) (a5 : W32) (d : Dev) : (microcodeStep a1 a2 a3 a4
    a5 d).mask T = d.mask T:= by
  unfold microcodeStep
  simp only []
  split
  · simp only [Dev.startFails_mask, Dev.unwrapDone_mask, Dev.deriveKeys_mask, Dev.stepEnds_mask, *]
  next h =>
  refine (Dev.each_mask _ _ _ fun _ _ => by simp only [Dev.retireRow_mask, *]).trans ((Dev.each_mask _ _ _ fun _ _ => by simp only [Dev.fenceCluster_mask, *]).trans ?_)
  refine (Dev.unwrapDone_mask _evt _life _keys _ _ _ _).trans ((Dev.loadMicrocode_mask _evt _life _fw _eng _ _ _ _ h).trans ?_)
  simp only [Dev.deriveKeys_mask, Dev.stepEnds_mask, *]

/-! ## Recovery -/

@[simp] theorem Dev.readCopies_mask {T : Groups} (_nv : T.nv = true) (k : KeystoneRead) (r : Nat) (d : Dev) :
    (Dev.readCopies k r d).mask T = d.mask T := by
  simp [Dev.readCopies, *]

@[simp] theorem Dev.useGeometry_mask {T : Groups} (_chip : T.chip = true) (_store : T.store = true) (g : Geometry)
    (d : Dev) : (Dev.useGeometry g d).mask T = d.mask T := by
  simp [Dev.useGeometry, *]

@[simp] theorem keystoneStep_mask {T : Groups} (_pins : T.pins = true) (_chip : T.chip = true) (_evt : T.evt = true)
    (_life : T.life = true) (_fw : T.fw = true) (_store : T.store = true) (_nv : T.nv = true) (copies : List
    KeystoneRead) (ms : W32) (d : Dev) : (keystoneStep copies ms d).mask T = d.mask T := by
  unfold keystoneStep
  simp only []
  (repeat' split) <;> try simp [*]

@[simp] theorem Dev.loadRegion_mask {T : Groups} (_store : T.store = true) (sealsBad : BitVec 8) (r : Nat) (d : Dev)
    : (Dev.loadRegion sealsBad r d).mask T = d.mask T := by
  simp [Dev.loadRegion, *]

@[simp] theorem Dev.loadLifetime_mask {T : Groups} (_chip : T.chip = true) (_evt : T.evt = true) (_wall : T.wall =
    true) (_life : T.life = true) (saved : Lifetime) (own : Nat → Lifetime) (d : Dev) : (Dev.loadLifetime saved own
    d).mask T = d.mask T := by
  have k : ∀ (e : Dev) w v, ({ e with wall := w, evt := v } : Dev).mask T = e.mask T := fun e w v => by
    simp [Dev.mask, *]
  exact (k _ _ _).trans (by simp [*])

@[simp] theorem Dev.unwrapSlot_mask {T : Groups} (_evt : T.evt = true) (_life : T.life = true) (_keys : T.keys =
    true) (n : Nat) (d : Dev) : (Dev.unwrapSlot n d).mask T = d.mask T := by
  unfold Dev.unwrapSlot
  simp only []
  (repeat' split) <;> try simp [*]

@[simp] theorem Dev.unwrapToken_mask {T : Groups} (_evt : T.evt = true) (_life : T.life = true) (_keys : T.keys =
    true) (d : Dev) : (Dev.unwrapToken d).mask T = d.mask T := by
  unfold Dev.unwrapToken
  (repeat' split) <;> simp [*]

@[simp] theorem Dev.loadKeys_mask {T : Groups} (_evt : T.evt = true) (_life : T.life = true) (_keys : T.keys = true)
    (t : KeyTable) (d : Dev) : (Dev.loadKeys t d).mask T = d.mask T := by
  simp [Dev.loadKeys, *]

@[simp] theorem Dev.loadNamespaces_mask {T : Groups} (_store : T.store = true) (t : Tab Namespace) (d : Dev) :
    (Dev.loadNamespaces t d).mask T = d.mask T := by
  simp [Dev.loadNamespaces, *]

@[simp] theorem Dev.loadChip_mask {T : Groups} (_out : T.out = true) (_chip : T.chip = true) (_evt : T.evt = true)
    (_wall : T.wall = true) (_life : T.life = true) (_keys : T.keys = true) (_store : T.store = true) (_pcie :
    T.pcie = true) (_nv : T.nv = true) (sealsBad : BitVec 8) (log : LogReadEnv) (d : Dev) : (Dev.loadChip sealsBad
    log d).mask T = d.mask T := by
  simp [Dev.loadChip, *]

@[simp] theorem Dev.removeEntry_mask {T : Groups} (_store : T.store = true) (r : Nat) (slot : Nat) (ns : W16) (a4 :
    IndexEntry) (d : Dev) : (Dev.removeEntry r slot ns a4 d).mask T = d.mask T := by
  simp [Dev.removeEntry, *]

@[simp] theorem Dev.trimSegments_mask {T : Groups} (_store : T.store = true) (home : Nat) (from_ : Nat) (x : Record)
    (d : Dev) : (Dev.trimSegments home from_ x d).mask T = d.mask T := by
  unfold Dev.trimSegments
  simp only []
  exact (Dev.each_mask _ _ _ fun _ _ => by (repeat' split) <;> simp [*]).trans (by simp [*])

@[simp] theorem Dev.enterRecord_mask {T : Groups} (_store : T.store = true) (a1 : Nat) (x : Record) (d : Dev) :
    (Dev.enterRecord a1 x d).mask T = d.mask T:= by
  unfold Dev.enterRecord
  simp only []
  have h : ∀ r e d, (((Dev.insertEntry r e d).getD d).mask T) = d.mask T := fun r e d => by
    cases h : Dev.insertEntry r e d with
    | none => rfl
    | some e' => exact Dev.insertEntry_mask _store _ _ _ _ h
  (repeat' split) <;> simp [*]

@[simp] theorem Dev.enterTombstone_mask {T : Groups} (_store : T.store = true) (a : Nat) (x : Record) (d : Dev) :
    (Dev.enterTombstone a x d).mask T = d.mask T := by
  unfold Dev.enterTombstone
  simp only []
  (repeat' split) <;> try simp [*]

@[simp] theorem Dev.replayRecord_mask {T : Groups} (_store : T.store = true) (good : List Found) (a2 : Found) (d :
    Dev) : (Dev.replayRecord good a2 d).mask T = d.mask T := by
  unfold Dev.replayRecord
  simp only []
  (repeat' split) <;> try simp [*]

@[simp] theorem Dev.repairEntry_mask {T : Groups} (_store : T.store = true) (good : List Found) (r : Nat) (a3 :
    IndexEntry) (d : Dev) : (Dev.repairEntry good r a3 d).mask T = d.mask T := by
  unfold Dev.repairEntry
  simp only []
  (repeat' split) <;> try simp [*]

@[simp] theorem Dev.recordLost_mask {T : Groups} (_evt : T.evt = true) (_life : T.life = true) (_store : T.store =
    true) (_nv : T.nv = true) (a1 : Found) (d : Dev) : (Dev.recordLost a1 d).mask T = d.mask T := by
  simp [Dev.recordLost, *]

@[simp] theorem Dev.discardedSets_mask {T : Groups} (_evt : T.evt = true) (_life : T.life = true) (d : Dev) (good :
    List Found) : (Dev.discardedSets d good).mask T = d.mask T := by
  simp [Dev.discardedSets, *]

@[simp] theorem Dev.deriveStripes_mask {T : Groups} (_store : T.store = true) (good : List Found) (d : Dev) :
    (Dev.deriveStripes good d).mask T = d.mask T := by
  simp [Dev.deriveStripes, *]

@[simp] theorem Dev.blockFound_mask {T : Groups} (_evt : T.evt = true) (_life : T.life = true) (_store : T.store =
    true) (b : Nat) (erase : Bool) (d : Dev) : (Dev.blockFound b erase d).mask T = d.mask T := by
  simp [Dev.blockFound, *]

@[simp] theorem Dev.runCourse_mask {T : Groups} (_pfail : T.pfail = true) (_life : T.life = true) (_keys : T.keys =
    true) (_store : T.store = true) (_nv : T.nv = true) (k : Nat) (x : Course) (d : Dev) : (Dev.runCourse k x
    d).mask T = d.mask T := by
  simp [Dev.runCourse, *]

@[simp] theorem Dev.runMetadata_mask {T : Groups} (_pfail : T.pfail = true) (_life : T.life = true) (_keys : T.keys
    = true) (_store : T.store = true) (_nv : T.nv = true) (r : Nat) (d : Dev) : (Dev.runMetadata r d).mask T =
    d.mask T := by
  simp [Dev.runMetadata, *]

@[simp] theorem Dev.openMetadata_mask {T : Groups} (_life : T.life = true) (_store : T.store = true) (_nv : T.nv =
    true) (r : Nat) (a2 : Nat) (d : Dev) : (Dev.openMetadata r a2 d).mask T = d.mask T := by
  unfold Dev.openMetadata
  (repeat' split) <;> simp [*]

@[simp] theorem Dev.sealThrough_mask {T : Groups} (_pfail : T.pfail = true) (_evt : T.evt = true) (_life : T.life =
    true) (_keys : T.keys = true) (_store : T.store = true) (_nv : T.nv = true) (r : Nat) (a2 : Nat) (d : Dev) :
    (Dev.sealThrough r a2 d).2.mask T = d.mask T := by
  induction a2 generalizing d with
  | zero => rfl
  | succ n ih =>
    unfold Dev.sealThrough
    split
    · rfl
    · next s _ =>
      have w := (Dev.writeSeal_mask _evt _life _store _nv r (d.openMetadata r s)).trans (Dev.openMetadata_mask _life _store _nv r s d)
      split
      · next h => rw [h] at w; exact w
      · next h =>
        rw [h] at w
        refine (ih _).trans (Eq.trans ?_ w)
        simp [*]

@[simp] theorem Dev.sealNow_mask {T : Groups} (_pfail : T.pfail = true) (_evt : T.evt = true) (_life : T.life =
    true) (_keys : T.keys = true) (_store : T.store = true) (_nv : T.nv = true) (fate : KeystoneFate) (r : Nat) (d :
    Dev) : (Dev.sealNow fate r d).mask T = d.mask T := by
  have w := fun n => Dev.sealThrough_mask _pfail _evt _life _keys _store _nv r n d
  unfold Dev.sealNow
  split
  · next h =>
    have w := w (d.eligible r).length
    rw [h] at w
    exact (Dev.writeKeystone_mask _evt _life _store _nv _ _ _).trans w
  · next h =>
    have w := w (d.eligible r).length
    rw [h] at w
    refine Eq.trans ?_ w
    simp [*]

@[simp] theorem Dev.deriveWriteState_mask {T : Groups} (_store : T.store = true) (r : Nat) (d : Dev) :
    (Dev.deriveWriteState r d).mask T = d.mask T := by
  simp [Dev.deriveWriteState, *]

@[simp] theorem Dev.checkPowerLoss_mask {T : Groups} (_evt : T.evt = true) (_life : T.life = true) (applied : List
    Found) (d : Dev) : (Dev.checkPowerLoss applied d).mask T = d.mask T := by
  unfold Dev.checkPowerLoss
  simp only []
  (repeat' split) <;> try simp [*]

@[simp] theorem Dev.reportRejoined_mask {T : Groups} (_evt : T.evt = true) (_life : T.life = true) (d : Dev) :
    (Dev.reportRejoined d).mask T = d.mask T := by
  unfold Dev.reportRejoined
  simp only []
  split <;> simp [*]

@[simp] theorem replayStep_mask {T : Groups} (_pfail : T.pfail = true) (_evt : T.evt = true) (_life : T.life = true)
    (_keys : T.keys = true) (_store : T.store = true) (_nv : T.nv = true) (x : ReplayRead) (d : Dev) : (replayStep x
    d).mask T = d.mask T := by
  simp [replayStep, *]

@[simp] theorem Dev.scheduleWake_mask {T : Groups} (_evt : T.evt = true) (_life : T.life = true) (_store : T.store =
    true) (r : Nat) (d : Dev) : (Dev.scheduleWake r d).mask T = d.mask T := by
  unfold Dev.scheduleWake
  simp only []
  (repeat' split) <;> try simp [*]

@[simp] theorem Dev.loadRule_mask {T : Groups} (_evt : T.evt = true) (_life : T.life = true) (_store : T.store =
    true) (i : Nat) (a2 : SettingsEntry) (d : Dev) : (Dev.loadRule i a2 d).mask T = d.mask T := by
  unfold Dev.loadRule
  simp only []
  (repeat' split) <;> try simp [*]

@[simp] theorem Dev.joinDiscovery_mask {T : Groups} (_net : T.net = true) (d : Dev) : (Dev.joinDiscovery d).mask T =
    d.mask T := by
  simp [Dev.joinDiscovery, *]

@[simp] theorem Dev.openService_mask {T : Groups} (_out : T.out = true) (_chip : T.chip = true) (_evt : T.evt =
    true) (_life : T.life = true) (_keys : T.keys = true) (_fw : T.fw = true) (_store : T.store = true) (_eng :
    T.eng = true) (_net : T.net = true) (_pcie : T.pcie = true) (fu : Fuses) (m : Memories) (d : Dev) :
    (Dev.openService fu m d).mask T = d.mask T := by
  simp [Dev.openService, *]

@[simp] theorem Dev.serviceOpened_mask {T : Groups} (_evt : T.evt = true) (_life : T.life = true) (_nv : T.nv =
    true) (d : Dev) : (Dev.serviceOpened d).mask T = d.mask T := by
  simp [Dev.serviceOpened, *]

/-! ## Format -/

@[simp] theorem Dev.setPhase_mask {T : Groups} (_store : T.store = true) (n : Nat) (d : Dev) : (Dev.setPhase n
    d).mask T = d.mask T := by
  simp [Dev.setPhase, *]

@[simp] theorem fmtEffect_mask {T : Groups} (_store : T.store = true) (_eng : T.eng = true) (bd : Board) (i : Nat)
    (c : Coach) (w : Fields) (d : Dev) : (fmtEffect bd i c w d).mask T = d.mask T := by
  unfold fmtEffect
  (repeat' split) <;> simp [*]

@[simp] theorem Dev.carryBlocks_mask {T : Groups} (_store : T.store = true) (bd : Board) (d : Dev) :
    (Dev.carryBlocks bd d).mask T = d.mask T := by
  simp [Dev.carryBlocks, *]

@[simp] theorem Dev.setBudgets_mask {T : Groups} (_store : T.store = true) (g : Geometry) (d : Dev) :
    (Dev.setBudgets g d).mask T = d.mask T := by
  simp [Dev.setBudgets, *]

@[simp] theorem Dev.systemBlock_mask {T : Groups} (_store : T.store = true) (die : Nat) (block : Nat) (d : Dev) :
    (Dev.systemBlock die block d).mask T = d.mask T := by
  simp [Dev.systemBlock, *]

@[simp] theorem Dev.assignLog_mask {T : Groups} (_evt : T.evt = true) (_store : T.store = true) (_nv : T.nv = true)
    (g : Geometry) (d : Dev) : (Dev.assignLog g d).2.mask T = d.mask T := by
  unfold Dev.assignLog
  (repeat' split) <;> simp [*]

@[simp] theorem Dev.clearTables_mask {T : Groups} (_chip : T.chip = true) (_life : T.life = true) (_keys : T.keys =
    true) (_store : T.store = true) (d : Dev) : (Dev.clearTables d).mask T = d.mask T := by
  have k : ∀ (e : Dev) l, ({ e with life := l } : Dev).mask T = e.mask T := fun e l => by simp [Dev.mask, *]
  simp [Dev.clearTables, *]

@[simp] theorem Dev.eraseAll_mask {T : Groups} (_life : T.life = true) (_store : T.store = true) (_nv : T.nv = true)
    (g : Geometry) (d : Dev) : (Dev.eraseAll g d).mask T = d.mask T := by
  unfold Dev.eraseAll
  simp only []
  exact (Dev.each_mask _ _ _ fun _ _ => by (repeat' split) <;> simp [*]).trans (by simp [*])

@[simp] theorem Dev.drawSeeds_mask {T : Groups} (_free : T.free = true) (_keys : T.keys = true) (g : Geometry) (d :
    Dev) : (Dev.drawSeeds g d).2.mask T = d.mask T := by
  simp [Dev.drawSeeds, *]

@[simp] theorem Dev.eraseZero_mask {T : Groups} (_life : T.life = true) (_store : T.store = true) (_nv : T.nv =
    true) (die : Nat) (block : Nat) (d : Dev) : (Dev.eraseZero die block d).mask T = d.mask T := by
  simp [Dev.eraseZero, *]

@[simp] theorem Dev.writeGeometry_mask {T : Groups} (_life : T.life = true) (_store : T.store = true) (_nv : T.nv =
    true) (g : Geometry) (r : Nat) (d : Dev) : (Dev.writeGeometry g r d).mask T = d.mask T := by
  simp [Dev.writeGeometry, *]

@[simp] theorem Dev.clearKeystones_mask {T : Groups} (_life : T.life = true) (_store : T.store = true) (_nv : T.nv =
    true) (r : Nat) (d : Dev) : (Dev.clearKeystones r d).mask T = d.mask T := by
  simp [Dev.clearKeystones, *]

@[simp] theorem Dev.firstKeystone_mask {T : Groups} (_evt : T.evt = true) (_life : T.life = true) (_store : T.store
    = true) (_nv : T.nv = true) (g : Geometry) (r : Nat) (d : Dev) : (Dev.firstKeystone g r d).mask T = d.mask T :=
    by
  simp [Dev.firstKeystone, *]

@[simp] theorem Dev.firstSeal_mask {T : Groups} (_pfail : T.pfail = true) (_evt : T.evt = true) (_life : T.life =
    true) (_keys : T.keys = true) (_store : T.store = true) (_nv : T.nv = true) (r : Nat) (d : Dev) : (Dev.firstSeal
    r d).mask T = d.mask T := by
  unfold Dev.firstSeal
  (repeat' split) <;> simp [*]

@[simp] theorem Dev.openLogOnce_mask {T : Groups} (_out : T.out = true) (_chip : T.chip = true) (_evt : T.evt =
    true) (_life : T.life = true) (_store : T.store = true) (_pcie : T.pcie = true) (_nv : T.nv = true) (d : Dev) :
    (Dev.openLogOnce d).mask T = d.mask T := by
  unfold Dev.openLogOnce
  (repeat' split) <;> simp [*]

@[simp] theorem Dev.format_mask {T : Groups} (_out : T.out = true) (_free : T.free = true) (_pins : T.pins = true)
    (_pfail : T.pfail = true) (_chip : T.chip = true) (_evt : T.evt = true) (_life : T.life = true) (_keys : T.keys
    = true) (_fw : T.fw = true) (_store : T.store = true) (_eng : T.eng = true) (_net : T.net = true) (_pcie :
    T.pcie = true) (_nv : T.nv = true) (fu : Fuses) (bd : Board) (m : Memories) (d : Dev) : (Dev.format fu bd m
    d).mask T = d.mask T := by
  unfold Dev.format
  simp only []
  (repeat' split) <;> try simp [*]

/-! ## Reset -/

@[simp] theorem Dev.resetChip_mask {T : Groups} (_pins : T.pins = true) (_pfail : T.pfail = true) (_chip : T.chip =
    true) (_evt : T.evt = true) (_wall : T.wall = true) (_life : T.life = true) (_keys : T.keys = true) (_fw : T.fw
    = true) (_store : T.store = true) (_eng : T.eng = true) (_net : T.net = true) (_pcie : T.pcie = true) (_trained
    : T.trained = true) (d : Dev) : (Dev.resetChip d).mask T = d.mask T := by
  simp [Dev.resetChip, Dev.mask, *]

@[simp] theorem chipReset_mask {T : Groups} (_pins : T.pins = true) (_pfail : T.pfail = true) (_chip : T.chip =
    true) (_evt : T.evt = true) (_wall : T.wall = true) (_life : T.life = true) (_keys : T.keys = true) (_fw : T.fw
    = true) (_store : T.store = true) (_eng : T.eng = true) (_net : T.net = true) (_pcie : T.pcie = true) (_trained
    : T.trained = true) (s : Memories × Dev) : (chipReset s).2.mask T = s.2.mask T := by
  simp [chipReset, *]

@[simp] theorem resetOrDefer_mask {T : Groups} (_pins : T.pins = true) (_pfail : T.pfail = true) (_chip : T.chip =
    true) (_evt : T.evt = true) (_wall : T.wall = true) (_life : T.life = true) (_keys : T.keys = true) (_fw : T.fw
    = true) (_store : T.store = true) (_eng : T.eng = true) (_net : T.net = true) (_pcie : T.pcie = true) (_trained
    : T.trained = true) (s : Memories × Dev) : (resetOrDefer s).2.mask T = s.2.mask T := by
  unfold resetOrDefer
  (repeat' split) <;> simp [*]

@[simp] theorem fundamentalReset_mask {T : Groups} (_chip : T.chip = true) (_evt : T.evt = true) (_life : T.life =
    true) (_eng : T.eng = true) (_net : T.net = true) (_pcie : T.pcie = true) (d : Dev) :
    (fundamentalReset d).mask T = d.mask T := by
  unfold fundamentalReset
  simp only []
  (repeat' split) <;> try simp [*]

@[simp] theorem perstEffect_mask {T : Groups} (_pins : T.pins = true) (_pfail : T.pfail = true) (_chip : T.chip =
    true) (_evt : T.evt = true) (_wall : T.wall = true) (_life : T.life = true) (_keys : T.keys = true) (_fw : T.fw
    = true) (_store : T.store = true) (_eng : T.eng = true) (_net : T.net = true) (_pcie : T.pcie = true) (_trained
    : T.trained = true) (s : Memories × Dev) : (perstEffect s).2.mask T = s.2.mask T := by
  unfold perstEffect
  simp only []
  (repeat' split) <;> try simp [*]

end Sys2Proof.Machine
end

