-- ==== Sys2Proof/Laws/State.lean ====
section
/-!
SUPPORT. Laws/State.lean: one lemma per group of the device per update, so that no proof unfolds an update.
-/
namespace Sys2Proof.Machine

section
variable (f : Chip → Chip) (d : Dev)
@[simp] theorem Dev.onChip_out : (d.onChip f).out = d.out := rfl
@[simp] theorem Dev.onChip_free : (d.onChip f).free = d.free := rfl
@[simp] theorem Dev.onChip_pins : (d.onChip f).pins = d.pins := rfl
@[simp] theorem Dev.onChip_pfail : (d.onChip f).pfail = d.pfail := rfl
@[simp] theorem Dev.onChip_chip : (d.onChip f).chip = f d.chip := rfl
@[simp] theorem Dev.onChip_evt : (d.onChip f).evt = d.evt := rfl
@[simp] theorem Dev.onChip_wall : (d.onChip f).wall = d.wall := rfl
@[simp] theorem Dev.onChip_life : (d.onChip f).life = d.life := rfl
@[simp] theorem Dev.onChip_keys : (d.onChip f).keys = d.keys := rfl
@[simp] theorem Dev.onChip_fw : (d.onChip f).fw = d.fw := rfl
@[simp] theorem Dev.onChip_store : (d.onChip f).store = d.store := rfl
@[simp] theorem Dev.onChip_eng : (d.onChip f).eng = d.eng := rfl
@[simp] theorem Dev.onChip_net : (d.onChip f).net = d.net := rfl
@[simp] theorem Dev.onChip_pcie : (d.onChip f).pcie = d.pcie := rfl
@[simp] theorem Dev.onChip_trained : (d.onChip f).trained = d.trained := rfl
@[simp] theorem Dev.onChip_nv : (d.onChip f).nv = d.nv := rfl
end

section
variable (f : Pins → Pins) (d : Dev)
@[simp] theorem Dev.onPins_out : (d.onPins f).out = d.out := rfl
@[simp] theorem Dev.onPins_free : (d.onPins f).free = d.free := rfl
@[simp] theorem Dev.onPins_pins : (d.onPins f).pins = f d.pins := rfl
@[simp] theorem Dev.onPins_pfail : (d.onPins f).pfail = d.pfail := rfl
@[simp] theorem Dev.onPins_chip : (d.onPins f).chip = d.chip := rfl
@[simp] theorem Dev.onPins_evt : (d.onPins f).evt = d.evt := rfl
@[simp] theorem Dev.onPins_wall : (d.onPins f).wall = d.wall := rfl
@[simp] theorem Dev.onPins_life : (d.onPins f).life = d.life := rfl
@[simp] theorem Dev.onPins_keys : (d.onPins f).keys = d.keys := rfl
@[simp] theorem Dev.onPins_fw : (d.onPins f).fw = d.fw := rfl
@[simp] theorem Dev.onPins_store : (d.onPins f).store = d.store := rfl
@[simp] theorem Dev.onPins_eng : (d.onPins f).eng = d.eng := rfl
@[simp] theorem Dev.onPins_net : (d.onPins f).net = d.net := rfl
@[simp] theorem Dev.onPins_pcie : (d.onPins f).pcie = d.pcie := rfl
@[simp] theorem Dev.onPins_trained : (d.onPins f).trained = d.trained := rfl
@[simp] theorem Dev.onPins_nv : (d.onPins f).nv = d.nv := rfl
end

section
variable (f : PowerFail → PowerFail) (d : Dev)
@[simp] theorem Dev.onPfail_out : (d.onPfail f).out = d.out := rfl
@[simp] theorem Dev.onPfail_free : (d.onPfail f).free = d.free := rfl
@[simp] theorem Dev.onPfail_pins : (d.onPfail f).pins = d.pins := rfl
@[simp] theorem Dev.onPfail_pfail : (d.onPfail f).pfail = f d.pfail := rfl
@[simp] theorem Dev.onPfail_chip : (d.onPfail f).chip = d.chip := rfl
@[simp] theorem Dev.onPfail_evt : (d.onPfail f).evt = d.evt := rfl
@[simp] theorem Dev.onPfail_wall : (d.onPfail f).wall = d.wall := rfl
@[simp] theorem Dev.onPfail_life : (d.onPfail f).life = d.life := rfl
@[simp] theorem Dev.onPfail_keys : (d.onPfail f).keys = d.keys := rfl
@[simp] theorem Dev.onPfail_fw : (d.onPfail f).fw = d.fw := rfl
@[simp] theorem Dev.onPfail_store : (d.onPfail f).store = d.store := rfl
@[simp] theorem Dev.onPfail_eng : (d.onPfail f).eng = d.eng := rfl
@[simp] theorem Dev.onPfail_net : (d.onPfail f).net = d.net := rfl
@[simp] theorem Dev.onPfail_pcie : (d.onPfail f).pcie = d.pcie := rfl
@[simp] theorem Dev.onPfail_trained : (d.onPfail f).trained = d.trained := rfl
@[simp] theorem Dev.onPfail_nv : (d.onPfail f).nv = d.nv := rfl
end

section
variable (f : EventState → EventState) (d : Dev)
@[simp] theorem Dev.onEvt_out : (d.onEvt f).out = d.out := rfl
@[simp] theorem Dev.onEvt_free : (d.onEvt f).free = d.free := rfl
@[simp] theorem Dev.onEvt_pins : (d.onEvt f).pins = d.pins := rfl
@[simp] theorem Dev.onEvt_pfail : (d.onEvt f).pfail = d.pfail := rfl
@[simp] theorem Dev.onEvt_chip : (d.onEvt f).chip = d.chip := rfl
@[simp] theorem Dev.onEvt_evt : (d.onEvt f).evt = f d.evt := rfl
@[simp] theorem Dev.onEvt_wall : (d.onEvt f).wall = d.wall := rfl
@[simp] theorem Dev.onEvt_life : (d.onEvt f).life = d.life := rfl
@[simp] theorem Dev.onEvt_keys : (d.onEvt f).keys = d.keys := rfl
@[simp] theorem Dev.onEvt_fw : (d.onEvt f).fw = d.fw := rfl
@[simp] theorem Dev.onEvt_store : (d.onEvt f).store = d.store := rfl
@[simp] theorem Dev.onEvt_eng : (d.onEvt f).eng = d.eng := rfl
@[simp] theorem Dev.onEvt_net : (d.onEvt f).net = d.net := rfl
@[simp] theorem Dev.onEvt_pcie : (d.onEvt f).pcie = d.pcie := rfl
@[simp] theorem Dev.onEvt_trained : (d.onEvt f).trained = d.trained := rfl
@[simp] theorem Dev.onEvt_nv : (d.onEvt f).nv = d.nv := rfl
end

section
variable (f : Lifetime → Lifetime) (d : Dev)
@[simp] theorem Dev.onLife_out : (d.onLife f).out = d.out := rfl
@[simp] theorem Dev.onLife_free : (d.onLife f).free = d.free := rfl
@[simp] theorem Dev.onLife_pins : (d.onLife f).pins = d.pins := rfl
@[simp] theorem Dev.onLife_pfail : (d.onLife f).pfail = d.pfail := rfl
@[simp] theorem Dev.onLife_chip : (d.onLife f).chip = d.chip := rfl
@[simp] theorem Dev.onLife_evt : (d.onLife f).evt = d.evt := rfl
@[simp] theorem Dev.onLife_wall : (d.onLife f).wall = d.wall := rfl
@[simp] theorem Dev.onLife_life : (d.onLife f).life = f d.life := rfl
@[simp] theorem Dev.onLife_keys : (d.onLife f).keys = d.keys := rfl
@[simp] theorem Dev.onLife_fw : (d.onLife f).fw = d.fw := rfl
@[simp] theorem Dev.onLife_store : (d.onLife f).store = d.store := rfl
@[simp] theorem Dev.onLife_eng : (d.onLife f).eng = d.eng := rfl
@[simp] theorem Dev.onLife_net : (d.onLife f).net = d.net := rfl
@[simp] theorem Dev.onLife_pcie : (d.onLife f).pcie = d.pcie := rfl
@[simp] theorem Dev.onLife_trained : (d.onLife f).trained = d.trained := rfl
@[simp] theorem Dev.onLife_nv : (d.onLife f).nv = d.nv := rfl
end

section
variable (f : KeyState → KeyState) (d : Dev)
@[simp] theorem Dev.onKeys_out : (d.onKeys f).out = d.out := rfl
@[simp] theorem Dev.onKeys_free : (d.onKeys f).free = d.free := rfl
@[simp] theorem Dev.onKeys_pins : (d.onKeys f).pins = d.pins := rfl
@[simp] theorem Dev.onKeys_pfail : (d.onKeys f).pfail = d.pfail := rfl
@[simp] theorem Dev.onKeys_chip : (d.onKeys f).chip = d.chip := rfl
@[simp] theorem Dev.onKeys_evt : (d.onKeys f).evt = d.evt := rfl
@[simp] theorem Dev.onKeys_wall : (d.onKeys f).wall = d.wall := rfl
@[simp] theorem Dev.onKeys_life : (d.onKeys f).life = d.life := rfl
@[simp] theorem Dev.onKeys_keys : (d.onKeys f).keys = f d.keys := rfl
@[simp] theorem Dev.onKeys_fw : (d.onKeys f).fw = d.fw := rfl
@[simp] theorem Dev.onKeys_store : (d.onKeys f).store = d.store := rfl
@[simp] theorem Dev.onKeys_eng : (d.onKeys f).eng = d.eng := rfl
@[simp] theorem Dev.onKeys_net : (d.onKeys f).net = d.net := rfl
@[simp] theorem Dev.onKeys_pcie : (d.onKeys f).pcie = d.pcie := rfl
@[simp] theorem Dev.onKeys_trained : (d.onKeys f).trained = d.trained := rfl
@[simp] theorem Dev.onKeys_nv : (d.onKeys f).nv = d.nv := rfl
end

section
variable (f : Firmware → Firmware) (d : Dev)
@[simp] theorem Dev.onFw_out : (d.onFw f).out = d.out := rfl
@[simp] theorem Dev.onFw_free : (d.onFw f).free = d.free := rfl
@[simp] theorem Dev.onFw_pins : (d.onFw f).pins = d.pins := rfl
@[simp] theorem Dev.onFw_pfail : (d.onFw f).pfail = d.pfail := rfl
@[simp] theorem Dev.onFw_chip : (d.onFw f).chip = d.chip := rfl
@[simp] theorem Dev.onFw_evt : (d.onFw f).evt = d.evt := rfl
@[simp] theorem Dev.onFw_wall : (d.onFw f).wall = d.wall := rfl
@[simp] theorem Dev.onFw_life : (d.onFw f).life = d.life := rfl
@[simp] theorem Dev.onFw_keys : (d.onFw f).keys = d.keys := rfl
@[simp] theorem Dev.onFw_fw : (d.onFw f).fw = f d.fw := rfl
@[simp] theorem Dev.onFw_store : (d.onFw f).store = d.store := rfl
@[simp] theorem Dev.onFw_eng : (d.onFw f).eng = d.eng := rfl
@[simp] theorem Dev.onFw_net : (d.onFw f).net = d.net := rfl
@[simp] theorem Dev.onFw_pcie : (d.onFw f).pcie = d.pcie := rfl
@[simp] theorem Dev.onFw_trained : (d.onFw f).trained = d.trained := rfl
@[simp] theorem Dev.onFw_nv : (d.onFw f).nv = d.nv := rfl
end

section
variable (f : Store → Store) (d : Dev)
@[simp] theorem Dev.onStore_out : (d.onStore f).out = d.out := rfl
@[simp] theorem Dev.onStore_free : (d.onStore f).free = d.free := rfl
@[simp] theorem Dev.onStore_pins : (d.onStore f).pins = d.pins := rfl
@[simp] theorem Dev.onStore_pfail : (d.onStore f).pfail = d.pfail := rfl
@[simp] theorem Dev.onStore_chip : (d.onStore f).chip = d.chip := rfl
@[simp] theorem Dev.onStore_evt : (d.onStore f).evt = d.evt := rfl
@[simp] theorem Dev.onStore_wall : (d.onStore f).wall = d.wall := rfl
@[simp] theorem Dev.onStore_life : (d.onStore f).life = d.life := rfl
@[simp] theorem Dev.onStore_keys : (d.onStore f).keys = d.keys := rfl
@[simp] theorem Dev.onStore_fw : (d.onStore f).fw = d.fw := rfl
@[simp] theorem Dev.onStore_store : (d.onStore f).store = f d.store := rfl
@[simp] theorem Dev.onStore_eng : (d.onStore f).eng = d.eng := rfl
@[simp] theorem Dev.onStore_net : (d.onStore f).net = d.net := rfl
@[simp] theorem Dev.onStore_pcie : (d.onStore f).pcie = d.pcie := rfl
@[simp] theorem Dev.onStore_trained : (d.onStore f).trained = d.trained := rfl
@[simp] theorem Dev.onStore_nv : (d.onStore f).nv = d.nv := rfl
end

section
variable (f : Engines → Engines) (d : Dev)
@[simp] theorem Dev.onEng_out : (d.onEng f).out = d.out := rfl
@[simp] theorem Dev.onEng_free : (d.onEng f).free = d.free := rfl
@[simp] theorem Dev.onEng_pins : (d.onEng f).pins = d.pins := rfl
@[simp] theorem Dev.onEng_pfail : (d.onEng f).pfail = d.pfail := rfl
@[simp] theorem Dev.onEng_chip : (d.onEng f).chip = d.chip := rfl
@[simp] theorem Dev.onEng_evt : (d.onEng f).evt = d.evt := rfl
@[simp] theorem Dev.onEng_wall : (d.onEng f).wall = d.wall := rfl
@[simp] theorem Dev.onEng_life : (d.onEng f).life = d.life := rfl
@[simp] theorem Dev.onEng_keys : (d.onEng f).keys = d.keys := rfl
@[simp] theorem Dev.onEng_fw : (d.onEng f).fw = d.fw := rfl
@[simp] theorem Dev.onEng_store : (d.onEng f).store = d.store := rfl
@[simp] theorem Dev.onEng_eng : (d.onEng f).eng = f d.eng := rfl
@[simp] theorem Dev.onEng_net : (d.onEng f).net = d.net := rfl
@[simp] theorem Dev.onEng_pcie : (d.onEng f).pcie = d.pcie := rfl
@[simp] theorem Dev.onEng_trained : (d.onEng f).trained = d.trained := rfl
@[simp] theorem Dev.onEng_nv : (d.onEng f).nv = d.nv := rfl
end

section
variable (f : Net → Net) (d : Dev)
@[simp] theorem Dev.onNet_out : (d.onNet f).out = d.out := rfl
@[simp] theorem Dev.onNet_free : (d.onNet f).free = d.free := rfl
@[simp] theorem Dev.onNet_pins : (d.onNet f).pins = d.pins := rfl
@[simp] theorem Dev.onNet_pfail : (d.onNet f).pfail = d.pfail := rfl
@[simp] theorem Dev.onNet_chip : (d.onNet f).chip = d.chip := rfl
@[simp] theorem Dev.onNet_evt : (d.onNet f).evt = d.evt := rfl
@[simp] theorem Dev.onNet_wall : (d.onNet f).wall = d.wall := rfl
@[simp] theorem Dev.onNet_life : (d.onNet f).life = d.life := rfl
@[simp] theorem Dev.onNet_keys : (d.onNet f).keys = d.keys := rfl
@[simp] theorem Dev.onNet_fw : (d.onNet f).fw = d.fw := rfl
@[simp] theorem Dev.onNet_store : (d.onNet f).store = d.store := rfl
@[simp] theorem Dev.onNet_eng : (d.onNet f).eng = d.eng := rfl
@[simp] theorem Dev.onNet_net : (d.onNet f).net = f d.net := rfl
@[simp] theorem Dev.onNet_pcie : (d.onNet f).pcie = d.pcie := rfl
@[simp] theorem Dev.onNet_trained : (d.onNet f).trained = d.trained := rfl
@[simp] theorem Dev.onNet_nv : (d.onNet f).nv = d.nv := rfl
end

section
variable (f : Pcie → Pcie) (d : Dev)
@[simp] theorem Dev.onPcie_out : (d.onPcie f).out = d.out := rfl
@[simp] theorem Dev.onPcie_free : (d.onPcie f).free = d.free := rfl
@[simp] theorem Dev.onPcie_pins : (d.onPcie f).pins = d.pins := rfl
@[simp] theorem Dev.onPcie_pfail : (d.onPcie f).pfail = d.pfail := rfl
@[simp] theorem Dev.onPcie_chip : (d.onPcie f).chip = d.chip := rfl
@[simp] theorem Dev.onPcie_evt : (d.onPcie f).evt = d.evt := rfl
@[simp] theorem Dev.onPcie_wall : (d.onPcie f).wall = d.wall := rfl
@[simp] theorem Dev.onPcie_life : (d.onPcie f).life = d.life := rfl
@[simp] theorem Dev.onPcie_keys : (d.onPcie f).keys = d.keys := rfl
@[simp] theorem Dev.onPcie_fw : (d.onPcie f).fw = d.fw := rfl
@[simp] theorem Dev.onPcie_store : (d.onPcie f).store = d.store := rfl
@[simp] theorem Dev.onPcie_eng : (d.onPcie f).eng = d.eng := rfl
@[simp] theorem Dev.onPcie_net : (d.onPcie f).net = d.net := rfl
@[simp] theorem Dev.onPcie_pcie : (d.onPcie f).pcie = f d.pcie := rfl
@[simp] theorem Dev.onPcie_trained : (d.onPcie f).trained = d.trained := rfl
@[simp] theorem Dev.onPcie_nv : (d.onPcie f).nv = d.nv := rfl
end

section
variable (f : NonVolatile → NonVolatile) (d : Dev)
@[simp] theorem Dev.onNv_out : (d.onNv f).out = d.out := rfl
@[simp] theorem Dev.onNv_free : (d.onNv f).free = d.free := rfl
@[simp] theorem Dev.onNv_pins : (d.onNv f).pins = d.pins := rfl
@[simp] theorem Dev.onNv_pfail : (d.onNv f).pfail = d.pfail := rfl
@[simp] theorem Dev.onNv_chip : (d.onNv f).chip = d.chip := rfl
@[simp] theorem Dev.onNv_evt : (d.onNv f).evt = d.evt := rfl
@[simp] theorem Dev.onNv_wall : (d.onNv f).wall = d.wall := rfl
@[simp] theorem Dev.onNv_life : (d.onNv f).life = d.life := rfl
@[simp] theorem Dev.onNv_keys : (d.onNv f).keys = d.keys := rfl
@[simp] theorem Dev.onNv_fw : (d.onNv f).fw = d.fw := rfl
@[simp] theorem Dev.onNv_store : (d.onNv f).store = d.store := rfl
@[simp] theorem Dev.onNv_eng : (d.onNv f).eng = d.eng := rfl
@[simp] theorem Dev.onNv_net : (d.onNv f).net = d.net := rfl
@[simp] theorem Dev.onNv_pcie : (d.onNv f).pcie = d.pcie := rfl
@[simp] theorem Dev.onNv_trained : (d.onNv f).trained = d.trained := rfl
@[simp] theorem Dev.onNv_nv : (d.onNv f).nv = f d.nv := rfl
end

section
variable (o : Output) (d : Dev)
@[simp] theorem Dev.emit_out : (d.emit o).out = o :: d.out := rfl
@[simp] theorem Dev.emit_free : (d.emit o).free = d.free := rfl
@[simp] theorem Dev.emit_pins : (d.emit o).pins = d.pins := rfl
@[simp] theorem Dev.emit_pfail : (d.emit o).pfail = d.pfail := rfl
@[simp] theorem Dev.emit_chip : (d.emit o).chip = d.chip := rfl
@[simp] theorem Dev.emit_evt : (d.emit o).evt = d.evt := rfl
@[simp] theorem Dev.emit_wall : (d.emit o).wall = d.wall := rfl
@[simp] theorem Dev.emit_life : (d.emit o).life = d.life := rfl
@[simp] theorem Dev.emit_keys : (d.emit o).keys = d.keys := rfl
@[simp] theorem Dev.emit_fw : (d.emit o).fw = d.fw := rfl
@[simp] theorem Dev.emit_store : (d.emit o).store = d.store := rfl
@[simp] theorem Dev.emit_eng : (d.emit o).eng = d.eng := rfl
@[simp] theorem Dev.emit_net : (d.emit o).net = d.net := rfl
@[simp] theorem Dev.emit_pcie : (d.emit o).pcie = d.pcie := rfl
@[simp] theorem Dev.emit_trained : (d.emit o).trained = d.trained := rfl
@[simp] theorem Dev.emit_nv : (d.emit o).nv = d.nv := rfl
end

/-! ## Outcomes -/

/-- A command of the device alone answers a next state that differs in the device only. -/
theorem onDev_eq (f : Dev → Dev) (s : State) : onDev f s = .next { s with dev := f s.dev } := rfl

/-- A command that reaches the byte memories answers a next state that differs in them and the device only. -/
theorem onAll_eq (f : Memories → Dev → Memories × Dev) (s : State) :
    onAll f s = .next { s with mem := (f s.mem s.dev).1, dev := (f s.mem s.dev).2 } := rfl

/-- An effect takes place where its condition holds. -/
theorem guarded_pos {p : Dev → Bool} {f : Dev → Dev} {d : Dev} (h : p d = true) : guarded p f d = f d := if_pos h

/-- Elsewhere nothing changes. -/
theorem guarded_neg {p : Dev → Bool} {f : Dev → Dev} {d : Dev} (h : p d = false) : guarded p f d = d :=
  if_neg (by simp [h])

/-- The state after a command of the device alone. -/
theorem onDev_next {f : Dev → Dev} {s t : State} : onDev f s = .next t ↔ t = { s with dev := f s.dev } :=
  ⟨fun h => (Host.Outcome.next.inj h).symm, fun h => h ▸ rfl⟩

/-- The state after a command that reaches the byte memories. -/
theorem onAll_next {f : Memories → Dev → Memories × Dev} {s t : State} :
    onAll f s = .next t ↔ t = { s with mem := (f s.mem s.dev).1, dev := (f s.mem s.dev).2 } :=
  ⟨fun h => (Host.Outcome.next.inj h).symm, fun h => h ▸ rfl⟩

/-- A command that asks for a live device has its effect on one. -/
theorem whenLive_pos {f : Dev → Dev} {s : State} (h : s.dev.live = true) :
    whenLive f s = .next { s with dev := f s.dev } := by rw [whenLive, onDev_eq, guarded_pos h]

end Sys2Proof.Machine
end

