-- ==== Sys2Proof/Laws/Fields.lean ====
section
/-!
SUPPORT. Laws/Fields.lean: the groups that an operation leaves alone, one by one: read off its frame law.
-/
namespace Sys2Proof.Machine

section
variable {T : Groups} {d e : Dev} (h : d.mask T = e.mask T)
include h
/-- Devices that agree outside `T` agree in `out`. -/
theorem Dev.out_of_mask (ht : T.out = false) : d.out = e.out := by
  simpa only [Dev.mask, ht, Bool.false_eq_true, if_false] using congrArg Dev.out h
/-- Devices that agree outside `T` agree in `free`. -/
theorem Dev.free_of_mask (ht : T.free = false) : d.free = e.free := by
  simpa only [Dev.mask, ht, Bool.false_eq_true, if_false] using congrArg Dev.free h
/-- Devices that agree outside `T` agree in `pins`. -/
theorem Dev.pins_of_mask (ht : T.pins = false) : d.pins = e.pins := by
  simpa only [Dev.mask, ht, Bool.false_eq_true, if_false] using congrArg Dev.pins h
/-- Devices that agree outside `T` agree in `pfail`. -/
theorem Dev.pfail_of_mask (ht : T.pfail = false) : d.pfail = e.pfail := by
  simpa only [Dev.mask, ht, Bool.false_eq_true, if_false] using congrArg Dev.pfail h
/-- Devices that agree outside `T` agree in `chip`. -/
theorem Dev.chip_of_mask (ht : T.chip = false) : d.chip = e.chip := by
  simpa only [Dev.mask, ht, Bool.false_eq_true, if_false] using congrArg Dev.chip h
/-- Devices that agree outside `T` agree in `evt`. -/
theorem Dev.evt_of_mask (ht : T.evt = false) : d.evt = e.evt := by
  simpa only [Dev.mask, ht, Bool.false_eq_true, if_false] using congrArg Dev.evt h
/-- Devices that agree outside `T` agree in `wall`. -/
theorem Dev.wall_of_mask (ht : T.wall = false) : d.wall = e.wall := by
  simpa only [Dev.mask, ht, Bool.false_eq_true, if_false] using congrArg Dev.wall h
/-- Devices that agree outside `T` agree in `life`. -/
theorem Dev.life_of_mask (ht : T.life = false) : d.life = e.life := by
  simpa only [Dev.mask, ht, Bool.false_eq_true, if_false] using congrArg Dev.life h
/-- Devices that agree outside `T` agree in `keys`. -/
theorem Dev.keys_of_mask (ht : T.keys = false) : d.keys = e.keys := by
  simpa only [Dev.mask, ht, Bool.false_eq_true, if_false] using congrArg Dev.keys h
/-- Devices that agree outside `T` agree in `fw`. -/
theorem Dev.fw_of_mask (ht : T.fw = false) : d.fw = e.fw := by
  simpa only [Dev.mask, ht, Bool.false_eq_true, if_false] using congrArg Dev.fw h
/-- Devices that agree outside `T` agree in `store`. -/
theorem Dev.store_of_mask (ht : T.store = false) : d.store = e.store := by
  simpa only [Dev.mask, ht, Bool.false_eq_true, if_false] using congrArg Dev.store h
/-- Devices that agree outside `T` agree in `eng`. -/
theorem Dev.eng_of_mask (ht : T.eng = false) : d.eng = e.eng := by
  simpa only [Dev.mask, ht, Bool.false_eq_true, if_false] using congrArg Dev.eng h
/-- Devices that agree outside `T` agree in `net`. -/
theorem Dev.net_of_mask (ht : T.net = false) : d.net = e.net := by
  simpa only [Dev.mask, ht, Bool.false_eq_true, if_false] using congrArg Dev.net h
/-- Devices that agree outside `T` agree in `pcie`. -/
theorem Dev.pcie_of_mask (ht : T.pcie = false) : d.pcie = e.pcie := by
  simpa only [Dev.mask, ht, Bool.false_eq_true, if_false] using congrArg Dev.pcie h
/-- Devices that agree outside `T` agree in `trained`. -/
theorem Dev.trained_of_mask (ht : T.trained = false) : d.trained = e.trained := by
  simpa only [Dev.mask, ht, Bool.false_eq_true, if_false] using congrArg Dev.trained h
/-- Devices that agree outside `T` agree in `nv`. -/
theorem Dev.nv_of_mask (ht : T.nv = false) : d.nv = e.nv := by
  simpa only [Dev.mask, ht, Bool.false_eq_true, if_false] using congrArg Dev.nv h
end

/-- A property that each step keeps, a list of steps keeps. -/
theorem Dev.each_keep {α β : Type} (g : Dev → β) (l : List α) (f : α → Dev → Dev) (h : ∀ a d, g (f a d) = g d) (d : Dev) :
    g (Dev.each l f d) = g d := by
  unfold Dev.each
  induction l generalizing d with
  | nil => rfl
  | cons a l ih => rw [List.foldl_cons, ih, h]

/-! `Dev.report` -/
section
variable (a0 : Nat) (a1 : Nat) (a2 : Nat) (a3 : Nat) (a4 : List Nat) (d : Dev)
@[simp] theorem Dev.report_out : (Dev.report a0 a1 a2 a3 a4 d).out = d.out := Dev.out_of_mask (Dev.report_mask (T := { evt := true, life := true }) rfl rfl a0 a1 a2 a3 a4 d) rfl
@[simp] theorem Dev.report_free : (Dev.report a0 a1 a2 a3 a4 d).free = d.free := Dev.free_of_mask (Dev.report_mask (T := { evt := true, life := true }) rfl rfl a0 a1 a2 a3 a4 d) rfl
@[simp] theorem Dev.report_pins : (Dev.report a0 a1 a2 a3 a4 d).pins = d.pins := Dev.pins_of_mask (Dev.report_mask (T := { evt := true, life := true }) rfl rfl a0 a1 a2 a3 a4 d) rfl
@[simp] theorem Dev.report_pfail : (Dev.report a0 a1 a2 a3 a4 d).pfail = d.pfail := Dev.pfail_of_mask (Dev.report_mask (T := { evt := true, life := true }) rfl rfl a0 a1 a2 a3 a4 d) rfl
@[simp] theorem Dev.report_chip : (Dev.report a0 a1 a2 a3 a4 d).chip = d.chip := Dev.chip_of_mask (Dev.report_mask (T := { evt := true, life := true }) rfl rfl a0 a1 a2 a3 a4 d) rfl
@[simp] theorem Dev.report_wall : (Dev.report a0 a1 a2 a3 a4 d).wall = d.wall := Dev.wall_of_mask (Dev.report_mask (T := { evt := true, life := true }) rfl rfl a0 a1 a2 a3 a4 d) rfl
@[simp] theorem Dev.report_keys : (Dev.report a0 a1 a2 a3 a4 d).keys = d.keys := Dev.keys_of_mask (Dev.report_mask (T := { evt := true, life := true }) rfl rfl a0 a1 a2 a3 a4 d) rfl
@[simp] theorem Dev.report_fw : (Dev.report a0 a1 a2 a3 a4 d).fw = d.fw := Dev.fw_of_mask (Dev.report_mask (T := { evt := true, life := true }) rfl rfl a0 a1 a2 a3 a4 d) rfl
@[simp] theorem Dev.report_store : (Dev.report a0 a1 a2 a3 a4 d).store = d.store := Dev.store_of_mask (Dev.report_mask (T := { evt := true, life := true }) rfl rfl a0 a1 a2 a3 a4 d) rfl
@[simp] theorem Dev.report_eng : (Dev.report a0 a1 a2 a3 a4 d).eng = d.eng := Dev.eng_of_mask (Dev.report_mask (T := { evt := true, life := true }) rfl rfl a0 a1 a2 a3 a4 d) rfl
@[simp] theorem Dev.report_net : (Dev.report a0 a1 a2 a3 a4 d).net = d.net := Dev.net_of_mask (Dev.report_mask (T := { evt := true, life := true }) rfl rfl a0 a1 a2 a3 a4 d) rfl
@[simp] theorem Dev.report_pcie : (Dev.report a0 a1 a2 a3 a4 d).pcie = d.pcie := Dev.pcie_of_mask (Dev.report_mask (T := { evt := true, life := true }) rfl rfl a0 a1 a2 a3 a4 d) rfl
@[simp] theorem Dev.report_trained : (Dev.report a0 a1 a2 a3 a4 d).trained = d.trained := Dev.trained_of_mask (Dev.report_mask (T := { evt := true, life := true }) rfl rfl a0 a1 a2 a3 a4 d) rfl
@[simp] theorem Dev.report_nv : (Dev.report a0 a1 a2 a3 a4 d).nv = d.nv := Dev.nv_of_mask (Dev.report_mask (T := { evt := true, life := true }) rfl rfl a0 a1 a2 a3 a4 d) rfl
end

/-! `Dev.reportRegion` -/
section
variable (a0 : Nat) (a1 : Nat) (a2 : List Nat) (d : Dev)
@[simp] theorem Dev.reportRegion_out : (Dev.reportRegion a0 a1 a2 d).out = d.out := Dev.out_of_mask (Dev.reportRegion_mask (T := { evt := true, life := true }) rfl rfl a0 a1 a2 d) rfl
@[simp] theorem Dev.reportRegion_free : (Dev.reportRegion a0 a1 a2 d).free = d.free := Dev.free_of_mask (Dev.reportRegion_mask (T := { evt := true, life := true }) rfl rfl a0 a1 a2 d) rfl
@[simp] theorem Dev.reportRegion_pins : (Dev.reportRegion a0 a1 a2 d).pins = d.pins := Dev.pins_of_mask (Dev.reportRegion_mask (T := { evt := true, life := true }) rfl rfl a0 a1 a2 d) rfl
@[simp] theorem Dev.reportRegion_pfail : (Dev.reportRegion a0 a1 a2 d).pfail = d.pfail := Dev.pfail_of_mask (Dev.reportRegion_mask (T := { evt := true, life := true }) rfl rfl a0 a1 a2 d) rfl
@[simp] theorem Dev.reportRegion_chip : (Dev.reportRegion a0 a1 a2 d).chip = d.chip := Dev.chip_of_mask (Dev.reportRegion_mask (T := { evt := true, life := true }) rfl rfl a0 a1 a2 d) rfl
@[simp] theorem Dev.reportRegion_wall : (Dev.reportRegion a0 a1 a2 d).wall = d.wall := Dev.wall_of_mask (Dev.reportRegion_mask (T := { evt := true, life := true }) rfl rfl a0 a1 a2 d) rfl
@[simp] theorem Dev.reportRegion_keys : (Dev.reportRegion a0 a1 a2 d).keys = d.keys := Dev.keys_of_mask (Dev.reportRegion_mask (T := { evt := true, life := true }) rfl rfl a0 a1 a2 d) rfl
@[simp] theorem Dev.reportRegion_fw : (Dev.reportRegion a0 a1 a2 d).fw = d.fw := Dev.fw_of_mask (Dev.reportRegion_mask (T := { evt := true, life := true }) rfl rfl a0 a1 a2 d) rfl
@[simp] theorem Dev.reportRegion_store : (Dev.reportRegion a0 a1 a2 d).store = d.store := Dev.store_of_mask (Dev.reportRegion_mask (T := { evt := true, life := true }) rfl rfl a0 a1 a2 d) rfl
@[simp] theorem Dev.reportRegion_eng : (Dev.reportRegion a0 a1 a2 d).eng = d.eng := Dev.eng_of_mask (Dev.reportRegion_mask (T := { evt := true, life := true }) rfl rfl a0 a1 a2 d) rfl
@[simp] theorem Dev.reportRegion_net : (Dev.reportRegion a0 a1 a2 d).net = d.net := Dev.net_of_mask (Dev.reportRegion_mask (T := { evt := true, life := true }) rfl rfl a0 a1 a2 d) rfl
@[simp] theorem Dev.reportRegion_pcie : (Dev.reportRegion a0 a1 a2 d).pcie = d.pcie := Dev.pcie_of_mask (Dev.reportRegion_mask (T := { evt := true, life := true }) rfl rfl a0 a1 a2 d) rfl
@[simp] theorem Dev.reportRegion_trained : (Dev.reportRegion a0 a1 a2 d).trained = d.trained := Dev.trained_of_mask (Dev.reportRegion_mask (T := { evt := true, life := true }) rfl rfl a0 a1 a2 d) rfl
@[simp] theorem Dev.reportRegion_nv : (Dev.reportRegion a0 a1 a2 d).nv = d.nv := Dev.nv_of_mask (Dev.reportRegion_mask (T := { evt := true, life := true }) rfl rfl a0 a1 a2 d) rfl
end

/-! `Dev.reportStart` -/
section
variable (a0 : Nat) (a1 : List Nat) (d : Dev)
@[simp] theorem Dev.reportStart_out : (Dev.reportStart a0 a1 d).out = d.out := Dev.out_of_mask (Dev.reportStart_mask (T := { evt := true, life := true }) rfl rfl a0 a1 d) rfl
@[simp] theorem Dev.reportStart_free : (Dev.reportStart a0 a1 d).free = d.free := Dev.free_of_mask (Dev.reportStart_mask (T := { evt := true, life := true }) rfl rfl a0 a1 d) rfl
@[simp] theorem Dev.reportStart_pins : (Dev.reportStart a0 a1 d).pins = d.pins := Dev.pins_of_mask (Dev.reportStart_mask (T := { evt := true, life := true }) rfl rfl a0 a1 d) rfl
@[simp] theorem Dev.reportStart_pfail : (Dev.reportStart a0 a1 d).pfail = d.pfail := Dev.pfail_of_mask (Dev.reportStart_mask (T := { evt := true, life := true }) rfl rfl a0 a1 d) rfl
@[simp] theorem Dev.reportStart_chip : (Dev.reportStart a0 a1 d).chip = d.chip := Dev.chip_of_mask (Dev.reportStart_mask (T := { evt := true, life := true }) rfl rfl a0 a1 d) rfl
@[simp] theorem Dev.reportStart_wall : (Dev.reportStart a0 a1 d).wall = d.wall := Dev.wall_of_mask (Dev.reportStart_mask (T := { evt := true, life := true }) rfl rfl a0 a1 d) rfl
@[simp] theorem Dev.reportStart_keys : (Dev.reportStart a0 a1 d).keys = d.keys := Dev.keys_of_mask (Dev.reportStart_mask (T := { evt := true, life := true }) rfl rfl a0 a1 d) rfl
@[simp] theorem Dev.reportStart_fw : (Dev.reportStart a0 a1 d).fw = d.fw := Dev.fw_of_mask (Dev.reportStart_mask (T := { evt := true, life := true }) rfl rfl a0 a1 d) rfl
@[simp] theorem Dev.reportStart_store : (Dev.reportStart a0 a1 d).store = d.store := Dev.store_of_mask (Dev.reportStart_mask (T := { evt := true, life := true }) rfl rfl a0 a1 d) rfl
@[simp] theorem Dev.reportStart_eng : (Dev.reportStart a0 a1 d).eng = d.eng := Dev.eng_of_mask (Dev.reportStart_mask (T := { evt := true, life := true }) rfl rfl a0 a1 d) rfl
@[simp] theorem Dev.reportStart_net : (Dev.reportStart a0 a1 d).net = d.net := Dev.net_of_mask (Dev.reportStart_mask (T := { evt := true, life := true }) rfl rfl a0 a1 d) rfl
@[simp] theorem Dev.reportStart_pcie : (Dev.reportStart a0 a1 d).pcie = d.pcie := Dev.pcie_of_mask (Dev.reportStart_mask (T := { evt := true, life := true }) rfl rfl a0 a1 d) rfl
@[simp] theorem Dev.reportStart_trained : (Dev.reportStart a0 a1 d).trained = d.trained := Dev.trained_of_mask (Dev.reportStart_mask (T := { evt := true, life := true }) rfl rfl a0 a1 d) rfl
@[simp] theorem Dev.reportStart_nv : (Dev.reportStart a0 a1 d).nv = d.nv := Dev.nv_of_mask (Dev.reportStart_mask (T := { evt := true, life := true }) rfl rfl a0 a1 d) rfl
end

/-! `Dev.raise` -/
section
variable (a0 : Nat) (a1 : Nat) (d : Dev)
@[simp] theorem Dev.raise_free : (Dev.raise a0 a1 d).free = d.free := Dev.free_of_mask (Dev.raise_mask (T := { out := true, pcie := true }) rfl rfl a0 a1 d) rfl
@[simp] theorem Dev.raise_pins : (Dev.raise a0 a1 d).pins = d.pins := Dev.pins_of_mask (Dev.raise_mask (T := { out := true, pcie := true }) rfl rfl a0 a1 d) rfl
@[simp] theorem Dev.raise_pfail : (Dev.raise a0 a1 d).pfail = d.pfail := Dev.pfail_of_mask (Dev.raise_mask (T := { out := true, pcie := true }) rfl rfl a0 a1 d) rfl
@[simp] theorem Dev.raise_chip : (Dev.raise a0 a1 d).chip = d.chip := Dev.chip_of_mask (Dev.raise_mask (T := { out := true, pcie := true }) rfl rfl a0 a1 d) rfl
@[simp] theorem Dev.raise_evt : (Dev.raise a0 a1 d).evt = d.evt := Dev.evt_of_mask (Dev.raise_mask (T := { out := true, pcie := true }) rfl rfl a0 a1 d) rfl
@[simp] theorem Dev.raise_wall : (Dev.raise a0 a1 d).wall = d.wall := Dev.wall_of_mask (Dev.raise_mask (T := { out := true, pcie := true }) rfl rfl a0 a1 d) rfl
@[simp] theorem Dev.raise_life : (Dev.raise a0 a1 d).life = d.life := Dev.life_of_mask (Dev.raise_mask (T := { out := true, pcie := true }) rfl rfl a0 a1 d) rfl
@[simp] theorem Dev.raise_keys : (Dev.raise a0 a1 d).keys = d.keys := Dev.keys_of_mask (Dev.raise_mask (T := { out := true, pcie := true }) rfl rfl a0 a1 d) rfl
@[simp] theorem Dev.raise_fw : (Dev.raise a0 a1 d).fw = d.fw := Dev.fw_of_mask (Dev.raise_mask (T := { out := true, pcie := true }) rfl rfl a0 a1 d) rfl
@[simp] theorem Dev.raise_store : (Dev.raise a0 a1 d).store = d.store := Dev.store_of_mask (Dev.raise_mask (T := { out := true, pcie := true }) rfl rfl a0 a1 d) rfl
@[simp] theorem Dev.raise_eng : (Dev.raise a0 a1 d).eng = d.eng := Dev.eng_of_mask (Dev.raise_mask (T := { out := true, pcie := true }) rfl rfl a0 a1 d) rfl
@[simp] theorem Dev.raise_net : (Dev.raise a0 a1 d).net = d.net := Dev.net_of_mask (Dev.raise_mask (T := { out := true, pcie := true }) rfl rfl a0 a1 d) rfl
@[simp] theorem Dev.raise_trained : (Dev.raise a0 a1 d).trained = d.trained := Dev.trained_of_mask (Dev.raise_mask (T := { out := true, pcie := true }) rfl rfl a0 a1 d) rfl
@[simp] theorem Dev.raise_nv : (Dev.raise a0 a1 d).nv = d.nv := Dev.nv_of_mask (Dev.raise_mask (T := { out := true, pcie := true }) rfl rfl a0 a1 d) rfl
end

/-! `Dev.sendHeld` -/
section
variable (a0 : Nat) (a1 : Held) (a2 : Output) (d : Dev)
@[simp] theorem Dev.sendHeld_free : (Dev.sendHeld a0 a1 a2 d).free = d.free := Dev.free_of_mask (Dev.sendHeld_mask (T := { out := true, pcie := true }) rfl rfl a0 a1 a2 d) rfl
@[simp] theorem Dev.sendHeld_pins : (Dev.sendHeld a0 a1 a2 d).pins = d.pins := Dev.pins_of_mask (Dev.sendHeld_mask (T := { out := true, pcie := true }) rfl rfl a0 a1 a2 d) rfl
@[simp] theorem Dev.sendHeld_pfail : (Dev.sendHeld a0 a1 a2 d).pfail = d.pfail := Dev.pfail_of_mask (Dev.sendHeld_mask (T := { out := true, pcie := true }) rfl rfl a0 a1 a2 d) rfl
@[simp] theorem Dev.sendHeld_chip : (Dev.sendHeld a0 a1 a2 d).chip = d.chip := Dev.chip_of_mask (Dev.sendHeld_mask (T := { out := true, pcie := true }) rfl rfl a0 a1 a2 d) rfl
@[simp] theorem Dev.sendHeld_evt : (Dev.sendHeld a0 a1 a2 d).evt = d.evt := Dev.evt_of_mask (Dev.sendHeld_mask (T := { out := true, pcie := true }) rfl rfl a0 a1 a2 d) rfl
@[simp] theorem Dev.sendHeld_wall : (Dev.sendHeld a0 a1 a2 d).wall = d.wall := Dev.wall_of_mask (Dev.sendHeld_mask (T := { out := true, pcie := true }) rfl rfl a0 a1 a2 d) rfl
@[simp] theorem Dev.sendHeld_life : (Dev.sendHeld a0 a1 a2 d).life = d.life := Dev.life_of_mask (Dev.sendHeld_mask (T := { out := true, pcie := true }) rfl rfl a0 a1 a2 d) rfl
@[simp] theorem Dev.sendHeld_keys : (Dev.sendHeld a0 a1 a2 d).keys = d.keys := Dev.keys_of_mask (Dev.sendHeld_mask (T := { out := true, pcie := true }) rfl rfl a0 a1 a2 d) rfl
@[simp] theorem Dev.sendHeld_fw : (Dev.sendHeld a0 a1 a2 d).fw = d.fw := Dev.fw_of_mask (Dev.sendHeld_mask (T := { out := true, pcie := true }) rfl rfl a0 a1 a2 d) rfl
@[simp] theorem Dev.sendHeld_store : (Dev.sendHeld a0 a1 a2 d).store = d.store := Dev.store_of_mask (Dev.sendHeld_mask (T := { out := true, pcie := true }) rfl rfl a0 a1 a2 d) rfl
@[simp] theorem Dev.sendHeld_eng : (Dev.sendHeld a0 a1 a2 d).eng = d.eng := Dev.eng_of_mask (Dev.sendHeld_mask (T := { out := true, pcie := true }) rfl rfl a0 a1 a2 d) rfl
@[simp] theorem Dev.sendHeld_net : (Dev.sendHeld a0 a1 a2 d).net = d.net := Dev.net_of_mask (Dev.sendHeld_mask (T := { out := true, pcie := true }) rfl rfl a0 a1 a2 d) rfl
@[simp] theorem Dev.sendHeld_trained : (Dev.sendHeld a0 a1 a2 d).trained = d.trained := Dev.trained_of_mask (Dev.sendHeld_mask (T := { out := true, pcie := true }) rfl rfl a0 a1 a2 d) rfl
@[simp] theorem Dev.sendHeld_nv : (Dev.sendHeld a0 a1 a2 d).nv = d.nv := Dev.nv_of_mask (Dev.sendHeld_mask (T := { out := true, pcie := true }) rfl rfl a0 a1 a2 d) rfl
end

/-! `Dev.pumpAll` -/
section
variable (d : Dev)
@[simp] theorem Dev.pumpAll_free : (Dev.pumpAll d).free = d.free := Dev.free_of_mask (Dev.pumpAll_mask (T := { out := true, eng := true, pcie := true }) rfl rfl rfl d) rfl
@[simp] theorem Dev.pumpAll_pins : (Dev.pumpAll d).pins = d.pins := Dev.pins_of_mask (Dev.pumpAll_mask (T := { out := true, eng := true, pcie := true }) rfl rfl rfl d) rfl
@[simp] theorem Dev.pumpAll_pfail : (Dev.pumpAll d).pfail = d.pfail := Dev.pfail_of_mask (Dev.pumpAll_mask (T := { out := true, eng := true, pcie := true }) rfl rfl rfl d) rfl
@[simp] theorem Dev.pumpAll_chip : (Dev.pumpAll d).chip = d.chip := Dev.chip_of_mask (Dev.pumpAll_mask (T := { out := true, eng := true, pcie := true }) rfl rfl rfl d) rfl
@[simp] theorem Dev.pumpAll_evt : (Dev.pumpAll d).evt = d.evt := Dev.evt_of_mask (Dev.pumpAll_mask (T := { out := true, eng := true, pcie := true }) rfl rfl rfl d) rfl
@[simp] theorem Dev.pumpAll_wall : (Dev.pumpAll d).wall = d.wall := Dev.wall_of_mask (Dev.pumpAll_mask (T := { out := true, eng := true, pcie := true }) rfl rfl rfl d) rfl
@[simp] theorem Dev.pumpAll_life : (Dev.pumpAll d).life = d.life := Dev.life_of_mask (Dev.pumpAll_mask (T := { out := true, eng := true, pcie := true }) rfl rfl rfl d) rfl
@[simp] theorem Dev.pumpAll_keys : (Dev.pumpAll d).keys = d.keys := Dev.keys_of_mask (Dev.pumpAll_mask (T := { out := true, eng := true, pcie := true }) rfl rfl rfl d) rfl
@[simp] theorem Dev.pumpAll_fw : (Dev.pumpAll d).fw = d.fw := Dev.fw_of_mask (Dev.pumpAll_mask (T := { out := true, eng := true, pcie := true }) rfl rfl rfl d) rfl
@[simp] theorem Dev.pumpAll_store : (Dev.pumpAll d).store = d.store := Dev.store_of_mask (Dev.pumpAll_mask (T := { out := true, eng := true, pcie := true }) rfl rfl rfl d) rfl
@[simp] theorem Dev.pumpAll_net : (Dev.pumpAll d).net = d.net := Dev.net_of_mask (Dev.pumpAll_mask (T := { out := true, eng := true, pcie := true }) rfl rfl rfl d) rfl
@[simp] theorem Dev.pumpAll_trained : (Dev.pumpAll d).trained = d.trained := Dev.trained_of_mask (Dev.pumpAll_mask (T := { out := true, eng := true, pcie := true }) rfl rfl rfl d) rfl
@[simp] theorem Dev.pumpAll_nv : (Dev.pumpAll d).nv = d.nv := Dev.nv_of_mask (Dev.pumpAll_mask (T := { out := true, eng := true, pcie := true }) rfl rfl rfl d) rfl
end

/-! `Dev.closeWindows` -/
section
variable (d : Dev)
@[simp] theorem Dev.closeWindows_out : (Dev.closeWindows d).out = d.out := Dev.out_of_mask (Dev.closeWindows_mask (T := { evt := true, life := true }) rfl rfl d) rfl
@[simp] theorem Dev.closeWindows_free : (Dev.closeWindows d).free = d.free := Dev.free_of_mask (Dev.closeWindows_mask (T := { evt := true, life := true }) rfl rfl d) rfl
@[simp] theorem Dev.closeWindows_pins : (Dev.closeWindows d).pins = d.pins := Dev.pins_of_mask (Dev.closeWindows_mask (T := { evt := true, life := true }) rfl rfl d) rfl
@[simp] theorem Dev.closeWindows_pfail : (Dev.closeWindows d).pfail = d.pfail := Dev.pfail_of_mask (Dev.closeWindows_mask (T := { evt := true, life := true }) rfl rfl d) rfl
@[simp] theorem Dev.closeWindows_chip : (Dev.closeWindows d).chip = d.chip := Dev.chip_of_mask (Dev.closeWindows_mask (T := { evt := true, life := true }) rfl rfl d) rfl
@[simp] theorem Dev.closeWindows_wall : (Dev.closeWindows d).wall = d.wall := Dev.wall_of_mask (Dev.closeWindows_mask (T := { evt := true, life := true }) rfl rfl d) rfl
@[simp] theorem Dev.closeWindows_keys : (Dev.closeWindows d).keys = d.keys := Dev.keys_of_mask (Dev.closeWindows_mask (T := { evt := true, life := true }) rfl rfl d) rfl
@[simp] theorem Dev.closeWindows_fw : (Dev.closeWindows d).fw = d.fw := Dev.fw_of_mask (Dev.closeWindows_mask (T := { evt := true, life := true }) rfl rfl d) rfl
@[simp] theorem Dev.closeWindows_store : (Dev.closeWindows d).store = d.store := Dev.store_of_mask (Dev.closeWindows_mask (T := { evt := true, life := true }) rfl rfl d) rfl
@[simp] theorem Dev.closeWindows_eng : (Dev.closeWindows d).eng = d.eng := Dev.eng_of_mask (Dev.closeWindows_mask (T := { evt := true, life := true }) rfl rfl d) rfl
@[simp] theorem Dev.closeWindows_net : (Dev.closeWindows d).net = d.net := Dev.net_of_mask (Dev.closeWindows_mask (T := { evt := true, life := true }) rfl rfl d) rfl
@[simp] theorem Dev.closeWindows_pcie : (Dev.closeWindows d).pcie = d.pcie := Dev.pcie_of_mask (Dev.closeWindows_mask (T := { evt := true, life := true }) rfl rfl d) rfl
@[simp] theorem Dev.closeWindows_trained : (Dev.closeWindows d).trained = d.trained := Dev.trained_of_mask (Dev.closeWindows_mask (T := { evt := true, life := true }) rfl rfl d) rfl
@[simp] theorem Dev.closeWindows_nv : (Dev.closeWindows d).nv = d.nv := Dev.nv_of_mask (Dev.closeWindows_mask (T := { evt := true, life := true }) rfl rfl d) rfl
end

/-! `Dev.countTrap` -/
section
variable (a0 : Nat) (d : Dev)
@[simp] theorem Dev.countTrap_out : (Dev.countTrap a0 d).out = d.out := Dev.out_of_mask (Dev.countTrap_mask (T := { life := true, eng := true }) rfl rfl a0 d) rfl
@[simp] theorem Dev.countTrap_free : (Dev.countTrap a0 d).free = d.free := Dev.free_of_mask (Dev.countTrap_mask (T := { life := true, eng := true }) rfl rfl a0 d) rfl
@[simp] theorem Dev.countTrap_pins : (Dev.countTrap a0 d).pins = d.pins := Dev.pins_of_mask (Dev.countTrap_mask (T := { life := true, eng := true }) rfl rfl a0 d) rfl
@[simp] theorem Dev.countTrap_pfail : (Dev.countTrap a0 d).pfail = d.pfail := Dev.pfail_of_mask (Dev.countTrap_mask (T := { life := true, eng := true }) rfl rfl a0 d) rfl
@[simp] theorem Dev.countTrap_chip : (Dev.countTrap a0 d).chip = d.chip := Dev.chip_of_mask (Dev.countTrap_mask (T := { life := true, eng := true }) rfl rfl a0 d) rfl
@[simp] theorem Dev.countTrap_evt : (Dev.countTrap a0 d).evt = d.evt := Dev.evt_of_mask (Dev.countTrap_mask (T := { life := true, eng := true }) rfl rfl a0 d) rfl
@[simp] theorem Dev.countTrap_wall : (Dev.countTrap a0 d).wall = d.wall := Dev.wall_of_mask (Dev.countTrap_mask (T := { life := true, eng := true }) rfl rfl a0 d) rfl
@[simp] theorem Dev.countTrap_keys : (Dev.countTrap a0 d).keys = d.keys := Dev.keys_of_mask (Dev.countTrap_mask (T := { life := true, eng := true }) rfl rfl a0 d) rfl
@[simp] theorem Dev.countTrap_fw : (Dev.countTrap a0 d).fw = d.fw := Dev.fw_of_mask (Dev.countTrap_mask (T := { life := true, eng := true }) rfl rfl a0 d) rfl
@[simp] theorem Dev.countTrap_store : (Dev.countTrap a0 d).store = d.store := Dev.store_of_mask (Dev.countTrap_mask (T := { life := true, eng := true }) rfl rfl a0 d) rfl
@[simp] theorem Dev.countTrap_net : (Dev.countTrap a0 d).net = d.net := Dev.net_of_mask (Dev.countTrap_mask (T := { life := true, eng := true }) rfl rfl a0 d) rfl
@[simp] theorem Dev.countTrap_pcie : (Dev.countTrap a0 d).pcie = d.pcie := Dev.pcie_of_mask (Dev.countTrap_mask (T := { life := true, eng := true }) rfl rfl a0 d) rfl
@[simp] theorem Dev.countTrap_trained : (Dev.countTrap a0 d).trained = d.trained := Dev.trained_of_mask (Dev.countTrap_mask (T := { life := true, eng := true }) rfl rfl a0 d) rfl
@[simp] theorem Dev.countTrap_nv : (Dev.countTrap a0 d).nv = d.nv := Dev.nv_of_mask (Dev.countTrap_mask (T := { life := true, eng := true }) rfl rfl a0 d) rfl
end

/-! `Dev.toRing` -/
section
variable (a0 : Nat) (a1 : EventRec) (d : Dev)
@[simp] theorem Dev.toRing_out : (Dev.toRing a0 a1 d).out = d.out := Dev.out_of_mask (Dev.toRing_mask (T := { evt := true, life := true }) rfl rfl a0 a1 d) rfl
@[simp] theorem Dev.toRing_free : (Dev.toRing a0 a1 d).free = d.free := Dev.free_of_mask (Dev.toRing_mask (T := { evt := true, life := true }) rfl rfl a0 a1 d) rfl
@[simp] theorem Dev.toRing_pins : (Dev.toRing a0 a1 d).pins = d.pins := Dev.pins_of_mask (Dev.toRing_mask (T := { evt := true, life := true }) rfl rfl a0 a1 d) rfl
@[simp] theorem Dev.toRing_pfail : (Dev.toRing a0 a1 d).pfail = d.pfail := Dev.pfail_of_mask (Dev.toRing_mask (T := { evt := true, life := true }) rfl rfl a0 a1 d) rfl
@[simp] theorem Dev.toRing_chip : (Dev.toRing a0 a1 d).chip = d.chip := Dev.chip_of_mask (Dev.toRing_mask (T := { evt := true, life := true }) rfl rfl a0 a1 d) rfl
@[simp] theorem Dev.toRing_wall : (Dev.toRing a0 a1 d).wall = d.wall := Dev.wall_of_mask (Dev.toRing_mask (T := { evt := true, life := true }) rfl rfl a0 a1 d) rfl
@[simp] theorem Dev.toRing_keys : (Dev.toRing a0 a1 d).keys = d.keys := Dev.keys_of_mask (Dev.toRing_mask (T := { evt := true, life := true }) rfl rfl a0 a1 d) rfl
@[simp] theorem Dev.toRing_fw : (Dev.toRing a0 a1 d).fw = d.fw := Dev.fw_of_mask (Dev.toRing_mask (T := { evt := true, life := true }) rfl rfl a0 a1 d) rfl
@[simp] theorem Dev.toRing_store : (Dev.toRing a0 a1 d).store = d.store := Dev.store_of_mask (Dev.toRing_mask (T := { evt := true, life := true }) rfl rfl a0 a1 d) rfl
@[simp] theorem Dev.toRing_eng : (Dev.toRing a0 a1 d).eng = d.eng := Dev.eng_of_mask (Dev.toRing_mask (T := { evt := true, life := true }) rfl rfl a0 a1 d) rfl
@[simp] theorem Dev.toRing_net : (Dev.toRing a0 a1 d).net = d.net := Dev.net_of_mask (Dev.toRing_mask (T := { evt := true, life := true }) rfl rfl a0 a1 d) rfl
@[simp] theorem Dev.toRing_pcie : (Dev.toRing a0 a1 d).pcie = d.pcie := Dev.pcie_of_mask (Dev.toRing_mask (T := { evt := true, life := true }) rfl rfl a0 a1 d) rfl
@[simp] theorem Dev.toRing_trained : (Dev.toRing a0 a1 d).trained = d.trained := Dev.trained_of_mask (Dev.toRing_mask (T := { evt := true, life := true }) rfl rfl a0 a1 d) rfl
@[simp] theorem Dev.toRing_nv : (Dev.toRing a0 a1 d).nv = d.nv := Dev.nv_of_mask (Dev.toRing_mask (T := { evt := true, life := true }) rfl rfl a0 a1 d) rfl
end

/-! `Dev.sendRecord` -/
section
variable (a0 : Nat) (a1 : EventRec) (d : Dev)
@[simp] theorem Dev.sendRecord_out : (Dev.sendRecord a0 a1 d).out = d.out := Dev.out_of_mask (Dev.sendRecord_mask (T := { evt := true, life := true }) rfl rfl a0 a1 d) rfl
@[simp] theorem Dev.sendRecord_free : (Dev.sendRecord a0 a1 d).free = d.free := Dev.free_of_mask (Dev.sendRecord_mask (T := { evt := true, life := true }) rfl rfl a0 a1 d) rfl
@[simp] theorem Dev.sendRecord_pins : (Dev.sendRecord a0 a1 d).pins = d.pins := Dev.pins_of_mask (Dev.sendRecord_mask (T := { evt := true, life := true }) rfl rfl a0 a1 d) rfl
@[simp] theorem Dev.sendRecord_pfail : (Dev.sendRecord a0 a1 d).pfail = d.pfail := Dev.pfail_of_mask (Dev.sendRecord_mask (T := { evt := true, life := true }) rfl rfl a0 a1 d) rfl
@[simp] theorem Dev.sendRecord_chip : (Dev.sendRecord a0 a1 d).chip = d.chip := Dev.chip_of_mask (Dev.sendRecord_mask (T := { evt := true, life := true }) rfl rfl a0 a1 d) rfl
@[simp] theorem Dev.sendRecord_wall : (Dev.sendRecord a0 a1 d).wall = d.wall := Dev.wall_of_mask (Dev.sendRecord_mask (T := { evt := true, life := true }) rfl rfl a0 a1 d) rfl
@[simp] theorem Dev.sendRecord_keys : (Dev.sendRecord a0 a1 d).keys = d.keys := Dev.keys_of_mask (Dev.sendRecord_mask (T := { evt := true, life := true }) rfl rfl a0 a1 d) rfl
@[simp] theorem Dev.sendRecord_fw : (Dev.sendRecord a0 a1 d).fw = d.fw := Dev.fw_of_mask (Dev.sendRecord_mask (T := { evt := true, life := true }) rfl rfl a0 a1 d) rfl
@[simp] theorem Dev.sendRecord_store : (Dev.sendRecord a0 a1 d).store = d.store := Dev.store_of_mask (Dev.sendRecord_mask (T := { evt := true, life := true }) rfl rfl a0 a1 d) rfl
@[simp] theorem Dev.sendRecord_eng : (Dev.sendRecord a0 a1 d).eng = d.eng := Dev.eng_of_mask (Dev.sendRecord_mask (T := { evt := true, life := true }) rfl rfl a0 a1 d) rfl
@[simp] theorem Dev.sendRecord_net : (Dev.sendRecord a0 a1 d).net = d.net := Dev.net_of_mask (Dev.sendRecord_mask (T := { evt := true, life := true }) rfl rfl a0 a1 d) rfl
@[simp] theorem Dev.sendRecord_pcie : (Dev.sendRecord a0 a1 d).pcie = d.pcie := Dev.pcie_of_mask (Dev.sendRecord_mask (T := { evt := true, life := true }) rfl rfl a0 a1 d) rfl
@[simp] theorem Dev.sendRecord_trained : (Dev.sendRecord a0 a1 d).trained = d.trained := Dev.trained_of_mask (Dev.sendRecord_mask (T := { evt := true, life := true }) rfl rfl a0 a1 d) rfl
@[simp] theorem Dev.sendRecord_nv : (Dev.sendRecord a0 a1 d).nv = d.nv := Dev.nv_of_mask (Dev.sendRecord_mask (T := { evt := true, life := true }) rfl rfl a0 a1 d) rfl
end

/-! `Dev.endCoach` -/
section
variable (a0 : Nat) (a1 : Byte) (a2 : Bool) (d : Dev)
@[simp] theorem Dev.endCoach_out : (Dev.endCoach a0 a1 a2 d).out = d.out := Dev.out_of_mask (Dev.endCoach_mask (T := { store := true, eng := true }) rfl rfl a0 a1 a2 d) rfl
@[simp] theorem Dev.endCoach_free : (Dev.endCoach a0 a1 a2 d).free = d.free := Dev.free_of_mask (Dev.endCoach_mask (T := { store := true, eng := true }) rfl rfl a0 a1 a2 d) rfl
@[simp] theorem Dev.endCoach_pins : (Dev.endCoach a0 a1 a2 d).pins = d.pins := Dev.pins_of_mask (Dev.endCoach_mask (T := { store := true, eng := true }) rfl rfl a0 a1 a2 d) rfl
@[simp] theorem Dev.endCoach_pfail : (Dev.endCoach a0 a1 a2 d).pfail = d.pfail := Dev.pfail_of_mask (Dev.endCoach_mask (T := { store := true, eng := true }) rfl rfl a0 a1 a2 d) rfl
@[simp] theorem Dev.endCoach_chip : (Dev.endCoach a0 a1 a2 d).chip = d.chip := Dev.chip_of_mask (Dev.endCoach_mask (T := { store := true, eng := true }) rfl rfl a0 a1 a2 d) rfl
@[simp] theorem Dev.endCoach_evt : (Dev.endCoach a0 a1 a2 d).evt = d.evt := Dev.evt_of_mask (Dev.endCoach_mask (T := { store := true, eng := true }) rfl rfl a0 a1 a2 d) rfl
@[simp] theorem Dev.endCoach_wall : (Dev.endCoach a0 a1 a2 d).wall = d.wall := Dev.wall_of_mask (Dev.endCoach_mask (T := { store := true, eng := true }) rfl rfl a0 a1 a2 d) rfl
@[simp] theorem Dev.endCoach_life : (Dev.endCoach a0 a1 a2 d).life = d.life := Dev.life_of_mask (Dev.endCoach_mask (T := { store := true, eng := true }) rfl rfl a0 a1 a2 d) rfl
@[simp] theorem Dev.endCoach_keys : (Dev.endCoach a0 a1 a2 d).keys = d.keys := Dev.keys_of_mask (Dev.endCoach_mask (T := { store := true, eng := true }) rfl rfl a0 a1 a2 d) rfl
@[simp] theorem Dev.endCoach_fw : (Dev.endCoach a0 a1 a2 d).fw = d.fw := Dev.fw_of_mask (Dev.endCoach_mask (T := { store := true, eng := true }) rfl rfl a0 a1 a2 d) rfl
@[simp] theorem Dev.endCoach_net : (Dev.endCoach a0 a1 a2 d).net = d.net := Dev.net_of_mask (Dev.endCoach_mask (T := { store := true, eng := true }) rfl rfl a0 a1 a2 d) rfl
@[simp] theorem Dev.endCoach_pcie : (Dev.endCoach a0 a1 a2 d).pcie = d.pcie := Dev.pcie_of_mask (Dev.endCoach_mask (T := { store := true, eng := true }) rfl rfl a0 a1 a2 d) rfl
@[simp] theorem Dev.endCoach_trained : (Dev.endCoach a0 a1 a2 d).trained = d.trained := Dev.trained_of_mask (Dev.endCoach_mask (T := { store := true, eng := true }) rfl rfl a0 a1 a2 d) rfl
@[simp] theorem Dev.endCoach_nv : (Dev.endCoach a0 a1 a2 d).nv = d.nv := Dev.nv_of_mask (Dev.endCoach_mask (T := { store := true, eng := true }) rfl rfl a0 a1 a2 d) rfl
end

/-! `Dev.dissolve` -/
section
variable (a0 : Nat) (d : Dev)
@[simp] theorem Dev.dissolve_out : (Dev.dissolve a0 d).out = d.out := Dev.out_of_mask (Dev.dissolve_mask (T := { store := true, eng := true }) rfl rfl a0 d) rfl
@[simp] theorem Dev.dissolve_free : (Dev.dissolve a0 d).free = d.free := Dev.free_of_mask (Dev.dissolve_mask (T := { store := true, eng := true }) rfl rfl a0 d) rfl
@[simp] theorem Dev.dissolve_pins : (Dev.dissolve a0 d).pins = d.pins := Dev.pins_of_mask (Dev.dissolve_mask (T := { store := true, eng := true }) rfl rfl a0 d) rfl
@[simp] theorem Dev.dissolve_pfail : (Dev.dissolve a0 d).pfail = d.pfail := Dev.pfail_of_mask (Dev.dissolve_mask (T := { store := true, eng := true }) rfl rfl a0 d) rfl
@[simp] theorem Dev.dissolve_chip : (Dev.dissolve a0 d).chip = d.chip := Dev.chip_of_mask (Dev.dissolve_mask (T := { store := true, eng := true }) rfl rfl a0 d) rfl
@[simp] theorem Dev.dissolve_evt : (Dev.dissolve a0 d).evt = d.evt := Dev.evt_of_mask (Dev.dissolve_mask (T := { store := true, eng := true }) rfl rfl a0 d) rfl
@[simp] theorem Dev.dissolve_wall : (Dev.dissolve a0 d).wall = d.wall := Dev.wall_of_mask (Dev.dissolve_mask (T := { store := true, eng := true }) rfl rfl a0 d) rfl
@[simp] theorem Dev.dissolve_life : (Dev.dissolve a0 d).life = d.life := Dev.life_of_mask (Dev.dissolve_mask (T := { store := true, eng := true }) rfl rfl a0 d) rfl
@[simp] theorem Dev.dissolve_keys : (Dev.dissolve a0 d).keys = d.keys := Dev.keys_of_mask (Dev.dissolve_mask (T := { store := true, eng := true }) rfl rfl a0 d) rfl
@[simp] theorem Dev.dissolve_fw : (Dev.dissolve a0 d).fw = d.fw := Dev.fw_of_mask (Dev.dissolve_mask (T := { store := true, eng := true }) rfl rfl a0 d) rfl
@[simp] theorem Dev.dissolve_net : (Dev.dissolve a0 d).net = d.net := Dev.net_of_mask (Dev.dissolve_mask (T := { store := true, eng := true }) rfl rfl a0 d) rfl
@[simp] theorem Dev.dissolve_pcie : (Dev.dissolve a0 d).pcie = d.pcie := Dev.pcie_of_mask (Dev.dissolve_mask (T := { store := true, eng := true }) rfl rfl a0 d) rfl
@[simp] theorem Dev.dissolve_trained : (Dev.dissolve a0 d).trained = d.trained := Dev.trained_of_mask (Dev.dissolve_mask (T := { store := true, eng := true }) rfl rfl a0 d) rfl
@[simp] theorem Dev.dissolve_nv : (Dev.dissolve a0 d).nv = d.nv := Dev.nv_of_mask (Dev.dissolve_mask (T := { store := true, eng := true }) rfl rfl a0 d) rfl
end

/-! `Dev.terminate` -/
section
variable (a0 : Nat) (a1 : Byte) (d : Dev)
@[simp] theorem Dev.terminate_out : (Dev.terminate a0 a1 d).out = d.out := Dev.out_of_mask (Dev.terminate_mask (T := { store := true, eng := true }) rfl rfl a0 a1 d) rfl
@[simp] theorem Dev.terminate_free : (Dev.terminate a0 a1 d).free = d.free := Dev.free_of_mask (Dev.terminate_mask (T := { store := true, eng := true }) rfl rfl a0 a1 d) rfl
@[simp] theorem Dev.terminate_pins : (Dev.terminate a0 a1 d).pins = d.pins := Dev.pins_of_mask (Dev.terminate_mask (T := { store := true, eng := true }) rfl rfl a0 a1 d) rfl
@[simp] theorem Dev.terminate_pfail : (Dev.terminate a0 a1 d).pfail = d.pfail := Dev.pfail_of_mask (Dev.terminate_mask (T := { store := true, eng := true }) rfl rfl a0 a1 d) rfl
@[simp] theorem Dev.terminate_chip : (Dev.terminate a0 a1 d).chip = d.chip := Dev.chip_of_mask (Dev.terminate_mask (T := { store := true, eng := true }) rfl rfl a0 a1 d) rfl
@[simp] theorem Dev.terminate_evt : (Dev.terminate a0 a1 d).evt = d.evt := Dev.evt_of_mask (Dev.terminate_mask (T := { store := true, eng := true }) rfl rfl a0 a1 d) rfl
@[simp] theorem Dev.terminate_wall : (Dev.terminate a0 a1 d).wall = d.wall := Dev.wall_of_mask (Dev.terminate_mask (T := { store := true, eng := true }) rfl rfl a0 a1 d) rfl
@[simp] theorem Dev.terminate_life : (Dev.terminate a0 a1 d).life = d.life := Dev.life_of_mask (Dev.terminate_mask (T := { store := true, eng := true }) rfl rfl a0 a1 d) rfl
@[simp] theorem Dev.terminate_keys : (Dev.terminate a0 a1 d).keys = d.keys := Dev.keys_of_mask (Dev.terminate_mask (T := { store := true, eng := true }) rfl rfl a0 a1 d) rfl
@[simp] theorem Dev.terminate_fw : (Dev.terminate a0 a1 d).fw = d.fw := Dev.fw_of_mask (Dev.terminate_mask (T := { store := true, eng := true }) rfl rfl a0 a1 d) rfl
@[simp] theorem Dev.terminate_net : (Dev.terminate a0 a1 d).net = d.net := Dev.net_of_mask (Dev.terminate_mask (T := { store := true, eng := true }) rfl rfl a0 a1 d) rfl
@[simp] theorem Dev.terminate_pcie : (Dev.terminate a0 a1 d).pcie = d.pcie := Dev.pcie_of_mask (Dev.terminate_mask (T := { store := true, eng := true }) rfl rfl a0 a1 d) rfl
@[simp] theorem Dev.terminate_trained : (Dev.terminate a0 a1 d).trained = d.trained := Dev.trained_of_mask (Dev.terminate_mask (T := { store := true, eng := true }) rfl rfl a0 a1 d) rfl
@[simp] theorem Dev.terminate_nv : (Dev.terminate a0 a1 d).nv = d.nv := Dev.nv_of_mask (Dev.terminate_mask (T := { store := true, eng := true }) rfl rfl a0 a1 d) rfl
end

/-! `Dev.finishCoach` -/
section
variable (a0 : Nat) (d : Dev)
@[simp] theorem Dev.finishCoach_out : (Dev.finishCoach a0 d).out = d.out := Dev.out_of_mask (Dev.finishCoach_mask (T := { store := true, eng := true }) rfl rfl a0 d) rfl
@[simp] theorem Dev.finishCoach_free : (Dev.finishCoach a0 d).free = d.free := Dev.free_of_mask (Dev.finishCoach_mask (T := { store := true, eng := true }) rfl rfl a0 d) rfl
@[simp] theorem Dev.finishCoach_pins : (Dev.finishCoach a0 d).pins = d.pins := Dev.pins_of_mask (Dev.finishCoach_mask (T := { store := true, eng := true }) rfl rfl a0 d) rfl
@[simp] theorem Dev.finishCoach_pfail : (Dev.finishCoach a0 d).pfail = d.pfail := Dev.pfail_of_mask (Dev.finishCoach_mask (T := { store := true, eng := true }) rfl rfl a0 d) rfl
@[simp] theorem Dev.finishCoach_chip : (Dev.finishCoach a0 d).chip = d.chip := Dev.chip_of_mask (Dev.finishCoach_mask (T := { store := true, eng := true }) rfl rfl a0 d) rfl
@[simp] theorem Dev.finishCoach_evt : (Dev.finishCoach a0 d).evt = d.evt := Dev.evt_of_mask (Dev.finishCoach_mask (T := { store := true, eng := true }) rfl rfl a0 d) rfl
@[simp] theorem Dev.finishCoach_wall : (Dev.finishCoach a0 d).wall = d.wall := Dev.wall_of_mask (Dev.finishCoach_mask (T := { store := true, eng := true }) rfl rfl a0 d) rfl
@[simp] theorem Dev.finishCoach_life : (Dev.finishCoach a0 d).life = d.life := Dev.life_of_mask (Dev.finishCoach_mask (T := { store := true, eng := true }) rfl rfl a0 d) rfl
@[simp] theorem Dev.finishCoach_keys : (Dev.finishCoach a0 d).keys = d.keys := Dev.keys_of_mask (Dev.finishCoach_mask (T := { store := true, eng := true }) rfl rfl a0 d) rfl
@[simp] theorem Dev.finishCoach_fw : (Dev.finishCoach a0 d).fw = d.fw := Dev.fw_of_mask (Dev.finishCoach_mask (T := { store := true, eng := true }) rfl rfl a0 d) rfl
@[simp] theorem Dev.finishCoach_net : (Dev.finishCoach a0 d).net = d.net := Dev.net_of_mask (Dev.finishCoach_mask (T := { store := true, eng := true }) rfl rfl a0 d) rfl
@[simp] theorem Dev.finishCoach_pcie : (Dev.finishCoach a0 d).pcie = d.pcie := Dev.pcie_of_mask (Dev.finishCoach_mask (T := { store := true, eng := true }) rfl rfl a0 d) rfl
@[simp] theorem Dev.finishCoach_trained : (Dev.finishCoach a0 d).trained = d.trained := Dev.trained_of_mask (Dev.finishCoach_mask (T := { store := true, eng := true }) rfl rfl a0 d) rfl
@[simp] theorem Dev.finishCoach_nv : (Dev.finishCoach a0 d).nv = d.nv := Dev.nv_of_mask (Dev.finishCoach_mask (T := { store := true, eng := true }) rfl rfl a0 d) rfl
end

/-! `Dev.endWith` -/
section
variable (a0 : Nat) (a1 : Byte) (a2 : Run → Run) (d : Dev)
@[simp] theorem Dev.endWith_out : (Dev.endWith a0 a1 a2 d).out = d.out := Dev.out_of_mask (Dev.endWith_mask (T := { eng := true }) rfl a0 a1 a2 d) rfl
@[simp] theorem Dev.endWith_free : (Dev.endWith a0 a1 a2 d).free = d.free := Dev.free_of_mask (Dev.endWith_mask (T := { eng := true }) rfl a0 a1 a2 d) rfl
@[simp] theorem Dev.endWith_pins : (Dev.endWith a0 a1 a2 d).pins = d.pins := Dev.pins_of_mask (Dev.endWith_mask (T := { eng := true }) rfl a0 a1 a2 d) rfl
@[simp] theorem Dev.endWith_pfail : (Dev.endWith a0 a1 a2 d).pfail = d.pfail := Dev.pfail_of_mask (Dev.endWith_mask (T := { eng := true }) rfl a0 a1 a2 d) rfl
@[simp] theorem Dev.endWith_chip : (Dev.endWith a0 a1 a2 d).chip = d.chip := Dev.chip_of_mask (Dev.endWith_mask (T := { eng := true }) rfl a0 a1 a2 d) rfl
@[simp] theorem Dev.endWith_evt : (Dev.endWith a0 a1 a2 d).evt = d.evt := Dev.evt_of_mask (Dev.endWith_mask (T := { eng := true }) rfl a0 a1 a2 d) rfl
@[simp] theorem Dev.endWith_wall : (Dev.endWith a0 a1 a2 d).wall = d.wall := Dev.wall_of_mask (Dev.endWith_mask (T := { eng := true }) rfl a0 a1 a2 d) rfl
@[simp] theorem Dev.endWith_life : (Dev.endWith a0 a1 a2 d).life = d.life := Dev.life_of_mask (Dev.endWith_mask (T := { eng := true }) rfl a0 a1 a2 d) rfl
@[simp] theorem Dev.endWith_keys : (Dev.endWith a0 a1 a2 d).keys = d.keys := Dev.keys_of_mask (Dev.endWith_mask (T := { eng := true }) rfl a0 a1 a2 d) rfl
@[simp] theorem Dev.endWith_fw : (Dev.endWith a0 a1 a2 d).fw = d.fw := Dev.fw_of_mask (Dev.endWith_mask (T := { eng := true }) rfl a0 a1 a2 d) rfl
@[simp] theorem Dev.endWith_store : (Dev.endWith a0 a1 a2 d).store = d.store := Dev.store_of_mask (Dev.endWith_mask (T := { eng := true }) rfl a0 a1 a2 d) rfl
@[simp] theorem Dev.endWith_net : (Dev.endWith a0 a1 a2 d).net = d.net := Dev.net_of_mask (Dev.endWith_mask (T := { eng := true }) rfl a0 a1 a2 d) rfl
@[simp] theorem Dev.endWith_pcie : (Dev.endWith a0 a1 a2 d).pcie = d.pcie := Dev.pcie_of_mask (Dev.endWith_mask (T := { eng := true }) rfl a0 a1 a2 d) rfl
@[simp] theorem Dev.endWith_trained : (Dev.endWith a0 a1 a2 d).trained = d.trained := Dev.trained_of_mask (Dev.endWith_mask (T := { eng := true }) rfl a0 a1 a2 d) rfl
@[simp] theorem Dev.endWith_nv : (Dev.endWith a0 a1 a2 d).nv = d.nv := Dev.nv_of_mask (Dev.endWith_mask (T := { eng := true }) rfl a0 a1 a2 d) rfl
end

/-! `Dev.fail` -/
section
variable (a0 : Nat) (a1 : Byte) (d : Dev)
@[simp] theorem Dev.fail_out : (Dev.fail a0 a1 d).out = d.out := Dev.out_of_mask (Dev.fail_mask (T := { eng := true }) rfl a0 a1 d) rfl
@[simp] theorem Dev.fail_free : (Dev.fail a0 a1 d).free = d.free := Dev.free_of_mask (Dev.fail_mask (T := { eng := true }) rfl a0 a1 d) rfl
@[simp] theorem Dev.fail_pins : (Dev.fail a0 a1 d).pins = d.pins := Dev.pins_of_mask (Dev.fail_mask (T := { eng := true }) rfl a0 a1 d) rfl
@[simp] theorem Dev.fail_pfail : (Dev.fail a0 a1 d).pfail = d.pfail := Dev.pfail_of_mask (Dev.fail_mask (T := { eng := true }) rfl a0 a1 d) rfl
@[simp] theorem Dev.fail_chip : (Dev.fail a0 a1 d).chip = d.chip := Dev.chip_of_mask (Dev.fail_mask (T := { eng := true }) rfl a0 a1 d) rfl
@[simp] theorem Dev.fail_evt : (Dev.fail a0 a1 d).evt = d.evt := Dev.evt_of_mask (Dev.fail_mask (T := { eng := true }) rfl a0 a1 d) rfl
@[simp] theorem Dev.fail_wall : (Dev.fail a0 a1 d).wall = d.wall := Dev.wall_of_mask (Dev.fail_mask (T := { eng := true }) rfl a0 a1 d) rfl
@[simp] theorem Dev.fail_life : (Dev.fail a0 a1 d).life = d.life := Dev.life_of_mask (Dev.fail_mask (T := { eng := true }) rfl a0 a1 d) rfl
@[simp] theorem Dev.fail_keys : (Dev.fail a0 a1 d).keys = d.keys := Dev.keys_of_mask (Dev.fail_mask (T := { eng := true }) rfl a0 a1 d) rfl
@[simp] theorem Dev.fail_fw : (Dev.fail a0 a1 d).fw = d.fw := Dev.fw_of_mask (Dev.fail_mask (T := { eng := true }) rfl a0 a1 d) rfl
@[simp] theorem Dev.fail_store : (Dev.fail a0 a1 d).store = d.store := Dev.store_of_mask (Dev.fail_mask (T := { eng := true }) rfl a0 a1 d) rfl
@[simp] theorem Dev.fail_net : (Dev.fail a0 a1 d).net = d.net := Dev.net_of_mask (Dev.fail_mask (T := { eng := true }) rfl a0 a1 d) rfl
@[simp] theorem Dev.fail_pcie : (Dev.fail a0 a1 d).pcie = d.pcie := Dev.pcie_of_mask (Dev.fail_mask (T := { eng := true }) rfl a0 a1 d) rfl
@[simp] theorem Dev.fail_trained : (Dev.fail a0 a1 d).trained = d.trained := Dev.trained_of_mask (Dev.fail_mask (T := { eng := true }) rfl a0 a1 d) rfl
@[simp] theorem Dev.fail_nv : (Dev.fail a0 a1 d).nv = d.nv := Dev.nv_of_mask (Dev.fail_mask (T := { eng := true }) rfl a0 a1 d) rfl
end

/-! `Dev.onRun` -/
section
variable (a0 : Nat) (a1 : Run → Run) (d : Dev)
@[simp] theorem Dev.onRun_out : (Dev.onRun a0 a1 d).out = d.out := Dev.out_of_mask (Dev.onRun_mask (T := { eng := true }) rfl a0 a1 d) rfl
@[simp] theorem Dev.onRun_free : (Dev.onRun a0 a1 d).free = d.free := Dev.free_of_mask (Dev.onRun_mask (T := { eng := true }) rfl a0 a1 d) rfl
@[simp] theorem Dev.onRun_pins : (Dev.onRun a0 a1 d).pins = d.pins := Dev.pins_of_mask (Dev.onRun_mask (T := { eng := true }) rfl a0 a1 d) rfl
@[simp] theorem Dev.onRun_pfail : (Dev.onRun a0 a1 d).pfail = d.pfail := Dev.pfail_of_mask (Dev.onRun_mask (T := { eng := true }) rfl a0 a1 d) rfl
@[simp] theorem Dev.onRun_chip : (Dev.onRun a0 a1 d).chip = d.chip := Dev.chip_of_mask (Dev.onRun_mask (T := { eng := true }) rfl a0 a1 d) rfl
@[simp] theorem Dev.onRun_evt : (Dev.onRun a0 a1 d).evt = d.evt := Dev.evt_of_mask (Dev.onRun_mask (T := { eng := true }) rfl a0 a1 d) rfl
@[simp] theorem Dev.onRun_wall : (Dev.onRun a0 a1 d).wall = d.wall := Dev.wall_of_mask (Dev.onRun_mask (T := { eng := true }) rfl a0 a1 d) rfl
@[simp] theorem Dev.onRun_life : (Dev.onRun a0 a1 d).life = d.life := Dev.life_of_mask (Dev.onRun_mask (T := { eng := true }) rfl a0 a1 d) rfl
@[simp] theorem Dev.onRun_keys : (Dev.onRun a0 a1 d).keys = d.keys := Dev.keys_of_mask (Dev.onRun_mask (T := { eng := true }) rfl a0 a1 d) rfl
@[simp] theorem Dev.onRun_fw : (Dev.onRun a0 a1 d).fw = d.fw := Dev.fw_of_mask (Dev.onRun_mask (T := { eng := true }) rfl a0 a1 d) rfl
@[simp] theorem Dev.onRun_store : (Dev.onRun a0 a1 d).store = d.store := Dev.store_of_mask (Dev.onRun_mask (T := { eng := true }) rfl a0 a1 d) rfl
@[simp] theorem Dev.onRun_net : (Dev.onRun a0 a1 d).net = d.net := Dev.net_of_mask (Dev.onRun_mask (T := { eng := true }) rfl a0 a1 d) rfl
@[simp] theorem Dev.onRun_pcie : (Dev.onRun a0 a1 d).pcie = d.pcie := Dev.pcie_of_mask (Dev.onRun_mask (T := { eng := true }) rfl a0 a1 d) rfl
@[simp] theorem Dev.onRun_trained : (Dev.onRun a0 a1 d).trained = d.trained := Dev.trained_of_mask (Dev.onRun_mask (T := { eng := true }) rfl a0 a1 d) rfl
@[simp] theorem Dev.onRun_nv : (Dev.onRun a0 a1 d).nv = d.nv := Dev.nv_of_mask (Dev.onRun_mask (T := { eng := true }) rfl a0 a1 d) rfl
end

/-! `Dev.onCoach` -/
section
variable (a0 : Nat) (a1 : Coach → Coach) (d : Dev)
@[simp] theorem Dev.onCoach_out : (Dev.onCoach a0 a1 d).out = d.out := Dev.out_of_mask (Dev.onCoach_mask (T := { eng := true }) rfl a0 a1 d) rfl
@[simp] theorem Dev.onCoach_free : (Dev.onCoach a0 a1 d).free = d.free := Dev.free_of_mask (Dev.onCoach_mask (T := { eng := true }) rfl a0 a1 d) rfl
@[simp] theorem Dev.onCoach_pins : (Dev.onCoach a0 a1 d).pins = d.pins := Dev.pins_of_mask (Dev.onCoach_mask (T := { eng := true }) rfl a0 a1 d) rfl
@[simp] theorem Dev.onCoach_pfail : (Dev.onCoach a0 a1 d).pfail = d.pfail := Dev.pfail_of_mask (Dev.onCoach_mask (T := { eng := true }) rfl a0 a1 d) rfl
@[simp] theorem Dev.onCoach_chip : (Dev.onCoach a0 a1 d).chip = d.chip := Dev.chip_of_mask (Dev.onCoach_mask (T := { eng := true }) rfl a0 a1 d) rfl
@[simp] theorem Dev.onCoach_evt : (Dev.onCoach a0 a1 d).evt = d.evt := Dev.evt_of_mask (Dev.onCoach_mask (T := { eng := true }) rfl a0 a1 d) rfl
@[simp] theorem Dev.onCoach_wall : (Dev.onCoach a0 a1 d).wall = d.wall := Dev.wall_of_mask (Dev.onCoach_mask (T := { eng := true }) rfl a0 a1 d) rfl
@[simp] theorem Dev.onCoach_life : (Dev.onCoach a0 a1 d).life = d.life := Dev.life_of_mask (Dev.onCoach_mask (T := { eng := true }) rfl a0 a1 d) rfl
@[simp] theorem Dev.onCoach_keys : (Dev.onCoach a0 a1 d).keys = d.keys := Dev.keys_of_mask (Dev.onCoach_mask (T := { eng := true }) rfl a0 a1 d) rfl
@[simp] theorem Dev.onCoach_fw : (Dev.onCoach a0 a1 d).fw = d.fw := Dev.fw_of_mask (Dev.onCoach_mask (T := { eng := true }) rfl a0 a1 d) rfl
@[simp] theorem Dev.onCoach_store : (Dev.onCoach a0 a1 d).store = d.store := Dev.store_of_mask (Dev.onCoach_mask (T := { eng := true }) rfl a0 a1 d) rfl
@[simp] theorem Dev.onCoach_net : (Dev.onCoach a0 a1 d).net = d.net := Dev.net_of_mask (Dev.onCoach_mask (T := { eng := true }) rfl a0 a1 d) rfl
@[simp] theorem Dev.onCoach_pcie : (Dev.onCoach a0 a1 d).pcie = d.pcie := Dev.pcie_of_mask (Dev.onCoach_mask (T := { eng := true }) rfl a0 a1 d) rfl
@[simp] theorem Dev.onCoach_trained : (Dev.onCoach a0 a1 d).trained = d.trained := Dev.trained_of_mask (Dev.onCoach_mask (T := { eng := true }) rfl a0 a1 d) rfl
@[simp] theorem Dev.onCoach_nv : (Dev.onCoach a0 a1 d).nv = d.nv := Dev.nv_of_mask (Dev.onCoach_mask (T := { eng := true }) rfl a0 a1 d) rfl
end

/-! `Dev.onCluster` -/
section
variable (a0 : Nat) (a1 : Cluster → Cluster) (d : Dev)
@[simp] theorem Dev.onCluster_out : (Dev.onCluster a0 a1 d).out = d.out := Dev.out_of_mask (Dev.onCluster_mask (T := { eng := true }) rfl a0 a1 d) rfl
@[simp] theorem Dev.onCluster_free : (Dev.onCluster a0 a1 d).free = d.free := Dev.free_of_mask (Dev.onCluster_mask (T := { eng := true }) rfl a0 a1 d) rfl
@[simp] theorem Dev.onCluster_pins : (Dev.onCluster a0 a1 d).pins = d.pins := Dev.pins_of_mask (Dev.onCluster_mask (T := { eng := true }) rfl a0 a1 d) rfl
@[simp] theorem Dev.onCluster_pfail : (Dev.onCluster a0 a1 d).pfail = d.pfail := Dev.pfail_of_mask (Dev.onCluster_mask (T := { eng := true }) rfl a0 a1 d) rfl
@[simp] theorem Dev.onCluster_chip : (Dev.onCluster a0 a1 d).chip = d.chip := Dev.chip_of_mask (Dev.onCluster_mask (T := { eng := true }) rfl a0 a1 d) rfl
@[simp] theorem Dev.onCluster_evt : (Dev.onCluster a0 a1 d).evt = d.evt := Dev.evt_of_mask (Dev.onCluster_mask (T := { eng := true }) rfl a0 a1 d) rfl
@[simp] theorem Dev.onCluster_wall : (Dev.onCluster a0 a1 d).wall = d.wall := Dev.wall_of_mask (Dev.onCluster_mask (T := { eng := true }) rfl a0 a1 d) rfl
@[simp] theorem Dev.onCluster_life : (Dev.onCluster a0 a1 d).life = d.life := Dev.life_of_mask (Dev.onCluster_mask (T := { eng := true }) rfl a0 a1 d) rfl
@[simp] theorem Dev.onCluster_keys : (Dev.onCluster a0 a1 d).keys = d.keys := Dev.keys_of_mask (Dev.onCluster_mask (T := { eng := true }) rfl a0 a1 d) rfl
@[simp] theorem Dev.onCluster_fw : (Dev.onCluster a0 a1 d).fw = d.fw := Dev.fw_of_mask (Dev.onCluster_mask (T := { eng := true }) rfl a0 a1 d) rfl
@[simp] theorem Dev.onCluster_store : (Dev.onCluster a0 a1 d).store = d.store := Dev.store_of_mask (Dev.onCluster_mask (T := { eng := true }) rfl a0 a1 d) rfl
@[simp] theorem Dev.onCluster_net : (Dev.onCluster a0 a1 d).net = d.net := Dev.net_of_mask (Dev.onCluster_mask (T := { eng := true }) rfl a0 a1 d) rfl
@[simp] theorem Dev.onCluster_pcie : (Dev.onCluster a0 a1 d).pcie = d.pcie := Dev.pcie_of_mask (Dev.onCluster_mask (T := { eng := true }) rfl a0 a1 d) rfl
@[simp] theorem Dev.onCluster_trained : (Dev.onCluster a0 a1 d).trained = d.trained := Dev.trained_of_mask (Dev.onCluster_mask (T := { eng := true }) rfl a0 a1 d) rfl
@[simp] theorem Dev.onCluster_nv : (Dev.onCluster a0 a1 d).nv = d.nv := Dev.nv_of_mask (Dev.onCluster_mask (T := { eng := true }) rfl a0 a1 d) rfl
end

/-! `Dev.onRegion` -/
section
variable (a0 : Nat) (a1 : Region → Region) (d : Dev)
@[simp] theorem Dev.onRegion_out : (Dev.onRegion a0 a1 d).out = d.out := Dev.out_of_mask (Dev.onRegion_mask (T := { store := true }) rfl a0 a1 d) rfl
@[simp] theorem Dev.onRegion_free : (Dev.onRegion a0 a1 d).free = d.free := Dev.free_of_mask (Dev.onRegion_mask (T := { store := true }) rfl a0 a1 d) rfl
@[simp] theorem Dev.onRegion_pins : (Dev.onRegion a0 a1 d).pins = d.pins := Dev.pins_of_mask (Dev.onRegion_mask (T := { store := true }) rfl a0 a1 d) rfl
@[simp] theorem Dev.onRegion_pfail : (Dev.onRegion a0 a1 d).pfail = d.pfail := Dev.pfail_of_mask (Dev.onRegion_mask (T := { store := true }) rfl a0 a1 d) rfl
@[simp] theorem Dev.onRegion_chip : (Dev.onRegion a0 a1 d).chip = d.chip := Dev.chip_of_mask (Dev.onRegion_mask (T := { store := true }) rfl a0 a1 d) rfl
@[simp] theorem Dev.onRegion_evt : (Dev.onRegion a0 a1 d).evt = d.evt := Dev.evt_of_mask (Dev.onRegion_mask (T := { store := true }) rfl a0 a1 d) rfl
@[simp] theorem Dev.onRegion_wall : (Dev.onRegion a0 a1 d).wall = d.wall := Dev.wall_of_mask (Dev.onRegion_mask (T := { store := true }) rfl a0 a1 d) rfl
@[simp] theorem Dev.onRegion_life : (Dev.onRegion a0 a1 d).life = d.life := Dev.life_of_mask (Dev.onRegion_mask (T := { store := true }) rfl a0 a1 d) rfl
@[simp] theorem Dev.onRegion_keys : (Dev.onRegion a0 a1 d).keys = d.keys := Dev.keys_of_mask (Dev.onRegion_mask (T := { store := true }) rfl a0 a1 d) rfl
@[simp] theorem Dev.onRegion_fw : (Dev.onRegion a0 a1 d).fw = d.fw := Dev.fw_of_mask (Dev.onRegion_mask (T := { store := true }) rfl a0 a1 d) rfl
@[simp] theorem Dev.onRegion_eng : (Dev.onRegion a0 a1 d).eng = d.eng := Dev.eng_of_mask (Dev.onRegion_mask (T := { store := true }) rfl a0 a1 d) rfl
@[simp] theorem Dev.onRegion_net : (Dev.onRegion a0 a1 d).net = d.net := Dev.net_of_mask (Dev.onRegion_mask (T := { store := true }) rfl a0 a1 d) rfl
@[simp] theorem Dev.onRegion_pcie : (Dev.onRegion a0 a1 d).pcie = d.pcie := Dev.pcie_of_mask (Dev.onRegion_mask (T := { store := true }) rfl a0 a1 d) rfl
@[simp] theorem Dev.onRegion_trained : (Dev.onRegion a0 a1 d).trained = d.trained := Dev.trained_of_mask (Dev.onRegion_mask (T := { store := true }) rfl a0 a1 d) rfl
@[simp] theorem Dev.onRegion_nv : (Dev.onRegion a0 a1 d).nv = d.nv := Dev.nv_of_mask (Dev.onRegion_mask (T := { store := true }) rfl a0 a1 d) rfl
end

/-! `Dev.onMac` -/
section
variable (a0 : Nat) (a1 : Mac → Mac) (d : Dev)
@[simp] theorem Dev.onMac_out : (Dev.onMac a0 a1 d).out = d.out := Dev.out_of_mask (Dev.onMac_mask (T := { net := true }) rfl a0 a1 d) rfl
@[simp] theorem Dev.onMac_free : (Dev.onMac a0 a1 d).free = d.free := Dev.free_of_mask (Dev.onMac_mask (T := { net := true }) rfl a0 a1 d) rfl
@[simp] theorem Dev.onMac_pins : (Dev.onMac a0 a1 d).pins = d.pins := Dev.pins_of_mask (Dev.onMac_mask (T := { net := true }) rfl a0 a1 d) rfl
@[simp] theorem Dev.onMac_pfail : (Dev.onMac a0 a1 d).pfail = d.pfail := Dev.pfail_of_mask (Dev.onMac_mask (T := { net := true }) rfl a0 a1 d) rfl
@[simp] theorem Dev.onMac_chip : (Dev.onMac a0 a1 d).chip = d.chip := Dev.chip_of_mask (Dev.onMac_mask (T := { net := true }) rfl a0 a1 d) rfl
@[simp] theorem Dev.onMac_evt : (Dev.onMac a0 a1 d).evt = d.evt := Dev.evt_of_mask (Dev.onMac_mask (T := { net := true }) rfl a0 a1 d) rfl
@[simp] theorem Dev.onMac_wall : (Dev.onMac a0 a1 d).wall = d.wall := Dev.wall_of_mask (Dev.onMac_mask (T := { net := true }) rfl a0 a1 d) rfl
@[simp] theorem Dev.onMac_life : (Dev.onMac a0 a1 d).life = d.life := Dev.life_of_mask (Dev.onMac_mask (T := { net := true }) rfl a0 a1 d) rfl
@[simp] theorem Dev.onMac_keys : (Dev.onMac a0 a1 d).keys = d.keys := Dev.keys_of_mask (Dev.onMac_mask (T := { net := true }) rfl a0 a1 d) rfl
@[simp] theorem Dev.onMac_fw : (Dev.onMac a0 a1 d).fw = d.fw := Dev.fw_of_mask (Dev.onMac_mask (T := { net := true }) rfl a0 a1 d) rfl
@[simp] theorem Dev.onMac_store : (Dev.onMac a0 a1 d).store = d.store := Dev.store_of_mask (Dev.onMac_mask (T := { net := true }) rfl a0 a1 d) rfl
@[simp] theorem Dev.onMac_eng : (Dev.onMac a0 a1 d).eng = d.eng := Dev.eng_of_mask (Dev.onMac_mask (T := { net := true }) rfl a0 a1 d) rfl
@[simp] theorem Dev.onMac_pcie : (Dev.onMac a0 a1 d).pcie = d.pcie := Dev.pcie_of_mask (Dev.onMac_mask (T := { net := true }) rfl a0 a1 d) rfl
@[simp] theorem Dev.onMac_trained : (Dev.onMac a0 a1 d).trained = d.trained := Dev.trained_of_mask (Dev.onMac_mask (T := { net := true }) rfl a0 a1 d) rfl
@[simp] theorem Dev.onMac_nv : (Dev.onMac a0 a1 d).nv = d.nv := Dev.nv_of_mask (Dev.onMac_mask (T := { net := true }) rfl a0 a1 d) rfl
end

/-! `Dev.onBank` -/
section
variable (a0 : Nat) (a1 : Bank → Bank) (d : Dev)
@[simp] theorem Dev.onBank_out : (Dev.onBank a0 a1 d).out = d.out := Dev.out_of_mask (Dev.onBank_mask (T := { store := true }) rfl a0 a1 d) rfl
@[simp] theorem Dev.onBank_free : (Dev.onBank a0 a1 d).free = d.free := Dev.free_of_mask (Dev.onBank_mask (T := { store := true }) rfl a0 a1 d) rfl
@[simp] theorem Dev.onBank_pins : (Dev.onBank a0 a1 d).pins = d.pins := Dev.pins_of_mask (Dev.onBank_mask (T := { store := true }) rfl a0 a1 d) rfl
@[simp] theorem Dev.onBank_pfail : (Dev.onBank a0 a1 d).pfail = d.pfail := Dev.pfail_of_mask (Dev.onBank_mask (T := { store := true }) rfl a0 a1 d) rfl
@[simp] theorem Dev.onBank_chip : (Dev.onBank a0 a1 d).chip = d.chip := Dev.chip_of_mask (Dev.onBank_mask (T := { store := true }) rfl a0 a1 d) rfl
@[simp] theorem Dev.onBank_evt : (Dev.onBank a0 a1 d).evt = d.evt := Dev.evt_of_mask (Dev.onBank_mask (T := { store := true }) rfl a0 a1 d) rfl
@[simp] theorem Dev.onBank_wall : (Dev.onBank a0 a1 d).wall = d.wall := Dev.wall_of_mask (Dev.onBank_mask (T := { store := true }) rfl a0 a1 d) rfl
@[simp] theorem Dev.onBank_life : (Dev.onBank a0 a1 d).life = d.life := Dev.life_of_mask (Dev.onBank_mask (T := { store := true }) rfl a0 a1 d) rfl
@[simp] theorem Dev.onBank_keys : (Dev.onBank a0 a1 d).keys = d.keys := Dev.keys_of_mask (Dev.onBank_mask (T := { store := true }) rfl a0 a1 d) rfl
@[simp] theorem Dev.onBank_fw : (Dev.onBank a0 a1 d).fw = d.fw := Dev.fw_of_mask (Dev.onBank_mask (T := { store := true }) rfl a0 a1 d) rfl
@[simp] theorem Dev.onBank_eng : (Dev.onBank a0 a1 d).eng = d.eng := Dev.eng_of_mask (Dev.onBank_mask (T := { store := true }) rfl a0 a1 d) rfl
@[simp] theorem Dev.onBank_net : (Dev.onBank a0 a1 d).net = d.net := Dev.net_of_mask (Dev.onBank_mask (T := { store := true }) rfl a0 a1 d) rfl
@[simp] theorem Dev.onBank_pcie : (Dev.onBank a0 a1 d).pcie = d.pcie := Dev.pcie_of_mask (Dev.onBank_mask (T := { store := true }) rfl a0 a1 d) rfl
@[simp] theorem Dev.onBank_trained : (Dev.onBank a0 a1 d).trained = d.trained := Dev.trained_of_mask (Dev.onBank_mask (T := { store := true }) rfl a0 a1 d) rfl
@[simp] theorem Dev.onBank_nv : (Dev.onBank a0 a1 d).nv = d.nv := Dev.nv_of_mask (Dev.onBank_mask (T := { store := true }) rfl a0 a1 d) rfl
end

/-! `Dev.onStripe` -/
section
variable (a0 : Nat) (a1 : Stripe → Stripe) (d : Dev)
@[simp] theorem Dev.onStripe_out : (Dev.onStripe a0 a1 d).out = d.out := Dev.out_of_mask (Dev.onStripe_mask (T := { store := true }) rfl a0 a1 d) rfl
@[simp] theorem Dev.onStripe_free : (Dev.onStripe a0 a1 d).free = d.free := Dev.free_of_mask (Dev.onStripe_mask (T := { store := true }) rfl a0 a1 d) rfl
@[simp] theorem Dev.onStripe_pins : (Dev.onStripe a0 a1 d).pins = d.pins := Dev.pins_of_mask (Dev.onStripe_mask (T := { store := true }) rfl a0 a1 d) rfl
@[simp] theorem Dev.onStripe_pfail : (Dev.onStripe a0 a1 d).pfail = d.pfail := Dev.pfail_of_mask (Dev.onStripe_mask (T := { store := true }) rfl a0 a1 d) rfl
@[simp] theorem Dev.onStripe_chip : (Dev.onStripe a0 a1 d).chip = d.chip := Dev.chip_of_mask (Dev.onStripe_mask (T := { store := true }) rfl a0 a1 d) rfl
@[simp] theorem Dev.onStripe_evt : (Dev.onStripe a0 a1 d).evt = d.evt := Dev.evt_of_mask (Dev.onStripe_mask (T := { store := true }) rfl a0 a1 d) rfl
@[simp] theorem Dev.onStripe_wall : (Dev.onStripe a0 a1 d).wall = d.wall := Dev.wall_of_mask (Dev.onStripe_mask (T := { store := true }) rfl a0 a1 d) rfl
@[simp] theorem Dev.onStripe_life : (Dev.onStripe a0 a1 d).life = d.life := Dev.life_of_mask (Dev.onStripe_mask (T := { store := true }) rfl a0 a1 d) rfl
@[simp] theorem Dev.onStripe_keys : (Dev.onStripe a0 a1 d).keys = d.keys := Dev.keys_of_mask (Dev.onStripe_mask (T := { store := true }) rfl a0 a1 d) rfl
@[simp] theorem Dev.onStripe_fw : (Dev.onStripe a0 a1 d).fw = d.fw := Dev.fw_of_mask (Dev.onStripe_mask (T := { store := true }) rfl a0 a1 d) rfl
@[simp] theorem Dev.onStripe_eng : (Dev.onStripe a0 a1 d).eng = d.eng := Dev.eng_of_mask (Dev.onStripe_mask (T := { store := true }) rfl a0 a1 d) rfl
@[simp] theorem Dev.onStripe_net : (Dev.onStripe a0 a1 d).net = d.net := Dev.net_of_mask (Dev.onStripe_mask (T := { store := true }) rfl a0 a1 d) rfl
@[simp] theorem Dev.onStripe_pcie : (Dev.onStripe a0 a1 d).pcie = d.pcie := Dev.pcie_of_mask (Dev.onStripe_mask (T := { store := true }) rfl a0 a1 d) rfl
@[simp] theorem Dev.onStripe_trained : (Dev.onStripe a0 a1 d).trained = d.trained := Dev.trained_of_mask (Dev.onStripe_mask (T := { store := true }) rfl a0 a1 d) rfl
@[simp] theorem Dev.onStripe_nv : (Dev.onStripe a0 a1 d).nv = d.nv := Dev.nv_of_mask (Dev.onStripe_mask (T := { store := true }) rfl a0 a1 d) rfl
end

/-! `Dev.onFront` -/
section
variable (a0 : Nat) (a1 : Front → Front) (d : Dev)
@[simp] theorem Dev.onFront_out : (Dev.onFront a0 a1 d).out = d.out := Dev.out_of_mask (Dev.onFront_mask (T := { store := true }) rfl a0 a1 d) rfl
@[simp] theorem Dev.onFront_free : (Dev.onFront a0 a1 d).free = d.free := Dev.free_of_mask (Dev.onFront_mask (T := { store := true }) rfl a0 a1 d) rfl
@[simp] theorem Dev.onFront_pins : (Dev.onFront a0 a1 d).pins = d.pins := Dev.pins_of_mask (Dev.onFront_mask (T := { store := true }) rfl a0 a1 d) rfl
@[simp] theorem Dev.onFront_pfail : (Dev.onFront a0 a1 d).pfail = d.pfail := Dev.pfail_of_mask (Dev.onFront_mask (T := { store := true }) rfl a0 a1 d) rfl
@[simp] theorem Dev.onFront_chip : (Dev.onFront a0 a1 d).chip = d.chip := Dev.chip_of_mask (Dev.onFront_mask (T := { store := true }) rfl a0 a1 d) rfl
@[simp] theorem Dev.onFront_evt : (Dev.onFront a0 a1 d).evt = d.evt := Dev.evt_of_mask (Dev.onFront_mask (T := { store := true }) rfl a0 a1 d) rfl
@[simp] theorem Dev.onFront_wall : (Dev.onFront a0 a1 d).wall = d.wall := Dev.wall_of_mask (Dev.onFront_mask (T := { store := true }) rfl a0 a1 d) rfl
@[simp] theorem Dev.onFront_life : (Dev.onFront a0 a1 d).life = d.life := Dev.life_of_mask (Dev.onFront_mask (T := { store := true }) rfl a0 a1 d) rfl
@[simp] theorem Dev.onFront_keys : (Dev.onFront a0 a1 d).keys = d.keys := Dev.keys_of_mask (Dev.onFront_mask (T := { store := true }) rfl a0 a1 d) rfl
@[simp] theorem Dev.onFront_fw : (Dev.onFront a0 a1 d).fw = d.fw := Dev.fw_of_mask (Dev.onFront_mask (T := { store := true }) rfl a0 a1 d) rfl
@[simp] theorem Dev.onFront_eng : (Dev.onFront a0 a1 d).eng = d.eng := Dev.eng_of_mask (Dev.onFront_mask (T := { store := true }) rfl a0 a1 d) rfl
@[simp] theorem Dev.onFront_net : (Dev.onFront a0 a1 d).net = d.net := Dev.net_of_mask (Dev.onFront_mask (T := { store := true }) rfl a0 a1 d) rfl
@[simp] theorem Dev.onFront_pcie : (Dev.onFront a0 a1 d).pcie = d.pcie := Dev.pcie_of_mask (Dev.onFront_mask (T := { store := true }) rfl a0 a1 d) rfl
@[simp] theorem Dev.onFront_trained : (Dev.onFront a0 a1 d).trained = d.trained := Dev.trained_of_mask (Dev.onFront_mask (T := { store := true }) rfl a0 a1 d) rfl
@[simp] theorem Dev.onFront_nv : (Dev.onFront a0 a1 d).nv = d.nv := Dev.nv_of_mask (Dev.onFront_mask (T := { store := true }) rfl a0 a1 d) rfl
end

/-! `Dev.onNs` -/
section
variable (a0 : Nat) (a1 : Namespace → Namespace) (d : Dev)
@[simp] theorem Dev.onNs_out : (Dev.onNs a0 a1 d).out = d.out := Dev.out_of_mask (Dev.onNs_mask (T := { store := true }) rfl a0 a1 d) rfl
@[simp] theorem Dev.onNs_free : (Dev.onNs a0 a1 d).free = d.free := Dev.free_of_mask (Dev.onNs_mask (T := { store := true }) rfl a0 a1 d) rfl
@[simp] theorem Dev.onNs_pins : (Dev.onNs a0 a1 d).pins = d.pins := Dev.pins_of_mask (Dev.onNs_mask (T := { store := true }) rfl a0 a1 d) rfl
@[simp] theorem Dev.onNs_pfail : (Dev.onNs a0 a1 d).pfail = d.pfail := Dev.pfail_of_mask (Dev.onNs_mask (T := { store := true }) rfl a0 a1 d) rfl
@[simp] theorem Dev.onNs_chip : (Dev.onNs a0 a1 d).chip = d.chip := Dev.chip_of_mask (Dev.onNs_mask (T := { store := true }) rfl a0 a1 d) rfl
@[simp] theorem Dev.onNs_evt : (Dev.onNs a0 a1 d).evt = d.evt := Dev.evt_of_mask (Dev.onNs_mask (T := { store := true }) rfl a0 a1 d) rfl
@[simp] theorem Dev.onNs_wall : (Dev.onNs a0 a1 d).wall = d.wall := Dev.wall_of_mask (Dev.onNs_mask (T := { store := true }) rfl a0 a1 d) rfl
@[simp] theorem Dev.onNs_life : (Dev.onNs a0 a1 d).life = d.life := Dev.life_of_mask (Dev.onNs_mask (T := { store := true }) rfl a0 a1 d) rfl
@[simp] theorem Dev.onNs_keys : (Dev.onNs a0 a1 d).keys = d.keys := Dev.keys_of_mask (Dev.onNs_mask (T := { store := true }) rfl a0 a1 d) rfl
@[simp] theorem Dev.onNs_fw : (Dev.onNs a0 a1 d).fw = d.fw := Dev.fw_of_mask (Dev.onNs_mask (T := { store := true }) rfl a0 a1 d) rfl
@[simp] theorem Dev.onNs_eng : (Dev.onNs a0 a1 d).eng = d.eng := Dev.eng_of_mask (Dev.onNs_mask (T := { store := true }) rfl a0 a1 d) rfl
@[simp] theorem Dev.onNs_net : (Dev.onNs a0 a1 d).net = d.net := Dev.net_of_mask (Dev.onNs_mask (T := { store := true }) rfl a0 a1 d) rfl
@[simp] theorem Dev.onNs_pcie : (Dev.onNs a0 a1 d).pcie = d.pcie := Dev.pcie_of_mask (Dev.onNs_mask (T := { store := true }) rfl a0 a1 d) rfl
@[simp] theorem Dev.onNs_trained : (Dev.onNs a0 a1 d).trained = d.trained := Dev.trained_of_mask (Dev.onNs_mask (T := { store := true }) rfl a0 a1 d) rfl
@[simp] theorem Dev.onNs_nv : (Dev.onNs a0 a1 d).nv = d.nv := Dev.nv_of_mask (Dev.onNs_mask (T := { store := true }) rfl a0 a1 d) rfl
end

/-! `Dev.onSlot` -/
section
variable (a0 : Nat) (a1 : SlotEntry → SlotEntry) (d : Dev)
@[simp] theorem Dev.onSlot_out : (Dev.onSlot a0 a1 d).out = d.out := Dev.out_of_mask (Dev.onSlot_mask (T := { keys := true }) rfl a0 a1 d) rfl
@[simp] theorem Dev.onSlot_free : (Dev.onSlot a0 a1 d).free = d.free := Dev.free_of_mask (Dev.onSlot_mask (T := { keys := true }) rfl a0 a1 d) rfl
@[simp] theorem Dev.onSlot_pins : (Dev.onSlot a0 a1 d).pins = d.pins := Dev.pins_of_mask (Dev.onSlot_mask (T := { keys := true }) rfl a0 a1 d) rfl
@[simp] theorem Dev.onSlot_pfail : (Dev.onSlot a0 a1 d).pfail = d.pfail := Dev.pfail_of_mask (Dev.onSlot_mask (T := { keys := true }) rfl a0 a1 d) rfl
@[simp] theorem Dev.onSlot_chip : (Dev.onSlot a0 a1 d).chip = d.chip := Dev.chip_of_mask (Dev.onSlot_mask (T := { keys := true }) rfl a0 a1 d) rfl
@[simp] theorem Dev.onSlot_evt : (Dev.onSlot a0 a1 d).evt = d.evt := Dev.evt_of_mask (Dev.onSlot_mask (T := { keys := true }) rfl a0 a1 d) rfl
@[simp] theorem Dev.onSlot_wall : (Dev.onSlot a0 a1 d).wall = d.wall := Dev.wall_of_mask (Dev.onSlot_mask (T := { keys := true }) rfl a0 a1 d) rfl
@[simp] theorem Dev.onSlot_life : (Dev.onSlot a0 a1 d).life = d.life := Dev.life_of_mask (Dev.onSlot_mask (T := { keys := true }) rfl a0 a1 d) rfl
@[simp] theorem Dev.onSlot_fw : (Dev.onSlot a0 a1 d).fw = d.fw := Dev.fw_of_mask (Dev.onSlot_mask (T := { keys := true }) rfl a0 a1 d) rfl
@[simp] theorem Dev.onSlot_store : (Dev.onSlot a0 a1 d).store = d.store := Dev.store_of_mask (Dev.onSlot_mask (T := { keys := true }) rfl a0 a1 d) rfl
@[simp] theorem Dev.onSlot_eng : (Dev.onSlot a0 a1 d).eng = d.eng := Dev.eng_of_mask (Dev.onSlot_mask (T := { keys := true }) rfl a0 a1 d) rfl
@[simp] theorem Dev.onSlot_net : (Dev.onSlot a0 a1 d).net = d.net := Dev.net_of_mask (Dev.onSlot_mask (T := { keys := true }) rfl a0 a1 d) rfl
@[simp] theorem Dev.onSlot_pcie : (Dev.onSlot a0 a1 d).pcie = d.pcie := Dev.pcie_of_mask (Dev.onSlot_mask (T := { keys := true }) rfl a0 a1 d) rfl
@[simp] theorem Dev.onSlot_trained : (Dev.onSlot a0 a1 d).trained = d.trained := Dev.trained_of_mask (Dev.onSlot_mask (T := { keys := true }) rfl a0 a1 d) rfl
@[simp] theorem Dev.onSlot_nv : (Dev.onSlot a0 a1 d).nv = d.nv := Dev.nv_of_mask (Dev.onSlot_mask (T := { keys := true }) rfl a0 a1 d) rfl
end

/-! `Dev.onQueue` -/
section
variable (a0 : Nat) (a1 : QueuePair → QueuePair) (d : Dev)
@[simp] theorem Dev.onQueue_out : (Dev.onQueue a0 a1 d).out = d.out := Dev.out_of_mask (Dev.onQueue_mask (T := { pcie := true }) rfl a0 a1 d) rfl
@[simp] theorem Dev.onQueue_free : (Dev.onQueue a0 a1 d).free = d.free := Dev.free_of_mask (Dev.onQueue_mask (T := { pcie := true }) rfl a0 a1 d) rfl
@[simp] theorem Dev.onQueue_pins : (Dev.onQueue a0 a1 d).pins = d.pins := Dev.pins_of_mask (Dev.onQueue_mask (T := { pcie := true }) rfl a0 a1 d) rfl
@[simp] theorem Dev.onQueue_pfail : (Dev.onQueue a0 a1 d).pfail = d.pfail := Dev.pfail_of_mask (Dev.onQueue_mask (T := { pcie := true }) rfl a0 a1 d) rfl
@[simp] theorem Dev.onQueue_chip : (Dev.onQueue a0 a1 d).chip = d.chip := Dev.chip_of_mask (Dev.onQueue_mask (T := { pcie := true }) rfl a0 a1 d) rfl
@[simp] theorem Dev.onQueue_evt : (Dev.onQueue a0 a1 d).evt = d.evt := Dev.evt_of_mask (Dev.onQueue_mask (T := { pcie := true }) rfl a0 a1 d) rfl
@[simp] theorem Dev.onQueue_wall : (Dev.onQueue a0 a1 d).wall = d.wall := Dev.wall_of_mask (Dev.onQueue_mask (T := { pcie := true }) rfl a0 a1 d) rfl
@[simp] theorem Dev.onQueue_life : (Dev.onQueue a0 a1 d).life = d.life := Dev.life_of_mask (Dev.onQueue_mask (T := { pcie := true }) rfl a0 a1 d) rfl
@[simp] theorem Dev.onQueue_keys : (Dev.onQueue a0 a1 d).keys = d.keys := Dev.keys_of_mask (Dev.onQueue_mask (T := { pcie := true }) rfl a0 a1 d) rfl
@[simp] theorem Dev.onQueue_fw : (Dev.onQueue a0 a1 d).fw = d.fw := Dev.fw_of_mask (Dev.onQueue_mask (T := { pcie := true }) rfl a0 a1 d) rfl
@[simp] theorem Dev.onQueue_store : (Dev.onQueue a0 a1 d).store = d.store := Dev.store_of_mask (Dev.onQueue_mask (T := { pcie := true }) rfl a0 a1 d) rfl
@[simp] theorem Dev.onQueue_eng : (Dev.onQueue a0 a1 d).eng = d.eng := Dev.eng_of_mask (Dev.onQueue_mask (T := { pcie := true }) rfl a0 a1 d) rfl
@[simp] theorem Dev.onQueue_net : (Dev.onQueue a0 a1 d).net = d.net := Dev.net_of_mask (Dev.onQueue_mask (T := { pcie := true }) rfl a0 a1 d) rfl
@[simp] theorem Dev.onQueue_trained : (Dev.onQueue a0 a1 d).trained = d.trained := Dev.trained_of_mask (Dev.onQueue_mask (T := { pcie := true }) rfl a0 a1 d) rfl
@[simp] theorem Dev.onQueue_nv : (Dev.onQueue a0 a1 d).nv = d.nv := Dev.nv_of_mask (Dev.onQueue_mask (T := { pcie := true }) rfl a0 a1 d) rfl
end

/-! `Dev.onRecorder` -/
section
variable (a0 : Nat) (a1 : Recorder → Recorder) (d : Dev)
@[simp] theorem Dev.onRecorder_out : (Dev.onRecorder a0 a1 d).out = d.out := Dev.out_of_mask (Dev.onRecorder_mask (T := { evt := true }) rfl a0 a1 d) rfl
@[simp] theorem Dev.onRecorder_free : (Dev.onRecorder a0 a1 d).free = d.free := Dev.free_of_mask (Dev.onRecorder_mask (T := { evt := true }) rfl a0 a1 d) rfl
@[simp] theorem Dev.onRecorder_pins : (Dev.onRecorder a0 a1 d).pins = d.pins := Dev.pins_of_mask (Dev.onRecorder_mask (T := { evt := true }) rfl a0 a1 d) rfl
@[simp] theorem Dev.onRecorder_pfail : (Dev.onRecorder a0 a1 d).pfail = d.pfail := Dev.pfail_of_mask (Dev.onRecorder_mask (T := { evt := true }) rfl a0 a1 d) rfl
@[simp] theorem Dev.onRecorder_chip : (Dev.onRecorder a0 a1 d).chip = d.chip := Dev.chip_of_mask (Dev.onRecorder_mask (T := { evt := true }) rfl a0 a1 d) rfl
@[simp] theorem Dev.onRecorder_wall : (Dev.onRecorder a0 a1 d).wall = d.wall := Dev.wall_of_mask (Dev.onRecorder_mask (T := { evt := true }) rfl a0 a1 d) rfl
@[simp] theorem Dev.onRecorder_life : (Dev.onRecorder a0 a1 d).life = d.life := Dev.life_of_mask (Dev.onRecorder_mask (T := { evt := true }) rfl a0 a1 d) rfl
@[simp] theorem Dev.onRecorder_keys : (Dev.onRecorder a0 a1 d).keys = d.keys := Dev.keys_of_mask (Dev.onRecorder_mask (T := { evt := true }) rfl a0 a1 d) rfl
@[simp] theorem Dev.onRecorder_fw : (Dev.onRecorder a0 a1 d).fw = d.fw := Dev.fw_of_mask (Dev.onRecorder_mask (T := { evt := true }) rfl a0 a1 d) rfl
@[simp] theorem Dev.onRecorder_store : (Dev.onRecorder a0 a1 d).store = d.store := Dev.store_of_mask (Dev.onRecorder_mask (T := { evt := true }) rfl a0 a1 d) rfl
@[simp] theorem Dev.onRecorder_eng : (Dev.onRecorder a0 a1 d).eng = d.eng := Dev.eng_of_mask (Dev.onRecorder_mask (T := { evt := true }) rfl a0 a1 d) rfl
@[simp] theorem Dev.onRecorder_net : (Dev.onRecorder a0 a1 d).net = d.net := Dev.net_of_mask (Dev.onRecorder_mask (T := { evt := true }) rfl a0 a1 d) rfl
@[simp] theorem Dev.onRecorder_pcie : (Dev.onRecorder a0 a1 d).pcie = d.pcie := Dev.pcie_of_mask (Dev.onRecorder_mask (T := { evt := true }) rfl a0 a1 d) rfl
@[simp] theorem Dev.onRecorder_trained : (Dev.onRecorder a0 a1 d).trained = d.trained := Dev.trained_of_mask (Dev.onRecorder_mask (T := { evt := true }) rfl a0 a1 d) rfl
@[simp] theorem Dev.onRecorder_nv : (Dev.onRecorder a0 a1 d).nv = d.nv := Dev.nv_of_mask (Dev.onRecorder_mask (T := { evt := true }) rfl a0 a1 d) rfl
end

/-! `Dev.onLane` -/
section
variable (a0 : Nat) (a1 : Lane → Lane) (d : Dev)
@[simp] theorem Dev.onLane_out : (Dev.onLane a0 a1 d).out = d.out := Dev.out_of_mask (Dev.onLane_mask (T := { eng := true }) rfl a0 a1 d) rfl
@[simp] theorem Dev.onLane_free : (Dev.onLane a0 a1 d).free = d.free := Dev.free_of_mask (Dev.onLane_mask (T := { eng := true }) rfl a0 a1 d) rfl
@[simp] theorem Dev.onLane_pins : (Dev.onLane a0 a1 d).pins = d.pins := Dev.pins_of_mask (Dev.onLane_mask (T := { eng := true }) rfl a0 a1 d) rfl
@[simp] theorem Dev.onLane_pfail : (Dev.onLane a0 a1 d).pfail = d.pfail := Dev.pfail_of_mask (Dev.onLane_mask (T := { eng := true }) rfl a0 a1 d) rfl
@[simp] theorem Dev.onLane_chip : (Dev.onLane a0 a1 d).chip = d.chip := Dev.chip_of_mask (Dev.onLane_mask (T := { eng := true }) rfl a0 a1 d) rfl
@[simp] theorem Dev.onLane_evt : (Dev.onLane a0 a1 d).evt = d.evt := Dev.evt_of_mask (Dev.onLane_mask (T := { eng := true }) rfl a0 a1 d) rfl
@[simp] theorem Dev.onLane_wall : (Dev.onLane a0 a1 d).wall = d.wall := Dev.wall_of_mask (Dev.onLane_mask (T := { eng := true }) rfl a0 a1 d) rfl
@[simp] theorem Dev.onLane_life : (Dev.onLane a0 a1 d).life = d.life := Dev.life_of_mask (Dev.onLane_mask (T := { eng := true }) rfl a0 a1 d) rfl
@[simp] theorem Dev.onLane_keys : (Dev.onLane a0 a1 d).keys = d.keys := Dev.keys_of_mask (Dev.onLane_mask (T := { eng := true }) rfl a0 a1 d) rfl
@[simp] theorem Dev.onLane_fw : (Dev.onLane a0 a1 d).fw = d.fw := Dev.fw_of_mask (Dev.onLane_mask (T := { eng := true }) rfl a0 a1 d) rfl
@[simp] theorem Dev.onLane_store : (Dev.onLane a0 a1 d).store = d.store := Dev.store_of_mask (Dev.onLane_mask (T := { eng := true }) rfl a0 a1 d) rfl
@[simp] theorem Dev.onLane_net : (Dev.onLane a0 a1 d).net = d.net := Dev.net_of_mask (Dev.onLane_mask (T := { eng := true }) rfl a0 a1 d) rfl
@[simp] theorem Dev.onLane_pcie : (Dev.onLane a0 a1 d).pcie = d.pcie := Dev.pcie_of_mask (Dev.onLane_mask (T := { eng := true }) rfl a0 a1 d) rfl
@[simp] theorem Dev.onLane_trained : (Dev.onLane a0 a1 d).trained = d.trained := Dev.trained_of_mask (Dev.onLane_mask (T := { eng := true }) rfl a0 a1 d) rfl
@[simp] theorem Dev.onLane_nv : (Dev.onLane a0 a1 d).nv = d.nv := Dev.nv_of_mask (Dev.onLane_mask (T := { eng := true }) rfl a0 a1 d) rfl
end

/-! `Dev.onFn` -/
section
variable (a0 : Nat) (a1 : PcieFunction → PcieFunction) (d : Dev)
@[simp] theorem Dev.onFn_out : (Dev.onFn a0 a1 d).out = d.out := Dev.out_of_mask (Dev.onFn_mask (T := { pcie := true }) rfl a0 a1 d) rfl
@[simp] theorem Dev.onFn_free : (Dev.onFn a0 a1 d).free = d.free := Dev.free_of_mask (Dev.onFn_mask (T := { pcie := true }) rfl a0 a1 d) rfl
@[simp] theorem Dev.onFn_pins : (Dev.onFn a0 a1 d).pins = d.pins := Dev.pins_of_mask (Dev.onFn_mask (T := { pcie := true }) rfl a0 a1 d) rfl
@[simp] theorem Dev.onFn_pfail : (Dev.onFn a0 a1 d).pfail = d.pfail := Dev.pfail_of_mask (Dev.onFn_mask (T := { pcie := true }) rfl a0 a1 d) rfl
@[simp] theorem Dev.onFn_chip : (Dev.onFn a0 a1 d).chip = d.chip := Dev.chip_of_mask (Dev.onFn_mask (T := { pcie := true }) rfl a0 a1 d) rfl
@[simp] theorem Dev.onFn_evt : (Dev.onFn a0 a1 d).evt = d.evt := Dev.evt_of_mask (Dev.onFn_mask (T := { pcie := true }) rfl a0 a1 d) rfl
@[simp] theorem Dev.onFn_wall : (Dev.onFn a0 a1 d).wall = d.wall := Dev.wall_of_mask (Dev.onFn_mask (T := { pcie := true }) rfl a0 a1 d) rfl
@[simp] theorem Dev.onFn_life : (Dev.onFn a0 a1 d).life = d.life := Dev.life_of_mask (Dev.onFn_mask (T := { pcie := true }) rfl a0 a1 d) rfl
@[simp] theorem Dev.onFn_keys : (Dev.onFn a0 a1 d).keys = d.keys := Dev.keys_of_mask (Dev.onFn_mask (T := { pcie := true }) rfl a0 a1 d) rfl
@[simp] theorem Dev.onFn_fw : (Dev.onFn a0 a1 d).fw = d.fw := Dev.fw_of_mask (Dev.onFn_mask (T := { pcie := true }) rfl a0 a1 d) rfl
@[simp] theorem Dev.onFn_store : (Dev.onFn a0 a1 d).store = d.store := Dev.store_of_mask (Dev.onFn_mask (T := { pcie := true }) rfl a0 a1 d) rfl
@[simp] theorem Dev.onFn_eng : (Dev.onFn a0 a1 d).eng = d.eng := Dev.eng_of_mask (Dev.onFn_mask (T := { pcie := true }) rfl a0 a1 d) rfl
@[simp] theorem Dev.onFn_net : (Dev.onFn a0 a1 d).net = d.net := Dev.net_of_mask (Dev.onFn_mask (T := { pcie := true }) rfl a0 a1 d) rfl
@[simp] theorem Dev.onFn_trained : (Dev.onFn a0 a1 d).trained = d.trained := Dev.trained_of_mask (Dev.onFn_mask (T := { pcie := true }) rfl a0 a1 d) rfl
@[simp] theorem Dev.onFn_nv : (Dev.onFn a0 a1 d).nv = d.nv := Dev.nv_of_mask (Dev.onFn_mask (T := { pcie := true }) rfl a0 a1 d) rfl
end

/-! `Dev.onMedia` -/
section
variable (a0 : Nat) (a1 : RegionMedia → RegionMedia) (d : Dev)
@[simp] theorem Dev.onMedia_out : (Dev.onMedia a0 a1 d).out = d.out := Dev.out_of_mask (Dev.onMedia_mask (T := { nv := true }) rfl a0 a1 d) rfl
@[simp] theorem Dev.onMedia_free : (Dev.onMedia a0 a1 d).free = d.free := Dev.free_of_mask (Dev.onMedia_mask (T := { nv := true }) rfl a0 a1 d) rfl
@[simp] theorem Dev.onMedia_pins : (Dev.onMedia a0 a1 d).pins = d.pins := Dev.pins_of_mask (Dev.onMedia_mask (T := { nv := true }) rfl a0 a1 d) rfl
@[simp] theorem Dev.onMedia_pfail : (Dev.onMedia a0 a1 d).pfail = d.pfail := Dev.pfail_of_mask (Dev.onMedia_mask (T := { nv := true }) rfl a0 a1 d) rfl
@[simp] theorem Dev.onMedia_chip : (Dev.onMedia a0 a1 d).chip = d.chip := Dev.chip_of_mask (Dev.onMedia_mask (T := { nv := true }) rfl a0 a1 d) rfl
@[simp] theorem Dev.onMedia_evt : (Dev.onMedia a0 a1 d).evt = d.evt := Dev.evt_of_mask (Dev.onMedia_mask (T := { nv := true }) rfl a0 a1 d) rfl
@[simp] theorem Dev.onMedia_wall : (Dev.onMedia a0 a1 d).wall = d.wall := Dev.wall_of_mask (Dev.onMedia_mask (T := { nv := true }) rfl a0 a1 d) rfl
@[simp] theorem Dev.onMedia_life : (Dev.onMedia a0 a1 d).life = d.life := Dev.life_of_mask (Dev.onMedia_mask (T := { nv := true }) rfl a0 a1 d) rfl
@[simp] theorem Dev.onMedia_keys : (Dev.onMedia a0 a1 d).keys = d.keys := Dev.keys_of_mask (Dev.onMedia_mask (T := { nv := true }) rfl a0 a1 d) rfl
@[simp] theorem Dev.onMedia_fw : (Dev.onMedia a0 a1 d).fw = d.fw := Dev.fw_of_mask (Dev.onMedia_mask (T := { nv := true }) rfl a0 a1 d) rfl
@[simp] theorem Dev.onMedia_store : (Dev.onMedia a0 a1 d).store = d.store := Dev.store_of_mask (Dev.onMedia_mask (T := { nv := true }) rfl a0 a1 d) rfl
@[simp] theorem Dev.onMedia_eng : (Dev.onMedia a0 a1 d).eng = d.eng := Dev.eng_of_mask (Dev.onMedia_mask (T := { nv := true }) rfl a0 a1 d) rfl
@[simp] theorem Dev.onMedia_net : (Dev.onMedia a0 a1 d).net = d.net := Dev.net_of_mask (Dev.onMedia_mask (T := { nv := true }) rfl a0 a1 d) rfl
@[simp] theorem Dev.onMedia_pcie : (Dev.onMedia a0 a1 d).pcie = d.pcie := Dev.pcie_of_mask (Dev.onMedia_mask (T := { nv := true }) rfl a0 a1 d) rfl
@[simp] theorem Dev.onMedia_trained : (Dev.onMedia a0 a1 d).trained = d.trained := Dev.trained_of_mask (Dev.onMedia_mask (T := { nv := true }) rfl a0 a1 d) rfl
end

/-! `Dev.enterFailsafe` -/
section
variable (a0 : Byte) (a1 : Byte) (d : Dev)
@[simp] theorem Dev.enterFailsafe_free : (Dev.enterFailsafe a0 a1 d).free = d.free := Dev.free_of_mask (Dev.enterFailsafe_mask (T := { out := true, pins := true, chip := true, evt := true, life := true, eng := true, net := true, pcie := true }) rfl rfl rfl rfl rfl rfl rfl rfl a0 a1 d) rfl
@[simp] theorem Dev.enterFailsafe_pfail : (Dev.enterFailsafe a0 a1 d).pfail = d.pfail := Dev.pfail_of_mask (Dev.enterFailsafe_mask (T := { out := true, pins := true, chip := true, evt := true, life := true, eng := true, net := true, pcie := true }) rfl rfl rfl rfl rfl rfl rfl rfl a0 a1 d) rfl
@[simp] theorem Dev.enterFailsafe_wall : (Dev.enterFailsafe a0 a1 d).wall = d.wall := Dev.wall_of_mask (Dev.enterFailsafe_mask (T := { out := true, pins := true, chip := true, evt := true, life := true, eng := true, net := true, pcie := true }) rfl rfl rfl rfl rfl rfl rfl rfl a0 a1 d) rfl
@[simp] theorem Dev.enterFailsafe_keys : (Dev.enterFailsafe a0 a1 d).keys = d.keys := Dev.keys_of_mask (Dev.enterFailsafe_mask (T := { out := true, pins := true, chip := true, evt := true, life := true, eng := true, net := true, pcie := true }) rfl rfl rfl rfl rfl rfl rfl rfl a0 a1 d) rfl
@[simp] theorem Dev.enterFailsafe_fw : (Dev.enterFailsafe a0 a1 d).fw = d.fw := Dev.fw_of_mask (Dev.enterFailsafe_mask (T := { out := true, pins := true, chip := true, evt := true, life := true, eng := true, net := true, pcie := true }) rfl rfl rfl rfl rfl rfl rfl rfl a0 a1 d) rfl
@[simp] theorem Dev.enterFailsafe_store : (Dev.enterFailsafe a0 a1 d).store = d.store := Dev.store_of_mask (Dev.enterFailsafe_mask (T := { out := true, pins := true, chip := true, evt := true, life := true, eng := true, net := true, pcie := true }) rfl rfl rfl rfl rfl rfl rfl rfl a0 a1 d) rfl
@[simp] theorem Dev.enterFailsafe_trained : (Dev.enterFailsafe a0 a1 d).trained = d.trained := Dev.trained_of_mask (Dev.enterFailsafe_mask (T := { out := true, pins := true, chip := true, evt := true, life := true, eng := true, net := true, pcie := true }) rfl rfl rfl rfl rfl rfl rfl rfl a0 a1 d) rfl
@[simp] theorem Dev.enterFailsafe_nv : (Dev.enterFailsafe a0 a1 d).nv = d.nv := Dev.nv_of_mask (Dev.enterFailsafe_mask (T := { out := true, pins := true, chip := true, evt := true, life := true, eng := true, net := true, pcie := true }) rfl rfl rfl rfl rfl rfl rfl rfl a0 a1 d) rfl
end

/-! `Dev.padCourses` -/
section
variable (a0 : Nat) (a1 : Nat) (d : Dev)
@[simp] theorem Dev.padCourses_out : (Dev.padCourses a0 a1 d).out = d.out := Dev.out_of_mask (Dev.padCourses_mask (T := { evt := true, life := true, store := true, nv := true }) rfl rfl rfl rfl a0 a1 d) rfl
@[simp] theorem Dev.padCourses_free : (Dev.padCourses a0 a1 d).free = d.free := Dev.free_of_mask (Dev.padCourses_mask (T := { evt := true, life := true, store := true, nv := true }) rfl rfl rfl rfl a0 a1 d) rfl
@[simp] theorem Dev.padCourses_pins : (Dev.padCourses a0 a1 d).pins = d.pins := Dev.pins_of_mask (Dev.padCourses_mask (T := { evt := true, life := true, store := true, nv := true }) rfl rfl rfl rfl a0 a1 d) rfl
@[simp] theorem Dev.padCourses_pfail : (Dev.padCourses a0 a1 d).pfail = d.pfail := Dev.pfail_of_mask (Dev.padCourses_mask (T := { evt := true, life := true, store := true, nv := true }) rfl rfl rfl rfl a0 a1 d) rfl
@[simp] theorem Dev.padCourses_chip : (Dev.padCourses a0 a1 d).chip = d.chip := Dev.chip_of_mask (Dev.padCourses_mask (T := { evt := true, life := true, store := true, nv := true }) rfl rfl rfl rfl a0 a1 d) rfl
@[simp] theorem Dev.padCourses_wall : (Dev.padCourses a0 a1 d).wall = d.wall := Dev.wall_of_mask (Dev.padCourses_mask (T := { evt := true, life := true, store := true, nv := true }) rfl rfl rfl rfl a0 a1 d) rfl
@[simp] theorem Dev.padCourses_keys : (Dev.padCourses a0 a1 d).keys = d.keys := Dev.keys_of_mask (Dev.padCourses_mask (T := { evt := true, life := true, store := true, nv := true }) rfl rfl rfl rfl a0 a1 d) rfl
@[simp] theorem Dev.padCourses_fw : (Dev.padCourses a0 a1 d).fw = d.fw := Dev.fw_of_mask (Dev.padCourses_mask (T := { evt := true, life := true, store := true, nv := true }) rfl rfl rfl rfl a0 a1 d) rfl
@[simp] theorem Dev.padCourses_eng : (Dev.padCourses a0 a1 d).eng = d.eng := Dev.eng_of_mask (Dev.padCourses_mask (T := { evt := true, life := true, store := true, nv := true }) rfl rfl rfl rfl a0 a1 d) rfl
@[simp] theorem Dev.padCourses_net : (Dev.padCourses a0 a1 d).net = d.net := Dev.net_of_mask (Dev.padCourses_mask (T := { evt := true, life := true, store := true, nv := true }) rfl rfl rfl rfl a0 a1 d) rfl
@[simp] theorem Dev.padCourses_pcie : (Dev.padCourses a0 a1 d).pcie = d.pcie := Dev.pcie_of_mask (Dev.padCourses_mask (T := { evt := true, life := true, store := true, nv := true }) rfl rfl rfl rfl a0 a1 d) rfl
@[simp] theorem Dev.padCourses_trained : (Dev.padCourses a0 a1 d).trained = d.trained := Dev.trained_of_mask (Dev.padCourses_mask (T := { evt := true, life := true, store := true, nv := true }) rfl rfl rfl rfl a0 a1 d) rfl
end

/-! `Dev.padFronts` -/
section
variable (a0 : Nat → Bool) (d : Dev)
@[simp] theorem Dev.padFronts_out : (Dev.padFronts a0 d).out = d.out := Dev.out_of_mask (Dev.padFronts_mask (T := { evt := true, life := true, store := true, nv := true }) rfl rfl rfl rfl a0 d) rfl
@[simp] theorem Dev.padFronts_free : (Dev.padFronts a0 d).free = d.free := Dev.free_of_mask (Dev.padFronts_mask (T := { evt := true, life := true, store := true, nv := true }) rfl rfl rfl rfl a0 d) rfl
@[simp] theorem Dev.padFronts_pins : (Dev.padFronts a0 d).pins = d.pins := Dev.pins_of_mask (Dev.padFronts_mask (T := { evt := true, life := true, store := true, nv := true }) rfl rfl rfl rfl a0 d) rfl
@[simp] theorem Dev.padFronts_pfail : (Dev.padFronts a0 d).pfail = d.pfail := Dev.pfail_of_mask (Dev.padFronts_mask (T := { evt := true, life := true, store := true, nv := true }) rfl rfl rfl rfl a0 d) rfl
@[simp] theorem Dev.padFronts_chip : (Dev.padFronts a0 d).chip = d.chip := Dev.chip_of_mask (Dev.padFronts_mask (T := { evt := true, life := true, store := true, nv := true }) rfl rfl rfl rfl a0 d) rfl
@[simp] theorem Dev.padFronts_wall : (Dev.padFronts a0 d).wall = d.wall := Dev.wall_of_mask (Dev.padFronts_mask (T := { evt := true, life := true, store := true, nv := true }) rfl rfl rfl rfl a0 d) rfl
@[simp] theorem Dev.padFronts_keys : (Dev.padFronts a0 d).keys = d.keys := Dev.keys_of_mask (Dev.padFronts_mask (T := { evt := true, life := true, store := true, nv := true }) rfl rfl rfl rfl a0 d) rfl
@[simp] theorem Dev.padFronts_fw : (Dev.padFronts a0 d).fw = d.fw := Dev.fw_of_mask (Dev.padFronts_mask (T := { evt := true, life := true, store := true, nv := true }) rfl rfl rfl rfl a0 d) rfl
@[simp] theorem Dev.padFronts_eng : (Dev.padFronts a0 d).eng = d.eng := Dev.eng_of_mask (Dev.padFronts_mask (T := { evt := true, life := true, store := true, nv := true }) rfl rfl rfl rfl a0 d) rfl
@[simp] theorem Dev.padFronts_net : (Dev.padFronts a0 d).net = d.net := Dev.net_of_mask (Dev.padFronts_mask (T := { evt := true, life := true, store := true, nv := true }) rfl rfl rfl rfl a0 d) rfl
@[simp] theorem Dev.padFronts_pcie : (Dev.padFronts a0 d).pcie = d.pcie := Dev.pcie_of_mask (Dev.padFronts_mask (T := { evt := true, life := true, store := true, nv := true }) rfl rfl rfl rfl a0 d) rfl
@[simp] theorem Dev.padFronts_trained : (Dev.padFronts a0 d).trained = d.trained := Dev.trained_of_mask (Dev.padFronts_mask (T := { evt := true, life := true, store := true, nv := true }) rfl rfl rfl rfl a0 d) rfl
end

/-! `Dev.endAll` -/
section
variable (d : Dev)
@[simp] theorem Dev.endAll_out : (Dev.endAll d).out = d.out := Dev.out_of_mask (Dev.endAll_mask (T := { life := true, store := true, eng := true }) rfl rfl rfl d) rfl
@[simp] theorem Dev.endAll_free : (Dev.endAll d).free = d.free := Dev.free_of_mask (Dev.endAll_mask (T := { life := true, store := true, eng := true }) rfl rfl rfl d) rfl
@[simp] theorem Dev.endAll_pins : (Dev.endAll d).pins = d.pins := Dev.pins_of_mask (Dev.endAll_mask (T := { life := true, store := true, eng := true }) rfl rfl rfl d) rfl
@[simp] theorem Dev.endAll_pfail : (Dev.endAll d).pfail = d.pfail := Dev.pfail_of_mask (Dev.endAll_mask (T := { life := true, store := true, eng := true }) rfl rfl rfl d) rfl
@[simp] theorem Dev.endAll_chip : (Dev.endAll d).chip = d.chip := Dev.chip_of_mask (Dev.endAll_mask (T := { life := true, store := true, eng := true }) rfl rfl rfl d) rfl
@[simp] theorem Dev.endAll_evt : (Dev.endAll d).evt = d.evt := Dev.evt_of_mask (Dev.endAll_mask (T := { life := true, store := true, eng := true }) rfl rfl rfl d) rfl
@[simp] theorem Dev.endAll_wall : (Dev.endAll d).wall = d.wall := Dev.wall_of_mask (Dev.endAll_mask (T := { life := true, store := true, eng := true }) rfl rfl rfl d) rfl
@[simp] theorem Dev.endAll_keys : (Dev.endAll d).keys = d.keys := Dev.keys_of_mask (Dev.endAll_mask (T := { life := true, store := true, eng := true }) rfl rfl rfl d) rfl
@[simp] theorem Dev.endAll_fw : (Dev.endAll d).fw = d.fw := Dev.fw_of_mask (Dev.endAll_mask (T := { life := true, store := true, eng := true }) rfl rfl rfl d) rfl
@[simp] theorem Dev.endAll_net : (Dev.endAll d).net = d.net := Dev.net_of_mask (Dev.endAll_mask (T := { life := true, store := true, eng := true }) rfl rfl rfl d) rfl
@[simp] theorem Dev.endAll_pcie : (Dev.endAll d).pcie = d.pcie := Dev.pcie_of_mask (Dev.endAll_mask (T := { life := true, store := true, eng := true }) rfl rfl rfl d) rfl
@[simp] theorem Dev.endAll_trained : (Dev.endAll d).trained = d.trained := Dev.trained_of_mask (Dev.endAll_mask (T := { life := true, store := true, eng := true }) rfl rfl rfl d) rfl
@[simp] theorem Dev.endAll_nv : (Dev.endAll d).nv = d.nv := Dev.nv_of_mask (Dev.endAll_mask (T := { life := true, store := true, eng := true }) rfl rfl rfl d) rfl
end

/-! `Dev.powerPfc` -/
section
variable (d : Dev)
@[simp] theorem Dev.powerPfc_free : (Dev.powerPfc d).free = d.free := Dev.free_of_mask (Dev.powerPfc_mask (T := { out := true, net := true }) rfl rfl d) rfl
@[simp] theorem Dev.powerPfc_pins : (Dev.powerPfc d).pins = d.pins := Dev.pins_of_mask (Dev.powerPfc_mask (T := { out := true, net := true }) rfl rfl d) rfl
@[simp] theorem Dev.powerPfc_pfail : (Dev.powerPfc d).pfail = d.pfail := Dev.pfail_of_mask (Dev.powerPfc_mask (T := { out := true, net := true }) rfl rfl d) rfl
@[simp] theorem Dev.powerPfc_chip : (Dev.powerPfc d).chip = d.chip := Dev.chip_of_mask (Dev.powerPfc_mask (T := { out := true, net := true }) rfl rfl d) rfl
@[simp] theorem Dev.powerPfc_evt : (Dev.powerPfc d).evt = d.evt := Dev.evt_of_mask (Dev.powerPfc_mask (T := { out := true, net := true }) rfl rfl d) rfl
@[simp] theorem Dev.powerPfc_wall : (Dev.powerPfc d).wall = d.wall := Dev.wall_of_mask (Dev.powerPfc_mask (T := { out := true, net := true }) rfl rfl d) rfl
@[simp] theorem Dev.powerPfc_life : (Dev.powerPfc d).life = d.life := Dev.life_of_mask (Dev.powerPfc_mask (T := { out := true, net := true }) rfl rfl d) rfl
@[simp] theorem Dev.powerPfc_keys : (Dev.powerPfc d).keys = d.keys := Dev.keys_of_mask (Dev.powerPfc_mask (T := { out := true, net := true }) rfl rfl d) rfl
@[simp] theorem Dev.powerPfc_fw : (Dev.powerPfc d).fw = d.fw := Dev.fw_of_mask (Dev.powerPfc_mask (T := { out := true, net := true }) rfl rfl d) rfl
@[simp] theorem Dev.powerPfc_store : (Dev.powerPfc d).store = d.store := Dev.store_of_mask (Dev.powerPfc_mask (T := { out := true, net := true }) rfl rfl d) rfl
@[simp] theorem Dev.powerPfc_eng : (Dev.powerPfc d).eng = d.eng := Dev.eng_of_mask (Dev.powerPfc_mask (T := { out := true, net := true }) rfl rfl d) rfl
@[simp] theorem Dev.powerPfc_pcie : (Dev.powerPfc d).pcie = d.pcie := Dev.pcie_of_mask (Dev.powerPfc_mask (T := { out := true, net := true }) rfl rfl d) rfl
@[simp] theorem Dev.powerPfc_trained : (Dev.powerPfc d).trained = d.trained := Dev.trained_of_mask (Dev.powerPfc_mask (T := { out := true, net := true }) rfl rfl d) rfl
@[simp] theorem Dev.powerPfc_nv : (Dev.powerPfc d).nv = d.nv := Dev.nv_of_mask (Dev.powerPfc_mask (T := { out := true, net := true }) rfl rfl d) rfl
end

/-! `Dev.stopMedia` -/
section
variable (d : Dev)
@[simp] theorem Dev.stopMedia_out : (Dev.stopMedia d).out = d.out := Dev.out_of_mask (Dev.stopMedia_mask (T := { store := true }) rfl d) rfl
@[simp] theorem Dev.stopMedia_free : (Dev.stopMedia d).free = d.free := Dev.free_of_mask (Dev.stopMedia_mask (T := { store := true }) rfl d) rfl
@[simp] theorem Dev.stopMedia_pins : (Dev.stopMedia d).pins = d.pins := Dev.pins_of_mask (Dev.stopMedia_mask (T := { store := true }) rfl d) rfl
@[simp] theorem Dev.stopMedia_pfail : (Dev.stopMedia d).pfail = d.pfail := Dev.pfail_of_mask (Dev.stopMedia_mask (T := { store := true }) rfl d) rfl
@[simp] theorem Dev.stopMedia_chip : (Dev.stopMedia d).chip = d.chip := Dev.chip_of_mask (Dev.stopMedia_mask (T := { store := true }) rfl d) rfl
@[simp] theorem Dev.stopMedia_evt : (Dev.stopMedia d).evt = d.evt := Dev.evt_of_mask (Dev.stopMedia_mask (T := { store := true }) rfl d) rfl
@[simp] theorem Dev.stopMedia_wall : (Dev.stopMedia d).wall = d.wall := Dev.wall_of_mask (Dev.stopMedia_mask (T := { store := true }) rfl d) rfl
@[simp] theorem Dev.stopMedia_life : (Dev.stopMedia d).life = d.life := Dev.life_of_mask (Dev.stopMedia_mask (T := { store := true }) rfl d) rfl
@[simp] theorem Dev.stopMedia_keys : (Dev.stopMedia d).keys = d.keys := Dev.keys_of_mask (Dev.stopMedia_mask (T := { store := true }) rfl d) rfl
@[simp] theorem Dev.stopMedia_fw : (Dev.stopMedia d).fw = d.fw := Dev.fw_of_mask (Dev.stopMedia_mask (T := { store := true }) rfl d) rfl
@[simp] theorem Dev.stopMedia_eng : (Dev.stopMedia d).eng = d.eng := Dev.eng_of_mask (Dev.stopMedia_mask (T := { store := true }) rfl d) rfl
@[simp] theorem Dev.stopMedia_net : (Dev.stopMedia d).net = d.net := Dev.net_of_mask (Dev.stopMedia_mask (T := { store := true }) rfl d) rfl
@[simp] theorem Dev.stopMedia_pcie : (Dev.stopMedia d).pcie = d.pcie := Dev.pcie_of_mask (Dev.stopMedia_mask (T := { store := true }) rfl d) rfl
@[simp] theorem Dev.stopMedia_trained : (Dev.stopMedia d).trained = d.trained := Dev.trained_of_mask (Dev.stopMedia_mask (T := { store := true }) rfl d) rfl
@[simp] theorem Dev.stopMedia_nv : (Dev.stopMedia d).nv = d.nv := Dev.nv_of_mask (Dev.stopMedia_mask (T := { store := true }) rfl d) rfl
end

/-! `Dev.notifyNow` -/
section
variable (d : Dev)
@[simp] theorem Dev.notifyNow_free : (Dev.notifyNow d).free = d.free := Dev.free_of_mask (Dev.notifyNow_mask (T := { out := true, evt := true, pcie := true }) rfl rfl rfl d) rfl
@[simp] theorem Dev.notifyNow_pins : (Dev.notifyNow d).pins = d.pins := Dev.pins_of_mask (Dev.notifyNow_mask (T := { out := true, evt := true, pcie := true }) rfl rfl rfl d) rfl
@[simp] theorem Dev.notifyNow_pfail : (Dev.notifyNow d).pfail = d.pfail := Dev.pfail_of_mask (Dev.notifyNow_mask (T := { out := true, evt := true, pcie := true }) rfl rfl rfl d) rfl
@[simp] theorem Dev.notifyNow_chip : (Dev.notifyNow d).chip = d.chip := Dev.chip_of_mask (Dev.notifyNow_mask (T := { out := true, evt := true, pcie := true }) rfl rfl rfl d) rfl
@[simp] theorem Dev.notifyNow_wall : (Dev.notifyNow d).wall = d.wall := Dev.wall_of_mask (Dev.notifyNow_mask (T := { out := true, evt := true, pcie := true }) rfl rfl rfl d) rfl
@[simp] theorem Dev.notifyNow_life : (Dev.notifyNow d).life = d.life := Dev.life_of_mask (Dev.notifyNow_mask (T := { out := true, evt := true, pcie := true }) rfl rfl rfl d) rfl
@[simp] theorem Dev.notifyNow_keys : (Dev.notifyNow d).keys = d.keys := Dev.keys_of_mask (Dev.notifyNow_mask (T := { out := true, evt := true, pcie := true }) rfl rfl rfl d) rfl
@[simp] theorem Dev.notifyNow_fw : (Dev.notifyNow d).fw = d.fw := Dev.fw_of_mask (Dev.notifyNow_mask (T := { out := true, evt := true, pcie := true }) rfl rfl rfl d) rfl
@[simp] theorem Dev.notifyNow_store : (Dev.notifyNow d).store = d.store := Dev.store_of_mask (Dev.notifyNow_mask (T := { out := true, evt := true, pcie := true }) rfl rfl rfl d) rfl
@[simp] theorem Dev.notifyNow_eng : (Dev.notifyNow d).eng = d.eng := Dev.eng_of_mask (Dev.notifyNow_mask (T := { out := true, evt := true, pcie := true }) rfl rfl rfl d) rfl
@[simp] theorem Dev.notifyNow_net : (Dev.notifyNow d).net = d.net := Dev.net_of_mask (Dev.notifyNow_mask (T := { out := true, evt := true, pcie := true }) rfl rfl rfl d) rfl
@[simp] theorem Dev.notifyNow_trained : (Dev.notifyNow d).trained = d.trained := Dev.trained_of_mask (Dev.notifyNow_mask (T := { out := true, evt := true, pcie := true }) rfl rfl rfl d) rfl
@[simp] theorem Dev.notifyNow_nv : (Dev.notifyNow d).nv = d.nv := Dev.nv_of_mask (Dev.notifyNow_mask (T := { out := true, evt := true, pcie := true }) rfl rfl rfl d) rfl
end

/-! `Dev.fileRecord` -/
section
variable (a0 : EventRec) (d : Dev)
@[simp] theorem Dev.fileRecord_free : (Dev.fileRecord a0 d).free = d.free := Dev.free_of_mask (Dev.fileRecord_mask (T := { out := true, evt := true, store := true, pcie := true, nv := true }) rfl rfl rfl rfl rfl a0 d) rfl
@[simp] theorem Dev.fileRecord_pins : (Dev.fileRecord a0 d).pins = d.pins := Dev.pins_of_mask (Dev.fileRecord_mask (T := { out := true, evt := true, store := true, pcie := true, nv := true }) rfl rfl rfl rfl rfl a0 d) rfl
@[simp] theorem Dev.fileRecord_pfail : (Dev.fileRecord a0 d).pfail = d.pfail := Dev.pfail_of_mask (Dev.fileRecord_mask (T := { out := true, evt := true, store := true, pcie := true, nv := true }) rfl rfl rfl rfl rfl a0 d) rfl
@[simp] theorem Dev.fileRecord_chip : (Dev.fileRecord a0 d).chip = d.chip := Dev.chip_of_mask (Dev.fileRecord_mask (T := { out := true, evt := true, store := true, pcie := true, nv := true }) rfl rfl rfl rfl rfl a0 d) rfl
@[simp] theorem Dev.fileRecord_wall : (Dev.fileRecord a0 d).wall = d.wall := Dev.wall_of_mask (Dev.fileRecord_mask (T := { out := true, evt := true, store := true, pcie := true, nv := true }) rfl rfl rfl rfl rfl a0 d) rfl
@[simp] theorem Dev.fileRecord_life : (Dev.fileRecord a0 d).life = d.life := Dev.life_of_mask (Dev.fileRecord_mask (T := { out := true, evt := true, store := true, pcie := true, nv := true }) rfl rfl rfl rfl rfl a0 d) rfl
@[simp] theorem Dev.fileRecord_keys : (Dev.fileRecord a0 d).keys = d.keys := Dev.keys_of_mask (Dev.fileRecord_mask (T := { out := true, evt := true, store := true, pcie := true, nv := true }) rfl rfl rfl rfl rfl a0 d) rfl
@[simp] theorem Dev.fileRecord_fw : (Dev.fileRecord a0 d).fw = d.fw := Dev.fw_of_mask (Dev.fileRecord_mask (T := { out := true, evt := true, store := true, pcie := true, nv := true }) rfl rfl rfl rfl rfl a0 d) rfl
@[simp] theorem Dev.fileRecord_eng : (Dev.fileRecord a0 d).eng = d.eng := Dev.eng_of_mask (Dev.fileRecord_mask (T := { out := true, evt := true, store := true, pcie := true, nv := true }) rfl rfl rfl rfl rfl a0 d) rfl
@[simp] theorem Dev.fileRecord_net : (Dev.fileRecord a0 d).net = d.net := Dev.net_of_mask (Dev.fileRecord_mask (T := { out := true, evt := true, store := true, pcie := true, nv := true }) rfl rfl rfl rfl rfl a0 d) rfl
@[simp] theorem Dev.fileRecord_trained : (Dev.fileRecord a0 d).trained = d.trained := Dev.trained_of_mask (Dev.fileRecord_mask (T := { out := true, evt := true, store := true, pcie := true, nv := true }) rfl rfl rfl rfl rfl a0 d) rfl
end

/-! `Dev.fileFrom` -/
section
variable (a0 : Nat) (d : Dev)
@[simp] theorem Dev.fileFrom_free : (Dev.fileFrom a0 d).free = d.free := Dev.free_of_mask (Dev.fileFrom_mask (T := { out := true, evt := true, store := true, pcie := true, nv := true }) rfl rfl rfl rfl rfl a0 d) rfl
@[simp] theorem Dev.fileFrom_pins : (Dev.fileFrom a0 d).pins = d.pins := Dev.pins_of_mask (Dev.fileFrom_mask (T := { out := true, evt := true, store := true, pcie := true, nv := true }) rfl rfl rfl rfl rfl a0 d) rfl
@[simp] theorem Dev.fileFrom_pfail : (Dev.fileFrom a0 d).pfail = d.pfail := Dev.pfail_of_mask (Dev.fileFrom_mask (T := { out := true, evt := true, store := true, pcie := true, nv := true }) rfl rfl rfl rfl rfl a0 d) rfl
@[simp] theorem Dev.fileFrom_chip : (Dev.fileFrom a0 d).chip = d.chip := Dev.chip_of_mask (Dev.fileFrom_mask (T := { out := true, evt := true, store := true, pcie := true, nv := true }) rfl rfl rfl rfl rfl a0 d) rfl
@[simp] theorem Dev.fileFrom_wall : (Dev.fileFrom a0 d).wall = d.wall := Dev.wall_of_mask (Dev.fileFrom_mask (T := { out := true, evt := true, store := true, pcie := true, nv := true }) rfl rfl rfl rfl rfl a0 d) rfl
@[simp] theorem Dev.fileFrom_life : (Dev.fileFrom a0 d).life = d.life := Dev.life_of_mask (Dev.fileFrom_mask (T := { out := true, evt := true, store := true, pcie := true, nv := true }) rfl rfl rfl rfl rfl a0 d) rfl
@[simp] theorem Dev.fileFrom_keys : (Dev.fileFrom a0 d).keys = d.keys := Dev.keys_of_mask (Dev.fileFrom_mask (T := { out := true, evt := true, store := true, pcie := true, nv := true }) rfl rfl rfl rfl rfl a0 d) rfl
@[simp] theorem Dev.fileFrom_fw : (Dev.fileFrom a0 d).fw = d.fw := Dev.fw_of_mask (Dev.fileFrom_mask (T := { out := true, evt := true, store := true, pcie := true, nv := true }) rfl rfl rfl rfl rfl a0 d) rfl
@[simp] theorem Dev.fileFrom_eng : (Dev.fileFrom a0 d).eng = d.eng := Dev.eng_of_mask (Dev.fileFrom_mask (T := { out := true, evt := true, store := true, pcie := true, nv := true }) rfl rfl rfl rfl rfl a0 d) rfl
@[simp] theorem Dev.fileFrom_net : (Dev.fileFrom a0 d).net = d.net := Dev.net_of_mask (Dev.fileFrom_mask (T := { out := true, evt := true, store := true, pcie := true, nv := true }) rfl rfl rfl rfl rfl a0 d) rfl
@[simp] theorem Dev.fileFrom_trained : (Dev.fileFrom a0 d).trained = d.trained := Dev.trained_of_mask (Dev.fileFrom_mask (T := { out := true, evt := true, store := true, pcie := true, nv := true }) rfl rfl rfl rfl rfl a0 d) rfl
end

/-! `Dev.advanceEntry` -/
section
variable (a0 : Bool) (a1 : Bool) (d : Dev)
@[simp] theorem Dev.advanceEntry_out : (Dev.advanceEntry a0 a1 d).out = d.out := Dev.out_of_mask (Dev.advanceEntry_mask (T := { evt := true, life := true, nv := true }) rfl rfl rfl a0 a1 d) rfl
@[simp] theorem Dev.advanceEntry_free : (Dev.advanceEntry a0 a1 d).free = d.free := Dev.free_of_mask (Dev.advanceEntry_mask (T := { evt := true, life := true, nv := true }) rfl rfl rfl a0 a1 d) rfl
@[simp] theorem Dev.advanceEntry_pins : (Dev.advanceEntry a0 a1 d).pins = d.pins := Dev.pins_of_mask (Dev.advanceEntry_mask (T := { evt := true, life := true, nv := true }) rfl rfl rfl a0 a1 d) rfl
@[simp] theorem Dev.advanceEntry_pfail : (Dev.advanceEntry a0 a1 d).pfail = d.pfail := Dev.pfail_of_mask (Dev.advanceEntry_mask (T := { evt := true, life := true, nv := true }) rfl rfl rfl a0 a1 d) rfl
@[simp] theorem Dev.advanceEntry_chip : (Dev.advanceEntry a0 a1 d).chip = d.chip := Dev.chip_of_mask (Dev.advanceEntry_mask (T := { evt := true, life := true, nv := true }) rfl rfl rfl a0 a1 d) rfl
@[simp] theorem Dev.advanceEntry_wall : (Dev.advanceEntry a0 a1 d).wall = d.wall := Dev.wall_of_mask (Dev.advanceEntry_mask (T := { evt := true, life := true, nv := true }) rfl rfl rfl a0 a1 d) rfl
@[simp] theorem Dev.advanceEntry_keys : (Dev.advanceEntry a0 a1 d).keys = d.keys := Dev.keys_of_mask (Dev.advanceEntry_mask (T := { evt := true, life := true, nv := true }) rfl rfl rfl a0 a1 d) rfl
@[simp] theorem Dev.advanceEntry_fw : (Dev.advanceEntry a0 a1 d).fw = d.fw := Dev.fw_of_mask (Dev.advanceEntry_mask (T := { evt := true, life := true, nv := true }) rfl rfl rfl a0 a1 d) rfl
@[simp] theorem Dev.advanceEntry_store : (Dev.advanceEntry a0 a1 d).store = d.store := Dev.store_of_mask (Dev.advanceEntry_mask (T := { evt := true, life := true, nv := true }) rfl rfl rfl a0 a1 d) rfl
@[simp] theorem Dev.advanceEntry_eng : (Dev.advanceEntry a0 a1 d).eng = d.eng := Dev.eng_of_mask (Dev.advanceEntry_mask (T := { evt := true, life := true, nv := true }) rfl rfl rfl a0 a1 d) rfl
@[simp] theorem Dev.advanceEntry_net : (Dev.advanceEntry a0 a1 d).net = d.net := Dev.net_of_mask (Dev.advanceEntry_mask (T := { evt := true, life := true, nv := true }) rfl rfl rfl a0 a1 d) rfl
@[simp] theorem Dev.advanceEntry_pcie : (Dev.advanceEntry a0 a1 d).pcie = d.pcie := Dev.pcie_of_mask (Dev.advanceEntry_mask (T := { evt := true, life := true, nv := true }) rfl rfl rfl a0 a1 d) rfl
@[simp] theorem Dev.advanceEntry_trained : (Dev.advanceEntry a0 a1 d).trained = d.trained := Dev.trained_of_mask (Dev.advanceEntry_mask (T := { evt := true, life := true, nv := true }) rfl rfl rfl a0 a1 d) rfl
end

/-! `Dev.programGroup` -/
section
variable (a0 : List EventRec) (a1 : Bool) (a2 : Bool) (a3 : Bool) (a4 : Bool) (d : Dev)
@[simp] theorem Dev.programGroup_free : (Dev.programGroup a0 a1 a2 a3 a4 d).free = d.free := Dev.free_of_mask (Dev.programGroup_mask (T := { out := true, chip := true, evt := true, life := true, store := true, pcie := true, nv := true }) rfl rfl rfl rfl rfl rfl rfl a0 a1 a2 a3 a4 d) rfl
@[simp] theorem Dev.programGroup_pins : (Dev.programGroup a0 a1 a2 a3 a4 d).pins = d.pins := Dev.pins_of_mask (Dev.programGroup_mask (T := { out := true, chip := true, evt := true, life := true, store := true, pcie := true, nv := true }) rfl rfl rfl rfl rfl rfl rfl a0 a1 a2 a3 a4 d) rfl
@[simp] theorem Dev.programGroup_pfail : (Dev.programGroup a0 a1 a2 a3 a4 d).pfail = d.pfail := Dev.pfail_of_mask (Dev.programGroup_mask (T := { out := true, chip := true, evt := true, life := true, store := true, pcie := true, nv := true }) rfl rfl rfl rfl rfl rfl rfl a0 a1 a2 a3 a4 d) rfl
@[simp] theorem Dev.programGroup_wall : (Dev.programGroup a0 a1 a2 a3 a4 d).wall = d.wall := Dev.wall_of_mask (Dev.programGroup_mask (T := { out := true, chip := true, evt := true, life := true, store := true, pcie := true, nv := true }) rfl rfl rfl rfl rfl rfl rfl a0 a1 a2 a3 a4 d) rfl
@[simp] theorem Dev.programGroup_keys : (Dev.programGroup a0 a1 a2 a3 a4 d).keys = d.keys := Dev.keys_of_mask (Dev.programGroup_mask (T := { out := true, chip := true, evt := true, life := true, store := true, pcie := true, nv := true }) rfl rfl rfl rfl rfl rfl rfl a0 a1 a2 a3 a4 d) rfl
@[simp] theorem Dev.programGroup_fw : (Dev.programGroup a0 a1 a2 a3 a4 d).fw = d.fw := Dev.fw_of_mask (Dev.programGroup_mask (T := { out := true, chip := true, evt := true, life := true, store := true, pcie := true, nv := true }) rfl rfl rfl rfl rfl rfl rfl a0 a1 a2 a3 a4 d) rfl
@[simp] theorem Dev.programGroup_eng : (Dev.programGroup a0 a1 a2 a3 a4 d).eng = d.eng := Dev.eng_of_mask (Dev.programGroup_mask (T := { out := true, chip := true, evt := true, life := true, store := true, pcie := true, nv := true }) rfl rfl rfl rfl rfl rfl rfl a0 a1 a2 a3 a4 d) rfl
@[simp] theorem Dev.programGroup_net : (Dev.programGroup a0 a1 a2 a3 a4 d).net = d.net := Dev.net_of_mask (Dev.programGroup_mask (T := { out := true, chip := true, evt := true, life := true, store := true, pcie := true, nv := true }) rfl rfl rfl rfl rfl rfl rfl a0 a1 a2 a3 a4 d) rfl
@[simp] theorem Dev.programGroup_trained : (Dev.programGroup a0 a1 a2 a3 a4 d).trained = d.trained := Dev.trained_of_mask (Dev.programGroup_mask (T := { out := true, chip := true, evt := true, life := true, store := true, pcie := true, nv := true }) rfl rfl rfl rfl rfl rfl rfl a0 a1 a2 a3 a4 d) rfl
end

/-! `Dev.programWaiting` -/
section
variable (a0 : Bool) (a1 : Bool) (a2 : Bool) (a3 : Bool) (d : Dev)
@[simp] theorem Dev.programWaiting_free : (Dev.programWaiting a0 a1 a2 a3 d).free = d.free := Dev.free_of_mask (Dev.programWaiting_mask (T := { out := true, chip := true, evt := true, life := true, store := true, pcie := true, nv := true }) rfl rfl rfl rfl rfl rfl rfl a0 a1 a2 a3 d) rfl
@[simp] theorem Dev.programWaiting_pins : (Dev.programWaiting a0 a1 a2 a3 d).pins = d.pins := Dev.pins_of_mask (Dev.programWaiting_mask (T := { out := true, chip := true, evt := true, life := true, store := true, pcie := true, nv := true }) rfl rfl rfl rfl rfl rfl rfl a0 a1 a2 a3 d) rfl
@[simp] theorem Dev.programWaiting_pfail : (Dev.programWaiting a0 a1 a2 a3 d).pfail = d.pfail := Dev.pfail_of_mask (Dev.programWaiting_mask (T := { out := true, chip := true, evt := true, life := true, store := true, pcie := true, nv := true }) rfl rfl rfl rfl rfl rfl rfl a0 a1 a2 a3 d) rfl
@[simp] theorem Dev.programWaiting_wall : (Dev.programWaiting a0 a1 a2 a3 d).wall = d.wall := Dev.wall_of_mask (Dev.programWaiting_mask (T := { out := true, chip := true, evt := true, life := true, store := true, pcie := true, nv := true }) rfl rfl rfl rfl rfl rfl rfl a0 a1 a2 a3 d) rfl
@[simp] theorem Dev.programWaiting_keys : (Dev.programWaiting a0 a1 a2 a3 d).keys = d.keys := Dev.keys_of_mask (Dev.programWaiting_mask (T := { out := true, chip := true, evt := true, life := true, store := true, pcie := true, nv := true }) rfl rfl rfl rfl rfl rfl rfl a0 a1 a2 a3 d) rfl
@[simp] theorem Dev.programWaiting_fw : (Dev.programWaiting a0 a1 a2 a3 d).fw = d.fw := Dev.fw_of_mask (Dev.programWaiting_mask (T := { out := true, chip := true, evt := true, life := true, store := true, pcie := true, nv := true }) rfl rfl rfl rfl rfl rfl rfl a0 a1 a2 a3 d) rfl
@[simp] theorem Dev.programWaiting_eng : (Dev.programWaiting a0 a1 a2 a3 d).eng = d.eng := Dev.eng_of_mask (Dev.programWaiting_mask (T := { out := true, chip := true, evt := true, life := true, store := true, pcie := true, nv := true }) rfl rfl rfl rfl rfl rfl rfl a0 a1 a2 a3 d) rfl
@[simp] theorem Dev.programWaiting_net : (Dev.programWaiting a0 a1 a2 a3 d).net = d.net := Dev.net_of_mask (Dev.programWaiting_mask (T := { out := true, chip := true, evt := true, life := true, store := true, pcie := true, nv := true }) rfl rfl rfl rfl rfl rfl rfl a0 a1 a2 a3 d) rfl
@[simp] theorem Dev.programWaiting_trained : (Dev.programWaiting a0 a1 a2 a3 d).trained = d.trained := Dev.trained_of_mask (Dev.programWaiting_mask (T := { out := true, chip := true, evt := true, life := true, store := true, pcie := true, nv := true }) rfl rfl rfl rfl rfl rfl rfl a0 a1 a2 a3 d) rfl
end

end Sys2Proof.Machine
end

