-- ==== Sys2Proof/Laws/Mem.lean ====
section
/-!
SUPPORT. Laws/Mem.lean: reading back sparse tables and byte memories, and that every memory operation keeps the canonical
form.
-/
namespace Sys2Proof.Machine

variable {α : Type}

/-! ## Sparse tables -/

/-- A written entry reads back. -/
@[simp] theorem Tab.get?_set_self (t : Tab α) (k : Nat) (v : α) : (t.set k v).get? k = some v := by
  induction t with
  | nil => simp [Tab.set, Tab.get?]
  | cons e t ih =>
    obtain ⟨k', v'⟩ := e
    unfold Tab.set
    split
    · simp [Tab.get?]
    · split
      · simp [Tab.get?]
      · simp [Tab.get?, *]

/-- The other entries stay. -/
theorem Tab.get?_set_ne (t : Tab α) {j k : Nat} (v : α) (h : j ≠ k) : (t.set k v).get? j = t.get? j := by
  induction t with
  | nil => simp [Tab.set, Tab.get?, h.symm]
  | cons e t ih =>
    obtain ⟨k', v'⟩ := e
    unfold Tab.set
    split
    · simp [Tab.get?, h.symm]
    · split
      · next hk => subst hk; simp [Tab.get?, h.symm]
      · simp [Tab.get?, ih]

/-- A written entry reads back, also where a default stands for unlisted entries. -/
@[simp] theorem Tab.get_set_self (d : α) (t : Tab α) (k : Nat) (v : α) : (t.set k v).get d k = v := by simp [Tab.get]

/-- The other entries stay. -/
theorem Tab.get_set_ne (d : α) (t : Tab α) {j k : Nat} (v : α) (h : j ≠ k) : (t.set k v).get d j = t.get d j := by
  simp [Tab.get, Tab.get?_set_ne t v h]

/-- An updated entry reads as its update. -/
@[simp] theorem Tab.get_update_self (d : α) (t : Tab α) (k : Nat) (f : α → α) : (t.update d k f).get d k = f (t.get d k) := by
  simp [Tab.update]

/-- The other entries stay. -/
theorem Tab.get_update_ne (d : α) (t : Tab α) {j k : Nat} (f : α → α) (h : j ≠ k) :
    (t.update d k f).get d j = t.get d j := Tab.get_set_ne d t _ h

/-- An erased entry is not listed. -/
@[simp] theorem Tab.get?_erase_self (t : Tab α) (k : Nat) : (t.erase k).get? k = none := by
  induction t with
  | nil => rfl
  | cons e t ih =>
    unfold Tab.erase at *
    by_cases h : e.1 = k
    · simp [h, ih]
    · simp [h, Tab.get?, ih]

/-- The other entries stay. -/
theorem Tab.get?_erase_ne (t : Tab α) {j k : Nat} (h : j ≠ k) : (t.erase k).get? j = t.get? j := by
  induction t with
  | nil => rfl
  | cons e t ih =>
    unfold Tab.erase at *
    by_cases hk : e.1 = k
    · simp [hk, Tab.get?, ih, h.symm]
    · simp [hk, Tab.get?, ih]

/-- An adjusted entry. -/
@[simp] theorem Tab.get?_adjust_self (t : Tab α) (k : Nat) (f : α → α) : (t.adjust k f).get? k = (t.get? k).map f := by
  induction t with
  | nil => rfl
  | cons e t ih =>
    unfold Tab.adjust at *
    by_cases h : e.1 = k
    · simp [h, Tab.get?]
    · simp [h, Tab.get?, ih]

/-- The other entries stay. -/
theorem Tab.get?_adjust_ne (t : Tab α) {j k : Nat} (f : α → α) (h : j ≠ k) : (t.adjust k f).get? j = t.get? j := by
  induction t with
  | nil => rfl
  | cons e t ih =>
    unfold Tab.adjust at *
    by_cases hk : e.1 = k
    · simp [hk, Tab.get?, ih, h.symm]
    · simp [hk, Tab.get?, ih]

/-- Adjusting an entry that is listed. -/
theorem Tab.get_adjust_self (d : α) (t : Tab α) {k : Nat} (f : α → α) {v : α} (h : t.get? k = some v) :
    (t.adjust k f).get d k = f v := by simp [Tab.get, h]

/-! ## Byte memories: reading back -/

/-- A stored byte reads back. -/
@[simp] theorem Mem.read_write_self (d : Byte) (m : Mem) (a : Nat) (v : Byte) : Mem.read d (Mem.write d m a v) a = v := by
  unfold Mem.read Mem.write
  split
  · simp [Tab.get, *]
  · simp

/-- The other bytes stay. -/
theorem Mem.read_write_ne (d : Byte) (m : Mem) {a b : Nat} (v : Byte) (h : b ≠ a) :
    Mem.read d (Mem.write d m a v) b = Mem.read d m b := by
  unfold Mem.read Mem.write
  split
  · simp [Tab.get, Tab.get?_erase_ne m h]
  · exact Tab.get_set_ne d m v h

/-- Bytes outside a stored string stay. -/
theorem Mem.read_writeBytes_out (d : Byte) (m : Mem) (a : Nat) (bs : Bytes) {b : Nat} (h : b < a ∨ a + bs.length ≤ b) :
    Mem.read d (Mem.writeBytes d m a bs) b = Mem.read d m b := by
  induction bs generalizing m a with
  | nil => rfl
  | cons v bs ih =>
    simp only [List.length_cons] at h
    rw [Mem.writeBytes, ih _ _ (by omega), Mem.read_write_ne d m v (by omega)]

/-- A stored string reads back. -/
theorem Mem.read_writeBytes_in (d : Byte) (m : Mem) (a : Nat) (bs : Bytes) {i : Nat} (h : i < bs.length) :
    Mem.read d (Mem.writeBytes d m a bs) (a + i) = bs[i] := by
  induction bs generalizing m a i with
  | nil => simp at h
  | cons v bs ih =>
    rw [Mem.writeBytes]
    cases i with
    | zero => rw [Nat.add_zero, Mem.read_writeBytes_out d _ _ _ (Or.inl (by omega))]; simp
    | succ i =>
      have h' : i < bs.length := by simpa using h
      have e : a + (i + 1) = a + 1 + i := by omega
      rw [e, ih _ _ h', List.getElem_cons_succ]

/-! ## The canonical form -/

/-- Rising from `hi` is rising from any lower bound. -/
theorem Mem.rising_mono {lo hi : Nat} (h : lo ≤ hi) {m : Mem} (hm : Mem.rising hi m = true) : Mem.rising lo m = true := by
  cases m with
  | nil => rfl
  | cons e t =>
    simp only [Mem.rising, Bool.and_eq_true, decide_eq_true_eq] at *
    exact ⟨by omega, hm.2⟩

/-- Leaving out entries keeps the order. -/
theorem Mem.rising_filter (p : Nat × Byte → Bool) {lo : Nat} {m : Mem} (hm : Mem.rising lo m = true) :
    Mem.rising lo (m.filter p) = true := by
  induction m generalizing lo with
  | nil => rfl
  | cons e t ih =>
    simp only [Mem.rising, Bool.and_eq_true, decide_eq_true_eq] at hm
    rw [List.filter_cons]
    split
    · simp only [Mem.rising, Bool.and_eq_true, decide_eq_true_eq]
      exact ⟨hm.1, ih hm.2⟩
    · exact Mem.rising_mono (by omega) (ih hm.2)

/-- Setting an entry keeps the order. -/
theorem Mem.rising_set {lo k : Nat} (h : lo ≤ k) (v : Byte) {m : Mem} (hm : Mem.rising lo m = true) :
    Mem.rising lo (Tab.set m k v) = true := by
  induction m generalizing lo with
  | nil => simp [Tab.set, Mem.rising, h]
  | cons e t ih =>
    obtain ⟨k', v'⟩ := e
    simp only [Mem.rising, Bool.and_eq_true, decide_eq_true_eq] at hm
    unfold Tab.set
    split
    · simp only [Mem.rising, Bool.and_eq_true, decide_eq_true_eq]
      exact ⟨h, by omega, hm.2⟩
    · split
      · next hk => simp only [Mem.rising, Bool.and_eq_true, decide_eq_true_eq]; exact ⟨h, hk ▸ hm.2⟩
      · simp only [Mem.rising, Bool.and_eq_true, decide_eq_true_eq]
        exact ⟨hm.1, ih (by omega) hm.2⟩

/-- Setting an entry to a byte other than `d` keeps every entry other than `d`. -/
theorem Mem.all_set {d v : Byte} (h : v ≠ d) (k : Nat) {m : Mem} (hm : (m.all fun e => e.2 != d) = true) :
    ((Tab.set m k v).all fun e => e.2 != d) = true := by
  induction m with
  | nil => simp [Tab.set, h]
  | cons e t ih =>
    obtain ⟨k', v'⟩ := e
    simp only [List.all_cons, Bool.and_eq_true] at hm
    unfold Tab.set
    have hv : (v != d) = true := by simp [h]
    (repeat' split) <;> simp only [List.all_cons, Bool.and_eq_true, hv, true_and]
    · exact hm
    · exact hm.2
    · exact ⟨hm.1, ih hm.2⟩

/-- The empty memory is canonical. -/
@[simp] theorem Mem.wf_nil (d : Byte) : Mem.wf d [] = true := rfl

/-- Leaving out entries keeps the form. -/
theorem Mem.wf_filter (d : Byte) (p : Nat × Byte → Bool) {m : Mem} (h : Mem.wf d m = true) : Mem.wf d (m.filter p) = true := by
  simp only [Mem.wf, Bool.and_eq_true] at *
  refine ⟨Mem.rising_filter p h.1, ?_⟩
  have h2 := h.2
  rw [List.all_eq_true] at *
  exact fun e he => h2 e ((List.mem_filter.mp he).1)

/-- Storing a byte keeps the form. -/
theorem Mem.wf_write (d : Byte) {m : Mem} (a : Nat) (v : Byte) (h : Mem.wf d m = true) : Mem.wf d (Mem.write d m a v) = true := by
  unfold Mem.write
  split
  · exact Mem.wf_filter d _ h
  · next hv =>
    simp only [Mem.wf, Bool.and_eq_true] at *
    exact ⟨Mem.rising_set (Nat.zero_le a) v h.1, Mem.all_set hv a h.2⟩

/-- Storing a byte string keeps the form. -/
theorem Mem.wf_writeBytes (d : Byte) {m : Mem} (a : Nat) (bs : Bytes) (h : Mem.wf d m = true) :
    Mem.wf d (Mem.writeBytes d m a bs) = true := by
  induction bs generalizing m a with
  | nil => exact h
  | cons v bs ih => exact ih _ (Mem.wf_write d a v h)

/-- Erasing a range keeps the form. -/
theorem Mem.wf_erase (d : Byte) {m : Mem} (lo n : Nat) (h : Mem.wf d m = true) : Mem.wf d (m.erase lo n) = true :=
  Mem.wf_filter d _ h

end Sys2Proof.Machine
end

