-- ==== Sys2Proof/Laws/Access.lean ====
section
/-!
SUPPORT. Laws/Access.lean: what each update of one table entry leaves in its group, so that a read of an entry after an
update of an entry reduces to the laws of sparse tables.
-/
namespace Sys2Proof.Machine

/-- The network side after an update of one MAC. -/
@[simp] theorem Dev.onMac_net (m : Nat) (f : Mac → Mac) (d : Dev) :
    (d.onMac m f).net = { d.net with macs := d.net.macs.update {} m f } := rfl
/-- The store after an update of one region. -/
@[simp] theorem Dev.onRegion_store (r : Nat) (f : Region → Region) (d : Dev) :
    (d.onRegion r f).store = { d.store with regions := d.store.regions.update {} r f } := rfl
/-- The store after an update of one associative bank. -/
@[simp] theorem Dev.onBank_store (b : Nat) (f : Bank → Bank) (d : Dev) :
    (d.onBank b f).store = { d.store with banks := d.store.banks.update {} b f } := rfl
/-- The store after an update of one namespace. -/
@[simp] theorem Dev.onNs_store (n : Nat) (f : Namespace → Namespace) (d : Dev) :
    (d.onNs n f).store = { d.store with namespaces := d.store.namespaces.update {} n f } := rfl
/-- The non-volatile state after an update of what one region keeps. -/
@[simp] theorem Dev.onMedia_nv (r : Nat) (f : RegionMedia → RegionMedia) (d : Dev) :
    (d.onMedia r f).nv = { d.nv with regions := d.nv.regions.update {} r f } := rfl
/-- The engines after an update of one cluster. -/
@[simp] theorem Dev.onCluster_eng (c : Nat) (f : Cluster → Cluster) (d : Dev) :
    (d.onCluster c f).eng = { d.eng with clusters := d.eng.clusters.update {} c f } := rfl
/-- The engines after an update of one lane pair. -/
@[simp] theorem Dev.onLane_eng (l : Nat) (f : Lane → Lane) (d : Dev) :
    (d.onLane l f).eng = { d.eng with lanes := d.eng.lanes.update {} l f } := rfl
/-- The engines after an update of one coach. -/
@[simp] theorem Dev.onCoach_eng (i : Nat) (f : Coach → Coach) (d : Dev) :
    (d.onCoach i f).eng = { d.eng with coaches := d.eng.coaches.adjust i f } := rfl
/-- The endpoint after an update of one queue pair. -/
@[simp] theorem Dev.onQueue_pcie (q : Nat) (f : QueuePair → QueuePair) (d : Dev) :
    (d.onQueue q f).pcie = { d.pcie with queues := d.pcie.queues.adjust q f } := rfl
/-- The event state after an update of one recorder. -/
@[simp] theorem Dev.onRecorder_evt (r : Nat) (f : Recorder → Recorder) (d : Dev) :
    (d.onRecorder r f).evt = { d.evt with recorders := d.evt.recorders.update {} r f } := rfl
/-- The keys after an update of one slot. -/
@[simp] theorem Dev.onSlot_keys (s : Nat) (f : SlotEntry → SlotEntry) (d : Dev) :
    (d.onSlot s f).keys = { d.keys with table := { d.keys.table with slots := d.keys.table.slots.update {} s f } } := rfl

/-- A coach that is updated is the update of it. -/
theorem Dev.coach?_onCoach (i : Nat) (f : Coach → Coach) (d : Dev) : (d.onCoach i f).coach? i = (d.coach? i).map f := by
  simp [Dev.coach?]

/-- A coach stays as it is where another is updated. -/
theorem Dev.coach?_onCoach_ne {i j : Nat} (f : Coach → Coach) (d : Dev) (h : j ≠ i) :
    (d.onCoach i f).coach? j = d.coach? j := by
  simp [Dev.coach?, Tab.get?_adjust_ne _ f h]

/-- A queue pair that is updated is the update of it. -/
theorem Dev.queue?_onQueue (q : Nat) (f : QueuePair → QueuePair) (d : Dev) :
    (d.onQueue q f).queue? q = (d.queue? q).map f := by
  simp [Dev.queue?]

end Sys2Proof.Machine
end

