-- ==== Sys2Proof/Laws/Coach.lean ====
section
/-!
SUPPORT. Laws/Coach.lean: what the shared operations on a coach can do: a row runs its instruction, a coach changes alone,
a coach ends.
-/
namespace Sys2Proof.Machine

/-- A live device runs. -/
theorem Dev.running_of_live {d : Dev} (h : d.live = true) : d.running = true := by
  simp only [Dev.live, Bool.and_eq_true] at h
  exact h.1

/-- A row has its effect on the coach that is at its instruction. -/
theorem Dev.onInstr_at {d : Dev} {ctx : CtxId} {i : Nat} {c : Coach} {op : Nat} {p : Fields → Bool}
    {f : Nat → Coach → Fields → Dev → Dev} (h : d.At ctx i c op) (hp : p c.current = true) :
    Dev.onInstr ctx.val p f d = f i c c.current d := by
  have hs : c.mayStep = true := by simp [Coach.mayStep, h.steps]
  simp [Dev.onInstr, h.running, h.path, h.free, hs, hp]

/-- A change of one coach changes nothing else. -/
theorem Dev.becomes_onCoach {d : Dev} {i : Nat} {c : Coach} (f : Coach → Coach) (h : d.coach? i = some c) :
    d.Becomes (d.onCoach i f) i (f c) := by
  refine ⟨by rw [Dev.coach?_onCoach, h]; rfl, fun j hj => Dev.coach?_onCoach_ne _ _ hj, ?_, rfl⟩
  simp [Dev.agree]

/-- A change of the visible state of one coach changes nothing else. -/
theorem Dev.becomes_onRun {d : Dev} {i : Nat} {c : Coach} (f : Run → Run) (h : d.coach? i = some c) :
    d.Becomes (d.onRun i f) i { c with run := f c.run } :=
  Dev.becomes_onCoach (fun c => { c with run := f c.run }) h

/-- An instruction that changes the visible state of its coach alone does what its effect says. -/
theorem runsAs_of_onRun {row : CtxId → Instr} {op : Nat} {g : Dev → Coach → Prop} {after : Dev → Coach → Run}
    {f : Nat → Coach → Fields → Dev → Dev} (hrow : ∀ ctx s, exec (row ctx) s = runInstr ctx (·.op == op) f s)
    (hf : ∀ (d : Dev) (ctx : CtxId) (i : Nat) (c : Coach), d.At ctx i c op → g d c →
      ∃ k, f i c c.current d = d.onRun i k ∧ k c.run = after d c) : runsAs row op g after := by
  intro s ctx i c h hg
  obtain ⟨k, hk, hr⟩ := hf s.dev ctx i c h hg
  refine ⟨s.dev.onRun i k, ?_, hr ▸ Dev.becomes_onRun k h.coach⟩
  rw [hrow, runInstr, onDev_eq, Dev.onInstr_at h (by simp [h.opcode]), hk]

/-- The coach of a number that is listed. -/
theorem Dev.coach_of_some {d : Dev} {i : Nat} {c : Coach} (h : d.coach? i = some c) : d.coach i = c := by
  rw [Dev.coach, Tab.get]
  exact congrArg (·.getD {}) h

/-- Giving up a record leaves the coaches. -/
theorem Dev.discardRecords_eng (l : List Nat) (d : Dev) : (Dev.each l Dev.discardRecord d).eng = d.eng :=
  Dev.each_keep (·.eng) l Dev.discardRecord (fun _ _ => rfl) d

/-- Releasing the holds of a coach leaves the coaches. -/
theorem Dev.releaseHolds_eng (i : Nat) (d : Dev) : (d.releaseHolds i).eng = d.eng :=
  Dev.eng_of_mask (T := { store := true }) (by simp) rfl

/-- What a coach keeps once its set is gone. -/
def Coach.unset (c : Coach) : Coach :=
  if c.set.isSome then { c with set := none, run := { c.run with flags := { c.run.flags with setOpen := false } } } else c

/-- The engines after a set has dissolved. -/
theorem Dev.dissolve_coach {d : Dev} {i : Nat} {c : Coach} (h : d.coach? i = some c) :
    (d.dissolve i).coach? i = some c.unset ∧ ∀ j, j ≠ i → (d.dissolve i).coach? j = d.coach? j := by
  unfold Dev.dissolve Coach.unset
  rw [Dev.coach_of_some h]
  cases hs : c.set with
  | none =>
    have he : ∀ j, (d.releaseHolds i).coach? j = d.coach? j := fun j => by
      rw [Dev.coach?, Dev.releaseHolds_eng]; rfl
    exact ⟨by simp [he, h], fun j _ => he j⟩
  | some s =>
    simp only [Option.isSome_some, if_true]
    have he : ∀ j, ((Dev.each (s.staged.map (·.addr)) Dev.discardRecord d).releaseHolds i).coach? j = d.coach? j := by
      intro j
      rw [Dev.coach?, Dev.releaseHolds_eng, Dev.discardRecords_eng]; rfl
    exact ⟨by rw [Dev.coach?_onCoach, he, h]; rfl, fun j hj => by rw [Dev.coach?_onCoach_ne _ _ hj, he]⟩

/-- Clusters do not change where a set dissolves. -/
theorem Dev.dissolve_clusters (i : Nat) (d : Dev) : (d.dissolve i).eng.clusters = d.eng.clusters := by
  unfold Dev.dissolve
  split
  · rw [Dev.releaseHolds_eng]
  · simp [Dev.releaseHolds_eng, Dev.discardRecords_eng]

/-- A change of a cluster leaves the coaches. -/
theorem Dev.coach?_onCluster (x : Nat) (f : Cluster → Cluster) (d : Dev) (j : Nat) :
    (d.onCluster x f).coach? j = d.coach? j := rfl

/-- A coach that ends: its stage, its status, no context, no set; where the end is terminal, no response field. -/
theorem Dev.endCoach_coach {d : Dev} {i : Nat} {c : Coach} (st : Byte) (t : Bool) (h : d.coach? i = some c) :
    (d.endCoach i st t).coach? i = some { c.unset with
      stage := .ended, ctx := none, wait := .none, final := st, given := none
      run := if t then { c.unset.run with resp := [] } else c.unset.run } ∧
    ∀ j, j ≠ i → (d.endCoach i st t).coach? j = d.coach? j := by
  have hd := Dev.dissolve_coach h
  simp only [Dev.endCoach]
  cases (d.coach i).counter <;> simp only [Dev.coach?_onCluster] <;>
    exact ⟨by rw [Dev.coach?_onCoach, hd.1]; rfl, fun j hj => by rw [Dev.coach?_onCoach_ne _ _ hj, hd.2 j hj]⟩

/-- The cluster of the context of a coach that ends counts it. -/
theorem Dev.endCoach_cluster {d : Dev} {i : Nat} {c : Coach} (st : Byte) (t : Bool) (h : d.coach? i = some c) {x : Nat}
    (hx : c.counter = some x) : (d.endCoach i st t).cluster x = (d.cluster x).countEnd st t := by
  simp only [Dev.endCoach, Dev.coach_of_some h, hx]
  simp [Dev.cluster, Dev.dissolve_clusters]

/-- An instruction that returns a status. -/
theorem Run.setStatus_retire (r : Run) (st : Byte) : (r.setStatus st).retire = r.answers st := by
  have h : (st != stOk && st != stTokenStale) = decide (st ≠ 0x00 ∧ st ≠ 0x0D) := by
    rw [Bool.eq_iff_iff]; simp [stOk, stTokenStale]
  simp only [Run.setStatus, Run.retire, Run.retireTo, Flags.ofStatus, Run.answers, h]

/-- A privileged instruction acts on the coach that is at it. -/
theorem runActing_at {s : State} {ctx : CtxId} {i : Nat} {c : Coach} {op : Nat} (f : Nat → Coach → Fields → Dev → Dev)
    (h : s.dev.Acts ctx i c op) : runActing ctx op f s = .next { s with dev := noted f i c c.current s.dev } := by
  simp only [runActing, runInstr, onDev_eq, Dev.onInstr_at (p := (·.op == op)) h.toAt (by simp [h.opcode]), accepted,
    if_neg h.accepted, acting, h.alive, Bool.false_eq_true, if_false]

/-- Where an effect leaves a coach, noting that it acted leaves the same coach, which may now be replayable. -/
theorem noted_coach {f : Nat → Coach → Fields → Dev → Dev} {i : Nat} {c c' : Coach} {w : Fields} {d : Dev}
    (h : (f i c w d).coach? i = some c') : ∃ b, (noted f i c w d).coach? i = some { c' with acted := b } := by
  unfold noted; simp only []; split
  · exact ⟨c'.acted, h⟩
  · exact ⟨true, by rw [Dev.coach?_onCoach, h]; rfl⟩

section
variable (f : Nat → Coach → Fields → Dev → Dev) (i : Nat) (c : Coach) (w : Fields) (d : Dev)
/-- Noting that a coach acted leaves `out`. -/
@[simp] theorem noted_out : (noted f i c w d).out = (f i c w d).out := by unfold noted; simp only []; split <;> rfl
/-- Noting that a coach acted leaves `free`. -/
@[simp] theorem noted_free : (noted f i c w d).free = (f i c w d).free := by unfold noted; simp only []; split <;> rfl
/-- Noting that a coach acted leaves `pins`. -/
@[simp] theorem noted_pins : (noted f i c w d).pins = (f i c w d).pins := by unfold noted; simp only []; split <;> rfl
/-- Noting that a coach acted leaves `pfail`. -/
@[simp] theorem noted_pfail : (noted f i c w d).pfail = (f i c w d).pfail := by unfold noted; simp only []; split <;> rfl
/-- Noting that a coach acted leaves `chip`. -/
@[simp] theorem noted_chip : (noted f i c w d).chip = (f i c w d).chip := by unfold noted; simp only []; split <;> rfl
/-- Noting that a coach acted leaves `evt`. -/
@[simp] theorem noted_evt : (noted f i c w d).evt = (f i c w d).evt := by unfold noted; simp only []; split <;> rfl
/-- Noting that a coach acted leaves `wall`. -/
@[simp] theorem noted_wall : (noted f i c w d).wall = (f i c w d).wall := by unfold noted; simp only []; split <;> rfl
/-- Noting that a coach acted leaves `life`. -/
@[simp] theorem noted_life : (noted f i c w d).life = (f i c w d).life := by unfold noted; simp only []; split <;> rfl
/-- Noting that a coach acted leaves `keys`. -/
@[simp] theorem noted_keys : (noted f i c w d).keys = (f i c w d).keys := by unfold noted; simp only []; split <;> rfl
/-- Noting that a coach acted leaves `fw`. -/
@[simp] theorem noted_fw : (noted f i c w d).fw = (f i c w d).fw := by unfold noted; simp only []; split <;> rfl
/-- Noting that a coach acted leaves `store`. -/
@[simp] theorem noted_store : (noted f i c w d).store = (f i c w d).store := by unfold noted; simp only []; split <;> rfl
/-- Noting that a coach acted leaves `net`. -/
@[simp] theorem noted_net : (noted f i c w d).net = (f i c w d).net := by unfold noted; simp only []; split <;> rfl
/-- Noting that a coach acted leaves `pcie`. -/
@[simp] theorem noted_pcie : (noted f i c w d).pcie = (f i c w d).pcie := by unfold noted; simp only []; split <;> rfl
/-- Noting that a coach acted leaves `trained`. -/
@[simp] theorem noted_trained : (noted f i c w d).trained = (f i c w d).trained := by unfold noted; simp only []; split <;> rfl
/-- Noting that a coach acted leaves `nv`. -/
@[simp] theorem noted_nv : (noted f i c w d).nv = (f i c w d).nv := by unfold noted; simp only []; split <;> rfl
end

/-- The coach in a context names it. -/
theorem Dev.coachIn_ctx {d : Dev} {x i : Nat} {c : Coach} (h : d.coachIn x = some (i, c)) : c.ctx = some x := by
  have := List.find?_some h
  simp at this
  exact this.2

/-- The coach in a context runs. -/
theorem Dev.coachIn_stage {d : Dev} {x i : Nat} {c : Coach} (h : d.coachIn x = some (i, c)) : c.stage = .running := by
  have := List.find?_some h
  simp at this
  exact this.1

end Sys2Proof.Machine
end

