-- ==== Sys2Proof/Machine/Codec.lean ====
section
/-!
DEFINITION. Machine/Codec.lean: the media format below the records: where a sector lies on the NAND, slots, scrambling, the LDPC
code, sector tags, the bytes of every kind of record, keystones, geometry and log sectors, and kept mortar (R171, R174 to R197,
R422). `Dev.rawUnit` gives what the pages of a page group hold.
-/
namespace Sys2Proof.Machine

/-! ## Where a sector lies (R171, R174) -/

/-- Slots of a NAND page. -/
def Geometry.spp (g : Geometry) : Nat := g.pageSize / 4096

/-- Logical page of a sector within its page group. -/
def Geometry.logicalPage (g : Geometry) (sector : Nat) : Nat := sector / g.spp

/-- Slot of a sector within its logical page. -/
def Geometry.slotOf (g : Geometry) (sector : Nat) : Nat := sector % g.spp

/-- An ONFI row address. -/
structure RowAddress where
  lun : Nat
  block : Nat
  page : Nat
  deriving DecidableEq, Repr

/-- The row address of the page that holds the sector at an address; its blocks are programmed with `bpc` bits per cell. -/
def Geometry.row (g : Geometry) (bpc a : Nat) : RowAddress :=
  { lun := bits a 34 2, block := bits a 16 16 * g.planes + bits a 32 2, page := pageOf a * bpc + g.logicalPage (a % 16) }

/-- Bytes of a slot with `mb` parity columns. -/
def nandSlot (mb : Nat) : Nat := 4128 + 32 * mb

/-- First byte of slot `t` of a page. -/
def slotStart (mb t : Nat) : Nat := t * nandSlot mb

/-! ## Scrambling (R175) -/

/-- The seed of a sector's stream. -/
def scramblerSeed (block page sector : Nat) : BitVec 23 := BitVec.ofNat 23 (((block * 4096 + page) * 16 + sector) % 8388607 + 1)

/-- The seed for the sector at an address. -/
def seedOf (a : Nat) : BitVec 23 := scramblerSeed (bits a 16 16) (pageOf a) (a % 16)

/-- One step: the output bit, and the register after it. -/
def scramblerStep (x : BitVec 23) : Bool × BitVec 23 :=
  let out := x.getLsbD 22 != x.getLsbD 17
  (out, setBit (x <<< 1) 0 out)

/-- Eight steps: a byte of the stream, bit 0 first. -/
def scramblerByte (x : BitVec 23) : Byte × BitVec 23 :=
  (List.range 8).foldl (fun (b, x) i => let (o, x) := scramblerStep x; (setBit b i o, x)) (0, x)

/-- A string exclusive-ored with the stream. Scrambling and descrambling are one operation. -/
def scramble : BitVec 23 → Bytes → Bytes
  | _, [] => []
  | x, b :: bs => (b ^^^ (scramblerByte x).1) :: scramble (scramblerByte x).2 bs

/-- Zero bits of a byte. -/
def zeroBits (b : Byte) : Nat := ((List.range 8).filter fun i => !b.getLsbD i).length

/-- A slot that was never programmed: at most 64 of its raw bits are zero. -/
def erasedSlot (raw : Bytes) : Bool := decide ((raw.map zeroBits).sum ≤ 64)

/-! ## The LDPC code (R176, R177) -/

/-- A block of 256 bits. -/
abbrev Block := BitVec 256

/-- Block `j` of a codeword: bit i is bit i mod 8 of byte 32 j + i / 8. -/
def blockOf (slot : Bytes) (j : Nat) : Block := BitVec.ofNat 256 (leAt slot (32 * j) 32)

/-- The bytes of a block. -/
def Block.bytes (b : Block) : Bytes := leBytes 32 b.toNat

/-- shift(v, x): w[i] = v[(i + x) mod 256], which is the product of the circulant of shift `x` with `v`. -/
def shiftBlock (v : Block) (x : Nat) : Block := v.rotateRight (x % 256)

/-- Shift of information column `j` in row `r`. -/
def infoShift (j r : Nat) : Nat := (73 * j + 151 * r + j * r) % 256

/-- The rows in which information column `j` is not null. -/
def infoRows (mb j : Nat) : List Nat := [0, 1, 3, 7].map fun d => (j + d) % mb

/-- The base matrix: the shift at a row and column; none for a null entry. -/
def baseEntry (mb row col : Nat) : Option Nat :=
  if col < 129 then (if (infoRows mb col).contains row then some (infoShift col row) else none)
  else if col = 129 then (if row = 0 then some 1 else if row = mb / 2 then some 0 else if row = mb - 1 then some 1 else none)
  else if row + 1 = col - 129 ∨ row = col - 129 then some 0 else none

/-- lam[row]: what the information blocks add up to in a row. -/
def infoSum (mb : Nat) (u : List Block) (row : Nat) : Block :=
  (List.range 129).foldl (fun s j => if (infoRows mb j).contains row then s ^^^ shiftBlock (u.getD j 0) (infoShift j row) else s) 0

/-- Parity blocks from number `k` on, given p[k - 1]. -/
def parityFrom (mb : Nat) (lam : Nat → Block) (p0 : Block) : Nat → Nat → Block → List Block
  | 0, _, _ => []
  | n + 1, k, p =>
    let q := lam k ^^^ p ^^^ (if k = mb / 2 then p0 else 0)
    q :: parityFrom mb lam p0 n (k + 1) q

/-- The parity blocks of the information blocks `u`. -/
def encodeParity (mb : Nat) (u : List Block) : List Block :=
  let sums := (List.range mb).map (infoSum mb u)
  let lam (r : Nat) : Block := sums.getD r 0
  let p0 := sums.foldl (· ^^^ ·) 0
  let p1 := lam 0 ^^^ shiftBlock p0 1
  p0 :: p1 :: parityFrom mb lam p0 (mb - 2) 1 p1

/-- Row `row` of H times a codeword. -/
def syndrome (mb : Nat) (c : List Block) (row : Nat) : Block :=
  (List.range (129 + mb)).foldl (fun s j => match baseEntry mb row j with
    | some x => s ^^^ shiftBlock (c.getD j 0) x
    | none => s) 0

/-- H · c = 0. -/
def isCodeword (mb : Nat) (c : List Block) : Bool := (List.range mb).all fun r => syndrome mb c r == 0

/-- The blocks of a slot. -/
def slotBlocks (mb : Nat) (slot : Bytes) : List Block := (List.range (129 + mb)).map (blockOf slot)

/-- Data and tag of a sector with their parity: the slot before scrambling. -/
def encodeSlot (mb : Nat) (word : Bytes) : Bytes :=
  let u := (List.range 129).map (blockOf word)
  padTo 4128 word ++ (encodeParity mb u).flatMap Block.bytes

/-! ## Sector tags (R179) -/

/-- Sector kinds. -/
inductive SectorKind where
  | record | pad | keystone | geometry | log
  deriving DecidableEq, Repr

/-- Number of a sector kind. -/
def SectorKind.num : SectorKind → Nat
  | .record => 1
  | .pad => 2
  | .keystone => 3
  | .geometry => 4
  | .log => 5

/-- A sector tag without its crc. -/
structure SectorTag where
  wsn : Nat := 0
  ns : Nat := 0
  kind : SectorKind := .record
  kept : Bool := false
  relocated : Bool := false
  fmtgen : Nat := 0
  /-- 0xFF outside the write streams. -/
  stream : Nat := 0xFF
  roffset : Nat := 0
  rspan : Nat := 1
  egen : Nat := 0
  deriving DecidableEq, Repr

/-- Tag bytes 0 to 27. -/
def SectorTag.body (t : SectorTag) : Bytes :=
  leBytes 8 t.wsn ++ leBytes 2 t.ns ++ leBytes 1 t.kind.num ++ leBytes 1 (b2n t.kept + 2 * b2n t.relocated) ++ leBytes 2 t.fmtgen ++
    [1] ++ leBytes 1 t.stream ++ leBytes 4 t.roffset ++ leBytes 4 t.rspan ++ leBytes 4 t.egen

/-- A sector: its 4,096 data bytes and its tag. -/
structure Sector where
  data : Bytes := []
  tag : SectorTag := {}
  deriving DecidableEq, Repr

/-- The 4,128 bytes of a sector that the code protects. -/
def Sector.word (x : Sector) : Bytes :=
  let data := padTo 4096 x.data
  data ++ x.tag.body ++ leBytes 4 (crc32c (data ++ x.tag.body))

/-- The raw bytes of the slot of a sector at address `a` (R174, R175). -/
def Sector.slot (mb a : Nat) (x : Sector) : Bytes := scramble (seedOf a) (encodeSlot mb x.word)

/-- The crc field of a decoded slot's tag matches. -/
def tagGood (slot : Bytes) : Bool := leAt slot 4124 4 == crc32c (slot.take 4124)

/-- A decoded slot is a good sector (R178). -/
def goodSlot (mb : Nat) (slot : Bytes) : Bool := isCodeword mb (slotBlocks mb slot) && tagGood slot

/-- A reader takes a good sector of format generation `fmtgen` and layout 1; every other it ignores (R197). -/
def takenSlot (fmtgen : Nat) (slot : Bytes) : Bool := leAt slot 4108 2 == fmtgen && leAt slot 4110 1 == 1

/-! ## Records (R181 to R191) -/

/-- Numbers of record kinds (R181). -/
def RecKind.num : RecKind → Nat
  | .value => 1
  | .tombstone => 2
  | .setCommit => 3
  | .chunk => 16
  | .manifest => 17
  | .sealRec => 18

/-- Header bytes 0 to 5 of every record. -/
def headCommon (kind : Nat) : Bytes := [0x53, 0x56, 0x52, 0x48, 1] ++ leBytes 1 kind

/-- Header bytes 6 to 487 of a record that is neither a value record nor a tombstone. -/
def Record.headBody (r : Record) : Bytes :=
  match r.kind with
  | .setCommit => leBytes 1 r.members.length ++ [0] ++ leBytes 2 r.ns.toNat ++ zeros 94 ++ leBytes 8 r.setId
  | .chunk => leBytes 1 r.table ++ zeros 9 ++ leBytes 8 r.number ++ leBytes 8 r.ckptGen
  | .manifest => leBytes 1 r.table ++ zeros 9 ++ leBytes 8 r.number ++ leBytes 8 r.ckptGen ++ leBytes 4 r.count
  | .sealRec => leBytes 1 r.body.region ++ zeros 9 ++ leBytes 8 r.ckptGen ++ leBytes 8 r.body.replayWsn ++ leBytes 8 r.body.wsnLimit
  | _ => []

/-- The 512-byte header of a record. -/
def Record.head (r : Record) : Bytes :=
  if r.kind == .value || r.kind == .tombstone then r.header ++ padTo 16 r.tag
  else
    let b := headCommon r.kind.num ++ padTo 482 r.headBody
    b ++ leBytes 4 (crc32c b) ++ zeros 20

/-- An entry of a set commit record (R186). -/
def SetMember.bytes (m : SetMember) : Bytes :=
  leBytes 8 m.wsn ++ leBytes 8 m.fp ++ leBytes 8 m.version ++ leBytes 1 m.kind.num ++ zeros 7

/-- A seal's payload (R191). -/
def SealBody.bytes (b : SealBody) : Bytes :=
  let list (n : Nat) (l : List Nat) : Bytes := padTo (8 * n) (l.flatMap (leBytes 8))
  (List.range 8).flatMap (fun t => let m := b.manifests.getD t []; leBytes 8 m.length ++ list 64 m) ++
    list 64 (b.stripes.map addr64) ++ list 4 (b.fronts.map addr64)

/-- The payload of a record. -/
def Record.content (r : Record) : Bytes :=
  match r.kind with
  | .value => r.payload
  | .tombstone => []
  | .setCommit => r.members.flatMap SetMember.bytes
  | .chunk => chunkBytes r.table r.cells
  | .manifest => (List.range r.count).flatMap fun i => leBytes 8 (r.cells.get 0 i)
  | .sealRec => r.body.bytes

/-- The bytes of a record, zero to the end of its last sector. -/
def Record.bytes (r : Record) : Bytes := padTo (4096 * r.span) (r.head ++ r.content)

/-- Data bytes are a record head: magic, version and CRC are right, and the kind is listed (R181). -/
def isRecordHead (data : Bytes) : Bool :=
  slice data 0 5 == [0x53, 0x56, 0x52, 0x48, 1] && leAt data 488 4 == crc32c (data.take 488) && [1, 2, 3, 16, 17, 18].contains (leAt data 5 1)

/-- Sector `i` of a record. -/
def Record.sector (r : Record) (fmtgen i : Nat) : Sector :=
  { data := slice r.bytes (4096 * i) 4096
    tag := { wsn := r.wsn + i, ns := r.ns.toNat, kind := .record, kept := r.kept, relocated := r.relocated, fmtgen := fmtgen
             stream := r.stream, roffset := i, rspan := r.span, egen := r.egen } }

/-- A pad sector of a stripe. -/
def PadSector.sector (p : PadSector) : Sector :=
  { tag := { wsn := p.wsn, kind := .pad, kept := p.kept, fmtgen := p.fmtgen, stream := p.stream, egen := p.egen } }

/-- A pad sector outside stripes. -/
def padOutside (wsn fmtgen : Nat) : Sector := { tag := { wsn := wsn, kind := .pad, fmtgen := fmtgen } }

/-! ## Keystones and geometry (R193, R195) -/

/-- 4,092 bytes with their CRC. -/
def closed4k (b : Bytes) : Bytes := padTo 4092 b ++ leBytes 4 (crc32c (padTo 4092 b))

/-- A keystone record of region `r`. -/
def Keystone.bytes (r : Nat) (k : Keystone) : Bytes :=
  closed4k ([0x53, 0x4B, 0x59, 0x53, 1] ++ leBytes 1 r ++ leBytes 2 k.fmtgen ++ leBytes 8 k.kseq ++ leBytes 8 (addr64 k.sealAddr) ++
    leBytes 8 (addr64 k.sealPrev) ++ leBytes 8 k.ckptGen ++ leBytes 8 k.wsnLimit ++ leBytes 2 k.res.length ++ zeros 14 ++
    k.res.flatMap fun e => leBytes 2 e.1 ++ zeros 2 ++ leBytes 4 e.2.1.toNat ++ leBytes 8 e.2.2)

/-- The crc of a keystone or geometry record passes. -/
def closedGood (data : Bytes) : Bool := leAt data 4092 4 == crc32c (data.take 4092)

/-- The geometry record of region `r`. -/
def Geometry.bytes (r : Nat) (g : Geometry) : Bytes :=
  closed4k ([0x53, 0x4B, 0x47, 0x52, 1] ++ leBytes 1 r ++ leBytes 2 g.fmtgen ++ leBytes 8 g.deviceId.toNat ++ leBytes 8 g.fmtTime ++
    leBytes 8 g.wsnBase ++ leBytes 1 g.bpc ++ leBytes 1 g.spg ++ leBytes 1 g.mb ++ leBytes 1 g.planes ++ leBytes 1 g.ces ++
    leBytes 1 g.luns ++ leBytes 2 g.pageSize ++ leBytes 2 g.spareSize ++ leBytes 2 g.ppb ++ leBytes 4 g.bpp ++
    leBytes 16 g.chanMask.toNat ++ leBytes 1 g.k ++ leBytes 1 g.nclk ++ zeros 2 ++ leBytes 4 g.overflow ++ leBytes 4 g.pbufMib ++
    zeros 4 ++ padTo 16 g.s1 ++ padTo 16 g.s2 ++ padTo 40 g.tokenWrapped ++ zeros 8 ++ leBytes 8 g.keystoneA ++ leBytes 8 g.keystoneB ++
    leBytes 1 g.logBpc ++ zeros 79 ++ g.logBlocks.flatMap fun e => leBytes 8 e.1 ++ leBytes 8 e.2)

/-- Sector `i` of the page group of a keystone. -/
def Keystone.sector (r : Nat) (k : Keystone) (i : Nat) : Sector :=
  if i = 0 then { data := k.bytes r, tag := { wsn := k.wsn, kind := .keystone, fmtgen := k.fmtgen } } else padOutside (k.wsn + i) k.fmtgen

/-- Sector `i` of the page group of a geometry copy. -/
def Geometry.sector (r wsn : Nat) (g : Geometry) (i : Nat) : Sector :=
  if i = 0 then { data := g.bytes r, tag := { wsn := wsn, kind := .geometry, fmtgen := g.fmtgen } } else padOutside (wsn + i) g.fmtgen

/-! ## Log sectors (R196, R422) -/

/-- An event slot. -/
def EventRec.slot (e : EventRec) : Bytes := [0x45, 0x56, 0, 0] ++ leBytes 4 (crc32c (e.bytes.take 62)) ++ e.bytes

/-- The data bytes of an event sector: `copy` is true of the mirror. -/
def eventSector (area entry : Nat) (copy : Bool) (pass : Nat) (recs : List EventRec) : Bytes :=
  let h := [0x53, 0x4B, 0x45, 0x4C, 1] ++ leBytes 1 area ++ leBytes 1 entry ++ leBytes 1 (b2n copy) ++ leBytes 8 pass ++
    leBytes 8 ((recs.head?.map (·.seq)).getD 0) ++ leBytes 1 recs.length ++ zeros 35
  padTo 4096 (h ++ leBytes 4 (crc32c h) ++ recs.flatMap EventRec.slot)

/-- Sector `i` of records that fill 56 slots a sector from number `wsn` on. -/
def logSector (area entry : Nat) (copy : Bool) (pass wsn fmtgen : Nat) (recs : List EventRec) (i : Nat) : Sector :=
  { data := eventSector area entry copy pass ((recs.drop (56 * i)).take 56), tag := { wsn := wsn + i, kind := .log, fmtgen := fmtgen } }

/-! ## What the media holds at an address -/

/-- A record sector: records of the format in force that are programmed whole. -/
def Dev.recordSector (d : Dev) (a : Nat) : Option Sector :=
  let st := d.stripe (stripeOf a)
  let n := st.placeOf d.geom a
  (d.nv.flash.find? fun e => stripeOf e.1 == stripeOf a && e.2.fmtgen == d.geom.fmtgen && decide (e.2.rec_.span ≤ e.2.have_) &&
      decide (st.placeOf d.geom e.1 ≤ n) && decide (n < st.placeOf d.geom e.1 + e.2.rec_.span)).map fun e =>
    e.2.rec_.sector e.2.fmtgen (n - st.placeOf d.geom e.1)

/-- A pad sector of a stripe. -/
def Dev.padSector (d : Dev) (a : Nat) : Option Sector := (d.nv.pads.get? a).map PadSector.sector

/-- Address of block 0 of plane 0 of the geometry dies of region `r`. -/
def geometryAt (r copy : Nat) : Nat := mkAddr (r * 2 ^ 22) copy 0 0

/-- A sector of a keystone block or of a geometry block. -/
def Dev.systemSector (d : Dev) (a : Nat) : Option Sector :=
  let r := regionOfAddr a
  let m := d.media r
  let i := a % 16
  let key (b : Nat) : Option Sector := (m.keystones.find? fun k => k.block == b && d.keystoneAddr r b + k.page * 16 == a - i).map fun k =>
    k.sector r i
  if a - i = geometryAt r 0 then m.copyA.map fun g => g.sector r m.geomWsn.1 i
  else if a - i = geometryAt r 1 then m.copyB.map fun g => g.sector r m.geomWsn.2 i
  else (key 0).or (key 1)

/-- The log entry and copy whose block an address lies in. -/
def Dev.logBlockAt (d : Dev) (a : Nat) : Option (Nat × Bool) :=
  let b := addr64 (mkAddr (stripeOf a) (channelOf a) 0 0)
  ((List.range 64).zip d.geom.logBlocks).findSome? fun e =>
    if e.2.1 = b ∧ b ≠ 0 then some (e.1, false) else if e.2.2 = b ∧ b ≠ 0 then some (e.1, true) else none

/-- A sector of the log. Its tag shows the format generation in force: the log does not keep the one under which it was written.
DESIGN CHOICE (log entry 39). -/
def Dev.logSectorAt (d : Dev) (a : Nat) : Option Sector :=
  match d.logBlockAt a with
  | none => none
  | some (0, copy) =>
    let i := pageOf a * d.logSpg + a % 16
    if d.nv.log.entryZero ∧ i < d.zeroSectors then
      some (logSector 0 0 copy 0 (if copy then d.nv.log.zeroWsn.2 else d.nv.log.zeroWsn.1) d.geom.fmtgen (d.nv.log.foundation.take 16384) i)
    else none
  | some (e, copy) =>
    let x := d.nv.log.entry e
    (x.groups[pageOf a]?).bind fun g =>
      if (if copy then g.mirror else g.primary) then
        some (logSector 1 e copy x.pass (if copy then g.wsn.2 else g.wsn.1) d.geom.fmtgen g.recs (a % 16))
      else none

/-- The sector at an address, as it was programmed. -/
def Dev.sectorAt (d : Dev) (a : Nat) : Option Sector :=
  if (d.logBlockAt a).isSome then d.logSectorAt a else (d.systemSector a).or ((d.recordSector a).or (d.padSector a))

/-- The raw bytes of a slot; 0xFF throughout where it was never programmed. -/
def Dev.rawSlot (d : Dev) (a : Nat) : Bytes :=
  match d.sectorAt a with
  | some x => x.slot d.geom.mb a
  | none => List.replicate (nandSlot d.geom.mb) 0xFF

/-- A logical page: its slots, and 0xFF to the end of the spare area (R174). -/
def Dev.rawPage (d : Dev) (s c p l : Nat) : Bytes :=
  let g := d.geom
  let body := (List.range g.spp).flatMap fun t => d.rawSlot (mkAddr s c p (l * g.spp + t))
  body ++ List.replicate (g.pageSize + g.spareSize - body.length) 0xFF

/-- A page group of data: every logical page of it. -/
def Dev.dataUnit (d : Dev) (s c p : Nat) : Bytes := (List.range d.geom.bpc).flatMap (d.rawPage s c p)

/-- Exclusive or of units. -/
def xorUnits : List Bytes → Bytes
  | [] => []
  | [u] => u
  | u :: us => xorMask u (xorUnits us)

/-- A page group of a stripe as the media holds it: in a kept-mortar stripe the mortar unit of course `p` is the XOR of the other
present units, and is neither scrambled nor encoded again (R188, R203). -/
def Dev.rawUnit (d : Dev) (s c p : Nat) : Bytes :=
  let st := d.stripe s
  if st.kept ∧ c = st.mortar p then xorUnits ((st.data p).map fun c => d.dataUnit s c p) else d.dataUnit s c p

/-- A lost data unit, rebuilt from the mortar unit and the other data units of its course (R188). -/
def Dev.rebuildUnit (d : Dev) (s c p : Nat) : Bytes :=
  let st := d.stripe s
  xorUnits (d.rawUnit s (st.mortar p) p :: ((st.data p).filter (· != c)).map fun c => d.dataUnit s c p)

end Sys2Proof.Machine
end

