-- ==== Sys2Proof/Laws/Codec.lean ====
section
/-!
SUPPORT. Laws/Codec.lean: what the media gives back of what was programmed: descrambling undoes scrambling, and a slot has the
length and the tag of its sector, and its blocks are a codeword (R174 to R179).
-/
namespace Sys2Proof.Machine

/-- Scrambling twice with one seed gives the string back. -/
@[simp] theorem scramble_scramble (b : Bytes) (x : BitVec 23) : scramble x (scramble x b) = b := by
  induction b generalizing x with
  | nil => rfl
  | cons a b ih => simp [scramble, ih, BitVec.xor_assoc]

@[simp] theorem scramble_length (b : Bytes) (x : BitVec 23) : (scramble x b).length = b.length := by
  induction b generalizing x with
  | nil => rfl
  | cons a b ih => simp [scramble, ih]

@[simp] theorem leBytes_length (n v : Nat) : (leBytes n v).length = n := by
  induction n generalizing v with
  | zero => rfl
  | succ n ih => simp [leBytes, ih]

@[simp] theorem padTo_length (n : Nat) (b : Bytes) : (padTo n b).length = n := by simp [padTo, zeros]; omega

/-- A little-endian field reads back. -/
theorem leNat_leBytes (n v : Nat) : leNat (leBytes n v) = v % 256 ^ n := by
  induction n generalizing v with
  | zero => simp [leBytes, leNat, Nat.mod_one]
  | succ n ih => rw [Nat.pow_succ', Nat.mod_mul]; simp [leBytes, leNat, ih]

/-- Steps of a reflected CRC register keep its width. -/
theorem crcByte_lt {poly : Nat} (hp : poly < 2 ^ 32) (k r : Nat) (h : r < 2 ^ 32) : crcByte poly k r < 2 ^ 32 := by
  induction k generalizing r with
  | zero => exact h
  | succ k ih =>
    unfold crcByte
    refine ih _ ?_
    have hr : r / 2 < 2 ^ 32 := by omega
    split
    · exact Nat.xor_lt_two_pow hr hp
    · exact hr

/-- A CRC-32C has 32 bits. -/
theorem crc32c_lt (bs : Bytes) : crc32c bs < 2 ^ 32 := by
  have step : ∀ (l : Bytes) (r : Nat), r < 2 ^ 32 → l.foldl (fun r b => crcByte 0x82F63B78 8 (r ^^^ b.toNat)) r < 2 ^ 32 := by
    intro l
    induction l with
    | nil => exact fun _ h => h
    | cons b l ih => exact fun r h => ih _ (crcByte_lt (by decide) _ _ (Nat.xor_lt_two_pow h (by have := b.isLt; omega)))
  exact Nat.xor_lt_two_pow (step bs _ (by decide)) (by decide)

/-- A sector's word: 4,096 data bytes and 32 bytes of tag. -/
@[simp] theorem Sector.word_length (x : Sector) : x.word.length = 4128 := by simp [Sector.word, SectorTag.body]

/-- What a reader descrambles is what was encoded. -/
theorem Sector.slot_descrambled (mb a : Nat) (x : Sector) : scramble (seedOf a) (x.slot mb a) = encodeSlot mb x.word := by
  simp [Sector.slot]

/-- The first 4,128 bytes of an encoded slot are the sector's word. -/
theorem encodeSlot_word (mb : Nat) (x : Sector) : (encodeSlot mb x.word).take 4128 = x.word := by
  have h : padTo 4128 x.word = x.word := by simp [padTo, zeros, List.take_of_length_le]
  simp [encodeSlot, h]

/-- The tag of a sector as it was programmed is good. -/
theorem Sector.word_tagGood (x : Sector) : tagGood x.word = true := by
  have h : (padTo 4096 x.data ++ x.tag.body).length = 4124 := by simp [SectorTag.body]
  have e : x.word = (padTo 4096 x.data ++ x.tag.body) ++ leBytes 4 (crc32c (padTo 4096 x.data ++ x.tag.body)) := rfl
  have k := crc32c_lt (padTo 4096 x.data ++ x.tag.body)
  rw [tagGood, leAt, slice, e, List.drop_left' h, List.take_left' h, List.take_of_length_le (by simp), leNat_leBytes,
    Nat.mod_eq_of_lt (by simpa using k), beq_self_eq_true]

/-! ## Parity checks -/

/-- Exclusive or of `f 0` to `f (n - 1)`. -/
def xorTo (f : Nat → Block) : Nat → Block
  | 0 => 0
  | n + 1 => xorTo f n ^^^ f n

theorem xorTo_eq_foldl (f : Nat → Block) (n : Nat) : (List.range n).foldl (fun s j => s ^^^ f j) 0 = xorTo f n := by
  induction n with
  | zero => rfl
  | succ n ih => rw [List.range_succ, List.foldl_append, ih]; rfl

theorem xorTo_congr {f g : Nat → Block} {n : Nat} (h : ∀ j, j < n → f j = g j) : xorTo f n = xorTo g n := by
  induction n with
  | zero => rfl
  | succ n ih => rw [xorTo, xorTo, ih fun j hj => h j (by omega), h n (by omega)]

theorem xorTo_add (f : Nat → Block) (m n : Nat) : xorTo f (m + n) = xorTo f m ^^^ xorTo (fun k => f (m + k)) n := by
  induction n with
  | zero => simp [xorTo]
  | succ n ih => rw [← Nat.add_assoc, xorTo, ih, xorTo, BitVec.xor_assoc]

/-- Only terms `a` and `b` differ from zero. -/
theorem xorTo_two {f : Nat → Block} {a : Nat} (h : ∀ j, j ≠ a → j ≠ a + 1 → f j = 0) (n : Nat) :
    xorTo f n = (if a < n then f a else 0) ^^^ (if a + 1 < n then f (a + 1) else 0) := by
  induction n with
  | zero => simp [xorTo]
  | succ n ih =>
    rw [xorTo, ih]
    by_cases ha : n = a
    · subst ha; simp [show ¬ n + 1 < n by omega]
    · by_cases hb : n = a + 1
      · subst hb; simp <;> omega
      · rw [h n ha hb]
        have e1 : (a < n + 1) = (a < n) := by simp; omega
        have e2 : (a + 1 < n + 1) = (a + 1 < n) := by simp; omega
        simp [e1, e2]

/-- Term `j` of row `row` of a parity check. -/
def checkTerm (mb row : Nat) (c : List Block) (j : Nat) : Block :=
  match baseEntry mb row j with
  | some x => shiftBlock (c.getD j 0) x
  | none => 0

theorem syndrome_eq (mb row : Nat) (c : List Block) : syndrome mb c row = xorTo (checkTerm mb row c) (129 + mb) := by
  rw [← xorTo_eq_foldl]
  unfold syndrome checkTerm
  congr 1
  funext s j
  cases baseEntry mb row j <;> simp

theorem infoSum_eq (mb row : Nat) (u c : List Block) (h : ∀ j, j < 129 → c.getD j 0 = u.getD j 0) :
    infoSum mb u row = xorTo (checkTerm mb row c) 129 := by
  rw [← xorTo_eq_foldl]
  unfold infoSum
  have : ∀ (l : List Nat) (s : Block), (∀ j ∈ l, j < 129) →
      l.foldl (fun s j => if (infoRows mb j).contains row then s ^^^ shiftBlock (u.getD j 0) (infoShift j row) else s) s =
      l.foldl (fun s j => s ^^^ checkTerm mb row c j) s := by
    intro l
    induction l with
    | nil => intros; rfl
    | cons j l ih =>
      intro s hl
      have hj : j < 129 := hl j (by simp)
      rw [List.foldl_cons, List.foldl_cons, ih _ fun k hk => hl k (by simp [hk])]
      congr 1
      unfold checkTerm baseEntry
      rw [if_pos hj, h j hj]
      split <;> simp
  exact this _ _ fun j hj => List.mem_range.1 hj

/-! ## The parity blocks -/

theorem parityFrom_length (mb : Nat) (lam : Nat → Block) (p0 : Block) (n k : Nat) (p : Block) :
    (parityFrom mb lam p0 n k p).length = n := by
  induction n generalizing k p with
  | zero => rfl
  | succ n ih => simp [parityFrom, ih]

/-- Each parity block from its predecessor. -/
theorem parityFrom_getD (mb : Nat) (lam : Nat → Block) (p0 : Block) (n k : Nat) (p : Block) (i : Nat) (h : i < n) :
    (p :: parityFrom mb lam p0 n k p).getD (i + 1) 0 =
      lam (k + i) ^^^ (p :: parityFrom mb lam p0 n k p).getD i 0 ^^^ (if k + i = mb / 2 then p0 else 0) := by
  induction n generalizing k p i with
  | zero => omega
  | succ n ih =>
    cases i with
    | zero => simp [parityFrom]
    | succ i =>
      have := ih (k + 1) (lam k ^^^ p ^^^ if k = mb / 2 then p0 else 0) i (by omega)
      simp only [parityFrom, List.getD_cons_succ] at this ⊢
      rw [this, show k + 1 + i = k + (i + 1) by omega]

/-- lam of an information word. -/
theorem foldl_xor_map (f : Nat → Block) (n : Nat) : ((List.range n).map f).foldl (· ^^^ ·) 0 = xorTo f n := by
  rw [← xorTo_eq_foldl, List.foldl_map]

theorem encodeParity_length {mb : Nat} (h : 2 ≤ mb) (u : List Block) : (encodeParity mb u).length = mb := by
  simp [encodeParity, parityFrom_length]; omega

theorem encodeParity_zero (mb : Nat) (u : List Block) : (encodeParity mb u).getD 0 0 = xorTo (infoSum mb u) mb := by
  simp only [encodeParity, List.getD_cons_zero, foldl_xor_map]

theorem encodeParity_one {mb : Nat} (h : 0 < mb) (u : List Block) :
    (encodeParity mb u).getD 1 0 = infoSum mb u 0 ^^^ shiftBlock ((encodeParity mb u).getD 0 0) 1 := by
  simp [encodeParity, h]

theorem encodeParity_succ {mb k : Nat} (h1 : 1 ≤ k) (h2 : k + 1 < mb) (u : List Block) :
    (encodeParity mb u).getD (k + 1) 0 = infoSum mb u k ^^^ (encodeParity mb u).getD k 0 ^^^
      (if k = mb / 2 then (encodeParity mb u).getD 0 0 else 0) := by
  obtain ⟨j, rfl⟩ : ∃ j, k = j + 1 := ⟨k - 1, by omega⟩
  have := parityFrom_getD mb (fun r => ((List.range mb).map (infoSum mb u)).getD r 0)
    (((List.range mb).map (infoSum mb u)).foldl (· ^^^ ·) 0) (mb - 2) 1
    (((List.range mb).map (infoSum mb u)).getD 0 0 ^^^ shiftBlock (((List.range mb).map (infoSum mb u)).foldl (· ^^^ ·) 0) 1)
    j (by omega)
  have e : ((List.range mb).map (infoSum mb u)).getD (1 + j) 0 = infoSum mb u (j + 1) := by
    rw [Nat.add_comm]; simp [show j + 1 < mb by omega]
  simp only [e] at this
  simp only [encodeParity, List.getD_cons_succ, List.getD_cons_zero] at this ⊢
  rw [this, Nat.add_comm 1 j]

/-- A parity block as the sum of what lies above it. -/
theorem encodeParity_sum {mb k : Nat} (h1 : 1 ≤ k) (h2 : k < mb) (u : List Block) :
    (encodeParity mb u).getD k 0 = xorTo (infoSum mb u) k ^^^ shiftBlock ((encodeParity mb u).getD 0 0) 1 ^^^
      (if mb / 2 < k then (encodeParity mb u).getD 0 0 else 0) := by
  induction k with
  | zero => omega
  | succ k ih =>
    rcases Nat.eq_zero_or_pos k with rfl | hk
    · rw [encodeParity_one (by omega)]
      simp [xorTo, show ¬ mb / 2 < 1 by omega]
    · rw [encodeParity_succ hk h2, ih hk (by omega), xorTo]
      rcases Nat.lt_trichotomy (mb / 2) k with h | h | h
      · simp [h, show k ≠ mb / 2 by omega, show mb / 2 < k + 1 by omega]; ac_rfl
      · subst h; simp; ac_rfl
      · simp [show ¬ mb / 2 < k by omega, show k ≠ mb / 2 by omega, show ¬ mb / 2 < k + 1 by omega]; ac_rfl

/-! ## Codewords -/

@[simp] theorem shiftBlock_zero (v : Block) : shiftBlock v 0 = v := by
  apply BitVec.eq_of_getLsbD_eq
  intro i hi
  simp [shiftBlock, hi]

/-- The parity part of a check: blocks `row` and `row` + 1 of the staircase, and column 129. -/
theorem parity_terms {mb row : Nat} (h : 3 ≤ mb) (hr : row < mb) (u c : List Block)
    (hc : ∀ k, k < mb → c.getD (129 + k) 0 = (encodeParity mb u).getD k 0) :
    xorTo (fun k => checkTerm mb row c (129 + k)) mb =
      (if row = 0 then shiftBlock ((encodeParity mb u).getD 0 0) 1 else if row = mb / 2 then (encodeParity mb u).getD 0 0
        else if row = mb - 1 then shiftBlock ((encodeParity mb u).getD 0 0) 1 else 0) ^^^
      (if row = 0 then 0 else (encodeParity mb u).getD row 0) ^^^
      (if row + 1 < mb then (encodeParity mb u).getD (row + 1) 0 else 0) := by
  have h0 : checkTerm mb row c (129 + 0) =
      (if row = 0 then shiftBlock ((encodeParity mb u).getD 0 0) 1 else if row = mb / 2 then (encodeParity mb u).getD 0 0
        else if row = mb - 1 then shiftBlock ((encodeParity mb u).getD 0 0) 1 else 0) := by
    have e := hc 0 (by omega)
    simp only [Nat.add_zero] at e
    simp only [checkTerm, baseEntry, Nat.add_zero, e, show ¬ (129 < 129) by omega, if_false, if_true]
    by_cases r0 : row = 0
    · simp only [if_pos r0]
    · by_cases r1 : row = mb / 2
      · simp only [if_neg r0, if_pos r1, shiftBlock_zero]
      · by_cases r2 : row = mb - 1
        · simp only [if_neg r0, if_neg r1, if_pos r2]
        · simp only [if_neg r0, if_neg r1, if_neg r2]
  have hk : ∀ k, 1 ≤ k → k < mb → checkTerm mb row c (129 + k) =
      if row + 1 = k ∨ row = k then (encodeParity mb u).getD k 0 else 0 := by
    intro k k1 k2
    simp only [checkTerm, baseEntry, show ¬ (129 + k < 129) by omega, show ¬ (129 + k = 129) by omega, if_false,
      show 129 + k - 129 = k by omega, hc k k2]
    by_cases e : row + 1 = k ∨ row = k
    · simp only [if_pos e, shiftBlock_zero]
    · simp only [if_neg e]
  obtain ⟨m, rfl⟩ : ∃ m, mb = 1 + m := ⟨mb - 1, by omega⟩
  rw [xorTo_add, show xorTo (fun k => checkTerm (1 + m) row c (129 + k)) 1 = checkTerm (1 + m) row c (129 + 0) by simp [xorTo], h0,
    BitVec.xor_assoc]
  congr 1
  rw [xorTo_congr (g := fun k => if row + 1 = 1 + k ∨ row = 1 + k then (encodeParity (1 + m) u).getD (1 + k) 0 else 0)
    fun k k2 => hk (1 + k) (by omega) (by omega)]
  rcases Nat.eq_zero_or_pos row with rfl | hp
  · rw [xorTo_two (a := 0)]
    · simp [show 0 < m by omega]
    · intro j j1 j2; simp; omega
  · rw [xorTo_two (a := row - 1)]
    · have e1 : 1 + (row - 1) = row := by omega
      have e2 : row - 1 + 1 = row := by omega
      have e3 : (row < m) = (row + 1 < 1 + m) := propext (by omega)
      simp only [e1, e2, Nat.add_comm 1 row, or_true, true_or, if_true, e3]
      rw [if_pos (show row - 1 < m by omega), if_neg (show row ≠ 0 by omega)]
    · intro j j1 j2
      rw [if_neg (by omega)]

/-- H · c = 0 for an information word with its parity (R177). -/
theorem encodeParity_isCodeword {mb : Nat} (h : 3 ≤ mb) (u c : List Block) (hu : ∀ j, j < 129 → c.getD j 0 = u.getD j 0)
    (hc : ∀ k, k < mb → c.getD (129 + k) 0 = (encodeParity mb u).getD k 0) : isCodeword mb c = true := by
  unfold isCodeword
  simp only [List.all_eq_true, List.mem_range, beq_iff_eq]
  intro row hr
  rw [syndrome_eq, xorTo_add, ← infoSum_eq mb row u c hu, parity_terms h hr u c hc]
  rcases Nat.eq_zero_or_pos row with rfl | hp
  · rw [if_pos rfl, if_pos rfl, if_pos (by omega), encodeParity_one (by omega)]
    generalize infoSum mb u 0 = a
    generalize shiftBlock ((encodeParity mb u).getD 0 0) 1 = q
    rw [show a ^^^ (q ^^^ 0 ^^^ (a ^^^ q)) = (a ^^^ a) ^^^ (q ^^^ q) ^^^ 0 by ac_rfl]; simp
  · have r0 : row ≠ 0 := by omega
    by_cases e : row + 1 < mb
    · rw [if_neg r0, if_neg r0, if_pos e, encodeParity_succ hp e]
      by_cases r1 : row = mb / 2
      · rw [if_pos r1, if_pos r1]
        generalize infoSum mb u row = a
        generalize (encodeParity mb u).getD row 0 = b
        generalize (encodeParity mb u).getD 0 0 = p
        rw [show a ^^^ (p ^^^ b ^^^ (a ^^^ b ^^^ p)) = (a ^^^ a) ^^^ (b ^^^ b) ^^^ (p ^^^ p) by ac_rfl]; simp
      · rw [if_neg r1, if_neg r1, if_neg (show row ≠ mb - 1 by omega)]
        generalize infoSum mb u row = a
        generalize (encodeParity mb u).getD row 0 = b
        rw [show a ^^^ (0 ^^^ b ^^^ (a ^^^ b ^^^ 0)) = (a ^^^ a) ^^^ (b ^^^ b) ^^^ (0 ^^^ 0) by ac_rfl]; simp
    · have hm : row = mb - 1 := by omega
      have hs := encodeParity_sum hp hr u
      rw [if_pos (by omega)] at hs
      have hz := encodeParity_zero mb u
      obtain ⟨m, rfl⟩ : ∃ m, mb = m + 1 := ⟨mb - 1, by omega⟩
      obtain rfl : row = m := by omega
      rw [xorTo] at hz
      rw [if_neg r0, if_neg r0, if_neg e, if_neg (show row ≠ (row + 1) / 2 by omega), if_pos (by omega), hs]
      generalize shiftBlock ((encodeParity (row + 1) u).getD 0 0) 1 = q
      rw [hz]
      generalize infoSum (row + 1) u row = a
      generalize xorTo (infoSum (row + 1) u) row = b
      rw [show a ^^^ (q ^^^ (b ^^^ q ^^^ (b ^^^ a)) ^^^ 0) = (a ^^^ a) ^^^ (b ^^^ b) ^^^ (q ^^^ q) ^^^ 0 by ac_rfl]; simp

/-! ## Slots -/

/-- Block `k` of the bytes of a list of blocks. -/
theorem blocks_slice (l : List Block) (k : Nat) (h : k < l.length) :
    slice (l.flatMap Block.bytes) (32 * k) 32 = (l.getD k 0).bytes := by
  induction l generalizing k with
  | nil => simp at h
  | cons b l ih =>
    have hb : b.bytes.length = 32 := by simp [Block.bytes]
    cases k with
    | zero => simp [slice, List.take_append_of_le_length (show 32 ≤ b.bytes.length by omega), List.take_of_length_le (Nat.le_of_eq hb)]
    | succ k =>
      rw [List.getD_cons_succ, ← ih k (by simpa using h)]
      simp only [slice, List.flatMap_cons]
      rw [show 32 * (k + 1) = b.bytes.length + 32 * k by omega, List.drop_append, List.drop_of_length_le (by omega)]
      simp

/-- A block reads back from its bytes. -/
theorem block_bytes (b : Block) : BitVec.ofNat 256 (leNat b.bytes) = b := by
  rw [Block.bytes, leNat_leBytes, show (256 : Nat) ^ 32 = 2 ^ 256 by decide, Nat.mod_eq_of_lt b.isLt]
  exact BitVec.eq_of_toNat_eq (by rw [BitVec.toNat_ofNat, Nat.mod_eq_of_lt b.isLt])

/-- The blocks of a slot are the information blocks and their parity. -/
theorem slotBlocks_getD (mb : Nat) (slot : Bytes) (j : Nat) (h : j < 129 + mb) : (slotBlocks mb slot).getD j 0 = blockOf slot j := by
  simp [slotBlocks, h]

/-- What is programmed in a slot is a codeword with a good tag (R177 to R179). -/
theorem encodeSlot_good {mb : Nat} (h : 3 ≤ mb) (x : Sector) : goodSlot mb (encodeSlot mb x.word) = true := by
  have hw : padTo 4128 x.word = x.word := by simp [padTo, zeros, List.take_of_length_le]
  have e : encodeSlot mb x.word =
      x.word ++ (encodeParity mb ((List.range 129).map (blockOf x.word))).flatMap Block.bytes := by rw [encodeSlot, hw]
  have lp := encodeParity_length (show 2 ≤ mb by omega) ((List.range 129).map (blockOf x.word))
  have cw : isCodeword mb (slotBlocks mb (encodeSlot mb x.word)) = true := by
    refine encodeParity_isCodeword h ((List.range 129).map (blockOf x.word)) _ (fun j hj => ?_) fun k hk => ?_
    · rw [slotBlocks_getD _ _ _ (by omega)]
      simp only [blockOf, leAt, slice, e]
      rw [List.drop_append_of_le_length (by simp; omega), List.take_append_of_le_length (by simp; omega)]
      simp [hj, blockOf, leAt, slice]
    · rw [slotBlocks_getD _ _ _ (by omega)]
      simp only [blockOf, leAt, slice, e]
      rw [show 32 * (129 + k) = x.word.length + 32 * k by simp; omega, List.drop_append]
      simp only [List.drop_of_length_le (show x.word.length ≤ x.word.length + 32 * k by omega), List.nil_append,
        show x.word.length + 32 * k - x.word.length = 32 * k by omega]
      have := blocks_slice _ k (by rw [lp]; exact hk)
      rw [slice] at this
      rw [this, block_bytes]
  have tg : tagGood (encodeSlot mb x.word) = true := by
    have t := x.word_tagGood
    unfold tagGood leAt slice at t ⊢
    rw [e, List.take_append_of_le_length (by simp), List.drop_append_of_le_length (by simp),
      List.take_append_of_le_length (by simp)]
    exact t
  rw [goodSlot, cw, tg]; rfl

/-- A reader that descrambles a slot as it was programmed finds a good sector with its data (R175 to R178). -/
theorem Sector.slot_reads {mb : Nat} (h : 3 ≤ mb) (a : Nat) (x : Sector) :
    goodSlot mb (scramble (seedOf a) (x.slot mb a)) = true ∧
      (scramble (seedOf a) (x.slot mb a)).take 4128 = x.word := by
  rw [Sector.slot_descrambled]
  exact ⟨encodeSlot_good h x, encodeSlot_word mb x⟩

end Sys2Proof.Machine
end

