-- ==== Sys2Proof/Laws/FrameKeys.lean ====
section
/-!
SUPPORT. Laws/FrameKeys.lean: what the instructions on keys, sets and rows may change, over the frame laws of the operations
that they use.
-/
namespace Sys2Proof.Machine

section
variable {T : Groups}

/-- Checks 1 to 3 of R89 and the sub-request keep what the instruction keeps. -/
theorem keyed_mask (_store : T.store = true) (_eng : T.eng = true) {f : Nat → Nat → KeyEffect}
    (hf : ∀ h p bd rd a i c w d, (f h p bd rd a i c w d).mask T = d.mask T) (bd rd a i c w) (d : Dev) :
    (keyed f bd rd a i c w d).mask T = d.mask T := by
  unfold keyed
  simp only []
  (repeat' split) <;> simp [*]

/-- Check 5 of R89 and the wait of R58 keep what the update keeps. -/
theorem updating_mask (_eng : T.eng = true) {f : Nat → Nat → KeyEffect}
    (hf : ∀ h p bd rd a i c w d, (f h p bd rd a i c w d).mask T = d.mask T) (h p bd rd a i c w) (d : Dev) :
    (updating f h p bd rd a i c w d).mask T = d.mask T := by
  unfold updating
  simp only []
  (repeat' split) <;> simp [*]

/-- What GET and GETR may change. -/
theorem getCore_mask (_evt : T.evt = true) (_life : T.life = true) (_store : T.store = true) (_eng : T.eng = true)
    (b h p bd rd a i c w) (d : Dev) : (getCore b h p bd rd a i c w d).mask T = d.mask T := by
  unfold getCore
  simp only []
  (repeat' split) <;> simp [*]

/-- What HEAD may change. -/
theorem headCore_mask (_store : T.store = true) (_eng : T.eng = true)
    (h p bd rd a i c w) (d : Dev) : (headCore h p bd rd a i c w d).mask T = d.mask T := by
  unfold headCore
  simp only []
  (repeat' split) <;> simp [*]

/-- What VERIFY may change. -/
theorem verifyCore_mask (_evt : T.evt = true) (_life : T.life = true) (_store : T.store = true) (_eng : T.eng = true)
    (h p bd rd a i c w) (d : Dev) : (verifyCore h p bd rd a i c w d).mask T = d.mask T := by
  unfold verifyCore
  simp only []
  (repeat' split) <;> simp [*]

/-- What TOKEN may change. -/
theorem tokenCore_mask (_store : T.store = true) (_eng : T.eng = true)
    (h p bd rd a i c w) (d : Dev) : (tokenCore h p bd rd a i c w d).mask T = d.mask T := by
  unfold tokenCore
  simp only []
  (repeat' split) <;> simp [*]

/-- What USETOK may change. -/
theorem usetokCore_mask (_evt : T.evt = true) (_life : T.life = true) (_store : T.store = true) (_eng : T.eng = true)
    (h p bd rd a i c w) (d : Dev) : (usetokCore h p bd rd a i c w d).mask T = d.mask T := by
  unfold usetokCore
  extract_lets ns key off invalid
  have hi : ∀ e : Dev, (invalid e).mask T = e.mask T := fun e => by simp [invalid, *]
  split
  · simp [*]
  rename_i t k current l pend del _
  have hc : ∀ x (e : Dev), (current x e).mask T = e.mask T := fun x e => by
    simp only [current]
    (repeat' split) <;> simp [*]
  clear_value current invalid
  (repeat' split) <;> simp [*]

/-- What PUT may change. -/
theorem putCore_mask (_evt : T.evt = true) (_life : T.life = true) (_keys : T.keys = true) (_store : T.store = true)
    (_eng : T.eng = true) (_nv : T.nv = true)
    (h p bd rd a i c w) (d : Dev) : (putCore h p bd rd a i c w d).mask T = d.mask T := by
  unfold putCore
  simp only []
  split
  · simp [*]
  · exact updating_mask _eng (fun _ _ _ _ _ _ _ _ _ => by simp [*]) _ _ _ _ _ _ _ _ _

/-- What APPEND may change. -/
theorem appendCore_mask (_evt : T.evt = true) (_life : T.life = true) (_keys : T.keys = true) (_store : T.store = true)
    (_eng : T.eng = true) (_nv : T.nv = true)
    (h p bd rd a i c w) (d : Dev) : (appendCore h p bd rd a i c w d).mask T = d.mask T := by
  unfold appendCore
  simp only []
  split
  · simp [*]
  · refine updating_mask _eng (fun _ _ _ _ _ _ _ _ _ => ?_) _ _ _ _ _ _ _ _ _
    (repeat' split) <;> simp [*]

/-- What DEL may change. -/
theorem delCore_mask (_evt : T.evt = true) (_life : T.life = true) (_store : T.store = true) (_eng : T.eng = true)
    (_nv : T.nv = true) (h p bd rd a i c w) (d : Dev) : (delCore h p bd rd a i c w d).mask T = d.mask T := by
  unfold delCore
  refine updating_mask _eng (fun _ _ _ _ _ _ _ _ _ => ?_) _ _ _ _ _ _ _ _ _
  simp only []
  (repeat' split) <;> simp [*]

/-- What CAS may change. -/
theorem casCore_mask (_evt : T.evt = true) (_life : T.life = true) (_keys : T.keys = true) (_store : T.store = true)
    (_eng : T.eng = true) (_nv : T.nv = true)
    (h p bd rd a i c w) (d : Dev) : (casCore h p bd rd a i c w d).mask T = d.mask T := by
  unfold casCore
  simp only []
  split
  · simp [*]
  · refine updating_mask _eng (fun _ _ _ _ _ _ _ _ _ => ?_) _ _ _ _ _ _ _ _ _
    (repeat' split) <;> simp [*]

/-- What IMPORT may change. -/
theorem importEffect_mask (_evt : T.evt = true) (_life : T.life = true) (_keys : T.keys = true) (_store : T.store = true)
    (_eng : T.eng = true) (_net : T.net = true) (_nv : T.nv = true)
    (bd rd a i c w) (d : Dev) : (importEffect bd rd a i c w d).mask T = d.mask T := by
  have k : ∀ r h f bd rd a i c w (e : Dev), (updating (importCore r) h f bd rd a i c w e).mask T = e.mask T :=
    fun r h f => updating_mask _eng (fun _ _ _ _ _ _ _ _ _ => by
      unfold importCore
      simp only []
      (repeat' split) <;> simp [*]) h f
  unfold importEffect
  simp only []
  (repeat' split) <;> simp [*]

/-- What LOCK may change. -/
theorem lockCore_mask (_store : T.store = true) (_eng : T.eng = true)
    (h p bd rd a i c w) (d : Dev) : (lockCore h p bd rd a i c w d).mask T = d.mask T := by
  unfold lockCore Dev.lockFails
  simp only []
  (repeat' split) <;> simp [*]

/-- The checks of COMMIT and ABORT keep what the instruction keeps. -/
theorem onSet_mask (_store : T.store = true) (_eng : T.eng = true) {f : Board → Nat → Coach → AtomicSet → Dev → Dev}
    (hf : ∀ bd i c s d, (f bd i c s d).mask T = d.mask T) (st bd rd a i c w) (d : Dev) :
    (onSet f st bd rd a i c w d).mask T = d.mask T := by
  unfold onSet
  simp only []
  (repeat' split) <;> simp [*]

/-- What ITER may change. -/
theorem iterEffect_mask (_store : T.store = true) (_eng : T.eng = true)
    (bd rd a i c w) (d : Dev) : (iterEffect bd rd a i c w d).mask T = d.mask T := by
  unfold iterEffect
  simp only []
  (repeat' split) <;> simp [*]

/-- What EXPORT may change. -/
theorem exportEffect_mask (_store : T.store = true) (_eng : T.eng = true)
    (bd rd a i c w) (d : Dev) : (exportEffect bd rd a i c w d).mask T = d.mask T := by
  unfold exportEffect
  split
  · simp [*]
  · refine keyed_mask _store _eng (fun _ _ _ _ _ _ _ _ _ => ?_) _ _ _ _ _ _ _
    unfold exportCore
    simp only []
    (repeat' split) <;> simp [*]

/-- What CAMOP may change. -/
theorem camEffect_mask (_eng : T.eng = true) {f : Nat → Nat → Bool → Nat → Coach → Fields → Dev → Dev}
    (hf : ∀ a b c i k w d, (f a b c i k w d).mask T = d.mask T) (m i c w) (d : Dev) :
    (camEffect m f i c w d).mask T = d.mask T := by
  unfold camEffect
  (repeat' split) <;> simp [*]

/-- What an instruction that is taken up again may change. -/
theorem keyEffectOf_mask (_evt : T.evt = true) (_life : T.life = true) (_keys : T.keys = true) (_store : T.store = true)
    (_eng : T.eng = true) (_net : T.net = true) (_nv : T.nv = true) {op : Nat} {f : KeyEffect} (h : keyEffectOf op = some f)
    (bd rd a i c w) (d : Dev) : (f bd rd a i c w d).mask T = d.mask T := by
  unfold keyEffectOf at h
  split at h <;> first
    | cases h
    | skip
  · exact keyed_mask _store _eng (getCore_mask _evt _life _store _eng false) ..
  · exact keyed_mask _store _eng (getCore_mask _evt _life _store _eng true) ..
  · exact keyed_mask _store _eng (headCore_mask _store _eng) ..
  · exact keyed_mask _store _eng (putCore_mask _evt _life _keys _store _eng _nv) ..
  · exact keyed_mask _store _eng (appendCore_mask _evt _life _keys _store _eng _nv) ..
  · exact keyed_mask _store _eng (delCore_mask _evt _life _store _eng _nv) ..
  · exact keyed_mask _store _eng (casCore_mask _evt _life _keys _store _eng _nv) ..
  · exact keyed_mask _store _eng (lockCore_mask _store _eng) ..
  · exact onSet_mask _store _eng (commitCore_mask _evt _life _store _eng _nv) ..
  · exact onSet_mask _store _eng (fun _ _ _ _ _ => by simp [*]) ..
  · exact keyed_mask _store _eng (tokenCore_mask _store _eng) ..
  · exact keyed_mask _store _eng (usetokCore_mask _evt _life _store _eng) ..
  · exact exportEffect_mask _store _eng ..
  · exact importEffect_mask _evt _life _keys _store _eng _net _nv ..
  · exact keyed_mask _store _eng (verifyCore_mask _evt _life _store _eng) ..

end

end Sys2Proof.Machine
end

