-- ==== Sys2Proof/Laws/Memories.lean ====
section
/-!
SUPPORT. Laws/Memories.lean: every operation on the byte memories keeps their canonical form.
-/
namespace Sys2Proof.Machine

/-- What the canonical form of the four memories says. -/
theorem Memories.wf_iff (m : Memories) : m.wf = true ↔
    Mem.wf 0xFF m.norA = true ∧ Mem.wf 0xFF m.norB = true ∧ Mem.wf 0 m.setWindow = true ∧ Mem.wf 0 m.pool = true := by
  simp [Memories.wf, and_assoc]

/-- Reset memory is canonical. -/
theorem Memories.wf_default : ({} : Memories).wf = true := rfl

section
variable {m : Memories} (h : m.wf = true)
include h

theorem Memories.wf_norA {x : Mem} (hx : Mem.wf 0xFF x = true) : ({ m with norA := x } : Memories).wf = true := by
  rw [wf_iff] at *; exact ⟨hx, h.2⟩

theorem Memories.wf_norB {x : Mem} (hx : Mem.wf 0xFF x = true) : ({ m with norB := x } : Memories).wf = true := by
  rw [wf_iff] at *; exact ⟨h.1, hx, h.2.2⟩

theorem Memories.wf_setWindow {x : Mem} (hx : Mem.wf 0 x = true) : ({ m with setWindow := x } : Memories).wf = true := by
  rw [wf_iff] at *; exact ⟨h.1, h.2.1, hx, h.2.2.2⟩

theorem Memories.wf_pool {x : Mem} (hx : Mem.wf 0 x = true) : ({ m with pool := x } : Memories).wf = true := by
  rw [wf_iff] at *; exact ⟨h.1, h.2.1, h.2.2.1, hx⟩

/-- A reset keeps NOR and clears the rest. -/
theorem Memories.reset_wf : m.reset.wf = true := by
  rw [wf_iff] at *; exact ⟨h.1, h.2.1, rfl, rfl⟩

/-- A settings area is written on both dies. -/
theorem writeArea_wf (area : Nat) (b : Bytes) : (writeArea area b m).wf = true := by
  rw [Memories.wf_iff] at *
  exact ⟨Mem.wf_writeBytes _ _ _ (Mem.wf_erase _ _ _ h.1), Mem.wf_writeBytes _ _ _ (Mem.wf_erase _ _ _ h.2.1), h.2.2⟩
end

/-- Erased blocks of NOR A keep the form. -/
theorem eraseA_wf {m : Memories} (h : m.wf = true) (lo n : Nat) : ({ m with norA := Mem.erase m.norA lo n } : Memories).wf = true :=
  Memories.wf_norA h (Mem.wf_erase _ _ _ ((Memories.wf_iff _).mp h).1)

/-- Erased blocks of both dies keep the form. -/
theorem eraseBoth_wf {m : Memories} (h : m.wf = true) (a b n : Nat) :
    ({ m with norA := Mem.erase m.norA a n, norB := Mem.erase m.norB b n } : Memories).wf = true :=
  Memories.wf_norB (eraseA_wf h a n) (Mem.wf_erase _ _ _ ((Memories.wf_iff _).mp h).2.1)

/-- Bytes programmed into NOR A keep the form. -/
theorem writeA_wf {m : Memories} (h : m.wf = true) (a : Nat) (b : Bytes) :
    ({ m with norA := Mem.writeBytes 0xFF m.norA a b } : Memories).wf = true :=
  Memories.wf_norA h (Mem.wf_writeBytes _ _ _ ((Memories.wf_iff _).mp h).1)

/-- A boot control record keeps the form of NOR A. -/
theorem writeBoot_wf (b : BootControl) {x : Mem} (h : Mem.wf 0xFF x = true) : Mem.wf 0xFF (writeBoot b x) = true := by
  unfold writeBoot; simp only []; split
  · exact Mem.wf_writeBytes _ _ _ h
  · exact Mem.wf_writeBytes _ _ _ (Mem.wf_erase _ _ _ h)

section
variable {s : Memories × Dev} (h : s.1.wf = true)
include h

theorem bootRecord_wf (f : BootControl → BootControl) : (bootRecord f s).1.wf = true :=
  Memories.wf_norA h (writeBoot_wf _ ((Memories.wf_iff _).mp h).1)

theorem chipReset_wf : (chipReset s).1.wf = true := Memories.reset_wf h

theorem resetOrDefer_wf : (resetOrDefer s).1.wf = true := by
  unfold resetOrDefer; simp only []; split
  · exact h
  · exact chipReset_wf h

theorem perstEffect_wf : (perstEffect s).1.wf = true := by
  unfold perstEffect; simp only []; (repeat' split)
  · exact resetOrDefer_wf h
  · exact h
  · exact h

theorem stageWrite_wf (off : Nat) (bytes : Bytes) (norOk : Bool) : (stageWrite off bytes norOk s).1.wf = true := by
  unfold stageWrite
  have b := fun f lo n => eraseA_wf (bootRecord_wf h f) lo n
  by_cases ho : off = 0 <;> simp only [ho, if_true, if_false] <;> split
  · simp only [bootRecord_wf, b]
  · exact writeA_wf (b _ _ _) _ _
  · simp only [bootRecord_wf, h]
  · exact writeA_wf h _ _

theorem stagedCheck_wf (fu : Fuses) : (stagedCheck fu s).1.wf = true := by
  unfold stagedCheck; simp only [bootRecord_wf, h]

theorem commitTrial_wf : (commitTrial s).1.wf = true := by
  unfold commitTrial; simp only [bootRecord_wf, h]

theorem commitDone_wf (norOk : Bool) : (commitDone norOk s).1.wf = true := by
  unfold commitDone; simp only []; split <;> simp only [bootRecord_wf, writeArea_wf, h]

theorem revertTrial_wf (cause : Nat) : (revertTrial cause s).1.wf = true := by
  unfold revertTrial; simp only []; split <;> simp only [bootRecord_wf, eraseBoth_wf, h]

theorem convertTrial_wf (area : Nat) (r : SettingsRecord) : (convertTrial area r s).1.wf = true := by
  unfold convertTrial; simp only [bootRecord_wf, writeArea_wf, h]

theorem loadSettings_wf : (loadSettings s).2.1.wf = true := by
  unfold loadSettings; simp only []
  (repeat' split) <;> simp only [convertTrial_wf, h]

theorem bootCommitted_wf (fu : Fuses) : (bootCommitted fu s).2.1.wf = true := by
  unfold bootCommitted; simp only []; split <;> simp only [bootRecord_wf, h]

theorem chooseSlot_wf (fu : Fuses) : (chooseSlot fu s).2.1.wf = true := by
  have k : ∀ f c, (revertTrial c (bootRecord f s)).1.wf = true := fun f c => by simp only [revertTrial_wf, bootRecord_wf, h]
  unfold chooseSlot; simp only []; split
  · split <;> simp only [bootRecord_wf, bootCommitted_wf, k, h]
  split <;> simp only [bootCommitted_wf, revertTrial_wf, h]

theorem norStep_wf (fu : Fuses) (ms : W32) : (norStep fu ms s).1.wf = true := by
  unfold norStep; simp only []; split <;> simp only [chooseSlot_wf, h]

theorem firmwareStep_wf (fu : Fuses) (ok : Bool) (ms : W32) : (firmwareStep fu ok ms s).1.wf = true := by
  unfold firmwareStep; simp only []; split
  · exact h
  split <;> simp only [loadSettings_wf, h]

theorem controlWrite_wf (fu : Fuses) (by_ : Requester) (a : Nat) (wide : Bool) (v : W64) :
    (controlWrite fu by_ a wide v s).1.wf = true := by
  unfold controlWrite; simp only []; split
  · exact h
  split
  · exact h
  split
  · exact Memories.wf_setWindow h (Mem.wf_writeBytes _ _ _ ((Memories.wf_iff _).mp h).2.2.1)
  · exact h

theorem mwrEffect_wf (fu : Fuses) (i : Nat) (c : Coach) (w : Fields) : (mwrEffect fu i c w s).1.wf = true := by
  unfold mwrEffect; split
  · exact h
  · simp only [controlWrite_wf, h]

theorem writePieces_wf (fn : Nat) (target : Nat → Option Nat) (ps : List Piece) (b : Bytes) :
    (Dev.writePieces fn target ps b s).1.wf = true := by
  induction ps generalizing b s with
  | nil => exact h
  | cons p ps ih =>
    obtain ⟨m, d⟩ := s
    cases p with
    | host a n => rw [Dev.writePieces]; exact @ih (m, _) (show m.wf = true from h) _
    | pool o n =>
      rw [Dev.writePieces]
      exact ih (s := (_, d)) (Memories.wf_pool h (Mem.wf_writeBytes _ _ _ ((Memories.wf_iff _).mp h).2.2.2)) _

theorem emitQueue_wf (q slot : Nat) (cmd : Command) (r : Response) {t : Memories × Dev}
    (e : emitQueue q slot cmd r s = some t) : t.1.wf = true := by
  unfold emitQueue at e; simp only [] at e
  split at e
  · exact absurd e (by simp)
  · injection e with e; subst e; simp only [writePieces_wf, h]

theorem emitMailbox_wf (cmd : Command) (r : Response) : (emitMailbox cmd r s).1.wf = true := by
  unfold emitMailbox; simp only []; split <;> simp only [writePieces_wf, h]
end

theorem windowEffect_wf (write : Bool) (offset length : Nat) (bytes : Bytes) {m : Memories} (d : Dev) (h : m.wf = true) :
    (windowEffect write offset length bytes m d).1.wf = true := by
  unfold windowEffect; (repeat' split) <;> try exact h
  exact Memories.wf_pool h (Mem.wf_writeBytes _ _ _ ((Memories.wf_iff _).mp h).2.2.2)

theorem emissionEffect_wf (i : Nat) (rd : ReadEnv) (part : Option Nat) (n : Nat) {m : Memories} (d : Dev) (h : m.wf = true) :
    (emissionEffect i rd part n m d).1.wf = true := by
  unfold emissionEffect; simp only []
  (repeat' split) <;> try simp only [emitMailbox_wf, h]
  next e => exact emitQueue_wf (s := (m, _)) h _ _ _ _ e

end Sys2Proof.Machine
end

