-- ==== Sys2Proof/Laws/PerInstr.lean ====
section
/-!
SUPPORT. Laws/PerInstr.lean: facts about every command as syntax, one lemma per constructor. `Kept`: a row that resets the
whole chip or removes its power reaches neither the media and their mirror nor the model's own trace and counter, so what
power and reset cannot take away is never in the reach of those rows (R448, R172).
-/
namespace Sys2Proof.Laws.Kept

/-- A row that resets the chip leaves the media, the out trace and the counter of free values out of its reach. -/
def Statement (i : Instr) : Prop :=
  Machine.Instr.resets i = true →
    (Machine.Instr.reach i).nv = false ∧ (Machine.Instr.reach i).out = false ∧ (Machine.Instr.reach i).free = false

theorem powerOnResetRelease : Statement .powerOnResetRelease := nofun
theorem startRom (r : RomResult) : Statement (.startRom r) := nofun
theorem startNor (ms : W32) : Statement (.startNor ms) := nofun
theorem startManagementFirmware (selfCheckOk : Bool) (ms : W32)
    : Statement (.startManagementFirmware selfCheckOk ms) := nofun
theorem startDramTraining (trained : BitVec 24) (ms : W32) : Statement (.startDramTraining trained ms) := nofun
theorem startMicrocodeLoad (failedClusters : BitVec 64) (failedRows : List (BankId × Nat)) (ms : W32)
    : Statement (.startMicrocodeLoad failedClusters failedRows ms) := nofun
theorem startKeystoneRead (copies : List KeystoneRead) (ms : W32) : Statement (.startKeystoneRead copies ms) := nofun
theorem startIndexLoad (sealsBad : BitVec 8) (bothBad : BitVec 8) (log : LogReadEnv) (ms : W32)
    : Statement (.startIndexLoad sealsBad bothBad log ms) := nofun
theorem startReplay (found : ReplayRead) (ms : W32) : Statement (.startReplay found ms) := nofun
theorem startWakePatrolScheduling (ms : W32) : Statement (.startWakePatrolScheduling ms) := nofun
theorem startServiceOpen (ms : W32) : Statement (.startServiceOpen ms) := nofun
theorem resetAssert : Statement .resetAssert := fun _ => ⟨rfl, rfl, rfl⟩
theorem deferredReset : Statement .deferredReset := fun _ => ⟨rfl, rfl, rfl⟩
theorem perstAssert : Statement .perstAssert := fun _ => ⟨rfl, rfl, rfl⟩
theorem perstRelease : Statement .perstRelease := nofun
theorem pwrfailAsserted : Statement .pwrfailAsserted := nofun
theorem pwrfailPulseIgnored (ns : W64) : Statement (.pwrfailPulseIgnored ns) := nofun
theorem pwrfailDeassertAtStart : Statement .pwrfailDeassertAtStart := nofun
theorem pwrfailPfcRepeat : Statement .pwrfailPfcRepeat := nofun
theorem emissionCutoff : Statement .emissionCutoff := nofun
theorem flushProgramStart : Statement .flushProgramStart := nofun
theorem bufferDrained (us : W64) : Statement (.bufferDrained us) := nofun
theorem flushComplete : Statement .flushComplete := nofun
theorem alarmTrip (kind : AlarmKind) (lowestMv highestMc : W64)
    : Statement (.alarmTrip kind lowestMv highestMc) := nofun
theorem rootPllLockLoss : Statement .rootPllLockLoss := nofun
theorem crossbarCoreFailure (port : Fin 10) : Statement (.crossbarCoreFailure port) := nofun
theorem mgmtHeartbeatTimeout : Statement .mgmtHeartbeatTimeout := nofun
theorem chipStateUncorrectable (block : Fin 16) : Statement (.chipStateUncorrectable block) := nofun
theorem finalLogWrite (primaryOk mirrorOk : Bool) : Statement (.finalLogWrite primaryOk mirrorOk) := nofun
theorem sensorFault (region : RegionId) : Statement (.sensorFault region) := nofun
theorem dramSymbolsCorrected (channel : DdrId) (dimm : Fin 2) (rank : Fin 4) (subchannel : Fin 2) (device : Fin 10)
    : Statement (.dramSymbolsCorrected channel dimm rank subchannel device) := nofun
theorem dramUncorrectable (channel : DdrId) (dimm : Fin 2) (rank : Fin 4) (subchannel : Fin 2) (lost : BadRecords)
    : Statement (.dramUncorrectable channel dimm rank subchannel lost) := nofun
theorem flitCrcError (src dst : Fin 10) (retries : Fin 4) (recovered : Bool)
    : Statement (.flitCrcError src dst retries recovered) := nofun
theorem laneSelfcheckFailure (lane : LaneId) : Statement (.laneSelfcheckFailure lane) := nofun
theorem contextNoRetireTimeout (ctx : CtxId) : Statement (.contextNoRetireTimeout ctx) := nofun
theorem contextReturnToService (ctx : CtxId) : Statement (.contextReturnToService ctx) := nofun
theorem controlStoreParityError (engine : EngineId) (address : BitVec 13) (goldenOk : Bool)
    : Statement (.controlStoreParityError engine address goldenOk) := nofun
theorem stackFault (engine : EngineId) (address : BitVec 13) : Statement (.stackFault engine address) := nofun
theorem storeReloadComplete (engine : EngineId) : Statement (.storeReloadComplete engine) := nofun
theorem regionFenceComplete (region : RegionId) (stepsOk : FenceEnd)
    : Statement (.regionFenceComplete region stepsOk) := nofun
theorem dieFailed (die : DieId) : Statement (.dieFailed die) := nofun
theorem managementTick (temperatures : List Int) : Statement (.managementTick temperatures) := nofun
theorem frameReceive (mac : MacId) (frame : Frame) : Statement (.frameReceive mac frame) := nofun
theorem pfcRefresh (mac : MacId) (cls : ClassId) : Statement (.pfcRefresh mac cls) := nofun
theorem pfcXonRelease (mac : MacId) (cls : ClassId) : Statement (.pfcXonRelease mac cls) := nofun
theorem pfcTimerExpiry (mac : MacId) (queue : Option ClassId) : Statement (.pfcTimerExpiry mac queue) := nofun
theorem priorityHeld100ms (mac : MacId) (queue : Option ClassId) : Statement (.priorityHeld100ms mac queue) := nofun
theorem frameTransmit (mac : MacId) (cls : ClassId) (fw : Option FirmwareFrame)
    : Statement (.frameTransmit mac cls fw) := nofun
theorem linkUp (mac : MacId) : Statement (.linkUp mac) := nofun
theorem linkDown (mac : MacId) (cause : LinkDownCause) : Statement (.linkDown mac cause) := nofun
theorem macEnable (mac : MacId) (by_ : Requester) (value : W32) : Statement (.macEnable mac by_ value) := nofun
theorem macDisable (mac : MacId) (by_ : Requester) (value : W32) : Statement (.macDisable mac by_ value) := nofun
theorem macTsPop (mac : MacId) (by_ : Requester) : Statement (.macTsPop mac by_) := nofun
theorem ptpTimeRead (by_ : Requester) : Statement (.ptpTimeRead by_) := nofun
theorem ptpSet (by_ : Requester) (value : W64) : Statement (.ptpSet by_ value) := nofun
theorem ptpAdjStep (by_ : Requester) (step : W32) : Statement (.ptpAdjStep by_ step) := nofun
theorem ppsOutPulse : Statement .ppsOutPulse := nofun
theorem ppsInEdge (falling : Bool) : Statement (.ppsInEdge falling) := nofun
theorem jenlothOpen (mac : MacId) : Statement (.jenlothOpen mac) := nofun
theorem jenlothClose (mac : MacId) : Statement (.jenlothClose mac) := nofun
theorem jenlothPing (mac : MacId) : Statement (.jenlothPing mac) := nofun
theorem jenlothAbort (mac : MacId) : Statement (.jenlothAbort mac) := nofun
theorem jenlothRequest (mac : MacId) : Statement (.jenlothRequest mac) := nofun
theorem jenlothAnnounce (mac : MacId) : Statement (.jenlothAnnounce mac) := nofun
theorem reassemblyTimeout (session : Nat) (seq : W32) : Statement (.reassemblyTimeout session seq) := nofun
theorem gapPassed (session : Nat) : Statement (.gapPassed session) := nofun
theorem sessionIdleExpiry (session : Nat) : Statement (.sessionIdleExpiry session) := nofun
theorem announceSend (mac : MacId) : Statement (.announceSend mac) := nofun
theorem partnerExpiry (entry : Fin 4096) : Statement (.partnerExpiry entry) := nofun
theorem coachAdmission (coach : Nat) : Statement (.coachAdmission coach) := nofun
theorem coachDispatch (coach : Nat) : Statement (.coachDispatch coach) := nofun
theorem nop (ctx : CtxId) : Statement (.nop ctx) := nofun
theorem movi (ctx : CtxId) : Statement (.movi ctx) := nofun
theorem mov (ctx : CtxId) : Statement (.mov ctx) := nofun
theorem add (ctx : CtxId) : Statement (.add ctx) := nofun
theorem sub (ctx : CtxId) : Statement (.sub ctx) := nofun
theorem and (ctx : CtxId) : Statement (.and ctx) := nofun
theorem or (ctx : CtxId) : Statement (.or ctx) := nofun
theorem xor (ctx : CtxId) : Statement (.xor ctx) := nofun
theorem shl (ctx : CtxId) : Statement (.shl ctx) := nofun
theorem shr (ctx : CtxId) : Statement (.shr ctx) := nofun
theorem cmp (ctx : CtxId) : Statement (.cmp ctx) := nofun
theorem br (ctx : CtxId) : Statement (.br ctx) := nofun
theorem brc (ctx : CtxId) : Statement (.brc ctx) := nofun
theorem loop (ctx : CtxId) : Statement (.loop ctx) := nofun
theorem end_ (ctx : CtxId) : Statement (.end_ ctx) := nofun
theorem stepLimitReached (ctx : CtxId) : Statement (.stepLimitReached ctx) := nofun
theorem executionTimeout (ctx : Expiry) : Statement (.executionTimeout ctx) := nofun
theorem key (ctx : CtxId) : Statement (.key ctx) := nofun
theorem nsp (ctx : CtxId) : Statement (.nsp ctx) := nofun
theorem get (ctx : CtxId) (rd : ReadEnv) : Statement (.get ctx rd) := nofun
theorem getr (ctx : CtxId) (rd : ReadEnv) : Statement (.getr ctx rd) := nofun
theorem head (ctx : CtxId) (rd : ReadEnv) : Statement (.head ctx rd) := nofun
theorem put (ctx : CtxId) (rd : ReadEnv) : Statement (.put ctx rd) := nofun
theorem append (ctx : CtxId) (rd : ReadEnv) : Statement (.append ctx rd) := nofun
theorem del (ctx : CtxId) (rd : ReadEnv) : Statement (.del ctx rd) := nofun
theorem cas (ctx : CtxId) (rd : ReadEnv) : Statement (.cas ctx rd) := nofun
theorem lock (ctx : CtxId) : Statement (.lock ctx) := nofun
theorem lockWaiterResume (ctx : CtxId) (rd : ReadEnv) : Statement (.lockWaiterResume ctx rd) := nofun
theorem commit (ctx : CtxId) : Statement (.commit ctx) := nofun
theorem abort (ctx : CtxId) : Statement (.abort ctx) := nofun
theorem token (ctx : CtxId) (rd : ReadEnv) : Statement (.token ctx rd) := nofun
theorem usetok (ctx : CtxId) (rd : ReadEnv) : Statement (.usetok ctx rd) := nofun
theorem iter (ctx : CtxId) (rd : ReadEnv) : Statement (.iter ctx rd) := nofun
theorem export_ (ctx : CtxId) (rd : ReadEnv) : Statement (.export_ ctx rd) := nofun
theorem import_ (ctx : CtxId) (rd : ReadEnv) : Statement (.import_ ctx rd) := nofun
theorem hash (ctx : CtxId) : Statement (.hash ctx) := nofun
theorem verify (ctx : CtxId) (rd : ReadEnv) : Statement (.verify ctx rd) := nofun
theorem resp (ctx : CtxId) : Statement (.resp ctx) := nofun
theorem status (ctx : CtxId) : Statement (.status ctx) := nofun
theorem subRequestAnswer (ctx : CtxId) (rd : ReadEnv) : Statement (.subRequestAnswer ctx rd) := nofun
theorem mrd (ctx : CtxId) : Statement (.mrd ctx) := nofun
theorem mwr (ctx : CtxId) : Statement (.mwr ctx) := nofun
theorem evrd (ctx : CtxId) (log : LogReadEnv) : Statement (.evrd ctx log) := nofun
theorem ctrd (ctx : CtxId) : Statement (.ctrd ctx) := nofun
theorem kslotLoad (ctx : CtxId) : Statement (.kslotLoad ctx) := nofun
theorem kslotEnrolOwner (ctx : CtxId) : Statement (.kslotEnrolOwner ctx) := nofun
theorem kslotClear (ctx : CtxId) : Statement (.kslotClear ctx) := nofun
theorem kslotClearOwner (ctx : CtxId) : Statement (.kslotClearOwner ctx) := nofun
theorem kslotRekey (ctx : CtxId) : Statement (.kslotRekey ctx) := nofun
theorem kslotComplete (ctx : CtxId) : Statement (.kslotComplete ctx) := nofun
theorem rekeyRecordCopy (region : RegionId) (address : Nat) (rd : ReadBack)
    : Statement (.rekeyRecordCopy region address rd) := nofun
theorem rekeyWalkDone : Statement .rekeyWalkDone := nofun
theorem nsdefCreate (ctx : CtxId) : Statement (.nsdefCreate ctx) := nofun
theorem nsdefModify (ctx : CtxId) : Statement (.nsdefModify ctx) := nofun
theorem nsdefRemove (ctx : CtxId) : Statement (.nsdefRemove ctx) := nofun
theorem nsdefComplete (ctx : CtxId) : Statement (.nsdefComplete ctx) := nofun
theorem namespaceRemovalWalk (region : RegionId) (nsid : W16) : Statement (.namespaceRemovalWalk region nsid) := nofun
theorem namespaceFree (nsid : W16) : Statement (.namespaceFree nsid) := nofun
theorem tokenGenerationWrap (nsid : W16) : Statement (.tokenGenerationWrap nsid) := nofun
theorem fmt (ctx : CtxId) : Statement (.fmt ctx) := nofun
theorem fmtComplete : Statement .fmtComplete := nofun
theorem migOpen (ctx : CtxId) : Statement (.migOpen ctx) := nofun
theorem migClose (ctx : CtxId) : Statement (.migClose ctx) := nofun
theorem time (ctx : CtxId) : Statement (.time ctx) := nofun
theorem fwstage (ctx : CtxId) (norOk : Bool) : Statement (.fwstage ctx norOk) := nofun
theorem stagedImageCheckDone : Statement .stagedImageCheckDone := nofun
theorem stagingIdleTimeout : Statement .stagingIdleTimeout := nofun
theorem fwcommit (ctx : CtxId) : Statement (.fwcommit ctx) := nofun
theorem trialExpiry : Statement .trialExpiry := nofun
theorem selfReset : Statement .selfReset := nofun
theorem settingsCommit (by_ : Requester) : Statement (.settingsCommit by_) := nofun
theorem settingsCommitDone (norOk : Bool) : Statement (.settingsCommitDone norOk) := nofun
theorem camopReadRow (ctx : CtxId) : Statement (.camopReadRow ctx) := nofun
theorem camopWriteRow (ctx : CtxId) : Statement (.camopWriteRow ctx) := nofun
theorem camopClearRow (ctx : CtxId) : Statement (.camopClearRow ctx) := nofun
theorem camopSearch (ctx : CtxId) (upsets : List Upset) : Statement (.camopSearch ctx upsets) := nofun
theorem camopNext (ctx : CtxId) (upsets : List Upset) : Statement (.camopNext ctx upsets) := nofun
theorem camopScrubBank (ctx : CtxId) : Statement (.camopScrubBank ctx) := nofun
theorem camopScrubPassEnd (ctx : CtxId) (upsets : List Upset) : Statement (.camopScrubPassEnd ctx upsets) := nofun
theorem assocSearch (bank : BankId) (key : BitVec 160) (cls : Option ClassId) (upsets : List Upset)
    : Statement (.assocSearch bank key cls upsets) := nofun
theorem scrubberRowCheck (bank : BankId) (row : Nat) (upsets : List Upset)
    : Statement (.scrubberRowCheck bank row upsets) := nofun
theorem pageReadComplete (die : DieId) (plane : Fin 4) (block page : Nat) (sector : Fin 16) (retried : Bool) (iterations : Nat) (decoded : SectorResult) (cls : ClassId)
    : Statement (.pageReadComplete die plane block page sector retried iterations decoded cls) := nofun
theorem programEraseResume (die : DieId) : Statement (.programEraseResume die) := nofun
theorem suspendLimitExpiry (die : DieId) : Statement (.suspendLimitExpiry die) := nofun
theorem stripeOpen (front : FrontId) : Statement (.stripeOpen front) := nofun
theorem blockEraseComplete (front : FrontId) (channel : Fin 16) (ok : Bool)
    : Statement (.blockEraseComplete front channel ok) := nofun
theorem unitProgramComplete (front : FrontId) (position : Nat) (channel : Fin 16) (ok : Bool)
    : Statement (.unitProgramComplete front position channel ok) := nofun
theorem courseVerified (front : FrontId) (position : Nat) (badChannels : BitVec 16)
    : Statement (.courseVerified front position badChannels) := nofun
theorem padIdleTimeout (front : FrontId) : Statement (.padIdleTimeout front) := nofun
theorem padHeldTimeout (front : FrontId) : Statement (.padHeldTimeout front) := nofun
theorem frontIdlePad (front : FrontId) : Statement (.frontIdlePad front) := nofun
theorem dieDrainDone (die : DieId) : Statement (.dieDrainDone die) := nofun
theorem patrolVisit (region : RegionId) (stripe : Nat) (channel : Fin 16) (found : List PageFound) (hard : Bool)
    : Statement (.patrolVisit region stripe channel found hard) := nofun
theorem gcVictimSelect (region : RegionId) : Statement (.gcVictimSelect region) := nofun
theorem relocationRecordCopy (region : RegionId) (address : Nat) (rd : ReadBack)
    : Statement (.relocationRecordCopy region address rd) := nofun
theorem relocatedStripeErase (region : RegionId) (stripe : Nat) (failed : BitVec 16)
    : Statement (.relocatedStripeErase region stripe failed) := nofun
theorem sealStart (region : RegionId) : Statement (.sealStart region) := nofun
theorem sealDurable (region : RegionId) (keystoneOk retryOk : Bool)
    : Statement (.sealDurable region keystoneOk retryOk) := nofun
theorem responseEmission (coach : Nat) (rd : StreamEnv) (latencyNs : W64)
    : Statement (.responseEmission coach rd latencyNs) := nofun
theorem sqTailDoorbell (q : QueueId) (value : W32) : Statement (.sqTailDoorbell q value) := nofun
theorem cqHeadDoorbell (q : QueueId) (value : W32) : Statement (.cqHeadDoorbell q value) := nofun
theorem sqEntryFetch (q : QueueId) : Statement (.sqEntryFetch q) := nofun
theorem dmaReadCompletion (tag : Nat) (answer : DmaAnswer) : Statement (.dmaReadCompletion tag answer) := nofun
theorem completionTimeout (tag : Nat) : Statement (.completionTimeout tag) := nofun
theorem lateCompletion (tag : Nat) (byteCount : Nat) : Statement (.lateCompletion tag byteCount) := nofun
theorem tagQuarantineExpiry (tag : Nat) : Statement (.tagQuarantineExpiry tag) := nofun
theorem queueCreate (by_ : FuncId) : Statement (.queueCreate by_) := nofun
theorem queueDelete (by_ : FuncId) : Statement (.queueDelete by_) := nofun
theorem queueDeleteDone : Statement .queueDeleteDone := nofun
theorem queueAbort (by_ : FuncId) (cid : W16) : Statement (.queueAbort by_ cid) := nofun
theorem queueResultAck (by_ : FuncId) : Statement (.queueResultAck by_) := nofun
theorem mboxDoorbell : Statement .mboxDoorbell := nofun
theorem mboxAck : Statement .mboxAck := nofun
theorem pwCommit : Statement .pwCommit := nofun
theorem atsInvalidateRequest (first last : W64) : Statement (.atsInvalidateRequest first last) := nofun
theorem atsInvalidateDone : Statement .atsInvalidateDone := nofun
theorem flrPf0 : Statement .flrPf0 := nofun
theorem flrPf1 : Statement .flrPf1 := nofun
theorem hotReset (cause : PcieDownCause) : Statement (.hotReset cause) := nofun
theorem pcieLinkUp (gen : Fin 7) (width : Fin 17) (flit : Bool) : Statement (.pcieLinkUp gen width flit) := nofun
theorem l0sEntry : Statement .l0sEntry := nofun
theorem l1Entry : Statement .l1Entry := nofun
theorem clkreqRelease : Statement .clkreqRelease := nofun
theorem powerStateIdleTimeout : Statement .powerStateIdleTimeout := nofun
theorem d3hotEntry (fn : FuncId) : Statement (.d3hotEntry fn) := nofun
theorem d0Return (fn : FuncId) : Statement (.d0Return fn) := nofun
theorem unwrapLockAcquire (by_ : Requester) : Statement (.unwrapLockAcquire by_) := nofun
theorem unwrapLockRelease (by_ : Requester) : Statement (.unwrapLockRelease by_) := nofun
theorem unwrapLockTimeout : Statement .unwrapLockTimeout := nofun
theorem drbgReseed (ok : Bool) (lowestMv highestMc : W64) : Statement (.drbgReseed ok lowestMv highestMc) := nofun
theorem coalescingWindowClose (region : Fin 9) (block : Fin 64)
    : Statement (.coalescingWindowClose region block) := nofun
theorem eventFile (recorder : Fin 9) : Statement (.eventFile recorder) := nofun
theorem recordsLostInsert (recorder : Fin 9) : Statement (.recordsLostInsert recorder) := nofun
theorem logPageProgram (primaryOk mirrorOk erasePrimaryOk eraseMirrorOk : Bool)
    : Statement (.logPageProgram primaryOk mirrorOk erasePrimaryOk eraseMirrorOk) := nofun
theorem evtNotifyPendingClear (by_ : Requester) : Statement (.evtNotifyPendingClear by_) := nofun
theorem genericRegisterWrite (by_ : Requester) (address : Nat) (wide : Bool) (value : Option W64)
    : Statement (.genericRegisterWrite by_ address wide value) := nofun
theorem powerRemoval : Statement .powerRemoval := fun _ => ⟨rfl, rfl, rfl⟩
theorem sensorRecovery (region : RegionId) : Statement (.sensorRecovery region) := nofun
theorem uncorrectableContextState (ctx : CtxId) : Statement (.uncorrectableContextState ctx) := nofun
theorem blockCannotBeRepaired (region : RegionId) (block : UnrepairableBlock)
    : Statement (.blockCannotBeRepaired region block) := nofun
theorem mctpMessage (message : Bytes) : Statement (.mctpMessage message) := nofun
theorem peerWindowAccess (write : Bool) (offset length : Nat) (bytes : Bytes)
    : Statement (.peerWindowAccess write offset length bytes) := nofun
theorem unsupportedRequest (posted : Bool) : Statement (.unsupportedRequest posted) := nofun
theorem configurationRequest (fn : FuncId) (write : Bool) (offset : Nat) (enables : BitVec 4) (value : W32)
    : Statement (.configurationRequest fn write offset enables value) := nofun
theorem msixVectorUnmask (fn : FuncId) (vector : Option Nat) : Statement (.msixVectorUnmask fn vector) := nofun
theorem linkStateExit : Statement .linkStateExit := nofun

end Sys2Proof.Laws.Kept
end

