-- ==== Sys2Proof/WellFormed.lean ====
section
/-!
DEFINITION. WellFormed.lean: the range checks of operands that the types do not bound. Every constructor not named here is
well formed by its types. A command outside these ranges comes from no agent of the spec.
-/
namespace Sys2Proof

/-- A media address of region `r`: 45 bits, the region its top three (R171). -/
def addressWf (r : RegionId) (address : Nat) : Bool := address / 2 ^ 42 == r.val

/-- A stripe of region `r`, numbered region * 2^22 + stripe. -/
def stripeWf (r : RegionId) (stripe : Nat) : Bool := stripe / 2 ^ 22 == r.val

/-- Media addresses of 45 bits (R171). -/
def badWf (l : BadRecords) : Bool := l.all fun a => decide (a < 2 ^ 45)

/-- Log copies name entries 0-63 (R421). -/
def LogReadEnv.wf (e : LogReadEnv) : Bool := e.deadCopies.all fun c => decide (c.1 < 64)

/-- An upset strikes a row of a bank, in at most the four units of an entry (R144, R145). -/
def Upset.wf : Upset → Bool
  | .flip row mask => decide (row < 8192) && decide (mask < 2 ^ 328)
  | .shadow row => decide (row < 8192)

/-- A received frame: a MAC control frame names at most eight times (R274). -/
def Frame.wf (f : Frame) : Bool :=
  decide (f.length < 65536) &&
    match f.body with
    | .macControl _ _ times => decide (times.length ≤ 8)
    | .arp .. | .ptp .. | .ip .. | .other .. => true

/-- What a replay finds: media addresses, and blocks as the block table numbers them (R210, R225). -/
def ReplayRead.wf (x : ReplayRead) : Bool := badWf x.bad && (x.failedBlocks.all fun b => decide (b.1 < 2 ^ 27)) && decide (x.keystones.length ≤ 8)

/-- What patrol finds on a page group: media addresses. -/
def PageFound.wf (p : PageFound) : Bool := badWf p.rebuilt && badWf p.lost

/-- The operands of a command lie in the ranges the spec gives them. -/
def Instr.wf : Instr → Bool
  | .startMicrocodeLoad _ rows _ => rows.all fun r => decide (r.2 < 8192)
  | .startKeystoneRead copies _ => decide (copies.length ≤ 8)
  | .startIndexLoad _ _ log _ => log.wf
  | .startReplay found _ => found.wf
  | .dramUncorrectable _ _ _ _ lost => badWf lost
  | .managementTick temps => decide (temps.length ≤ 9)
  | .frameReceive _ frame => frame.wf
  | .reassemblyTimeout session _ => decide (session < 2 ^ 20)
  | .gapPassed session => decide (session < 2 ^ 20)
  | .sessionIdleExpiry session => decide (session < 2 ^ 20)
  | .evrd _ log => log.wf
  | .rekeyRecordCopy r address _ => addressWf r address
  | .namespaceRemovalWalk _ nsid => nsid != 0
  | .camopScrubPassEnd _ us => us.all Upset.wf
  | .assocSearch _ _ _ us => us.all Upset.wf
  | .camopSearch _ us => us.all Upset.wf
  | .camopNext _ us => us.all Upset.wf
  | .scrubberRowCheck _ row us => decide (row < 8192) && us.all Upset.wf
  | .pageReadComplete _ _ block page _ _ _ _ _ => decide (block < 65536) && decide (page < 4096)
  | .unitProgramComplete _ position _ _ => decide (position < 2 ^ 17)
  | .courseVerified _ position _ => decide (position < 2 ^ 17)
  | .patrolVisit r stripe _ found _ => stripeWf r stripe && decide (found.length ≤ 4) && found.all PageFound.wf
  | .relocationRecordCopy r address _ => addressWf r address
  | .relocatedStripeErase r stripe _ => stripeWf r stripe
  | .dmaReadCompletion tag _ => decide (tag < 16384)
  | .completionTimeout tag => decide (tag < 16384)
  | .lateCompletion tag byteCount => decide (tag < 16384) && decide (byteCount ≤ 4096)
  | .tagQuarantineExpiry tag => decide (tag < 16384)
  | .genericRegisterWrite _ address wide _ => decide (address < 2 ^ 26) && address % (if wide then 8 else 4) == 0
  | .peerWindowAccess write _ length bytes => decide (length ≤ 4096) && (!write || bytes.length == length)
  | .configurationRequest _ _ offset _ _ => decide (offset < 4096) && offset % 4 == 0
  | .msixVectorUnmask _ vector => vector.all fun v => decide (v < 4096)
  | .powerOnResetRelease | .startRom .. | .startNor .. | .startManagementFirmware .. | .startDramTraining ..
  | .startWakePatrolScheduling .. | .startServiceOpen .. | .resetAssert | .deferredReset | .perstAssert
  | .perstRelease | .pwrfailAsserted | .pwrfailPulseIgnored .. | .pwrfailDeassertAtStart | .pwrfailPfcRepeat
  | .emissionCutoff | .flushProgramStart | .bufferDrained .. | .flushComplete | .alarmTrip .. | .rootPllLockLoss
  | .crossbarCoreFailure .. | .mgmtHeartbeatTimeout | .chipStateUncorrectable .. | .finalLogWrite ..
  | .sensorFault .. | .dramSymbolsCorrected .. | .flitCrcError .. | .laneSelfcheckFailure ..
  | .contextNoRetireTimeout .. | .contextReturnToService .. | .controlStoreParityError .. | .stackFault ..
  | .storeReloadComplete .. | .regionFenceComplete .. | .dieFailed .. | .pfcRefresh .. | .pfcXonRelease ..
  | .pfcTimerExpiry .. | .priorityHeld100ms .. | .frameTransmit .. | .linkUp .. | .linkDown .. | .macEnable ..
  | .macDisable .. | .macTsPop .. | .ptpTimeRead .. | .ptpSet .. | .ptpAdjStep .. | .ppsOutPulse | .ppsInEdge ..
  | .jenlothOpen .. | .jenlothClose .. | .jenlothPing .. | .jenlothAbort .. | .jenlothRequest ..
  | .jenlothAnnounce .. | .announceSend .. | .partnerExpiry .. | .coachAdmission .. | .coachDispatch .. | .nop ..
  | .movi .. | .mov .. | .add .. | .sub .. | .and .. | .or .. | .xor .. | .shl .. | .shr .. | .cmp .. | .br ..
  | .brc .. | .loop .. | .end_ .. | .stepLimitReached .. | .executionTimeout .. | .key .. | .nsp .. | .get ..
  | .getr .. | .head .. | .put .. | .append .. | .del .. | .cas .. | .lock .. | .lockWaiterResume .. | .commit ..
  | .abort .. | .token .. | .usetok .. | .iter .. | .export_ .. | .import_ .. | .hash .. | .verify .. | .resp ..
  | .status .. | .subRequestAnswer .. | .mrd .. | .mwr .. | .ctrd .. | .kslotLoad .. | .kslotEnrolOwner ..
  | .kslotClear .. | .kslotClearOwner .. | .kslotRekey .. | .kslotComplete .. | .rekeyWalkDone | .nsdefCreate ..
  | .nsdefModify .. | .nsdefRemove .. | .nsdefComplete .. | .namespaceFree .. | .tokenGenerationWrap .. | .fmt ..
  | .fmtComplete | .migOpen .. | .migClose .. | .time .. | .fwstage .. | .stagedImageCheckDone
  | .stagingIdleTimeout | .fwcommit .. | .trialExpiry | .selfReset | .settingsCommit .. | .settingsCommitDone ..
  | .camopReadRow .. | .camopWriteRow .. | .camopClearRow .. | .camopScrubBank ..
  | .programEraseResume .. | .suspendLimitExpiry .. | .stripeOpen .. | .blockEraseComplete .. | .padIdleTimeout ..
  | .padHeldTimeout .. | .frontIdlePad .. | .dieDrainDone .. | .gcVictimSelect .. | .sealStart .. | .sealDurable ..
  | .responseEmission .. | .sqTailDoorbell .. | .cqHeadDoorbell .. | .sqEntryFetch .. | .queueCreate ..
  | .queueDelete .. | .queueDeleteDone | .queueAbort .. | .queueResultAck .. | .mboxDoorbell | .mboxAck | .pwCommit
  | .atsInvalidateRequest .. | .atsInvalidateDone | .flrPf0 | .flrPf1 | .hotReset .. | .pcieLinkUp .. | .l0sEntry
  | .l1Entry | .clkreqRelease | .powerStateIdleTimeout | .d3hotEntry .. | .d0Return .. | .unwrapLockAcquire ..
  | .unwrapLockRelease .. | .unwrapLockTimeout | .drbgReseed .. | .coalescingWindowClose .. | .eventFile ..
  | .recordsLostInsert .. | .logPageProgram .. | .evtNotifyPendingClear .. | .powerRemoval | .sensorRecovery ..
  | .uncorrectableContextState .. | .blockCannotBeRepaired .. | .mctpMessage .. | .unsupportedRequest ..
  | .linkStateExit => true

end Sys2Proof
end

