-- ==== Sys2Proof/Tests/Slice0.lean ====
section
/-!
SUPPORT. Tests/Slice0.lean: for each statement with hypotheses a theorem `witness_<statement>` that shows, clause by clause, a
concrete state and operands that meet them, values at the ends of ranges among them; and for the rows small tests of one step,
`test_<what>`, whose expected values are read off the spec.
-/
set_option maxRecDepth 8000
set_option Elab.async false

namespace Sys2Proof.Tests
open Sys2Proof Sys2Proof.Machine

/-- The state a command leaves. -/
def after (c : Instr) (s : State) : State := match exec c s with
  | .next t => t
  | .fault _ | .refused _ => s

/-- The device of the state a command leaves. -/
def run (c : Instr) (s : State) : Dev := (after c s).dev

/-- A state with a device. -/
def on (d : Dev) : State := { dev := d }

/-- A small format: 2 main buckets a region, four overflow buckets. -/
def geom0 : Geometry := { fmtgen := 1, k := 1, overflow := 4 }

/-- A device in service (CHIP_STATE.state = 1) over a small format, its regions loaded. -/
def up : Dev :=
  { pins := { stage := .running, wpHigh := true }, chip := { state := 1, statsLoaded := true }
    store := { geom := some geom0, regions := (List.range 8).map fun r => (r, { loaded := true }) } }

/-- A device in start-up after step `k`. -/
def starting (k : BitVec 4) : Dev := { pins := { stage := .running }, chip := { step := k } }

/-- A device in the fail-safe state. -/
def dead : Dev := { up with chip := { up.chip with reason := 0x72 } }

/-! ## Resets and start-up -/

/-- Hypotheses of ResetsOfTheChip: RESET# before and during a flush, the deferred reset at its bound of 100 ms, the self-reset,
the power-on reset from both stages. -/
theorem witness_ResetsOfTheChip :
    (up.powered = true ∧ up.pfail.flush = .none) ∧ ({ up with pfail := { flush := .flushed } } : Dev).powered = true ∧
    (dead.powered = true ∧ dead.live = false) ∧
    (let d : Dev := { up with pfail := { flush := .closing } }
     d.live = true ∧ d.pfail.flush ≠ .none ∧ d.pfail.flush ≠ .flushed ∧ d.pfail.deferredReset = none) ∧
    (let d : Dev := { up with pfail := { flush := .closing, deferredReset := some 7 }, chip := { up.chip with tick := 107 } }
     d.running = true ∧ d.pfail.deferredReset = some 7 ∧ 7 + 100 ≤ d.chip.tick) ∧
    (let d : Dev := { up with fw := { selfReset := true } }
     d.live = true ∧ d.fw.selfReset = true) ∧
    (on up).dev.running = true ∧ (on up).dev.pcie.perstChip = false ∧
    (let d : Dev := { up with pcie := { perstChip := true } }
     d.running = true ∧ d.pcie.perstChip = true ∧ d.pfail.flush = .none) ∧
    ((starting 2).running = true ∧ 2 ≤ (starting 2).chip.step.toNat) ∧ ({} : Dev).pins.stage = .held := by decide

/-- The power-on reset is released from either stage of the rails. -/
theorem test_power_on_reset :
    (run .powerOnResetRelease (on { pins := { stage := .unpowered } })).pins.stage = .held ∧
    (run .powerOnResetRelease (on { pins := { stage := .ramped } })).pins.stage = .held := by decide

/-- RESET# keeps the media and forgets the rest (R448). -/
theorem test_reset_assert :
    (run .resetAssert (on { up with nv := { lastSteps := [(1, 9)] } })).nv.lastSteps = [(1, 9)] ∧
    (run .resetAssert (on up)).pins.stage = .held ∧ (run .resetAssert (on up)).chip.state = 0 := by decide

/-- Hypotheses of StartStepsRun: every step's own gate; step 6 over blank media; ROM that passes. -/
theorem witness_StartStepsRun :
    (({} : Dev).pins.stage = .held ∧ ({} : Dev).pins.perstHolds = false) ∧
    (let r : RomResult := { testEnHigh := false, smbAddrHigh := true, pllLocked := true, selfTestOk := true, entropyOk := true,
                            pwrfailLow := false, ms := 3 }
     r.testEnHigh = false ∧ r.pllLocked = true ∧ r.selfTestOk = true ∧ r.entropyOk = true) ∧
    (starting 1).mayStart 2 = true ∧ ((starting 2).mayStart 3 = true ∧ (starting 2).fw.onTrial = false) ∧
    (starting 3).mayStart 4 = true ∧ (starting 4).mayStart 5 = true ∧
    ((starting 5).mayStart 6 = true ∧ (starting 5).nv.regions = []) ∧ (starting 6).mayStart 7 = true ∧
    (starting 7).mayStart 8 = true ∧ (starting 8).mayStart 9 = true ∧
    ((starting 9).mayStart 10 = true ∧ (starting 9).fw.onTrial = false) := by decide

/-- Step 6 over blank media enters the recovery state of cause 2 (R398). -/
theorem test_blank_media :
    (run (.startKeystoneRead [] 5) (on (starting 5))).chip.state = 2 ∧
    (run (.startKeystoneRead [] 5) (on (starting 5))).fw.recovery = 2 := by decide

/-- Step 4 with every channel trained (R381). -/
theorem test_dram_training :
    (run (.startDramTraining (BitVec.allOnes 24) 40) (on (starting 3))).chip.step = 4 := by decide

/-! ## Power failure, the fail-safe state, faults -/

/-- Hypotheses of PowerFailureClosesAdmission, the pulse at its bound of 999 ns. -/
theorem witness_PowerFailureClosesAdmission :
    (up.live = true ∧ up.pfail.flush = .none ∧ up.chip.state = 1) ∧
    ((starting 3).live = true ∧ (starting 3).pfail.flush = .none ∧ (starting 3).chip.state = 0) ∧
    (999 : W64).toNat < 1000 ∧
    (let d : Dev := { starting 1 with pfail := { waiting := true } }
     d.live = true ∧ d.pfail.waiting = true) ∧
    (let d : Dev := { up with pfail := { flush := .closing }, pins := { up.pins with pwrfailLow := true }
                              net := { macs := [(0, { cfg := 0x70001, linkUp := true })] } }
     d.live = true ∧ d.pfail.flush ≠ .none ∧ d.pins.pwrfailLow = true ∧ (d.mac 0).enabled = true ∧ (d.mac 0).linkUp = true) := by
  decide

/-- PWRFAIL# in service starts the flush (R227). -/
theorem test_pwrfail :
    (run .pwrfailAsserted (on up)).pfail.flush = .closing ∧
    (run .pwrfailAsserted (on (starting 3))).pfail.halted = true := by decide

/-- Hypotheses of FlushProceedsInOrder: each stage of the flush. -/
theorem witness_FlushProceedsInOrder :
    (let d : Dev := { up with pfail := { flush := .closing } }
     d.live = true ∧ d.pfail.flush = .closing) ∧
    (let d : Dev := { up with pfail := { flush := .stopped } }
     d.live = true ∧ d.pfail.flush = .stopped) ∧
    (let d : Dev := { up with pfail := { flush := .programming } }
     d.live = true ∧ d.pfail.flush = .programming ∧ d.drained = true) ∧
    (let d : Dev := { up with pfail := { flush := .drained } }
     d.live = true ∧ d.pfail.flush = .drained ∧ d.coursesDone = true) := by decide

/-- The flush of an idle device runs through its stages (R227, R248). -/
theorem test_flush_complete :
    (run .flushComplete (on { up with pfail := { flush := .drained } })).pfail.flush = .flushed ∧
    (run .flushComplete (on { up with pfail := { flush := .drained } })).pins.selfRefresh = true := by decide

/-- Hypotheses of TriggersEnterFailsafe and FinalLogWriteCutsNandOff. -/
theorem witness_TriggersEnterFailsafe :
    (up.running = true ∧ up.failsafe = false) ∧ (dead.running = true ∧ dead.failsafe = true) ∧ dead.chip.state ≠ 3 := by decide

/-- An alarm erases the keys and sets its reason (R377, R410). -/
theorem test_alarm :
    (run (.alarmTrip .supply 1200 0) (on { up with keys := { root := some [1] } })).keys.root = none ∧
    (run (.alarmTrip .supply 1200 0) (on up)).chip.reason = 0x70 ∧
    (run (.alarmTrip .supply 1200 0) (on up)).chip.state = 3 := by decide

/-- A second trigger only sets `multiple` (R410). -/
theorem test_second_trigger :
    (run .rootPllLockLoss (on dead)).chip.reason = 0x72 ∧ (run .rootPllLockLoss (on dead)).chip.multiple = true := by decide

/-- Hypotheses of FaultsFenceContextsAndRegions and ControlStoresReloadOrRetire: a first fault, a later one, a context with a
running coach, a fenced region. -/
theorem witness_FaultsFenceContextsAndRegions :
    up.live = true ∧ (up.cluster 0).ctxRetired.getLsbD 0 = false ∧ (up.cluster 0).reloading.getLsbD 0 = false ∧
    (let d : Dev := { up with eng := { coaches := [(0, { stage := .running, ctx := some 0 })] } }
     (d.coachIn 0).isSome = true ∧ (d.cluster (clusterOf 0)).ctxRetired.getLsbD (ctxBit 0) = false) ∧
    ((up.cluster (engineCluster 0)).retired.getLsbD (engineBit 0) = false ∧
     (up.cluster (engineCluster 0)).reloading.getLsbD (engineBit 0) = false) ∧
    (let d : Dev := { up with eng := { clusters := [(engineCluster 0, { reloading := setBit 0 (engineBit 0) true })] } }
     d.live = true ∧ (d.cluster (engineCluster 0)).reloading.getLsbD (engineBit 0) = true) ∧
    (up.fencedRegion 7 = false ∧ up.fencedRegion (23 / 3) = false ∧ (up.lane 63).fenced = false) := by decide

/-- A parity error makes the engine reload, and a second one retires it (R401). -/
theorem test_parity :
    ((run (.controlStoreParityError 0 5 true) (on up)).cluster 0).reloading = 1 ∧
    ((run (.controlStoreParityError 0 5 true)
      (on { up with eng := { clusters := [(0, { failedOnce := 1 })] } })).cluster 0).retired = 1 := by decide

/-- A crossbar port that fails three times fences its source region (R17). -/
theorem test_flit :
    (run (.flitCrcError 2 5 3 false) (on up)).chip.fenced = 4 ∧ (run (.flitCrcError 2 5 1 true) (on up)).chip.fenced = 0 := by
  decide

/-- Hypotheses of TickAndSensors. -/
theorem witness_TickAndSensors : up.live = true ∧ up.chip.sensorFault.getLsbD 7 = false ∧ up.running = true := by decide

/-- The tick counts, and power-on time with it once statistics are loaded (R28, R31). -/
theorem test_tick :
    (run (.managementTick []) (on up)).chip.tick = 1 ∧ (run (.managementTick []) (on up)).chip.powerOnMs = 1 ∧
    (run (.managementTick []) (on (starting 2))).chip.powerOnMs = 0 := by decide

/-! ## Network -/

/-- An enabled MAC with its link up. -/
def mac0 : Mac := { cfg := 0x70001, linkUp := true, ipv4 := 0x0A000001 }

/-- A device in service with one MAC. -/
def withMac (m : Nat) (c : Mac) : Dev := { up with net := { macs := [(m, c)] } }

/-- An IPv4 address as its IPv4-mapped IPv6 address. -/
def v4 (a : W32) : W128 := mapped a

/-- The common header of a Jenloth message of generation 3. -/
def header (type : Byte) : Bytes := [0x4A, 0x4C, 3, type] ++ zeros 20

/-- A frame of 64 bytes with a UDP packet for the data port. -/
def frame0 : Frame :=
  { dst := 0, tag := none, length := 64, fcsOk := true, fecCorr := 0, fecBad := 0
    body := .ip false true true (v4 0x0A000002) (v4 0x0A000001) (.udp 5000 7460 .right (header 1)) }

/-- A peer rule that admits 10.0.0.2 on MAC 0. -/
def peer0 : ClassRow := { value := peerKey 3 0 7460 (v4 0x0A000002), mask := 2 ^ 160 - 1, assoc := 2 ^ 35 + 5 }

/-- A device whose bank 3 holds the rule at row 0. -/
def withPeer : Dev :=
  { withMac 0 mac0 with store := { up.store with banks := [(3, { rows := [(0, peer0)] })] } }

/-- Hypotheses of FramesAndFlowControl, frames: the shortest frame, one byte over the largest, a full partition, a Jenloth
message that a peer rule admits. -/
theorem witness_FramesAndFlowControl_frames :
    (let d := withMac 0 mac0
     d.macWorks 0 = true ∧ (d.mac 0).enabled = true ∧ d.pfail.flush = .none ∧ frameIsControl frame0 = false ∧
     (d.mac 0).heldBytes ((d.mac 0).classOf 0 none) + 64 ≤ (partitionSize 0 ((d.mac 0).classOf 0 none)).1 ∧
     frame0.fcsOk = true ∧ frame0.fecBad = 0 ∧ 64 ≤ frame0.length ∧ frame0.length ≤ (d.mac 0).maxBytes) ∧
    (let d := withMac 0 { mac0 with held_ := [(0, (partitionSize 0 0).1)] }
     d.pfail.flush = .none ∧ (d.mac 0).classOf 0 none = 0 ∧ (partitionSize 0 0).1 < (d.mac 0).heldBytes 0 + frame0.length) ∧
    (let d : Dev := { withMac 0 mac0 with pfail := { flush := .closing } }
     d.macWorks 0 = true ∧ d.pfail.flush ≠ .none) := by decide

/-- A Jenloth frame that the peer rule of row 0 admits (check 3 of R291). -/
theorem witness_FramesAndFlowControl_jenloth :
    withPeer.live = true ∧ (withPeer.mac 0).accepts {} 0 0 false = true ∧ (withPeer.mac 0).tagOk none = true ∧
    (withPeer.mac 0).ipOk false (v4 0x0A000001) frame0.dst = true ∧ jenHeaderOk withPeer.net 0 7460 (header 1) = true ∧
    (withPeer.bank 3).lowest (peerKey (leAt (header 1) 2 1) 0 7460 (v4 0x0A000002)) = some (0, peer0) ∧
    bit peer0.assoc 35 = true := by decide

/-- The frame waits for the parser, with the rule's ruleset (R291). -/
theorem test_frame_receive :
    ((run (.frameReceive 0 frame0) (on withPeer)).mac 0).rx.map (·.ruleset) = [5] ∧
    ((run (.frameReceive 0 frame0) (on withPeer)).mac 0).rxFrames = 1 := by decide

/-- A frame with a bad FCS is only counted (R265). -/
theorem test_frame_bad_fcs :
    ((run (.frameReceive 0 { frame0 with fcsOk := false }) (on withPeer)).mac 0).fcsErr = 1 ∧
    ((run (.frameReceive 0 { frame0 with fcsOk := false }) (on withPeer)).mac 0).rx = [] := by decide

/-- Hypotheses of FramesAndFlowControl, flow control: above and at XON, a PFC frame, both timers, 100 ms held. -/
theorem witness_FramesAndFlowControl_flow :
    (let d := withMac 0 { mac0 with xoff := 1, held_ := [(0, (partitionSize 0 0).2.2 + 1)] }
     d.live = true ∧ (d.mac 0).xoff.getLsbD 0 = true ∧ (d.mac 0).pfcCfg.getLsbD 8 = true ∧
     (partitionSize 0 0).2.2 < (d.mac 0).heldBytes 0) ∧
    (let d := withMac 0 { mac0 with xoff := 1, held_ := [(0, (partitionSize 0 0).2.2)] }
     (d.mac 0).heldBytes 0 ≤ (partitionSize 0 0).2.2) ∧
    (let d : Dev := { withMac 0 { mac0 with held := 1, pauseHeld := true } with chip := { up.chip with tick := 100 } }
     d.live = true ∧ (d.mac 0).held.getLsbD 0 = true ∧ (d.mac 0).pauseHeld = true ∧
     (d.mac 0).heldTold.getLsbD (queueNumber (some 0)) = false ∧ (d.mac 0).heldTold.getLsbD (queueNumber none) = false ∧
     (d.mac 0).heldSince.get 0 (queueNumber none) + 100 ≤ d.chip.tick) := by decide

/-- A PFC frame holds the queue it names while its time is not 0 (R274). -/
theorem test_pfc_held :
    ((run (.frameReceive 0 { frame0 with body := .macControl 0x0101 1 [0xFFFF] }) (on (withMac 0 mac0))).mac 0).held = 1 ∧
    ((run (.pfcTimerExpiry 0 (some 0)) (on (withMac 0 { mac0 with held := 1 }))).mac 0).held = 0 := by decide

/-- Hypotheses of FramesLeaveInOrder. -/
theorem witness_FramesLeaveInOrder :
    (let d := withMac 0 { mac0 with egress := [(7, [{}])] }
     d.macWorks 0 = true ∧ (d.mac 0).maySend 7 = true ∧ d.pfail.flush = .none ∧ (d.mac 0).egress.get [] 7 = {} :: []) ∧
    (let d := withMac 0 mac0
     (d.mac 0).maySend 0 = true ∧ (d.mac 0).tsCfg.getLsbD 1 = true ∧ (d.mac 0).tsCfg.getLsbD 2 = true ∧
     (d.mac 0).tsCfg.getLsbD 3 = true ∧ (d.mac 0).tsQueue.length < 64) := by decide

/-- The oldest frame of the queue leaves (R266). -/
theorem test_transmit :
    ((run (.frameTransmit 0 7 none) (on (withMac 0 { mac0 with egress := [(7, [{}, { dstPort := 1 }])] }))).mac 0).txFrames = 1 := by
  decide

/-- Hypotheses of LinksLayoutsAndPartners, links: a port of the layout, a link up, a group with no MAC enabled. -/
theorem witness_LinksLayoutsAndPartners_links :
    (let d := withMac 0 { mac0 with linkUp := false }
     d.live = true ∧ d.portReady 0 = true ∧ (d.mac 0).linkUp = false) ∧
    (let d := withMac 0 mac0
     d.running = true ∧ (d.mac 0).linkUp = true) ∧
    ((up.mac 63).enabled = false ∧ (∀ k, k < 8 → (up.mac (63 / 8 * 8 + k)).enabled = false) ∧
     bit (bits (up.region 7).netCfg.toNat 2 8) 7 = true ∧ (1 : W32).getLsbD 0 = true) := by decide

/-- Enabling the first MAC of a group reads the layout (R262). -/
theorem test_mac_enable :
    ((run (.macEnable 63 .pf1 1) (on up)).mac 63).enabled = true ∧
    ((run (.macEnable 63 .pf1 1) (on up)).region 7).layout = 0x3FC ∧
    (run (.macEnable 63 .pf0 1) (on up)).pcie.blocked = 1 := by decide

/-- Hypotheses of PtpClockFollowsItsRegisters: the greatest ns, the pulse and the edge enabled. -/
theorem witness_PtpClockFollowsItsRegisters :
    up.running = true ∧ bits (BitVec.ofNat 64 (7 * 2 ^ 32 + 999999999)).toNat 0 30 < 1000000000 ∧
    (let d : Dev := { up with net := { ptp := { ppsCfg := 3 } } }
     d.live = true ∧ d.net.ptp.ppsCfg.getLsbD 0 = true ∧ d.net.ptp.ppsCfg.getLsbD 1 = true ∧
     d.net.ptp.ppsCfg.getLsbD 2 = false) ∧
    (0 ≤ up.net.ptp.total + (5 : W32).toInt ∧ up.net.ptp.total + (5 : W32).toInt < 2 ^ 48 * 1000000000) := by decide

/-- The clock is set, and stepped back over a second (R277). -/
theorem test_ptp :
    (run (.ptpSet .pf1 (BitVec.ofNat 64 (7 * 2 ^ 32 + 999999999))) (on up)).net.ptp.ns = 999999999 ∧
    (run (.ptpAdjStep .pf1 (-5)) (on { up with net := { ptp := { seconds := 1, ns := 2 } } })).net.ptp.seconds = 0 ∧
    (run (.ptpAdjStep .pf1 (-5)) (on { up with net := { ptp := { seconds := 1, ns := 2 } } })).net.ptp.ns = 999999997 := by
  decide

/-! ## Jenloth -/

/-- A frame of session 0 at the parser. -/
def msg (type : Nat) (seq : Nat) (body : Bytes) : RxFrame :=
  { src := 9, srcPort := 5000, payload := jenMessage 3 type 0 7 seq body.length 0 body }

/-- Session 0 of that client on MAC 0. -/
def sess0 : Session := { src := 9, srcPort := 5000, mac := 0, gen := 3, cookie := 7, nonce := 1, high := 4, nextSeq := 5, maxFrame := 9216 }

/-- A device with that session, and a frame at the head of MAC 0's parser queue. -/
def withSess (y : Session) (x : RxFrame) : Dev :=
  { up with net := { macs := [(0, { mac0 with rx := [x] })], sessions := [(0, y)] }, chip := { up.chip with tick := 100000 } }

/-- The body of an OPEN whose largest frame is 1518 bytes, the least that is accepted. -/
def openBody : Bytes := zeros 12 ++ beBytes 2 1518 ++ zeros 2

/-- The same device, with frame `x` handed to its meaning as the head of the queue. -/
theorem head_of {y : Session} {x : RxFrame} {type : Nat} (h : x.type = type) : (withSess y x).Head 0 type x [] :=
  ⟨rfl, rfl, h⟩

/-- Hypotheses of SessionsOpenAndEnd: an OPEN with the smallest frame and the lowest free number 1, a PING, a CLOSE, a session
idle for exactly its time. -/
theorem witness_SessionsOpenAndEnd :
    (let x := msg 2 0 openBody
     let d := withSess sess0 x
     x.total = 16 ∧ x.offset = 0 ∧ x.body.length = 16 ∧ zeroRange x.body 14 2 = true ∧ 1518 ≤ beAt x.body 12 2 ∧
     beAt x.body 12 2 ≤ 9216 ∧
     (∀ e ∈ d.net.sessions, ¬(e.2.nonce = BitVec.ofNat 64 (beAt x.body 0 8) ∧ e.2.src = x.src ∧
       e.2.srcPort = x.srcPort ∧ e.2.mac = 0 ∧ e.2.gen = x.gen ∧ e.2.closers = 0)) ∧
     1 < groupSize (macRegion 0) ∧ groupBase (macRegion 0) = 0 ∧ (d.net.sessions.get? 0).isNone = false ∧
     (d.net.sessions.get? 1).isNone = true) ∧
    ((withSess sess0 (msg 5 0 [])).sessionFor 0 (msg 5 0 []) = some (0, sess0) ∧ (msg 5 0 []).empty = true) ∧
    ((withSess sess0 (msg 3 0 [])).sessionFor 0 (msg 3 0 []) = some (0, sess0) ∧ (msg 3 0 []).empty = true ∧
     sess0.closers = 0 ∧ sess0.inFlight = false) ∧
    (let y := { sess0 with lastTick := 40000 }
     let d := withSess y (msg 5 0 [])
     d.live = true ∧ d.net.sessions.get? 0 = some y ∧ y.lastTick + d.net.idleMs ≤ d.chip.tick) := by decide

/-- PING is answered, CLOSE ends the session (R307). -/
theorem test_session :
    ((run (.jenlothPing 0) (on (withSess sess0 (msg 5 0 [])))).mac 0).egress.get [] 0 ≠ [] ∧
    (run (.jenlothClose 0) (on (withSess sess0 (msg 3 0 [])))).net.sessions.get? 0 = none ∧
    (run (.sessionIdleExpiry 0) (on (withSess { sess0 with lastTick := 40001 } (msg 3 0 [])))).net.sessions.get? 0 ≠ none := by
  decide

/-- Hypotheses of RequestsThroughTheWindow: the next number, a replayable number at the far end of the window, an ABORT of a
coach, a reassembly and a gap at their limits. -/
theorem witness_RequestsThroughTheWindow :
    (let x := msg 1 5 [0]
     (withSess sess0 x).sessionFor 0 x = some (0, sess0) ∧ sess0.window = [] ∧ x.seq = sess0.high + 1 ∧ sess0.nextSeq = x.seq ∧
     x.offset = 0 ∧ x.body.length = x.total ∧ x.total ≤ 67117576) ∧
    (let x := msg 1 1 [0]
     let y := { sess0 with high := 64, window := [(1, .replayable 3 [] false 0)] }
     (withSess y x).sessionFor 0 x = some (0, y) ∧ y.gen ≠ 1 ∧ -64 < seqDiff x.seq y.high ∧ seqDiff x.seq y.high ≤ 0 ∧
     y.entry x.seq = some (.replayable 3 [] false 0) ∧ x.offset = 0) ∧
    (let x := msg 4 4 []
     let y := { sess0 with window := [(4, .inFlight 0)] }
     let d : Dev := { withSess y x with eng := { coaches := [(0, { stage := .running })] } }
     d.sessionFor 0 x = some (0, y) ∧ x.empty = true ∧ seqDiff x.seq y.high ≤ 0 ∧ -64 < seqDiff x.seq y.high ∧
     y.entry x.seq = some (.inFlight 0) ∧ d.coach? 0 = some { stage := .running }) ∧
    (let y := { sess0 with window := [(5, .reassembling 9 [] 99900 0 false {})] }
     let d := withSess y (msg 5 0 [])
     d.live = true ∧ y.entry 5 = some (.reassembling 9 [] 99900 0 false {}) ∧ 99900 + d.net.gapMs ≤ d.chip.tick) ∧
    (let y := { sess0 with window := [(6, .held 0 99900)] }
     let d := withSess y (msg 5 0 [])
     (6, Entry.held 0 99900) ∈ y.window ∧ 99900 + d.net.gapMs ≤ d.chip.tick ∧ y.entry y.nextSeq = none) := by decide

/-- The next number becomes a coach; the gap is passed at its time and not before (R301, R303). -/
theorem test_request :
    (run (.jenlothRequest 0) (on (withSess sess0 (msg 1 5 [0])))).eng.coaches.length = 1 ∧
    ((run (.jenlothRequest 0) (on (withSess sess0 (msg 1 5 [0])))).net.sessions.get? 0).map (·.high) = some 5 ∧
    ((run (.gapPassed 0) (on (withSess { sess0 with window := [(6, .held 0 99900)] } (msg 5 0 [])))).net.sessions.get? 0).map
      (·.entry 5) = some (some .passed) ∧
    ((run (.gapPassed 0) (on (withSess { sess0 with window := [(6, .held 0 99901)] } (msg 5 0 [])))).net.sessions.get? 0).map
      (·.entry 5) = some none := by decide

/-- Hypotheses of LinksLayoutsAndPartners, partners: a new partner, a known one, the send conditions, three intervals. -/
theorem witness_LinksLayoutsAndPartners_partners :
    (let x := msg 8 0 (beBytes 8 77 ++ zeros 4 ++ beBytes 4 1000 ++ zeros 48)
     x.total = 64 ∧ x.offset = 0 ∧ x.body.length = 64 ∧ beAt x.body 12 4 ≠ 0 ∧ BitVec.ofNat 64 (beAt x.body 0 8) ≠ (0 : W64) ∧
     partnerSlot [] = some 0) ∧
    (let d : Dev := { withSess sess0 (msg 8 0 []) with net := { partners := [(4095, { deviceId := 77, state := 1, interval := 1000 })] } }
     d.net.partners.find? (fun q => q.2.deviceId == 77) = some (4095, { deviceId := 77, state := 1, interval := 1000 }) ∧
     d.live = true ∧ d.net.partners.get? 4095 = some { deviceId := 77, state := 1, interval := 1000 } ∧
     0 + 3 * (1000 : W32).toNat ≤ d.chip.tick) ∧
    (let d := withMac 63 { mac0 with ipv4 := 5 }
     d.serving = true ∧ (d.mac 63).linkUp = true ∧ d.net.discMask.getLsbD 63 = true ∧ (d.mac 63).ipv4 ≠ 0 ∧
     (d.mac 63).ipv6a = 0) := by decide

/-- A partner is dropped after three intervals and not before (R309). -/
theorem test_partner :
    ((run (.partnerExpiry 5) (on { up with net := { partners := [(5, { state := 1, interval := 10 })] }
                                           chip := { up.chip with tick := 30 } })).net.partners.get? 5).map (·.state) = some 2 ∧
    ((run (.partnerExpiry 5) (on { up with net := { partners := [(5, { state := 1, interval := 10 })] }
                                           chip := { up.chip with tick := 29 } })).net.partners.get? 5).map (·.state) = some 1 := by
  decide

/-! ## Coaches and instructions -/

/-- A coach in context 0 at the instruction `w`, before an END. -/
def coach0 (w : W64) : Coach :=
  { stage := .running, ctx := some 0, program := [w, wordOf 0x13 0 0 0 0 0], inbound := [1, 2, 3, 4] }

/-- A device that runs a coach. -/
def withCoach (c : Coach) : Dev := { up with eng := { coaches := [(0, c)] } }

/-- The visible state of coach 0 after a command. -/
def ran (c : Instr) (d : Dev) : Run := (((run c (on d)).coach? 0).getD {}).run

/-- The premise of the statements on instructions, for any word: a coach that may run it. -/
theorem at_coach {w : W64} {op : Nat} (h : (fieldsOf w).op = op) : (withCoach (coach0 w)).At 0 0 (coach0 w) op :=
  ⟨rfl, rfl, rfl, rfl, Nat.zero_lt_succ _, h⟩

/-- Hypotheses of CoachesAreAdmittedAndDispatched: an arrived request with room, one whose region is closed, a program that is
accepted and one that is rejected. -/
theorem witness_CoachesAreAdmittedAndDispatched :
    (let c : Coach := { stage := .arrived, program := [wordOf 0x13 0 0 0 0 0] }
     let d := withCoach c
     d.coach? 0 = some c ∧ c.privileged = false ∧ d.serving = true ∧ d.pfail.flush = .none ∧
     d.closedRegion (d.homeRegion c) = false ∧ d.queueRoom c (d.homeRegion c) (d.admissionClass c) = true) ∧
    (let c : Coach := { stage := .arrived, program := [wordOf 0x13 0 0 0 0 0] }
     let d : Dev := { withCoach c with chip := { up.chip with fenced := 1 } }
     d.serving = true ∧ d.closedRegion (d.homeRegion c) = true) ∧
    (let c : Coach := { stage := .admitted, program := [wordOf 0x13 0 0 0 0 0], announced := 1 }
     let d := withCoach c
     d.coach? 0 = some c ∧ d.pathRuns c.privileged = true ∧ d.pcie.wakeTick ≤ d.chip.tick ∧ d.mustWait 0 c = false ∧
     d.clusterFor c = some 0 ∧ c.rejection = none ∧ d.chooseContext 0 c.cls c.classWait = some 1 ∧ c.faults = 0 ∧ c.saved = none) ∧
    (let c : Coach := { stage := .admitted, program := [wordOf 0xFF 0 0 0 0 0], announced := 1 }
     (withCoach c).clusterFor c = some 0 ∧ c.rejection.isSome = true) ∧
    (let c : Coach := { stage := .admitted, program := [wordOf 0x13 0 0 0 0 0], announced := 1, given := some 0 }
     let d : Dev := { up with eng := { coaches := (99, c) :: (List.range 32).map fun k => (k, { coach0 0 with ctx := some k }) } }
     d.clusterFor c = some 0 ∧ c.rejection = none ∧ d.chooseContext 0 c.cls c.classWait = none ∧ c.privileged = false) := by decide

/-- A request is admitted and then dispatched to a free context (R33, R237). -/
theorem test_admission :
    ((run (.coachAdmission 0) (on (withCoach { stage := .arrived, program := [wordOf 0x13 0 0 0 0 0] }))).coach? 0).map (·.stage)
      = some .admitted ∧
    ((run (.coachDispatch 0) (on (withCoach { stage := .admitted, program := [wordOf 0x13 0 0 0 0 0], announced := 1 }))).coach? 0).map
      (fun c => (c.stage, c.ctx)) = some (.running, some 1) := by decide

/-- Hypotheses of GeneralInstructionsActAsGiven, first part: a coach at each move, the modes of MOVI and the last of MOV, the first
immediates that are rejected. -/
theorem witness_GeneralInstructionsActAsGiven :
    (withCoach (coach0 (wordOf 0x00 0 0 0 0 0))).At 0 0 (coach0 (wordOf 0x00 0 0 0 0 0)) 0x00 ∧
    (withCoach (coach0 (wordOf 0x01 3 0 0 2 5))).At 0 0 (coach0 (wordOf 0x01 3 0 0 2 5)) 0x01 ∧
    (coach0 (wordOf 0x01 3 0 0 0 5)).current.m = 0 ∧ (coach0 (wordOf 0x01 3 0 0 1 5)).current.m = 1 ∧
    (coach0 (wordOf 0x01 3 0 0 2 5)).current.m = 2 ∧ (coach0 (wordOf 0x02 3 0 0 6 0)).current.m ≤ 6 ∧
    (withCoach (coach0 (wordOf 0x02 3 0 0 6 0))).At 0 0 (coach0 (wordOf 0x02 3 0 0 6 0)) 0x02 ∧
    (let f := fieldsOf (wordOf 0x01 3 0 0 2 (2 ^ 24))
     f.imm < 2 ^ 40 ∧ f.op = 0x01 ∧ f.m = 2 ∧ 2 ^ 24 ≤ f.imm) ∧
    (let f := fieldsOf (wordOf 0x09 3 1 0 1 (2 ^ 6))
     f.imm < 2 ^ 40 ∧ f.op = 0x09 ∧ f.m = 1 ∧ 2 ^ 6 ≤ f.imm) :=
  ⟨at_coach rfl, at_coach rfl, rfl, rfl, rfl, by decide, at_coach rfl, by decide, by decide⟩

/-- Second part: a coach stands at each instruction of the arithmetic family. -/
theorem witness_GeneralInstructionsActAsGiven_arithmetic : ∀ op ∈ [0x03, 0x04, 0x05, 0x06, 0x07, 0x08, 0x09, 0x0A],
    (withCoach (coach0 (wordOf op 3 1 2 0 0))).At 0 0 (coach0 (wordOf op 3 1 2 0 0)) op := by
  intro op h
  simp only [List.mem_cons, List.not_mem_nil, or_false] at h
  rcases h with rfl | rfl | rfl | rfl | rfl | rfl | rfl | rfl <;> exact at_coach rfl

/-- ADD carries, SUB borrows, SHL goes by the count modulo 64, MOVI extends a sign (R83). -/
theorem test_arithmetic :
    (let r : Run := { g := [0, 0xFFFFFFFFFFFFFFFF, 65, 9] ++ List.replicate 12 0 }
     (ran (.add 0) (withCoach { coach0 (wordOf 0x03 3 1 1 0 0) with run := r })).reg 3 = 0xFFFFFFFFFFFFFFFE ∧
     (ran (.add 0) (withCoach { coach0 (wordOf 0x03 3 1 1 0 0) with run := r })).flags.c = true ∧
     (ran (.sub 0) (withCoach { coach0 (wordOf 0x04 3 2 1 0 0) with run := r })).reg 3 = 66 ∧
     (ran (.sub 0) (withCoach { coach0 (wordOf 0x04 3 2 1 0 0) with run := r })).flags.c = true ∧
     (ran (.shl 0) (withCoach { coach0 (wordOf 0x08 3 3 2 0 0) with run := r })).reg 3 = 18 ∧
     (ran (.movi 0) (withCoach (coach0 (wordOf 0x01 3 0 0 1 (2 ^ 40 - 1))))).reg 3 = 0xFFFFFFFFFFFFFFFF ∧
     (ran (.movi 0) (withCoach { coach0 (wordOf 0x01 1 0 0 2 1) with run := r })).reg 1 = 0x1FFFFFFFFFF) := by decide

/-- Hypotheses of ControlFlowAndEnd: both sides of a loop's last pass, the step limit at 256 with and without an instruction left,
the execution time at its end. -/
theorem witness_ControlFlowAndEnd :
    (withCoach (coach0 (wordOf 0x10 0 0 0 0 1))).At 0 0 (coach0 (wordOf 0x10 0 0 0 0 1)) 0x10 ∧
    (withCoach (coach0 (wordOf 0x11 0 0 0 0 1))).At 0 0 (coach0 (wordOf 0x11 0 0 0 0 1)) 0x11 ∧
    (withCoach (coach0 (wordOf 0x12 0 0 0 0 0x200))).At 0 0 (coach0 (wordOf 0x12 0 0 0 0 0x200)) 0x12 ∧
    0 + 1 < bits (coach0 (wordOf 0x12 0 0 0 0 0x200)).current.imm 8 5 ∧
    bits (coach0 (wordOf 0x12 0 0 0 0 0x100)).current.imm 8 5 ≤ 0 + 1 ∧
    (withCoach (coach0 (wordOf 0x13 0 0 0 0 0))).At 0 0 (coach0 (wordOf 0x13 0 0 0 0 0)) 0x13 ∧
    (let c : Coach := { coach0 0 with run := { steps := 256 } }
     (withCoach c).coachIn 0 = some (0, c) ∧ (withCoach c).pathRuns c.privileged = true ∧ 256 ≤ c.run.steps ∧
     c.run.pc < c.program.length) ∧
    (let c : Coach := { coach0 0 with timeout := 99 }
     let d : Dev := { withCoach c with chip := { up.chip with tick := 10 } }
     d.coachIn 0 = some (0, c) ∧ (c.timeout + 1) * 160000 ≤ 16000000 ∧ 16000000 < (d.chip.tick - c.started + 1) * 1600000) ∧
    (let c : Coach := { coach0 0 with run := { steps := 256, pc := 2 } }
     (withCoach c).coachIn 0 = some (0, c) ∧ 256 ≤ c.run.steps ∧ c.program.length ≤ c.run.pc ∧ c.wait = .none ∧ c.set = none) :=
  ⟨at_coach rfl, at_coach rfl, at_coach rfl, by decide, by decide, at_coach rfl, by decide, by decide, by decide⟩

/-- LOOP goes back, and past the last pass goes on; the step limit ends a coach at 256 and not at 255 (R42, R85). -/
theorem test_control :
    (ran (.loop 0) (withCoach (coach0 (wordOf 0x12 0 0 0 0 0x200)))).pc = 0 ∧
    (ran (.loop 0) (withCoach (coach0 (wordOf 0x12 0 0 0 0 0x100)))).pc = 1 ∧
    ((run (.stepLimitReached 0) (on (withCoach { coach0 0 with run := { steps := 256 } }))).coach? 0).map (·.stage) = some .ended ∧
    ((run (.stepLimitReached 0) (on (withCoach { coach0 0 with run := { steps := 255 } }))).coach? 0).map (·.stage) = some .running ∧
    ((run (.end_ 0) (on (withCoach (coach0 (wordOf 0x13 0 0 0 0 0))))).coach? 0).map (·.stage) = some .ended := by decide

/-- Hypotheses of ResponseAndSelection: a field that fits, none, a key in the inbound area, none, a granted namespace and one
that is not. -/
theorem witness_ResponseAndSelection :
    (withCoach (coach0 (wordOf 0x3C 0 1 0 0 0))).At 0 0 (coach0 (wordOf 0x3C 0 1 0 0 0)) 0x3C ∧
    (withCoach (coach0 (wordOf 0x20 0 0 0 0 0))).At 0 0 (coach0 (wordOf 0x20 0 0 0 0 0)) 0x20 ∧
    (withCoach (coach0 (wordOf 0x21 0 0 0 0 5))).At 0 0 (coach0 (wordOf 0x21 0 0 0 0 5)) 0x21 ∧
    (let c : Coach := { coach0 (wordOf 0x21 0 1 0 1 0) with run := { g := [0, 65536] ++ List.replicate 14 0 } }
     c.current.op = 0x21 ∧ c.current.m = 1 ∧ (c.run.reg c.current.a).toNat = 2 ^ 16) ∧
    (∃ m, m < 16 ∧ (coach0 (wordOf 0x3C 0 1 0 m 0)).respField (coach0 (wordOf 0x3C 0 1 0 m 0)).current ≠ none) ∧
    (∃ m, m < 16 ∧ (coach0 (wordOf 0x3C 0 1 0 m 0)).respField (coach0 (wordOf 0x3C 0 1 0 m 0)).current = none) ∧
    (∃ m, m < 16 ∧ (coach0 (wordOf 0x20 0 0 0 m 0)).keySource (coach0 (wordOf 0x20 0 0 0 m 0)).current = none) ∧
    (coach0 (wordOf 0x20 0 0 0 1 4)).keySource (coach0 (wordOf 0x20 0 0 0 1 4)).current = some [1, 2, 3, 4] ∧
    (let d : Dev := { withCoach (coach0 (wordOf 0x21 0 0 0 0 5)) with
       store := { up.store with namespaces := [(5, { state := .active })] } }
     d.nsActive 5 = true ∧ d.granted (coach0 0) 5 = false ∧ d.granted { coach0 0 with path := 2 } 5 = true ∧
     d.nsActive 6 = false) := by
  refine ⟨at_coach rfl, at_coach rfl, at_coach rfl, ?_⟩
  decide

/-- Hypotheses of StatusSetsTheStatusRegister: codes at both sides of what STATUS may set, from imm and from a register. -/
theorem witness_StatusSetsTheStatusRegister :
    (withCoach (coach0 (wordOf 0x3D 0 0 0 0 0x1C))).At 0 0 (coach0 (wordOf 0x3D 0 0 0 0 0x1C)) 0x3D ∧
    ((coach0 (wordOf 0x3D 0 0 0 0 0x1C)).current.imm % 256 = 0x1C ∧
      (coach0 (wordOf 0x3D 0 0 0 0 0x18)).current.imm % 256 = 0x18 ∧
      (coach0 (wordOf 0x3D 0 0 0 0 0x78)).current.imm % 256 = 0x78) ∧
    (let c : Coach := { coach0 (wordOf 0x3D 0 1 0 1 0) with run := { g := [0, 0x177] ++ List.replicate 14 0 } }
     c.current.m = 1 ∧ (c.run.reg c.current.a).toNat % 256 = 0x77) := by
  refine ⟨at_coach rfl, ?_⟩
  decide

/-- Hypotheses of HashDigestsARange: the whole inbound area, and one byte more, of both areas. -/
theorem witness_HashDigestsARange :
    (withCoach (coach0 (wordOf 0x38 0 1 2 0 0))).At 0 0 (coach0 (wordOf 0x38 0 1 2 0 0)) 0x38 ∧
    (let c (m n : Nat) : Coach :=
       { coach0 (wordOf 0x38 0 1 2 m 0) with run := { g := [0, 0, BitVec.ofNat 64 n] ++ List.replicate 13 0 } }
     let n : Nat := (c 0 0).inbound.length
     (c 0 n).current.m < 2 ∧ (c 2 n).current.m = 2 ∧ (c 3 0).current.m = 3 ∧
     ((c 0 n).run.reg (c 0 n).current.a).toNat + ((c 0 n).run.reg (c 0 n).current.b).toNat ≤ n ∧
     n < ((c 0 (n + 1)).run.reg (c 0 (n + 1)).current.a).toNat + ((c 0 (n + 1)).run.reg (c 0 (n + 1)).current.b).toNat ∧
     (c 3 1).run.fetch.length < ((c 3 1).run.reg (c 3 1).current.a).toNat + ((c 3 1).run.reg (c 3 1).current.b).toNat) ∧
    (appendField [] (.bytes (zeros 32))).isSome = true := by
  refine ⟨at_coach rfl, ?_⟩
  decide

/-- STATUS sets the status, KEY takes its bytes (R87, R107). -/
theorem test_status_key :
    (ran (.status 0) (withCoach (coach0 (wordOf 0x3D 0 0 0 0 0x1C)))).status = 0x1C ∧
    (ran (.key 0) (withCoach (coach0 (wordOf 0x20 0 0 0 1 0x102)))).keyReg = [2, 3] := by decide

/-! ## Keys and values -/

/-- A format with one die of 16 blocks a channel. -/
def geom1 : Geometry :=
  { fmtgen := 1, bpc := 1, spg := 4, chanMask := BitVec.allOnes 128, planes := 1, ces := 1, luns := 1, ppb := 16, bpp := 16
    pageSize := 16384, k := 1, overflow := 4, pbufMib := 16 }

/-- Namespace 5 active, stripe 3 open at the front of region 0's stream 0 and stripe 4 at that of its stream 1. -/
def data0 : Dev :=
  { up with
    store := { up.store with
      geom := some geom1, namespaces := [(5, { state := .active, keySlot := 0xFFFF })]
      fronts := [(0, { stripe := some 3 }), (2, { stripe := some 4 }), (3, { stripe := some 5 })]
      stripes := [(3, { state := .opened, egen := 1 }), (4, { state := .opened, egen := 1 }), (5, { state := .opened, egen := 1 })]
      nextWsn := 10, wsnLimit := 1000000 } }

/-- A coach at `w` on key 1 of namespace 5, whose home is region 0. -/
def keyCoach (w : W64) : Coach :=
  { coach0 w with run := { nsReg := 5, keyReg := [1], g := [0, 1, 2] ++ List.replicate 13 0 } }

/-- The device `d` running that coach. -/
def runs (d : Dev) (c : Coach) : Dev := { d with eng := { coaches := [(0, c)] } }

/-- A value record of key 1, version 3. -/
def rec0 : Record := { ns := 5, key := [1], version := 3, totalLen := 4, segLen := 4, payload := [1, 2, 3, 4], wsn := 1 }

/-- The device with that record current and pending in the directory. -/
def stored : Dev :=
  { data0 with store := { data0.store with
      dir := [(unitBase 0, { fp := data0.fpOf 5 [1], key := [1], ns := 5, rec_ := 1, addrs := [77], version := 3 })]
      buf := [(77, { rec_ := rec0 })] } }

/-- The records have been written. -/
def wroteAll : Wrote → Bool
  | .done _ _ => true
  | .waits _ | .fails _ _ => false

set_option maxRecDepth 100000 in
/-- Key 1 has its home in region 0. -/
theorem homes_of_key_1 : data0.homeOf 5 [1] = 0 ∧ stored.homeOf 5 [1] = 0 := by decide

/-- The search for key 1 meets no fault in region 0. -/
theorem clean_for_key_1 : data0.dirClean 0 (data0.dirKeyOf 5 [1]) = true ∧ stored.dirClean 0 (stored.dirKeyOf 5 [1]) = true := by
  decide +kernel

/-- Region 0 is open. -/
theorem gates_open : data0.regionGate 0 = none ∧ stored.regionGate 0 = none := by decide

/-- The premise of the statements on keys: the coach may run its instruction on key 1. -/
theorem keyed_coach {w : W64} {op : Nat} (h : (fieldsOf w).op = op) :
    (runs data0 (keyCoach w)).Keyed 0 0 (keyCoach w) op ∧ (runs stored (keyCoach w)).Keyed 0 0 (keyCoach w) op :=
  ⟨⟨⟨rfl, rfl, rfl, rfl, Nat.zero_lt_succ _, h⟩, nofun, rfl, nofun, gates_open.1, rfl, homes_of_key_1.1,
    clean_for_key_1.1⟩,
   ⟨⟨rfl, rfl, rfl, rfl, Nat.zero_lt_succ _, h⟩, nofun, rfl, nofun, gates_open.2, rfl, homes_of_key_1.2,
    clean_for_key_1.2⟩⟩

/-- The lookup of key 1 in `stored`. -/
def hit0 : Hit :=
  { pending := true, slot := none, entry := { fp := data0.fpOf 5 [1], addr := 77, version := 3 }, addrs := [77], version := 3 }

set_option maxRecDepth 100000 in
/-- Hypotheses of ReadsServeTheNewestRecord: the key found, with an offset at its end for GETR, and not found. -/
theorem witness_ReadsServeTheNewestRecord :
    (let c := keyCoach (wordOf 0x22 3 0 0 0 0)
     let d := (runs stored c).searched c 0
     0 ∈ dirBanks 0 ∧ (stored.bank 0).searches < 2 ^ 64 - 1 ∧
     (d.lookFor c 0 5 [1] true []).1.hit = some hit0 ∧ d.recordAt (hit0.addrs.headD 0) = some rec0 ∧
     d.servesClosed hit0.addrs 0 4 true = false ∧ firstFailure (d.readSegments hit0.addrs 0 1 []) = stOk ∧
     digestOf rec0.fixity (segBytes (d.readSegments hit0.addrs 0 1 [])) = rec0.digest) ∧
    (let c : Coach := { keyCoach (wordOf 0x23 3 1 2 1 0) with run := { nsReg := 5, keyReg := [1], g := [0, 4] ++ List.replicate 14 0 } }
     let d := (runs stored c).searched c 0
     c.current.m = 1 ∧ (d.lookFor c 0 5 [1] true []).1.hit = some hit0 ∧ c.run.num c.current.a ≤ rec0.totalLen ∧
     d.servesClosed [77] 4 0 false = false ∧ d.keysHeld [77] = true ∧
     (appendField c.run.resp (.attached { ns := 5, fp := d.fpFor c, addrs := [77], totalLen := 4, offset := 4 })).isSome = true) ∧
    (let c := keyCoach (wordOf 0x24 3 0 0 0 0)
     let d := (runs stored c).searched c 0
     (d.lookFor c 0 5 [1] false []).1.hit = some hit0 ∧
     (match d.readHeader 77 (d.lookFor c 0 5 [1] false []).1.left with | (.found x, _) => x == rec0 | _ => false) = true) ∧
    (let c := keyCoach (wordOf 0x22 3 0 0 0 0)
     let d := (runs data0 c).searched c 0
     (d.lookFor c 0 5 [1] true []).1.hit = none ∧ (d.lookFor c 0 5 [1] true []).1.blocked = none) ∧
    (let c : Coach := { keyCoach (wordOf 0x24 3 0 0 0 0) with home := 1, wait := .subRequest 0 }
     let d := runs stored c
     d.coach? 0 = some c ∧ d.coachIn 0 = some (0, c) ∧ d.pathRuns c.privileged = true ∧ c.current.op = 0x24 ∧
     d.nsActive 5 = true ∧ d.regionGate 0 = none ∧ ((d.searched c 0).lookFor c 0 5 [1] false []).1.hit = some hit0) ∧
    (let c : Coach := { keyCoach (wordOf 0x32 3 2 0 0 64) with run := { (keyCoach 0).run with g := [0, 1, BitVec.ofNat 64 cursorEnd] ++ List.replicate 13 0 } }
     c.run.num c.current.a = cursorEnd ∧ 1 ≤ c.current.imm % 128 ∧ c.current.imm % 128 ≤ 64 ∧ data0.nsActive 5 = true ∧
     data0.fw.recovery ≠ 1) := by decide +kernel

set_option maxRecDepth 100000 in
/-- GET fills the fetch area, or finds nothing (R89, R90). -/
theorem test_get :
    (ran (.get 0 {}) (runs stored (keyCoach (wordOf 0x22 3 0 0 0 0)))).fetch = [1, 2, 3, 4] ∧
    (ran (.get 0 {}) (runs stored (keyCoach (wordOf 0x22 3 0 0 0 0)))).reg 3 = 3 ∧
    (ran (.get 0 {}) (runs data0 (keyCoach (wordOf 0x22 3 0 0 0 0)))).status = 0x01 := by decide

/-- A token with tag `t` that names address 77. -/
def tokenOf (t : Bytes) : Bytes := t ++ leBytes 4 0 ++ leBytes 8 (77 + 3 * 2 ^ 49)

set_option maxRecDepth 100000 in
/-- Hypotheses of TokensAndVerification: a value to check, a token to append, a tag that is wrong and one that is right. -/
theorem witness_TokensAndVerification :
    (let c := keyCoach (wordOf 0x39 3 0 0 0 0)
     let d := (runs stored c).searched c 0
     (d.look 0 5 [1] true []).hit = some hit0 ∧ d.segmentClosed hit0.addrs 0 64 = false ∧
     firstFailure (d.readSegments hit0.addrs 0 64 []) = stOk) ∧
    (let c := keyCoach (wordOf 0x30 3 0 0 0 0)
     let d := (runs stored c).searched c 0
     (d.look 0 5 [1] false []).hit = some hit0 ∧
     (appendField c.run.resp (.bytes (d.tokenFor 5 77 (d.spanAt 77) 3))).isSome = true) ∧
    (let t := tokenOf [41, 132, 80, 174]
     (tokenFields t).addr = 77 ∧ t.take 4 = [41, 132, 80, 174] ∧ (tokenOf (zeros 4)).take 4 = zeros 4 ∧
     t.drop 4 = [0, 0, 0, 0, 77, 0, 0, 0, 0, 0, 6, 0] ∧ (tokenOf (zeros 4)).drop 4 = t.drop 4 ∧
     (let c : Coach := { keyCoach (wordOf 0x31 3 0 0 1 0) with inbound := t }
      inArea c.inbound (c.run.num c.current.a) 16 = true ∧ c.current.m = 1)) := by decide

set_option maxRecDepth 100000 in
/-- The tag of those twelve bytes under a token key of zeros: the token above carries it, the token of zeros does not (R134). -/
theorem witness_token_tag :
    tokenTag (zeros 32) 5 [0, 0, 0, 0, 77, 0, 0, 0, 0, 0, 6, 0] = [41, 132, 80, 174] := by decide

/-- The carts of region 0 are full. -/
def crowded (d : Dev) : Dev :=
  { d with store := { d.store with buf := d.store.buf ++ [(mkAddr 3 1 9 0, { rec_ := { rec0 with span := 600 } })] } }

set_option maxRecDepth 100000 in
/-- Hypotheses of UpdatesCommitOrStage for PUT, APPEND and a CAS that holds: no other holder, a unit, the record written; a key
in an open set; a CAS that does not hold. -/
theorem witness_UpdatesCommitOrStage :
    (let c : Coach := { keyCoach (wordOf 0x25 3 0 1 0 0) with run := { (keyCoach 0).run with g := [0, 4] ++ List.replicate 14 0 } }
     let d := (runs stored c).searched c 0
     let w := d.askFor 0 (d.fpFor c) c (d.look 0 5 [1] true []) { value := slice c.inbound 0 4 }
     inArea c.inbound (c.run.num c.current.a) (c.run.num c.current.b) = true ∧ d.heldByOther 0 0 5 [1] = none ∧
     (d.unitFor 0 0 5 [1]).isSome = true ∧ wroteAll (d.writeRecords {} w) = true ∧
     (match (crowded d).writeRecords {} w with | .waits none => true | _ => false) = true ∧
     (match d.oldValue c (d.look 0 5 [1] true []) [] with | .ok v => v == [1, 2, 3, 4] | .error _ => false) = true) ∧
    (let c : Coach := { keyCoach (wordOf 0x28 3 2 0 0 0) with run := { (keyCoach 0).run with g := [0, 4, 3] ++ List.replicate 13 0 } }
     inArea c.inbound (c.run.num c.current.b) (c.run.num (c.current.b + 1)) = true ∧ hit0.version = c.run.num c.current.a) ∧
    (let c : Coach := { keyCoach (wordOf 0x28 3 0 0 0 0) with run := { (keyCoach 0).run with g := [0, 4, 3] ++ List.replicate 13 0 } }
     inArea c.inbound (c.run.num c.current.b) (c.run.num (c.current.b + 1)) = true ∧ hit0.version ≠ c.run.num c.current.a) ∧
    (let c : Coach := { keyCoach (wordOf 0x25 3 0 1 0 0) with set := some { locks := [(5, [1])] } }
     let d := (runs data0 c).searched c 0
     let w := d.askFor 0 (d.fpFor c) c (d.look 0 5 [1] true []) { value := slice c.inbound 0 1 }
     (d.unitFor 0 0 5 [1]).isSome = true ∧
     (match d.writeRecords {} w with | .done [(_, _)] _ => true | _ => false) = true) := by decide +kernel

set_option maxRecDepth 100000 in
/-- PUT and DEL raise the version (R94, R97, R119); a CAS on another version does not hold (R95). -/
theorem test_update :
    (ran (.put 0 {}) (runs stored (keyCoach (wordOf 0x25 3 0 1 0 0)))).reg 3 = 4 ∧
    (ran (.put 0 {}) (runs data0 (keyCoach (wordOf 0x25 3 0 1 0 0)))).reg 3 = 1 ∧
    (ran (.del 0 {}) (runs stored (keyCoach (wordOf 0x27 3 0 0 0 0)))).reg 3 = 3 ∧
    (ran (.cas 0 {}) (runs stored (keyCoach (wordOf 0x28 3 0 1 0 0)))).status = 0x02 := by decide +kernel

set_option maxRecDepth 100000 in
/-- Hypotheses of DeleteLeavesATombstone: the key there, and not. -/
theorem witness_DeleteLeavesATombstone :
    (let c := keyCoach (wordOf 0x27 3 0 0 0 0)
     let d := (runs stored c).searched c 0
     d.heldByOther 0 0 5 [1] = none ∧ d.writable 0 = none ∧ (d.unitFor 0 0 5 [1]).isSome = true ∧
     (match d.writeTombstone {} 5 [1] 0 4 0 none with | .done [(_, 1)] _ => true | _ => false) = true) ∧
    (let d := (runs data0 (keyCoach (wordOf 0x27 3 0 0 0 0))).searched (keyCoach (wordOf 0x27 3 0 0 0 0)) 0
     d.heldByOther 0 0 5 [1] = none ∧ (d.look 0 5 [1] true []).hit = none ∧ (d.look 0 5 [1] true []).blocked = none) := by
  decide +kernel

/-- A device whose key 1 is held by coach 9 of stamp 5. -/
def held9 : Dev :=
  { data0 with store := { data0.store with dir := [(unitBase 0,
      { fp := data0.fpOf 5 [1], key := [1], ns := 5, hold := 2, holder := some 9, stamp := 5 })] } }

set_option maxRecDepth 100000 in
/-- Hypotheses of AtomicSetsLockAndCommit: a free key, a held one for an older and for a coach of the same stamp, a set to
commit, a released key. -/
theorem witness_AtomicSetsLockAndCommit :
    (let d := (runs data0 (keyCoach (wordOf 0x29 0 0 0 0 0))).searched (keyCoach (wordOf 0x29 0 0 0 0 0)) 0
     d.unit? 0 5 [1] = none ∧ (d.freeUnit 0 0).isSome = true) ∧
    (let d := (runs held9 (keyCoach (wordOf 0x29 0 0 0 0 0))).searched (keyCoach (wordOf 0x29 0 0 0 0 0)) 0
     (match d.unit? 0 5 [1] with
      | some (_, x) => decide (x.hold ≠ 0 ∧ x.holder ≠ some 0 ∧ (0 < x.stamp) ∧ x.stamp ≤ 5)
      | none => false) = true) ∧
    (let c : Coach := { keyCoach (wordOf 0x2A 0 0 0 0 0) with
       set := some { locks := [(5, [1])], staged := [{ ns := 5, key := [1], addr := 77 }] } }
     let d := runs stored c
     d.nsActive 5 = true ∧ d.regionGate 0 = none ∧ c.privileged = false ∧ d.room (frontOf 0 1 true) 1 = true ∧
     d.cartRoom 2000 3000 0 1 0 = true) ∧
    (let c : Coach := { keyCoach (wordOf 0x29 0 0 0 0 0) with wait := .holder 5 [1] }
     let d : Dev := { runs held9 c with store := { held9.store with dir := [(unitBase 0, { fp := data0.fpOf 5 [1], key := [1], ns := 5 })] } }
     d.coachIn 0 = some (0, c) ∧ c.current.op = 0x29 ∧ d.dirClean 0 (d.dirKeyOf 5 [1]) = true ∧
     (match d.unit? 0 5 [1] with | some (_, x) => decide (x.hold = 0) | none => false) = true ∧
     (match held9.unit? 0 5 [1] with | some (_, x) => decide (x.hold = 2 ∧ x.holder ≠ some 0 ∧ x.stamp ≤ 5) | none => false) = true) := by
  decide +kernel

set_option maxRecDepth 100000 in
/-- LOCK opens a set or meets a conflict (R56, R57). -/
theorem test_lock :
    (ran (.lock 0) (runs data0 (keyCoach (wordOf 0x29 0 0 0 0 0)))).flags.setOpen = true ∧
    (ran (.lock 0) (runs held9 { keyCoach (wordOf 0x29 0 0 0 0 0) with stamp := 6 })).status = 0x14 ∧
    ((run (.lock 0) (on (runs held9 (keyCoach (wordOf 0x29 0 0 0 0 0))))).coach? 0).map (·.wait) = some (.holder 5 [1]) := by
  decide +kernel


/-- A migration record of key 1, version 3, in which the value `[1, 2, 3, 4]` follows the header. -/
def migration0 : Bytes :=
  let r := migrationHeader { rec0 with key := [1] } 3 ++ [1, 2, 3, 4]
  r ++ beBytes 4 (crc32c r)

/-- A coach bound to a stream of direction `dir`, with `b` in its inbound area. -/
def bound (w : W64) (dir : Nat) (b : Bytes) : Coach :=
  { keyCoach w with streamHeld := some (0, dir, 0), inbound := b
                    run := { (keyCoach w).run with g := [0, BitVec.ofNat 64 b.length, BitVec.ofNat 64 cursorEnd] ++ List.replicate 13 0 } }

/-- The directory has been searched for key 1, which an IMPORT has loaded. -/
def imports (d : Dev) (c : Coach) : Dev := (d.onRun 0 fun r => { r with keyReg := [1] }).searched c 0

set_option maxRecDepth 100000 in
/-- Hypotheses of IterationAndMigration: the first cursor of ITER with one entry, the last with the most, an EXPORT, an IMPORT of a
record that is not newer and of a new one, a sub-request that GET waits for. -/
theorem witness_IterationAndMigration :
    (let c := bound (wordOf 0x32 3 2 0 0 64) 1 []
     ¬ c.run.num c.current.a < cursorEnd ∧ 1 ≤ c.current.imm % 128 ∧ c.current.imm % 128 ≤ 64) ∧
    (let c := bound (wordOf 0x32 3 0 0 0 1) 1 []
     let d := runs stored c
     c.run.num c.current.a < cursorEnd ∧ 1 ≤ c.current.imm % 128 ∧ c.current.imm % 128 ≤ 64 ∧
     bits (c.run.num c.current.a) 5 32 < 2 ^ d.geom.k ∧ d.regionGate (bits (c.run.num c.current.a) 37 3) = none ∧
     d.fw.recovery ≠ 1 ∧ d.nsActive 5 = true) ∧
    (let c := bound (wordOf 0x33 3 0 0 0 0) 1 []
     let d := (runs stored c).searched c 0
     c.boundFor 1 = true ∧ (d.look 0 5 [1] true []).hit = some hit0 ∧ d.recordAt 77 = some rec0 ∧
     d.segmentClosed [77] 0 64 = false ∧ d.keysHeld [77] = true ∧
     (appendField c.run.resp (.attached { ns := 5, fp := d.fpFor c, addrs := [77], totalLen := 4, length := 4, whole := true
                                          header := migrationHeader rec0 3, export_ := true })).isSome = true) ∧
    (let c := bound (wordOf 0x34 3 0 1 0 0) 2 migration0
     let d := imports (runs stored c) c
     c.boundFor 2 = true ∧ c.set = none ∧ inArea c.inbound (c.run.num c.current.a) (c.run.num c.current.b) = true ∧
     migrationFault migration0 = none ∧ slice migration0 72 (beAt migration0 4 1) = [1] ∧ d.heldByOther 0 0 5 [1] = none ∧
     (d.look 0 5 [1] true []).hit = some hit0 ∧ beAt migration0 8 8 ≤ hit0.version) ∧
    (let c := bound (wordOf 0x34 3 0 1 0 0) 2 migration0
     let d := imports (runs data0 c) c
     let w := d.askFor 0 (d.fpOf 5 [1]) c (d.look 0 5 [1] true []) { value := [1, 2, 3, 4], imported := some (3, 0, []) }
     (d.look 0 5 [1] true []).hit = none ∧ (d.unitFor 0 0 5 [1]).isSome = true ∧ c.run.flags.committed = false ∧
     wroteAll (d.writeRecords {} w) = true) ∧
    (let c : Coach := { keyCoach (wordOf 0x22 3 0 0 1 0) with home := 1, wait := .subRequest 0 }
     let d := runs stored c
     d.coachIn 0 = some (0, c) ∧ c.current.op = 0x22 ∧ c.current.m = 1 ∧ d.regionGate 0 = none ∧
     ((d.searched c 0).lookFor c 0 5 [1] true []).1.hit = some hit0 ∧ (d.searched c 0).recordAt 77 = some rec0 ∧
     (d.searched c 0).servesClosed [77] 0 4 true = false ∧ (d.searched c 0).keysHeld [77] = true ∧
     (appendField c.run.resp (.attached { ns := 5, fp := d.fpFor c, home := 0, addrs := [77], totalLen := 4, length := 4
                                          whole := true })).isSome = true) := by decide +kernel

set_option maxRecDepth 100000 in
/-- IMPORT takes the record's version, and refuses one that is not newer; ITER and EXPORT complete (R100, R102, R103). -/
theorem test_import :
    (ran (.import_ 0 {}) (runs data0 (bound (wordOf 0x34 3 0 1 0 0) 2 migration0))).reg 3 = 3 ∧
    (ran (.import_ 0 {}) (runs stored (bound (wordOf 0x34 3 0 1 0 0) 2 migration0))).status = 0x02 ∧
    (ran (.subRequestAnswer 0 {}) (runs stored { keyCoach (wordOf 0x24 3 0 0 0 0) with home := 1, wait := .subRequest 0 })).reg 3
      = 3 ∧
    (ran (.iter 0 {}) (runs stored (bound (wordOf 0x32 3 0 0 0 1) 1 []))).status = 0x00 ∧
    (ran (.export_ 0 {}) (runs stored (bound (wordOf 0x33 3 0 0 0 0) 1 []))).resp.length = 1 := by decide +kernel

/-! ## Management instructions and keys -/

/-- A management coach at `w`, in a context of the first management engine, with registers `g` and inbound bytes. -/
def mgmt (w : W64) (g : List W64) (b : Bytes) : Coach :=
  { coach0 w with path := 2, ctx := some 2048, cluster := 64, inbound := b, run := { g := g ++ List.replicate (16 - g.length) 0 } }

/-- The premise of the statements on management instructions. -/
theorem mgmt_acts {w : W64} {op : Nat} (g : List W64) (b : Bytes) (h : (fieldsOf w).op = op) :
    (runs up (mgmt w g b)).Acts 2048 0 (mgmt w g b) op :=
  ⟨⟨rfl, rfl, rfl, rfl, Nat.zero_lt_succ _, h⟩, nofun, rfl⟩

/-- Hypotheses of ManagementReads: an aligned and a misaligned address, the least and the most events, a count that is kept. -/
theorem witness_ManagementReads :
    (mgmt (wordOf 0x40 3 1 0 0 0) [0, 8] []).control (mgmt (wordOf 0x40 3 1 0 0 0) [0, 8] []).current = some (8, false) ∧
    (mgmt (wordOf 0x40 3 1 0 1 0) [0, 4] []).control (mgmt (wordOf 0x40 3 1 0 1 0) [0, 4] []).current = none ∧
    (let c := mgmt (wordOf 0x42 3 1 0 1 256) [0, 0] []
     1 ≤ c.current.imm % 512 ∧ c.current.imm % 512 ≤ 256 ∧ (c.run.reg c.current.a).toNat < 2 ^ 63 ∧ c.current.m = 1) ∧
    (let c := mgmt (wordOf 0x42 3 1 0 0 1) [0, 0] []
     1 ≤ c.current.imm % 512 ∧ c.current.imm % 512 ≤ 256 ∧ c.current.m = 0) ∧
    (let c := mgmt (wordOf 0x43 3 1 0 0 0) [0, 5 + 8 * 65536] []
     (c.run.reg c.current.a).toNat = 5 + 8 * 65536 ∧ ((runs up c).counters 5 8).isSome = true) := by decide

/-- MRD reads CHIP_ID, and refuses an address that is not aligned (R108). -/
theorem test_mrd :
    (ran (.mrd 2048) (runs up (mgmt (wordOf 0x40 3 1 0 0 0) [0, 0] []))).reg 3 = 0x9640C1E0 ∧
    (ran (.mrd 2048) (runs up (mgmt (wordOf 0x40 3 1 0 1 0) [0, 4] []))).status = 0x1B := by decide

/-- A data-key blob of owner 15. -/
def blob1 : Bytes := [0x53, 0x4B, 0x4B, 0x42, 1, 15, 0, 0] ++ zeros 56
/-- An enrolment blob. -/
def blob2 : Bytes := [0x53, 0x4B, 0x4B, 0x42, 2, 0, 0, 0] ++ zeros 184

/-- Keys: owner 15 enrolled, slot 4095 loaded, slot 7 naming owner 3. -/
def keyed0 : Dev :=
  { up with keys := { table := { owners := [(3, { enrolled := true }), (15, { enrolled := true })]
                                 slots := [(7, { state := .loaded, owner := 3 }), (4095, { state := .loaded, loads := 65534 })] }
                      store := [(4095, [1])] } }

/-- Hypotheses of KslotActsOnKeys: a named and any empty slot, the first and last owner, loaded slots at the last load count,
an owner that a slot names and one that none names, a seal that is durable. -/
theorem witness_KslotActsOnKeys :
    (let c := mgmt (wordOf 0x44 3 1 2 0 0) [0, 4094, 0] blob1
     (runs keyed0 c).Acts 2048 0 c 0x44 ∧ (c.run.reg c.current.a).toNat = 4094 ∧ ((runs keyed0 c).slot 4094).state = .empty ∧
     (c.dataBlob c.current).map Prod.fst = some 15 ∧ ((runs keyed0 c).owner 15).enrolled = true ∧
     (runs keyed0 c).lockRefused 2048 = false ∧ ((runs keyed0 c).slot 4094).loads < 65535) ∧
    (runs keyed0 (mgmt (wordOf 0x44 3 1 2 0 0) [0, 4096, 0] blob1)).emptySlot = some 0 ∧
    (let c := mgmt (wordOf 0x44 3 1 2 0 0) [0, 8192 + 15, 0] blob2
     (c.run.reg c.current.a).toNat = 8192 + 15 ∧ (c.ownerBlob c.current).isSome = true ∧ (up.owner 15).enrolled = false) ∧
    (let c := mgmt (wordOf 0x44 3 1 2 2 0) [0, 4095, 0] blob1
     c.current.m = 2 ∧ (c.run.reg c.current.a).toNat = 4095 ∧ (keyed0.slot 4095).state = .loaded ∧
     (keyed0.slot 4095).loads < 65535 ∧ keyed0.keys.rekey.running = false ∧ (keyed0.slot 4095).state ≠ .empty) ∧
    (keyed0.ownerNamed 15 = false ∧ keyed0.ownerNamed 3 = true) ∧
    (let c : Coach := { mgmt (wordOf 0x44 3 1 2 0 0) [0, 4094, 0] blob1 with wait := .seals [(7, 0)] }
     let d : Dev := { runs up c with store := { up.store with regions := [(7, { loaded := true, sealNow := 1 })] } }
     d.Sealed 2048 0 c 0x44 [(7, 0)]) :=
  ⟨⟨⟨⟨rfl, rfl, rfl, rfl, by decide, rfl⟩, by decide, rfl⟩, by decide⟩, by decide, by decide, by decide, by decide,
   ⟨rfl, rfl, rfl, rfl, rfl, rfl⟩⟩

/-- A clear erases the slot's keys at once; an owner that a slot names is not cleared (R360, R362). -/
theorem test_kslot_clear :
    (run (.kslotClear 2048) (on (runs keyed0 (mgmt (wordOf 0x44 3 1 2 1 0) [0, 4095] [])))).keys.store.get? 4095 = none ∧
    (ran (.kslotClearOwner 2048) (runs keyed0 (mgmt (wordOf 0x44 3 1 2 1 0) [0, 8195] []))).status = 0x1B := by decide

/-- A record of key 1 under generation 1 of slot 9, and the same with its tag. -/
def sealedBy : Record := { rec0 with keySlot := 9, slotGen := 1 }
@[inherit_doc sealedBy] def sealed0 : Record :=
  { sealedBy with tag := gcmTag (zeros 32) sealedBy.iv sealedBy.header sealedBy.payload }

/-- A walk of the rekey of slot 9 from generation 1 to 2, over the live record of address 77 under the previous one. -/
def walking : Dev :=
  { data0 with
    keys := { table := { slots := [(9, { state := .rekeying, gen := 2, prevGen := 1 })] }, store := [(9, zeros 32)]
              prevStore := [(9, zeros 32)], rekey := { slot := 9, running := true }
              blocks := [(9, { gen := 2, next := 4, stop := 8, ahead := some 2097152 })] }
    store := { data0.store with
      regions := (0, { loaded := true, live := [(77, ())] }) :: data0.store.regions.drop 1
      fronts := data0.store.fronts ++ [(4, { stripe := some 6 })]
      buf := [(77, { rec_ := sealed0 })] } }

set_option maxRecDepth 100000 in
/-- Hypotheses of RekeyWalksTheRecords: a record under the previous generation with a counter and room for its copy, one that
is not, and the end of the walk. -/
theorem witness_RekeyWalksTheRecords :
    (walking.tending 0 = true ∧ walking.keys.rekey.running = true ∧ walking.sealedAll walking.keys.rekey.started = true ∧
     walking.entryNames 0 77 = true ∧ walking.beingMoved 77 = false ∧ walking.underPrev 77 = true ∧
     walking.keys.rekey.failedAt.contains 77 = false ∧
     (match (walking.visitEntry 77).nextCounter (walking.homeOf 5 [1]) 9 with
      | .value _ d1 => (d1.copyRecord 77 rec0 true).isSome
      | _ => false) = true) ∧
    (let d : Dev := { walking with store := { walking.store with buf := [(77, { rec_ := { rec0 with keySlot := 9, slotGen := 2 } })] } }
     d.entryNames 0 77 = true ∧ d.underPrev 77 = false ∧ d.live = true ∧ d.openRegions.all d.rekeyRegionDone = true ∧
     d.store.moves.any (fun m => m.2.rekey) = false ∧ d.sealedAll d.keys.rekey.gens = true) := by decide +kernel

/-- The record opens under the previous key. -/
theorem witness_rekey_reads : (walking.readSegment 77 .good).st = 0x00 := by
  have k : walking.recordKey sealed0 = some (zeros 32) := by decide
  have t : gcmTag (zeros 32) sealedBy.iv sealedBy.header sealedBy.payload = sealed0.tag := rfl
  have i : sealed0.iv = sealedBy.iv := rfl
  have h : sealed0.header = sealedBy.header := by unfold Record.header; rfl
  have p : sealed0.payload = sealedBy.payload := rfl
  show (walking.openPayload 77 sealed0 sealed0.payload).st = 0x00
  unfold Dev.openPayload
  rw [k, if_neg (by decide)]
  simp only [p, i, h, t, bne_self_eq_false, Bool.false_eq_true, if_false]
  rfl

/-- The walk ends: the slot is loaded, its previous key gone (R363). -/
theorem test_rekey_done :
    (run .rekeyWalkDone (on { walking with store := { walking.store with buf := [] } })).slot 9 =
      { state := .loaded, gen := 2 } := by decide

/-! ## Namespaces, format, streams, time -/

/-- A namespace descriptor: plaintext, durability 3, class 7, every option. -/
def desc0 : Bytes := [0xFF, 0xFF, 2, 0, 3, 7, 3, 0] ++ zeros 56

/-- The options that descriptor holds. -/
def opts0 : NsDescriptor :=
  { keySlot := 0xFFFF, fixity := 2, groupPrefix := 0, durability := 3, ceiling := 7, options := 3, quota := 0 }

/-- A device on which coach 0 has asked for namespace 9, or for a change of namespace 5 that retires its tokens. -/
def changed (create : Bool) : Dev :=
  { data0 with store := { data0.store with
      nsChanges := [(0, if create then { nsid := 9, create := true, desc := opts0 }
                         else { nsid := 5, create := false, retire := true, desc := opts0 })] } }

/-- Hypotheses of NamespacesComeAndGo, NSDEF: the last free number, an active namespace with and without retired tokens, a
removal, one that has started and one that another coach holds up. -/
theorem witness_NamespacesComeAndGo_nsdef :
    (let c := mgmt (wordOf 0x45 3 1 2 0 0) [0, 65535, 0] desc0
     (runs up c).Acts 2048 0 c 0x45 ∧ (c.run.reg c.current.a).toNat = 65535 ∧ ((runs up c).ns 65535).state = .free ∧
     (runs up c).creating 0 65535 = false ∧
     (c.nsDescriptor c.current).map (·.options) = some 3 ∧ (c.nsDescriptor c.current).map (·.keySlot) = some 0xFFFF ∧
     (runs up c).slotHoldsKey 0xFFFF = true) ∧
    (let c := mgmt (wordOf 0x45 3 1 2 1 0) [0, 5, 0] desc0
     c.current.m = 1 ∧ (c.run.reg c.current.a).toNat = 5 ∧ (data0.ns 5).state = .active ∧ (data0.ns 5).liveKeys = 0 ∧
     (c.nsDescriptor c.current).isSome = true) ∧
    (mgmt (wordOf 0x45 3 1 2 2 0) [0, 5, 0] []).current.m = 2 ∧
    (let c : Coach := { mgmt (wordOf 0x45 3 1 2 0 0) [0, 5, 0] desc0 with wait := .seals [] }
     (runs (changed true) c).Sealed 2048 0 c 0x45 []) ∧
    ((changed true).store.nsChanges.get? 0 = some { nsid := 9, create := true, desc := opts0 } ∧
     (changed false).store.nsChanges.get? 0 = some { nsid := 5, create := false, retire := true, desc := opts0 } ∧ ((changed false).ns 5).state ≠ .free ∧
     ((changed false).ns 5).liveKeys = 0) ∧
    (let c : Coach := { mgmt (wordOf 0x45 3 1 2 2 0) [0, 5, 0] [] with wait := .coaches 5 }
     let d : Dev := { runs data0 c with store := { data0.store with removals := [(5, { remover := some 0 })] } }
     d.coachIn 2048 = some (0, c) ∧ d.pathRuns c.privileged = true ∧ c.current.op = 0x45 ∧ d.removalStarted 5 = true ∧
     (let e : Dev := { d with eng := { d.eng with coaches := d.eng.coaches ++ [(1, { stage := .running, loaded := [5] })] } }
      e.coachIn 2048 = some (0, c) ∧ e.removalStarted 5 = false)) :=
  ⟨⟨⟨⟨rfl, rfl, rfl, rfl, by decide, rfl⟩, by decide, rfl⟩, by decide⟩, by decide, by decide,
   ⟨rfl, rfl, rfl, rfl, rfl, rfl⟩, by decide, by decide⟩

/-- A create takes effect when its seals are durable, a modify may retire tokens, a removal begins at once (R115 to R118). -/
theorem test_nsdef :
    ((run (.nsdefCreate 2048) (on (runs up (mgmt (wordOf 0x45 3 1 2 0 0) [0, 9, 0] desc0)))).ns 9).state = .free ∧
    ((run (.nsdefComplete 2048) (on (runs (changed true) { mgmt (wordOf 0x45 3 1 2 0 0) [0, 9, 0] desc0 with wait := .seals [] }))).ns 9).state
      = .active ∧
    ((run (.nsdefComplete 2048) (on (runs (changed false) { mgmt (wordOf 0x45 3 1 2 1 0) [0, 5, 0] desc0 with wait := .seals [] }))).ns 5).epoch
      = 1 ∧
    ((run (.nsdefRemove 2048) (on (runs data0 (mgmt (wordOf 0x45 3 1 2 2 0) [0, 5, 0] [])))).ns 5).state = .removing := by decide

/-- A device whose namespace 5 is being removed. -/
def removing : Dev :=
  { data0 with store := { data0.store with
      namespaces := [(5, { state := .removing, usage := 4096, liveKeys := 1 })]
      removals := [(5, { walked := 0xFF })] } }

/-- Hypotheses of NamespacesComeAndGo, removal: a walk, the end of it, a token generation at its wrap. -/
theorem witness_NamespacesComeAndGo_removal :
    (removing.tending 7 = true ∧ (removing.ns 5).state = .removing ∧ removing.removalStarted 5 = true ∧ removing.live = true ∧
     removing.openRegions.all (removing.store.removals.get {} 5).walked.getLsbD = true ∧
     removing.sealedAll (removing.store.removals.get {} 5).gens = true) ∧
    (let d : Dev := { data0 with store := { data0.store with namespaces := [(5, { state := .active, tokenGen := 2 ^ 32 })] } }
     d.live = true ∧ (d.ns 5).state = .active ∧ 2 ^ 32 ≤ (d.ns 5).tokenGen) := by decide

/-- The namespace is free again (R118). -/
theorem test_namespace_free :
    (run (.namespaceFree 5) (on removing)).ns 5 = { state := .free } := by decide

/-- A board small enough for an index of 2^10 buckets, and a format that asks for it. -/
def board0 : Board := { planes := 1, ces := 1, luns := 1, ppb := 64, bpp := 64, channels := 1 }
/-- The descriptor of that format: k = 10, 1,024 overflow buckets, 1,024 MiB of protected buffer. -/
def ask0 : Bytes := [0, 0, 10, 0] ++ leBytes 4 1024 ++ leBytes 4 1024 ++ zeros 52

/-- A device whose DRAM is trained. -/
def trained0 : Dev := { up with trained := BitVec.allOnes 24 }

/-- A format check that passes. -/
def passes : Except Byte (FormatAsk × Geometry) → Bool
  | .ok _ => true
  | .error _ => false

/-- Hypotheses of FormatClearsTheDevice: checks that pass, one that fails in each of the first and the last places, a format
that may complete. -/
theorem witness_FormatClearsTheDevice :
    (let c := mgmt (wordOf 0x46 0 1 0 0 3) [0, 0] ask0
     (runs trained0 c).Acts 2048 0 c 0x46 ∧ passes ((runs trained0 c).formatCheck board0 c c.current) = true) ∧
    (let c := mgmt (wordOf 0x46 0 1 0 0 4) [0, 0] ask0
     board0.modeLegal (c.current.imm % 8) = false ∧ passes ((runs trained0 c).formatCheck board0 c c.current) = false) ∧
    (let d : Dev := { up with store := { up.store with fmtRunning := true } }
     d.live = true ∧ d.formatReady = true ∧ d.chip.state = 1) :=
  ⟨⟨⟨⟨rfl, rfl, rfl, rfl, by decide, rfl⟩, by decide, rfl⟩, by decide⟩, by decide, by decide⟩

/-- FMT in a mode that no die advertises is refused (R200). -/
theorem test_fmt :
    (((run (.fmt 2048) { on (runs trained0 (mgmt (wordOf 0x46 0 1 0 0 4) [0, 0] ask0)) with board := board0 }).coach? 0).getD {}).run.status
      = 0x1B ∧
    (run (.fmt 2048) { on (runs trained0 (mgmt (wordOf 0x46 0 1 0 0 3) [0, 0] ask0)) with board := board0 }).store.fmtRunning = true := by
  decide

/-- A stream descriptor: out, bound to session 0. -/
def stream0 : Bytes := [1, 1] ++ zeros 62

/-- A device with session 0 and stream 63 open. -/
def streaming : Dev := { up with net := { sessions := [(0, sess0)], streams := [(63, { isOpen := true, kind := 2, source := 4 })] } }

/-- Hypotheses of StreamsAndTime: a named stream, any free one, an open one, the least wall time and one below it. -/
theorem witness_StreamsAndTime :
    (let c := mgmt (wordOf 0x47 3 1 2 0 0) [0, 62, 0] stream0
     (runs streaming c).Acts 2048 0 c 0x47 ∧ inArea c.inbound (c.run.reg c.current.b).toNat 64 = true ∧
     (runs streaming c).streamLegal (slice c.inbound (c.run.reg c.current.b).toNat 64) = true ∧
     (streaming.net.streams.get {} 62).isOpen = false) ∧
    (let c := mgmt (wordOf 0x47 3 1 2 0 0) [0, 64, 0] stream0
     (c.run.reg c.current.a).toNat = 64 ∧ (streaming.net.streams.get {} 0).isOpen = false) ∧
    (let c := mgmt (wordOf 0x47 3 1 2 1 0) [0, 63] []
     c.current.m = 1 ∧ (c.run.reg c.current.a).toNat = 63 ∧ (streaming.net.streams.get {} 63).isOpen = true) ∧
    (let c := mgmt (wordOf 0x48 0 1 0 0 0) [0, 1577836800000000000] []
     (runs up c).Acts 2048 0 c 0x48 ∧ 1577836800 * 10 ^ 9 ≤ (c.run.reg c.current.a).toNat ∧ (c.run.reg c.current.a).toNat < 2 ^ 63) ∧
    (mgmt (wordOf 0x48 0 1 0 0 0) [0, 1577836799999999999] []).run.reg 1 = 1577836799999999999 :=
  ⟨⟨⟨⟨rfl, rfl, rfl, rfl, by decide, rfl⟩, by decide, rfl⟩, by decide⟩, by decide, by decide,
   ⟨⟨⟨rfl, rfl, rfl, rfl, by decide, rfl⟩, by decide, rfl⟩, by decide⟩, by decide⟩

/-- MIG takes the lowest free stream; TIME refuses a time before 2020 (R114, R310). -/
theorem test_streams_time :
    (ran (.migOpen 2048) (runs streaming (mgmt (wordOf 0x47 3 1 2 0 0) [0, 64, 0] stream0))).reg 3 = 0 ∧
    (run (.time 2048) (on (runs up (mgmt (wordOf 0x48 0 1 0 0 0) [0, 1577836800000000000] [])))).wall.known = true ∧
    (ran (.time 2048) (runs up (mgmt (wordOf 0x48 0 1 0 0 0) [0, 1577836799999999999] []))).status = 0x1B := by decide

/-! ## Firmware, settings, fences -/

/-- The first bytes of an image. -/
def image0 : Bytes := [0x53, 0x4B, 0x46, 0x57, 1, 0x11]

/-- Hypotheses of ImagesAreStaged: the first bytes of an image, bytes that follow, a refusal, a check, 10 s without a byte. -/
theorem witness_ImagesAreStaged :
    (let c := mgmt (wordOf 0x49 0 1 2 0 0) [0, 0, 6] image0
     (runs up c).Acts 2048 0 c 0x49 ∧ (runs up c).stageRefusal c c.current = none) ∧
    (let c := mgmt (wordOf 0x49 0 1 2 0 4) [0, 0, 6] image0
     let d : Dev := { runs up c with fw := { stageActive := true, stageBytes := 4 } }
     d.stageRefusal c c.current = none ∧ c.current.imm % 2 ^ 26 = 4) ∧
    (let c := mgmt (wordOf 0x49 0 1 2 0 8) [0, 0, 6] image0
     let d : Dev := { runs up c with fw := { stageActive := true, stageBytes := 4 } }
     d.stageRefusal c c.current = some 0x1B) ∧
    (let d : Dev := { up with fw := { stageActive := true, stageChecking := true } }
     d.live = true ∧ d.fw.stageChecking = true) ∧
    (let d : Dev := { up with fw := { stageActive := true, stageTick := 5 }, chip := { up.chip with tick := 10005 } }
     d.live = true ∧ d.fw.stageActive = true ∧ d.fw.stageChecking = false ∧ d.fw.stageTick + 10000 ≤ d.chip.tick) :=
  ⟨⟨⟨⟨rfl, rfl, rfl, rfl, by decide, rfl⟩, by decide, rfl⟩, by decide⟩, by decide, by decide, by decide, by decide⟩

/-- FWSTAGE programs the bytes into the slot that is neither active nor protected (R389). -/
theorem test_fwstage :
    (let c := mgmt (wordOf 0x49 0 1 2 0 4) [0, 0, 6] image0
     let d : Dev := { runs up c with fw := { stageActive := true, stageBytes := 4, stageSlot := 1 } }
     let t := after (.fwstage 2048 true) (on d)
     t.dev.fw.stageBytes = 10 ∧ Mem.read 0xFF t.mem.norA (slotBase 1 + 4) = 0x53 ∧
     (after (.fwstage 2048 false) (on d)).dev.fw.stageResult = 0x63) := by decide

/-- Ten seconds without FWSTAGE end staging, and not a tick less (R390). -/
theorem test_staging_idle :
    (run .stagingIdleTimeout (on { up with fw := { stageActive := true }, chip := { up.chip with tick := 10000 } })).fw.stageResult = 0x66 ∧
    (run .stagingIdleTimeout (on { up with fw := { stageActive := true }, chip := { up.chip with tick := 9999 } })).fw.stageActive = true := by
  decide

/-- Hypotheses of TrialsAreCommittedOrFail: a trial that runs, none, and 120 s in service and in start-up. -/
theorem witness_TrialsAreCommittedOrFail :
    (let c := mgmt (wordOf 0x4A 0 0 0 0 0) [] []
     let d : Dev := { runs up c with fw := { bcr := { tstate := 2, trial := 1 }, onTrial := true } }
     d.At 2048 0 c 0x4A ∧ d.failsafe = false ∧ d.fw.recovery ≠ 1 ∧ d.chip.state = 1 ∧ d.fw.bcr.tstate = 2) ∧
    up.fw.bcr.tstate ≠ 2 ∧
    (let d : Dev := { up with fw := { onTrial := true }, chip := { up.chip with tick := 120000 } }
     d.live = true ∧ d.fw.onTrial = true ∧ d.fw.trialFailed = none ∧ d.pfail.flush = .none ∧
     d.fw.trialTick + 120000 ≤ d.chip.tick ∧ d.chip.state = 1) ∧
    (let d : Dev := { starting 5 with fw := { onTrial := true }, chip := { tick := 120000 } }
     d.live = true ∧ d.chip.state ≠ 1) :=
  ⟨⟨⟨rfl, rfl, rfl, rfl, by decide, rfl⟩, by decide⟩, by decide, by decide, by decide⟩

/-- FWCOMMIT makes the trial image active (R392). -/
theorem test_fwcommit :
    (let c := mgmt (wordOf 0x4A 0 0 0 0 0) [] []
     (run (.fwcommit 2048) (on { runs up c with fw := { bcr := { tstate := 2, trial := 1 }, onTrial := true } })).fw.bcr.active = 1 ∧
     (ran (.fwcommit 2048) (runs up c)).status = 0x1B) := by decide

/-- A settings record without entries in SET_WINDOW. -/
def window0 : Mem := Mem.writeBytes 0 [] 0 (settingsBytes 0 0 0 0 0xFF [])

/-- Hypotheses of SettingsAreCommitted: a record that is written, a trial, no record, the end of a commit to either area. -/
theorem witness_SettingsAreCommitted :
    (up.live = true ∧ up.fw.setBusy = false ∧ up.fw.bcr.tstate ≠ 2 ∧ up.fw.stageActive = false ∧
     (readSettings 0 window0 0).map (·.format) = some up.fw.image.setWrite) ∧
    ((.pf1 : Requester) ≠ .pf0 ∧ readSettings 0 [] 0 = none) ∧
    (let d : Dev := { up with fw := { setBusy := true, setRecord := [1, 2], bcr := { setArea := 0 } } }
     d.live = true ∧ d.fw.setBusy = true ∧ (if d.fw.bcr.setArea = 0 then 1 else 0) = 1) := by decide

/-- A commit takes the record, and its end writes it to the area not in use (R396, R397). -/
theorem test_settings :
    (run (.settingsCommit .pf1) { on up with mem := { setWindow := window0 } }).fw.setBusy = true ∧
    (run (.settingsCommit .pf1) (on up)).fw.setResult = 0x64 ∧
    Mem.read 0xFF (after (.settingsCommitDone true) (on { up with fw :=
      { setBusy := true, setRecord := [1, 2], bcr := { setArea := 0 } } })).mem.norB (mirrorBase 1 + 1) = 2 := by decide

/-- Hypotheses of FencesComplete: a fence to complete, a die that works and one that is out, parts that are not fenced. -/
theorem witness_FencesComplete :
    (let d : Dev := { data0 with chip := { data0.chip with fencing := 0x80 } }
     d.live = true ∧ d.chip.fencing.getLsbD 7 = true ∧ d.store.geom.isSome = true) ∧
    ((up.die 2047).state < 2 ∧
     2 ≤ (({ up with store := { up.store with dies := [(2047, { state := 2 })] } } : Dev).die 2047).state) ∧
    ((up.mac 63).fenced = false ∧ (up.recorder 7).fenced = false ∧ data0.geom.populated 7 15 = true ∧ 0 < data0.geom.ces ∧
     0 < data0.geom.luns) := by decide

/-- A fence that completes writes a keystone; one that cannot enters the fail-safe state (R17, R246). -/
theorem test_fences :
    ((run (.regionFenceComplete 7 {}) (on { data0 with chip := { data0.chip with fencing := 0x80 } })).region 7).kseq = 1 ∧
    (run (.regionFenceComplete 7 { stepsOk := false }) (on { data0 with chip := { data0.chip with fencing := 0x80 } })).chip.reason = 0x74 ∧
    ((run (.dieFailed 2047) (on up)).die 2047).state = 3 := by decide

/-! ## Banks and reads of the media -/

/-- A device whose bank 3 (the classification bank of region 0) holds row 7. -/
def banked : Dev :=
  { up with store := { up.store with banks := [(3, { rows := [(7, { value := 5, mask := 2 ^ 160 - 1 })] })] } }

/-- Hypotheses of BanksSearchRepairAndScrub: a search without a fault; a row with one bit flipped, which shows its parity, and
with two, which are a false hit; a row rewritten 999 ms ago, a shadow word past correction, a scrub pass that finds as many rows as
there are replacement registers. -/
theorem witness_BanksSearchRepairAndScrub :
    (banked.live = true ∧ banked.fencedRegion (bankRegion 3) = false ∧ banked.faultMet 3 5 0 = .none ∧
     (banked.bank 3).replaced.contains 7 = false ∧ (banked.bank 3).rewritten.get? 7 = none ∧ (banked.bank 3).failed = false ∧
     (let e := banked.strikeBank 3 [.flip 7 1]
      (e.bank 3).struck = [(7, 1)] ∧ (e.bank 3).shadowBad = [] ∧ e.faultMet 3 5 0 = .parity 7 0) ∧
     (let e := banked.strikeBank 3 [.flip 7 3]
      (e.bank 3).struck = [(7, 3)] ∧ (e.bank 3).shadowBad = [] ∧ (match e.faultMet 3 6 0 with | .falseHit r _ => r == 7 | _ => false) = true)) ∧
    (let d : Dev := { up with store := { up.store with banks := [(31, { rewritten := [(2047, 1)] })] }
                              chip := { up.chip with tick := 1000 } }
     let e := d.strikeBank 31 [.flip 2047 1]
     d.live = true ∧ d.fencedRegion (bankRegion 31) = false ∧ (e.bank 31).shadowBad.contains 2047 = false ∧
     (e.bank 31).struck.get? 2047 = some 1 ∧ (e.bank 31).replaced.contains 2047 = false ∧ (e.bank 31).replaced.length < 4 ∧
     (e.bank 31).rewritten.get? 2047 = some 1 ∧ d.chip.tick < 1 + 1000) ∧
    ((up.bank 31).shadowBad.contains 2047 = false ∧ (up.bank 31).struck.get? 2047 = none ∧ (up.bank 31).failed = false ∧
     ((up.strikeBank 31 [.shadow 0]).bank 31).shadowBad.contains 0 = true) ∧
    (let c : Coach := { coach0 (wordOf 0x4B 1 2 3 5 0) with wait := .scrub 3 }
     let d := withCoach c
     let e := d.strikeBank 3 [.flip 0 1, .flip 1 1, .flip 2 1, .flip 2047 1]
     d.live = true ∧ d.coach? 0 = some c ∧ d.coachIn 0 = some (0, c) ∧ (e.bank 3).shadowBad = [] ∧
     (e.bank 3).struck.wf = true ∧ (e.bank 3).replaced.length + (e.bank 3).struck.length ≤ 4 ∧
     (e.bank 3).struck.length = 4 ∧ (∀ r ∈ (e.bank 3).replaced, (e.bank 3).struck.get? r = none)) := by decide +kernel

/-- A search is counted; a failed bank fences its region; a pass ends with what it repaired (R157, R161, R168). -/
theorem test_banks :
    ((run (.assocSearch 3 0 (some 7) []) (on up)).bank 3).c7Searches = 1 ∧
    ((run (.assocSearch 3 5 none [.flip 7 1]) (on banked)).bank 3).word = 7 + 2 ^ 13 + 2 ^ 15 + 2 ^ 29 ∧
    (run (.scrubberRowCheck 31 0 [.shadow 0]) (on up)).chip.fenced = 0x80 ∧
    (ran (.camopScrubPassEnd 0 [.flip 7 1]) { banked with
      eng := { coaches := [(0, { coach0 (wordOf 0x4B 1 2 3 5 0) with wait := .scrub 3 })] } }).reg 1 = 1 := by decide

/-- The CAMOP coach of mode `m` whose target register holds `ga`. -/
def camCoach (m ga : Nat) : Coach :=
  { mgmt (wordOf 0x4B 1 2 3 m 0) [0, 0, BitVec.ofNat 64 ga] (leBytes 20 5 ++ leBytes 20 (2 ^ 160 - 1) ++ zeros 24) with path := 2 }

/-- Hypotheses of CamopActsOnRows: the last row of a bank, a write to every region, a search from row 0 and the next, a scrub. -/
theorem witness_CamopActsOnRows :
    ((runs banked (camCoach 0 (2047 + 31 * 2 ^ 16))).Acts 2048 0 (camCoach 0 (2047 + 31 * 2 ^ 16)) 0x4B ∧
     camTarget (2047 + 31 * 2 ^ 16) = some (2047, 31, false) ∧ (runs banked (camCoach 0 (2047 + 31 * 2 ^ 16))).camOk 0 2047 31 false = true) ∧
    ((runs banked (camCoach 1 (7 + 3 * 2 ^ 16 + 2 ^ 24))).Acts 2048 0 (camCoach 1 (7 + 3 * 2 ^ 16 + 2 ^ 24)) 0x4B ∧
     camTarget (7 + 3 * 2 ^ 16 + 2 ^ 24) = some (7, 3, true) ∧ (runs banked (camCoach 1 (7 + 3 * 2 ^ 16 + 2 ^ 24))).camOk 1 7 3 true = true ∧
     (runs banked (camCoach 2 (7 + 3 * 2 ^ 16 + 2 ^ 24))).camOk 2 7 3 true = true) ∧
    (let c := camCoach 3 (7 + 3 * 2 ^ 16)
     let b := (c.camBlock c.current).getD []
     c.camBlock c.current = some b ∧
     leAt b 0 20 &&& leAt b 20 20 = leAt b 0 20 ∧ leAt b 20 20 = 2 ^ 160 - 1) ∧
    (let c : Coach := { camCoach 3 (3 * 2 ^ 16) with inbound := leBytes 20 5 ++ zeros 44 }
     let e := (runs banked c).strikeBank 3 [.flip 7 1]
     (c.camBlock c.current).bind (searchKey 3) = some 5 ∧ (runs banked c).faultMet 3 5 0 = .none ∧
     (e.bank 3).struck = [(7, 1)] ∧ (e.bank 3).shadowBad = [] ∧ (e.bank 3).replaced.contains 7 = false ∧
     (e.bank 3).rewritten.get? 7 = none ∧ e.faultMet 3 5 0 = .parity 7 0) ∧
    (runs banked (camCoach 5 (3 * 2 ^ 16))).camOk 5 0 3 false = true ∧ (runs banked (camCoach 5 (3 * 2 ^ 16))).scrubbing 3 = false :=
  ⟨⟨⟨⟨rfl, rfl, rfl, rfl, by decide, rfl⟩, nofun, rfl⟩, by decide, by decide⟩,
   ⟨⟨⟨rfl, rfl, rfl, rfl, by decide, rfl⟩, nofun, rfl⟩, by decide, by decide, by decide⟩, by decide, by decide, by decide, by decide⟩

/-- CAMOP finds the row that matches, clears it in every region and says whether it is valid (R166 to R168). -/
theorem test_camop :
    (let c : Coach := { camCoach 3 (3 * 2 ^ 16) with inbound := leBytes 20 5 ++ zeros 44 }
     ((((run (.camopSearch 2048 []) (on (runs banked c))).coach? 0).getD {}).run.reg 1) = 7 + 2 ^ 13 + 2 ^ 15 ∧
     ((((run (.camopSearch 2048 [.flip 2047 (2 ^ 80)]) (on (runs banked c))).coach? 0).getD {}).run.reg 1) = 7 + 2 ^ 13 + 2 ^ 15 + 2 ^ 29) ∧
    ((run (.camopClearRow 2048) (on (runs banked (camCoach 2 (7 + 3 * 2 ^ 16))))).bank 3).rows = [] ∧
    (((((run (.camopReadRow 2048) (on (runs banked (camCoach 0 (7 + 3 * 2 ^ 16))))).coach? 0).getD {}).run.reg 1) = 1) := by decide

/-- Hypotheses of ReadsOfTheMedia: the last block, page and sector of a format, a die that programs, a page that no course holds and
one that keeps mortar, a die whose program was suspended 9 and 10 ms ago, a block that the patrol visits next. -/
theorem witness_ReadsOfTheMedia :
    (data0.live = true ∧ data0.store.geom.isSome = true ∧ data0.geom.holds 0 0 15 15 (data0.geom.spg - 1) = true ∧
     data0.pfail.flush = .none ∧ data0.rebuildable 15 15 = false ∧
     ({ data0 with store := { data0.store with stripes := [(15, { kept := true })] } } : Dev).rebuildable 15 15 = true) ∧
    (let d : Dev := { data0 with store := { data0.store with
       courses := [(courseKey 0 0, { stripe := 3, filled := true })] } }
     d.dieBusy 0 = true ∧ (d.store.queues.get {} 0).spent = false ∧ (d.store.queues.get {} 0).suspended = false) ∧
    (∀ t : Fin 2, let d : Dev := { up with store := { up.store with queues := [(2047, { suspended := true, since := 1, held := 4 })] }
                                           chip := { up.chip with tick := 6 + t.val } }
     d.live = true ∧ d.store.queues.get? 2047 = some { suspended := true, since := 1, held := 4 } ∧
     (4 + (d.chip.tick - 1) < 10 ↔ t = 0)) ∧
    (let d : Dev := { data0 with store := { data0.store with stripes := [(3, { state := .verified, egen := 1 })] } }
     d.tending 0 = true ∧ (d.patrolRound 0).patrolNext 0 3 15 = true ∧ (d.patrolRound 0).patrolDue 0 = true) := by decide +kernel

/-- A read counts, a sector that is lost marks its stripe, a suspension lasts 10 ms at most (R213, R214, R253). -/
theorem test_reads :
    ((run (.pageReadComplete 0 0 15 15 0 false 12 .good 0) (on data0)).blockEntry (blockKey 15 0)).reads = 1 ∧
    ((run (.pageReadComplete 0 0 15 15 0 true 0 .failed 0) (on data0)).stripe 15).refresh = true ∧
    (run (.suspendLimitExpiry 2047) (on { up with store := { up.store with queues := [(2047, { suspended := true, held := 10 })] } })).store.queues
      = [(2047, { suspended := false, held := 10, spent := true })] := by decide

/-- The worked example of 06: seeds, row address, slots, the check values of the base matrix; the first stream bits are the
register's bits 22 exclusive-or 17 (R171, R174, R175, R177). -/
theorem test_sector_format :
    seedOf 0x0911032C0F09 = 0x2C0F10 ∧ seedOf 0x0911032C0F0A = 0x2C0F11 ∧
    ({ planes := 2, pageSize := 16384 } : Geometry).row 3 0x0911032C0F09 = { lun := 0, block := 1625, page := 722 } ∧
    ({ pageSize := 16384 } : Geometry).slotOf 9 = 1 ∧ slotStart 15 1 = 4608 ∧ slotStart 15 2 = 9216 ∧
    (List.range 15).filterMap (fun r => (baseEntry 15 r 0).map fun x => (r, x)) = [(0, 0), (1, 151), (3, 197), (7, 33)] ∧
    (List.range 15).filterMap (fun r => (baseEntry 15 r 128).map fun x => (r, x)) = [(0, 128), (8, 56), (9, 79), (11, 125)] ∧
    (List.range 15).filterMap (fun r => (baseEntry 15 r 129).map fun x => (r, x)) = [(0, 1), (7, 0), (14, 1)] ∧
    scramble 0x400000 [0xFE] = [0xFF] ∧ scramble 0x420000 [0, 0] = [0x20, 0] ∧ erasedSlot (List.replicate 8 0) = true ∧
    erasedSlot (List.replicate 9 0) = false := by decide +kernel

/-- The index entry of the worked example, in slot 2 of its bucket with version 3 (R122). -/
theorem test_bucket_bytes :
    (let e : IndexEntry := { fp := 0x000E7A319C062B5E, addr := 0x0911032C0F09, lclass := 1, version := 3 }
     let b := leBytes 128 (bucketWord [none, none, some e, none] 0)
     slice b 32 16 = [0x5E, 0x2B, 0x06, 0x9C, 0x31, 0x7A, 0x0E, 0, 0x09, 0x0F, 0x2C, 0x03, 0x11, 0x29, 0x02, 0] ∧
     slice b 80 8 = [3, 0, 0, 0, 0, 0, 0, 0] ∧ slice b 0 32 = zeros 32) := by decide +kernel

/-- A word of one bit has the codeword that row sums give it, and a bit more makes it none (R176, R177). -/
theorem test_codeword :
    (let u : List Block := 5 :: List.replicate 128 0
     isCodeword 15 (u ++ encodeParity 15 u) = true ∧ isCodeword 15 ((4 :: List.replicate 128 0) ++ encodeParity 15 u) = false) := by
  decide +kernel

/-! ## Stripes, courses, relocation, seals -/

/-- Stripe 7 of region 0 eligible for front 1, erased or not. -/
def opening (erased : Bool) : Dev :=
  { data0 with store := { data0.store with
      regions := (0, { loaded := true, listed := [7], listedBefore := [7] }) :: data0.store.regions.tail
      stripes := [(7, { erased := erased, egen := 4094 })] } }

/-- Front 1 preparing stripe 7, of which the members in `left` are still to be erased. -/
def erasing (left : BitVec 16) : Dev :=
  { opening false with store := { (opening false).store with fronts := [(1, { preparing := some (7, left) })] } }

/-- Hypotheses of StripesAreOpenedAndErased, first part: an erased stripe and one that is not. -/
theorem witness_StripesAreOpenedAndErased : ∀ e : Bool,
    (opening e).tending (frontRegion 1) = true ∧ ((opening e).front 1).stripe = none ∧
    ((opening e).front 1).preparing = none ∧
    ((opening e).eligible (frontRegion 1)).all (fun y => decide (12 ≤ (channelsOf ((opening e).membersNext y)).length)) = true ∧
    (opening e).chooseStripe 1 = some 7 ∧ ((opening e).stripe 7).erased = e ∧
    (((opening e).stripe 7).egen + 1) % 4096 ≠ 0 := by decide +kernel

/-- Second part: the first and the last member to be erased, and the last one of a stripe that has lost a die. -/
theorem witness_StripesAreOpenedAndErased_erase :
    ((erasing 0xFFFF).tending (frontRegion 1) = true ∧ ((erasing 0xFFFF).front 1).preparing = some (7, 0xFFFF) ∧
     (erasing 0xFFFF).sealedAll ((erasing 0xFFFF).stripe 7).epochGens = true ∧
     ((erasing 0xFFFF).store.queues.get {} (stripeDie 7 15)).suspended = false ∧
     ((erasing 0xFFFF).blockEntry (blockKey 7 15)).state = 0 ∧ setBit (0xFFFF : BitVec 16) 15 false ≠ 0) ∧
    ((erasing 0x8000).tending (frontRegion 1) = true ∧ ((erasing 0x8000).front 1).preparing = some (7, 0x8000) ∧
     12 ≤ (channelsOf ((erasing 0x8000).presentFor 7 ((erasing 0x8000).stripe 7).egen)).length ∧
     setBit (0x8000 : BitVec 16) 15 false = 0) ∧
    (let d : Dev := { erasing 0x8000 with
       store := { (erasing 0x8000).store with blocks := (List.range 6).map fun c => (blockKey 7 c, { state := 2 }) } }
     d.tending (frontRegion 1) = true ∧ (d.front 1).preparing = some (7, 0x8000) ∧
     (channelsOf (d.presentFor 7 (d.stripe 7).egen)).length < 12) := by decide +kernel

/-- A front takes its stripe, and an erase counts (R205, R210). -/
theorem test_stripes :
    ((run (.stripeOpen 1) (on (opening true))).front 1).stripe = some 7 ∧
    ((run (.stripeOpen 1) (on (opening false))).stripe 7).egen = 4095 ∧
    ((run (.blockEraseComplete 1 15 true) (on (erasing 0x8000))).blockEntry (blockKey 7 15)).erases = 1 := by decide +kernel

/-- Front 0 with the courses `cs` in flight on stripe 3, at sector `n`. -/
def coursing (cs : List (Nat × Course)) (n : Nat) : Dev :=
  { data0 with store := { data0.store with
      fronts := [(0, { stripe := some 3, next := n })], courses := cs.map fun c => (courseKey 0 c.1, c.2) }
               chip := { data0.chip with tick := 10 } }

/-- A course of stripe 3 whose units in `done` are programmed. -/
def course3 (done : BitVec 16) (p : Bool) : Course := { stripe := 3, filled := true, holdsData := true, done := done, programmed := p }

/-- Hypotheses of CoursesAreProgrammedVerifiedAndPadded, first part: a unit of a course with others to come and the last one. -/
theorem witness_CoursesAreProgrammedVerifiedAndPadded :
    (let d := coursing [(0, course3 0 false)] 64
     d.mediaOpen = true ∧ d.fencedRegion (frontRegion 0) = false ∧ d.store.courses.get? (courseKey 0 0) = some (course3 0 false) ∧
     d.unitFilled 0 15 (course3 0 false) = true ∧ d.inStreamQueue (courseKey 0 0) (course3 0 false) = true ∧
     d.inDieQueue (courseKey 0 0) (course3 0 false) 15 = true ∧ d.unitHeld (course3 0 false) 15 = false ∧
     setBit (0 : BitVec 16) 15 true ||| 0 ≠ BitVec.allOnes 16) ∧
    (let d := coursing [(0, course3 0x7FFF false)] 64
     d.mediaOpen = true ∧ d.store.courses.get? (courseKey 0 0) = some (course3 0x7FFF false) ∧
     d.unitFilled 0 15 (course3 0x7FFF false) = true ∧ d.inStreamQueue (courseKey 0 0) (course3 0x7FFF false) = true ∧
     d.inDieQueue (courseKey 0 0) (course3 0x7FFF false) 15 = true ∧ d.unitHeld (course3 0x7FFF false) 15 = false ∧ setBit (0x7FFF : BitVec 16) 15 true ||| 0 = BitVec.allOnes 16) := by
  decide +kernel

/-- Second part: a course whose read-back is good, with a record that is wholly in it, a die that drains, a course held for 10 ms, a
front idle for 10 ms and the metadata front that a seal waits for. -/
theorem witness_CoursesAreProgrammedVerifiedAndPadded_end :
    (let d := coursing [(0, course3 0 true)] 320
     d.tending (frontRegion 0) = true ∧ d.store.courses.get? (courseKey 0 0) = some (course3 0 true) ∧
     d.programmedAt 0 4 = true ∧ d.store.courses = [(courseKey 0 0, course3 0 true)] ∧
     (let e : Dev := { d with store := { d.store with buf := [(mkAddr 3 0 0 0, { rec_ := rec0 })] } }
      stripeOf (mkAddr 3 0 0 0) = 3 ∧ (e.stripe 3).coursesOf e.geom (mkAddr 3 0 0 0) rec0.span = [0] ∧
      e.beingMoved (mkAddr 3 0 0 0) = false ∧ e.eng.coaches = [])) ∧
    (let d : Dev := { data0 with store := { data0.store with dies := [(0, { state := 1 })] } }
     d.tending 0 = true ∧ (d.die 0).state = 1 ∧ d.dieHolds 0 = false) ∧
    (let d := coursing [(0, { stripe := 3, holdsData := true })] 1
     d.tending (frontRegion 0) = true ∧ d.openCourse 0 = some { stripe := 3, holdsData := true } ∧ (d.front 0).stripe = some 3 ∧
     d.chip.tick = 10 ∧ (d.front 0).dataTick = 0 ∧ d.lastData 0 = some 0) ∧
    (let d : Dev := { data0 with store := { data0.store with
       regions := (0, { loaded := true, sealing := some { noted := { addr := mkAddr 3 0 0 0 } } }) :: data0.store.regions.tail
       fronts := [(6, { stripe := some 3, next := 64, dataTick := 0 })], courses := [(courseKey 6 0, course3 0 false)]
       buf := [(mkAddr 3 0 0 0, { rec_ := rec0 })] } }
     d.tending (frontRegion 6) = true ∧ d.sealOwed 6 = true ∧ d.lastData 6 = some 0 ∧ (d.front 6).stripe = some 3) := by decide +kernel

/-- Front 0 with an open course that a coach's answer waits for. -/
def awaited : Dev :=
  { coursing [(0, { stripe := 3, holdsData := true })] 1 with
    store := { (coursing [(0, { stripe := 3, holdsData := true })] 1).store with buf := [(mkAddr 3 0 0 0, { rec_ := rec0 })] }
    eng := { coaches := [(0, { stage := .ended, awaits := [mkAddr 3 0 0 0] })] } }

/-- Third part: a course that is awaited. -/
theorem witness_CoursesAreProgrammedVerifiedAndPadded_wait :
    awaited.tending (frontRegion 0) = true ∧ awaited.openCourse 0 = some { stripe := 3, holdsData := true } ∧
    awaited.courseAwaited { stripe := 3, holdsData := true } = true := by decide +kernel

/-- A unit is done or counted as failed, a course leaves flight, padding goes to the end of the course (R206 to R209). -/
theorem test_courses :
    (let x : Course := { stripe := 3, filled := true, holdsData := true, done := 0x7FFF }
     ((run (.unitProgramComplete 0 0 15 true) (on (coursing [(0, x)] 64))).store.courses.get {} 0).programmed = true ∧
     ((run (.unitProgramComplete 0 0 15 false) (on (coursing [(0, x)] 64))).region 0).progFails = 1) ∧
    (run (.courseVerified 0 0 0) (on (coursing [(0, { stripe := 3, programmed := true, holdsData := true, filled := true })] 320))).store.courses.get? 0
      = none ∧
    ((run (.padHeldTimeout 0) (on (coursing [(0, { stripe := 3, holdsData := true })] 1))).front 0).next = 64 ∧
    ((run (.dieDrainDone 0) (on { data0 with store := { data0.store with dies := [(0, { state := 1 })] } })).die 0).state = 2 := by
  decide +kernel

/-- Hypotheses of StripesAreRelocated: a wake patrol, a victim and none, a record to be copied that can be read and one that cannot,
with room and without, a die that is out, a stripe to be erased whose generation has been raised and one whose has not. -/
theorem witness_StripesAreRelocated :
    (let d : Dev := { data0 with store := { data0.store with stripes := [(7, { state := .verified, refresh := true })] } }
     d.tending 0 = true ∧ (d.region 0).wake = false ∧ d.victim 0 = some (7, true) ∧ data0.victim 0 = none) ∧
    (let d : Dev := { data0 with store := { data0.store with regions := (0, { loaded := true, wake := true }) :: data0.store.regions.tail } }
     d.tending 0 = true ∧ (d.region 0).wake = true) ∧
    (let a := mkAddr 7 0 0 0
     let d : Dev := { data0 with
       store := { data0.store with
         toCopy := [(a, ())], fronts := [(4, { stripe := some 8 })], stripes := [(8, { state := .opened, egen := 1 })] }
       nv := { flash := [(a, { rec_ := rec0, have_ := 1, fmtgen := 1, verified := true })] } }
     d.copying 0 a = true ∧ regionOfAddr a = 0 ∧ d.wantsCopy a = true ∧ d.readForCopy a .good = some rec0 ∧
     d.room (frontOf (regionOfAddr a) 2 (d.stripe (stripeOf a)).kept) rec0.span = true ∧
     (d.front 4).stripe = some 8 ∧ (d.stripe 8).addrAt d.geom 8 (d.front 4).next ≠ a ∧
     d.store.nextWsn + rec0.span + wsnMargin ≤ d.store.wsnLimit ∧ d.store.buf.get? a = none ∧
     d.readForCopy a (.uncorrectable [0]) = none ∧ d.onFailedDie a (d.spanAt a) = false ∧
     (let e : Dev := { d with store := { d.store with fronts := [] } }
      e.copying 0 a = true ∧ e.wantsCopy a = true ∧ e.readForCopy a .good = some rec0 ∧
      e.room (frontOf (regionOfAddr a) 2 (e.stripe (stripeOf a)).kept) rec0.span = false) ∧
     (let e : Dev := { d with store := { d.store with dies := [(stripeDie 7 (channelOf a), { state := 3 })] } }
      e.copying 0 a = true ∧ e.wantsCopy a = true ∧ e.onFailedDie a (e.spanAt a) = true)) ∧
    (∀ r : Bool, let d : Dev := { data0 with store := { data0.store with
        regions := (0, { loaded := true, replayWsn := 1 }) :: data0.store.regions.tail
        stripes := [(7, { state := .relocating, egen := 4094, raised := r })] } }
      d.tending 0 = true ∧ stripeRegion 7 = 0 ∧ d.mayErase 7 = true ∧ (d.stripe 7).epochGens = [] ∧
      (d.stripe 7).raised = r ∧ (d.stripe 7).retireLater = 0 ∧ (4094 + 1) % 4096 ≠ 0 ∧
      12 ≤ (channelsOf (d.presentFor 7 4094)).length ∧ 12 ≤ (channelsOf (d.presentFor 7 4095)).length ∧
      d.store.queues = []) := by decide +kernel

/-- A victim is relocated, and its erase frees it (R217, R219). -/
theorem test_relocation :
    ((run (.gcVictimSelect 0) (on { data0 with store := { data0.store with
        stripes := [(7, { state := .verified, refresh := true })] } })).stripe 7).state = .relocating ∧
    ((run (.relocatedStripeErase 0 7 0) (on { data0 with store := { data0.store with
        regions := (0, { loaded := true, replayWsn := 1 }) :: data0.store.regions.tail
        stripes := [(7, { state := .relocating, egen := 4094 })] } })).stripe 7).egen = 4095 := by decide +kernel

/-- Region 0 with an open stripe at the front of its stream 3, and a seal on its way or none. -/
def sealing (x : Option Sealing) : Dev :=
  { data0 with store := { data0.store with
      regions := (0, { loaded := true, sealing := x, sealNow := 4 }) :: data0.store.regions.tail
      fronts := [(6, { stripe := some 6 })], stripes := [(6, { state := .opened, egen := 1, kept := true })] } }

/-- Hypotheses of SealsBecomeDurable: a seal with room and without, one whose record is settled and one whose is not. -/
theorem witness_SealsBecomeDurable :
    ((sealing none).tending 0 = true ∧ ((sealing none).region 0).sealing = none ∧
     ((sealing none).writeSeal 0).1.isSome = true ∧ data0.tending 0 = true ∧ (data0.region 0).sealing = none ∧
     (data0.writeSeal 0).1 = none) ∧
    (let d := sealing (some { noted := { gen := 5, addr := mkAddr 6 0 0 0 } })
     d.tending 0 = true ∧ (d.region 0).sealing = some { noted := { gen := 5, addr := mkAddr 6 0 0 0 } } ∧
     d.settled (mkAddr 6 0 0 0) = true ∧ d.keystoneDead 0 (1 - d.keystoneBlockOf 0 ((d.region 0).kseq + 1)) = false ∧
     (let e : Dev := { d with store := { d.store with buf := [(mkAddr 6 0 0 0, { rec_ := rec0 })] } }
      e.tending 0 = true ∧ (e.region 0).sealing.isSome = true ∧ e.settled (mkAddr 6 0 0 0) = false)) := by decide +kernel

/-- A seal notes its generation, and durable it is the region's (R220, R221). -/
theorem test_seal :
    (((run (.sealStart 0) (on (sealing none))).region 0).sealing.map (·.noted.gen)) = some 5 ∧
    ((run (.sealDurable 0 true true) (on (sealing (some { noted := { gen := 5, addr := mkAddr 6 0 0 0 } })))).region 0).sealNow = 5 ∧
    (((run (.sealDurable 0 true true) (on (sealing (some { noted := { gen := 5, addr := mkAddr 6 0 0 0 } })))).media 0).keystones.map
      (·.ckptGen)) = [5] := by decide +kernel

/-! ## PCI Express -/

/-- A device with the queue pair `x` at 2047 and the reads `rs` under way. -/
def queued (x : QueuePair) (rs : List (Nat × DmaRead)) : Dev :=
  { up with pcie := { queues := [(2047, x)], reads := rs, linkUp := true } }

/-- A queue pair of four entries. -/
def pair0 : QueuePair := { sqBase := 0x1000, cqBase := 0x2000, size := 4, sqTail := 3, commands := [] }

/-- The read of an entry of it. -/
def read0 : DmaRead := { kind := .entry 2047 3, length := 128 }

/-- Hypotheses of DoorbellsFetchAndReads: the last index and the first that is out of range, a queue that may fetch with a tag
free, an arrival with and without all bytes, a read of which the timeout has passed, tags in and out of quarantine. -/
theorem witness_DoorbellsFetchAndReads :
    ((queued pair0 []).live = true ∧ (queued pair0 []).queue? 2047 = some pair0 ∧ 3 < pair0.size ∧
     (0 + pair0.size - pair0.cqHead) % pair0.size ≤ (pair0.cqTail + pair0.size - pair0.cqHead) % pair0.size ∧ pair0.size ≤ 4) ∧
    ((queued pair0 []).serving = true ∧ (queued pair0 []).pfail.flush = .none ∧ pair0.mayFetch = true ∧
     (queued pair0 []).pcie.pf0.d3hot = false ∧ (queued pair0 []).atsOn = false ∧ (queued pair0 []).pcie.freeTag ((queued pair0 []).pcie.sevenQueue 2047) = some 0) ∧
    ((queued pair0 [(5, read0)]).live = true ∧ (queued pair0 [(5, read0)]).pcie.reads.get? 5 = some read0 ∧
     (zeros 127).length < read0.length ∧ read0.length ≤ (zeros 128).length ∧ pair0.deleting = false ∧ pair0.error = false ∧
     (queued { pair0 with deleting := true } [(5, read0)]).queue? 2047 = some { pair0 with deleting := true }) ∧
    (let d : Dev := { queued pair0 [(5, read0)] with chip := { up.chip with tick := 50 } }
     d.live = true ∧ (d.requestOf read0.kind).1 = 0 ∧ read0.since + (d.pcie.fn 0).timeoutMs ≤ d.chip.tick) ∧
    (let d : Dev := { queued pair0 [] with
       pcie := { (queued pair0 []).pcie with quarantine := [(5, (200, 0)), (6, (201, 1))] }
       chip := { up.chip with tick := 200 } }
     d.live = true ∧ d.pcie.quarantine.get? 5 = some (200, 0) ∧ 200 ≤ d.chip.tick ∧ d.pcie.quarantine.get? 6 = some (201, 1) ∧
     d.chip.tick < 201) := by decide

/-- A doorbell moves the tail, one out of range is counted, a fetched entry moves the head past the last slot, a read that times
out is counted (R325, R326, R339, R341). -/
theorem test_doorbells :
    ((run (.sqTailDoorbell 2047 2) (on (queued pair0 []))).queue? 2047).map (·.sqTail) = some 2 ∧
    (run (.sqTailDoorbell 2047 4) (on (queued pair0 []))).pcie.dbInvalid = 1 ∧
    (run (.sqEntryFetch 2047) (on (queued { pair0 with sqHead := 1 } []))).out.head? = some (.dmaRequest 0
      { kind := .entry 2047 1, address := 0x1080, host := 0x1080, length := 128, since := 0 }) ∧
    (run (.completionTimeout 5) (on { queued pair0 [(5, read0)] with chip := { up.chip with tick := 50 } })).pcie.quarantine
      = [(5, (250, 0))] := by decide

/-- A command of a queue that a coach runs. -/
def cmd0 : Command := { sub := { cid := 9 }, stage := .coached 0 }

/-- Hypotheses of QueueCommandsRun: a result that stands, a pair that is made and one that exists, a queue with and without
commands, a command with a coach, an entry that is on its way. -/
theorem witness_QueueCommandsRun :
    ({ up with pcie := { qresult := { valid := true } } } : Dev).pcie.qresult.valid = true ∧
    (let d : Dev := { up with pcie := { qpParam := BitVec.ofNat 32 (2047 + 3 * 2 ^ 12), qpSqBase := 0x1000, qpCqBase := 0x2000 } }
     d.live = true ∧ d.pcie.qresult.busy = false ∧ d.pcie.qresult.valid = false ∧ bits d.pcie.qpParam.toNat 0 12 = 2047 ∧
     d.pcie.createStatus = 0x00 ∧ d.queue? 2047 = none) ∧
    (let d : Dev := { queued { pair0 with sqHead := 3, commands := [(1, cmd0)] } [] with
       eng := { coaches := [(0, coach0 0)] }, pcie := { queues := [(2047, { pair0 with sqHead := 3, commands := [(1, cmd0)] })]
                                                        qpParam := BitVec.ofNat 32 2047 } }
     d.live = true ∧ d.pcie.createStatus ≠ 0x00 ∧ d.queue? 2047 = some { pair0 with sqHead := 3, commands := [(1, cmd0)] } ∧
     [(1, cmd0)].find? (fun e => e.2.sub.cid == 9) = some (1, cmd0) ∧ [(1, cmd0)].find? (fun e => e.2.sub.cid == 8) = none ∧
     d.coach? 0 = some (coach0 0) ∧ (coach0 0).stage ≠ .ended ∧ (coach0 0).run.flags.committed = false) ∧
    (let x : QueuePair := { pair0 with fetching := true }
     (queued x []).queue? 2047 = some x ∧ x.error = false ∧ x.fetching = true) ∧
    (let d : Dev := { queued { pair0 with deleting := true } [] with
       pcie := { queues := [(2047, { pair0 with deleting := true })], deletingQ := some 2047 } }
     d.live = true ∧ d.pcie.deletingQ = some 2047 ∧ d.queue? 2047 = some { pair0 with deleting := true }) := by decide

/-- Create makes the queue, delete of none answers 0x40, a queue without commands goes (R322 to R324). -/
theorem test_queue_commands :
    (let d : Dev := { up with pcie := { qpParam := BitVec.ofNat 32 (2047 + 3 * 2 ^ 12), qpSqBase := 0x1000, qpCqBase := 0x2000 } }
     ((run (.queueCreate 0) (on d)).queue? 2047).map (·.size) = some 4 ∧
     (run (.queueDelete 0) (on d)).pcie.qresult.status = 0x40) ∧
    (run .queueDeleteDone (on { up with pcie := { queues := [(2047, pair0)], deletingQ := some 2047 } })).pcie.queues = [] := by
  decide

/-- A mailbox entry: END alone. -/
def entry0 : Bytes := [9, 0, 0, 1] ++ zeros 28 ++ leBytes 8 (wordOf 0x13 0 0 0 0 0).toNat ++ zeros 88

/-- A device with that entry, or `b`, in its mailbox. -/
def mailed (b : Bytes) : Dev := { up with pcie := { mboxEntry := Mem.writeBytes 0 [] 0 b } }

/-- Hypotheses of MailboxAndMctp: a legal entry and one that is not, a mailbox that is occupied, messages of 127 and 128 bytes. -/
theorem witness_MailboxAndMctp :
    (let x := parseEntry (Mem.readBytes 0 (mailed entry0).pcie.mboxEntry 0 128)
     (mailed entry0).live = true ∧ (mailed entry0).pcie.mboxStatus.busy = false ∧ (mailed entry0).pcie.mboxStatus.valid = false ∧
     x.legal = true ∧ x.dataLength = 0 ∧ x.dataAddr = 0 ∧ x.respLen = 0 ∧ x.respAddr = 0 ∧ x.kcount = 0 ∧
     (mailed entry0).readsOf 4096 (mailed entry0).eng.nextStamp = false) ∧
    (parseEntry (Mem.readBytes 0 (mailed [9, 0, 0x40, 1]).pcie.mboxEntry 0 128)).legal = false ∧
    ({ up with pcie := { mboxStatus := { valid := true } } } : Dev).pcie.mboxStatus.valid = true ∧
    (let x := parseEntry (entry0.take 128)
     up.pathRuns true = true ∧ entry0.length = 128 ∧ x.legal = true ∧ x.dataLength = 0 ∧ x.dataAddr = 0 ∧ x.respLen = 0 ∧
     x.respAddr = 0 ∧ x.kcount = 0 ∧ x.flags.toNat < 4) ∧ (entry0.take 127).length < 128 := by
  decide +kernel

/-- The mailbox starts a coach, and turns an entry away that is not legal (R329, R335). -/
theorem test_mailbox :
    ((run .mboxDoorbell (on (mailed entry0))).coach? 0).map (fun c => (c.path, c.program)) = some (2, [wordOf 0x13 0 0 0 0 0]) ∧
    (run .mboxDoorbell (on (mailed [9, 0, 0x40, 1]))).pcie.mboxStatus.status = 0x1B := by decide +kernel

/-- A window whose first slice is enabled, and the ranges given to invalidate. -/
def windowed (gs : List (Nat × Nat)) : Dev :=
  { up with pcie := { pwActive := [(0, 1)], pwShadow := [(0, 1)], windowGiB := 2, pf0 := { atsControl := 0x8000 }, invalidating := gs
                      cache := [{ page := 1 }, { page := 9 }] } }

/-- Hypotheses of PeerWindowAndTranslations: shadows good and bad, the last page of an enabled slice and one that is not, in and
out of the fail-safe state, an Invalidate Request and its end. -/
theorem witness_PeerWindowAndTranslations :
    ((windowed []).live = true ∧ (windowed []).pcie.badShadow = false ∧
     ({ up with pcie := { pwShadow := [(0, 5)], windowGiB := 2 } } : Dev).pcie.badShadow = true ∧ up.failsafe = false) ∧
    ((windowed []).running = true ∧ 2 ^ 30 - 8 < (windowed []).pcie.windowGiB * 2 ^ 30 ∧ (2 ^ 30 - 8) % 4096 + 8 ≤ 4096 ∧
     (windowed []).failsafe = false ∧ (windowed []).pcie.poolByte (2 ^ 30 - 8) = some (2 ^ 30 - 8) ∧
     (windowed []).pcie.poolByte (2 ^ 30) = none ∧ dead.running = true ∧ dead.failsafe = true ∧
     2 ^ 30 - 8 < dead.pcie.windowGiB * 2 ^ 30) ∧
    ((windowed []).atsOn = true ∧ (windowed []).pcie.invalidating.length < 32) ∧
    ((windowed [(0, 4095)]).live = true ∧ (windowed [(0, 4095)]).pcie.invalidating = (0, 4095) :: [] ∧
     (windowed [(0, 4095)]).pcie.reads = []) := by decide

/-- A shadow takes its seven bits, a write of the window reaches the pool, an Invalidate Request the cache (R338, R343). -/
theorem test_window :
    (run (.genericRegisterWrite .pf1 (0x203000 + 8 * 63) true (some 0xFFFF)) (on up)).pcie.pwShadow.get 0 63 = 0x7F ∧
    Mem.read 0 (after (.peerWindowAccess true 4096 1 [0xA5]) (on (windowed []))).mem.pool 4096 = 0xA5 ∧
    (run (.atsInvalidateRequest 4096 8191) (on (windowed []))).pcie.cache = [{ page := 9 }] := by decide

/-- Hypotheses of ResetsOfTheEndpoint: a link that is up, one that trains at generation 6, the two power states, L1 with a
substate on. -/
theorem witness_ResetsOfTheEndpoint :
    ((queued pair0 []).live = true ∧ (queued pair0 []).running = true ∧ (queued pair0 []).pcie.linkUp = true) ∧
    (let d : Dev := { up with pcie := { training := true } }
     d.running = true ∧ d.pcie.training = true ∧ d.pcie.linkUp = false ∧ (16 : Nat) ∈ [1, 2, 4, 8, 16]) ∧
    (let d : Dev := { up with pcie := { linkUp := true, pf0 := { linkControl := 3 } } }
     d.pcie.link = .l0 ∧ d.pcie.flit = false ∧ d.pcie.pf0.linkControl.getLsbD 0 = true ∧ d.pcie.reads = [] ∧
     d.pcie.pf0.linkControl.getLsbD 1 = true) ∧
    (let d : Dev := { up with pcie := { link := .l1, pf0 := { other := [(0x288, 1)] } } }
     d.running = true ∧ d.pcie.link = .l1 ∧ d.pcie.substate = some .l12 ∧ d.pcie.link ≠ .l0) := by decide

/-- A function level reset of PF0 takes its queues, and a hot reset the link (R350). -/
theorem test_endpoint_resets :
    (run .flrPf0 (on (queued pair0 []))).pcie.queues = [] ∧ (run .flrPf1 (on (queued pair0 []))).pcie.queues.length = 1 ∧
    (run (.hotReset .hotReset) (on (queued pair0 []))).pcie.linkUp = false := by decide

/-- Hypotheses of PowerStatesAndConfiguration: an idle device that may enter PS4, a function in D3hot that holds a message, the
last vectors of both functions masked and pending, configuration space before and after its description table. -/
theorem witness_PowerStatesAndConfiguration :
    (let d : Dev := { up with pcie := { psCtl := 8 }, chip := { up.chip with tick := 1000000000 } }
     d.serving = true ∧ d.pfail.flush = .none ∧ d.eng.coaches = [] ∧ d.pcie.ps < d.idleState ∧ d.idleState = 4 ∧
     d.drained = true ∧ d.coursesDone = true) ∧
    (let d : Dev := { up with pcie := { pf0 := { d3hot := true }, heldPf0 := [.message 2047] } }
     d.live = true ∧ (d.pcie.fn 0).d3hot = true ∧ d.pfail.flush = .none ∧ Held.message 2047 ∈ d.pcie.heldPf0) ∧
    (let d : Dev := { up with pcie := { pf0 := { msixControl := 0x8000, msixPending := [2047] }
                                        pf1 := { msixControl := 0x8000, msixPending := [15] } } }
     d.live = true ∧ (d.pcie.fn 0).msixControl.getLsbD 15 = true ∧ (d.pcie.fn 0).msixControl.getLsbD 14 = false ∧
     2047 ∈ (d.pcie.fn 0).msixPending ∧ 15 ∈ (d.pcie.fn 1).msixPending ∧ (d.pcie.fn 1).d3hot = false) ∧
    (up.pcie.ddt = none ∧ up.fw.recovery ≠ 1 ∧ dead.failsafe = true ∧
     ({ up with pcie := { ddt := some [] } } : Dev).pcie.ddt.isSome = true) := by decide

/-- The identifiers of both functions, and Interrupt Line (R317, R318). -/
theorem test_configuration :
    (let d : Dev := { up with pcie := { ddt := some [] } }
     (run (.configurationRequest 1 false 0 0xF 0) (on d)).out.head? = some (.readData [0xE0, 0xC1, 0x41, 0x96]) ∧
     (run (.configurationRequest 0 true 0x3C 1 0x1FF) (on d)).pcie.pf0.intLine = 0xFF) ∧
    (run (.msixVectorUnmask 1 (some 15)) (on { up with pcie := { pf1 := { msixControl := 0x8000, msixPending := [15] } } })).out
      = [.msix 1 15] := by decide +kernel

/-! ## Keys, events, registers, responses -/

/-- The unwrap lock taken by `n` at tick 0, the tick now `t`. -/
def locked (n : BitVec 3) (t : Nat) : Dev :=
  { up with keys := { lockOwner := n, entropyPassed := true }, chip := { up.chip with tick := t } }

/-- Hypotheses of UnwrapLockAndReseed: a lock that is free, owned and another's; one that is 100 ms old; a reseed. -/
theorem witness_UnwrapLockAndReseed :
    (.pf1 : Requester) ≠ .pf0 ∧ ((locked 0 0).live = true ∧ (locked 0 0).keys.lockOwner = 0 ∧
      (locked (lockCode .pf1) 0).keys.lockOwner = lockCode .pf1 ∧ (locked (lockCode .pf1) 0).keys.lockOwner ≠ 0) ∧
    ((locked 1 100).live = true ∧ (locked 1 100).keys.lockOwner ≠ 0 ∧
      (locked 1 100).keys.lockTick + 100 ≤ (locked 1 100).chip.tick ∧ (locked 1 100).keys.unwrapBusy = false ∧
      (locked 1 100).kslotRunning = false ∧ (locked 1 100).keys.entropyPassed = true ∧ (locked 1 100).running = true ∧
      (locked 1 100).failsafe = false) := by decide

/-- The lock is taken, and freed at 100 ms but not before (R375, R376). -/
theorem test_unwrap_lock :
    (run (.unwrapLockAcquire .pf1) (on (locked 0 0))).keys.lockOwner = lockCode .pf1 ∧
    (run .unwrapLockTimeout (on (locked 1 100))).keys.lockOwner = 0 ∧
    (run .unwrapLockTimeout (on (locked 1 99))).keys.lockOwner = 1 := by decide

/-- An event, and the same in the window of block 63 of recorder 7. -/
def event0 : EventRec := { code := 0x0401, source := BitVec.ofNat 16 (7 * 4096 + 63 * 64), params := [1, 2] }

/-- A device with that window open in recorder 7, and `n` events in its ring. -/
def recording (n : Nat) : Dev :=
  { up with evt := { recorders := [(7, { windows := [(63, [{ opened := 0, entry := event0 }])], ring := List.replicate n event0
                                         lostNow := 2 })]
                     logOpen := true }
            chip := { up.chip with tick := 2 } }

/-- Hypotheses of EventsAreFiledAndLogged, first part: no window and one, a ring with room and a full one, records to tell of. -/
theorem witness_EventsAreFiledAndLogged :
    ((up.recorder 7).windows.get [] 63 = [] ∧
     ((recording 0).recorder 7).windows.get [] 63 = [{ opened := 0, entry := event0 }] ∧
     event0.code = BitVec.ofNat 16 0x0401 ∧ event0.source = BitVec.ofNat 16 (7 * 4096 + 63 * 64 + 0) ∧ event0.repeats ≠ 254) ∧
    ((recording 255).running = true ∧ 0 + 2 ≤ (recording 255).chip.tick ∧
     ((recording 255).recorder ((recording 255).recorderFor 7)).ring.length < 256 ∧
     256 ≤ ((recording 256).recorder ((recording 256).recorderFor 7)).ring.length) ∧
    (0 < ((recording 192).recorder 7).lostNow ∧ ((recording 192).recorder 7).ring.length ≤ 192) ∧
    ((recording 1).filing = true ∧ (recording 1).nextRecorder = some 7 ∧
     ((recording 1).recorder 7).ring = event0 :: []) := by decide +kernel

/-- A log whose entry 63 waits for a group. -/
def logging : Dev :=
  { data0 with evt := { logOpen := true, waiting := [[event0]], entry := 63 }, nv := { log := { assigned := true } } }

/-- Second part: a group to be programmed to the last entry. -/
theorem witness_EventsAreFiledAndLogged_log :
    logging.running = true ∧ logging.logWritable = true ∧ logging.evt.waiting = [event0] :: [] ∧
    logging.evt.deadPrimary.getLsbD 63 = false ∧ logging.evt.deadMirror.getLsbD 63 = false ∧ logging.evt.entry < 64 ∧
    (logging.nv.log.entry 63).groups.length + 1 < logging.logGeom.ppb ∧ logging.live = true := by decide

/-- A window closes at its second tick, an event is filed with its number, a copy that fails is dead (R419, R420, R425). -/
theorem test_events :
    ((run (.coalescingWindowClose 7 63) (on (recording 0))).recorder 7).ring = [event0] ∧
    ((run (.eventFile 7) (on (recording 1))).evt.chipRing.map (·.seq)) = [0] ∧
    ((run (.recordsLostInsert 7) (on (recording 0))).recorder 7).ring.map (·.code) = [0x7001] ∧
    (run (.logPageProgram true false true true) (on logging)).evt.deadMirror.getLsbD 63 = true := by decide

/-- The fail-safe state after start-up: management paths still read. -/
def reading : Dev := { dead with chip := { dead.chip with state := 3 }, pcie := { ddt := some [] } }

/-- Hypotheses of RegistersAreWritten: the last address of SET_WINDOW, addresses on both sides of what PF0 may reach, MWR. -/
theorem witness_RegistersAreWritten :
    (up.running = true ∧ up.failsafe = false ∧ (.pf1 : Requester) ≠ .pf0 ∧ 0x380000 ≤ 0x3FFFF8 ∧ 0x3FFFF8 + 8 ≤ 0x400000 ∧
     0x3FFFF8 % 8 = 0) ∧
    (controlAligned 0x10004 false = true ∧ controlAligned 0x10000 true = true ∧ pf0Reaches 0x38 = true ∧
     pf0Reaches 0x10004 = false) ∧
    (0x1FFFF8 < 0x200000 ∧ 0x10000 ≤ 0x10000 ∧ 0x300000 < 0x2000000 ∧ dead.failsafe = true) ∧
    (let c := mgmt (wordOf 0x41 0 1 2 0 0) [0, 0x38, 7] []
     (runs up c).coach? 0 = some c ∧ (runs up c).coachIn 2048 = some (0, c) ∧ (runs up c).pathRuns c.privileged = true ∧
     c.wait = .none ∧ c.run.steps < 256 ∧ c.current.op = 0x41 ∧ (runs up c).failsafe = false ∧
     c.control c.current = some (0x38, false)) ∧
    (let c := mgmt (wordOf 0x41 0 1 2 0 0) [0, 0x38, 7] []
     (runs reading c).pathRuns c.privileged = true ∧ (runs reading c).failsafe = true ∧ (runs reading c).coachIn 2048 = some (0, c)) := by decide +kernel

/-- SCRATCH takes a value, the last bytes of SET_WINDOW too, PF0 is turned away (R29, R30). -/
theorem test_registers :
    (run (.genericRegisterWrite .pf0 0x38 false (some 0x1234)) (on up)).chip.scratch = 0x1234 ∧
    Mem.read 0 (after (.genericRegisterWrite .pf1 0x3FFFF8 true (some 0xA5)) (on up)).mem.setWindow 0x7FFF8 = 0xA5 ∧
    (run (.genericRegisterWrite .pf0 0x10000 false (some 1)) (on up)).pcie.blocked = 1 ∧
    (run (.genericRegisterWrite .pf1 0x38 false none) (on { up with chip := { up.chip with scratch := 0x1234 } })).out
      = [.readData [0x34, 0x12, 0, 0]] := by decide +kernel

/-- A coach that has ended, its answer due to `x`. -/
def ended0 (x : Source) (p : Nat) : Coach := { stage := .ended, source := x, path := p, peer := { cookie := 7 } }

/-- A device with that coach, a session that waits for it, a queue and the mailbox. -/
def answering (x : Source) (p : Nat) : Dev :=
  { up with eng := { coaches := [(0, ended0 x p)] }
            net := { sessions := [(0, { sess0 with window := [(5, .inFlight 0)] })] }
            pcie := { queues := [(2047, { pair0 with cqTail := 3, commands := [(1, cmd0)] })], mboxCmd := some cmd0 } }

/-- Hypotheses of ResponsesLeave: an answer to each source, one that is not durable yet, an answer that leaves whole and in part. -/
theorem witness_ResponsesLeave :
    ((answering .orphan 0).coach? 0 = some (ended0 .orphan 0) ∧ (answering .orphan 0).mayEmit (ended0 .orphan 0) = true) ∧
    ((answering .mctp 2).mayEmit (ended0 .mctp 2) = true) ∧
    ((answering (.mailbox 9) 2).mayEmit (ended0 (.mailbox 9) 2) = true ∧ (answering (.mailbox 9) 2).pcie.mboxCmd = some cmd0 ∧
      cmd0.respPieces 0 = []) ∧
    ((answering (.session 0 5) 0).mayEmit (ended0 (.session 0 5) 0) = true ∧
      (answering (.session 0 5) 0).net.sessions.get? 0 = some { sess0 with window := [(5, .inFlight 0)] } ∧
      ({ sess0 with window := [(5, .inFlight 0)] } : Session).closers = 0 ∧ sess0.cookie = (ended0 (.session 0 5) 0).peer.cookie ∧
      ({ sess0 with window := [(5, .inFlight 0)] } : Session).entry 5 = some (.inFlight 0)) ∧
    ((answering (.queue 2047 9) 1).mayEmit (ended0 (.queue 2047 9) 1) = true ∧
      ((answering (.queue 2047 9) 1).queue? 2047).map (·.commands) = some [(1, cmd0)] ∧
      [(1, cmd0)].find? (fun e => e.2.stage == .coached 0) = some (1, cmd0) ∧ (answering (.queue 2047 9) 1).atsOn = false) ∧
    (let c : Coach := { ended0 .orphan 0 with awaits := [mkAddr 3 0 0 0], durability := 3 }
     (runs awaited c).coach? 0 = some c ∧ (runs awaited c).durable c = false) ∧
    (({} : StreamEnv).part = none ∧ ({ part := some 1 } : StreamEnv).part = some 1) := by decide

/-- An answer leaves, and the completion queue wraps with its phase (R243, R298, R330). -/
theorem test_responses :
    (run (.responseEmission 0 {} 0) (on (answering .mctp 2))).out.length = 1 ∧
    (run (.responseEmission 0 {} 0) (on (answering (.mailbox 9) 2))).pcie.mboxStatus.valid = true ∧
    ((run (.responseEmission 0 {} 0) (on (answering (.queue 2047 9) 1))).queue? 2047).map (fun x => (x.cqTail, x.phase))
      = some (0, false) := by decide +kernel

/-! ## Every state -/

/-- Hypotheses of StepsKeepMemoriesCanonical and FailsafeReasonIsLatched: memories in canonical form, a queue that is not empty,
the fail-safe state, a command that is no reset. -/
theorem witness_StepsKeepMemoriesCanonical :
    { on up with pending := [.stagingIdleTimeout] }.mem.wf = true ∧ State.latched 0x72 (on dead) ∧
    Instr.resets (.evtNotifyPendingClear .pf1) = false := by
  exact ⟨rfl, ⟨by decide, rfl⟩, rfl⟩

/-! ## Well-formed commands and instruction words -/

/-- One ill-formed term for each check on operands, refused, beside the same command at the end of its range. -/
theorem test_ill_formed_commands :
    Instr.wf (.startMicrocodeLoad 0 [(0, 8192)] 0) = false ∧ Instr.wf (.startMicrocodeLoad 0 [(0, 8191)] 0) = true ∧
    Instr.wf (.startKeystoneRead (List.replicate 9 {}) 0) = false ∧
    Instr.wf (.startIndexLoad 0 0 { deadCopies := [(64, true)] } 0) = false ∧
    Instr.wf (.startReplay { bad := [2 ^ 45] } 0) = false ∧ Instr.wf (.startReplay { bad := [2 ^ 45 - 1] } 0) = true ∧
    Instr.wf (.startReplay { failedBlocks := [(2 ^ 27, true)] } 0) = false ∧
    Instr.wf (.startReplay { keystones := List.replicate 9 .good } 0) = false ∧
    Instr.wf (.dramUncorrectable 0 0 0 0 [2 ^ 45]) = false ∧
    Instr.wf (.managementTick (List.replicate 10 0)) = false ∧
    Instr.wf (.frameReceive 0 { dst := 0, tag := none, length := 65536, fcsOk := true, fecCorr := 0, fecBad := 0, body := .other 0 }) = false ∧
    Instr.wf (.frameReceive 0 { dst := 0, tag := none, length := 64, fcsOk := true, fecCorr := 0, fecBad := 0
                                body := .macControl 0x0101 0xFF (List.replicate 9 0) }) = false ∧
    Instr.wf (.reassemblyTimeout (2 ^ 20) 0) = false ∧ Instr.wf (.gapPassed (2 ^ 20)) = false ∧
    Instr.wf (.sessionIdleExpiry (2 ^ 20)) = false ∧ Instr.wf (.sessionIdleExpiry (2 ^ 20 - 1)) = true ∧
    Instr.wf (.evrd 0 { deadCopies := [(64, false)] }) = false := by decide

/-- The rest of the checks: addresses, rows, positions, tags, lengths. -/
theorem test_ill_formed_operands :
    Instr.wf (.rekeyRecordCopy 1 0 .good) = false ∧ Instr.wf (.namespaceRemovalWalk 0 0) = false ∧
    Instr.wf (.camopScrubPassEnd 0 [.shadow 8192]) = false ∧ Instr.wf (.assocSearch 0 0 none [.flip 8192 1]) = false ∧
    Instr.wf (.camopSearch 0 [.flip 0 (2 ^ 200 * 2 ^ 128)]) = false ∧ Instr.wf (.camopNext 0 [.flip 0 (2 ^ 200 * 2 ^ 127)]) = true ∧
    Instr.wf (.scrubberRowCheck 0 8192 []) = false ∧ Instr.wf (.pageReadComplete 0 0 65536 0 0 false 0 .good 0) = false ∧
    Instr.wf (.pageReadComplete 0 0 0 4096 0 false 0 .good 0) = false ∧ Instr.wf (.unitProgramComplete 0 (2 ^ 17) 0 true) = false ∧
    Instr.wf (.courseVerified 0 (2 ^ 17) 0) = false ∧ Instr.wf (.patrolVisit 0 (2 ^ 22) 0 [] false) = false ∧
    Instr.wf (.patrolVisit 0 0 0 (List.replicate 5 {}) false) = false ∧ Instr.wf (.patrolVisit 0 0 0 [{ lost := [2 ^ 45] }] false) = false ∧ Instr.wf (.relocationRecordCopy 1 0 .good) = false ∧
    Instr.wf (.relocatedStripeErase 0 (2 ^ 22) 0) = false ∧ Instr.wf (.dmaReadCompletion 16384 .unsupported) = false ∧
    Instr.wf (.completionTimeout 16384) = false ∧ Instr.wf (.lateCompletion 0 4097) = false ∧
    Instr.wf (.tagQuarantineExpiry 16384) = false ∧ Instr.wf (.genericRegisterWrite .pf0 4 true none) = false ∧
    Instr.wf (.genericRegisterWrite .pf0 (2 ^ 26) false (some 0)) = false ∧ Instr.wf (.peerWindowAccess true 0 2 [1]) = false ∧
    Instr.wf (.peerWindowAccess false 0 4097 []) = false ∧ Instr.wf (.configurationRequest 0 false 4096 0 0) = false ∧
    Instr.wf (.configurationRequest 0 false 2 0 0) = false ∧ Instr.wf (.msixVectorUnmask 0 (some 4096)) = false := by decide

/-- The fields of instruction words written out bit by bit from R76. -/
theorem test_instruction_words :
    fieldsOf 0b0000000100110000000000101000000000000000000000000000000000000101 =
      { op := 0x01, d := 3, a := 0, b := 0, m := 2, imm := 0x8000000005 } ∧
    fieldsOf 0b0001001000000000000000000000000000000000000000000000001000000000 =
      { op := 0x12, d := 0, a := 0, b := 0, m := 0, imm := 0x200 } ∧
    fieldsOf 0b0010010000001111111011110000000000000000000000000000000000000001 =
      { op := 0x24, d := 0, a := 15, b := 14, m := 15, imm := 1 } ∧
    fieldsOf 0b0100001001100001000000010000000000000000000000000000000100000000 =
      { op := 0x42, d := 6, a := 1, b := 0, m := 1, imm := 0x100 } := by decide

/-- No row of the opcode table has bits. -/
theorem test_no_row_has_bits : decodeTableWord 0 0 = none ∧ State.withFetchWord (on up) 64 5 = on up := by decide

/-- An empty queue idles, and a queue gives its commands first in, first out. -/
theorem test_queue :
    step (on up) = .next (on up) ∧
    ∃ t, step { on up with pending := [.evtNotifyPendingClear .pf1, .stagingIdleTimeout] } = .next t ∧
      t.pending = [.stagingIdleTimeout] := ⟨rfl, _, rfl, rfl⟩

end Sys2Proof.Tests
end

section
/-!
PROOFS. The general, control-flow, status and digest instructions of chapter 03, and how a coach ends.
-/
namespace Sys2Proof.Machine

/-! ## What an instruction row does to its coach -/

/-- Two changes of one table entry are one change. -/
theorem Tab.adjust_adjust {α : Type} (t : Tab α) (k : Nat) (f g : α → α) :
    (t.adjust k f).adjust k g = t.adjust k fun a => g (f a) := by
  unfold Tab.adjust
  rw [List.map_map]
  refine List.map_congr_left fun e _ => ?_
  by_cases h : e.1 = k <;> simp [h]

/-- Two changes of the visible state of one coach are one change. -/
theorem Dev.onRun_onRun (i : Nat) (f k : Run → Run) (d : Dev) :
    (d.onRun i f).onRun i k = d.onRun i fun r => k (f r) :=
  congrArg (fun t => { d with eng := { d.eng with coaches := t } })
    (Tab.adjust_adjust d.eng.coaches i (fun c => { c with run := f c.run }) fun c => { c with run := k c.run })

/-- A coach whose visible state is changed. -/
theorem Dev.coach?_onRun {d : Dev} {i : Nat} {c : Coach} (f : Run → Run) (h : d.coach? i = some c) :
    (d.onRun i f).coach? i = some { c with run := f c.run } := (Dev.becomes_onRun f h).coach

/-- An instruction that changes registers and flags alone does what its effect says of the coach's own word. -/
theorem runsAs_of_pureInstr {row : CtxId → Instr} {op : Nat} {g : Dev → Coach → Prop} {after : Dev → Coach → Run}
    {f : Fields → Run → Run} (hrow : ∀ ctx s, exec (row ctx) s = runInstr ctx (·.op == op) (pureInstr f) s)
    (hf : ∀ (d : Dev) (c : Coach), c.current.op = op → g d c → (f c.current c.run).retire = after d c) :
    runsAs row op g after :=
  runsAs_of_onRun hrow fun d _ _ c h hg => ⟨_, rfl, hf d c h.opcode hg⟩

/-- An arithmetic instruction computes what `aluResult` gives for its opcode. -/
theorem computes_of_aluResult {row : CtxId → Instr} {op : Nat} {f : W64 → W64 → W64} {carry : W64 → W64 → Bool}
    (hrow : ∀ ctx s, exec (row ctx) s = runInstr ctx (·.op == op) (pureInstr aluEffect) s)
    (hf : ∀ x y, aluResult op x y = (f x y, carry x y)) : computes row op f carry := by
  refine runsAs_of_pureInstr hrow fun d c hop _ => ?_
  simp only [aluEffect, hop, hf]
  rfl

/-! ## Immediates that must be zero (R77, R83) -/

/-- An immediate with a bit above the `k` lowest that are used fails the mask of check 5 (R41). -/
theorem unused_imm_ne_zero {x k : Nat} (hk : k ≤ 40) (hx : x < 2 ^ 40) (h : 2 ^ k ≤ x) :
    x &&& (allImm - (2 ^ k - 1)) ≠ 0 := by
  obtain ⟨j, hj, hbit⟩ := Nat.exists_ge_and_testBit_of_ge_two_pow h
  have hj40 : j < 40 := Nat.lt_of_not_le fun hn => by
    rw [Nat.testBit_lt_two_pow (Nat.lt_of_lt_of_le hx (Nat.pow_le_pow_right (by decide) hn))] at hbit
    exact Bool.noConfusion hbit
  have hused : 2 ^ k - 1 < 2 ^ 40 :=
    Nat.lt_of_lt_of_le (Nat.sub_lt (Nat.two_pow_pos k) Nat.one_pos) (Nat.pow_le_pow_right (by decide) hk)
  have hmask : (allImm - (2 ^ k - 1)).testBit j = true := by
    rw [allImm, Nat.sub_sub, Nat.add_comm 1, Nat.testBit_two_pow_sub_succ hused]
    simp [hj40, Nat.testBit_two_pow_sub_one, hj]
  intro h0
  have := congrArg (Nat.testBit · j) h0
  simp [hbit, hmask] at this

/-- A word that uses the `k` lowest immediate bits and has a higher one fails check 5 of R41. -/
theorem fieldsOk_of_unused_imm {f : Fields} {u : Usage} {k : Nat} (hu : usageOf f.op f.m = some u)
    (hi : u.imm = 2 ^ k - 1) (hk : k ≤ 40) (hx : f.imm < 2 ^ 40) (h : 2 ^ k ≤ f.imm) : fieldsOk f = false := by
  have hne : (f.imm &&& (allImm - u.imm) == 0) = false := by
    rw [hi]; exact beq_false_of_ne (unused_imm_ne_zero hk hx h)
  simp [fieldsOk, hu, hne]

/-- A word of an assigned opcode that is not privileged is rejected where it fails check 5 (R41). -/
theorem checkWord_of_fieldsOk_false {f : Fields} (priv : Bool) (prog : List W64) (i : Nat)
    (ha : assignedOp f.op = true) (hp : privilegedOp f.op = false) (h : fieldsOk f = false) :
    checkWord priv prog i f = some stIllegalInstruction := by
  simp [checkWord, ha, hp, h]

/-- MOVI of the upper bits and the shifts reject an immediate bit that they do not use (R83). -/
theorem checkWord_of_unused_imm (priv : Bool) (prog : List W64) (i : Nat) (f : Fields) (hx : f.imm < 2 ^ 40)
    (h : (f.op = 0x01 ∧ f.m = 2 ∧ 2 ^ 24 ≤ f.imm) ∨ ((f.op = 0x08 ∨ f.op = 0x09) ∧ f.m = 1 ∧ 2 ^ 6 ≤ f.imm)) :
    checkWord priv prog i f = some stIllegalInstruction := by
  rcases h with ⟨hop, hm, hi⟩ | ⟨hop | hop, hm, hi⟩ <;>
    refine checkWord_of_fieldsOk_false priv prog i (by rw [hop]; rfl) (by rw [hop]; rfl) ?_
  · exact fieldsOk_of_unused_imm (k := 24) (by rw [hop, hm]; rfl) rfl (by decide) hx hi
  all_goals exact fieldsOk_of_unused_imm (k := 6) (by rw [hop, hm]; rfl) rfl (by decide) hx hi

/-! ## General instructions (R83) -/

/-- MOV writes what its modifier selects (R83). -/
theorem movEffect_eq {w : Fields} (r : Run) (h : w.m ≤ 6) : movEffect w r = r.setReg w.d (
    if w.m = 0 then r.g.getD w.a 0
    else if w.m = 1 then BitVec.ofNat 64 r.flags.word
    else if w.m = 2 then r.status.setWidth 64
    else if w.m = 3 then BitVec.ofNat 64 r.keyReg.length
    else if w.m = 4 then r.nsReg.setWidth 64
    else if w.m = 5 then BitVec.ofNat 64 r.fetch.length
    else BitVec.ofNat 64 r.loopCount) := by
  have hm : w.m = 0 ∨ w.m = 1 ∨ w.m = 2 ∨ w.m = 3 ∨ w.m = 4 ∨ w.m = 5 ∨ w.m = 6 := by omega
  unfold movEffect
  rcases hm with hm | hm | hm | hm | hm | hm | hm <;> rw [hm] <;> rfl

/-- Settles O17: each instruction changes registers and flags alone, by the effect of its row; the arithmetic family
shares one effect, and the immediates that must be zero fail check 5. -/
theorem generalInstructionsActAsGiven : Obligations.GeneralInstructionsActAsGiven := by
  have movi : ∀ ctx s, exec (.movi ctx) s = runInstr ctx (·.op == 0x01) (pureInstr moviEffect) s := fun _ _ => rfl
  refine ⟨runsAs_of_pureInstr (fun _ _ => rfl) fun _ _ _ _ => rfl, ?_, ?_, ?_, ?_, ?_, ?_, ?_, ?_, ?_, ?_, ?_,
    runsAs_of_pureInstr (fun _ _ => rfl) fun _ _ _ _ => rfl, checkWord_of_unused_imm⟩
  · exact runsAs_of_pureInstr movi fun _ c _ hm => by simp only [moviEffect, hm]; rfl
  · exact runsAs_of_pureInstr movi fun _ c _ hm => by simp only [moviEffect, hm]; rfl
  · exact runsAs_of_pureInstr movi fun _ c _ hm => by simp only [moviEffect, hm]; rfl
  · exact runsAs_of_pureInstr (fun _ _ => rfl) fun _ c _ hm => by rw [movEffect_eq c.run hm]; rfl
  all_goals exact computes_of_aluResult (fun _ _ => rfl) fun _ _ => rfl

/-! ## Control flow (R84, R85) -/

/-- A LOOP with passes left counts one and goes back to its target (R85). -/
theorem loopEffect_again {w : Fields} {r : Run}
    (h : (if r.loopOwner = some r.pc then r.loopCount else 0) + 1 < bits w.imm 8 5) :
    loopEffect w r = { r with
      steps := r.steps + 1, last := r.pc, pc := w.imm % 64, loopOwner := some r.pc
      loopCount := (if r.loopOwner = some r.pc then r.loopCount else 0) + 1 } := by
  simp only [loopEffect, if_pos h]
  rfl

/-- A LOOP at its last pass clears its count and goes on (R85). -/
theorem loopEffect_last {w : Fields} {r : Run}
    (h : bits w.imm 8 5 ≤ (if r.loopOwner = some r.pc then r.loopCount else 0) + 1) :
    loopEffect w r = { r with
      steps := r.steps + 1, last := r.pc, pc := r.pc + 1, loopOwner := some r.pc, loopCount := 0 } := by
  simp only [loopEffect, if_neg (Nat.not_lt.mpr h)]
  rfl

/-- BRC goes to its target where its condition holds, else on (R84). -/
theorem brcEffect_eq (w : Fields) (r : Run) : brcEffect w r = { r with
    steps := r.steps + 1, last := r.pc, pc := if r.flags.holds w.m then w.imm % 64 else r.pc + 1 } := by
  unfold brcEffect
  split <;> rfl

/-! ## How a coach ends (R42, R45, R61, R86) -/

/-- A coach keeps its response where its set goes. -/
theorem Coach.unset_resp (c : Coach) : c.unset.run.resp = c.run.resp := by
  unfold Coach.unset; split <;> rfl

/-- A coach keeps its count of steps where its set goes. -/
theorem Coach.unset_steps (c : Coach) : c.unset.run.steps = c.run.steps := by
  unfold Coach.unset; split <;> rfl

/-- A coach whose set is gone has none. -/
theorem Coach.unset_set (c : Coach) : c.unset.set = none := by
  unfold Coach.unset
  split
  · rfl
  · next h => simpa using h

/-- A coach without a set keeps all. -/
theorem Coach.unset_of_none {c : Coach} (h : c.set = none) : c.unset = c := by simp [Coach.unset, h]

/-- A coach past its last instruction is at an END (R42). -/
theorem Coach.current_op_past_end {c : Coach} (h : c.program.length ≤ c.run.pc) : c.current.op = 0x13 := by
  rw [Coach.current, if_neg (Nat.not_lt.mpr h)]
  rfl

/-- A terminal failure ends the coach with its status and drops the response (R71). -/
theorem Dev.endCoach_terminal {d : Dev} {i : Nat} {c : Coach} (st : Byte) (h : d.coach? i = some c) :
    ∃ c', (d.endCoach i st true).coach? i = some c' ∧ c'.stage = .ended ∧ c'.final = st ∧ c'.run.resp = [] ∧
      c'.ctx = none := ⟨_, (Dev.endCoach_coach st true h).1, rfl, rfl, rfl, rfl⟩

/-- The coach in a context is counted in the cluster of that context when it ends (R75). -/
theorem Coach.counter_of_ctx {c : Coach} {x : Nat} (h : c.ctx = some x) : c.counter = some (clusterOf x) := by
  simp [Coach.counter, h]

/-- What a coach that comes to its end keeps, with the status it ends with (R61, R86). -/
theorem Dev.finishCoach_coach {d : Dev} {i : Nat} {c : Coach} (h : d.coach? i = some c) :
    (d.finishCoach i).coach? i = some { c.unset with
      stage := .ended, ctx := none, wait := .none, given := none
      final := if c.set.isSome ∧ c.run.status = stOk then stAborted else c.run.status } := by
  simp only [Dev.finishCoach, Dev.coach_of_some h]
  rw [(Dev.endCoach_coach _ false h).1]
  simp

/-- The cluster of the context of a coach that comes to its end counts it. -/
theorem Dev.finishCoach_progs {d : Dev} {i x : Nat} {c : Coach} (h : d.coach? i = some c) (hx : c.counter = some x) :
    ((d.finishCoach i).cluster x).progs = bump (d.cluster x).progs := by
  rw [Dev.finishCoach, Dev.endCoach_cluster _ _ h hx]
  rfl

/-- END counts a step where it stands in the program, and its coach comes to its end (R42, R86). -/
theorem exec_end {s : State} {ctx : CtxId} {i : Nat} {c : Coach} (hrun : s.dev.coachIn ctx.val = some (i, c))
    (hpath : s.dev.pathRuns c.privileged = true) (hfree : c.wait = .none) (hstep : c.mayStep = true)
    (hop : c.current.op = 0x13) :
    exec (.end_ ctx) s = .next { s with dev :=
      (if c.run.pc < c.program.length then s.dev.onRun i Run.retire else s.dev).finishCoach i } := by
  simp [exec, execEnd, runInstr, onDev_eq, Dev.onInstr, hrun, hpath, hfree, hstep, hop]

/-- A coach that END ends: its status, its response, one step for an END of the program, counted in its cluster. -/
theorem end_ends {s : State} {ctx : CtxId} {i : Nat} {c : Coach} (h : s.dev.At ctx i c 0x13) :
    ∃ d' c', exec (.end_ ctx) s = .next { s with dev := d' } ∧ d'.coach? i = some c' ∧ c'.stage = .ended ∧
      c'.final = (if c.set.isSome ∧ c.run.status = stOk then stAborted else c.run.status) ∧ c'.run.resp = c.run.resp ∧
      c'.ctx = none ∧ c'.set = none ∧
      c'.run.steps = (if c.run.pc < c.program.length then c.run.steps + 1 else c.run.steps) ∧
      (d'.cluster (clusterOf ctx.val)).progs = bump (s.dev.cluster (clusterOf ctx.val)).progs := by
  have hcount := Coach.counter_of_ctx (Dev.coachIn_ctx h.running)
  have hexec := exec_end h.running h.path h.free (by simp [Coach.mayStep, h.steps]) h.opcode
  by_cases hpc : c.run.pc < c.program.length
  · rw [if_pos hpc] at hexec
    have hcoach := Dev.coach?_onRun Run.retire h.coach
    exact ⟨_, _, hexec, Dev.finishCoach_coach hcoach, rfl, rfl, Coach.unset_resp _, rfl, Coach.unset_set _,
      by rw [if_pos hpc]; exact Coach.unset_steps _, Dev.finishCoach_progs hcoach hcount⟩
  · rw [if_neg hpc] at hexec
    exact ⟨_, _, hexec, Dev.finishCoach_coach h.coach, rfl, rfl, Coach.unset_resp _, rfl, Coach.unset_set _,
      by rw [if_neg hpc]; exact Coach.unset_steps _, Dev.finishCoach_progs h.coach hcount⟩

/-- Past the last instruction a coach ends as it stands, also with no step left (R42). -/
theorem end_past_program {s : State} {ctx : CtxId} {i : Nat} {c : Coach} (hc : s.dev.coach? i = some c)
    (hrun : s.dev.coachIn ctx.val = some (i, c)) (hpath : s.dev.pathRuns c.privileged = true)
    (hpc : c.program.length ≤ c.run.pc) (hfree : c.wait = .none) (hset : c.set = none) :
    ∃ d' c', exec (.end_ ctx) s = .next { s with dev := d' } ∧ d'.coach? i = some c' ∧ c'.stage = .ended ∧
      c'.final = c.run.status ∧ c'.run = c.run := by
  have hexec := exec_end hrun hpath hfree (by simp [Coach.mayStep, hpc]) (Coach.current_op_past_end hpc)
  rw [if_neg (Nat.not_lt.mpr hpc)] at hexec
  exact ⟨_, _, hexec, Dev.finishCoach_coach hc, rfl, by simp [hset], by rw [Coach.unset_of_none hset]⟩

/-- The 257th step does not run: its coach ends with `STEP_LIMIT` (R42). -/
theorem stepLimitReached_ends {s : State} {ctx : CtxId} {i : Nat} {c : Coach} (hc : s.dev.coach? i = some c)
    (hrun : s.dev.coachIn ctx.val = some (i, c)) (hpath : s.dev.pathRuns c.privileged = true)
    (hsteps : 256 ≤ c.run.steps) (hpc : c.run.pc < c.program.length) :
    ∃ d' c', exec (.stepLimitReached ctx) s = .next { s with dev := d' } ∧ d'.coach? i = some c' ∧ c'.stage = .ended ∧
      c'.final = stStepLimit ∧ c'.run.resp = [] ∧ c'.ctx = none := by
  have hexec : exec (.stepLimitReached ctx) s = .next { s with dev := s.dev.endCoach i stStepLimit true } := by
    simp [exec, execStepLimitReached, onDev_eq, hrun, hpath, hsteps, hpc]
  obtain ⟨c', hends⟩ := Dev.endCoach_terminal stStepLimit hc
  exact ⟨_, c', hexec, hends⟩

/-- A trap counted in a cluster is counted there once. -/
theorem Dev.countTrap_traps (x : Nat) (d : Dev) :
    ((d.countTrap x).cluster (clusterOf x)).traps = bump (d.cluster (clusterOf x)).traps := by
  simp [Dev.countTrap, Dev.cluster]

/-- At its execution time a coach ends with `TIMEOUT`, by a trap that its cluster counts (R45). -/
theorem executionTimeout_ends {s : State} {ctx : CtxId} {i : Nat} {c : Coach} {n : Nat} (hc : s.dev.coach? i = some c)
    (hrun : s.dev.coachIn ctx.val = some (i, c)) (hpath : s.dev.pathRuns c.privileged = true)
    (hlo : (c.timeout + 1) * 160000 ≤ n) (hhi : n < (s.dev.chip.tick - c.started + 1) * 1600000) :
    ∃ d' c', exec (.executionTimeout ⟨ctx, n⟩) s = .next { s with dev := d' } ∧ d'.coach? i = some c' ∧ c'.stage = .ended ∧
      c'.final = stTimeout ∧ c'.run.resp = [] ∧ c'.ctx = none ∧
      (d'.cluster (clusterOf ctx.val)).traps = bump (s.dev.cluster (clusterOf ctx.val)).traps := by
  have hexec : exec (.executionTimeout ⟨ctx, n⟩) s =
      .next { s with dev := (s.dev.countTrap ctx.val).endCoach i stTimeout true } := by
    simp [exec, execExecutionTimeout, onDev_eq, hrun, hpath, Coach.timedOut, hlo, hhi]
  have hcoach : (s.dev.countTrap ctx.val).coach? i = some c := hc
  have htraps : (((s.dev.countTrap ctx.val).endCoach i stTimeout true).cluster (clusterOf ctx.val)).traps =
      bump (s.dev.cluster (clusterOf ctx.val)).traps := by
    rw [Dev.endCoach_cluster stTimeout true hcoach (Coach.counter_of_ctx (Dev.coachIn_ctx hrun))]
    exact Dev.countTrap_traps _ _
  obtain ⟨c', hi, hstage, hfinal, hresp, hctx⟩ := Dev.endCoach_terminal stTimeout hcoach
  exact ⟨_, c', hexec, hi, hstage, hfinal, hresp, hctx, htraps⟩

/-- Settles O18: branches and LOOP change the place of execution alone; END, the step limit and the execution time end
the coach by the rules on ends above. -/
theorem controlFlowAndEnd : Obligations.ControlFlowAndEnd := by
  refine ⟨?_, ?_, ?_, ?_, fun _ _ _ _ => end_ends, fun _ _ _ _ hc hrun hpath =>
    ⟨stepLimitReached_ends hc hrun hpath, fun _ => end_past_program hc hrun hpath,
      fun _ => executionTimeout_ends hc hrun hpath⟩⟩
  · exact runsAs_of_onRun (fun _ _ => rfl) fun _ _ _ _ _ _ => ⟨_, rfl, rfl⟩
  · exact runsAs_of_onRun (fun _ _ => rfl) fun _ _ _ c _ _ => ⟨_, rfl, brcEffect_eq c.current c.run⟩
  · exact runsAs_of_onRun (fun _ _ => rfl) fun _ _ _ _ _ hg => ⟨_, rfl, loopEffect_again hg⟩
  · exact runsAs_of_onRun (fun _ _ => rfl) fun _ _ _ _ _ hg => ⟨_, rfl, loopEffect_last hg⟩

/-! ## STATUS (R107) -/

/-- The codes that STATUS may set, written out. -/
theorem settableStatus_iff (v : Nat) : settableStatus v = true ↔
    (v ≤ 0x17 ∨ v = 0x19 ∨ v = 0x1B ∨ v = 0x1C ∨ (0x20 ≤ v ∧ v ≤ 0x25) ∨ (0x40 ≤ v ∧ v ≤ 0x48) ∨
      (0x60 ≤ v ∧ v ≤ 0x66) ∨ (0x70 ≤ v ∧ v ≤ 0x77)) := by
  simp [settableStatus, assignedStatus, or_assoc]

/-- STATUS returns the code it names, where it may set it, else `ILLEGAL_VALUE`. -/
theorem statusEffect_retire {w : Fields} {r : Run} {v : Nat}
    (hv : v = (if w.m = 0 then w.imm else (r.reg w.a).toNat) % 256) :
    (statusEffect w r).retire = r.answers (if settableStatus v then BitVec.ofNat 8 v else stIllegalValue) := by
  have hcode : (if w.m = 0 then w.imm % 256 else r.num w.a % 256) = v := by
    rw [hv]; split <;> rfl
  simp only [statusEffect, hcode, Run.setStatus_retire]

/-- `err` of a code below 256. -/
theorem Run.answers_ofNat (r : Run) {v : Nat} (hv : v < 256) : r.answers (BitVec.ofNat 8 v) = { r.retire with
    status := BitVec.ofNat 8 v, flags := { r.flags with err := decide (v ≠ 0x00 ∧ v ≠ 0x0D) } } := by
  have hcode : ∀ k, k < 256 → (BitVec.ofNat 8 v = BitVec.ofNat 8 k ↔ v = k) := fun k hk => by
    rw [← BitVec.toNat_inj, BitVec.toNat_ofNat, BitVec.toNat_ofNat, Nat.mod_eq_of_lt hv, Nat.mod_eq_of_lt hk]
  have herr : decide (BitVec.ofNat 8 v ≠ 0x00 ∧ BitVec.ofNat 8 v ≠ 0x0D) = decide (v ≠ 0x00 ∧ v ≠ 0x0D) :=
    decide_eq_decide.mpr (and_congr (not_congr (hcode 0x00 (by decide))) (not_congr (hcode 0x0D (by decide))))
  rw [Run.answers, herr]
  rfl

/-- Settles O20: STATUS answers the code that its word names, and the codes it may set are those of R107. -/
theorem statusSetsTheStatusRegister : Obligations.StatusSetsTheStatusRegister := by
  refine ⟨fun v => runsAs_of_pureInstr (fun _ _ => rfl) fun _ c _ hg => ?_,
    fun v => runsAs_of_pureInstr (fun _ _ => rfl) fun _ c _ hg => ?_⟩
  · obtain ⟨hv, hset⟩ := hg
    rw [statusEffect_retire hv, if_pos ((settableStatus_iff v).mpr hset)]
    exact c.run.answers_ofNat (hv ▸ Nat.mod_lt _ (by decide))
  · obtain ⟨hv, hset⟩ := hg
    rw [statusEffect_retire hv, if_neg (mt (settableStatus_iff v).mp hset)]
    rfl

/-! ## HASH (R104) -/

/-- A field that fits is appended to the response of its coach, which then changes as the instruction says. -/
theorem Dev.appendThen_onRun {d : Dev} {i : Nat} {c : Coach} {f : RespField} {l : List RespField} (k : Run → Run)
    (h : d.coach? i = some c) (hl : appendField c.run.resp f = some l) :
    d.appendThen i f (Dev.onRun i k) = d.onRun i fun r => k { r with resp := l } := by
  simp only [Dev.appendThen, Dev.coach_of_some h, hl, Dev.onRun_onRun]

/-- Outside the recovery state of cause 1 an instruction is accepted (R398). -/
theorem accepted_of_ne {f : Nat → Coach → Fields → Dev → Dev} {i : Nat} {c : Coach} {w : Fields} {d : Dev}
    (h : d.fw.recovery ≠ 1) : accepted f i c w d = f i c w d := if_neg h

/-- The area of which HASH digests a range (R104). -/
def hashArea (c : Coach) (w : Fields) : Bytes := if w.m % 2 = 1 then c.run.fetch else c.inbound

/-- The bytes that HASH digests (R104). -/
def hashRange (c : Coach) (w : Fields) : Bytes := slice (hashArea c w) (c.run.reg w.a).toNat (c.run.reg w.b).toNat

/-- The three cases of HASH: a range past its area, CRC-32C, SHA-256. -/
theorem hashEffect_eq (i : Nat) (c : Coach) (w : Fields) (d : Dev) : hashEffect i c w d =
    if (hashArea c w).length < (c.run.reg w.a).toNat + (c.run.reg w.b).toNat then
      d.onRun i fun r => (r.setStatus stIllegalValue).retire
    else if w.m < 2 then
      d.onRun i fun r => ((r.setReg w.d (BitVec.ofNat 64 (crc32c (hashRange c w)))).setStatus stOk).retire
    else d.appendThen i (.bytes (sha256 (hashRange c w))) (Dev.onRun i fun r =>
      ((r.setReg w.d (BitVec.ofNat 64 (leNat ((sha256 (hashRange c w)).take 8)))).setStatus stOk).retire) := by
  have hpast : (!inArea (hashArea c w) (c.run.num w.a) (c.run.num w.b)) = true ↔
      (hashArea c w).length < (c.run.reg w.a).toNat + (c.run.reg w.b).toNat := by
    rw [Bool.not_eq_true', inArea, decide_eq_false_iff_not, Nat.not_le]
    rfl
  exact ite_congr (propext hpast) (fun _ => rfl) fun _ => rfl

/-- HASH does what `hashEffect` does to the visible state of its coach, where the recovery state accepts it. -/
theorem runsAs_of_hashEffect {g : Dev → Coach → Prop} {after : Dev → Coach → Run}
    (hf : ∀ (d : Dev) (i : Nat) (c : Coach), d.coach? i = some c → g d c →
      d.fw.recovery ≠ 1 ∧ ∃ k, hashEffect i c c.current d = d.onRun i k ∧ k c.run = after d c) :
    runsAs .hash 0x38 g after :=
  runsAs_of_onRun (f := accepted hashEffect) (fun _ _ => rfl) fun d _ i c h hg => by
    obtain ⟨hrec, k, hk, hr⟩ := hf d i c h.coach hg
    exact ⟨k, (accepted_of_ne hrec).trans hk, hr⟩

/-- Settles O21: by the three cases of HASH, and the area that each modifier selects. -/
theorem hashDigestsARange : Obligations.HashDigestsARange := by
  refine ⟨fun area bs => runsAs_of_hashEffect fun d i c _ hg => ?_,
    fun area bs l => runsAs_of_hashEffect fun d i c hc hg => ?_,
    fun area => runsAs_of_hashEffect fun d i c _ hg => ?_⟩
  · obtain ⟨hrec, hm, harea, hin, hbs⟩ := hg
    have hsel : area = hashArea c c.current := by rw [harea, hashArea, Nat.mod_eq_of_lt hm]
    subst hsel hbs
    exact ⟨hrec, _, by rw [hashEffect_eq, if_neg (Nat.not_lt.mpr hin), if_pos hm], rfl⟩
  · obtain ⟨hrec, hm, harea, hin, hbs, hl⟩ := hg
    have hsel : area = hashArea c c.current := by
      rcases hm with hm | hm <;> simp [harea, hashArea, hm]
    have hrange : bs = hashRange c c.current := by rw [hbs, hsel, hashRange]
    subst hsel hrange
    exact ⟨hrec, _, by rw [hashEffect_eq, if_neg (Nat.not_lt.mpr hin), if_neg (by omega), Dev.appendThen_onRun _ hc hl],
      rfl⟩
  · obtain ⟨hrec, harea, hm, hout⟩ := hg
    have hodd : (c.current.m = 1 ∨ c.current.m = 3) ↔ c.current.m % 2 = 1 := by omega
    have hsel : area = hashArea c c.current := by rw [harea, hashArea]; simp only [hodd]
    subst hsel
    exact ⟨hrec, _, by rw [hashEffect_eq, if_pos hout], rfl⟩

end Sys2Proof.Machine
end

section
/-!
PROOFS. The peer window and the translation cache of the endpoint (R316, R338, R342, R343, R351).
-/
namespace Sys2Proof.Machine

/-! ## Writing register bits -/

/-- A bit that is set reads 1. -/
theorem getLsbD_setBit_self {n : Nat} (v : BitVec n) {i : Nat} (h : i < n) : (setBit v i true).getLsbD i = true := by
  simp [setBit, h]

/-- A masked write of the `k` low bits leaves the written value in them. -/
theorem merge_low_mod (k v w : Nat) : merge (2 ^ k - 1) v w % 2 ^ k = w % 2 ^ k := by
  have hkeep : v - v % 2 ^ k = 2 ^ k * (v / 2 ^ k) := by have := Nat.mod_add_div v (2 ^ k); omega
  rw [merge, Nat.and_two_pow_sub_one_eq_mod, Nat.and_two_pow_sub_one_eq_mod, hkeep, Nat.mul_add_mod, Nat.mod_mod]

/-- A write of all 8 bytes to a register whose `k` low bits are writable leaves the value's own in them (R30). -/
theorem RegWrite.setWidth_into_wide {k : Nat} (hk : k ≤ 64) (a : Nat) (v old : W64) :
    ((regWrite a true v).into (2 ^ k - 1) old).setWidth k = v.setWidth k := by
  have hmask : (2 ^ 64 - 1) &&& (2 ^ k - 1) = 2 ^ k - 1 := by
    have hlt : 2 ^ k - 1 < 2 ^ 64 :=
      Nat.lt_of_lt_of_le (Nat.sub_one_lt (Nat.ne_of_gt (Nat.two_pow_pos k))) (Nat.pow_le_pow_right (by decide) hk)
    rw [Nat.and_comm, Nat.and_two_pow_sub_one_eq_mod, Nat.mod_eq_of_lt hlt]
  have hword : (regWrite a true v).into (2 ^ k - 1) old = BitVec.ofNat 64 (merge (2 ^ k - 1) old.toNat v.toNat) :=
    congrArg (fun m => BitVec.ofNat 64 (merge m old.toNat v.toNat)) hmask
  apply BitVec.eq_of_toNat_eq
  rw [hword, BitVec.toNat_setWidth, BitVec.toNat_setWidth, BitVec.toNat_ofNat,
    Nat.mod_mod_of_dvd _ (Nat.pow_dvd_pow 2 hk), merge_low_mod]

/-! ## A register write to the endpoint block -/

/-- An 8-byte write to the endpoint block reaches it from every path outside the fail-safe state (R29, R30). -/
theorem exec_genericRegisterWrite_pcie {s : State} {off : Nat} (by_ : Requester) (v : W64) (hrun : s.dev.running = true)
    (hfs : s.dev.failsafe = false) (hoff : off < 0x100000) (halign : off % 8 = 0) :
    exec (.genericRegisterWrite by_ (0x200000 + off) true (some v)) s =
      .next { s with dev := s.dev.writePcie by_ s.mem.pool off (regWrite (0x200000 + off) true v) } := by
  have hal : controlAligned (0x200000 + off) true = true := by simp [controlAligned]; omega
  have hreach : pf0Reaches (0x200000 + off) = true := by simp [pf0Reaches]; omega
  have hset : inSetWindow (0x200000 + off) = false := by simp [inSetWindow]; omega
  have hword : (0x200000 + off) / 8 * 8 = 0x200000 + off := by omega
  have hregion : ¬ 0x1000000 ≤ 0x200000 + off := by omega
  have hblock : (0x200000 + off) / 0x100000 = 2 := by omega
  have hin : (0x200000 + off) % 0x100000 = off := by omega
  show execGenericRegisterWrite by_ (0x200000 + off) true (some v) s = _
  simp [execGenericRegisterWrite, onAll_eq, hrun, hal, controlWrite, hfs, hreach, hset, hword, Dev.writeUnit, hregion,
    hblock, hin]

/-- A shadow register of the window takes the bits that are written (R343). -/
theorem Dev.writePcie_pwShadow (d : Dev) (pool : Mem) (w : RegWrite) {x : Nat} (hx : x < 64) :
    d.writePcie .pf1 pool (0x3000 + 8 * x) w =
      d.onPcie fun p => { p with pwShadow := p.pwShadow.set x (w.into 127 (p.pwShadow.get 0 x)) } := by
  have h2 : ¬ 0x3000 + 8 * x < 0x2000 := by omega
  have h3 : ¬ 0x3000 + 8 * x < 0x3000 := by omega
  have h4 : 0x3000 + 8 * x < 0x3200 := by omega
  have hslot : (0x3000 + 8 * x - 0x3000) / 8 = x := by omega
  unfold Dev.writePcie
  rw [if_neg h2, if_neg h3, if_pos h4, hslot]
  rfl

/-! ## The peer window -/

/-- A good commit copies every shadow (R343). -/
theorem Pcie.commitWindow_good {p : Pcie} (h : p.badShadow = false) :
    p.commitWindow = { p with badCommit := false, pwActive := p.pwShadow } := if_neg (by simp [h])

/-- A commit that names a pool slice that is not there changes only bad_commit (R343). -/
theorem Pcie.commitWindow_bad {p : Pcie} (h : p.badShadow = true) : p.commitWindow = { p with badCommit := true } :=
  if_pos h

/-- A request within the window has the effect of its access. -/
theorem exec_peerWindowAccess {s : State} {off len : Nat} (write : Bool) (b : Bytes) (hrun : s.dev.running = true)
    (hoff : off < s.dev.pcie.windowGiB * 2 ^ 30) (hpage : off % 4096 + len ≤ 4096) :
    exec (.peerWindowAccess write off len b) s = .next { s with
      mem := (windowEffect write off len b s.mem s.dev).1, dev := (windowEffect write off len b s.mem s.dev).2 } := by
  show execPeerWindowAccess write off len b s = _
  rw [execPeerWindowAccess, onAll_eq, if_pos (Bool.and_eq_true_iff.mpr ⟨hrun, decide_eq_true ⟨hoff, hpage⟩⟩)]

section
variable (write : Bool) {off : Nat} (len : Nat) (b : Bytes) (m : Memories) {d : Dev}

/-- In the fail-safe state writes are dropped and reads answered with Completer Abort (R351). -/
theorem windowEffect_of_failsafe (off : Nat) (h : d.failsafe = true) :
    windowEffect write off len b m d = (m, if write then d else d.emit .completerAbort) := if_pos h

/-- An access through an enabled slice reaches the pool byte that its mapping in force gives (R342). -/
theorem windowEffect_of_poolByte {a : Nat} (hfs : d.failsafe = false) (h : d.pcie.poolByte off = some a) :
    windowEffect write off len b m d =
      if write then ({ m with pool := Mem.writeBytes 0 m.pool a (b.take len) }, d)
      else (m, d.emit (.readData (Mem.readBytes 0 m.pool a len))) := by
  simp [windowEffect, hfs, h]

/-- An access through a slice that is not enabled reaches no memory: a write is reported and counted, a read answered with
Unsupported Request (R342). -/
theorem windowEffect_of_disabled (hfs : d.failsafe = false) (h : d.pcie.poolByte off = none) :
    windowEffect write off len b m d = (m,
      if write then (d.aer 0 20).onPcie fun p => { p with pwDiscard := bump p.pwDiscard } else d.emit .unsupported) := by
  simp [windowEffect, hfs, h]

end

/-! ## Advanced Error Reporting -/

/-- An uncorrectable error of PF0 is reported by its status bit. -/
theorem Dev.aer_pf0_bit (d : Dev) {b : Nat} (h : b < 32) : (d.aer 0 b).pcie.pf0.aerUncorr.getLsbD b = true :=
  getLsbD_setBit_self d.pcie.pf0.aerUncorr h

/-! ## Invalidation of translations (R338) -/

/-- A page lies clear of a range where it ends before the range or begins after it. -/
theorem pageMeets_eq_false {lo hi page : Nat} :
    pageMeets (lo, hi) page = false ↔ hi < page * 4096 ∨ page * 4096 + 4095 < lo := by
  rw [pageMeets, decide_eq_false_iff_not]; omega

/-- A translation that an Invalidate Request leaves in the cache was there and lies clear of the range. -/
theorem mem_invalidateEffect_cache {d : Dev} {lo hi : Nat} {t : Translation} (hroom : d.pcie.invalidating.length < 32)
    (ht : t ∈ (invalidateEffect (lo, hi) d).pcie.cache) :
    t ∈ d.pcie.cache ∧ (hi < t.page * 4096 ∨ t.page * 4096 + 4095 < lo) := by
  rw [invalidateEffect, if_neg (Nat.not_le.mpr hroom)] at ht
  obtain ⟨hmem, hclear⟩ := List.mem_filter.mp ht
  exact ⟨hmem, pageMeets_eq_false.mp (by simpa using hclear)⟩

/-- An Invalidate Request joins those in progress as the youngest. -/
theorem invalidateEffect_invalidating {d : Dev} (range : Nat × Nat) (hroom : d.pcie.invalidating.length < 32) :
    (invalidateEffect range d).pcie.invalidating = d.pcie.invalidating ++ [range] := by
  rw [invalidateEffect, if_neg (Nat.not_le.mpr hroom)]; rfl

/-- An Invalidate Request leaves the engines as they are. -/
theorem invalidateEffect_eng (range : Nat × Nat) (d : Dev) : (invalidateEffect range d).eng = d.eng := by
  rw [invalidateEffect]; split <;> rfl

/-- The oldest Invalidate Request completes where no read of PF0 is outstanding under its range. -/
theorem exec_atsInvalidateDone {s : State} {g : Nat × Nat} {rest : List (Nat × Nat)} (hlive : s.dev.live = true)
    (hg : s.dev.pcie.invalidating = g :: rest)
    (hreads : (s.dev.pcie.reads.any fun e =>
      !e.2.kind.isTranslation && (s.dev.requestOf e.2.kind).1 == 0 && pageMeets g (e.2.host / 4096)) = false) :
    exec .atsInvalidateDone s = .next { s with dev := (s.dev.onPcie fun p =>
      { p with invalidating := rest, atsInval := bump p.atsInval }).emit .atsComplete } := by
  show whenLive _ s = _
  rw [whenLive_pos hlive]
  simp [hg, hreads]

/-- Settles O48: by the two outcomes of a commit, the write of one shadow, the access to the window in the fail-safe
state, through an enabled and through a disabled slice, and the two ends of an invalidation. -/
theorem peerWindowAndTranslations : Obligations.PeerWindowAndTranslations := by
  refine ⟨fun s hlive => ?_, fun s x v hrun hfs => ?_, fun s off len b hrun hoff hpage => ?_, fun s hrun => ?_,
    fun s lo hi hlive hats hroom => ?_, fun s g rest hlive hg hreads => exec_atsInvalidateDone hlive hg hreads⟩
  · have hcommit : exec .pwCommit s = .next { s with dev := s.dev.onPcie Pcie.commitWindow } := whenLive_pos hlive
    rw [hcommit, Dev.onPcie]
    exact ⟨fun h => by rw [Pcie.commitWindow_good h], fun h => by rw [Pcie.commitWindow_bad h]⟩
  · have hx := x.isLt
    have hexec := exec_genericRegisterWrite_pcie .pf1 v hrun hfs (off := 0x3000 + 8 * x.val) (by omega) (by omega)
    rw [Dev.writePcie_pwShadow _ _ _ hx, ← Nat.add_assoc] at hexec
    refine ⟨_, hexec, ?_, fun y hy => Tab.get?_set_ne _ _ hy, rfl, rfl⟩
    exact (congrArg (BitVec.setWidth 7) (Tab.get_set_self ..)).trans (RegWrite.setWidth_into_wide (by decide) _ v _)
  · rw [exec_peerWindowAccess true b hrun hoff hpage, exec_peerWindowAccess false b hrun hoff hpage]
    refine ⟨fun hfs => ?_, fun a hfs ha => ?_, fun hfs ha => ?_⟩
    · simp only [windowEffect_of_failsafe _ _ _ _ _ hfs]
      exact ⟨rfl, rfl⟩
    · simp only [windowEffect_of_poolByte _ _ _ _ hfs ha]
      exact ⟨rfl, rfl⟩
    · simp only [windowEffect_of_disabled _ _ _ _ hfs ha]
      exact ⟨rfl, _, rfl, rfl, s.dev.aer_pf0_bit (by decide), rfl⟩
  · have hexec (posted : Bool) : exec (.unsupportedRequest posted) s =
        .next { s with dev := if posted then s.dev.aer 0 20 else s.dev.emit .unsupported } := by
      show onDev _ s = _
      rw [onDev_eq, guarded_pos hrun]
    exact ⟨hexec false, _, hexec true, s.dev.aer_pf0_bit (by decide), rfl, rfl⟩
  · have hexec : exec (.atsInvalidateRequest lo hi) s =
        .next { s with dev := invalidateEffect (lo.toNat, hi.toNat) s.dev } := by
      show whenLive _ s = _
      rw [whenLive_pos hlive, guarded_pos hats]
    exact ⟨_, hexec, invalidateEffect_invalidating _ hroom, fun t ht => mem_invalidateEffect_cache hroom ht,
      invalidateEffect_eng _ _⟩

end Sys2Proof.Machine
end

section
/-!
PROOFS. Rows that take place where a condition holds.
-/
namespace Sys2Proof.Machine

/-! ## Rows whose condition holds -/

section
variable {s : State} {p : Dev → Bool} {f : Dev → Dev}

/-- A guarded row has its effect where its condition holds. -/
theorem onDev_guarded (h : p s.dev = true) : onDev (guarded p f) s = .next { s with dev := f s.dev } := by
  rw [onDev_eq, guarded_pos h]

/-- A guarded row of a live device has its effect where its condition holds. -/
theorem whenLive_guarded (hl : s.dev.live = true) (h : p s.dev = true) :
    whenLive (guarded p f) s = .next { s with dev := f s.dev } := by
  rw [whenLive_pos hl, guarded_pos h]

end

theorem Dev.powered_of_running {d : Dev} (h : d.running = true) : d.powered = true := by
  simp only [Dev.running] at h
  simp [Dev.powered, h]

end Sys2Proof.Machine
end

section
/-!
PROOFS. Resets of the chip, of the endpoint and of its functions, and the states of its link.
-/
namespace Sys2Proof.Machine

/-! ## Resets of the endpoint (R350) -/

/-- The endpoint but for the reads under way and the tags kept out of use. -/
def Pcie.untagged (p : Pcie) : Pcie := { p with reads := [], quarantine := [] }

/-- The endpoint after a reset of PF0, but for tags. -/
def Pcie.pf0Reset (p : Pcie) : Pcie :=
  { p with
    pf0 := p.pf0.sticky, queues := [], heldPf0 := [], deletingQ := none, abortAsk := none, abortWait := none, qresult := {}
    qpSqBase := 0, qpCqBase := 0, qpParam := 0, qpVec := 0, cache := [], invalidating := [] }

/-- The endpoint after a reset of PF1, but for tags. -/
def Pcie.pf1Reset (p : Pcie) : Pcie :=
  { p with pf1 := p.pf1.sticky, heldPf1 := [], mboxEntry := [], mboxStatus := {}, mboxResult := none, mboxCmd := none }

/-- The endpoint with a window mapping in force. -/
def Pcie.mapped (w : Tab W64) (p : Pcie) : Pcie := { p with pwShadow := w, pwActive := w, badCommit := false }

/-- The endpoint with its link down. -/
def Pcie.linkLost (p : Pcie) : Pcie := { p with linkUp := false, gen := 0, width := 0, flit := false, link := .l0 }

section
variable (p : Pcie)
theorem Pcie.untagged_pf0Reset : p.pf0Reset.untagged = p.untagged.pf0Reset := rfl
theorem Pcie.untagged_pf1Reset : p.pf1Reset.untagged = p.untagged.pf1Reset := rfl
theorem Pcie.untagged_mapped (w : Tab W64) : (p.mapped w).untagged = p.untagged.mapped w := rfl
theorem Dev.reloadWindow_pcie (d : Dev) : d.reloadWindow.pcie = d.pcie.mapped d.fw.windowEntries := rfl
theorem Dev.reloadWindow_net (d : Dev) : d.reloadWindow.net = d.net := rfl
theorem Pcie.linkUp_of_untagged {q : Pcie} (h : p.untagged = q) : p.linkUp = q.linkUp := by
  subst h
  rfl
/-- Apart from the tags, endpoints that agree agree in each register. -/
theorem Pcie.fields_of_untagged {q : Pcie} (h : p.untagged = q) :
    (p.pf0 = q.pf0 ∧ p.pf1 = q.pf1 ∧ p.queues = q.queues ∧ p.cache = q.cache ∧ p.qresult = q.qresult ∧ p.heldPf0 = q.heldPf0) ∧
    (p.mboxCmd = q.mboxCmd ∧ p.mboxStatus = q.mboxStatus ∧ p.mboxEntry = q.mboxEntry) ∧
    (p.linkUp = q.linkUp ∧ p.gen = q.gen ∧ p.width = q.width ∧ p.pwActive = q.pwActive) := by
  subst h
  exact ⟨⟨rfl, rfl, rfl, rfl, rfl, rfl⟩, ⟨rfl, rfl, rfl⟩, rfl, rfl, rfl, rfl⟩
theorem Pcie.untagged_linkLost : p.linkLost.untagged = p.untagged.linkLost := rfl
end

section
variable (d : Dev)

theorem Dev.dropReads_pcie (fn : Nat) : (d.dropReads fn).pcie.untagged = d.pcie.untagged := by
  unfold Dev.dropReads
  exact Dev.each_keep (fun d => d.pcie.untagged) _ (fun t d => d.quarantined t fn) (fun _ _ => rfl) d

theorem Dev.orphan_pcie (c : Command) : (d.orphan c).pcie = d.pcie :=
  Dev.pcie_of_mask (Dev.orphan_mask (T := { eng := true }) rfl c d) rfl

theorem Dev.closeStreamsOf_pcie (kind source : Nat) : (d.closeStreamsOf kind source).pcie = d.pcie :=
  Dev.pcie_of_mask (Dev.closeStreamsOf_mask (T := { evt := true, life := true, net := true }) rfl rfl rfl kind source d) rfl

theorem Dev.closeStream_macs (n cause : Nat) : (d.closeStream n cause).net.macs = d.net.macs := by
  simp [Dev.closeStream]

theorem Dev.closeStreamsOf_macs (kind source : Nat) : (d.closeStreamsOf kind source).net.macs = d.net.macs := by
  unfold Dev.closeStreamsOf
  exact Dev.each_keep (fun d => d.net.macs) _ _ (fun _ e => e.closeStream_macs ..) _

/-- What a reset of PF0 leaves of the endpoint. -/
theorem Dev.resetPf0_pcie : d.resetPf0.pcie.untagged = d.pcie.untagged.pf0Reset := by
  unfold Dev.resetPf0
  extract_lets a b c
  have hc : c.pcie.untagged = d.pcie.untagged := by
    calc c.pcie.untagged = b.pcie.untagged :=
          Dev.each_keep (fun d => d.pcie.untagged) _ _ (fun q e => congrArg _ (e.closeStreamsOf_pcie 2 q)) _
      _ = a.pcie.untagged := Dev.each_keep (fun d => d.pcie.untagged) _ _ (fun x e => congrArg _ (e.orphan_pcie x)) _
      _ = d.pcie.untagged := d.dropReads_pcie 0
  exact congrArg Pcie.pf0Reset hc

theorem Dev.resetPf0_macs : d.resetPf0.net.macs = d.net.macs := by
  unfold Dev.resetPf0
  extract_lets a b c
  calc c.net.macs = b.net.macs := Dev.each_keep (fun d => d.net.macs) _ _ (fun q e => e.closeStreamsOf_macs 2 q) _
    _ = a.net.macs := Dev.each_keep (fun d => d.net.macs) _ _ (fun x e =>
        congrArg Net.macs (Dev.net_of_mask (Dev.orphan_mask (T := { eng := true }) rfl x e) rfl)) _
    _ = d.net.macs :=
        congrArg Net.macs (Dev.net_of_mask (Dev.dropReads_mask (T := { pcie := true }) rfl 0 d) rfl)

/-- What a reset of PF1 leaves of the endpoint. -/
theorem Dev.resetPf1_pcie : d.resetPf1.pcie.untagged = d.pcie.untagged.pf1Reset := by
  unfold Dev.resetPf1
  extract_lets a b
  have hb : b.pcie.untagged = d.pcie.untagged := by
    refine Eq.trans ?_ (d.dropReads_pcie 1)
    simp only [b]
    split
    · exact congrArg _ (Dev.orphan_pcie ..)
    · rfl
  exact congrArg Pcie.pf1Reset hb

theorem Dev.resetPf0_fw : d.resetPf0.fw = d.fw :=
  Dev.fw_of_mask (Dev.resetPf0_mask (T := { evt := true, life := true, eng := true, net := true, pcie := true })
    rfl rfl rfl rfl rfl d) rfl

theorem Dev.resetPf1_net : d.resetPf1.net = d.net :=
  Dev.net_of_mask (Dev.resetPf1_mask (T := { eng := true, pcie := true }) rfl rfl d) rfl

theorem Dev.resetPf1_fw : d.resetPf1.fw = d.fw :=
  Dev.fw_of_mask (Dev.resetPf1_mask (T := { eng := true, pcie := true }) rfl rfl d) rfl

/-- The endpoint after a reset of both functions, but for tags: the window mapping is loaded again. -/
theorem Dev.reset_functions_pcie :
    d.resetPf0.resetPf1.reloadWindow.pcie.untagged = (d.pcie.untagged.pf0Reset.pf1Reset).mapped d.fw.windowEntries := by
  rw [Dev.reloadWindow_pcie, Pcie.untagged_mapped, Dev.resetPf1_pcie, Dev.resetPf0_pcie, Dev.resetPf1_fw, Dev.resetPf0_fw]

/-- What a reset of the endpoint leaves of it: a link that was up is down. -/
theorem Dev.resetEndpoint_pcie (cause : Nat) : (d.resetEndpoint cause).pcie.untagged =
    (bif d.pcie.linkUp then Pcie.linkLost else id) ((d.pcie.untagged.pf0Reset.pf1Reset).mapped d.fw.windowEntries) := by
  have h := d.reset_functions_pcie
  unfold Dev.resetEndpoint
  extract_lets a
  change a.pcie.untagged = _ at h
  have hl : a.pcie.linkUp = d.pcie.linkUp := (Pcie.linkUp_of_untagged _ h).trans rfl
  clear_value a
  rw [hl]
  cases d.pcie.linkUp
  · exact h
  · simp only [if_true, Dev.pcieLinkDown, Dev.report_pcie, Dev.onLife_pcie, Dev.onPcie_pcie]
    exact congrArg Pcie.linkLost h

theorem Dev.resetEndpoint_linkUp (cause : Nat) : (d.resetEndpoint cause).pcie.linkUp = false := by
  refine (Pcie.linkUp_of_untagged _ (d.resetEndpoint_pcie cause)).trans ?_
  cases hl : d.pcie.linkUp
  · exact hl
  · rfl

theorem Dev.resetEndpoint_macs (cause : Nat) : (d.resetEndpoint cause).net.macs = d.net.macs := by
  have h : d.resetPf0.resetPf1.reloadWindow.net.macs = d.net.macs := by
    rw [Dev.reloadWindow_net, Dev.resetPf1_net, Dev.resetPf0_macs]
  unfold Dev.resetEndpoint
  extract_lets a
  change a.net.macs = _ at h
  clear_value a
  split
  · simp only [Dev.pcieLinkDown, Dev.report_net, Dev.onLife_net, Dev.onPcie_net]
    exact h
  · exact h

end


/-! ## Resets of the chip (O1) -/

section
variable {s : State}

theorem chipReset_state : (chipReset (s.mem, s.dev)) = (s.afterReset.mem, s.afterReset.dev) := rfl

theorem exec_resetAssert_now (hp : s.dev.powered = true)
    (h : s.dev.live = false ∨ s.dev.pfail.flush = .none ∨ s.dev.pfail.flush = .flushed) :
    exec .resetAssert s = .next s.afterReset := by
  have hd : (s.dev.live && s.dev.pfail.flush != .none && s.dev.pfail.flush != .flushed) = false := by
    rcases h with h | h | h <;> simp [h]
  simp only [exec, execResetAssert, onAll_eq, hp, resetOrDefer, hd, if_true]
  rfl

theorem exec_resetAssert_deferred (hl : s.dev.live = true) (hn : s.dev.pfail.flush ≠ .none) (hf : s.dev.pfail.flush ≠ .flushed)
    (hd : s.dev.pfail.deferredReset = none) :
    exec .resetAssert s =
      .next { s with dev := { s.dev with pfail := { s.dev.pfail with deferredReset := some s.dev.chip.tick } } } := by
  have hp := Dev.powered_of_running (Dev.running_of_live hl)
  simp [exec, execResetAssert, onAll_eq, hp, resetOrDefer, hl, hn, hf, Dev.onPfail, hd]

theorem exec_deferredReset {t : Nat} (hr : s.dev.running = true) (ht : s.dev.pfail.deferredReset = some t)
    (h : s.dev.pfail.flush = .flushed ∨ t + 100 ≤ s.dev.chip.tick) : exec .deferredReset s = .next s.afterReset := by
  have hd : s.dev.resetDue = true := by simpa [Dev.resetDue, ht, hr] using h
  simp only [exec, execDeferredReset, onAll_eq, hd, if_true]
  rfl

theorem exec_selfReset (hl : s.dev.live = true) (h : s.dev.fw.selfReset = true) :
    exec .selfReset s =
      .next { s.afterReset with dev := { s.afterReset.dev with fw := { revertCause := s.dev.fw.trialFailed } } } := by
  have hd : s.dev.selfResetDue = true := by simp [Dev.selfResetDue, hl, h]
  simp only [exec, execSelfReset, onAll_eq, hd, if_true]
  rfl

theorem exec_powerOnResetRelease (h : s.dev.pins.stage = .unpowered ∨ s.dev.pins.stage = .ramped) :
    exec .powerOnResetRelease s = .next { s with dev := { s.dev with pins := { s.dev.pins with stage := .held } } } :=
  onDev_guarded (by simpa using h)

theorem exec_perstAssert_endpoint (hr : s.dev.running = true) (hc : s.dev.pcie.perstChip = false) :
    exec .perstAssert s =
      .next { s with dev := fundamentalReset (s.dev.onPins fun p => { p with perstAsserted := true }) } := by
  have hr' : (s.dev.onPins fun p => { p with perstAsserted := true }).running = true := hr
  simp [exec, execPerstAssert, onAll_eq, Dev.powered_of_running hr, perstEffect, hr', hc]

theorem exec_perstAssert_chip (hr : s.dev.running = true) (hc : s.dev.pcie.perstChip = true) (hf : s.dev.pfail.flush = .none) :
    exec .perstAssert s =
      .next { s.afterReset with dev := { s.afterReset.dev with
        pins := { s.afterReset.dev.pins with perstAsserted := true, perstHolds := true } } } := by
  let d := (s.dev.onPins fun p => { p with perstAsserted := true }).onPins fun p => { p with perstHolds := true }
  have hr' : (s.dev.onPins fun p => { p with perstAsserted := true }).running = true := hr
  have hn : (d.live && d.pfail.flush != .none && d.pfail.flush != .flushed) = false := by simp [d, hf]
  have he : perstEffect (s.mem, s.dev) = chipReset (s.mem, d) := by
    simp only [perstEffect, hr', Dev.onPins_pcie, hc, Bool.and_self, if_true]
    simp only [resetOrDefer]
    exact if_neg (ne_true_of_eq_false hn)
  simp only [exec, execPerstAssert, onAll_eq, Dev.powered_of_running hr, if_true, he]
  rfl

/-- What the release of PERST# leaves of the pins. -/
def Pins.perstReleased (p : Pins) : Pins := { p with perstAsserted := false, perstHolds := false }

theorem exec_perstRelease_running (hr : s.dev.running = true) (h : 2 ≤ s.dev.chip.step.toNat ∨ s.dev.chip.state ≠ 0) :
    exec .perstRelease s =
      .next { s with dev := { s.dev with
        pins := s.dev.pins.perstReleased, pcie := { s.dev.pcie with training := true } } } := by
  have hr' : (s.dev.onPins fun p => { p with perstAsserted := false, perstHolds := false }).running = true := hr
  have hread : (decide (2 ≤ s.dev.chip.step.toNat) || s.dev.chip.state != 0) = true := by simpa using h
  refine (onDev_guarded (Dev.powered_of_running hr)).trans (congrArg (fun d => Host.Outcome.next { s with dev := d }) (if_pos ?_))
  rw [hr', Bool.true_and]
  exact hread

theorem exec_perstRelease_held (h : s.dev.pins.stage = .held) :
    exec .perstRelease s = .next { s with dev := { s.dev with pins := s.dev.pins.perstReleased } } := by
  have hp : s.dev.powered = true := by simp [Dev.powered, h]
  have hr' : (s.dev.onPins fun p => { p with perstAsserted := false, perstHolds := false }).running = false := by
    simp [Dev.running, h]
  refine (onDev_guarded hp).trans ?_
  simp [hr']
  rfl
end

/-- The endpoint after a fundamental reset: its functions at their reset values, the window the options give. -/
def Pcie.fundamental (w : Nat) (p : Pcie) : Pcie := { p with training := false, pf0 := {}, pf1 := {}, windowGiB := w }

/-- What follows the reset of both functions at PERST#: the options apply anew, and registers that are sticky are cleared. -/
def Dev.reapplied (d : Dev) : Dev :=
  (if 2 ≤ d.chip.step.toNat || d.chip.state != 0 then d.applyOptions d.fw.options else d).onPcie fun p =>
    { p with training := false, pf0 := {}, pf1 := {} }

theorem fundamentalReset_eq (d : Dev) : fundamentalReset d = (d.resetEndpoint 1).reapplied := rfl

theorem Dev.reapplied_pcie (d : Dev) : ∃ w, d.reapplied.pcie = d.pcie.fundamental w := by
  unfold Dev.reapplied
  split
  · exact ⟨d.fw.options.window, rfl⟩
  · exact ⟨d.pcie.windowGiB, rfl⟩

theorem Dev.reapplied_mask (d : Dev) : d.reapplied.mask { chip := true, pcie := true } = d.mask { chip := true, pcie := true } := by
  unfold Dev.reapplied
  split <;> rfl

/-- What PERST# leaves of the endpoint. -/
theorem fundamentalReset_endpoint (d : Dev) :
    ∃ p, (fundamentalReset d).pcie = p ∧
    p.pf0 = {} ∧ p.pf1 = {} ∧ p.queues = [] ∧ p.cache = [] ∧ p.mboxEntry = [] ∧ p.linkUp = false ∧ p.training = false := by
  rw [fundamentalReset_eq]
  have hu := d.resetEndpoint_pcie 1
  have hl := d.resetEndpoint_linkUp 1
  generalize d.resetEndpoint 1 = e at hu hl ⊢
  obtain ⟨⟨_, _, hq, hc, _, _⟩, ⟨_, _, hm⟩, _⟩ := Pcie.fields_of_untagged _ hu
  obtain ⟨w, h⟩ := e.reapplied_pcie
  refine ⟨_, h, rfl, rfl, hq.trans ?_, hc.trans ?_, hm.trans ?_, hl, rfl⟩ <;> cases d.pcie.linkUp <;> rfl

/-- What PERST# leaves of the rest of the device. -/
theorem fundamentalReset_rest (d : Dev) :
    ∃ e, fundamentalReset d = e ∧
      e.pins = d.pins ∧ e.nv = d.nv ∧ e.keys = d.keys ∧ e.net.macs = d.net.macs ∧ e.pfail = d.pfail := by
  rw [fundamentalReset_eq]
  have hm := Dev.resetEndpoint_mask (T := { evt := true, life := true, eng := true, net := true, pcie := true })
    rfl rfl rfl rfl rfl 1 d
  have hmac := d.resetEndpoint_macs 1
  generalize d.resetEndpoint 1 = e at hm hmac ⊢
  have hr := e.reapplied_mask
  exact ⟨_, rfl, (Dev.pins_of_mask hr rfl).trans (Dev.pins_of_mask hm rfl), (Dev.nv_of_mask hr rfl).trans (Dev.nv_of_mask hm rfl),
    (Dev.keys_of_mask hr rfl).trans (Dev.keys_of_mask hm rfl), (congrArg Net.macs (Dev.net_of_mask hr rfl)).trans hmac,
    (Dev.pfail_of_mask hr rfl).trans (Dev.pfail_of_mask hm rfl)⟩

/-- Settles O1, clause by clause: what each reset of the chip leaves, and what PERST# leaves of the endpoint. -/
theorem resetsOfTheChip : Obligations.ResetsOfTheChip := by
  refine ⟨⟨fun s hp h => exec_resetAssert_now hp h, fun s hl hn hf hd => exec_resetAssert_deferred hl hn hf hd,
    fun s t hr ht h => exec_deferredReset hr ht h, fun s hl h => exec_selfReset hl h, fun s => rfl,
    fun s h => exec_powerOnResetRelease h⟩, ?_, fun s hr hc hf => exec_perstAssert_chip hr hc hf,
    fun s hr h => exec_perstRelease_running hr h, fun s h => exec_perstRelease_held h⟩
  intro s hr hc
  obtain ⟨p, hp', h0, h1, hq, hch, hm, hl, ht⟩ := fundamentalReset_endpoint (s.dev.onPins fun p => { p with perstAsserted := true })
  obtain ⟨e, he, hp, hn, hk, hmac, hpf⟩ := fundamentalReset_rest (s.dev.onPins fun p => { p with perstAsserted := true })
  rw [exec_perstAssert_endpoint hr hc, he]
  subst he hp'
  exact ⟨_, rfl, hp, h0, h1, hq, hch, hm, hl, ht, hn, hk, hmac, hpf⟩


/-! ## Function level resets, hot reset, link states (O49) -/

section
variable {s : State}

theorem exec_flrPf0 (hl : s.dev.live = true) :
    ∃ d', exec .flrPf0 s = .next { s with dev := d' } ∧ d'.pcie = s.dev.resetPf0.pcie ∧ d'.store = s.dev.store ∧
      d'.nv = s.dev.nv := by
  refine ⟨_, whenLive_pos hl, Dev.report_pcie .., ?_, ?_⟩
  · exact (Dev.report_store ..).trans (Dev.store_of_mask (Dev.resetPf0_mask
      (T := { evt := true, life := true, eng := true, net := true, pcie := true }) rfl rfl rfl rfl rfl s.dev) rfl)
  · exact (Dev.report_nv ..).trans (Dev.nv_of_mask (Dev.resetPf0_mask
      (T := { evt := true, life := true, eng := true, net := true, pcie := true }) rfl rfl rfl rfl rfl s.dev) rfl)

theorem exec_flrPf1 (hl : s.dev.live = true) :
    ∃ d', exec .flrPf1 s = .next { s with dev := d' } ∧ d'.pcie = s.dev.resetPf1.pcie ∧ d'.store = s.dev.store ∧
      d'.nv = s.dev.nv := by
  refine ⟨_, whenLive_pos hl, Dev.report_pcie .., ?_, ?_⟩
  · exact (Dev.report_store ..).trans
      (Dev.store_of_mask (Dev.resetPf1_mask (T := { eng := true, pcie := true }) rfl rfl s.dev) rfl)
  · exact (Dev.report_nv ..).trans
      (Dev.nv_of_mask (Dev.resetPf1_mask (T := { eng := true, pcie := true }) rfl rfl s.dev) rfl)

/-- A hot reset and a surprise down reset the endpoint. -/
theorem exec_hotReset (cause : PcieDownCause) (hr : s.dev.running = true) (hl : s.dev.pcie.linkUp = true) :
    ∃ n, exec (.hotReset cause) s = .next { s with dev := s.dev.resetEndpoint n } :=
  ⟨_, onDev_guarded (by rw [hr, hl]; rfl)⟩

theorem Dev.resetEndpoint_store (d : Dev) (n : Nat) : (d.resetEndpoint n).store = d.store :=
  Dev.store_of_mask (Dev.resetEndpoint_mask (T := { evt := true, life := true, eng := true, net := true, pcie := true })
    rfl rfl rfl rfl rfl n d) rfl

theorem Dev.resetEndpoint_nv (d : Dev) (n : Nat) : (d.resetEndpoint n).nv = d.nv :=
  Dev.nv_of_mask (Dev.resetEndpoint_mask (T := { evt := true, life := true, eng := true, net := true, pcie := true })
    rfl rfl rfl rfl rfl n d) rfl

theorem exec_pcieLinkUp {gen : Fin 7} {width : Fin 17} {flit : Bool} (hr : s.dev.running = true)
    (ht : s.dev.pcie.training = true) (hl : s.dev.pcie.linkUp = false) (hg : gen.val ≠ 0)
    (hw : width.val ∈ [1, 2, 4, 8, 16]) (hf : gen.val = 6 → flit = true) :
    ∃ d', exec (.pcieLinkUp gen width flit) s = .next { s with dev := d' } ∧
      d'.pcie = { s.dev.pcie with linkUp := true, gen := gen.val, width := width.val, flit := flit, link := .l0 } := by
  have hgf : (gen.val != 6 || flit) = true := by
    cases h : (gen.val != 6)
    · simpa using hf (by simpa using h)
    · rfl
  refine ⟨_, onDev_guarded ?_, Dev.report_pcie ..⟩
  simp only [hr, ht, hl, hgf, List.contains_iff_mem.mpr hw, hg, ne_eq, not_false_eq_true, decide_true, Bool.not_false,
    Bool.and_self]

theorem exec_l0sEntry (hr : s.dev.running = true) (hu : s.dev.pcie.linkUp = true) (hl : s.dev.pcie.link = .l0)
    (hf : s.dev.pcie.flit = false) (hc : s.dev.pcie.pf0.linkControl.getLsbD 0 = true) :
    exec .l0sEntry s = .next { s with dev := { s.dev with pcie := { s.dev.pcie with link := .l0s } } } :=
  onDev_guarded (by simp only [hr, hu, hl, hf, Pcie.aspm, hc]; rfl)

theorem exec_l1Entry (hr : s.dev.running = true) (hu : s.dev.pcie.linkUp = true) (hl : s.dev.pcie.link = .l0)
    (hn : s.dev.pcie.reads = []) (hc : s.dev.pcie.pf0.linkControl.getLsbD 1 = true) :
    exec .l1Entry s = .next { s with dev := { s.dev with pcie := { s.dev.pcie with link := .l1 } } } :=
  onDev_guarded (by simp only [hr, hu, hl, hn, Pcie.aspm, hc]; rfl)

theorem exec_clkreqRelease {l : LinkPower} (hr : s.dev.running = true) (hl : s.dev.pcie.link = .l1)
    (hs : s.dev.pcie.substate = some l) :
    exec .clkreqRelease s = .next { s with dev := { s.dev with
      pcie := { s.dev.pcie with link := l }, pins := { s.dev.pins with clkreqReleased := true } } } := by
  refine (onDev_guarded (by rw [hr, hl]; rfl)).trans ?_
  simp only [hs]
  rfl

theorem exec_linkStateExit (hr : s.dev.running = true) (hl : s.dev.pcie.link ≠ .l0) :
    exec .linkStateExit s = .next { s with dev := { s.dev with
      pcie := { s.dev.pcie with link := .l0 }, pins := { s.dev.pins with clkreqReleased := false } } } :=
  onDev_guarded (by simpa [hr] using hl)

end

/-- Settles O49, row by row, over what the reset of a function leaves of the endpoint. -/
theorem resetsOfTheEndpoint : Obligations.ResetsOfTheEndpoint := by
  refine ⟨fun s hl => ⟨?_, ?_⟩, fun s cause hr hu => ?_, fun s gen width flit hr ht hl hg hw hf =>
    exec_pcieLinkUp hr ht hl hg hw hf, fun s hr hu hl => ⟨exec_l0sEntry hr hu hl, exec_l1Entry hr hu hl⟩,
    fun s l hr hl hs => exec_clkreqRelease hr hl hs, fun s hr hl => exec_linkStateExit hr hl⟩
  · obtain ⟨d', he, hp, hs, hn⟩ := exec_flrPf0 hl
    obtain ⟨⟨h0, h1, hq, hc, hqr, hh⟩, ⟨hm, _, _⟩, hlu, _⟩ := Pcie.fields_of_untagged _ (hp ▸ s.dev.resetPf0_pcie)
    exact ⟨d', he, h0, hq, hc, hqr, hh, h1, hm, hlu, hs, hn⟩
  · obtain ⟨d', he, hp, hs, hn⟩ := exec_flrPf1 hl
    obtain ⟨⟨h0, h1, hq, _, _, _⟩, ⟨hm, hst, hme⟩, _⟩ := Pcie.fields_of_untagged _ (hp ▸ s.dev.resetPf1_pcie)
    exact ⟨d', he, h1, hm, hst, hme, h0, hq, hs, hn⟩
  · obtain ⟨n, he⟩ := exec_hotReset cause hr hu
    have h := s.dev.resetEndpoint_pcie n
    rw [hu] at h
    obtain ⟨⟨h0, h1, hq, _, _, _⟩, _, hlu, hg, hw, hpw⟩ := Pcie.fields_of_untagged _ h
    exact ⟨_, he, h0, h1, hq, hlu, hg, hw, hpw, s.dev.resetEndpoint_store n, s.dev.resetEndpoint_nv n⟩

end Sys2Proof.Machine
end

section
/-!
PROOFS. Every command answers, and every step keeps the byte memories canonical.
-/
namespace Sys2Proof.Machine

/-! ## Every command answers (O57) -/

set_option maxRecDepth 4000 in
/-- A command answers a next state that differs in the device and the byte memories only. -/
theorem exec_next (c : Instr) (s : State) : ∃ m d, exec c s = .next { s with mem := m, dev := d } := by
  cases c
  case drbgReseed ok _ _ => cases ok <;> exact ⟨_, _, rfl⟩
  all_goals exact ⟨_, _, rfl⟩

/-- Settles O57: every row is an effect on the device or on the device and the byte memories. -/
theorem everyCommandAnswers : Obligations.EveryCommandAnswers := by
  intro c s
  obtain ⟨m, d, h⟩ := exec_next c s
  exact ⟨_, h, rfl, rfl, rfl⟩

/-! ## The byte memories stay canonical (O59) -/

set_option maxRecDepth 4000 in
/-- A row that touches no byte memory leaves them all. -/
theorem exec_mem (c : Instr) (s : State) (hc : Instr.touchesBytes c = false) : ∃ d, exec c s = .next { s with dev := d } := by
  cases c
  case drbgReseed ok _ _ => cases ok <;> exact ⟨_, rfl⟩
  case fwstage | fwcommit | mwr | genericRegisterWrite | stagedImageCheckDone | settingsCommitDone | peerWindowAccess
      | responseEmission | startNor | startManagementFirmware | resetAssert | deferredReset | perstAssert | selfReset
      | powerRemoval => cases hc
  all_goals exact ⟨_, rfl⟩

/-- The answer goes on with byte memories in canonical form. -/
def AnswersWf (a : Answer) : Prop := ∀ t, a = .next t → t.mem.wf = true

section
variable {s : State}

theorem answersWf_onAll {f : Memories → Dev → Memories × Dev} (h : (f s.mem s.dev).1.wf = true) : AnswersWf (onAll f s) :=
  fun _ ht => onAll_next.mp ht ▸ h

/-- FWSTAGE and FWCOMMIT keep the canonical form where their effect does. -/
theorem answersWf_runInstrAll {ctx : CtxId} {p : Fields → Bool} {f : Nat → Coach → Fields → Memories × Dev → Memories × Dev}
    (hs : s.mem.wf = true) (h : ∀ i c w x, x.1.wf = true → (f i c w x).1.wf = true) :
    AnswersWf (runInstrAll ctx p f s) := by
  refine answersWf_onAll ?_
  split
  · exact hs
  · split
    · split
      · exact hs
      · exact h _ _ _ _ hs
    · exact hs

theorem answersWf_fwstage {ctx : CtxId} {ok : Bool} (hs : s.mem.wf = true) : AnswersWf (execFwstage ctx ok s) := by
  refine answersWf_runInstrAll hs fun i c w x hx => ?_
  split
  · exact hx
  · exact stageWrite_wf hx ..

theorem answersWf_fwcommit {ctx : CtxId} (hs : s.mem.wf = true) : AnswersWf (execFwcommit ctx s) := by
  refine answersWf_runInstrAll hs fun i c w x hx => ?_
  split
  · exact hx
  · split
    · exact commitTrial_wf hx
    · exact hx

theorem answersWf_mwr {ctx : CtxId} (hs : s.mem.wf = true) : AnswersWf (execMwr ctx s) := by
  refine answersWf_onAll ?_
  split
  · exact hs
  · split
    · exact mwrEffect_wf (s := (s.mem, s.dev)) hs ..
    · exact hs

theorem answersWf_genericRegisterWrite {who : Requester} {a : Nat} {wide : Bool} {v : Option W64} (hs : s.mem.wf = true) :
    AnswersWf (execGenericRegisterWrite who a wide v s) := by
  refine answersWf_onAll ?_
  split
  · cases v
    · exact hs
    · exact controlWrite_wf (s := (s.mem, s.dev)) hs ..
  · exact hs

theorem answersWf_peerWindowAccess {write : Bool} {offset length : Nat} {bytes : Bytes} (hs : s.mem.wf = true) :
    AnswersWf (execPeerWindowAccess write offset length bytes s) := by
  refine answersWf_onAll ?_
  split
  · exact windowEffect_wf _ _ _ _ _ hs
  · exact hs

theorem answersWf_powerRemoval (hs : s.mem.wf = true) : AnswersWf (execPowerRemoval s) :=
  answersWf_onAll (chipReset_wf (s := (s.mem, s.dev)) hs)

theorem answersWf_responseEmission {i : Nat} {rd : StreamEnv} {ns : W64} (hs : s.mem.wf = true) :
    AnswersWf (execResponseEmission i rd ns s) :=
  answersWf_onAll (emissionEffect_wf _ _ _ _ _ hs)

theorem answersWf_stagedImageCheckDone (hs : s.mem.wf = true) : AnswersWf (execStagedImageCheckDone s) := by
  have hx : (s.mem, s.dev).1.wf = true := hs
  refine answersWf_onAll ?_
  split
  · exact stagedCheck_wf hx _
  · exact hs

theorem answersWf_settingsCommitDone {ok : Bool} (hs : s.mem.wf = true) : AnswersWf (execSettingsCommitDone ok s) := by
  have hx : (s.mem, s.dev).1.wf = true := hs
  refine answersWf_onAll ?_
  split
  · exact commitDone_wf hx _
  · exact hs

theorem answersWf_startNor {ms : W32} (hs : s.mem.wf = true) : AnswersWf (execStartNor ms s) := by
  have hx : (s.mem, s.dev).1.wf = true := hs
  refine answersWf_onAll ?_
  split
  · exact norStep_wf hx _ _
  · exact hs

theorem answersWf_startManagementFirmware {ok : Bool} {ms : W32} (hs : s.mem.wf = true) : AnswersWf (execStartManagementFirmware ok ms s) := by
  have hx : (s.mem, s.dev).1.wf = true := hs
  refine answersWf_onAll ?_
  split
  · exact firmwareStep_wf hx _ _ _
  · exact hs

theorem answersWf_resetAssert (hs : s.mem.wf = true) : AnswersWf (execResetAssert s) := by
  have hx : (s.mem, s.dev).1.wf = true := hs
  refine answersWf_onAll ?_
  split
  · exact resetOrDefer_wf hx
  · exact hs

theorem answersWf_deferredReset (hs : s.mem.wf = true) : AnswersWf (execDeferredReset s) := by
  have hx : (s.mem, s.dev).1.wf = true := hs
  refine answersWf_onAll ?_
  split
  · exact chipReset_wf hx
  · exact hs

theorem answersWf_perstAssert (hs : s.mem.wf = true) : AnswersWf (execPerstAssert s) := by
  have hx : (s.mem, s.dev).1.wf = true := hs
  refine answersWf_onAll ?_
  split
  · exact perstEffect_wf hx
  · exact hs

theorem answersWf_selfReset (hs : s.mem.wf = true) : AnswersWf (execSelfReset s) := by
  have hx : (s.mem, s.dev).1.wf = true := hs
  refine answersWf_onAll ?_
  split
  · exact chipReset_wf hx
  · exact hs

end

set_option maxRecDepth 4000 in
/-- A row that touches the byte memories keeps their canonical form. -/
theorem exec_wf_of_touches (c : Instr) (s : State) (hs : s.mem.wf = true) (hc : Instr.touchesBytes c = true) :
    AnswersWf (exec c s) := by
  cases c
  case fwstage => exact answersWf_fwstage hs
  case fwcommit => exact answersWf_fwcommit hs
  case mwr => exact answersWf_mwr hs
  case genericRegisterWrite => exact answersWf_genericRegisterWrite hs
  case stagedImageCheckDone => exact answersWf_stagedImageCheckDone hs
  case settingsCommitDone => exact answersWf_settingsCommitDone hs
  case peerWindowAccess => exact answersWf_peerWindowAccess hs
  case responseEmission => exact answersWf_responseEmission hs
  case startNor => exact answersWf_startNor hs
  case startManagementFirmware => exact answersWf_startManagementFirmware hs
  case resetAssert => exact answersWf_resetAssert hs
  case deferredReset => exact answersWf_deferredReset hs
  case perstAssert => exact answersWf_perstAssert hs
  case selfReset => exact answersWf_selfReset hs
  case powerRemoval => exact answersWf_powerRemoval hs
  all_goals cases hc

theorem exec_wf (c : Instr) (s : State) (hs : s.mem.wf = true) : AnswersWf (exec c s) := by
  cases hc : Instr.touchesBytes c with
  | true => exact exec_wf_of_touches c s hs hc
  | false =>
    obtain ⟨d, h⟩ := exec_mem c s hc
    rintro t ht
    obtain rfl : _ = t := Host.Outcome.next.inj (h.symm.trans ht)
    exact hs

/-- Settles O59: each row keeps the form, and a step runs one row or idles. -/
theorem stepsKeepMemoriesCanonical : Obligations.StepsKeepMemoriesCanonical := by
  intro s t hs ht
  unfold step at ht
  split at ht
  · obtain rfl : s = t := Host.Outcome.next.inj ht
    exact hs
  · next c rest _ => exact exec_wf c { s with pending := rest } hs t ht

end Sys2Proof.Machine
end

section
/-!
PROOFS. The fail-safe reason stays latched.
-/
namespace Sys2Proof.Machine

/-! ## The fail-safe reason (R410, R411) -/

/-- An answer that goes on from `s` goes on with the fail-safe reason of `s`. -/
def KeepsReason (s : State) (a : Answer) : Prop := ∀ t, a = .next t → t.dev.chip.reason = s.dev.chip.reason

/-- Every group but the chip common registers. -/
def Groups.allButChip : Groups :=
  { out := true, free := true, pins := true, pfail := true, evt := true, wall := true, life := true, keys := true
    fw := true, store := true, eng := true, net := true, pcie := true, trained := true, nv := true }

section
variable {s : State}

theorem keepsReason_onDev {f : Dev → Dev} (h : (f s.dev).chip.reason = s.dev.chip.reason) :
    KeepsReason s (onDev f s) := fun _ ht => onDev_next.mp ht ▸ h

theorem keepsReason_onAll {f : Memories → Dev → Memories × Dev}
    (h : (f s.mem s.dev).2.chip.reason = s.dev.chip.reason) : KeepsReason s (onAll f s) :=
  fun _ ht => onAll_next.mp ht ▸ h

/-- An effect that leaves the chip registers leaves the reason. -/
theorem Dev.reason_of_mask {d e : Dev} (h : d.mask .allButChip = e.mask .allButChip) : d.chip.reason = e.chip.reason :=
  congrArg Chip.reason (Dev.chip_of_mask h rfl)

theorem keepsReason_of_mask {f : Dev → Dev} (h : (f s.dev).mask .allButChip = s.dev.mask .allButChip) :
    KeepsReason s (onDev f s) := keepsReason_onDev (Dev.reason_of_mask h)

/-- Where its condition does not hold a command changes nothing. -/
theorem keepsReason_guarded {p : Dev → Bool} {f : Dev → Dev} (h : p s.dev = false) : KeepsReason s (onDev (guarded p f) s) :=
  keepsReason_onDev (by rw [guarded_neg h])

theorem Dev.live_of_failsafe {d : Dev} (h : d.failsafe = true) : d.live = false := by simp [Dev.live, h]

theorem keepsReason_whenLive {f : Dev → Dev} (h : s.dev.failsafe = true) : KeepsReason s (whenLive f s) :=
  keepsReason_guarded (Dev.live_of_failsafe h)

theorem keepsReason_runInstr {ctx : CtxId} {p : Fields → Bool} {f : Nat → Coach → Fields → Dev → Dev}
    (h : ∀ i c w d, (f i c w d).mask .allButChip = d.mask .allButChip) : KeepsReason s (runInstr ctx p f s) :=
  keepsReason_of_mask (Dev.onInstr_mask _ _ _ _ h)

theorem keepsReason_runKey {ctx : CtxId} {op : Nat} {rd : ReadEnv} {f : KeyEffect}
    (h : ∀ bd rd a i c w d, (f bd rd a i c w d).mask .allButChip = d.mask .allButChip) :
    KeepsReason s (runKey ctx op rd f s) :=
  keepsReason_runInstr fun _ _ _ _ => accepted_mask rfl _ _ _ _ _ (h _ _ _)

theorem keepsReason_resume {ctx : CtxId} {p : Dev → Coach → Bool} {rd : ReadEnv} {a : Bool} :
    KeepsReason s (resume ctx p rd a s) := by
  refine keepsReason_of_mask ?_
  split
  · rfl
  · split
    · split
      · next hf => rw [keyEffectOf_mask rfl rfl rfl rfl rfl rfl rfl hf, Dev.waitFor_mask rfl]
      · rfl
    · rfl

/-- A privileged instruction that changes the device ends its coach in the fail-safe state (R413). -/
theorem keepsReason_acting {ctx : CtxId} {p : Fields → Bool} {f : Nat → Coach → Fields → Dev → Dev}
    (h : s.dev.failsafe = true) : KeepsReason s (runInstr ctx p (accepted (acting f)) s) := by
  refine keepsReason_of_mask ?_
  unfold Dev.onInstr
  split
  · rfl
  · split
    · unfold accepted acting
      rw [if_pos h]
      split <;> simp [Groups.allButChip]
    · rfl

/-- An instruction on keys, sets and rows of R91 leaves the chip registers. -/
theorem keepsReason_ofKey {ctx : CtxId} {op : Nat} {rd : ReadEnv} {f : KeyEffect} (h : keyEffectOf op = some f) :
    KeepsReason s (runKey ctx op rd f s) :=
  keepsReason_runKey fun _ _ _ _ _ _ _ => keyEffectOf_mask rfl rfl rfl rfl rfl rfl rfl h ..

/-- A command guarded by a condition leaves the reason where its effect leaves the chip registers. -/
theorem keepsReason_guarded_of_mask {p : Dev → Bool} {f : Dev → Dev}
    (h : ∀ d, (f d).mask .allButChip = d.mask .allButChip) : KeepsReason s (onDev (guarded p f) s) :=
  keepsReason_of_mask (guarded_mask _ _ _ h)

/-- A command guarded by a condition leaves the reason where its effect does. -/
theorem keepsReason_guarded_of {p : Dev → Bool} {f : Dev → Dev} (h : (f s.dev).chip.reason = s.dev.chip.reason) :
    KeepsReason s (onDev (guarded p f) s) := by
  refine keepsReason_onDev ?_
  unfold guarded
  split
  · exact h
  · rfl

/-- FWSTAGE and FWCOMMIT end their coach in the fail-safe state (R413). -/
theorem keepsReason_runInstrAll {ctx : CtxId} {p : Fields → Bool}
    {f : Nat → Coach → Fields → Memories × Dev → Memories × Dev} (h : s.dev.failsafe = true) :
    KeepsReason s (runInstrAll ctx p f s) := by
  refine keepsReason_onAll ?_
  simp only [h, if_true]
  split
  · rfl
  · split
    · exact Dev.reason_of_mask (by simp [Groups.allButChip])
    · rfl

end

/-! A later trigger sets `multiple` only (R410). -/
section
variable {d : Dev}

theorem Dev.enterFailsafe_reason_of_failsafe (reason detail : Byte) (h : d.failsafe = true) :
    (d.enterFailsafe reason detail).chip.reason = d.chip.reason := by
  simp [Dev.enterFailsafe, h]

theorem Dev.alarm_reason_of_failsafe (kind : AlarmKind) (mv mc : W64) (h : d.failsafe = true) :
    (d.alarm kind mv mc).chip.reason = d.chip.reason := by
  have hk : (d.onKeys fun k => { k.erase with
      alarm := setBit k.alarm (alarmBit kind) true, entropyFailed := k.entropyFailed || kind == .entropy }).failsafe = true := h
  simp only [Dev.alarm, Dev.report_chip]
  exact Dev.enterFailsafe_reason_of_failsafe _ _ hk

theorem Dev.rom_reason_of_failsafe (r : RomResult) (h : d.failsafe = true) : (d.rom r).chip.reason = d.chip.reason := by
  unfold Dev.rom
  extract_lets a b c
  have hc : c.failsafe = true := h
  have hr : c.chip.reason = d.chip.reason := rfl
  split
  · exact (Dev.enterFailsafe_reason_of_failsafe _ _ hc).trans hr
  split
  · exact (Dev.enterFailsafe_reason_of_failsafe _ _ hc).trans hr
  split
  · exact (Dev.alarm_reason_of_failsafe _ _ _ hc).trans hr
  · exact hr

/-! Programming the log and the tick leave the reason, in any state. -/

theorem Dev.setDegraded_reason (e m : Nat) : (d.setDegraded e m).chip.reason = d.chip.reason := by
  simp [Dev.setDegraded]

theorem Dev.programGroup_reason (g : List EventRec) (p m eraseP eraseM : Bool) :
    (d.programGroup g p m eraseP eraseM).chip.reason = d.chip.reason := by
  have hk : ∀ (c : Bool) (e : Nat) (b : Bool) (x : Dev), (if c then x.killCopy e b 1 else x).chip.reason = x.chip.reason :=
    fun c e b x => by
      split
      · exact Dev.reason_of_mask (by simp [Groups.allButChip])
      · rfl
  unfold Dev.programGroup
  extract_lets e p' m' d1 d2 g' d3
  have h2 : d2.chip.reason = d.chip.reason := (hk ..).trans (hk ..)
  have h3 : d3.chip.reason = d2.chip.reason := Dev.reason_of_mask (by simp [Groups.allButChip, d3])
  split
  · split
    · rw [Dev.advanceEntry_chip, h3, h2]
    · rw [h3, h2]
  · rw [Dev.advanceEntry_chip, Dev.setDegraded_reason, h2]

theorem Dev.programWaiting_reason (p m eraseP eraseM : Bool) :
    (d.programWaiting p m eraseP eraseM).chip.reason = d.chip.reason := by
  unfold Dev.programWaiting
  split
  · rfl
  · exact Dev.programGroup_reason ..

theorem Dev.fileAll_reason (n : Nat) : (Dev.fileAll n d).chip.reason = d.chip.reason :=
  Dev.reason_of_mask (by simp [Groups.allButChip])

theorem Dev.closeLog_reason (p m : Bool) : (d.closeLog p m).chip.reason = d.chip.reason := by
  unfold Dev.closeLog
  split
  · extract_lets go a b c
    have hgo : ∀ x, (go x).chip.reason = x.chip.reason := fun _ => Dev.programWaiting_reason ..
    have hc : c.chip.reason = d.chip.reason := by simp only [c, b, a, hgo, Dev.fileAll_reason]
    split
    · exact hc
    · exact (Dev.programGroup_reason ..).trans hc
  · rfl

theorem Dev.readTemperatures_reason (ts : List Int) : (d.readTemperatures ts).chip.reason = d.chip.reason := by
  refine Dev.each_keep (fun d => d.chip.reason) _ _ (fun x e => ?_) _
  split <;> rfl

theorem Dev.tick_reason (ts : List Int) : (d.tick ts).chip.reason = d.chip.reason := by
  unfold Dev.tick
  extract_lets a b c e f
  have hc : c.chip.reason = d.chip.reason := Dev.readTemperatures_reason (d := a) ts
  have he : e.chip.reason = c.chip.reason := by
    simp only [e]
    split <;> rfl
  have hf : f.chip.reason = e.chip.reason := Dev.reason_of_mask (by simp [Groups.allButChip, f])
  split <;> simp [*]

end

section
variable {s : State}

/-- A row that reaches the byte memories leaves the reason where it leaves the chip registers. -/
theorem keepsReason_onAll_of_mask {f : Memories → Dev → Memories × Dev}
    (h : (f s.mem s.dev).2.mask .allButChip = s.dev.mask .allButChip) : KeepsReason s (onAll f s) :=
  keepsReason_onAll (Dev.reason_of_mask h)

/-- A row on device and byte memories leaves the chip registers where its effect does. -/
theorem keepsReason_onAll_ite {p : Dev → Prop} [DecidablePred p] {f : Memories → Dev → Memories × Dev}
    (h : ∀ m d, (f m d).2.mask .allButChip = d.mask .allButChip) :
    KeepsReason s (onAll (fun m d => if p d then f m d else (m, d)) s) := by
  refine keepsReason_onAll_of_mask ?_
  split
  · exact h ..
  · rfl

/-- Writes of control space are ignored in the fail-safe state (R30). -/
theorem controlWrite_of_failsafe {fu : Fuses} {who : Requester} {a : Nat} {wide : Bool} {v : W64} {x : Memories × Dev}
    (h : x.2.failsafe = true) : controlWrite fu who a wide v x = x := by simp [controlWrite, h]

theorem keepsReason_genericRegisterWrite {who : Requester} {a : Nat} {wide : Bool} {v : Option W64}
    (h : s.dev.failsafe = true) : KeepsReason s (execGenericRegisterWrite who a wide v s) := by
  refine keepsReason_onAll ?_
  split
  · cases v with
    | some v => exact congrArg (fun x : Memories × Dev => x.2.chip.reason) (controlWrite_of_failsafe h)
    | none => exact Dev.reason_of_mask (by simp [Groups.allButChip])
  · rfl

theorem keepsReason_mwr {ctx : CtxId} (h : s.dev.failsafe = true) : KeepsReason s (execMwr ctx s) := by
  have he (i : Nat) (c : Coach) (w : Fields) :
      (mwrEffect s.fuses i c w (s.mem, s.dev)).2.mask .allButChip = s.dev.mask .allButChip := by
    unfold mwrEffect
    split
    · simp [Groups.allButChip]
    · rw [controlWrite_of_failsafe h]
      simp [Groups.allButChip]
  refine keepsReason_onAll_of_mask ?_
  split
  · rfl
  · split
    · exact (Dev.onCoach_mask rfl ..).trans (he ..)
    · rfl

theorem keepsReason_frameTransmit {mac : MacId} {cls : ClassId} {fw : Option FirmwareFrame} :
    KeepsReason s (execFrameTransmit mac cls fw s) := by
  refine keepsReason_guarded_of_mask fun d => ?_
  split <;> simp [Groups.allButChip]

theorem keepsReason_jenRow {type m : Nat} {f : Nat → Session → RxFrame → Dev → Dev}
    (h : ∀ n x r d, (f n x r d).mask .allButChip = d.mask .allButChip) :
    KeepsReason s (onDev (jenRow type m (withSession m f)) s) :=
  keepsReason_of_mask (jenRow_mask rfl _ _ _ _ fun _ _ => withSession_mask rfl rfl _ _ _ _ h)

theorem keepsReason_unitProgramComplete {front : FrontId} {position : Nat} {channel : Fin 16} {ok : Bool} :
    KeepsReason s (execUnitProgramComplete front position channel ok s) := by
  refine keepsReason_guarded_of_mask fun d => ?_
  dsimp only
  (repeat' split) <;> simp [Groups.allButChip]

theorem keepsReason_resp {ctx : CtxId} : KeepsReason s (execResp ctx s) :=
  keepsReason_runInstr fun i c w d => by
    split <;> simp [Groups.allButChip]

end

set_option maxRecDepth 2000 in
theorem exec_keepsReason (c : Instr) (s : State) (hfs : s.dev.failsafe = true) (hc : Instr.resets c = false) :
    KeepsReason s (exec c s) := by
  have hlive := Dev.live_of_failsafe hfs
  cases c
  case pwrfailAsserted | pwrfailPulseIgnored | pwrfailDeassertAtStart | pwrfailPfcRepeat | emissionCutoff |
    flushProgramStart | bufferDrained | flushComplete | sensorFault | dramSymbolsCorrected | dramUncorrectable |
    flitCrcError | laneSelfcheckFailure | contextNoRetireTimeout | contextReturnToService | controlStoreParityError |
    stackFault | storeReloadComplete | regionFenceComplete | dieFailed | pfcRefresh | pfcXonRelease | pfcTimerExpiry |
    priorityHeld100ms | linkUp | macEnable | macDisable | macTsPop | ptpSet | ptpAdjStep | ppsOutPulse | ppsInEdge |
    reassemblyTimeout | gapPassed | sessionIdleExpiry | partnerExpiry | rekeyWalkDone | namespaceFree |
    tokenGenerationWrap | fmtComplete | stagingIdleTimeout | trialExpiry | settingsCommit | camopScrubPassEnd |
    assocSearch | scrubberRowCheck | programEraseResume | suspendLimitExpiry | sqTailDoorbell | cqHeadDoorbell |
    dmaReadCompletion | completionTimeout | lateCompletion | tagQuarantineExpiry | queueCreate | queueDelete |
    queueDeleteDone | queueAbort | queueResultAck | mboxDoorbell | mboxAck | pwCommit | atsInvalidateRequest |
    atsInvalidateDone | flrPf0 | flrPf1 | d3hotEntry | d0Return | unwrapLockAcquire | unwrapLockRelease |
    unwrapLockTimeout | evtNotifyPendingClear | sensorRecovery | uncorrectableContextState | blockCannotBeRepaired |
    msixVectorUnmask =>
    exact keepsReason_whenLive hfs
  case kslotLoad | kslotEnrolOwner | kslotClear | kslotClearOwner | kslotRekey | nsdefCreate | nsdefModify | nsdefRemove |
    fmt | time | camopReadRow | camopWriteRow | camopClearRow | camopSearch | camopNext | camopScrubBank | migOpen |
    migClose =>
    exact keepsReason_acting hfs
  case startDramTraining | startMicrocodeLoad | startKeystoneRead | startIndexLoad | startReplay |
    startWakePatrolScheduling | startServiceOpen =>
    exact keepsReason_guarded (by simp [Dev.mayStart, hlive])
  case courseVerified | padIdleTimeout | padHeldTimeout | frontIdlePad | dieDrainDone | patrolVisit | gcVictimSelect |
    relocatedStripeErase | sealStart | sealDurable | blockEraseComplete | rekeyRecordCopy | namespaceRemovalWalk =>
    exact keepsReason_guarded (by simp [Dev.tending, hlive])
  case stripeOpen =>
    exact keepsReason_guarded (by simp [Dev.tending, Dev.flushOpens, hlive])
  case relocationRecordCopy =>
    exact keepsReason_guarded (by simp [Dev.copying, Dev.tending, hlive])
  case pageReadComplete =>
    exact keepsReason_guarded (by simp [hlive])
  case sqEntryFetch | powerStateIdleTimeout =>
    exact keepsReason_guarded (by simp [Dev.serving, hlive])
  case nop | movi | mov | add | sub | and | or | xor | shl | shr | cmp | br | brc | loop | end_ | key | nsp | hash |
    status =>
    exact keepsReason_runInstr fun i c w d => by simp [Groups.allButChip]
  case get | getr | head | put | append | del | cas | lock | commit | abort | token | usetok | export_ | import_ | verify
    =>
    exact keepsReason_ofKey (by rfl)
  case iter => exact keepsReason_runKey fun bd rd a i c w d => iterEffect_mask rfl rfl ..
  case lockWaiterResume | subRequestAnswer =>
    simp only [exec, execLockWaiterResume, execSubRequestAnswer]
    exact keepsReason_resume
  case resp => exact keepsReason_resp
  case mrd => exact keepsReason_runInstr fun i c w d => noted_mask rfl _ _ _ _ _ fun _ _ _ _ => mrdEffect_mask rfl rfl ..
  case evrd =>
    exact keepsReason_runInstr fun i c w d =>
      accepted_mask rfl _ _ _ _ _ fun _ _ _ _ => noted_mask rfl _ _ _ _ _ fun _ _ _ _ => evrdEffect_mask rfl rfl rfl ..
  case ctrd =>
    exact keepsReason_runInstr fun i c w d =>
      accepted_mask rfl _ _ _ _ _ fun _ _ _ _ => noted_mask rfl _ _ _ _ _ fun _ _ _ _ => ctrdEffect_mask rfl ..
  case fwstage | fwcommit =>
    simp only [exec, execFwstage, execFwcommit]
    exact keepsReason_runInstrAll hfs
  case resetAssert | deferredReset | perstAssert | powerRemoval => cases hc
  case finalLogWrite => exact keepsReason_guarded_of (Dev.closeLog_reason ..)
  case logPageProgram =>
    refine keepsReason_guarded_of ((Dev.programWaiting_reason ..).trans (Dev.reason_of_mask ?_))
    simp [Groups.allButChip]
  case managementTick => exact keepsReason_guarded_of (Dev.tick_reason ..)
  case alarmTrip => exact keepsReason_guarded_of (Dev.alarm_reason_of_failsafe _ _ _ hfs)
  case rootPllLockLoss =>
    exact keepsReason_guarded_of (Dev.enterFailsafe_reason_of_failsafe (d := s.dev.onChip fun c => { c with rootLock := false }) _ _ hfs)
  case crossbarCoreFailure | mgmtHeartbeatTimeout | chipStateUncorrectable =>
    exact keepsReason_guarded_of (Dev.enterFailsafe_reason_of_failsafe _ _ hfs)
  case startRom r =>
    refine keepsReason_guarded_of ?_
    split
    · rfl
    · exact Dev.rom_reason_of_failsafe _ hfs
  case drbgReseed ok _ _ =>
    cases ok
    · exact keepsReason_guarded_of (Dev.alarm_reason_of_failsafe _ _ _ hfs)
    · exact keepsReason_whenLive hfs
  case genericRegisterWrite => exact keepsReason_genericRegisterWrite hfs
  case mwr => exact keepsReason_mwr hfs
  case frameTransmit => exact keepsReason_frameTransmit
  case unitProgramComplete => exact keepsReason_unitProgramComplete
  case startNor | startManagementFirmware | selfReset | stagedImageCheckDone | settingsCommitDone =>
    simp only [exec, execStartNor, execStartManagementFirmware, execSelfReset, execStagedImageCheckDone, execSettingsCommitDone]
    exact keepsReason_onAll (by simp [Dev.mayStart, Dev.selfResetDue, hlive])
  case responseEmission => exact keepsReason_onAll_of_mask (by simp [Groups.allButChip])
  case peerWindowAccess =>
    simp only [exec, execPeerWindowAccess]
    exact keepsReason_onAll_ite fun m d => by simp [Groups.allButChip]
  case ptpTimeRead by_ =>
    refine keepsReason_guarded_of_mask fun d => ?_
    unfold byManagement
    split <;> simp [Groups.allButChip]
  case jenlothClose | jenlothPing | jenlothAbort | jenlothRequest =>
    exact keepsReason_jenRow fun n x r d => by simp [Groups.allButChip]
  case announceSend | stepLimitReached | executionTimeout | kslotComplete | nsdefComplete =>
    simp only [exec, execAnnounceSend, execStepLimitReached, execExecutionTimeout, execKslotComplete, execNsdefComplete]
    refine keepsReason_of_mask ?_
    (repeat' split) <;> simp [Groups.allButChip]
  case clkreqRelease | coalescingWindowClose =>
    simp only [exec, execClkreqRelease, execCoalescingWindowClose]
    refine keepsReason_guarded_of_mask fun d => ?_
    (repeat' split) <;> simp [Groups.allButChip]
  all_goals exact keepsReason_of_mask (by simp [Groups.allButChip])

/-- Settles O60: in the fail-safe state each row leaves the reason. -/
theorem failsafeReasonIsLatched : Obligations.FailsafeReasonIsLatched := by
  rintro reason c s t ⟨hr, rfl⟩ hc ht
  exact ⟨hr, exec_keepsReason c s (by simpa [Dev.failsafe] using hr) hc t ht⟩

end Sys2Proof.Machine
end

section
/-!
PROOFS. The frame of the rows, and a row that leaves its reach.
-/
namespace Sys2Proof.Machine

/-! ## The frame of the rows: SUBREQUEST_ANSWER also steps through the directory (O58) -/

/-- A coach at HEAD on key 1 of namespace 5, its home region 1, that waits for the answer of a sub-request to region 0. -/
def subRequestCoach : Coach :=
  { home := 1, stage := .running, ctx := some 0, wait := .subRequest 0
    program := [wordOf 0x24 0 0 0 0 0], run := { nsReg := 5, keyReg := [1] } }

/-- A device in service that runs this coach. -/
def subRequestDev : Dev :=
  { pins := { stage := .running, wpHigh := true }, chip := { state := 1 }
    store := { geom := some { fmtgen := 1, k := 1, overflow := 4 }, namespaces := [(5, { state := .active, keySlot := 0xFFFF })]
               regions := (List.range 8).map fun r => (r, { loaded := true }) }
    eng := { coaches := [(0, subRequestCoach)] } }

set_option maxRecDepth 100000 in
/-- Its answer runs HEAD, whose search of the directory counts in the first directory bank of region 0 (R89, R128). -/
theorem subRequestAnswer_counts_search :
    ∃ t, exec (.subRequestAnswer 0 {}) { dev := subRequestDev } = .next t ∧
      (t.dev.bank 0).searches = 1 ∧ (subRequestDev.bank 0).searches = 0 := by
  refine ⟨_, rfl, ?_, ?_⟩ <;> decide

/-- Refutes O58: SUBREQUEST_ANSWER reaches the engines only, but the instruction that it completes searches the directory,
which the banks of the store count. -/
theorem not_commandsStayWithinTheirReach : ¬ Obligations.CommandsStayWithinTheirReach := by
  intro h
  obtain ⟨t, ht, h1, h0⟩ := subRequestAnswer_counts_search
  have hs : t.dev.store = subRequestDev.store := Dev.store_of_mask (h _ _ t ht).groups rfl
  have hb : t.dev.bank 0 = subRequestDev.bank 0 := by simp only [Dev.bank, hs]
  rw [hb, h0] at h1
  cases h1

end Sys2Proof.Machine
end

section
/-!
PROOFS. The queue of a step, and control space at reset.
-/
namespace Sys2Proof.Machine

/-- Settles O55: by the recursion of `step` on the queue. -/
theorem stepRunsFrontCommand : Obligations.StepRunsFrontCommand := ⟨fun _ _ _ => rfl, fun _ => rfl⟩

set_option maxRecDepth 100000 in
/-- Settles O56: by evaluation of control space at reset. -/
theorem resetReadsTheTables : Obligations.ResetReadsTheTables := by
  unfold Obligations.ResetReadsTheTables
  extract_lets rd at_
  refine ⟨?_, ?_, ?_, ?_, ?_, ?_, ?_, ?_, rfl⟩
  all_goals decide

end Sys2Proof.Machine
end

section
/-!
PROOFS. Reads after updates, lists of steps, and what an event record leaves.
-/
namespace Sys2Proof.Machine

/-! ## Reads of a table entry after an update of one -/

section
variable (d : Dev)
@[simp] theorem Dev.region_onRegion (r : Nat) (f : Region → Region) : (d.onRegion r f).region r = f (d.region r) := by
  simp [Dev.region]
@[simp] theorem Dev.cluster_onCluster (k : Nat) (f : Cluster → Cluster) : (d.onCluster k f).cluster k = f (d.cluster k) := by
  simp [Dev.cluster]
@[simp] theorem Dev.lane_onLane (l : Nat) (f : Lane → Lane) : (d.onLane l f).lane l = f (d.lane l) := by simp [Dev.lane]
@[simp] theorem Dev.bank_onBank (b : Nat) (f : Bank → Bank) : (d.onBank b f).bank b = f (d.bank b) := by simp [Dev.bank]
@[simp] theorem Dev.mac_onMac (m : Nat) (f : Mac → Mac) : (d.onMac m f).mac m = f (d.mac m) := by simp [Dev.mac]
@[simp] theorem Dev.recorder_onRecorder (r : Nat) (f : Recorder → Recorder) :
    (d.onRecorder r f).recorder r = f (d.recorder r) := by simp [Dev.recorder]
@[simp] theorem Dev.ns_onNs (n : Nat) (f : Namespace → Namespace) : (d.onNs n f).ns n = f (d.ns n) := by simp [Dev.ns]
@[simp] theorem Dev.slot_onSlot (n : Nat) (f : SlotEntry → SlotEntry) : (d.onSlot n f).slot n = f (d.slot n) := by
  simp [Dev.slot]
@[simp] theorem Dev.stripe_onStripe (n : Nat) (f : Stripe → Stripe) : (d.onStripe n f).stripe n = f (d.stripe n) := by
  simp [Dev.stripe, Dev.onStripe]
@[simp] theorem Dev.front_onFront (n : Nat) (f : Front → Front) : (d.onFront n f).front n = f (d.front n) := by
  simp [Dev.front, Dev.onFront]

theorem Dev.region_onRegion_ne {r k : Nat} (f : Region → Region) (h : k ≠ r) : (d.onRegion r f).region k = d.region k := by
  simp [Dev.region, Tab.get_update_ne _ _ _ h]
theorem Dev.cluster_onCluster_ne {r k : Nat} (f : Cluster → Cluster) (h : k ≠ r) :
    (d.onCluster r f).cluster k = d.cluster k := by
  simp [Dev.cluster, Tab.get_update_ne _ _ _ h]
theorem Dev.lane_onLane_ne {l k : Nat} (f : Lane → Lane) (h : k ≠ l) : (d.onLane l f).lane k = d.lane k := by
  simp [Dev.lane, Tab.get_update_ne _ _ _ h]
theorem Dev.bank_onBank_ne {b k : Nat} (f : Bank → Bank) (h : k ≠ b) : (d.onBank b f).bank k = d.bank k := by
  simp [Dev.bank, Tab.get_update_ne _ _ _ h]
theorem Dev.mac_onMac_ne {m k : Nat} (f : Mac → Mac) (h : k ≠ m) : (d.onMac m f).mac k = d.mac k := by
  simp [Dev.mac, Tab.get_update_ne _ _ _ h]
theorem Dev.recorder_onRecorder_ne {r k : Nat} (f : Recorder → Recorder) (h : k ≠ r) :
    (d.onRecorder r f).recorder k = d.recorder k := by
  simp [Dev.recorder, Tab.get_update_ne _ _ _ h]
theorem Dev.ns_onNs_ne {n k : Nat} (f : Namespace → Namespace) (h : k ≠ n) : (d.onNs n f).ns k = d.ns k := by
  simp [Dev.ns, Tab.get_update_ne _ _ _ h]
end

/-! ## A list of steps -/

/-- What one step of a list brings about, and each step keeps, holds once the list has run. -/
theorem Dev.each_reaches {α : Type} {P : Dev → Prop} {l : List α} {f : α → Dev → Dev} {a : α} (ha : a ∈ l)
    (hf : ∀ d, P (f a d)) (hk : ∀ b d, P d → P (f b d)) (d : Dev) : P (Dev.each l f d) := by
  unfold Dev.each
  have keep : ∀ (l : List α) (d : Dev), P d → P (l.foldl (fun d a => f a d) d) := fun l => by
    induction l with
    | nil => exact fun _ h => h
    | cons b l ih => exact fun d h => ih _ (hk b d h)
  induction l generalizing d with
  | nil => cases ha
  | cons b l ih =>
    rcases List.mem_cons.mp ha with rfl | ha
    · exact keep l _ (hf d)
    · exact ih ha _

/-- A property that each step of a list keeps holds once the list has run. -/
theorem Dev.each_invariant {α : Type} {P : Dev → Prop} {f : α → Dev → Dev} (l : List α) (hk : ∀ a ∈ l, ∀ d, P d → P (f a d))
    (d : Dev) (h : P d) : P (Dev.each l f d) := by
  unfold Dev.each
  induction l generalizing d with
  | nil => exact h
  | cons b l ih => exact ih (fun a ha => hk a (List.mem_cons_of_mem _ ha)) _ (hk b (List.mem_cons_self ..) d h)

/-! ## What an event record leaves (R418, R419) -/

/-- The lifetime counts but for that of lost records. -/
def Lifetime.exceptLost (l : Lifetime) : Lifetime := { l with recordsLost := 0 }

section
variable (d : Dev)

theorem Dev.toRing_life (r : Nat) (e : EventRec) : (d.toRing r e).life.exceptLost = d.life.exceptLost := by
  unfold Dev.toRing
  extract_lets q us
  split <;> rfl

theorem Dev.sendRecord_life (r : Nat) (e : EventRec) : (d.sendRecord r e).life.exceptLost = d.life.exceptLost := by
  unfold Dev.sendRecord Dev.when
  rw [Dev.toRing_life]
  split <;> rfl

/-- A report changes no lifetime count but that of lost records. -/
theorem Dev.report_life (region block cell code : Nat) (params : List Nat) :
    (d.report region block cell code params).life.exceptLost = d.life.exceptLost := by
  unfold Dev.report Dev.reportCounted
  extract_lets src ws isMatch grow entry open_ a b
  split
  · split
    · rw [Dev.sendRecord_life]; rfl
    · rfl
  · split
    · split
      · rw [Dev.sendRecord_life]; rfl
      · rfl
    · rfl

theorem Dev.closeWindows_life : d.closeWindows.life.exceptLost = d.life.exceptLost := by
  unfold Dev.closeWindows
  refine Dev.each_keep (fun d => d.life.exceptLost) _ _ (fun r d => ?_) _
  exact (Dev.each_keep (fun d => d.life.exceptLost) _ _ (fun (w : Window) d => d.sendRecord_life r w.entry) _).trans rfl

/-- An update of a recorder that leaves its fence leaves every fence. -/
theorem Dev.onRecorder_fenced (r k : Nat) (f : Recorder → Recorder) (h : ∀ q, (f q).fenced = q.fenced) :
    ((d.onRecorder r f).recorder k).fenced = (d.recorder k).fenced := by
  by_cases hk : k = r
  · subst hk; rw [Dev.recorder_onRecorder, h]
  · rw [Dev.recorder_onRecorder_ne _ _ hk]

theorem Dev.toRing_fenced (r k : Nat) (e : EventRec) : ((d.toRing r e).recorder k).fenced = (d.recorder k).fenced := by
  unfold Dev.toRing
  extract_lets q us
  split
  · exact Dev.onRecorder_fenced d _ _ _ fun _ => rfl
  · exact Dev.onRecorder_fenced d _ _ _ fun _ => rfl

theorem Dev.sendRecord_fenced (r k : Nat) (e : EventRec) : ((d.sendRecord r e).recorder k).fenced = (d.recorder k).fenced := by
  unfold Dev.sendRecord Dev.when
  rw [Dev.toRing_fenced]
  split
  · exact Dev.onRecorder_fenced _ _ _ _ fun _ => rfl
  · rfl

/-- A report fences no recorder. -/
theorem Dev.report_fenced (region block cell code : Nat) (params : List Nat) (k : Nat) :
    ((d.report region block cell code params).recorder k).fenced = (d.recorder k).fenced := by
  unfold Dev.report Dev.reportCounted
  simp only []
  (repeat' split) <;> simp [Dev.onRecorder_fenced, Dev.sendRecord_fenced]
end

end Sys2Proof.Machine
end

section
/-!
PROOFS. Entry to the fail-safe state, and its triggers.
-/
namespace Sys2Proof.Machine

/-! ## Entry to the fail-safe state (R411) -/

/-- The registers that entry sets: NAND is cut off at once for the reasons of an alarm, the root PLL and the self-test. -/
structure Dev.Entered (d e : Dev) (reason detail : Byte) : Prop where
  hasReason : e.chip.reason = reason
  hasDetail : e.chip.detail = detail
  rootLock : e.chip.rootLock = d.chip.rootLock
  alarmOut : e.pins.alarmOut = true
  selfRefresh : e.pins.selfRefresh = true
  endpoint : e.pcie.failsafe = true
  ended : ∀ x ∈ e.eng.coaches, x.2.stage = .ended
  counted : e.life.failsafes = bump d.life.failsafes
  atOnce : fsAtOnce reason = true → e.chip.state = 3 ∧ e.pins.wpHigh = false ∧ e.pins.ceHigh = true

theorem Coach.failsafe_stage (c : Coach) : c.failsafe.stage = .ended := by
  unfold Coach.failsafe
  split
  · next h => exact eq_of_beq h
  · rfl

theorem Lifetime.failsafes_of_exceptLost {l m : Lifetime} (h : l.exceptLost = m.exceptLost) : l.failsafes = m.failsafes := by
  have := congrArg Lifetime.failsafes h
  exact this

/-- Running coaches are counted as trapped, and coaches that have not ended as ended. -/
def Dev.countFailsafe (d : Dev) : Dev :=
  let d := Dev.each (d.eng.coaches.filterMap fun e => if e.2.stage == .running then e.2.ctx else none) Dev.countTrap d
  Dev.each (d.eng.coaches.filterMap fun e => if e.2.stage == .ended then none else e.2.counter)
    (fun k => Dev.onCluster k fun x => { x with progs := bump x.progs }) d

/-- The MACs send faults and every coach ends. -/
def Dev.stopCoaches (d : Dev) : Dev :=
  let fault (m : Nat) (c : Mac) : Mac := if decide (m < 64) && c.cfg.getLsbD 0 then { c with failsafeTx := true } else c
  let d := d.onNet fun n => { n with macs := n.macs.mapVals fault }
  d.countFailsafe.onEng fun e => { e with coaches := e.coaches.mapVals fun _ c => c.failsafe }

/-- The messages, the mark of the endpoint and the record of the entry. -/
def Dev.tellFailsafe (d : Dev) : Dev :=
  let d := ((d.raise 0 d.pcie.fsVector.toNat).raise 1 15).onPcie fun p => { p with failsafe := true }
  (d.report 8 0 0 0x1001 [d.chip.failsafeWord, d.keys.alarm.toNat, 0, 0, 0]).closeWindows

/-- The reason, ALARM_OUT# and the count of the entry. -/
def Dev.marked (reason detail : Byte) (d : Dev) : Dev :=
  ((d.onChip fun c => { c with reason := reason, detail := detail }).onPins fun p =>
    { p with alarmOut := true, selfRefresh := true }).onLife fun l => { l with failsafes := bump l.failsafes }

/-- NAND is cut off at once for some reasons. -/
def Dev.cutOff (reason : Byte) (d : Dev) : Dev :=
  if fsAtOnce reason then
    (d.onPins fun p => { p with wpHigh := false, ceHigh := true }).onChip fun c => { c with state := 3, step := 0 }
  else d

theorem Dev.enterFailsafe_eq {d : Dev} (reason detail : Byte) (h : d.failsafe = false) :
    d.enterFailsafe reason detail = (d.marked reason detail).stopCoaches.tellFailsafe.cutOff reason := by
  rw [Dev.enterFailsafe, if_neg (by simp [h])]
  rfl

section
variable (d : Dev)

theorem Dev.stopCoaches_mask : d.stopCoaches.mask { life := true, eng := true, net := true } =
    d.mask { life := true, eng := true, net := true } := by simp [Dev.stopCoaches, Dev.countFailsafe]

theorem Dev.tellFailsafe_mask : d.tellFailsafe.mask { out := true, evt := true, life := true, pcie := true } =
    d.mask { out := true, evt := true, life := true, pcie := true } := by simp [Dev.tellFailsafe]

theorem Dev.stopCoaches_chip : d.stopCoaches.chip = d.chip := Dev.chip_of_mask d.stopCoaches_mask rfl
theorem Dev.stopCoaches_pins : d.stopCoaches.pins = d.pins := Dev.pins_of_mask d.stopCoaches_mask rfl
theorem Dev.tellFailsafe_chip : d.tellFailsafe.chip = d.chip := Dev.chip_of_mask d.tellFailsafe_mask rfl
theorem Dev.tellFailsafe_pins : d.tellFailsafe.pins = d.pins := Dev.pins_of_mask d.tellFailsafe_mask rfl
theorem Dev.tellFailsafe_eng : d.tellFailsafe.eng = d.eng := Dev.eng_of_mask d.tellFailsafe_mask rfl

theorem Dev.tellFailsafe_pcie : d.tellFailsafe.pcie.failsafe = true := by simp [Dev.tellFailsafe]

theorem Dev.stopCoaches_ended : ∀ x ∈ d.stopCoaches.eng.coaches, x.2.stage = .ended := by
  intro x hx
  obtain ⟨y, _, rfl⟩ := List.mem_map.mp hx
  exact y.2.failsafe_stage

theorem Dev.countFailsafe_failsafes : d.countFailsafe.life.failsafes = d.life.failsafes := by
  unfold Dev.countFailsafe
  extract_lets e
  have he : e.life.failsafes = d.life.failsafes := Dev.each_keep (fun d => d.life.failsafes) _ Dev.countTrap (fun _ _ => rfl) d
  rw [← he]
  clear_value e
  exact Dev.each_keep (fun d => d.life.failsafes) _ (fun k => Dev.onCluster k fun x => { x with progs := bump x.progs })
    (fun _ _ => rfl) e

theorem Dev.tellFailsafe_failsafes : d.tellFailsafe.life.failsafes = d.life.failsafes := by
  unfold Dev.tellFailsafe
  extract_lets e
  refine (Lifetime.failsafes_of_exceptLost ((Dev.closeWindows_life _).trans (Dev.report_life ..))).trans ?_
  simp [e]

theorem Dev.stopCoaches_failsafes : d.stopCoaches.life.failsafes = d.life.failsafes :=
  (Dev.countFailsafe_failsafes _).trans rfl
end

theorem Dev.enterFailsafe_entered {d : Dev} (reason detail : Byte) (h : d.failsafe = false) :
    d.Entered (d.enterFailsafe reason detail) reason detail := by
  rw [Dev.enterFailsafe_eq reason detail h]
  have hchip : (d.marked reason detail).chip = { d.chip with reason := reason, detail := detail } := rfl
  have hpins : (d.marked reason detail).pins = { d.pins with alarmOut := true, selfRefresh := true } := rfl
  have hlife : (d.marked reason detail).life.failsafes = bump d.life.failsafes := rfl
  generalize d.marked reason detail = x at hchip hpins hlife ⊢
  have chip := x.stopCoaches.tellFailsafe_chip.trans (x.stopCoaches_chip.trans hchip)
  have pins := x.stopCoaches.tellFailsafe_pins.trans (x.stopCoaches_pins.trans hpins)
  have pcie := x.stopCoaches.tellFailsafe_pcie
  have ended := x.stopCoaches_ended
  rw [← x.stopCoaches.tellFailsafe_eng] at ended
  have life := x.stopCoaches.tellFailsafe_failsafes.trans (x.stopCoaches_failsafes.trans hlife)
  generalize x.stopCoaches.tellFailsafe = e at chip pins pcie ended life ⊢
  unfold Dev.cutOff
  split
  · exact ⟨by simp [chip], by simp [chip], by simp [chip], by simp [pins], by simp [pins], pcie, ended, life,
      fun _ => ⟨rfl, rfl, rfl⟩⟩
  · next hn =>
    exact ⟨by simp [chip], by simp [chip], by simp [chip], by simp [pins], by simp [pins], pcie, ended, life,
      fun h => absurd h hn⟩

/-! ## The triggers (O5) -/

section
variable {s : State}

/-- A trigger that only enters the fail-safe state. -/
theorem entered_of_guarded {f : Dev → Dev} {reason detail : Byte} (hr : s.dev.running = true) (hs : s.dev.failsafe = false)
    (hf : f s.dev = s.dev.enterFailsafe reason detail) :
    ∃ d', onDev (guarded Dev.running f) s = .next { s with dev := d' } ∧ d'.chip.reason = reason ∧ d'.chip.detail = detail ∧
      d'.pins.alarmOut = true ∧ d'.pins.selfRefresh = true ∧ d'.pcie.failsafe = true ∧
      (∀ e ∈ d'.eng.coaches, e.2.stage = .ended) ∧ d'.nv = s.dev.nv ∧ d'.keys = s.dev.keys ∧
      d'.life.failsafes = bump s.dev.life.failsafes := by
  have he := Dev.enterFailsafe_entered reason detail hs
  refine ⟨_, onDev_guarded hr, ?_⟩
  rw [hf]
  exact ⟨he.hasReason, he.hasDetail, he.alarmOut, he.selfRefresh, he.endpoint, he.ended, by simp, by simp, he.counted⟩

/-- The device whose root PLL has lost its lock. -/
def Dev.unlocked (d : Dev) : Dev := d.onChip fun c => { c with rootLock := false }

theorem exec_rootPllLockLoss (hr : s.dev.running = true) :
    exec .rootPllLockLoss s = .next { s with dev := s.dev.unlocked.enterFailsafe 0x71 0 } := onDev_guarded hr

theorem rootPllLockLoss_entered (hs : s.dev.failsafe = false) :
    s.dev.unlocked.Entered (s.dev.unlocked.enterFailsafe 0x71 0) 0x71 0 := Dev.enterFailsafe_entered _ _ hs

/-- The keys after an alarm: every plaintext key is gone. -/
def KeyState.tripped (kind : AlarmKind) (k : KeyState) : KeyState :=
  { k.erase with alarm := setBit k.alarm (alarmBit kind) true, entropyFailed := k.entropyFailed || kind == .entropy }

/-- The device whose keys an alarm has erased. -/
def Dev.tripped (kind : AlarmKind) (d : Dev) : Dev := d.onKeys (KeyState.tripped kind)

theorem Dev.alarm_keys (kind : AlarmKind) (mv mc : W64) (d : Dev) : (d.alarm kind mv mc).keys = d.keys.tripped kind := by
  simp [Dev.alarm, KeyState.tripped]

theorem Dev.alarm_nv (kind : AlarmKind) (mv mc : W64) (d : Dev) : (d.alarm kind mv mc).nv = d.nv := by simp [Dev.alarm]

theorem Dev.alarm_chip (kind : AlarmKind) (mv mc : W64) (d : Dev) :
    (d.alarm kind mv mc).chip =
      ((d.tripped kind).enterFailsafe 0x70 ((d.tripped kind).keys.alarm.setWidth 8)).chip := Dev.report_chip ..

theorem Dev.alarm_pins (kind : AlarmKind) (mv mc : W64) (d : Dev) :
    (d.alarm kind mv mc).pins =
      ((d.tripped kind).enterFailsafe 0x70 ((d.tripped kind).keys.alarm.setWidth 8)).pins := Dev.report_pins ..

end

theorem alarmBit_lt (k : AlarmKind) : alarmBit k < 5 := by cases k <;> decide

/-- Settles O5: each trigger runs `Dev.enterFailsafe`, whose effect `Dev.Entered` lists; a later one only notes it. -/
theorem triggersEnterFailsafe : Obligations.TriggersEnterFailsafe := by
  refine ⟨?_, fun s hr hs => ?_, fun s k mv mc hr hs => ?_, fun s p hr hs => ?_⟩
  · intro s c reason detail hr hs hc
    rcases hc with hc | ⟨p, hc⟩ | hc | ⟨b, hc⟩ <;> cases hc
    · have he := rootPllLockLoss_entered (s := s) hs
      exact ⟨_, exec_rootPllLockLoss hr, he.hasReason, he.hasDetail, he.alarmOut, he.selfRefresh, he.endpoint, he.ended,
        by simp [Dev.unlocked], by simp [Dev.unlocked], he.counted⟩
    · exact entered_of_guarded hr hs rfl
    · exact entered_of_guarded hr hs rfl
    · exact entered_of_guarded hr hs rfl
  · have he := rootPllLockLoss_entered (s := s) hs
    obtain ⟨h3, hw, hc⟩ := he.atOnce rfl
    exact ⟨_, exec_rootPllLockLoss hr, he.rootLock, h3, hw, hc⟩
  · have ht : (s.dev.tripped k).failsafe = false := hs
    have he := Dev.enterFailsafe_entered 0x70 ((s.dev.tripped k).keys.alarm.setWidth 8) ht
    obtain ⟨h3, hw, hc⟩ := he.atOnce rfl
    refine ⟨_, onDev_guarded hr, ?_⟩
    rw [Dev.alarm_chip, Dev.alarm_pins, Dev.alarm_keys, Dev.alarm_nv]
    refine ⟨he.hasReason, h3, hw, hc, he.alarmOut, ?_, rfl, rfl, rfl, rfl, rfl, rfl, rfl, rfl⟩
    exact getLsbD_setBit_self _ (alarmBit_lt k)
  · refine (onDev_guarded hr).trans ?_
    rw [Dev.enterFailsafe, if_pos hs]
    rfl

end Sys2Proof.Machine
end

section
/-!
PROOFS. PWRFAIL# and the flush.
-/
namespace Sys2Proof.Machine

/-! ## PWRFAIL# (O3) -/

theorem Lifetime.pwrfails_of_exceptLost {l m : Lifetime} (h : l.exceptLost = m.exceptLost) : l.pwrfails = m.pwrfails := by
  have := congrArg Lifetime.pwrfails h
  exact this

theorem Dev.notePwrfail_pwrfails (d : Dev) : d.notePwrfail.life.pwrfails = bump d.life.pwrfails :=
  Lifetime.pwrfails_of_exceptLost (Dev.report_life ..)

theorem Dev.closeWindows_pwrfails (d : Dev) : d.closeWindows.life.pwrfails = d.life.pwrfails :=
  Lifetime.pwrfails_of_exceptLost d.closeWindows_life

theorem Dev.notePwrfail_mask' (d : Dev) :
    d.notePwrfail.mask { evt := true, life := true } = d.mask { evt := true, life := true } :=
  Dev.notePwrfail_mask rfl rfl d

/-- What PWRFAIL# leaves of a device in service. -/
theorem Dev.pwrfail_of_service {d : Dev} (hf : d.pfail.flush = .none) (hs : d.chip.state = 1) :
    d.pwrfail = (((d.onPins fun p => { p with pwrfailLow := true }).notePwrfail).beginFlush false).powerPfc := by
  simp [Dev.pwrfail, hf, hs]

/-- What PWRFAIL# leaves of a device that starts. -/
theorem Dev.pwrfail_of_start {d : Dev} (hf : d.pfail.flush = .none) (hs : d.chip.state = 0) :
    d.pwrfail = ((d.onPins fun p => { p with pwrfailLow := true }).notePwrfail).closeWindows.onPfail fun p =>
      { p with halted := true } := by
  simp [Dev.pwrfail, hf, hs]

section
variable (d : Dev)
theorem Dev.notePwrfail_pins : d.notePwrfail.pins = d.pins := Dev.pins_of_mask d.notePwrfail_mask' rfl
theorem Dev.notePwrfail_pfail : d.notePwrfail.pfail = d.pfail := Dev.pfail_of_mask d.notePwrfail_mask' rfl
theorem Dev.notePwrfail_chip : d.notePwrfail.chip = d.chip := Dev.chip_of_mask d.notePwrfail_mask' rfl
theorem Dev.notePwrfail_store : d.notePwrfail.store = d.store := Dev.store_of_mask d.notePwrfail_mask' rfl
theorem Dev.notePwrfail_eng : d.notePwrfail.eng = d.eng := Dev.eng_of_mask d.notePwrfail_mask' rfl
theorem Dev.notePwrfail_nv : d.notePwrfail.nv = d.nv := Dev.nv_of_mask d.notePwrfail_mask' rfl

/-- Each MAC whose link is up is told to pause (R248). -/
theorem Dev.mem_powerPfc_out {m : Nat} (hm : m < 64) (he : (d.mac m).enabled = true) (hl : (d.mac m).linkUp = true) :
    Output.pfc m 0xFF 0xFFFF ∈ d.powerPfc.out := by
  unfold Dev.powerPfc
  refine Dev.each_reaches (P := fun d => Output.pfc m 0xFF 0xFFFF ∈ d.out) (a := m) ?_ (fun _ => ?_) (fun _ _ h => ?_) _
  · simp [hm, he, hl]
  · exact List.mem_cons_self ..
  · exact List.mem_cons_of_mem _ h
end

/-- Settles O3, row by row. -/
theorem powerFailureClosesAdmission : Obligations.PowerFailureClosesAdmission := by
  refine ⟨fun s hl hf hs => ?_, fun s hl hf hs => ?_, fun s ns hl hn => ?_, fun s hl hw => ?_, fun s hl hf hp => ?_⟩
  · refine ⟨_, whenLive_pos hl, ?_⟩
    rw [Dev.pwrfail_of_service hf hs]
    simp [Dev.beginFlush, Dev.notePwrfail_pins, Dev.notePwrfail_pfail, Dev.notePwrfail_chip, Dev.notePwrfail_nv]
  · refine ⟨_, whenLive_pos hl, ?_⟩
    rw [Dev.pwrfail_of_start hf hs]
    simp [Dev.notePwrfail_pins, Dev.notePwrfail_pfail, Dev.notePwrfail_chip, Dev.notePwrfail_nv, Dev.notePwrfail_store,
      Dev.notePwrfail_eng, Dev.closeWindows_pwrfails, Dev.notePwrfail_pwrfails]
  · exact whenLive_guarded hl (by simpa using hn)
  · exact whenLive_guarded hl hw
  · exact ⟨_, whenLive_guarded hl (by simp [hf, hp]), Dev.powerPfc_pfail _, Dev.powerPfc_store _,
      fun m hm he hu => Dev.mem_powerPfc_out _ hm he hu⟩

/-! ## The phases of the flush (O4) -/

section
variable (d : Dev)
theorem Dev.closeLog_keep (p m : Bool) :
    (d.closeLog p m).pfail = d.pfail ∧ (d.closeLog p m).keys = d.keys ∧ (d.closeLog p m).eng = d.eng := by
  have h := Dev.closeLog_mask (T := { out := true, chip := true, evt := true, life := true, store := true, pcie := true, nv := true })
    rfl rfl rfl rfl rfl rfl rfl p m d
  exact ⟨Dev.pfail_of_mask h rfl, Dev.keys_of_mask h rfl, Dev.eng_of_mask h rfl⟩

/-- Marking regions as flushed changes the store alone. -/
theorem Dev.each_flushed_mask (l : List Nat) :
    (Dev.each l (fun r => Dev.onRegion r fun x => { x with flushed := true }) d).mask { store := true } =
      d.mask { store := true } :=
  Dev.each_mask _ _ _ fun _ _ => Dev.onRegion_mask rfl ..

/-- Each region that is open is marked as flushed. -/
theorem Dev.each_flushed {r : Nat} {l : List Nat} (h : r ∈ l) :
    ((Dev.each l (fun r => Dev.onRegion r fun x => { x with flushed := true }) d).region r).flushed = true := by
  refine Dev.each_reaches (P := fun d => (d.region r).flushed = true) h (fun d => ?_) (fun k d hd => ?_) d
  · rw [Dev.region_onRegion]
  · by_cases hk : r = k
    · rw [hk, Dev.region_onRegion]
    · rw [Dev.region_onRegion_ne _ _ hk, hd]
end

/-- Settles O4: each phase starts from its own premise and leaves the next. -/
theorem flushProceedsInOrder : Obligations.FlushProceedsInOrder := by
  refine ⟨fun s hl hf => ?_, fun s hl hf => ?_, fun s us hl hf hd => ?_, fun s hl hf hc => ?_⟩
  · exact whenLive_guarded hl (by simp [hf])
  · exact ⟨_, whenLive_guarded hl (by simp [hf]), by simp, by simp, by simp⟩
  · refine ⟨_, whenLive_guarded hl (by simp [hf, hd]), ?_⟩
    simp only [Dev.onPfail_pfail, Dev.onPfail_keys, Dev.onPfail_eng]
    obtain ⟨hp, hk, he⟩ := Dev.closeLog_keep (((s.dev.padFronts fun _ => true).report 8 0 0 0x1008
      [(s.dev.padFronts fun _ => true).pfail.flushBytes, us.toNat, 0, 0, 0]).closeWindows) true true
    rw [hp, hk, he]
    simp
  · refine ⟨_, whenLive_guarded hl (by simp [hf, hc]), ?_, ?_, fun r hr => Dev.each_flushed _ hr, ?_⟩
    · exact (Dev.pfail_of_mask (Dev.each_flushed_mask _ _) rfl).trans rfl
    · exact (Dev.pins_of_mask (Dev.each_flushed_mask _ _) rfl).trans rfl
    · exact (Dev.nv_of_mask (Dev.each_flushed_mask _ _) rfl).trans rfl

end Sys2Proof.Machine
end

section
/-!
PROOFS. Faults of contexts, regions and lanes.
-/
namespace Sys2Proof.Machine

/-! ## What becomes of a cluster, and of the fences of the chip -/

/-- A cluster but for its counts of coaches. -/
def Cluster.uncounted (c : Cluster) : Cluster :=
  { c with progs := 0, rejects := 0, stepLimits := 0, timeouts := 0, reexecs := 0, resumes := 0, lockConflicts := 0, traps := 0 }

section
variable (d : Dev)

/-- What an update of a cluster keeps of each cluster, the device keeps of it. -/
theorem Dev.onCluster_keep {β : Type} (g : Cluster → β) (k j : Nat) (f : Cluster → Cluster) (h : ∀ c, g (f c) = g c) :
    g ((d.onCluster k f).cluster j) = g (d.cluster j) := by
  by_cases hj : j = k
  · rw [hj, Dev.cluster_onCluster, h]
  · rw [Dev.cluster_onCluster_ne _ _ hj]

/-- Only what an update makes of the cluster as it stands counts. -/
theorem Dev.onCluster_congr {k : Nat} {f g : Cluster → Cluster} (h : f (d.cluster k) = g (d.cluster k)) :
    d.onCluster k f = d.onCluster k g := by
  unfold Dev.cluster at h
  simp only [Dev.onCluster, Dev.onEng, Tab.update, h]

theorem Dev.cluster_dissolve (i j : Nat) : (d.dissolve i).cluster j = d.cluster j := by
  simp only [Dev.cluster, Dev.dissolve_clusters]

theorem Dev.cluster_onCoach (i j : Nat) (f : Coach → Coach) : (d.onCoach i f).cluster j = d.cluster j := rfl

theorem Dev.endCoach_uncounted (i j : Nat) (st : Byte) (t : Bool) :
    ((d.endCoach i st t).cluster j).uncounted = (d.cluster j).uncounted := by
  unfold Dev.endCoach
  extract_lets c e e'
  have he : e'.cluster j = d.cluster j := (Dev.cluster_onCoach ..).trans (d.cluster_dissolve i j)
  split
  · rw [he]
  · rw [Dev.onCluster_keep _ Cluster.uncounted _ _ _ (by intro; rfl), he]

theorem Dev.strike_uncounted (i j : Nat) : ((d.strike i).1.cluster j).uncounted = (d.cluster j).uncounted := by
  have hd (f : Coach → Coach) : ((d.dissolve i).onCoach i f).cluster j = d.cluster j :=
    (Dev.cluster_onCoach ..).trans (d.cluster_dissolve i j)
  unfold Dev.strike
  extract_lets c
  split
  · rfl
  · split
    · rw [Dev.onCluster_keep _ Cluster.uncounted _ _ _ (by intro; rfl), hd]
    · split
      · exact d.endCoach_uncounted ..
      · rw [Dev.onCluster_keep _ Cluster.uncounted _ _ _ (by intro; rfl), hd]

/-- Striking coaches changes no more of a cluster than its counts of coaches. -/
theorem Dev.strikeAll_uncounted (p : Nat → Bool) (j : Nat) :
    ((d.strikeAll p).1.cluster j).uncounted = (d.cluster j).uncounted := by
  unfold Dev.strikeAll
  extract_lets hit
  suffices h : ∀ (l : List Nat) (x : Dev × Nat × Nat), ((l.foldl (fun (d, a, b) i =>
      let (d, a', b') := d.strike i; (d, a + a', b + b')) x).1.cluster j).uncounted = (x.1.cluster j).uncounted from h hit _
  intro l
  induction l with
  | nil => exact fun _ => rfl
  | cons i l ih => exact fun x => (ih _).trans (x.1.strike_uncounted i j)

end

/-- The registers of the chip but for those that entry to the fail-safe state sets. -/
def Chip.beforeReason (c : Chip) : Chip := { c with reason := 0, detail := 0, multiple := false, state := 0, step := 0 }

section
variable (d : Dev)

theorem Dev.enterFailsafe_beforeReason (reason detail : Byte) :
    (d.enterFailsafe reason detail).chip.beforeReason = d.chip.beforeReason := by
  cases h : d.failsafe with
  | true =>
    rw [Dev.enterFailsafe, if_pos h]
    rfl
  | false =>
    have hm : (d.marked reason detail).chip.beforeReason = d.chip.beforeReason := rfl
    rw [Dev.enterFailsafe_eq reason detail h]
    generalize d.marked reason detail = x at hm ⊢
    have hx := (x.stopCoaches.tellFailsafe_chip.trans x.stopCoaches_chip)
    generalize x.stopCoaches.tellFailsafe = e at hx ⊢
    rw [← hm, ← hx]
    unfold Dev.cutOff
    split <;> rfl

theorem Dev.closeWindows_fenced (k : Nat) : (d.closeWindows.recorder k).fenced = (d.recorder k).fenced := by
  unfold Dev.closeWindows
  refine Dev.each_keep (fun d => (d.recorder k).fenced) _ _ (fun r d => ?_) _
  refine (Dev.each_keep (fun d => (d.recorder k).fenced) _ _ (fun (w : Window) d => d.sendRecord_fenced r k w.entry) _).trans ?_
  exact Dev.onRecorder_fenced _ _ _ _ fun _ => rfl

theorem Dev.recorder_of_evt {d e : Dev} (h : d.evt = e.evt) (k : Nat) : d.recorder k = e.recorder k := by
  simp only [Dev.recorder, h]

theorem Dev.tellFailsafe_fenced (k : Nat) : (d.tellFailsafe.recorder k).fenced = (d.recorder k).fenced := by
  unfold Dev.tellFailsafe
  extract_lets e
  rw [Dev.closeWindows_fenced, Dev.report_fenced, Dev.recorder_of_evt (e := d) (by simp [e])]

theorem Dev.enterFailsafe_fenced (reason detail : Byte) (k : Nat) :
    ((d.enterFailsafe reason detail).recorder k).fenced = (d.recorder k).fenced := by
  cases h : d.failsafe with
  | true =>
    rw [Dev.enterFailsafe, if_pos h]
    rfl
  | false =>
    have hm : (d.marked reason detail).recorder k = d.recorder k := rfl
    rw [Dev.enterFailsafe_eq reason detail h]
    generalize d.marked reason detail = x at hm ⊢
    have hx : (x.stopCoaches.tellFailsafe.recorder k).fenced = (d.recorder k).fenced := by
      rw [Dev.tellFailsafe_fenced, Dev.recorder_of_evt (Dev.evt_of_mask x.stopCoaches_mask rfl), hm]
    generalize x.stopCoaches.tellFailsafe = e at hx ⊢
    unfold Dev.cutOff
    split <;> exact hx

theorem Dev.closeStream_fenced (n cause k : Nat) : ((d.closeStream n cause).recorder k).fenced = (d.recorder k).fenced := by
  unfold Dev.closeStream
  rw [Dev.report_fenced]
  rfl

theorem Dev.closeStreamsOf_fenced (kind source k : Nat) :
    ((d.closeStreamsOf kind source).recorder k).fenced = (d.recorder k).fenced := by
  unfold Dev.closeStreamsOf
  exact Dev.each_keep (fun d => (d.recorder k).fenced) _ (fun n d => d.closeStream n 2) (fun _ d => d.closeStream_fenced ..) d

theorem Dev.endSession_fenced (n k : Nat) : ((d.endSession n).recorder k).fenced = (d.recorder k).fenced := by
  unfold Dev.endSession
  rw [Dev.closeStreamsOf_fenced]
  rfl

theorem Dev.fenceCoach_mask' (i : Nat) : (d.fenceCoach i).mask { life := true, store := true, eng := true } =
    d.mask { life := true, store := true, eng := true } := by simp

end

/-- What the fence of region `r` leaves in the chip's registers and its recorder (R17). -/
structure Dev.RegionFenced (d e : Dev) (r cause : Nat) : Prop where
  fenced : e.chip.fenced = setBit d.chip.fenced r true
  fencing : e.chip.fencing = setBit d.chip.fencing r true
  hasCause : e.chip.fenceCause = d.chip.fenceCause.set r cause
  recorder : (e.recorder r).fenced = true
  media : e.nv = d.nv

/-- The marks that the fence of a region sets. -/
def Dev.fenceMarks (r cause : Nat) (d : Dev) : Dev :=
  ((d.onChip fun c => { c with
    fenced := setBit c.fenced r true, fencing := setBit c.fencing r true, fenceCause := c.fenceCause.set r cause }).onRecorder r
    fun q => { q with fenced := true }).onLife fun l => { l with fences := bump l.fences }

/-- The coaches homed in a region end as its fence has them end, and the sessions of the region end. -/
def Dev.fenceRequests (r : Nat) (d : Dev) : Dev :=
  let mine := d.eng.coaches.filterMap fun e =>
    if e.2.home == r && !e.2.privileged && (e.2.stage == .running || e.2.stage == .admitted) then some e.1 else none
  let d := Dev.each mine Dev.fenceCoach d
  Dev.each ((d.net.sessionsOf r).map Prod.fst) Dev.endSession d

theorem Dev.fenceRegion_eq {d : Dev} {r cause : Nat} (hr : r < 8) (hf : d.fencedRegion r = false) :
    d.fenceRegion r cause =
      let e := ((d.fenceMarks r cause).report 8 0 0 0x1002 [r, cause, 0, 0, 0]).fenceRequests r
      if e.chip.fenced = BitVec.allOnes 8 then e.enterFailsafe fsAllFenced 0 else e := by
  rw [Dev.fenceRegion, if_neg (by simp [hf]; omega)]
  rfl

section
variable (d : Dev)

theorem Dev.fenceRequests_chip (r : Nat) : (d.fenceRequests r).chip = d.chip :=
  Dev.chip_of_mask (T := { evt := true, life := true, store := true, eng := true, net := true }) (by simp [Dev.fenceRequests]) rfl

theorem Dev.fenceRequests_nv (r : Nat) : (d.fenceRequests r).nv = d.nv :=
  Dev.nv_of_mask (T := { evt := true, life := true, store := true, eng := true, net := true }) (by simp [Dev.fenceRequests]) rfl

theorem Dev.fenceRequests_fenced (r k : Nat) : ((d.fenceRequests r).recorder k).fenced = (d.recorder k).fenced := by
  unfold Dev.fenceRequests
  extract_lets mine e
  refine (Dev.each_keep (fun d => (d.recorder k).fenced) _ Dev.endSession (fun n d => d.endSession_fenced n k) e).trans ?_
  exact Dev.each_keep (fun d => (d.recorder k).fenced) _ Dev.fenceCoach
    (fun i d => congrArg Recorder.fenced (Dev.recorder_of_evt (Dev.evt_of_mask (d.fenceCoach_mask' i) rfl) k)) d

end

/-- The fence of a region that is open. -/
theorem Dev.fenceRegion_fenced {d : Dev} {r : Nat} (cause : Nat) (hr : r < 8) (hf : d.fencedRegion r = false) :
    d.RegionFenced (d.fenceRegion r cause) r cause := by
  rw [Dev.fenceRegion_eq hr hf]
  let m := (d.fenceMarks r cause).report 8 0 0 0x1002 [r, cause, 0, 0, 0]
  have hchip : (m.fenceRequests r).chip = (d.fenceMarks r cause).chip := (m.fenceRequests_chip r).trans (Dev.report_chip ..)
  have hnv : (m.fenceRequests r).nv = d.nv := (m.fenceRequests_nv r).trans (Dev.report_nv ..)
  have hrec : ((m.fenceRequests r).recorder r).fenced = true := by
    rw [Dev.fenceRequests_fenced, Dev.report_fenced]
    simp [Dev.fenceMarks, Dev.recorder]
  change d.RegionFenced (if (m.fenceRequests r).chip.fenced = BitVec.allOnes 8 then (m.fenceRequests r).enterFailsafe fsAllFenced 0
    else m.fenceRequests r) r cause
  generalize m.fenceRequests r = e at hchip hnv hrec
  split
  · have hb := e.enterFailsafe_beforeReason fsAllFenced 0
    rw [hchip] at hb
    exact ⟨congrArg Chip.fenced hb, congrArg Chip.fencing hb, congrArg Chip.fenceCause hb,
      (e.enterFailsafe_fenced ..).trans hrec, (e.enterFailsafe_nv ..).trans hnv⟩
  · exact ⟨congrArg Chip.fenced hchip, congrArg Chip.fencing hchip, congrArg Chip.fenceCause hchip, hrec, hnv⟩

/-! ## Faults of contexts, regions and lanes (O7) -/

section
variable {s : State}

theorem Dev.fencedRegion_of_chip {d e : Dev} (h : d.chip = e.chip) (r : Nat) : d.fencedRegion r = e.fencedRegion r := by
  simp only [Dev.fencedRegion, h]

theorem Dev.cluster_report (d : Dev) (a b c code : Nat) (ps : List Nat) (k : Nat) :
    (d.report a b c code ps).cluster k = d.cluster k := by simp only [Dev.cluster, Dev.report_eng]

/-- What the fault of a context leaves of its cluster: the context is fenced, and a second fault retires it (R15). -/
theorem Dev.contextFault_cluster {d : Dev} {x : Nat} (h : (d.cluster (clusterOf x)).ctxRetired.getLsbD (ctxBit x) = false) :
    ((d.contextFault x).cluster (clusterOf x)).uncounted = ((d.fenceContext x).cluster (clusterOf x)).uncounted := by
  unfold Dev.contextFault
  rw [if_neg (by simp [h])]
  extract_lets _
  rw [Dev.cluster_report, ← Dev.strikeAll_uncounted (d.fenceContext x) (· == x)]

theorem Dev.contextFault_mask' (d : Dev) (x : Nat) :
    (d.contextFault x).mask { evt := true, life := true, store := true, eng := true } =
      d.mask { evt := true, life := true, store := true, eng := true } := by simp

theorem contextFault_clause {x : CtxId} {c : Instr} (hl : s.dev.live = true)
    (hc : c = .uncorrectableContextState x ∨ (c = .contextNoRetireTimeout x ∧ (s.dev.coachIn x.val).isSome = true)) :
    exec c s = .next { s with dev := s.dev.contextFault x.val } := by
  rcases hc with rfl | ⟨rfl, hx⟩
  · exact whenLive_pos hl
  · exact (whenLive_pos hl).trans (by simp only [hx, if_true])

theorem exec_flitCrcError_recovered {src dst : Fin 10} {n : Fin 4} (hl : s.dev.live = true) (hn : 1 ≤ n.val) :
    exec (.flitCrcError src dst n true) s =
      .next { s with dev := s.dev.report 8 1 src.val 0x3001 [src.val, dst.val, n.val, 0, 0] } := by
  refine (whenLive_pos hl).trans ?_
  simp only [hn, if_true, Bool.true_or]

theorem exec_flitCrcError_failed {src dst : Fin 10} (hl : s.dev.live = true) (hs : src.val < 8) :
    exec (.flitCrcError src dst 3 false) s =
      .next { s with dev := (s.dev.report 8 1 src.val 0x3001 [src.val, dst.val, 3, 0, 0]).fenceRegion src.val 3 } := by
  have h3 : (3 : Fin 4).val = 3 := rfl
  refine (whenLive_pos hl).trans ?_
  simp [hs, h3]

end

/-- Settles O7, row by row, over what the fault of a context and the fence of a region leave. -/
theorem faultsFenceContextsAndRegions : Obligations.FaultsFenceContextsAndRegions := by
  refine ⟨⟨fun s x c hl hc hr => ?_, fun s x hl hr hb => ?_⟩, fun s src dst hl hs hf => ?_,
    fun s src dst n hl hn => exec_flitCrcError_recovered hl hn, fun s ch dimm rank sub lost hl hf => ?_,
    fun s ch dimm rank sub dev hl => ?_, fun s l hl hf => ?_⟩
  · have hk := Dev.contextFault_cluster hr
    have hm := s.dev.contextFault_mask' x.val
    rw [Dev.fenceContext, Dev.cluster_onCluster] at hk
    exact ⟨_, contextFault_clause hl hc, congrArg Cluster.ctxFenced hk, congrArg Cluster.ctxRetired hk,
      Dev.nv_of_mask hm rfl, Dev.keys_of_mask hm rfl, Dev.chip_of_mask hm rfl⟩
  · refine (whenLive_pos hl).trans (congrArg (fun d => Host.Outcome.next { s with dev := d }) (Dev.onCluster_congr _ ?_))
    simp only [hr, hb, Bool.or_self, Bool.false_eq_true, if_false]
  · have hf' : (s.dev.report 8 1 src.val 0x3001 [src.val, dst.val, 3, 0, 0]).fencedRegion src.val = false := by
      rw [Dev.fencedRegion_of_chip (Dev.report_chip ..), hf]
    have h := Dev.fenceRegion_fenced 3 hs hf'
    refine ⟨_, exec_flitCrcError_failed hl hs, ?_, ?_, ?_, h.recorder, h.media.trans (Dev.report_nv ..)⟩
    · rw [h.fenced, Dev.report_chip]
    · rw [h.fencing, Dev.report_chip]
    · rw [h.hasCause, Tab.get_set_self]
  · have hr : ch.val / 3 < 8 := by omega
    refine ⟨_, whenLive_pos hl, ?_⟩
    suffices h : ∀ e : Dev, e.chip = s.dev.chip → e.nv = s.dev.nv → (e.fenceRegion (ch.val / 3) 1).chip.fenced =
        setBit s.dev.chip.fenced (ch.val / 3) true ∧ (e.fenceRegion (ch.val / 3) 1).chip.fenceCause.get 0 (ch.val / 3) = 1 ∧
        (e.fenceRegion (ch.val / 3) 1).nv = s.dev.nv by
      dsimp only
      refine h _ ?_ ?_ <;> split <;> simp
    intro e hc hn
    have h := Dev.fenceRegion_fenced 1 hr ((Dev.fencedRegion_of_chip hc _).trans hf)
    exact ⟨by rw [h.fenced, hc], by rw [h.hasCause, Tab.get_set_self], h.media.trans hn⟩
  · refine ⟨_, whenLive_pos hl, ?_⟩
    dsimp only
    split <;> simp
  · refine ⟨_, whenLive_pos hl, ?_⟩
    simp only [hf, Bool.false_eq_true, if_false]
    have he : ∀ e : Dev, ∀ a b k, (e.reportBlock a b 0).lane k = e.lane k := fun e a b k => by
      simp [Dev.lane, Dev.reportBlock]
    refine ⟨?_, ?_, fun k hk => ?_⟩
    · rw [he, Dev.lane_onLane]
    · rw [he, Dev.lane_onLane]
    · rw [he, Dev.lane_onLane_ne _ _ hk]

end Sys2Proof.Machine
end

section
/-!
PROOFS. Machine checks of engines, sensors and the tick.
-/
namespace Sys2Proof.Machine

/-! ## Machine checks of an engine (O8) -/

/-- A cluster but for its counts of coaches and the state of its contexts. -/
def Cluster.stores (c : Cluster) : Cluster := { c.uncounted with ctxFenced := 0, ctxRetired := 0, ctxFaulted := 0 }

/-- What a machine check notes in the cluster of its engine (R400). -/
def Cluster.checked (b cause : Nat) (goldenOk again : Bool) (c : Cluster) : Cluster :=
  { c with
    parity := if cause = 1 then bump c.parity else c.parity
    stackFaults := if cause = 2 then bump c.stackFaults else c.stackFaults
    failedOnce := if cause = 1 then setBit c.failedOnce b true else c.failedOnce
    retired := if again then setBit c.retired b true else c.retired
    reloading := if again || !goldenOk then c.reloading else setBit c.reloading b true
    goldenFault := c.goldenFault || !goldenOk }

/-- The contexts of an engine are fenced and their coaches struck. -/
def Dev.stopEngine (e : Nat) (d : Dev) : Dev × Nat × Nat :=
  (Dev.each (List.range 8) (fun i d => d.fenceContext (e * 8 + i))
    (d.onLife fun l => { l with machineChecks := l.machineChecks.update 0 e bump })).strikeAll fun x => x / 8 == e

theorem Dev.stopEngine_stores (d : Dev) (e k : Nat) : ((d.stopEngine e).1.cluster k).stores = (d.cluster k).stores := by
  have hs {a b : Cluster} (h : a.uncounted = b.uncounted) : a.stores = b.stores :=
    congrArg (fun c : Cluster => { c with ctxFenced := 0, ctxRetired := 0, ctxFaulted := 0 }) h
  refine (hs (Dev.strikeAll_uncounted ..)).trans ?_
  exact Dev.each_keep (fun d => (d.cluster k).stores) _ (fun i d => d.fenceContext (e * 8 + i))
    (fun i d => Dev.onCluster_keep d Cluster.stores _ _ _ fun _ => rfl) _

/-- A machine check whose golden copy is good. -/
theorem Dev.machineCheck_stores {d : Dev} {e : Nat} (address cause : Nat)
    (hr : (d.cluster (engineCluster e)).retired.getLsbD (engineBit e) = false)
    (hl : (d.cluster (engineCluster e)).reloading.getLsbD (engineBit e) = false) :
    ((d.machineCheck e address cause true).cluster (engineCluster e)).stores =
      ((d.cluster (engineCluster e)).checked (engineBit e) cause true
        (cause == 1 && (d.cluster (engineCluster e)).failedOnce.getLsbD (engineBit e))).stores := by
  have hm : d.machineCheck e address cause true =
      let x := (d.onCluster (engineCluster e) (Cluster.checked (engineBit e) cause true
        (cause == 1 && (d.cluster (engineCluster e)).failedOnce.getLsbD (engineBit e)))).stopEngine e
      x.1.report (clusterRegion (engineCluster e)) (clusterBlock (engineCluster e)) 0 0xD009 [e, address, cause, x.2.1, x.2.2] := by
    rw [Dev.machineCheck]
    simp only [hr, hl, Bool.or_self, Bool.false_eq_true, if_false, if_true]
    rfl
  rw [hm, Dev.cluster_report, Dev.stopEngine_stores, Dev.cluster_onCluster]

/-- Settles O8, over what a machine check notes in the cluster of its engine. -/
theorem controlStoresReloadOrRetire : Obligations.ControlStoresReloadOrRetire := by
  refine ⟨fun s e a hl hr hld => ⟨?_, ?_⟩, fun s e hl hld => ?_⟩
  · have h := Dev.machineCheck_stores a.toNat 1 hr hld
    refine ⟨_, whenLive_pos hl, congrArg Cluster.parity h, congrArg Cluster.failedOnce h, fun hf => ?_, fun hf => ?_⟩
    · rw [hf] at h
      exact congrArg Cluster.reloading h
    · rw [hf] at h
      exact congrArg Cluster.retired h
  · have h := Dev.machineCheck_stores a.toNat 2 hr hld
    exact ⟨_, whenLive_pos hl, congrArg Cluster.stackFaults h, congrArg Cluster.reloading h, (congrArg Cluster.retired h).trans rfl⟩
  · refine ⟨_, whenLive_pos hl, ?_⟩
    rw [Dev.cluster_onCluster]
    simp only [hld, if_true, true_and]

/-! ## Sensors and the tick (O9) -/

section
variable (d : Dev)

theorem Dev.readTemperatures_keep (ts : List Int) :
    { (d.readTemperatures ts).chip with temperature := [] } = { d.chip with temperature := [] } := by
  refine Dev.each_keep (fun d => { d.chip with temperature := [] }) _ _ (fun x e => ?_) _
  split <;> rfl

/-- The chip's registers but for those that a tick sets. -/
def Chip.timeless (c : Chip) : Chip := { c with temperature := [], lifeTick := {} }

theorem Chip.fields_of_timeless {c e : Chip} (h : c.timeless = e) :
    c.tick = e.tick ∧ c.powerOnMs = e.powerOnMs ∧ c.state = e.state ∧ c.reason = e.reason := by
  subst h
  exact ⟨rfl, rfl, rfl, rfl⟩

theorem Dev.tick_chip (ts : List Int) :
    (d.tick ts).chip.timeless = { d.chip.timeless with
      tick := d.chip.tick + 1, powerOnMs := if d.chip.statsLoaded then bump d.chip.powerOnMs else d.chip.powerOnMs } := by
  unfold Dev.tick
  extract_lets a b c e f
  have hb : (a.readTemperatures ts).chip.timeless = a.chip.timeless :=
    congrArg (fun c : Chip => { c with lifeTick := {} }) (a.readTemperatures_keep ts)
  have hc : c.chip.timeless = a.chip.timeless := hb
  have he : e.chip = c.chip := by
    simp only [e]
    split <;> rfl
  have hf : f.chip = e.chip :=
    Dev.chip_of_mask (T := { evt := true, life := true, store := true }) (by simp [f]) rfl
  have ha : a.chip.timeless = { d.chip.timeless with
      tick := d.chip.tick + 1, powerOnMs := if d.chip.statsLoaded then bump d.chip.powerOnMs else d.chip.powerOnMs } := rfl
  split
  · rw [hf, he, hc, ha]
  · rw [Dev.onStore_chip, hf, he, hc, ha]

theorem Dev.bank_reportBank (b cell code : Nat) (ps : List Nat) (k : Nat) : (d.reportBank b cell code ps).bank k = d.bank k := by
  simp only [Dev.bank, Dev.reportBank, Dev.report_store]

theorem Dev.setThrottle_throttle (b level : Nat) (t : Int) (h : level < 4) :
    ((d.setThrottle b level t).bank b).throttle = BitVec.ofNat 2 level := by
  unfold Dev.setThrottle
  extract_lets old
  split
  · next ho =>
    apply BitVec.eq_of_toNat_eq
    rw [BitVec.toNat_ofNat, Nat.mod_eq_of_lt h]
    exact ho
  · rw [Dev.bank_reportBank, Dev.bank_onBank]

theorem Dev.setThrottle_throttle_ne (b level : Nat) (t : Int) {k : Nat} (h : k ≠ b) :
    (d.setThrottle b level t).bank k = d.bank k := by
  unfold Dev.setThrottle
  extract_lets old
  split
  · rfl
  · rw [Dev.bank_reportBank, Dev.bank_onBank_ne _ _ h]

/-- The event of a bank whose sensor failed, and its throttle level (R163). -/
def Dev.sensorBank (r i : Nat) (d : Dev) : Dev :=
  (d.reportBank (r * 4 + i) 0 0x5007 [r, 0, 0, 0, 0]).setThrottle (r * 4 + i) 3 (d.chip.temperature.get 25000 r)

theorem Dev.each_sensorBank {r i : Nat} (hi : i < 4) :
    ((Dev.each (List.range 4) (Dev.sensorBank r) d).bank (r * 4 + i)).throttle = 3 := by
  refine Dev.each_reaches (P := fun d => (d.bank (r * 4 + i)).throttle = 3) (a := i) (List.mem_range.mpr hi) (fun d => ?_)
    (fun k d hd => ?_) d
  · exact Dev.setThrottle_throttle _ _ 3 _ (by decide)
  · unfold Dev.sensorBank
    by_cases hk : k = i
    · rw [hk]
      exact Dev.setThrottle_throttle _ _ 3 _ (by decide)
    · rw [Dev.setThrottle_throttle_ne _ _ _ _ (by omega), Dev.bank_reportBank, hd]

theorem Dev.each_sensorBank_chip (r : Nat) (l : List Nat) : (Dev.each l (Dev.sensorBank r) d).chip = d.chip :=
  Dev.chip_of_mask (T := { evt := true, life := true, store := true }) (by simp [Dev.sensorBank]) rfl

theorem Dev.tick_nv (ts : List Int) : (d.tick ts).nv = d.nv :=
  Dev.nv_of_mask (Dev.tick_mask (T := { chip := true, evt := true, life := true, store := true, net := true })
    rfl rfl rfl rfl rfl ts d) rfl

end

/-- Settles O9: the banks of the sensor's region by the list of its steps, the tick by what it leaves of the registers. -/
theorem tickAndSensors : Obligations.TickAndSensors := by
  refine ⟨fun s r hl hf => ?_, fun s r hl => whenLive_pos hl, fun s ts hr => ?_⟩
  · refine ⟨_, whenLive_guarded hl (by simp [hf]), ?_, fun i hi => Dev.each_sensorBank _ hi⟩
    exact Dev.each_sensorBank_chip _ r.val _
  · obtain ⟨ht, hp, hs, hn⟩ := Chip.fields_of_timeless (s.dev.tick_chip ts)
    exact ⟨_, onDev_guarded hr, ht, hp, hs, hn, s.dev.tick_nv ts⟩

end Sys2Proof.Machine
end

section
/-!
PROOFS. The PTP clock, the unwrap lock, bits of a register.
-/
namespace Sys2Proof.Machine

/-! ## Rows of registers that PF0 does not reach (R29) -/

section
variable {s : State} {p : Dev → Bool} {f : Dev → Dev} {r : Requester}

theorem whenLive_pf0 (hl : s.dev.live = true) : whenLive (byManagement .pf0 f) s =
    .next { s with dev := s.dev.onPcie fun p => { p with blocked := bump p.blocked } } := by
  rw [whenLive_pos hl]
  rfl

theorem onDev_byManagement (hr : r ≠ .pf0) (h : p s.dev = true) :
    onDev (guarded p (byManagement r f)) s = .next { s with dev := f s.dev } := by
  rw [onDev_guarded h, byManagement, if_neg hr]

theorem whenLive_byManagement (hl : s.dev.live = true) (hr : r ≠ .pf0) :
    whenLive (byManagement r f) s = .next { s with dev := f s.dev } :=
  onDev_byManagement hr hl

end

/-! ## The PTP clock (R277, R280, R288) -/

theorem Ptp.write_of_lt (p : Ptp) {v : W64} (h : bits v.toNat 0 30 < 1000000000) : p.write v =
    { p with seconds := bits v.toNat 32 32 + p.setHi.toNat * 2 ^ 32, ns := bits v.toNat 0 30, ppsDue := false } := by
  rw [Ptp.write, if_pos h]

theorem Ptp.setTotal_ns_lt (p : Ptp) (t : Int) : (p.setTotal t).ns < 1000000000 := Nat.mod_lt _ (by decide)

theorem Ptp.total_setTotal (p : Ptp) {t : Int} (h0 : 0 ≤ t) (h1 : t < 2 ^ 48 * 1000000000) : (p.setTotal t).total = t := by
  have h : t.emod (2 ^ 48 * 1000000000) = t := Int.emod_eq_of_lt h0 h1
  simp only [Ptp.total, Ptp.setTotal, h]
  omega

theorem Ptp.pulseMs_bounds (p : Ptp) : 1 ≤ p.pulseMs ∧ p.pulseMs ≤ 999 := by
  unfold Ptp.pulseMs
  omega

theorem Ptp.pulseMs_eq {p : Ptp} (h0 : 1 ≤ bits p.ppsCfg.toNat 3 10) (h1 : bits p.ppsCfg.toNat 3 10 ≤ 999) :
    p.pulseMs = bits p.ppsCfg.toNat 3 10 := by
  unfold Ptp.pulseMs
  omega

/-- Settles O13, by the rules of management registers and the arithmetic of the clock's count of ns. -/
theorem ptpClockFollowsItsRegisters : Obligations.PtpClockFollowsItsRegisters := by
  refine ⟨fun s r hl hr => onDev_byManagement hr hl, fun s r v hl hr hv => ?_, fun s r v hl hr => ?_,
    fun s hl hc hd => ?_, fun s falling hl hc hf => ?_⟩
  · refine (whenLive_byManagement hl hr).trans ?_
    rw [Dev.onPtp, Dev.onNet, Ptp.write_of_lt _ hv]
  · exact ⟨_, whenLive_byManagement hl hr, Ptp.setTotal_ns_lt s.dev.net.ptp _, Ptp.total_setTotal s.dev.net.ptp⟩
  · obtain ⟨h1, h999⟩ := s.dev.net.ptp.pulseMs_bounds
    exact ⟨_, _, whenLive_guarded hl (by simp [hc, hd]), rfl, h1, h999, rfl, Ptp.pulseMs_eq⟩
  · exact whenLive_guarded hl (by simp only [hc, hf, beq_self_eq_true, Bool.and_self])

/-! ## Bits of a register -/

theorem getLsbD_setBit {n : Nat} (v : BitVec n) (i j : Nat) (b : Bool) (h : i < n) :
    (setBit v i b).getLsbD j = if j = i then b else v.getLsbD j := by
  by_cases hij : j = i
  · subst hij
    cases b
    · simp [setBit, h]
    · simp [setBit, h]
  · have hone : (BitVec.ofNat n 1 <<< i).getLsbD j = false := by
      by_cases hlt : j < i
      · simp [hlt]
      · have : j - i ≠ 0 := by omega
        rw [BitVec.getLsbD_shiftLeft, BitVec.getLsbD_one]
        simp [this]
    rw [if_neg hij]
    cases b
    · by_cases hj : j < n
      · simp only [setBit, Bool.false_eq_true, if_false, BitVec.getLsbD_and, BitVec.getLsbD_not, hone, hj, decide_true,
          Bool.not_false, Bool.and_self, Bool.and_true]
      · simp [BitVec.getLsbD_of_ge _ _ (Nat.le_of_not_lt hj)]
    · simp only [setBit, if_true, BitVec.getLsbD_or, hone, Bool.or_false]

theorem getLsbD_setBit_ne {n : Nat} (v : BitVec n) {i j : Nat} (b : Bool) (h : i < n) (hne : j ≠ i) :
    (setBit v i b).getLsbD j = v.getLsbD j := by
  rw [getLsbD_setBit v i j b h, if_neg hne]

/-- The bits of the regions of a list. -/
theorem getLsbD_regionMask {l : List Nat} (hl : ∀ r ∈ l, r < 8) {r : Nat} (hr : r ∈ l) : (regionMask l).getLsbD r = true := by
  have step : ∀ (l : List Nat) (m : BitVec 8), (∀ k ∈ l, k < 8) → r ∈ l ∨ m.getLsbD r = true →
      (l.foldl (fun m r => setBit m r true) m).getLsbD r = true := fun l => by
    induction l with
    | nil => exact fun m _ h => h.resolve_left (by simp)
    | cons a l ih =>
      intro m hlt h
      refine ih _ (fun k hk => hlt k (List.mem_cons_of_mem _ hk)) ?_
      by_cases ha : r = a
      · exact .inr (by rw [getLsbD_setBit m a r true (hlt a (List.mem_cons_self ..)), if_pos ha])
      · rw [getLsbD_setBit_ne m true (hlt a (List.mem_cons_self ..)) ha]
        exact h.imp_left fun hm => (List.mem_cons.mp hm).resolve_left ha
  exact step l 0 hl (.inl hr)

theorem Dev.lt_of_mem_openRegions {d : Dev} {r : Nat} (h : r ∈ d.openRegions) : r < 8 :=
  List.mem_range.mp (List.mem_filter.mp h).1

/-! ## The unwrap lock and the DRBG (R364, R375) -/

/-- Settles O51, by the rules of management registers and the effect of an alarm. -/
theorem unwrapLockAndReseed : Obligations.UnwrapLockAndReseed := by
  refine ⟨fun s who hl hw => ⟨fun h => ?_, fun h => ?_, fun h => ?_, fun h => ?_⟩, fun s hl ho ht hb hk => ?_,
    fun s mv mc hl he => ?_, fun s mv mc hr hs => ?_⟩
  · refine (whenLive_byManagement hl hw).trans ?_
    rw [Dev.acquireLock, Dev.onKeys, if_pos h]
  · refine (whenLive_byManagement hl hw).trans ?_
    rw [Dev.acquireLock, Dev.onKeys, if_neg h]
  · refine (whenLive_byManagement hl hw).trans ?_
    rw [Dev.releaseLock, Dev.onKeys, if_pos h]
  · refine (whenLive_byManagement hl hw).trans ?_
    rw [Dev.releaseLock, Dev.onKeys, if_neg h]
  · refine ⟨_, whenLive_guarded hl (by simp only [bne_iff_ne.mpr ho, ht, hb, hk]; rfl), ?_, ?_⟩
    · exact Dev.report_keys ..
    · exact Dev.report_store ..
  · refine ⟨_, whenLive_guarded hl he, rfl, fun r hr => ?_, rfl⟩
    have hm := getLsbD_regionMask (fun _ h => Dev.lt_of_mem_openRegions h) hr
    exact (BitVec.getLsbD_or ..).trans (by rw [hm, Bool.or_true])
  · have ht : (s.dev.tripped .entropy).failsafe = false := hs
    have he := Dev.enterFailsafe_entered 0x70 ((s.dev.tripped .entropy).keys.alarm.setWidth 8) ht
    obtain ⟨_, hw, _⟩ := he.atOnce rfl
    refine ⟨_, onDev_guarded hr, ?_⟩
    rw [Dev.alarm_chip, Dev.alarm_pins, Dev.alarm_keys]
    exact ⟨he.hasReason, getLsbD_setBit_self _ (alarmBit_lt .entropy), rfl, rfl, hw⟩

end Sys2Proof.Machine
end

section
/-!
PROOFS. Staging, trial and settings in the NOR.
-/
namespace Sys2Proof.Machine

/-! ## Endings of an instruction -/

section
variable {d : Dev} {i : Nat} {c : Coach}

/-- An instruction that ends leaves its coach as its status and its effect on the registers say. -/
theorem Dev.coach?_endWith (st : Byte) (f : Run → Run) (h : d.coach? i = some c) :
    (d.endWith i st f).coach? i = some { c with wait := .none, run := (f c.run).answers st } := by
  rw [Dev.endWith, Dev.coach?_onCoach, h, Option.map_some, Run.setStatus_retire]

theorem Dev.coach?_endWith_ne (st : Byte) (f : Run → Run) {j : Nat} (h : j ≠ i) : (d.endWith i st f).coach? j = d.coach? j :=
  Dev.coach?_onCoach_ne _ _ h

theorem Dev.becomes_endWith (st : Byte) (f : Run → Run) (h : d.coach? i = some c) :
    d.Becomes (d.endWith i st f) i { c with wait := .none, run := (f c.run).answers st } :=
  Run.setStatus_retire (f c.run) st ▸ Dev.becomes_onCoach _ h

theorem Dev.Becomes.onCoach {d' : Dev} (h : d.Becomes d' i c) (f : Coach → Coach) : d.Becomes (d'.onCoach i f) i (f c) where
  coach := by rw [Dev.coach?_onCoach, h.coach]; rfl
  others j hj := by rw [Dev.coach?_onCoach_ne _ _ hj, h.others j hj]
  groups := Eq.trans (Dev.onCoach_mask rfl i f d') h.groups
  engines := h.engines

/-- A coach that waits for nothing goes on waiting for nothing. -/
theorem Dev.becomes_fail (st : Byte) (h : d.coach? i = some c) (hw : c.wait = .none) :
    d.Becomes (d.fail i st) i { c with run := c.run.answers st } := by
  have := Dev.becomes_endWith st id h
  rw [← hw] at this
  exact this

end

/-- A privileged instruction that reaches the byte memories acts on the coach that is at it. -/
theorem runInstrAll_at {s : State} {ctx : CtxId} {i : Nat} {c : Coach} {op : Nat}
    (f : Nat → Coach → Fields → Memories × Dev → Memories × Dev) (h : s.dev.At ctx i c op) (hs : s.dev.failsafe = false) :
    runInstrAll ctx (·.op == op) f s = .next { s with
      mem := (f i c c.current (s.mem, s.dev)).1
      dev := (f i c c.current (s.mem, s.dev)).2.onCoach i fun c => { c with acted := true } } := by
  simp only [runInstrAll, onAll, h.running, h.path, h.free, h.steps, h.opcode, hs, beq_self_eq_true, decide_true, Bool.and_self,
    if_true, Bool.false_eq_true, if_false]

/-! ## The NOR (R385, R396) -/

theorem Mem.read_erase_out (d : Byte) (m : Mem) (lo n : Nat) {a : Nat} (h : a < lo ∨ lo + n ≤ a) :
    Mem.read d (Mem.erase m lo n) a = Mem.read d m a := by
  have hget : Tab.get? (Mem.erase m lo n) a = Tab.get? m a := by
    induction m with
    | nil => rfl
    | cons e m ih =>
      obtain ⟨k, v⟩ := e
      by_cases hk : k = a
      · subst hk
        have hkeep : (decide (k < lo) || decide (lo + n ≤ k)) = true := by simpa using h
        rw [Mem.erase, List.filter_cons, if_pos hkeep, Tab.get?, Tab.get?, if_pos rfl, if_pos rfl]
      · rw [Tab.get?, if_neg hk, ← ih, Mem.erase, List.filter_cons]
        split
        · rw [Tab.get?, if_neg hk]; rfl
        · rfl
  rw [Mem.read, Mem.read, Tab.get, Tab.get, hget]

theorem BootControl.page_length (b : BootControl) : b.page.length = 4096 := by
  simp only [BootControl.page, BootControl.body, List.length_append, leBytes_length, zeros, List.length_replicate,
    List.length_cons, List.length_nil]

/-- A boot control record leaves NOR A from 0x20000 on. -/
theorem read_writeBoot (b : BootControl) (nor : Mem) {a : Nat} (h : 0x20000 ≤ a) :
    Mem.read 0xFF (writeBoot b nor) a = Mem.read 0xFF nor a := by
  have hcopy : b.seq % 2 * 65536 ≤ 65536 := by omega
  have hpage := b.page_length
  unfold writeBoot
  simp only []
  generalize b.seq % 2 * 65536 = copy at hcopy ⊢
  split
  · next i hi =>
    have hlt : i < 16 := List.mem_range.mp (List.mem_of_find?_eq_some hi)
    exact Mem.read_writeBytes_out _ _ _ _ (.inr (by omega))
  · rw [Mem.read_writeBytes_out _ _ _ _ (.inr (by omega)), Mem.read_erase_out _ _ _ _ (.inr (by omega))]

theorem Mem.read_writeBytes_getD (d e : Byte) (m : Mem) (a : Nat) (bs : Bytes) {k : Nat} (h : k < bs.length) :
    Mem.read d (Mem.writeBytes d m a bs) (a + k) = bs.getD k e := by
  rw [Mem.read_writeBytes_in d m a bs h, List.getD_eq_getElem?_getD, List.getElem?_eq_getElem h, Option.getD_some]

theorem pick_setPick {α : Type} (p : α × α) (i : Nat) (v : α) : pick (setPick p i v) i = v := by
  unfold pick setPick
  split <;> rfl

/-! ## Staging (R389 to R391) -/

section
variable (x : Memories × Dev)
theorem bootRecord_fw (f : BootControl → BootControl) : (bootRecord f x).2.fw =
    { x.2.fw with bcr := f { x.2.fw.bcr with seq := x.2.fw.bcr.seq + 1 } } := rfl

theorem bootRecord_coach (f : BootControl → BootControl) (i : Nat) : (bootRecord f x).2.coach? i = x.2.coach? i := rfl
end

section
variable (st : Byte) (version security : Nat) (d : Dev)
theorem Dev.stagingEnds_fw : (d.stagingEnds st version security).fw =
    { d.fw with stageActive := false, stageChecking := false, stageResult := st } := Dev.report_fw ..

theorem Dev.stagingEnds_nv : (d.stagingEnds st version security).nv = d.nv := Dev.report_nv ..

theorem Dev.stagingEnds_coach (i : Nat) : (d.stagingEnds st version security).coach? i = d.coach? i :=
  congrArg (fun e => e.coaches.get? i) (Dev.report_eng ..)
end

/-- The slot is marked and erased where staging starts. -/
def stageStart (off : Nat) (s : Memories × Dev) : Memories × Dev :=
  if off = 0 then
    let slot := s.2.fw.bcr.stagingSlot
    let (m, d) := bootRecord (fun b => { b with slotState := setPick b.slotState slot 3 }) s
    ({ m with norA := Mem.erase m.norA (slotBase slot) slotSize },
      d.onFw fun f => { f with stageActive := true, stageSlot := slot, stageBytes := 0, stageLength := 0, stageResult := 0 })
  else s

/-- The NOR programs the bytes. -/
def stageBytes (off : Nat) (bytes : Bytes) (x : Memories × Dev) : Memories × Dev :=
  let slot := x.2.fw.stageSlot
  let m := { x.1 with norA := Mem.writeBytes 0xFF x.1.norA (slotBase slot + off) bytes }
  let n := off + bytes.length
  let len := if 12 ≤ n then (imageInfo (headerBytes m.norA slot)).length else 0
  (m, x.2.onFw fun f => { f with
    stageBytes := n, stageLength := len, stageTick := x.2.chip.tick, stageChecking := decide (4096 ≤ n ∧ len ≤ n) })

/-- The NOR fails. -/
def stageFails (x : Memories × Dev) : Memories × Dev :=
  bootRecord (fun b => { b with slotState := setPick b.slotState x.2.fw.stageSlot 2, lastResult := 0x63 })
    (x.1, x.2.stagingEnds 0x63 0 0)

theorem stageWrite_true (off : Nat) (bytes : Bytes) (s : Memories × Dev) :
    stageWrite off bytes true s = stageBytes off bytes (stageStart off s) := by
  by_cases h : off = 0
  · simp only [stageWrite, stageStart, h, if_true]
    rfl
  · simp only [stageWrite, stageStart, h, if_false]
    rfl

theorem stageWrite_false (off : Nat) (bytes : Bytes) (s : Memories × Dev) :
    stageWrite off bytes false s = stageFails (stageStart off s) := by
  by_cases h : off = 0
  · simp only [stageWrite, stageStart, h, if_true]
    rfl
  · simp only [stageWrite, stageStart, h, if_false]
    rfl

section
variable (off : Nat) (s : Memories × Dev)
theorem stageStart_slot : (stageStart off s).2.fw.stageSlot = if off = 0 then s.2.fw.bcr.stagingSlot else s.2.fw.stageSlot := by
  unfold stageStart
  split <;> rfl

theorem stageStart_keep : (stageStart off s).2.coach? = s.2.coach? ∧ (stageStart off s).2.chip = s.2.chip ∧
    (stageStart off s).1.norB = s.1.norB ∧ (stageStart off s).1.setWindow = s.1.setWindow := by
  unfold stageStart
  split <;> exact ⟨rfl, rfl, rfl, rfl⟩
end

theorem stageFails_fw (x : Memories × Dev) : (stageFails x).2.fw.stageActive = false ∧ (stageFails x).2.fw.stageResult = 0x63 ∧
    pick (stageFails x).2.fw.bcr.slotState x.2.fw.stageSlot = 2 ∧ (stageFails x).2.coach? = x.2.coach? := by
  unfold stageFails
  rw [bootRecord_fw]
  simp only [Dev.stagingEnds_fw]
  exact ⟨trivial, trivial, pick_setPick _ _ _, funext fun i => (bootRecord_coach _ _ i).trans (Dev.stagingEnds_coach _ _ _ _ i)⟩

/-- A coach whose instruction on the byte memories has answered. -/
def Coach.answered (c : Coach) (st : Byte) : Coach := { c with wait := .none, run := c.run.answers st, acted := true }

/-- What FWSTAGE does where it is not refused. -/
theorem exec_fwstage {s : State} {ctx : CtxId} {i : Nat} {c : Coach} (norOk : Bool) (h : s.dev.At ctx i c 0x49)
    (hs : s.dev.failsafe = false) (hr : s.dev.stageRefusal c c.current = none) :
    exec (.fwstage ctx norOk) s = .next { s with
      mem := (stageWrite (bits c.current.imm 0 26) (slice c.inbound (c.run.num c.current.a) (c.run.num c.current.b)) norOk
        (s.mem, s.dev)).1
      dev := ((stageWrite (bits c.current.imm 0 26) (slice c.inbound (c.run.num c.current.a) (c.run.num c.current.b)) norOk
        (s.mem, s.dev)).2.endWith i stOk id).onCoach i fun c => { c with acted := true } } := by
  simp only [exec, execFwstage]
  rw [runInstrAll_at _ h hs]
  simp only [hr]

theorem exec_fwstage_refused {s : State} {ctx : CtxId} {i : Nat} {c : Coach} {st : Byte} (norOk : Bool)
    (h : s.dev.At ctx i c 0x49) (hs : s.dev.failsafe = false) (hr : s.dev.stageRefusal c c.current = some st) :
    exec (.fwstage ctx norOk) s = .next { s with
      dev := (s.dev.fail i st).onCoach i fun c => { c with acted := true } } := by
  simp only [exec, execFwstage]
  rw [runInstrAll_at _ h hs]
  simp only [hr]

/-- The coach of FWSTAGE or FWCOMMIT goes on with `OK`. -/
theorem Dev.acted_endWith {d : Dev} {i : Nat} {c : Coach} (st : Byte) (h : d.coach? i = some c) :
    ((d.endWith i st id).onCoach i fun c => { c with acted := true }).coach? i =
      some (c.answered st) := by
  rw [Dev.coach?_onCoach, Dev.coach?_endWith st id h]
  rfl

theorem Dev.acted_endWith_fw {d : Dev} {i : Nat} (st : Byte) :
    ((d.endWith i st id).onCoach i fun c => { c with acted := true }).fw = d.fw := rfl

/-- The verdict on a staged image as a change of the boot control record. -/
def verdict (st : Byte) (slot version : Nat) (b : BootControl) : BootControl :=
  if st = stOk then
    { b with slotState := setPick b.slotState slot 1, trial := slot, tstate := 1, lastResult := 0, version := setPick b.version slot version }
  else { b with slotState := setPick b.slotState slot 2, lastResult := st.toNat }

theorem stagedCheck_eq (fu : Fuses) (x : Memories × Dev) : ∃ v n, stagedCheck fu x =
    bootRecord (verdict (stagedStatus fu x.1.norA x.2.fw.stageSlot x.2.fw.bcr.floor) x.2.fw.stageSlot v)
      (x.1, x.2.stagingEnds (stagedStatus fu x.1.norA x.2.fw.stageSlot x.2.fw.bcr.floor) v n) := by
  refine ⟨(imageInfo (headerBytes x.1.norA x.2.fw.stageSlot)).version,
    (imageInfo (headerBytes x.1.norA x.2.fw.stageSlot)).security, ?_⟩
  unfold stagedCheck verdict
  rfl

theorem stagedCheck_fw (fu : Fuses) (x : Memories × Dev) {st : Byte}
    (hst : st = stagedStatus fu x.1.norA x.2.fw.stageSlot x.2.fw.bcr.floor) : ∃ v, (stagedCheck fu x).2.fw =
      { x.2.fw with stageActive := false, stageChecking := false, stageResult := st
                    bcr := verdict st x.2.fw.stageSlot v { x.2.fw.bcr with seq := x.2.fw.bcr.seq + 1 } } := by
  obtain ⟨v, n, h⟩ := stagedCheck_eq fu x
  rw [← hst] at h
  refine ⟨v, ?_⟩
  rw [h, bootRecord_fw, Dev.stagingEnds_fw]

section
variable (st : Byte) (slot v : Nat) (b : BootControl)
theorem verdict_keep : (verdict st slot v b).active = b.active ∧ (verdict st slot v b).seq = b.seq := by
  unfold verdict
  split <;> exact ⟨rfl, rfl⟩

theorem verdict_ok : (verdict stOk slot v b).trial = slot ∧ (verdict stOk slot v b).tstate = 1 ∧
    pick (verdict stOk slot v b).slotState slot = 1 := ⟨rfl, rfl, pick_setPick _ _ _⟩

theorem verdict_bad (h : st ≠ stOk) : (verdict st slot v b).trial = b.trial ∧ (verdict st slot v b).tstate = b.tstate ∧
    pick (verdict st slot v b).slotState slot = 2 := by
  rw [verdict, if_neg h]
  exact ⟨rfl, rfl, pick_setPick _ _ _⟩
end

/-- Settles O34, from what FWSTAGE writes and the verdict on a staged image. -/
theorem imagesAreStaged : Obligations.ImagesAreStaged := by
  refine ⟨fun s ctx i slot off c bytes h hs hr ho hb hslot => ⟨?_, ?_⟩, fun s ctx i c st ok h hs hr => ?_,
    fun s st hl hc hst => ?_, fun s hl ha hc ht => ?_⟩
  · have hoff : bits c.current.imm 0 26 = off := by rw [ho, bits, Nat.pow_zero, Nat.div_one]
    have hbytes : slice c.inbound (c.run.num c.current.a) (c.run.num c.current.b) = bytes := hb.symm
    obtain ⟨hcoach, hchip, hB, hW⟩ := stageStart_keep off (s.mem, s.dev)
    have hsl : (stageStart off (s.mem, s.dev)).2.fw.stageSlot = slot := (stageStart_slot ..).trans hslot.symm
    refine ⟨_, _, c.answered stOk, exec_fwstage true h hs hr, ?_⟩
    rw [hoff, hbytes, stageWrite_true]
    generalize stageStart off (s.mem, s.dev) = x at hcoach hchip hB hW hsl ⊢
    subst hsl
    have hx : (stageBytes off bytes x).2.coach? i = some c := (congrFun hcoach i).trans h.coach
    exact ⟨Dev.acted_endWith stOk hx, rfl, rfl, rfl, congrArg Chip.tick hchip, hB, hW, fun k hk =>
      Mem.read_writeBytes_getD _ _ _ _ _ hk⟩
  · have hoff : bits c.current.imm 0 26 = off := by rw [ho, bits, Nat.pow_zero, Nat.div_one]
    have hsl : (stageStart off (s.mem, s.dev)).2.fw.stageSlot = slot := (stageStart_slot ..).trans hslot.symm
    obtain ⟨hact, hres, hslot2, hco⟩ := stageFails_fw (stageStart off (s.mem, s.dev))
    obtain ⟨hcoach, _⟩ := stageStart_keep off (s.mem, s.dev)
    refine ⟨_, _, c.answered stOk, exec_fwstage false h hs hr, ?_⟩
    rw [hoff, stageWrite_false]
    have hx := (congrFun (hco.trans hcoach) i).trans h.coach
    exact ⟨Dev.acted_endWith stOk hx, rfl, hact, hres, hsl ▸ hslot2⟩
  · exact ⟨_, _, exec_fwstage_refused ok h hs hr, (Dev.becomes_fail st h.coach h.free).onCoach _, rfl⟩
  · have hexec : exec .stagedImageCheckDone s = .next { s with
        mem := (stagedCheck s.fuses (s.mem, s.dev)).1, dev := (stagedCheck s.fuses (s.mem, s.dev)).2 } := by
      simp only [exec, execStagedImageCheckDone, onAll, hl, hc, Bool.and_self, if_true]
    obtain ⟨v, hfw⟩ := stagedCheck_fw s.fuses (s.mem, s.dev) hst
    obtain ⟨hactive, hseq⟩ := verdict_keep st s.dev.fw.stageSlot v { s.dev.fw.bcr with seq := s.dev.fw.bcr.seq + 1 }
    refine ⟨_, _, hexec, ?_⟩
    generalize (stagedCheck s.fuses (s.mem, s.dev)).2.fw = fw at hfw ⊢
    subst hfw
    exact ⟨rfl, rfl, rfl, hseq, fun h0 => h0 ▸ verdict_ok _ v _, fun h0 => verdict_bad st _ v _ h0, hactive⟩
  · exact ⟨_, whenLive_guarded hl (by simp [ha, hc, ht]), Dev.stagingEnds_fw .., Dev.stagingEnds_nv ..⟩

/-! ## Trial and commit (R392, R394) -/

theorem commitTrial_fw (x : Memories × Dev) : (commitTrial x).2.fw = { x.2.fw with
    onTrial := false
    bcr := { x.2.fw.bcr with
      seq := x.2.fw.bcr.seq + 1, active := x.2.fw.bcr.trial, trial := 0xFF, tstate := 0, convArea := 0xFF
      setArea := if x.2.fw.bcr.convArea = 0xFF then x.2.fw.bcr.setArea else x.2.fw.bcr.convArea
      floor := x.2.fw.image.security, lastResult := 0 } } := by
  unfold commitTrial
  simp only [bootRecord_fw, Dev.onFw, Dev.report_fw]

theorem commitTrial_keep (x : Memories × Dev) (i : Nat) : (commitTrial x).2.coach? i = x.2.coach? i ∧
    (commitTrial x).1.norB = x.1.norB :=
  ⟨congrArg (fun e => e.coaches.get? i) (Dev.report_eng ..), rfl⟩

/-- The flush of a failed trial begins. -/
theorem Dev.beginFlush_pfail (trial : Bool) (d : Dev) : (d.beginFlush trial).powerPfc.pfail =
    { d.pfail with flush := .closing, flushTick := d.chip.tick, trialFlush := trial, flushBytes := 0 } := by
  simp [Dev.beginFlush]

theorem Dev.beginFlush_fw (trial : Bool) (d : Dev) : (d.beginFlush trial).powerPfc.fw = d.fw := by
  simp [Dev.beginFlush]

theorem Dev.beginFlush_nv (trial : Bool) (d : Dev) : (d.beginFlush trial).powerPfc.nv = d.nv := by
  simp [Dev.beginFlush]

/-- The device whose trial has failed for a cause. -/
def Dev.trialLost (cause : Nat) (d : Dev) : Dev := d.onFw fun f => { f with trialFailed := some cause }

theorem Dev.failTrial_service (cause : Nat) {d : Dev} (h : d.chip.state = 1) :
    d.failTrial cause = ((d.trialLost cause).beginFlush true).powerPfc := if_pos (beq_iff_eq.mpr h)

theorem Dev.failTrial_start (cause : Nat) {d : Dev} (h : d.chip.state ≠ 1) :
    d.failTrial cause = (d.trialLost cause).onFw fun f => { f with selfReset := true } := if_neg (by simpa using h)

/-- Settles O35, from the boot control record that FWCOMMIT writes and the two ways of a failed trial. -/
theorem trialsAreCommittedOrFail : Obligations.TrialsAreCommittedOrFail := by
  refine ⟨fun s ctx i c h hs hrec => ⟨fun hst ht => ?_, fun ht => ?_⟩, fun s hl ho hf hp ht => ?_⟩
  · have hexec : exec (.fwcommit ctx) s = .next { s with
        mem := (commitTrial (s.mem, s.dev)).1
        dev := ((commitTrial (s.mem, s.dev)).2.endWith i stOk id).onCoach i fun c => { c with acted := true } } := by
      simp only [exec, execFwcommit]
      rw [runInstrAll_at _ h hs]
      simp only [hrec, hst, ht, and_self, if_true, if_false]
    obtain ⟨hcoach, hB⟩ := commitTrial_keep (s.mem, s.dev) i
    refine ⟨_, _, c.answered stOk, hexec, Dev.acted_endWith stOk (hcoach.trans h.coach), rfl, ?_, ?_, hB⟩
    · rw [Dev.acted_endWith_fw, commitTrial_fw]
    · rw [Dev.acted_endWith_fw, commitTrial_fw]
  · have hexec : exec (.fwcommit ctx) s = .next { s with
        dev := (s.dev.fail i stIllegalValue).onCoach i fun c => { c with acted := true } } := by
      simp only [exec, execFwcommit]
      rw [runInstrAll_at _ h hs]
      simp only [hrec, ht, and_false, if_false]
    exact ⟨_, _, hexec, (Dev.becomes_fail _ h.coach h.free).onCoach _, rfl⟩
  · refine ⟨_, whenLive_guarded hl (by simp [ho, hf, hp, ht]), ?_⟩
    by_cases hst : s.dev.chip.state = 1
    · rw [Dev.failTrial_service 1 hst, Dev.beginFlush_fw, Dev.beginFlush_pfail, Dev.beginFlush_nv]
      exact ⟨rfl, fun _ => ⟨rfl, rfl⟩, fun h => absurd hst h, rfl⟩
    · rw [Dev.failTrial_start 1 hst]
      exact ⟨rfl, fun h => absurd h hst, fun _ => ⟨rfl, rfl⟩, rfl⟩

/-! ## Settings (R396, R397, R406) -/

section
variable {m : Memories} {d : Dev} (hb : d.fw.setBusy = false)
include hb

theorem commitSettings_busy (h : d.fw.bcr.tstate = 2 ∨ d.fw.stageActive = true) :
    commitSettings m d = d.commitResult 0x12 := by
  rw [commitSettings]
  simp only [hb, h, Bool.false_eq_true, if_false, if_true]
  rfl

variable (ht : d.fw.bcr.tstate ≠ 2) (ha : d.fw.stageActive = false)
include ht ha

theorem commitSettings_bad (hr : readSettings 0 m.setWindow 0 = none) : commitSettings m d = d.commitResult 0x64 := by
  rw [commitSettings]
  simp only [hb, ht, ha, hr, Bool.false_eq_true, or_self, if_false]

theorem commitSettings_takes {r : SettingsRecord} (hr : readSettings 0 m.setWindow 0 = some r)
    (hf : r.format = d.fw.image.setWrite) : commitSettings m d = d.onFw fun f => { f with
      setBusy := true, setRecord := settingsBytes r.format r.flags (f.settingsSeq + 1) 0 0xFF r.body } := by
  rw [commitSettings]
  simp only [hb, ht, ha, hr, hf, Bool.false_eq_true, or_self, if_false, ne_eq, not_true_eq_false]
end

/-- What a settings commit that is not refused makes of the memories. -/
theorem commitDone_mem (x : Memories × Dev) {k : Nat} (hk : k < x.2.fw.setRecord.length) {area : Nat}
    (ha : area = if x.2.fw.bcr.setArea = 0 then 1 else 0) :
    Mem.read 0xFF (commitDone true x).1.norA (areaBase area + k) = x.2.fw.setRecord.getD k 0 ∧
    Mem.read 0xFF (commitDone true x).1.norB (mirrorBase area + k) = x.2.fw.setRecord.getD k 0 := by
  subst ha
  refine ⟨?_, Mem.read_writeBytes_getD _ _ _ _ _ hk⟩
  refine (read_writeBoot _ _ ?_).trans (Mem.read_writeBytes_getD _ _ _ _ _ hk)
  unfold areaBase
  omega

/-- Settles O36, from the three answers of a commit and the memories once its NOR work is done. -/
theorem settingsAreCommitted : Obligations.SettingsAreCommitted := by
  refine ⟨fun s who hl hw hb => ⟨fun r ht ha hr hf => ?_, fun h => ?_, fun ht ha hr => ?_⟩, fun s hl => whenLive_pf0 hl,
    fun s area hl hb ha => ⟨?_, ?_⟩⟩
  · refine (whenLive_byManagement hl hw).trans ?_
    rw [commitSettings_takes hb ht ha hr hf]
    rfl
  · refine (whenLive_byManagement hl hw).trans ?_
    rw [commitSettings_busy hb h]
    rfl
  · refine (whenLive_byManagement hl hw).trans ?_
    rw [commitSettings_bad hb ht ha hr]
    rfl
  · have hexec : exec (.settingsCommitDone true) s = .next { s with
        mem := (commitDone true (s.mem, s.dev)).1, dev := (commitDone true (s.mem, s.dev)).2 } := by
      simp only [exec, execSettingsCommitDone, onAll, hl, hb, Bool.and_self, if_true]
    exact ⟨_, _, hexec, rfl, rfl, rfl, ha.symm, rfl, fun k hk => commitDone_mem (s.mem, s.dev) hk ha⟩
  · simp only [exec, execSettingsCommitDone, onAll, hl, hb, Bool.and_self, if_true]
    rfl

end Sys2Proof.Machine
end

section
/-!
PROOFS. Migration streams and the wall time.
-/
namespace Sys2Proof.Machine

/-! ## Rows of instructions -/

/-- A row runs its instruction on the coach that is at it. -/
theorem runInstr_at {s : State} {ctx : CtxId} {i : Nat} {c : Coach} {op : Nat} {p : Fields → Bool}
    (f : Nat → Coach → Fields → Dev → Dev) (h : s.dev.At ctx i c op) (hp : p c.current = true) :
    runInstr ctx p f s = .next { s with dev := f i c c.current s.dev } := by
  rw [runInstr, onDev_eq, Dev.onInstr_at h hp]

/-- Noting that a coach acted changes that coach alone. -/
theorem Dev.Becomes.noted {d : Dev} {f : Nat → Coach → Fields → Dev → Dev} {i : Nat} {c c' : Coach} {w : Fields}
    (h : d.Becomes (f i c w d) i c') : ∃ b, d.Becomes (noted f i c w d) i { c' with acted := b } := by
  unfold Machine.noted
  simp only []
  split
  · exact ⟨c'.acted, h⟩
  · exact ⟨true, h.onCoach fun c => { c with acted := true }⟩

/-! ## Streams (R310, R311) -/

theorem findNat_eq_some {n k : Nat} {p : Nat → Bool} (hk : k < n) (hp : p k = true) (hlow : ∀ j, j < k → p j = false) :
    findNat n p = some k := by
  rw [findNat, List.find?_range_eq_some]
  exact ⟨hp, List.mem_range.mpr hk, fun j hj => by rw [hlow j hj]; rfl⟩

section
variable {c : Coach} {w : Fields} {d : Dev} {i n : Nat}

/-- The stream that MIG opens is that of its descriptor. -/
def streamOf (b : Bytes) : Stream :=
  { isOpen := true, dir := leAt b 0 1, kind := leAt b 1 1, source := leAt b 4 4, ns := BitVec.ofNat 16 (leAt b 8 2)
    cursor := leAt b 16 8, partner := BitVec.ofNat 64 (leAt b 24 8) }

/-- The device whose stream `n` is open. -/
def Dev.withStream (n : Nat) (x : Stream) (d : Dev) : Dev :=
  (d.onNet fun t => { t with streams := t.streams.set n x }).report 8 3 0 0xA005 [n, x.dir, x.kind, x.source, x.ns.toNat]

theorem Dev.withStream_keep (n : Nat) (x : Stream) (d : Dev) : (d.withStream n x).eng = d.eng ∧
    (d.withStream n x).nv = d.nv ∧ (d.withStream n x).net = { d.net with streams := d.net.streams.set n x } :=
  ⟨Dev.report_eng .., Dev.report_nv .., Dev.report_net ..⟩

/-- MIG opens the stream that is asked for, or the lowest that is not open. -/
theorem migOpenEffect_eq {b : Bytes} (ha : inArea c.inbound (c.run.num w.b) 64 = true)
    (hb : b = slice c.inbound (c.run.num w.b) 64) (hl : d.streamLegal b = true)
    (hn : (c.run.num w.a < 64 ∧ n = c.run.num w.a ∧ (d.net.streams.get {} n).isOpen = false) ∨
      (c.run.num w.a = 64 ∧ n < 64 ∧ (d.net.streams.get {} n).isOpen = false ∧
        ∀ k, k < n → (d.net.streams.get {} k).isOpen = true)) :
    migOpenEffect i c w d = (d.withStream n (streamOf b)).endWith i stOk (Run.setReg w.d (BitVec.ofNat 64 n)) := by
  subst hb
  have hpick : (if c.run.num w.a < 64 then (if (d.net.streams.get {} (c.run.num w.a)).isOpen then none else some (c.run.num w.a))
      else findNat 64 fun k => !(d.net.streams.get {} k).isOpen) = some n := by
    rcases hn with ⟨hlt, rfl, hfree⟩ | ⟨heq, hlt, hfree, hlow⟩
    · rw [if_pos hlt, hfree]; rfl
    · rw [if_neg (by omega)]
      exact findNat_eq_some hlt (by rw [hfree]; rfl) fun k hk => by rw [hlow k hk]; rfl
  have hle : c.run.num w.a ≤ 64 := by omega
  have hbad : (!inArea c.inbound (c.run.num w.b) 64 || decide (64 < c.run.num w.a) ||
      !d.streamLegal (slice c.inbound (c.run.num w.b) 64)) = false := by
    simp [ha, hl, hle]
  simp only [migOpenEffect, hbad, hpick, Bool.false_eq_true, if_false]
  rfl

end

/-! ## The wall time (R431, R432) -/

section
variable (d : Dev)
theorem Dev.cancelWake_life (r off : Nat) : (d.cancelWake r off).life.exceptLost = d.life.exceptLost := by
  unfold Dev.cancelWake
  simp only []
  split
  · exact Dev.report_life ..
  · rfl

/-- The device whose wall time is set, before the wake patrols that it cancels. -/
def Dev.timed (ns : Nat) : Dev :=
  { d with
    wall := { d.wall with wall := ns, cycle := d.stampCycle, ms := d.chip.powerOnMs, known := true }
    life := { d.life with times := bump d.life.times } }

theorem Dev.timed_wallNow (ns : Nat) : (d.timed ns).wallNow = ns := by
  simp [Dev.wallNow, Dev.timed]

/-- The time that is set is told. -/
def Dev.toldTime (ns : Nat) : Dev :=
  (d.timed ns).report 8 11 0 0x7004 [ns, d.wallNow, (BitVec.ofInt 64 ((ns : Int) - d.wallNow)).toNat, 0, 0]

theorem Dev.setTime_eq (ns : Nat) : d.setTime ns =
    if !d.wall.known && d.wall.lastKnown != 0 then
      Dev.each (d.toldTime ns).openRegions (fun r x => x.cancelWake r ((ns - d.wall.lastKnown) / 1000000000)) (d.toldTime ns)
    else d.toldTime ns := rfl

theorem Dev.setTime_mask_timed (ns : Nat) :
    (d.setTime ns).mask { evt := true, life := true, store := true } =
      (d.timed ns).mask { evt := true, life := true, store := true } := by
  rw [Dev.setTime_eq]
  have h : (d.toldTime ns).mask { evt := true, life := true, store := true } =
      (d.timed ns).mask { evt := true, life := true, store := true } := Dev.report_mask rfl rfl ..
  split
  · exact (Dev.each_mask _ _ _ fun r x => Dev.cancelWake_mask rfl rfl rfl ..).trans h
  · exact h

theorem Dev.setTime_keep (ns : Nat) : (d.setTime ns).eng = (d.timed ns).eng ∧ (d.setTime ns).nv = (d.timed ns).nv ∧
    (d.setTime ns).chip = (d.timed ns).chip ∧ (d.setTime ns).wall = (d.timed ns).wall :=
  have h := d.setTime_mask_timed ns
  ⟨Dev.eng_of_mask h rfl, Dev.nv_of_mask h rfl, Dev.chip_of_mask h rfl, Dev.wall_of_mask h rfl⟩

theorem Dev.setTime_life (ns : Nat) : (d.setTime ns).life.exceptLost = (d.timed ns).life.exceptLost := by
  rw [Dev.setTime_eq]
  have h : (d.toldTime ns).life.exceptLost = (d.timed ns).life.exceptLost := Dev.report_life ..
  split
  · exact (Dev.each_keep (fun d => d.life.exceptLost) _ (fun r d => d.cancelWake r _) (fun r d => d.cancelWake_life _ _) _).trans h
  · exact h

theorem Dev.setTime_wallNow (ns : Nat) : (d.setTime ns).wall.known = true ∧ (d.setTime ns).wallNow = ns := by
  obtain ⟨-, -, hc, hw⟩ := d.setTime_keep ns
  refine ⟨by rw [hw]; rfl, Eq.trans ?_ (d.timed_wallNow ns)⟩
  rw [Dev.wallNow, Dev.wallNow, hw, hc]

theorem Dev.setTime_times (ns : Nat) : (d.setTime ns).life.times = bump d.life.times :=
  have h := congrArg Lifetime.times (d.setTime_life ns)
  h
end

/-- What TIME does. -/
def timeEffect (i : Nat) (c : Coach) (w : Fields) (d : Dev) : Dev :=
  let ns := c.run.num w.a
  if ns < 1577836800 * 10 ^ 9 ∨ 2 ^ 63 ≤ ns then d.fail i stIllegalValue else (d.setTime ns).endWith i stOk id

theorem exec_time {s : State} {ctx : CtxId} {i : Nat} {c : Coach} (h : s.dev.Acts ctx i c 0x48) :
    exec (.time ctx) s = .next { s with dev := noted timeEffect i c c.current s.dev } :=
  runActing_at timeEffect h

section
variable (d : Dev) (n cause : Nat)
theorem Dev.closeStream_eng : (d.closeStream n cause).eng = d.eng := Dev.report_eng ..

theorem Dev.closeStream_nv : (d.closeStream n cause).nv = d.nv := Dev.report_nv ..
end

/-- Settles O33, from the stream that MIG opens or closes and the wall time that TIME sets. -/
theorem streamsAndTime : Obligations.StreamsAndTime := by
  refine ⟨fun s ctx i n c b h hm ha hb hl hn => ?_, fun s ctx i n c h hm hlt hn hopen => ?_, fun s ctx i ns c h hns => ⟨fun h0 h1 => ?_,
    fun h0 => ?_⟩⟩
  · have heq := migOpenEffect_eq (i := i) ha hb hl hn
    have hrun : exec (.migOpen ctx) s = .next { s with dev := noted migOpenEffect i c c.current s.dev } := by
      simp only [exec, execMigOpen]
      rw [runInstr_at _ h.toAt (by simp [h.opcode, hm])]
      simp only [accepted, if_neg h.accepted, acting, h.alive, Bool.false_eq_true, if_false]
    obtain ⟨heng, hnv, hnet⟩ := Dev.withStream_keep n (streamOf b) s.dev
    have hco : (s.dev.withStream n (streamOf b)).coach? i = some c := (congrArg (·.coaches.get? i) heng).trans h.coach
    have hco' := Dev.coach?_endWith stOk (Run.setReg c.current.d (BitVec.ofNat 64 n)) hco
    rw [← heq] at hco'
    obtain ⟨a, hacted⟩ := noted_coach hco'
    refine ⟨_, _, hrun, hacted, rfl, ?_, fun k hk => ?_, ?_⟩
    · rw [noted_net, heq, Dev.endWith_net, hnet]
      exact Tab.get?_set_self ..
    · rw [noted_net, heq, Dev.endWith_net, hnet]
      exact Tab.get?_set_ne _ _ hk
    · rw [noted_nv, heq, Dev.endWith_nv, hnv]
  · have heq : migCloseEffect i c c.current s.dev =
        (s.dev.closeStream n 1).endWith i stOk (Run.setReg c.current.d (BitVec.ofNat 64 n)) := by
      have hnum : c.run.num c.current.a = n := hn
      simp only [migCloseEffect, hnum, hopen, Nat.not_le.mpr hlt, Bool.true_eq_false, or_self, if_false]
    have hrun : exec (.migClose ctx) s = .next { s with dev := noted migCloseEffect i c c.current s.dev } := by
      simp only [exec, execMigClose]
      rw [runInstr_at _ h.toAt (by simp [h.opcode, hm])]
      simp only [accepted, if_neg h.accepted, acting, h.alive, Bool.false_eq_true, if_false]
    have hco : (s.dev.closeStream n 1).coach? i = some c :=
      (congrArg (·.coaches.get? i) (s.dev.closeStream_eng n 1)).trans h.coach
    have hco' := Dev.coach?_endWith stOk (Run.setReg c.current.d (BitVec.ofNat 64 n)) hco
    rw [← heq] at hco'
    obtain ⟨a, hacted⟩ := noted_coach hco'
    refine ⟨_, _, hrun, hacted, rfl, ?_, ?_⟩
    · rw [noted_net, heq, Dev.endWith_net, Dev.closeStream, Dev.report_net, Tab.get]
      simp only [Dev.onNet, Tab.get?_adjust_self]
      cases hx : s.dev.net.streams.get? n with
      | none => rfl
      | some x => rfl
    · rw [noted_nv, heq, Dev.endWith_nv, s.dev.closeStream_nv]
  · have hnum : c.run.num c.current.a = ns := hns
    have hno : ¬(ns < 1577836800 * 10 ^ 9 ∨ 2 ^ 63 ≤ ns) := by omega
    have heq : timeEffect i c c.current s.dev = (s.dev.setTime ns).endWith i stOk id := by
      rw [timeEffect, hnum, if_neg hno]
    obtain ⟨heng, hnv, hchip, -⟩ := s.dev.setTime_keep ns
    have hco : (s.dev.setTime ns).coach? i = some c := (congrArg (·.coaches.get? i) heng).trans h.coach
    have hco' := Dev.coach?_endWith stOk id hco
    rw [← heq] at hco'
    obtain ⟨a, hacted⟩ := noted_coach hco'
    obtain ⟨hknown, hnow⟩ := s.dev.setTime_wallNow ns
    refine ⟨_, _, exec_time h, hacted, rfl, ?_, ?_, ?_, ?_, ?_⟩
    · rw [noted_wall, heq, Dev.endWith_wall, hknown]
    · rw [Dev.wallNow, noted_wall, noted_chip, heq, Dev.endWith_wall, Dev.endWith_chip]
      exact hnow
    · rw [noted_life, heq, Dev.endWith_life, Dev.setTime_times]
    · rw [noted_nv, heq, Dev.endWith_nv, hnv]; rfl
    · rw [noted_chip, heq, Dev.endWith_chip, hchip]; rfl
  · have hnum : c.run.num c.current.a = ns := hns
    have heq : timeEffect i c c.current s.dev = s.dev.fail i stIllegalValue := by
      rw [timeEffect, hnum, if_pos (.inl h0)]
    obtain ⟨a, hb⟩ := Dev.Becomes.noted (f := timeEffect) (heq ▸ Dev.becomes_fail stIllegalValue h.coach h.free)
    exact ⟨_, _, exec_time h, hb, rfl⟩

end Sys2Proof.Machine
end

section
/-!
PROOFS. Management reads.
-/
namespace Sys2Proof.Machine

/-! ## Instructions that answer with a status -/

section
variable {f : Nat → Coach → Fields → Dev → Dev} {i : Nat} {c : Coach} {w : Fields} {d e : Dev} {st : Byte} {k : Run → Run}

/-- A noted instruction that answers leaves its coach with the answer. -/
theorem noted_endWith (h : f i c w d = e.endWith i st k) (hc : e.coach? i = some c) :
    ∃ b, (noted f i c w d).coach? i = some { c with wait := .none, run := (k c.run).answers st, acted := b } :=
  noted_coach (h ▸ Dev.coach?_endWith st k hc)

/-- A noted instruction that only answers changes its coach alone. -/
theorem becomes_noted_endWith (h : f i c w d = d.endWith i st k) (hc : d.coach? i = some c) :
    ∃ b, d.Becomes (noted f i c w d) i { c with wait := .none, run := (k c.run).answers st, acted := b } :=
  Dev.Becomes.noted (h ▸ Dev.becomes_endWith st k hc)
end

/-! ## Management reads (R108, R109, R110) -/

section
variable {i : Nat} {c : Coach} {w : Fields} {d : Dev}

theorem Dev.afterRead_keep (a : Nat) (d : Dev) : (d.afterRead a).eng = d.eng ∧ (d.afterRead a).keys = d.keys ∧
    (d.afterRead a).nv = d.nv ∧ (d.afterRead a).store = d.store := by
  unfold Dev.afterRead
  split <;> exact ⟨rfl, rfl, rfl, rfl⟩

theorem mrdEffect_read {fu : Fuses} {tp : Nat} {win : Mem} {a : Nat} {wide : Bool} (h : c.control w = some (a, wide)) :
    mrdEffect fu tp win i c w d = (d.afterRead a).endWith i stOk
      (Run.setReg w.d (BitVec.ofNat 64 (d.readControl fu tp win wide a))) := by
  simp only [mrdEffect, h]

theorem mrdEffect_refused {fu : Fuses} {tp : Nat} {win : Mem} (h : c.control w = none) :
    mrdEffect fu tp win i c w d = d.fail i stIllegalValue := by
  simp only [mrdEffect, h]

/-- The registers of a coach that EVRD has answered with some records. -/
def evrdRun (w : Fields) (start : Nat) (got : List EventRec) (r : Run) : Run :=
  { r with fetch := got.flatMap EventRec.bytes }.setReg w.d
    (BitVec.ofNat 64 ((got.getLast?.map fun (e : EventRec) => e.seq + 1).getD start))

/-- EVRD of the ring gives its records from the start on. -/
theorem evrdEffect_ring {log : LogReadEnv} (h1 : 1 ≤ w.imm % 512) (h2 : w.imm % 512 ≤ 256) (h3 : c.run.num w.a < 2 ^ 63)
    (hm : w.m = 1) : ∃ n, evrdEffect log i c w d = (d.onEvt fun v => { v with slotBad := satAdd v.slotBad n }).endWith i stOk
      (evrdRun w (c.run.num w.a) ((d.ringRecords (c.run.num w.a)).take (w.imm % 512))) := by
  have hno : ¬(w.imm % 512 < 1 ∨ 256 < w.imm % 512 ∨ 2 ^ 63 ≤ c.run.num w.a) := by omega
  have hkeep : ∀ l : List EventRec, (l.filter fun e => w.m == 1 || !log.badSeqs.contains e.seq) = l := fun l => by simp [hm]
  refine ⟨0, ?_⟩
  simp only [evrdEffect, if_neg hno, hkeep]
  simp only [hm, Nat.one_ne_zero, if_false]
  rfl

/-- EVRD of a store that reads well gives its records from the start on. -/
theorem evrdEffect_store {log : LogReadEnv} (h1 : 1 ≤ w.imm % 512) (h2 : w.imm % 512 ≤ 256) (h3 : c.run.num w.a < 2 ^ 63)
    (hm : w.m = 0) (hb : log.badSeqs = []) (hd : log.deadCopies = []) :
    ∃ n, evrdEffect log i c w d = (d.onEvt fun v => { v with slotBad := satAdd v.slotBad n }).endWith i stOk
      (evrdRun w (c.run.num w.a) ((d.heldRecords (c.run.num w.a)).take (w.imm % 512))) := by
  have hno : ¬(w.imm % 512 < 1 ∨ 256 < w.imm % 512 ∨ 2 ^ 63 ≤ c.run.num w.a) := by omega
  have hkeep : ∀ l : List EventRec, (l.filter fun e => w.m == 1 || !log.badSeqs.contains e.seq) = l := fun l => by simp [hb]
  have hread : d.readLog log = d := by rw [Dev.readLog, hd]; rfl
  refine ⟨0, ?_⟩
  have hbad : ∀ l : List EventRec, (l.filter fun e => log.badSeqs.contains e.seq).length = 0 := fun l => by simp [hb]
  simp only [evrdEffect, if_neg hno, hkeep, hbad]
  simp only [hm, if_true, hread]
  rfl

theorem ctrdEffect_given {kind index : Nat} {vs : List Nat} (hk : kind < 256) (hi : index < 65536)
    (hs : c.run.num w.a = kind + index * 65536) (hv : d.counters kind index = some vs) :
    ctrdEffect i c w d = d.endWith i stOk fun r =>
      { r with fetch := vs.flatMap (leBytes 8) }.setReg w.d (BitVec.ofNat 64 (vs.headD 0)) := by
  have hkind : (kind + index * 65536) % 256 = kind := by omega
  have hindex : bits (kind + index * 65536) 16 16 = index := by rw [bits]; omega
  unfold ctrdEffect
  extract_lets sel k j
  have hk' : k = kind := (congrArg (· % 256) hs).trans hkind
  have hj' : j = index := (congrArg (bits · 16 16) hs).trans hindex
  have hsel : (if sel = k + j * 2 ^ 16 then d.counters k j else none) = some vs := by
    have hc : sel = kind + index * 2 ^ 16 := hs
    rw [hk', hj', if_pos hc, hv]
  simp only [hsel]

end

section
variable {s : State} {ctx : CtxId} {i : Nat} {c : Coach}

theorem exec_mrd (h : s.dev.At ctx i c 0x40) : exec (.mrd ctx) s =
    .next { s with dev := noted (mrdEffect s.fuses s.board.tProgUs s.mem.setWindow) i c c.current s.dev } :=
  runInstr_at _ h (by simp [h.opcode])

theorem exec_evrd (log : LogReadEnv) (h : s.dev.At ctx i c 0x42) (hr : s.dev.fw.recovery ≠ 1) :
    exec (.evrd ctx log) s = .next { s with dev := noted (evrdEffect log) i c c.current s.dev } := by
  refine (runInstr_at _ h (by simp [h.opcode])).trans ?_
  rw [accepted_of_ne hr]

theorem exec_ctrd (h : s.dev.At ctx i c 0x43) (hr : s.dev.fw.recovery ≠ 1) :
    exec (.ctrd ctx) s = .next { s with dev := noted ctrdEffect i c c.current s.dev } := by
  refine (runInstr_at _ h (by simp [h.opcode])).trans ?_
  rw [accepted_of_ne hr]

/-- What an EVRD that answers leaves. -/
theorem evrd_answers {log : LogReadEnv} {n start : Nat} {got : List EventRec} (h : s.dev.At ctx i c 0x42)
    (hr : s.dev.fw.recovery ≠ 1)
    (heq : evrdEffect log i c c.current s.dev = (s.dev.onEvt fun v => { v with slotBad := satAdd v.slotBad n }).endWith i stOk
      (evrdRun c.current start got)) :
    ∃ (d' : Dev) (c' : Coach), exec (.evrd ctx log) s = .next { s with dev := d' } ∧ d'.coach? i = some c' ∧
      d'.store = s.dev.store ∧ d'.nv = s.dev.nv ∧ d'.keys = s.dev.keys ∧ c'.run = (evrdRun c.current start got c.run).answers 0x00 := by
  obtain ⟨b, hc⟩ := noted_endWith heq h.coach
  refine ⟨_, _, exec_evrd log h hr, hc, ?_, ?_, ?_, rfl⟩
  · rw [noted_store, heq, Dev.endWith_store]; rfl
  · rw [noted_nv, heq, Dev.endWith_nv]; rfl
  · rw [noted_keys, heq, Dev.endWith_keys]; rfl

end

/-- Settles O28: each read is one effect on the coach that reads. -/
theorem managementReads : Obligations.ManagementReads := by
  refine ⟨fun s ctx i a wide c h hc => ?_, fun s ctx i c h hc => ?_, fun s ctx i c log h hr h1 h2 h3 hm => ?_,
    fun s ctx i c log h hr h1 h2 h3 hm hb hd => ?_, fun s ctx i c kind index vs h hr hk hi hs hv => ?_⟩
  · have heq := mrdEffect_read (fu := s.fuses) (tp := s.board.tProgUs) (win := s.mem.setWindow) (i := i) (d := s.dev) hc
    obtain ⟨heng, hkeys, hnv, hstore⟩ := Dev.afterRead_keep a s.dev
    obtain ⟨b, hco⟩ := noted_endWith heq ((congrArg (·.coaches.get? i) heng).trans h.coach)
    refine ⟨_, _, exec_mrd h, hco, rfl, ?_, ?_, ?_⟩
    · rw [noted_keys, heq, Dev.endWith_keys, hkeys]
    · rw [noted_nv, heq, Dev.endWith_nv, hnv]
    · rw [noted_store, heq, Dev.endWith_store, hstore]
  · obtain ⟨b, hco⟩ := becomes_noted_endWith (mrdEffect_refused hc) h.coach
    exact ⟨_, _, exec_mrd h, hco, rfl⟩
  · obtain ⟨n, heq⟩ := evrdEffect_ring (log := log) (i := i) (d := s.dev) h1 h2 h3 hm
    obtain ⟨d', c', hex, hc, hs, hn, hk, hrun⟩ := evrd_answers h hr heq
    exact ⟨d', c', _, hex, hc, hs, hn, hk, rfl, hrun⟩
  · obtain ⟨n, heq⟩ := evrdEffect_store (log := log) (i := i) (d := s.dev) h1 h2 h3 hm hb hd
    obtain ⟨d', c', hex, hc, hs, hn, hk, hrun⟩ := evrd_answers h hr heq
    exact ⟨d', c', _, hex, hc, hs, hn, hk, rfl, hrun⟩
  · obtain ⟨b, hco⟩ := becomes_noted_endWith (ctrdEffect_given (d := s.dev) hk hi hs hv) h.coach
    exact ⟨_, _, exec_ctrd h hr, hco, rfl⟩

end Sys2Proof.Machine
end

section
/-!
PROOFS. Register writes and reads.
-/
namespace Sys2Proof.Machine

/-! ## Writes of control space (R29, R30, R108) -/

section
variable {fu : Fuses} {r : Requester} {a : Nat} {wide : Bool} {v : W64} {x : Memories × Dev}

theorem controlWrite_failsafe (h : x.2.failsafe = true) : controlWrite fu r a wide v x = x := by
  rw [controlWrite, if_pos h]

theorem controlWrite_blocked (h : x.2.failsafe = false) (hp : pf0Reaches a = false) :
    controlWrite fu .pf0 a wide v x = (x.1, x.2.onPcie fun p => { p with blocked := bump p.blocked }) := by
  simp only [controlWrite, h, hp, and_self, if_true, Bool.false_eq_true, if_false]

theorem controlRead_blocked {tp : Nat} {win : Mem} {d : Dev} (hp : pf0Reaches a = false) :
    controlRead fu tp win .pf0 a wide d = (0, d.onPcie fun p => { p with blocked := bump p.blocked }) := by
  rw [controlRead, if_pos ⟨rfl, hp⟩]

theorem controlRead_reaching {tp : Nat} {win : Mem} {d : Dev} (h : r ≠ .pf0 ∨ pf0Reaches a = true) :
    controlRead fu tp win r a wide d = (d.readControl fu tp win wide a, d.afterRead a) := by
  have hno : ¬(r = .pf0 ∧ pf0Reaches a = false) := by
    rcases h with h | h
    · exact fun hn => h hn.1
    · simp [h]
  rw [controlRead, if_neg hno]

theorem controlWrite_setWindow (h : x.2.failsafe = false) (hr : r ≠ .pf0) (hw : inSetWindow a = true) :
    controlWrite fu r a true v x =
      ({ x.1 with setWindow := Mem.writeBytes 0 x.1.setWindow (a - 0x380000) (leBytes 8 v.toNat) }, x.2) := by
  simp only [controlWrite, h, hr, hw, false_and, if_true, Bool.false_eq_true, if_false]

/-- A write of the low half of a word takes every bit. -/
theorem RegWrite.intoLow_regWrite {a : Nat} (ha : a % 8 = 0) (v : W64) (old : W32) :
    (regWrite a false v).intoLow 0xFFFFFFFF old = v.setWidth 32 := by
  have hw : regWrite a false v = { mask := 2 ^ 32 - 1, value := v.toNat % 2 ^ 32 } := by
    rw [regWrite, if_neg (by decide), if_pos ha]
  apply BitVec.eq_of_toNat_eq
  rw [hw, RegWrite.intoLow, put32, BitVec.toNat_ofNat, BitVec.toNat_setWidth]
  have hmask : (2 ^ 32 - 1) % 2 ^ 32 &&& 0xFFFFFFFF = 2 ^ 32 - 1 := by decide
  rw [hmask, merge_low_mod, Nat.mod_mod, Nat.mod_mod]

theorem controlWrite_scratch (h : x.2.failsafe = false) :
    controlWrite fu r 0x38 false v x = (x.1, x.2.onChip fun c => { c with scratch := v.setWidth 32 }) := by
  have hp : pf0Reaches 0x38 = true := by decide
  have hw : inSetWindow 0x38 = false := by decide
  simp only [controlWrite, h, hp, hw, Bool.true_eq_false, and_false, Bool.false_eq_true, if_false]
  rw [Dev.writeUnit]
  simp only [RegWrite.intoLow_regWrite (a := 0x38) (by decide)]
  rfl

theorem leBytes_getElem (n m k : Nat) (h : k < n) : (leBytes n m)[k]'(by rw [leBytes_length]; exact h) =
    BitVec.ofNat 8 (m / 256 ^ k) := by
  induction n generalizing m k with
  | zero => cases h
  | succ n ih =>
    cases k with
    | zero => simp [leBytes]
    | succ k =>
      simp only [leBytes, List.getElem_cons_succ]
      rw [ih _ _ (Nat.lt_of_succ_lt_succ h), Nat.div_div_eq_div_mul, Nat.pow_succ, Nat.mul_comm 256]

end

section
variable {s : State} {r : Requester} {a : Nat} {wide : Bool} {v : W64}

/-- An aligned write from outside a program is a write of control space. -/
theorem exec_registerWrite (hr : s.dev.running = true) (ha : controlAligned a wide = true) :
    exec (.genericRegisterWrite r a wide (some v)) s = .next { s with
      mem := (controlWrite s.fuses r a wide v (s.mem, s.dev)).1, dev := (controlWrite s.fuses r a wide v (s.mem, s.dev)).2 } := by
  simp only [exec, execGenericRegisterWrite, onAll, hr, ha, Bool.and_self, if_true]

theorem exec_registerRead (hr : s.dev.running = true) (ha : controlAligned a wide = true) :
    exec (.genericRegisterWrite r a wide none) s = .next { s with dev :=
      (controlRead s.fuses s.board.tProgUs s.mem.setWindow r a wide s.dev).2.emit (.readData (leBytes (if wide then 8 else 4)
        (controlRead s.fuses s.board.tProgUs s.mem.setWindow r a wide s.dev).1)) } := by
  simp only [exec, execGenericRegisterWrite, onAll, hr, ha, Bool.and_self, if_true]

theorem exec_registerWrite_failsafe (hs : s.dev.failsafe = true) : exec (.genericRegisterWrite r a wide (some v)) s = .next s := by
  simp only [exec, execGenericRegisterWrite, onAll, controlWrite_failsafe (x := (s.mem, s.dev)) hs, ite_self]

theorem exec_mwr {ctx : CtxId} {i : Nat} {c : Coach} (h : s.dev.At ctx i c 0x41) (hc : c.control c.current = some (a, wide)) :
    exec (.mwr ctx) s = .next { s with
      mem := (controlWrite s.fuses (engineOf c.context) a wide (c.run.reg c.current.b) (s.mem, s.dev)).1
      dev := ((controlWrite s.fuses (engineOf c.context) a wide (c.run.reg c.current.b) (s.mem, s.dev)).2.endWith i stOk id).onCoach
        i fun c => { c with acted := true } } := by
  simp only [exec, execMwr, onAll, h.running, h.path, h.free, h.steps, h.opcode, beq_self_eq_true, decide_true, Bool.and_self,
    if_true, mwrEffect, hc]

end

/-- Settles O53, from what a write of control space can do. -/
theorem registersAreWritten : Obligations.RegistersAreWritten := by
  refine ⟨fun s who v hr hs => ?_, fun s who a v hr hs hw hlo hhi ha => ?_, fun s a wide v hr hs hlt ha hlo hgap => ?_,
    fun s who a wide hr ha => ⟨fun hreach => ?_, fun hreach => ?_⟩, fun s who a wide v hs => exec_registerWrite_failsafe hs,
    fun s ctx i c h hs hc => ?_, fun s ctx i a wide c h hs hc => ?_⟩
  · rw [exec_registerWrite hr (by decide), controlWrite_scratch hs]
    rfl
  · have hwin : inSetWindow a = true := by simp [inSetWindow]; omega
    have hal : controlAligned a true = true := by simp [controlAligned]; omega
    rw [exec_registerWrite hr hal, controlWrite_setWindow hs hw hwin]
    refine ⟨_, rfl, rfl, rfl, rfl, fun k hk => ?_, fun y hy => ?_⟩
    · rw [Mem.read_writeBytes_in _ _ _ _ (by rw [leBytes_length]; exact hk), leBytes_getElem _ _ _ hk]
    · exact Mem.read_writeBytes_out _ _ _ _ (by rw [leBytes_length]; exact hy)
  · have hreach : pf0Reaches a = false := by simp [pf0Reaches]; omega
    have hal : controlAligned a wide = true := by cases wide <;> simp [controlAligned] <;> omega
    rw [exec_registerWrite hr hal, controlWrite_blocked hs hreach]
    rfl
  · obtain ⟨-, -, -, hstore⟩ := Dev.afterRead_keep a s.dev
    have hout : (s.dev.afterRead a).out = s.dev.out := by unfold Dev.afterRead; split <;> rfl
    refine ⟨_, exec_registerRead hr ha, ?_, ?_⟩
    · rw [controlRead_reaching hreach, Dev.emit, hout]
    · rw [controlRead_reaching hreach]
      exact hstore
  · rw [exec_registerRead hr ha, controlRead_blocked hreach]
    rfl
  · have hexec := exec_mwr h hc
    rw [controlWrite_scratch (x := (s.mem, s.dev)) hs] at hexec
    exact ⟨_, c.answered stOk, hexec, Dev.acted_endWith stOk h.coach, rfl, rfl, rfl⟩
  · have hexec := exec_mwr h hc
    rw [controlWrite_failsafe (x := (s.mem, s.dev)) hs] at hexec
    exact ⟨_, _, hexec, (Dev.becomes_endWith stOk id h.coach).onCoach _, rfl⟩

end Sys2Proof.Machine
end

section
/-!
PROOFS. A selection of a namespace that meets a fault of the array.
-/
namespace Sys2Proof.Machine

/-! ## A selection that meets a fault of the array (O19) -/

/-- A coach in context 0 at an NSP of namespace 5. -/
def selectingCoach : Coach := { stage := .running, ctx := some 0, program := [wordOf 0x21 0 0 0 0 5] }

/-- A device in service that runs it, whose classification bank holds a row of bad parity. -/
def struckSelection : State :=
  { dev := { pins := { stage := .running }, chip := { state := 1 }, store := { banks := [(3, { struck := [(0, 1)] })] }
             eng := { coaches := [(0, selectingCoach)] } } }

theorem struckSelection_at : struckSelection.dev.At 0 0 selectingCoach 0x21 :=
  ⟨rfl, rfl, rfl, rfl, Nat.zero_lt_succ _, rfl⟩

/-- The search of the access rule would meet the struck row, so NSP does not answer (R157). -/
theorem nsp_struckSelection : exec (.nsp 0) struckSelection = .next struckSelection := rfl

/-- Refutes O19: namespace 5 is not ACTIVE, and still NSP does not answer `NAMESPACE_UNKNOWN`, since the search of its access
rule meets a row of bad parity; no clause keeps such a row out. -/
theorem not_responseAndSelection : ¬ Obligations.ResponseAndSelection := by
  intro h
  obtain ⟨-, -, -, -, hnsp, -⟩ := h
  obtain ⟨-, hrefused⟩ := hnsp struckSelection 0 0 _ 5 struckSelection_at (by decide) (by decide)
  obtain ⟨d', c', hexec, hc, -, hstatus, -⟩ := hrefused (.inl (by decide))
  rw [nsp_struckSelection] at hexec
  injection hexec with hstate
  have hdev : struckSelection.dev = d' := congrArg State.dev hstate
  subst hdev
  rw [struckSelection_at.coach] at hc
  cases hc
  exact absurd hstatus (by decide)

end Sys2Proof.Machine
end

section
/-!
PROOFS. Admission and dispatch of coaches.
-/
namespace Sys2Proof.Machine

/-! ## Admission (R35, R66, R237, R248) -/

section
variable {d : Dev} {i : Nat} {c : Coach}

/-- What waking leaves for an admission to look at. -/
theorem Dev.wakeForRequest_keep (d : Dev) : d.wakeForRequest.eng = d.eng ∧ d.wakeForRequest.net = d.net ∧
    d.wakeForRequest.nv = d.nv :=
  have h := Dev.wakeForRequest_mask (T := { evt := true, life := true, pcie := true }) rfl rfl rfl d
  ⟨Dev.eng_of_mask h rfl, Dev.net_of_mask h rfl, Dev.nv_of_mask h rfl⟩

theorem Dev.boundStream_congr {e : Dev} (h : e.net = d.net) (x : Source) : e.boundStream x = d.boundStream x := by
  unfold Dev.boundStream
  rw [h]

theorem Dev.coach?_stamped (j : Nat) (e : Dev) :
    (e.onEng fun e => { e with nextStamp := e.nextStamp + 1 }).coach? j = e.coach? j := rfl

theorem Dev.sevenFull_congr {e : Dev} (h : e.eng = d.eng) (r : Nat) : e.sevenFull r = d.sevenFull r := by
  unfold Dev.sevenFull
  rw [h]

/-- The coach once it is admitted. -/
def Dev.admitted (d : Dev) (c : Coach) : Coach :=
  { c with
    stage := .admitted, home := d.homeRegion c, cls := d.admissionClass c, clsNow := d.admissionClass c
    stamp := d.eng.nextStamp, streamHeld := d.boundStream c.source
    classWait := d.admissionClass c == 7 && d.sevenFull (d.homeRegion c) }

/-- The home region and the class under which a coach asks to be admitted. -/
def Dev.asking (d : Dev) (i : Nat) (c : Coach) : Dev :=
  d.onCoach i fun x => { x with home := d.homeRegion c, cls := d.admissionClass c, clsNow := d.admissionClass c }

variable (hc : d.coach? i = some c) (hst : c.stage = .arrived)
  (ho : (if c.privileged then d.managementOpen else d.serving) = true)
include hc hst ho

theorem admitEffect_closed (hp : c.privileged = false) (hr : d.closedRegion (d.homeRegion c) = true) :
    admitEffect i d = (d.asking i c).endCoach i stUnavailable true := by
  have hbad : (c.stage != .arrived || !(if c.privileged then d.managementOpen else d.serving)) = false := by
    rw [hst, ho]; rfl
  have hclosed : ((!c.privileged && d.closedRegion (d.homeRegion c)) || d.pfail.flush != .none) = true := by rw [hp, hr]; rfl
  simp only [admitEffect, hc, hbad, hclosed, Bool.false_eq_true, if_false, if_true]
  rfl

theorem admitEffect_open (hf : d.pfail.flush = .none) (hr : c.privileged = true ∨ d.closedRegion (d.homeRegion c) = false)
    (hq : d.queueRoom c (d.homeRegion c) (d.admissionClass c) = true) :
    (admitEffect i d).coach? i = some (d.admitted c) ∧ (admitEffect i d).eng.nextStamp = d.eng.nextStamp + 1 ∧
      (admitEffect i d).nv = d.nv := by
  have hbad : (c.stage != .arrived || !(if c.privileged then d.managementOpen else d.serving)) = false := by
    rw [hst, ho]; rfl
  have hopen : ((!c.privileged && d.closedRegion (d.homeRegion c)) || d.pfail.flush != .none) = false := by
    rw [hf]
    rcases hr with h | h <;> simp [h]
  obtain ⟨heng, hnet, hnv⟩ := d.wakeForRequest_keep
  have hbound := Dev.boundStream_congr hnet c.source
  have hseven := Dev.sevenFull_congr heng (d.homeRegion c)
  have hco : d.wakeForRequest.coach? i = some c := (congrArg (·.coaches.get? i) heng).trans hc
  simp only [admitEffect, hc, hbad, hopen, hq, Bool.not_true, Bool.false_eq_true, if_false, hbound, hseven]
  rw [← heng]
  generalize d.wakeForRequest = e at heng hnv hco ⊢
  refine ⟨?_, rfl, hnv⟩
  rw [Dev.coach?_stamped, Dev.coach?_onCoach, hco, Option.map_some, Dev.admitted, heng]

end

/-! ## Dispatch (R33, R34, R41) -/

section
variable {d : Dev} {i k : Nat} {c : Coach}

theorem Dev.coach?_start (x : Nat) (h : d.coach? i = some c) (hfresh : c.faults = 0) (hs : c.saved = none) :
    (d.start i x).coach? i = some { c with
      stage := .running, ctx := some x, cluster := clusterOf x, started := d.chip.tick
      timeout := (d.cluster (clusterOf x)).timeout.toNat, given := none, run := c.freshRun
      loaded := if c.defaultNs = 0 then [] else [c.defaultNs] } := by
  rw [Dev.start, Dev.coach?_onCoach, h, Option.map_some]
  simp only [hfresh, hs, Option.isSome_none, bne_self_eq_false, Bool.or_self, Bool.false_eq_true, if_false, Option.getD_none]

/-- A coach that is rejected, before it ends. -/
def Dev.rejecting (i k at_ : Nat) (d : Dev) : Dev :=
  (d.onCluster k fun x => { x with rejects := bump x.rejects }).onCoach i fun c => { c with run := { c.run with last := at_ } }

theorem Dev.coach?_rejecting (at_ : Nat) (h : d.coach? i = some c) :
    (d.rejecting i k at_).coach? i = some { c with run := { c.run with last := at_ } } := by
  rw [Dev.rejecting, Dev.coach?_onCoach, Dev.coach?_onCluster, h]
  rfl

theorem Coach.unset_last (c : Coach) : c.unset.run.last = c.run.last := by
  unfold Coach.unset; split <;> rfl

/-- The end of a coach rejects none. -/
theorem Dev.endCoach_rejects (st : Byte) (t : Bool) (d : Dev) : ((d.endCoach i st t).cluster k).rejects = (d.cluster k).rejects := by
  have hdis : (d.dissolve i).cluster k = d.cluster k := congrArg (fun t => Tab.get ({} : Cluster) t k) (d.dissolve_clusters i)
  rw [Dev.endCoach, ← hdis]
  simp only []
  split
  · rfl
  · next x _ =>
    by_cases hx : k = x
    · subst hx
      rw [Dev.cluster_onCluster]
      rfl
    · rw [Dev.cluster_onCluster_ne _ _ hx]
      rfl

variable (hc : d.coach? i = some c) (hst : c.stage = .admitted) (hp : d.pathRuns c.privileged = true)
  (hw : d.pcie.wakeTick ≤ d.chip.tick) (hm : d.mustWait i c = false) (hk : d.clusterFor c = some k)
include hc hst hp hw hm hk

/-- Dispatch of a coach whose turn it is. -/
theorem dispatchEffect_eq : dispatchEffect i d = match c.rejection with
    | some (st, at_) => (d.rejecting i k at_).endCoach i st true
    | none => match d.chooseContext k c.cls c.classWait with
      | none => d.when (!c.privileged) (Dev.onCoach i fun c => { c with given := some k })
      | some x => d.start i x := by
  have hbad : (c.stage != .admitted || !d.pathRuns c.privileged || decide (d.chip.tick < d.pcie.wakeTick) || d.mustWait i c) =
      false := by
    simp [hst, hp, hw, hm]
  simp only [dispatchEffect, hc, hbad, hk, Bool.false_eq_true, if_false]
  rfl

end

/-- Settles O16, from the ends of an admission and of a dispatch. -/
theorem coachesAreAdmittedAndDispatched : Obligations.CoachesAreAdmittedAndDispatched := by
  refine ⟨fun s i c hc hst ho hf => ⟨fun hr hq => ?_, fun hp hr => ?_⟩, fun s i k c hc hst hp hw hm hk =>
    ⟨fun x hrej hx hfresh hs => ?_, fun hrej hx hpriv => ?_, fun st at_ hrej => ?_⟩⟩
  · exact ⟨_, rfl, admitEffect_open hc hst ho hf hr hq⟩
  · have hco := Dev.endCoach_terminal (d := s.dev.asking i c) stUnavailable (by rw [Dev.asking, Dev.coach?_onCoach, hc]; rfl)
    obtain ⟨c', hc', hstage, hfinal, hresp, -⟩ := hco
    refine ⟨admitEffect i s.dev, c', rfl, ?_, hstage, hfinal, hresp⟩
    rw [admitEffect_closed hc hst ho hp hr, hc']
  · have heq : dispatchEffect i s.dev = s.dev.start i x := by rw [dispatchEffect_eq hc hst hp hw hm hk, hrej, hx]
    refine ⟨dispatchEffect i s.dev, _, rfl, heq ▸ Dev.coach?_start x hc hfresh hs, rfl, rfl, rfl, rfl, rfl, rfl, fun j hj => ?_⟩
    rw [heq, Dev.start, Dev.coach?_onCoach_ne _ _ hj]
  · have heq : dispatchEffect i s.dev = s.dev.onCoach i fun c => { c with given := some k } := by
      rw [dispatchEffect_eq hc hst hp hw hm hk, hrej, hx, hpriv]
      rfl
    refine ⟨dispatchEffect i s.dev, rfl, ?_, fun j hj => ?_⟩
    · rw [heq, Dev.coach?_onCoach, hc]
      rfl
    · rw [heq, Dev.coach?_onCoach_ne _ _ hj]
  · have heq : dispatchEffect i s.dev = (s.dev.rejecting i k at_).endCoach i st true := by
      rw [dispatchEffect_eq hc hst hp hw hm hk, hrej]
    obtain ⟨hend, -⟩ := Dev.endCoach_coach st true (Dev.coach?_rejecting (k := k) at_ hc)
    refine ⟨dispatchEffect i s.dev, _, rfl, heq ▸ hend, rfl, rfl, Coach.unset_last _, rfl, ?_⟩
    rw [heq, Dev.endCoach_rejects]
    simp [Dev.rejecting, Dev.cluster]

end Sys2Proof.Machine
end

section
/-!
PROOFS. What a message of the endpoint leaves, and the queue commands (O46).
-/
namespace Sys2Proof.Machine

/-! ## What a message of the endpoint leaves (R336, R349) -/

/-- The endpoint without its functions and the output that they hold. -/
def Pcie.mute (p : Pcie) : Pcie := { p with pf0 := {}, pf1 := {}, heldPf0 := [], heldPf1 := [] }

theorem Pcie.fields_of_mute {p q : Pcie} (h : p.mute = q.mute) : p.queues = q.queues ∧ p.qresult = q.qresult ∧
    p.abortAsk = q.abortAsk ∧ p.abortWait = q.abortWait ∧ p.deletingQ = q.deletingQ ∧ p.mboxCmd = q.mboxCmd ∧
    p.mboxStatus = q.mboxStatus ∧ p.mboxResult = q.mboxResult ∧ p.reads = q.reads ∧ p.quarantine = q.quarantine ∧
    p.cmds = q.cmds := by
  have hf : ∀ {β : Type} (f : Pcie → β), (∀ x, f x.mute = f x) → f p = f q := fun f hx => by rw [← hx p, h, hx]
  exact ⟨hf _ fun _ => rfl, hf _ fun _ => rfl, hf _ fun _ => rfl, hf _ fun _ => rfl, hf _ fun _ => rfl, hf _ fun _ => rfl,
    hf _ fun _ => rfl, hf _ fun _ => rfl, hf _ fun _ => rfl, hf _ fun _ => rfl, hf _ fun _ => rfl⟩

section
variable (d : Dev)
theorem Dev.sendHeld_mute (fn : Nat) (h : Held) (o : Output) : (d.sendHeld fn h o).pcie.mute = d.pcie.mute := by
  unfold Dev.sendHeld
  split
  · rfl
  · split
    · by_cases hf : fn = 0 <;> simp [Dev.onPcie, Pcie.mute, hf]
    · rfl

theorem Dev.onFn_mute (fn : Nat) (f : PcieFunction → PcieFunction) : (d.onFn fn f).pcie.mute = d.pcie.mute := by
  by_cases hf : fn = 0 <;> simp [Dev.onFn, Dev.onPcie, Pcie.mute, hf]

theorem Dev.raise_mute (fn v : Nat) : (d.raise fn v).pcie.mute = d.pcie.mute := by
  unfold Dev.raise
  simp only []
  split
  · rfl
  · split
    · exact d.onFn_mute ..
    · exact d.sendHeld_mute ..

/-- The device whose queue command has its result. -/
def Dev.resulted (st : Byte) : Dev := d.onPcie fun p => { p with qresult := { valid := true, busy := false, status := st } }

theorem Dev.queueResult_mute (st : Byte) : (d.queueResult st).pcie.mute = (d.resulted st).pcie.mute := Dev.raise_mute ..

theorem Dev.queueResult_pcie (st : Byte) : (d.queueResult st).pcie.qresult = { valid := true, busy := false, status := st } ∧
    (d.queueResult st).pcie.queues = d.pcie.queues ∧ (d.queueResult st).pcie.abortAsk = d.pcie.abortAsk ∧
    (d.queueResult st).pcie.deletingQ = d.pcie.deletingQ := by
  obtain ⟨hq, hr, ha, -, hd, -⟩ := Pcie.fields_of_mute (d.queueResult_mute st)
  exact ⟨hr, hq, ha, hd⟩
end

/-! ## Queue commands (R322 to R324, R333) -/

section
variable {s : State} {f : Dev → Dev}

theorem queueCommand_busy {d : Dev} (h : d.pcie.qresult.busy = true ∨ d.pcie.qresult.valid = true) :
    queueCommand f d = d.onPcie fun p => { p with cmdIgnored := bump p.cmdIgnored } := by
  rw [queueCommand, if_pos (by simpa using h)]

theorem whenLive_queueCommand (hl : s.dev.live = true) (hb : s.dev.pcie.qresult.busy = false)
    (hv : s.dev.pcie.qresult.valid = false) : whenLive (queueCommand f) s = .next { s with dev := f s.dev } := by
  rw [whenLive_pos hl, queueCommand, hb, hv]
  rfl

end

section
variable {d : Dev} {q key i : Nat} {cid : W16} {x : QueuePair} {c : Command} {k : Coach}

/-- What an abort asks of its queue. -/
def Dev.aborting (q : Nat) (cid : W16) (d : Dev) : Dev := d.queueBusy.onPcie fun p => { p with abortAsk := some (q, cid) }

/-- The device whose abort decides. -/
def Dev.deciding (q : Nat) (cid : W16) (d : Dev) : Dev := (d.aborting q cid).onPcie fun p => { p with abortAsk := none }

theorem queueAbortEffect_eq (hx : d.queue? d.pcie.qpId = some x) :
    queueAbortEffect cid d = (d.aborting d.pcie.qpId cid).abortStep := by
  rw [queueAbortEffect, if_neg (by rw [hx]; simp)]
  rfl

/-- An abort with entries left to fetch waits for them. -/
theorem Dev.abortStep_waits (hx : d.queue? q = some x) (he : x.error = false) (hf : x.fetching = true) :
    (d.aborting q cid).abortStep = d.aborting q cid := by
  have hq : (d.aborting q cid).queue? q = some x := hx
  have ha : (d.aborting q cid).pcie.abortAsk = some (q, cid) := rfl
  generalize d.aborting q cid = e at hq ha ⊢
  simp [Dev.abortStep, ha, hq, he, hf]

/-- An abort with nothing left to fetch decides. -/
theorem Dev.abortStep_decides (hx : d.queue? q = some x)
    (he : x.error = true ∨ (x.fetching = false ∧ x.sqHead = x.sqTail)) :
    (d.aborting q cid).abortStep = (d.deciding q cid).decideAbort q cid := by
  have hmore : (!x.error && (x.fetching || x.sqHead != x.sqTail)) = false := by
    rcases he with h | ⟨h, h'⟩
    · simp [h]
    · simp [h, h']
  have hq : (d.aborting q cid).queue? q = some x := hx
  have ha : (d.aborting q cid).pcie.abortAsk = some (q, cid) := rfl
  have hd : d.deciding q cid = (d.aborting q cid).onPcie fun p => { p with abortAsk := none } := rfl
  rw [hd]
  generalize d.aborting q cid = e at hq ha ⊢
  simp only [Dev.abortStep, ha, hq, hmore, Bool.false_eq_true, if_false]

theorem Dev.decideAbort_none (hx : d.queue? q = some x) (hc : x.commands.find? (fun e => e.2.sub.cid == cid) = none) :
    d.decideAbort q cid = d.queueResult stAlreadyComplete := by
  simp only [Dev.decideAbort, hx, Option.bind_some, hc]

theorem Dev.decideAbort_coached (hx : d.queue? q = some x)
    (hc : x.commands.find? (fun e => e.2.sub.cid == cid) = some (key, c)) (hs : c.stage = .coached i) :
    d.decideAbort q cid = (d.abortCoach i).2.onPcie fun p => { p with abortWait := some (q, key, (d.abortCoach i).1) } := by
  simp only [Dev.decideAbort, hx, Option.bind_some, hc, hs]

/-- The coach that an abort ends. -/
def Coach.abortedBy (c : Coach) : Coach :=
  { c.unset with
    stage := .ended, ctx := none, wait := .none, final := stAborted, given := none, aborted := true
    run := { c.unset.run with resp := [] } }

theorem Coach.abortedBy_acks (c : Coach) : c.abortedBy.acks = c.acks := by
  unfold Coach.abortedBy Coach.unset
  split <;> rfl

/-- A coach that has not passed its commit point is aborted (R54). -/
theorem Dev.abortCoach_open (hk : d.coach? i = some k) (hs : k.stage ≠ .ended) (hf : k.run.flags.committed = false) :
    (d.abortCoach i).1 = stOk ∧ (d.abortCoach i).2.coach? i = some k.abortedBy := by
  have hgo : (k.stage == .ended || k.run.flags.committed) = false := by simp [hs, hf]
  have hend : ∀ e : Dev, e.coach? i = some k →
      ((e.endCoach i stAborted true).onCoach i fun c => { c with aborted := true }).coach? i = some k.abortedBy := fun e he => by
    rw [Dev.coach?_onCoach, (Dev.endCoach_coach stAborted true he).1]
    rfl
  rw [Dev.abortCoach, Dev.coach_of_some hk, hgo]
  refine ⟨rfl, ?_⟩
  simp only [Bool.false_eq_true, if_false]
  split
  · exact hend _ hk
  · exact hend _ hk

/-- An abort of an open coach ends it and waits to post what became of it. -/
theorem Dev.abortStep_aborts (hx : d.queue? q = some x) (he : x.error = true ∨ (x.fetching = false ∧ x.sqHead = x.sqTail))
    (hc : x.commands.find? (fun e => e.2.sub.cid == cid) = some (key, c)) (hs : c.stage = .coached i)
    (hk : d.coach? i = some k) (hks : k.stage ≠ .ended) (hkf : k.run.flags.committed = false) :
    ∃ e : Dev, e.coach? i = some k.abortedBy ∧
      (d.aborting q cid).abortStep = e.onPcie fun p => { p with abortWait := some (q, key, stOk) } := by
  have hx' : (d.deciding q cid).queue? q = some x := hx
  have hk' : (d.deciding q cid).coach? i = some k := hk
  rw [Dev.abortStep_decides hx he]
  generalize d.deciding q cid = e at hx' hk'
  obtain ⟨hst, hend⟩ := Dev.abortCoach_open hk' hks hkf
  refine ⟨(e.abortCoach i).2, hend, ?_⟩
  rw [Dev.decideAbort_coached hx' hc hs, hst]

end

/-- Settles O46, from what each command leaves of the endpoint. -/
theorem queueCommandsRun : Obligations.QueueCommandsRun := by
  refine ⟨fun s fn cid hl hb c hc => ?_, fun s fn q hl hb hv hq => ⟨?_, fun x hx => ?_, fun hx => ?_, fun x cid hx he hc => ?_,
    fun x cid key i c k hx he hc hs hk hks hkf => ?_, fun x cid hx he hf => ?_⟩, fun s q x hl hd hx hc hf => ?_,
    fun s fn hl hv => whenLive_guarded hl hv⟩
  · rcases hc with rfl | rfl | rfl <;> exact (whenLive_pos hl).trans (congrArg (fun d => Host.Outcome.next { s with dev := d }) (queueCommand_busy hb))
  · subst hq
    have hexec : exec (.queueCreate fn) s = .next { s with dev := queueCreateEffect s.dev } := whenLive_queueCommand hl hb hv
    obtain ⟨hres, hqs, -, -⟩ := Dev.queueResult_pcie
      (if s.dev.pcie.createStatus = stOk then s.dev.onPcie fun p => { p with queues := p.queues.set p.qpId p.newQueue } else s.dev)
      s.dev.pcie.createStatus
    refine ⟨_, hexec, hres, fun h0 => ?_, fun h0 => ?_⟩
    · rw [Dev.queue?, queueCreateEffect, hqs, if_pos (show _ = stOk from h0)]
      exact Tab.get?_set_self ..
    · rw [queueCreateEffect, hqs, if_neg (show ¬ _ = stOk from h0)]
  · subst hq
    have hexec : exec (.queueDelete fn) s = .next { s with dev := queueDeleteEffect s.dev } := whenLive_queueCommand hl hb hv
    have heff : (queueDeleteEffect s.dev).pcie = { s.dev.pcie with
        queues := s.dev.pcie.queues.adjust s.dev.pcie.qpId fun x => { x with deleting := true }
        qresult := { valid := false, busy := true, status := stNotReady }, deletingQ := some s.dev.pcie.qpId } := by
      rw [queueDeleteEffect, show s.dev.queue? s.dev.pcie.qpId = some x from hx]
      simp only [Dev.onPcie, Dev.queueBusy, Dev.closeStreamsOf_pcie]
      rfl
    refine ⟨_, hexec, ?_⟩
    rw [Dev.queue?, heff]
    refine ⟨?_, rfl, rfl, rfl⟩
    exact (Tab.get?_adjust_self s.dev.pcie.queues s.dev.pcie.qpId fun x => { x with deleting := true }).trans
      (congrArg (Option.map fun x => { x with deleting := true }) hx)
  · subst hq
    have hexec : exec (.queueDelete fn) s = .next { s with dev := s.dev.queueResult 0x40 } := by
      refine (whenLive_queueCommand hl hb hv).trans ?_
      simp only [queueDeleteEffect, show s.dev.queue? s.dev.pcie.qpId = none from hx]
    obtain ⟨hres, hqs, -, -⟩ := s.dev.queueResult_pcie 0x40
    exact ⟨_, hexec, hres, hqs⟩
  · subst hq
    have hx' : s.dev.queue? s.dev.pcie.qpId = some x := hx
    have hexec : exec (.queueAbort fn cid) s =
        .next { s with dev := (s.dev.deciding s.dev.pcie.qpId cid).queueResult stAlreadyComplete } := by
      refine (whenLive_queueCommand hl hb hv).trans ?_
      rw [queueAbortEffect_eq hx', Dev.abortStep_decides hx' he, Dev.decideAbort_none (d := s.dev.deciding s.dev.pcie.qpId cid) hx' hc]
    obtain ⟨hres, hqs, hask, -⟩ := (s.dev.deciding s.dev.pcie.qpId cid).queueResult_pcie stAlreadyComplete
    exact ⟨_, hexec, hres, hask, hqs⟩
  · subst hq
    have hx' : s.dev.queue? s.dev.pcie.qpId = some x := hx
    obtain ⟨e, hend, heff⟩ := Dev.abortStep_aborts hx' he hc hs hk hks hkf
    refine ⟨e.onPcie fun p => { p with abortWait := some (s.dev.pcie.qpId, key, stOk) }, k.abortedBy, ?_, hend, rfl, rfl, rfl, rfl⟩
    refine (whenLive_queueCommand hl hb hv).trans ?_
    rw [queueAbortEffect_eq hx', heff]
  · subst hq
    have hx' : s.dev.queue? s.dev.pcie.qpId = some x := hx
    have hexec : exec (.queueAbort fn cid) s = .next { s with dev := s.dev.aborting s.dev.pcie.qpId cid } := by
      refine (whenLive_queueCommand hl hb hv).trans ?_
      rw [queueAbortEffect_eq hx', Dev.abortStep_waits hx' he hf]
    exact ⟨_, hexec, rfl, rfl⟩
  · have hexec : exec .queueDeleteDone s = .next { s with dev :=
        (s.dev.onPcie fun p => { p with queues := p.queues.erase q, deletingQ := none }).queueResult stOk } := by
      refine (whenLive_pos hl).trans ?_
      simp only [hd, hx, hc, hf, List.isEmpty_nil, Bool.not_false, Bool.and_self, if_true]
    obtain ⟨hres, hqs, -, hdel⟩ := (s.dev.onPcie fun p => { p with queues := p.queues.erase q, deletingQ := none }).queueResult_pcie stOk
    refine ⟨_, hexec, ?_, hdel, hres⟩
    rw [Dev.queue?, hqs]
    exact Tab.get?_erase_self ..

end Sys2Proof.Machine
end

section
/-!
PROOFS. What the fetch machinery leaves of the endpoint; doorbells, fetches and reads of the host (O45).
-/
namespace Sys2Proof.Machine

/-! ## What the fetch machinery leaves of the endpoint (R322 to R341)

Commands that are read, fail, or become coaches move through their queue, the mailbox, the outstanding reads and the
messages that they cause. Everything else of the endpoint stands still. -/

/-- A queue without its commands and the place of its next completion. -/
def QueuePair.still (x : QueuePair) : QueuePair := { x with commands := [], cqTail := 0, phase := true, armed := true }

/-- The endpoint without what a command on its way moves. -/
def Pcie.still (p : Pcie) : Pcie :=
  { p with
    pf0 := { p.pf0 with msixPending := [] }, pf1 := { p.pf1 with msixPending := [] }, heldPf0 := [], heldPf1 := [], reads := []
    queues := p.queues.mapVals fun _ x => x.still, mboxCmd := none, mboxStatus := {}, mboxResult := none
    abortAsk := none, abortWait := none, qresult := {}, cmds := 0 }

theorem Tab.mapVals_adjust {α : Type} {g f : α → α} (h : ∀ x, g (f x) = g x) (t : Tab α) (k : Nat) :
    (t.adjust k f).mapVals (fun _ x => g x) = t.mapVals fun _ x => g x := by
  simp only [Tab.mapVals, Tab.adjust, List.map_map]
  refine List.map_congr_left fun e _ => ?_
  by_cases he : e.1 = k <;> simp [he, h]

theorem Tab.get?_mapVals {α : Type} (g : α → α) (t : Tab α) (k : Nat) :
    (t.mapVals fun _ x => g x).get? k = (t.get? k).map g := by
  induction t with
  | nil => rfl
  | cons e t ih =>
    simp only [Tab.mapVals, List.map_cons, Tab.get?] at ih ⊢
    split
    · rfl
    · exact ih

theorem Dev.queue?_onQueue_of {d : Dev} {q : Nat} {x : QueuePair} (h : d.queue? q = some x) (f : QueuePair → QueuePair) :
    (d.onQueue q f).queue? q = some (f x) := by
  rw [Dev.queue?_onQueue, h]
  rfl

theorem Dev.queue?_onQueue_ne (d : Dev) {q k : Nat} (h : k ≠ q) (f : QueuePair → QueuePair) :
    (d.onQueue q f).queue? k = d.queue? k := Tab.get?_adjust_ne _ _ h

theorem Pcie.still_facts {p q : Pcie} (h : p.still = q.still) :
    p.quarantine = q.quarantine ∧ p.cplTimeouts = q.cplTimeouts ∧ p.dbInvalid = q.dbInvalid ∧
      (∀ i, (p.fn i).aerUncorr = (q.fn i).aerUncorr) ∧ ∀ k, (p.queues.get? k).map QueuePair.still = (q.queues.get? k).map QueuePair.still := by
  have hf : ∀ {β : Type} (f : Pcie → β), (∀ x, f x.still = f x) → f p = f q := fun f hx => by rw [← hx p, h, hx]
  refine ⟨hf _ fun _ => rfl, hf _ fun _ => rfl, hf _ fun _ => rfl, fun i => hf (fun p => (p.fn i).aerUncorr) fun x => ?_, fun k => ?_⟩
  · simp only [Pcie.fn]
    split <;> rfl
  · rw [← Tab.get?_mapVals, ← Tab.get?_mapVals]
    exact congrArg (fun p : Pcie => p.queues.get? k) h

section
variable (d : Dev)

theorem Dev.onQueue_still (q : Nat) {f : QueuePair → QueuePair} (h : ∀ x, (f x).still = x.still) :
    (d.onQueue q f).pcie.still = d.pcie.still := by
  simp only [Dev.onQueue, Dev.onPcie, Pcie.still, Tab.mapVals_adjust h]

theorem Dev.onCommand_still (q key : Nat) (f : Command → Command) : (d.onCommand q key f).pcie.still = d.pcie.still := by
  unfold Dev.onCommand
  split
  · rfl
  · refine d.onQueue_still q ?_
    exact fun _ => rfl

theorem Dev.sendHeld_still (fn : Nat) (h : Held) (o : Output) : (d.sendHeld fn h o).pcie.still = d.pcie.still := by
  unfold Dev.sendHeld
  split
  · rfl
  · split
    · by_cases hf : fn = 0 <;> simp [Dev.onPcie, Pcie.still, hf]
    · rfl

theorem Dev.raise_still (fn v : Nat) : (d.raise fn v).pcie.still = d.pcie.still := by
  unfold Dev.raise
  simp only []
  split
  · rfl
  · split
    · by_cases hf : fn = 0
      · simp only [Dev.onFn, Dev.onPcie, Pcie.still, hf, if_true]
        split <;> rfl
      · simp only [Dev.onFn, Dev.onPcie, Pcie.still, hf, if_false]
        split <;> rfl
    · exact d.sendHeld_still ..

theorem Dev.raised_still (c : Bool) (v : Nat) : (if c then d.raise 0 v else d).pcie.still = d.pcie.still := by
  split
  · exact d.raise_still ..
  · rfl

theorem Dev.issue_still (r : DmaRead) : (d.issue r).pcie.still = d.pcie.still := by
  unfold Dev.issue
  split <;> rfl

theorem Dev.askTranslation_still (q : Nat) (key : Option Nat) (a : Nat) : (d.askTranslation q key a).pcie.still = d.pcie.still := by
  unfold Dev.askTranslation
  simp only []
  split
  · rfl
  · exact d.issue_still ..

theorem Dev.cmdCounted_still : (d.onPcie fun p => { p with cmds := bump p.cmds }).pcie.still = d.pcie.still := rfl

theorem Dev.queueResult_still (st : Byte) : (d.queueResult st).pcie.still = d.pcie.still := Dev.raise_still ..

theorem Dev.commandGone_still (q key : Nat) : (d.commandGone q key).pcie.still = d.pcie.still := by
  unfold Dev.commandGone
  split
  · rfl
  · split
    · exact Dev.queueResult_still ..
    · rfl

theorem Dev.mboxDone_still (c : Command) (w : W32) (st : Byte) (n b crc : Nat) :
    (d.mboxDone c w st n b crc).pcie.still = d.pcie.still := by
  unfold Dev.mboxDone
  simp only []
  split
  · exact Dev.raise_still ..
  · rfl

theorem Dev.post_still (q slot : Nat) (w : W32) (st : Byte) (n b crc : Nat) :
    (d.post q slot w st n b crc).pcie.still = d.pcie.still := by
  unfold Dev.post
  split
  · rfl
  split
  · rfl
  simp only []
  refine (Dev.commandGone_still ..).trans ?_
  refine (Dev.raised_still ..).trans ?_
  refine (Dev.cmdCounted_still _).trans ((Dev.onQueue_still _ q ?_).trans (d.sendHeld_still ..))
  exact fun _ => rfl

theorem Dev.failCommand_still (q key : Nat) (st : Byte) (c : Command) : (d.failCommand q key st c).pcie.still = d.pcie.still := by
  unfold Dev.failCommand
  simp only []
  split
  · exact d.mboxDone_still ..
  · split
    · rfl
    · split
      · exact d.askTranslation_still ..
      · exact d.post_still ..

theorem Dev.pump_still (q key : Nat) : (d.pump q key).pcie.still = d.pcie.still := by
  unfold Dev.pump
  split
  · rfl
  split
  · rfl
  simp only []
  refine (Dev.each_keep (fun e => e.pcie.still) _ _ (fun u e => ?_) _).trans (d.onCommand_still ..)
  split
  · exact e.onCommand_still ..
  · split
    · exact (Dev.onCommand_still ..).trans (e.askTranslation_still ..)
    · exact e.issue_still ..

theorem Dev.formCoach_still (q key : Nat) (c : Command) : (d.formCoach q key c).pcie.still = d.pcie.still := by
  unfold Dev.formCoach
  simp only []
  split
  · split
    · exact d.failCommand_still ..
    · exact Dev.onCommand_still ..
  · exact d.failCommand_still ..

theorem Dev.progressOnce_still (q key : Nat) : (d.progressOnce q key).pcie.still = d.pcie.still := by
  unfold Dev.progressOnce
  split
  · rfl
  split
  · rfl
  split
  · exact d.failCommand_still ..
  simp only []
  have hp := d.pump_still q key
  split
  · exact hp
  · split
    · exact hp
    · split
      · exact (Dev.formCoach_still ..).trans hp
      · exact (Dev.onCommand_still ..).trans hp

theorem Dev.progress_still (q key : Nat) : (d.progress q key).pcie.still = d.pcie.still := by
  simp only [Dev.progress, Dev.progressOnce_still]

theorem Dev.failReading_still (q key : Nat) (st : Byte) : (d.failReading q key st).pcie.still = d.pcie.still :=
  (Dev.progress_still ..).trans (d.onCommand_still ..)

theorem Dev.pumpAll_still : d.pumpAll.pcie.still = d.pcie.still := by
  unfold Dev.pumpAll
  exact Dev.each_keep (fun e => e.pcie.still) _ _ (fun (k : Nat × Nat) e => e.progress_still k.1 k.2) _

theorem Dev.abortCoach_pcie (i : Nat) : (d.abortCoach i).2.pcie = d.pcie :=
  Dev.pcie_of_mask (Dev.abortCoach_mask (T := { life := true, store := true, eng := true }) rfl rfl rfl i d) rfl

theorem Dev.awaits_still (w : Option (Nat × Nat × Byte)) : (d.onPcie fun p => { p with abortWait := w }).pcie.still = d.pcie.still := rfl

theorem Dev.decideAbort_still (q : Nat) (cid : W16) : (d.decideAbort q cid).pcie.still = d.pcie.still := by
  unfold Dev.decideAbort
  split
  · exact d.queueResult_still ..
  · simp only []
    split
    · exact (Dev.awaits_still ..).trans (congrArg Pcie.still (d.abortCoach_pcie _))
    · split
      · rfl
      · exact Dev.failReading_still ..

theorem Dev.abortStep_still : d.abortStep.pcie.still = d.pcie.still := by
  unfold Dev.abortStep
  split
  · rfl
  · exact iteInduction (motive := fun e : Dev => e.pcie.still = d.pcie.still) (fun _ => rfl) fun _ => Dev.decideAbort_still ..

theorem Dev.beginCommand_still (q : Nat) (c : Command) (clash : Bool) (pool : Mem) :
    (d.beginCommand q c clash pool).pcie.still = d.pcie.still := by
  unfold Dev.beginCommand
  simp only []
  split
  · exact d.failReading_still ..
  split
  · exact d.failReading_still ..
  split
  · exact (Dev.progress_still ..).trans (d.onCommand_still ..)
  · exact d.failReading_still ..

end

/-- The endpoint without its queues, too. -/
def Pcie.frame (p : Pcie) : Pcie := { p.still with queues := [] }

theorem Pcie.frame_facts {p q : Pcie} (h : p.frame = q.frame) :
    p.quarantine = q.quarantine ∧ p.cplTimeouts = q.cplTimeouts ∧ ∀ i, (p.fn i).aerUncorr = (q.fn i).aerUncorr := by
  have hf : ∀ {β : Type} (f : Pcie → β), (∀ x, f x.frame = f x) → f p = f q := fun f hx => by rw [← hx p, h, hx]
  refine ⟨hf _ fun _ => rfl, hf _ fun _ => rfl, fun i => hf (fun p => (p.fn i).aerUncorr) fun x => ?_⟩
  simp only [Pcie.fn]
  split <;> rfl

theorem Pcie.frame_of_still {p q : Pcie} (h : p.still = q.still) : p.frame = q.frame :=
  congrArg (fun p : Pcie => { p with queues := [] }) h

/-- A queue found after what leaves the endpoint still is the one before, but for its commands and completions. -/
theorem Dev.queue?_still {d e : Dev} {q : Nat} {x : QueuePair} (h : d.pcie.still = e.pcie.still) (hx : e.queue? q = some x) :
    ∃ y, d.queue? q = some y ∧ y.still = x.still := by
  have hq := (Pcie.still_facts h).2.2.2.2 q
  rw [show e.pcie.queues.get? q = some x from hx] at hq
  exact Option.map_eq_some_iff.mp hq

theorem QueuePair.still_facts {x y : QueuePair} (h : x.still = y.still) :
    x.sqHead = y.sqHead ∧ x.fetching = y.fetching ∧ x.error = y.error ∧ x.cause = y.cause := by
  have hf : ∀ {β : Type} (f : QueuePair → β), (∀ x, f x.still = f x) → f x = f y := fun f hx => by rw [← hx x, h, hx]
  exact ⟨hf _ fun _ => rfl, hf _ fun _ => rfl, hf _ fun _ => rfl, hf _ fun _ => rfl⟩

/-! ## Doorbells (R325, R337) -/

section
variable {s : State} {d : Dev} {q v : Nat} {x : QueuePair}

theorem Dev.badDoorbell_pcie (which : Nat) :
    (d.badDoorbell q which v).pcie = { d.pcie with dbInvalid := bump d.pcie.dbInvalid } := Dev.report_pcie ..

theorem sqTailEffect_bad (h : ∀ x, d.queue? q = some x → x.size ≤ v) : sqTailEffect q v d = d.badDoorbell q 1 v := by
  unfold sqTailEffect
  split
  · rfl
  · next x hx => rw [if_pos (h x hx)]

theorem cqHeadEffect_bad (h : ∀ x, d.queue? q = some x → x.size ≤ v) : cqHeadEffect q v d = d.badDoorbell q 2 v := by
  unfold cqHeadEffect
  split
  · rfl
  · next x hx => rw [if_pos (.inl (h x hx))]

theorem sqTailEffect_good (hx : d.queue? q = some x) (hv : v < x.size) :
    sqTailEffect q v d = d.onQueue q fun x => { x with sqTail := v } := by
  simp only [sqTailEffect, hx, Nat.not_le.mpr hv, if_false]

/-- A queue whose completions up to `v` have been consumed. -/
def QueuePair.consumed (v : Nat) (x : QueuePair) : QueuePair :=
  { x with cqHead := v, armed := x.intEn && decide (x.posted v = 0) }

theorem cqHeadEffect_good (hx : d.queue? q = some x) (hv : v < x.size) (hp : (v + x.size - x.cqHead) % x.size ≤ x.posted x.cqHead) :
    cqHeadEffect q v d = (if x.intEn && x.posted v != 0 then
      (d.onQueue q fun y => { y with cqHead := v, armed := y.intEn && !(x.intEn && x.posted v != 0) }).raise 0 x.vector
      else d.onQueue q fun y => { y with cqHead := v, armed := y.intEn && !(x.intEn && x.posted v != 0) }) := by
  simp only [cqHeadEffect, hx]
  rw [if_neg (by omega)]

end

/-- A vector that is raised leaves the queues and the invalid doorbells. -/
theorem Dev.raise_queue? (d : Dev) (fn v k : Nat) : (d.raise fn v).queue? k = d.queue? k := by
  rw [Dev.queue?, Dev.queue?, (Pcie.fields_of_mute (d.raise_mute fn v)).1]

/-! ## Answers to reads (R329, R341) -/

section
variable {s : State} {d : Dev} {q slot tag cause : Nat} {b : Bytes} {pool : Mem} {x : QueuePair} {r : DmaRead}

theorem Dev.answered_short (hr : d.pcie.reads.get? tag = some r) (hk : r.kind = .entry q slot) (hb : b.length < r.length) :
    d.answered tag (.data b) pool = d := by
  simp only [Dev.answered, hr, hk, hb, if_true]

theorem Dev.answered_entry (hr : d.pcie.reads.get? tag = some r) (hk : r.kind = .entry q slot) (hb : r.length ≤ b.length) :
    d.answered tag (.data b) pool =
      ((d.onPcie fun p => { p with reads := p.reads.erase tag }).entryArrived q (b.take r.length) pool).pumpAll := by
  simp only [Dev.answered, hr, hk, Nat.not_lt.mpr hb, if_false]

theorem Dev.answered_unsupported (hr : d.pcie.reads.get? tag = some r) (hk : r.kind = .entry q slot) :
    d.answered tag .unsupported pool = ((d.onPcie fun p => { p with reads := p.reads.erase tag }).fetchFailed q 2).pumpAll := by
  simp only [Dev.answered, hr, hk]

/-- The head of a queue after one more entry. -/
def QueuePair.nextHead (x : QueuePair) : Nat := if x.size ≤ x.sqHead + 1 then 0 else x.sqHead + 1

theorem Dev.entryArrived_deleting (hx : d.queue? q = some x) (hd : x.deleting = true) :
    (d.entryArrived q b pool).pcie.still = (d.onQueue q fun x => { x with fetching := false }).pcie.still := by
  simp only [Dev.entryArrived, hx, hd, if_true]

/-- An entry that has come moves the head of its queue. -/
theorem Dev.entryArrived_still (hx : d.queue? q = some x) (hd : x.deleting = false) :
    (d.entryArrived q b pool).pcie.still =
      (d.onQueue q fun y => { y with fetching := false, sqHead := x.nextHead }).pcie.still := by
  simp only [Dev.entryArrived, hx, hd, Bool.false_eq_true, if_false]
  refine (Dev.abortStep_still _).trans ((Dev.beginCommand_still ..).trans ?_)
  simp only [Dev.onEng, Dev.onQueue, Dev.onPcie, Pcie.still, Tab.mapVals, Tab.adjust, List.map_map]
  refine congrArg (fun l => ({ d.pcie.still with queues := l } : Pcie)) (List.map_congr_left fun e _ => ?_)
  by_cases he : e.1 = q <;> simp [he, QueuePair.still, QueuePair.nextHead]

/-- A queue in error. -/
def QueuePair.failed (cause : Nat) (x : QueuePair) : QueuePair :=
  { x with error := true, cause := BitVec.ofNat 8 cause, fetching := false }

theorem Dev.fetchFailed_still (hx : d.queue? q = some x) (he : x.error = false) :
    (d.fetchFailed q cause).pcie.still = (d.onQueue q (QueuePair.failed cause)).pcie.still := by
  refine (Dev.abortStep_still _).trans ?_
  simp only [Dev.queueError, hx, he, Bool.false_eq_true, if_false, Dev.report_pcie]
  rfl

theorem Dev.fetchFailed_frame (d : Dev) (q cause : Nat) : (d.fetchFailed q cause).pcie.frame = d.pcie.frame := by
  refine (Pcie.frame_of_still (Dev.abortStep_still _)).trans ?_
  unfold Dev.queueError
  split
  · rfl
  · split
    · rfl
    · rw [Dev.report_pcie]
      rfl

end

/-! ## Timeouts (R339, R340) -/

section
variable (d : Dev) (tag : Nat) (r : DmaRead)

/-- A timeout noted and its tag out of use, before what becomes of the command. -/
def Dev.timeoutNoted : Dev :=
  let (fn, kind, q, cid) := d.requestOf r.kind
  (((d.aer fn 14).onPcie fun p => { p with cplTimeouts := bump p.cplTimeouts }).report 8 2 0 0xB003 [fn, tag, kind, q, cid]).quarantined tag fn

theorem Dev.timedOut_frame : (d.timedOut tag r).pcie.frame = (d.timeoutNoted tag r).pcie.frame := by
  unfold Dev.timedOut
  simp only []
  split
  · exact Dev.fetchFailed_frame ..
  · exact Pcie.frame_of_still (Dev.failReading_still ..)
  · exact Dev.fetchFailed_frame ..
  · split
    · rfl
    · split
      · exact Pcie.frame_of_still (Dev.failReading_still ..)
      · exact Pcie.frame_of_still (Dev.progress_still ..)

theorem Pcie.fn_onFn (d : Dev) (fn : Nat) (f : PcieFunction → PcieFunction) : (d.onFn fn f).pcie.fn fn = f (d.pcie.fn fn) := by
  by_cases hf : fn = 0 <;> simp [Dev.onFn, Dev.onPcie, Pcie.fn, hf]

theorem Dev.timeoutNoted_facts {fn : Nat} (hfn : fn = (d.requestOf r.kind).1) :
    (d.timeoutNoted tag r).pcie.cplTimeouts = bump d.pcie.cplTimeouts ∧
      (d.timeoutNoted tag r).pcie.quarantine.get? tag = some (d.chip.tick + 4 * (d.pcie.fn fn).timeoutMs, fn) ∧
      ((d.timeoutNoted tag r).pcie.fn fn).aerUncorr = setBit (d.pcie.fn fn).aerUncorr 14 true := by
  subst hfn
  generalize hreq : d.requestOf r.kind = k
  obtain ⟨fn, kind, q, cid⟩ := k
  have haer : (d.aer fn 14).pcie.fn fn = { d.pcie.fn fn with aerUncorr := setBit (d.pcie.fn fn).aerUncorr 14 true } :=
    Pcie.fn_onFn ..
  have hcpl : (d.aer fn 14).pcie.cplTimeouts = d.pcie.cplTimeouts := by
    by_cases hf : fn = 0 <;> simp [Dev.aer, Dev.onFn, Dev.onPcie, hf]
  have hpcie : (d.timeoutNoted tag r).pcie = { (d.aer fn 14).pcie with
      cplTimeouts := bump (d.aer fn 14).pcie.cplTimeouts, reads := (d.aer fn 14).pcie.reads.erase tag
      quarantine := (d.aer fn 14).pcie.quarantine.set tag (d.chip.tick + 4 * ((d.aer fn 14).pcie.fn fn).timeoutMs, fn) } := by
    simp only [Dev.timeoutNoted, hreq, Dev.quarantined, Dev.onPcie, Dev.report_pcie, Dev.report_chip]
    rfl
  rw [hpcie]
  refine ⟨congrArg bump hcpl, ?_, ?_⟩
  · refine (Tab.get?_set_self ..).trans ?_
    rw [haer]
    rfl
  · exact congrArg PcieFunction.aerUncorr haer

end

/-- Settles O45, from what the fetch machinery leaves still. -/
theorem doorbellsFetchAndReads : Obligations.DoorbellsFetchAndReads := by
  refine ⟨⟨fun s q v hl => ⟨fun x hx hv => ?_, fun x hx hv hp => ?_, fun hbad => ⟨?_, ?_⟩⟩,
    fun s q x t r hs hfl hx hmay hd3 hats ht hr => ?_,
    fun s tag q slot r x hl hr hk hx => ⟨fun b hb => ?_, fun b hb hd => ?_, fun b hb hd => ?_, fun he => ?_⟩⟩,
    fun s tag fn r hl hr hfn hdue => ?_, fun s tag n u fn hl hq => ?_, fun s tag u fn hl hq => ⟨fun hu => ?_, fun hu => ?_⟩⟩
  · refine ⟨s.dev.onQueue q.val fun x => { x with sqTail := v.toNat }, ?_, ?_, fun k hk => ?_, rfl, rfl⟩
    · exact (whenLive_pos hl).trans (by rw [sqTailEffect_good hx hv])
    · exact Dev.queue?_onQueue_of hx _
    · exact s.dev.queue?_onQueue_ne hk _
  · refine ⟨cqHeadEffect q.val v.toNat s.dev, whenLive_pos hl, ?_, ?_, ?_⟩ <;> rw [cqHeadEffect_good hx hv hp]
    · have harm : (x.intEn && !(x.intEn && x.posted v.toNat != 0)) = (x.intEn && decide (x.posted v.toNat = 0)) := by
        cases x.intEn <;> by_cases h0 : x.posted v.toNat = 0 <;> simp [h0]
      rw [apply_ite (fun d : Dev => d.queue? q.val), Dev.raise_queue?, ite_self, Dev.queue?_onQueue_of hx, harm]
      rfl
    · split
      · rw [Dev.raise_eng]
        rfl
      · rfl
    · split
      · rw [Dev.raise_store]
        rfl
      · rfl
  · refine ⟨s.dev.badDoorbell q.val 1 v.toNat, (whenLive_pos hl).trans (by rw [sqTailEffect_bad hbad]), ?_, ?_⟩ <;>
      rw [Dev.badDoorbell_pcie]
  · refine ⟨s.dev.badDoorbell q.val 2 v.toNat, (whenLive_pos hl).trans (by rw [cqHeadEffect_bad hbad]), ?_, ?_⟩ <;>
      rw [Dev.badDoorbell_pcie]
  · have heff : fetchEffect q.val s.dev = (((s.dev.onPcie fun p => { p with reads := p.reads.set t r }).emit (.dmaRequest t r)).onQueue
        q.val fun x => { x with fetching := true }) := by
      have hissue : s.dev.issue r = (s.dev.onPcie fun p => { p with reads := p.reads.set t r }).emit (.dmaRequest t r) := by
        rw [Dev.issue, show s.dev.pcie.freeTag (s.dev.pcie.sevenQueue r.kind.queue) = some t by rw [hr]; exact ht]
      have hto : s.dev.targetOf [] (x.sqBase.toNat + 128 * x.sqHead) = some (x.sqBase.toNat + 128 * x.sqHead) := by
        simp [Dev.targetOf, hats]
      rw [← hissue, hr]
      simp [fetchEffect, hx, hmay, hd3, hfl, ht, hto]
    refine ⟨_, onDev_guarded hs, ?_, ?_, ?_⟩ <;> rw [heff]
    · exact Tab.get?_set_self ..
    · rfl
    · exact Dev.queue?_onQueue_of (x := x) hx _
  · exact (whenLive_pos hl).trans (by rw [Dev.answered_short hr hk hb])
  · have hstill := ((s.dev.onPcie fun p => { p with reads := p.reads.erase tag }).entryArrived q (b.take r.length) s.mem.pool
      |>.pumpAll_still).trans (Dev.entryArrived_deleting (x := x) hx hd)
    obtain ⟨y, hy, hys⟩ := Dev.queue?_still (x := { x with fetching := false }) hstill (Dev.queue?_onQueue_of (x := x) hx _)
    obtain ⟨hhead, hfetch, -⟩ := QueuePair.still_facts hys
    exact ⟨_, y, (whenLive_pos hl).trans (by rw [Dev.answered_entry hr hk hb]), hy, hhead, hfetch⟩
  · have hstill := ((s.dev.onPcie fun p => { p with reads := p.reads.erase tag }).entryArrived q (b.take r.length) s.mem.pool
      |>.pumpAll_still).trans (Dev.entryArrived_still (x := x) hx hd)
    obtain ⟨y, hy, hys⟩ := Dev.queue?_still (x := { x with fetching := false, sqHead := x.nextHead }) hstill (Dev.queue?_onQueue_of (x := x) hx _)
    obtain ⟨hhead, hfetch, -⟩ := QueuePair.still_facts hys
    exact ⟨_, y, (whenLive_pos hl).trans (by rw [Dev.answered_entry hr hk hb]), hy, hhead, hfetch⟩
  · have hstill := ((s.dev.onPcie fun p => { p with reads := p.reads.erase tag }).fetchFailed q 2
      |>.pumpAll_still).trans (Dev.fetchFailed_still (x := x) hx he)
    obtain ⟨y, hy, hys⟩ := Dev.queue?_still (x := x.failed 2) hstill (Dev.queue?_onQueue_of (x := x) hx _)
    obtain ⟨-, hfetch, herr, hcause⟩ := QueuePair.still_facts hys
    exact ⟨_, y, (whenLive_pos hl).trans (by rw [Dev.answered_unsupported hr hk]), hy, herr, hcause, hfetch⟩
  · have hexec : exec (.completionTimeout tag) s = .next { s with dev := s.dev.timedOut tag r } := by
      refine (whenLive_pos hl).trans ?_
      simp only [hr]
      rw [if_pos (hfn ▸ hdue)]
    obtain ⟨hq, hc, ha⟩ := Pcie.frame_facts (s.dev.timedOut_frame tag r)
    obtain ⟨hc', hq', ha'⟩ := s.dev.timeoutNoted_facts tag r hfn
    refine ⟨_, hexec, hc.trans hc', (congrArg (·.get? tag) hq).trans hq', ?_, ?_⟩
    · rw [ha, ha', getLsbD_setBit _ _ _ _ (by decide)]
      rfl
    · exact Dev.nv_of_mask (Dev.timedOut_mask (T := { out := true, evt := true, life := true, store := true, eng := true, pcie := true })
        rfl rfl rfl rfl rfl rfl tag r _) rfl
  · have hexec : exec (.lateCompletion tag n) s = .next { s with dev :=
        ((s.dev.aer fn 16).onPcie fun p => { p with lateCpl := bump p.lateCpl }).report 8 2 0 0xB004 [fn, tag, n, 0, 0] } := by
      refine (whenLive_pos hl).trans ?_
      simp only [hq]
    refine ⟨_, hexec, ?_, ?_, ?_, ?_⟩
    · rw [Dev.report_pcie]
      by_cases hf : fn = 0 <;> simp [Dev.aer, Dev.onFn, Dev.onPcie, hf]
    · rw [Dev.report_pcie]
      by_cases hf : fn = 0 <;> simp [Dev.aer, Dev.onFn, Dev.onPcie, hf]
    · rw [Dev.report_pcie]
      by_cases hf : fn = 0 <;> simp [Dev.aer, Dev.onFn, Dev.onPcie, hf]
    · rw [Dev.report_eng]
      rfl
  · have hexec : exec (.tagQuarantineExpiry tag) s = .next { s with dev :=
        (s.dev.onPcie fun p => { p with quarantine := p.quarantine.erase tag }).pumpAll } := by
      refine (whenLive_pos hl).trans ?_
      simp only [hq, hu, if_true]
    refine ⟨_, hexec, ?_, ?_⟩
    · rw [(Pcie.still_facts (Dev.pumpAll_still _)).1]
      exact Tab.get?_erase_self ..
    · rw [Dev.pumpAll_store]
      rfl
  · refine (whenLive_pos hl).trans ?_
    simp only [hq, Nat.not_le.mpr hu, if_false]

end Sys2Proof.Machine
end

section
/-!
PROOFS. The management mailbox and MCTP (O47).
-/
namespace Sys2Proof.Machine

/-! ## The mailbox (R335) -/

section
variable {d : Dev} {key : Nat} {c : Command} {pool : Mem} {x : Submission}

theorem Dev.command?_mailbox (d : Dev) (key : Nat) : d.command? mailboxQ key = d.pcie.mboxCmd := by
  simp [Dev.command?]

theorem Dev.onCommand_mailbox (d : Dev) (key : Nat) (f : Command → Command) :
    d.onCommand mailboxQ key f = d.onPcie fun p => { p with mboxCmd := p.mboxCmd.map f } := by
  simp [Dev.onCommand]

/-- The device with the command `c` in the mailbox. -/
def Dev.mailed (c : Option Command) (d : Dev) : Dev := d.onPcie fun p => { p with mboxCmd := c }

theorem Dev.progressOnce_idle (h : d.pcie.mboxCmd = none) : d.progressOnce mailboxQ key = d := by
  simp only [Dev.progressOnce, Dev.command?_mailbox, h]

theorem Dev.progressOnce_coached {i : Nat} (h : d.pcie.mboxCmd = some c) (hs : c.stage = .coached i) :
    d.progressOnce mailboxQ key = d := by
  simp [Dev.progressOnce, Dev.command?_mailbox, h, hs]

theorem Dev.progressOnce_failed {st : Byte} (h : d.pcie.mboxCmd = some c) (hs : c.stage = .reading) (hf : c.failure = some st) :
    d.progressOnce mailboxQ key = d.mboxDone c (outcomeWord st false true false 0 0) st 0 0 0 := by
  simp [Dev.progressOnce, Dev.command?_mailbox, h, hs, hf, Dev.failCommand]

/-- A command with nothing to read issues nothing. -/
theorem Dev.pump_nothing (h : d.pcie.mboxCmd = some c) (hu : c.unread = []) : d.pump mailboxQ key = d := by
  simp only [Dev.pump, Dev.command?_mailbox, h, hu]
  split
  · rfl
  · have hc : ({ c with unread := [] } : Command) = c := by rw [← hu]
    simp only [Dev.each, List.foldl_nil, Dev.onCommand_mailbox, Dev.onPcie, h, Option.map_some, hc]
    rw [← h]

theorem Dev.mboxDone_facts (d : Dev) (c : Command) (w : W32) (st : Byte) (n b crc : Nat) :
    (d.mboxDone c w st n b crc).pcie.mboxCmd = none ∧
      (d.mboxDone c w st n b crc).pcie.mboxStatus = { valid := true, busy := false, status := st } ∧
      (d.mboxDone c w st n b crc).eng = d.eng := by
  unfold Dev.mboxDone
  simp only []
  split
  · refine ⟨?_, ?_, Dev.raise_eng ..⟩
    · rw [(Pcie.fields_of_mute (Dev.raise_mute ..)).2.2.2.2.2.1]
      rfl
    · rw [(Pcie.fields_of_mute (Dev.raise_mute ..)).2.2.2.2.2.2.1]
      rfl
  · exact ⟨rfl, rfl, rfl⟩

/-- A command of which nothing is left to read takes its page lists. -/
theorem Dev.progressOnce_lists (h : d.pcie.mboxCmd = some c) (hs : c.stage = .reading) (hf : c.failure = none) (hu : c.unread = [])
    (hr : d.readsOf mailboxQ key = false) (hl : c.listed = false) : d.progressOnce mailboxQ key = d.takeLists mailboxQ key c := by
  simp [Dev.progressOnce, Dev.command?_mailbox, h, hs, hf, Dev.pump_nothing h hu, hu, hr, hl]

/-- A command whose lists have been taken becomes a coach. -/
theorem Dev.progressOnce_forms (h : d.pcie.mboxCmd = some c) (hs : c.stage = .reading) (hf : c.failure = none) (hu : c.unread = [])
    (hr : d.readsOf mailboxQ key = false) (hl : c.listed = true) : d.progressOnce mailboxQ key = d.formCoach mailboxQ key c := by
  simp [Dev.progressOnce, Dev.command?_mailbox, h, hs, hf, Dev.pump_nothing h hu, hu, hr, hl]

/-- A command whose lists are empty. -/
def Command.unlisted (c : Command) : Command := { c with listed := true, pages := [], respPages := [], unread := [] }

theorem Command.pageList_zero (c : Command) (what : Nat) : c.pageList what 0 = [] := rfl

theorem Dev.takeLists_nothing (h : d.pcie.mboxCmd = some c) (hd : c.sub.dataLength = 0) (hr : c.sub.respLen = 0) :
    d.takeLists mailboxQ key c = d.mailed (some c.unlisted) := by
  simp only [Dev.takeLists, hd, hr, Command.pageList_zero, ite_self, Dev.onCommand_mailbox, Dev.onPcie, h, Option.map_some]
  rfl

/-- The coach of a command of the mailbox with no data of its own; `x` stands for the queue of its number. -/
def Command.mailCoach (x : QueuePair) (c : Command) : Coach :=
  { source := .mailbox c.sub.cid, path := 2, order := c.order, bound := 3, durability := c.sub.flags.toNat % 4
    announced := c.sub.icount, program := c.sub.inline_, keys := [], inbound := [], defaultNs := x.nsDefault
    ruleset := x.ruleset, respRoom := c.sub.respLen }

/-- A command with no data and no keys. -/
structure Submission.Bare (x : Submission) : Prop where
  noData : x.dataLength = 0
  noDataAddress : x.dataAddr = 0
  noResponse : x.respLen = 0
  noResponseAddress : x.respAddr = 0
  noKeys : x.kcount = 0

theorem Submission.Bare.parts (hx : x.Bare) : x.extension = 0 ∧ x.kbytes = 0 ∧ x.vlen = 0 := by
  have h := hx.noData
  unfold Submission.dataLength at h
  omega

/-- A device whose command in the mailbox has become the coach `k`. -/
def Dev.mailFormed (c : Command) (k : Coach) (d : Dev) : Dev :=
  (d.onEng fun e => { e with nextCoach := e.nextCoach + 1, coaches := e.coaches.set e.nextCoach k }).mailed
    (some { c with stage := .coached d.eng.nextCoach, parts := [] })

theorem Dev.formCoach_nothing (h : d.pcie.mboxCmd = some c) (hb : c.sub.Bare) (hr : c.received 0 = []) :
    d.formCoach mailboxQ key c = d.mailFormed c (c.mailCoach ((d.queue? mailboxQ).getD {})) := by
  obtain ⟨hext, hkb, -⟩ := hb.parts
  simp only [Dev.formCoach, hr, hext, hkb, hb.noKeys, Nat.mul_zero, List.drop_nil, List.take_nil, takeKeys, List.any_nil,
    Bool.false_eq_true, if_false, List.range_zero, List.map_nil, List.append_nil, Dev.onCommand_mailbox, decide_true, if_true]
  rw [Dev.onEng, Dev.onPcie, h]
  rfl

/-- A bare command in the mailbox becomes its coach at once. -/
theorem Dev.progress_bare (h : d.pcie.mboxCmd = some c) (hs : c.stage = .reading) (hf : c.failure = none) (hu : c.unread = [])
    (hr : d.readsOf mailboxQ key = false) (hl : c.listed = false) (hb : c.sub.Bare) (hp : c.received 0 = []) :
    d.progress mailboxQ key = (d.mailed (some c.unlisted)).mailFormed c.unlisted (c.mailCoach ((d.queue? mailboxQ).getD {})) := by
  have hlists := (Dev.progressOnce_lists h hs hf hu hr hl).trans (Dev.takeLists_nothing h hb.noData hb.noResponse)
  have hform : (d.mailed (some c.unlisted)).progressOnce mailboxQ key =
      (d.mailed (some c.unlisted)).mailFormed c.unlisted (c.mailCoach ((d.queue? mailboxQ).getD {})) :=
    (Dev.progressOnce_forms (d := d.mailed (some c.unlisted)) (c := c.unlisted) rfl hs hf rfl hr rfl).trans
      (Dev.formCoach_nothing (d := d.mailed (some c.unlisted)) (c := c.unlisted) rfl hb hp)
  rw [Dev.progress, hlists, hform]
  exact Dev.progressOnce_coached (c := { c.unlisted with stage := .coached d.eng.nextCoach, parts := [] }) rfl rfl

/-! ## What brings a command into the mailbox -/

/-- The command that a doorbell brings. -/
def Command.mailOf (x : Submission) (key : Nat) : Command := { order := key, sub := x }

/-- The device whose mailbox runs a command. -/
def Dev.mailbox (x : Submission) (d : Dev) : Dev :=
  (d.onEng fun e => { e with nextStamp := d.eng.nextStamp + 1 }).onPcie fun p => { p with
    mboxCmd := some (Command.mailOf x d.eng.nextStamp), mboxStatus := { valid := false, busy := true, status := stNotReady } }

theorem mboxEffect_eq (hb : d.pcie.mboxStatus.busy = false) (hv : d.pcie.mboxStatus.valid = false)
    (hx : x = parseEntry (Mem.readBytes 0 d.pcie.mboxEntry 0 128)) :
    mboxEffect pool d = (d.mailbox x).beginCommand mailboxQ (Command.mailOf x d.eng.nextStamp) false pool := by
  rw [mboxEffect, hb, hv, hx]
  rfl

theorem mboxEffect_ignored (h : d.pcie.mboxStatus.busy = true ∨ d.pcie.mboxStatus.valid = true) :
    mboxEffect pool d = d.onPcie fun p => { p with cmdIgnored := bump p.cmdIgnored } := by
  rw [mboxEffect, if_pos (by simpa using h)]

/-- The command of the mailbox that is not legal. -/
def Command.illegal (c : Command) : Command := { c with failure := some stIllegalValue, unread := [] }

theorem Dev.beginCommand_illegal (h : d.pcie.mboxCmd = some c) (hl : c.sub.legal = false) (hs : c.stage = .reading)
    (hf : c.failure = none) : ∃ e : Dev, d.beginCommand mailboxQ c false pool =
      e.mboxDone c.illegal (outcomeWord stIllegalValue false true false 0 0) stIllegalValue 0 0 0 ∧ e.eng = d.eng := by
  have hfail : d.onCommand mailboxQ c.order (fun c => { c with failure := if c.failure.isNone then some stIllegalValue else c.failure, unread := [] }) =
      d.mailed (some c.illegal) := by
    rw [Dev.onCommand_mailbox, Dev.onPcie, h, Option.map_some, hf]
    rfl
  have hstep : (d.mailed (some c.illegal)).progressOnce mailboxQ c.order = (d.mailed (some c.illegal)).mboxDone c.illegal
      (outcomeWord stIllegalValue false true false 0 0) stIllegalValue 0 0 0 := Dev.progressOnce_failed rfl hs rfl
  have hidle := (Dev.mboxDone_facts (d.mailed (some c.illegal)) c.illegal (outcomeWord stIllegalValue false true false 0 0)
    stIllegalValue 0 0 0).1
  refine ⟨d.mailed (some c.illegal), ?_, rfl⟩
  simp only [Dev.beginCommand, hl, Bool.not_false, if_true, Dev.failReading, Dev.progress, hfail, hstep,
    Dev.progressOnce_idle hidle]

/-- A bare command copies nothing and reads nothing. -/
def Command.started (c : Command) : Command :=
  { c with dataPool := [], respPool := [], parts := if c.sub.dataWindow then [(0, [])] else [], unread := [] }

theorem Command.started_received (c : Command) : c.started.received 0 = [] := by
  unfold Command.received Command.started
  cases c.sub.dataWindow <;> rfl

theorem Dev.beginCommand_bare (h : d.pcie.mboxCmd = some c) (hl : c.sub.legal = true) (hb : c.sub.Bare) (ho : c.order = key) :
    d.beginCommand mailboxQ c false pool = (d.mailed (some c.started)).progress mailboxQ key := by
  subst ho
  simp only [Dev.beginCommand, hl, Pcie.regionRanges, hb.noData, hb.noDataAddress, hb.noResponse, hb.noResponseAddress,
    Submission.firstReads, if_true, true_or, List.flatMap_nil, List.append_nil, Bool.not_true, Bool.false_eq_true, if_false,
    Dev.onCommand_mailbox, Dev.onPcie, h, Option.map_some]
  rfl

/-! ## Programs over MCTP (R63) -/

/-- The coach of a bare program over MCTP. -/
def Submission.mctpCoach (x : Submission) (stamp : Nat) : Coach :=
  { source := .mctp, path := 2, order := stamp, bound := 3, durability := x.flags.toNat % 4, announced := x.icount
    program := x.inline_, keys := [], inbound := [] }

/-- The device that has taken a bare program over MCTP. -/
def Dev.mctpFormed (x : Submission) (d : Dev) : Dev := d.onEng fun e => { e with
  nextCoach := e.nextCoach + 1, nextStamp := e.nextStamp + 1, coaches := e.coaches.set e.nextCoach (x.mctpCoach e.nextStamp) }

theorem mctpEffect_bare {b : Bytes} (hlen : b.length = 128) (hx : x = parseEntry (b.take 128)) (hl : x.legal = true) (hb : x.Bare)
    (hf : x.flags.toNat < 4) : mctpEffect b d = d.mctpFormed x := by
  obtain ⟨hext, hkb, -⟩ := hb.parts
  have hdrop : b.drop 128 = [] := List.drop_eq_nil_of_le (by omega)
  simp only [mctpEffect, ← hx, hdrop, hlen, hl, hb.noData, hb.noDataAddress, hb.noResponse, hb.noResponseAddress, hb.noKeys, hext, hkb, hf]
  rw [if_neg (by simp)]
  simp only [takeKeys, List.take_nil, List.drop_nil, List.any_nil, Bool.false_eq_true, if_false, List.range_zero, List.map_nil,
    List.append_nil]
  rfl

theorem mctpEffect_short {b : Bytes} (hlen : b.length < 128) : ∃ m, mctpEffect b d = d.emit (.mctp m) := by
  exact ⟨_, if_pos (.inl hlen)⟩

end

/-- Settles O47, by carrying an entry with nothing to read to its coach. -/
theorem mailboxAndMctp : Obligations.MailboxAndMctp := by
  refine ⟨fun s x hl hbusy hvalid hx => ⟨fun hleg => ?_, fun hleg hd hda hr hra hk hreads => ?_⟩, fun s hl h => ?_,
    fun s hl hv => whenLive_guarded hl hv, fun s b x hrun hx => ⟨fun hlen hleg hd hda hr hra hk hfl => ?_, fun hlen => ?_⟩⟩
  · obtain ⟨e, heff, heng⟩ := Dev.beginCommand_illegal (d := s.dev.mailbox x) (pool := s.mem.pool)
      (c := Command.mailOf x s.dev.eng.nextStamp) rfl hleg rfl rfl
    obtain ⟨hcmd, hst, heng'⟩ := e.mboxDone_facts (Command.mailOf x s.dev.eng.nextStamp).illegal
      (outcomeWord stIllegalValue false true false 0 0) stIllegalValue 0 0 0
    refine ⟨_, (whenLive_pos hl).trans (by rw [mboxEffect_eq hbusy hvalid hx, heff]), hcmd, hst, ?_⟩
    rw [heng', heng]
    rfl
  · have hb : x.Bare := ⟨hd, hda, hr, hra, hk⟩
    have heff := (mboxEffect_eq (pool := s.mem.pool) hbusy hvalid hx).trans ((Dev.beginCommand_bare rfl hleg hb rfl).trans
      (Dev.progress_bare rfl rfl rfl rfl hreads rfl hb (Command.started_received _)))
    refine ⟨_, (Command.mailOf x s.dev.eng.nextStamp).started.mailCoach ((s.dev.queue? mailboxQ).getD {}),
      (whenLive_pos hl).trans (by rw [heff]), ?_, rfl, rfl, rfl, rfl, rfl, rfl⟩
    exact Tab.get?_set_self ..
  · exact (whenLive_pos hl).trans (by rw [mboxEffect_ignored h]; rfl)
  · have hexec : exec (.mctpMessage b) s = .next { s with dev := s.dev.mctpFormed x } :=
      (onDev_guarded hrun).trans (by rw [mctpEffect_bare hlen hx hleg ⟨hd, hda, hr, hra, hk⟩ hfl])
    exact ⟨_, x.mctpCoach s.dev.eng.nextStamp, hexec, Tab.get?_set_self .., rfl, rfl, rfl, rfl, rfl⟩
  · obtain ⟨m, hm⟩ := mctpEffect_short (d := s.dev) hlen
    have hexec : exec (.mctpMessage b) s = .next { s with dev := s.dev.emit (.mctp m) } :=
      (onDev_guarded hrun).trans (by rw [hm])
    exact ⟨_, m, hexec, rfl, rfl⟩

end Sys2Proof.Machine
end

section
/-!
PROOFS. Power states, D3hot, masks and configuration space (O50).
-/
namespace Sys2Proof.Machine

/-! ## What has left the device stays in the record of the run -/

section
variable {d : Dev} {o : Output} (h : o ∈ d.out)
include h

theorem Dev.mem_out_emit (x : Output) : o ∈ (d.emit x).out := List.mem_cons_of_mem _ h

theorem Dev.mem_out_sendHeld (fn : Nat) (k : Held) (x : Output) : o ∈ (d.sendHeld fn k x).out := by
  unfold Dev.sendHeld
  split
  · exact h
  · split
    · exact h
    · exact d.mem_out_emit h x

theorem Dev.mem_out_raise (fn v : Nat) : o ∈ (d.raise fn v).out := by
  unfold Dev.raise
  simp only []
  split
  · exact h
  · split
    · exact h
    · exact d.mem_out_sendHeld h ..

theorem Dev.mem_out_onCommand (q key : Nat) (f : Command → Command) : o ∈ (d.onCommand q key f).out := by
  unfold Dev.onCommand
  split <;> exact h

theorem Dev.mem_out_issue (r : DmaRead) : o ∈ (d.issue r).out := by
  unfold Dev.issue
  split
  · exact h
  · exact Dev.mem_out_emit (d := d.onPcie _) h _

theorem Dev.mem_out_askTranslation (q : Nat) (key : Option Nat) (a : Nat) : o ∈ (d.askTranslation q key a).out := by
  unfold Dev.askTranslation
  simp only []
  split
  · exact h
  · exact d.mem_out_issue h _

theorem Dev.mem_out_commandGone (q key : Nat) : o ∈ (d.commandGone q key).out := by
  unfold Dev.commandGone
  split
  · exact h
  · split
    · refine Dev.mem_out_raise ?_ ..
      exact h
    · exact h

theorem Dev.mem_out_mboxDone (c : Command) (w : W32) (st : Byte) (n b crc : Nat) : o ∈ (d.mboxDone c w st n b crc).out := by
  unfold Dev.mboxDone
  simp only []
  split
  · refine Dev.mem_out_raise ?_ ..
    exact h
  · exact h

theorem Dev.mem_out_raised (c : Bool) (v : Nat) : o ∈ (if c then d.raise 0 v else d).out := by
  split
  · exact d.mem_out_raise h ..
  · exact h

theorem Dev.mem_out_post (q slot : Nat) (w : W32) (st : Byte) (n b crc : Nat) : o ∈ (d.post q slot w st n b crc).out := by
  unfold Dev.post
  split
  · exact h
  split
  · exact h
  simp only []
  have hsent := fun k x => d.mem_out_sendHeld h 0 k x
  refine Dev.mem_out_commandGone (Dev.mem_out_raised ?_ ..) ..
  exact hsent _ _

theorem Dev.mem_out_failCommand (q key : Nat) (st : Byte) (c : Command) : o ∈ (d.failCommand q key st c).out := by
  unfold Dev.failCommand
  simp only []
  split
  · exact d.mem_out_mboxDone h ..
  · split
    · exact h
    · split
      · exact d.mem_out_askTranslation h ..
      · exact d.mem_out_post h ..

theorem Dev.mem_out_pump (q key : Nat) : o ∈ (d.pump q key).out := by
  unfold Dev.pump
  split
  · exact h
  split
  · exact h
  simp only []
  refine Dev.each_invariant (P := fun e => o ∈ e.out) _ (fun u _ e he => ?_) _ (d.mem_out_onCommand h ..)
  split
  · exact e.mem_out_onCommand he ..
  · split
    · exact Dev.mem_out_onCommand (e.mem_out_askTranslation he ..) ..
    · exact e.mem_out_issue he ..

theorem Dev.mem_out_formCoach (q key : Nat) (c : Command) : o ∈ (d.formCoach q key c).out := by
  unfold Dev.formCoach
  simp only []
  split
  · split
    · exact d.mem_out_failCommand h ..
    · refine Dev.mem_out_onCommand ?_ ..
      exact h
  · exact d.mem_out_failCommand h ..

theorem Dev.mem_out_progressOnce (q key : Nat) : o ∈ (d.progressOnce q key).out := by
  unfold Dev.progressOnce
  split
  · exact h
  split
  · exact h
  split
  · exact d.mem_out_failCommand h ..
  simp only []
  have hp := d.mem_out_pump h q key
  split
  · exact hp
  · split
    · exact hp
    · split
      · exact Dev.mem_out_formCoach hp ..
      · exact Dev.mem_out_onCommand hp ..

theorem Dev.mem_out_pumpAll : o ∈ d.pumpAll.out := by
  unfold Dev.pumpAll
  refine Dev.each_invariant (P := fun e => o ∈ e.out) _ (fun k _ e he => ?_) _ h
  exact Dev.mem_out_progressOnce (Dev.mem_out_progressOnce (e.mem_out_progressOnce he ..) ..) ..

end

/-! ## D3hot (R349) -/

theorem Pcie.still_fn {p q : Pcie} (h : p.still = q.still) (i : Nat) : (p.fn i).d3hot = (q.fn i).d3hot := by
  have hd : ∀ x : Pcie, (x.still.fn i).d3hot = (x.fn i).d3hot := fun x => by
    simp only [Pcie.fn]
    split <;> rfl
  rw [← hd p, ← hd q, h]

section
variable {d : Dev} {fn v : Nat} {o : Output}

theorem Dev.fn_onFn (d : Dev) (fn : Nat) (f : PcieFunction → PcieFunction) : (d.onFn fn f).pcie.fn fn = f (d.pcie.fn fn) := by
  by_cases hf : fn = 0 <;> simp [Dev.onFn, Dev.onPcie, Pcie.fn, hf]

theorem Dev.queues_onFn (d : Dev) (fn : Nat) (f : PcieFunction → PcieFunction) : (d.onFn fn f).pcie.queues = d.pcie.queues :=
  (Pcie.fields_of_mute (d.onFn_mute fn f)).1

/-- What a function in D3hot holds. -/
def Pcie.held (p : Pcie) (fn : Nat) : List Held := if fn = 0 then p.heldPf0 else p.heldPf1

/-- The device whose function is in D0 again, before anything is sent. -/
def Dev.awake (fn : Nat) (d : Dev) : Dev :=
  (d.onFn fn fun f => { f with d3hot := false }).onPcie fun p => if fn = 0 then { p with heldPf0 := [] } else { p with heldPf1 := [] }

theorem Dev.leaveD3_eq (h : (d.pcie.fn fn).d3hot = true) (hfl : d.pfail.flush = .none) :
    d.leaveD3 fn = (Dev.each (d.pcie.held fn) (Dev.sendNow fn) (d.awake fn)).pumpAll := by
  have hsend : ((d.awake fn).pfail.flush == .none || (d.awake fn).pfail.flush == .closing) = true := by
    rw [show (d.awake fn).pfail.flush = .none from hfl]
    rfl
  rw [Dev.leaveD3, if_pos h]
  exact congrArg Dev.pumpAll (if_pos hsend)

theorem Dev.awake_d3hot (d : Dev) (fn : Nat) : ((d.awake fn).pcie.fn fn).d3hot = false := by
  by_cases hf : fn = 0 <;> simp [Dev.awake, Dev.onFn, Dev.onPcie, Pcie.fn, hf]

theorem Dev.each_emit_pcie {α : Type} (f : α → Output) (l : List α) (d : Dev) :
    (Dev.each l (fun a => Dev.emit (f a)) d).pcie = d.pcie := Dev.each_keep (fun e => e.pcie) l (fun a => Dev.emit (f a)) (fun _ _ => rfl) d

/-- Each output of a list that is emitted is in the record of the run. -/
theorem Dev.mem_out_each {α : Type} {f : α → Output} {l : List α} {a : α} (h : a ∈ l) (d : Dev) :
    f a ∈ (Dev.each l (fun a => Dev.emit (f a)) d).out :=
  Dev.each_reaches (P := fun e => f a ∈ e.out) (f := fun a => Dev.emit (f a)) h (fun _ => List.mem_cons_self ..)
    (fun _ e he => e.mem_out_emit he _) d

/-- What is sent of an output that was held. -/
def Held.sent (fn : Nat) (h : Held) : Output :=
  match h with
  | .write a b => .pcieWrite a b
  | .completion a c => .pcieCompletion a c
  | .message v => .msix fn v

theorem Dev.leaveD3_d3hot (h : (d.pcie.fn fn).d3hot = true) (hfl : d.pfail.flush = .none) :
    ((d.leaveD3 fn).pcie.fn fn).d3hot = false := by
  rw [Dev.leaveD3_eq h hfl, Pcie.still_fn (Dev.pumpAll_still _)]
  exact (congrArg (fun p : Pcie => (p.fn fn).d3hot) (Dev.each_emit_pcie (Held.sent fn) _ _)).trans (d.awake_d3hot fn)

theorem Dev.leaveD3_sends (h : (d.pcie.fn fn).d3hot = true) (hfl : d.pfail.flush = .none) {k : Held} (hk : k ∈ d.pcie.held fn) :
    k.sent fn ∈ (d.leaveD3 fn).out := by
  rw [Dev.leaveD3_eq h hfl]
  exact Dev.mem_out_pumpAll (Dev.mem_out_each (f := Held.sent fn) hk _)

/-! ## MSI-X masks (R336) -/

theorem Dev.sendHeld_awake (k : Held) (hfl : d.pfail.flush = .none) (hd : (d.pcie.fn fn).d3hot = false) :
    d.sendHeld fn k o = d.emit o := by
  simp [Dev.sendHeld, hfl, hd]

/-- What is due of the pending messages of a function. -/
def PcieFunction.due (f : PcieFunction) : List Nat := f.msixPending.reverse.filter fun v => f.msixOn && !f.masked v

/-- A function whose due messages are no longer pending. -/
def PcieFunction.undue (f : PcieFunction) : PcieFunction :=
  { f with msixPending := f.msixPending.filter fun v => !f.due.contains v }

theorem Dev.sendPending_eq : d.sendPending fn =
    Dev.each (d.pcie.fn fn).due (fun v e => e.sendHeld fn (.message v) (.msix fn v))
      (d.onFn fn fun f => { f with msixPending := f.msixPending.filter fun v => !(d.pcie.fn fn).due.contains v }) := rfl

theorem Dev.sendHeld_fn (k : Held) (d : Dev) : (d.sendHeld fn k o).pcie.fn fn = d.pcie.fn fn := by
  unfold Dev.sendHeld
  split
  · rfl
  · split
    · by_cases hf : fn = 0 <;> simp [Dev.onPcie, Pcie.fn, hf]
    · rfl

theorem Dev.sendPending_fn : (d.sendPending fn).pcie.fn fn = (d.pcie.fn fn).undue := by
  rw [Dev.sendPending_eq]
  refine (Dev.each_keep (fun e => e.pcie.fn fn) _ _ (fun v e => e.sendHeld_fn _) _).trans ?_
  rw [Dev.fn_onFn]
  rfl

/-- A device that can send output of function `fn`. -/
def Dev.sends (fn : Nat) (d : Dev) : Prop := d.pfail.flush = .none ∧ (d.pcie.fn fn).d3hot = false

theorem Dev.sendHeld_sends (k : Held) (d : Dev) : (d.sendHeld fn k o).sends fn ↔ d.sends fn := by
  rw [Dev.sends, Dev.sends, Dev.sendHeld_fn, Dev.pfail_of_mask (Dev.sendHeld_mask (T := { out := true, pcie := true }) rfl rfl fn k o d) rfl]

theorem Dev.sendPending_sends (hfl : d.pfail.flush = .none) (hd : (d.pcie.fn fn).d3hot = false) (hv : v ∈ (d.pcie.fn fn).due) :
    Output.msix fn v ∈ (d.sendPending fn).out := by
  have hthere : (d.sendPending fn).sends fn → Output.msix fn v ∈ (d.sendPending fn).out := by
    rw [Dev.sendPending_eq]
    refine Dev.each_reaches (P := fun e => e.sends fn → Output.msix fn v ∈ e.out) hv (fun e hs => ?_) (fun w e he hs => ?_) _
    · obtain ⟨hfe, hde⟩ := (Dev.sendHeld_sends _ e).mp hs
      rw [Dev.sendHeld_awake _ hfe hde]
      exact List.mem_cons_self ..
    · exact e.mem_out_sendHeld (he ((Dev.sendHeld_sends _ e).mp hs)) ..
  refine hthere ⟨?_, ?_⟩
  · rw [Dev.pfail_of_mask (Dev.sendPending_mask (T := { out := true, pcie := true }) rfl rfl fn d) rfl]
    exact hfl
  · rw [Dev.sendPending_fn]
    exact hd

/-- A function whose vector `v` is no longer masked. -/
def PcieFunction.unmasked (v : Nat) (f : PcieFunction) : PcieFunction :=
  { f with msixTable := f.msixTable.set (4 * v + 3) (setBit (f.msixTable.get 1 (4 * v + 3)) 0 false) }

theorem PcieFunction.unmasked_bit (f : PcieFunction) (v : Nat) : ((f.unmasked v).msixTable.get 1 (4 * v + 3)).getLsbD 0 = false := by
  rw [PcieFunction.unmasked, Tab.get, Tab.get?_set_self, Option.getD_some, getLsbD_setBit _ _ _ _ (by decide)]
  rfl

/-- A pending vector is due once it is not masked, where the function is not. -/
theorem PcieFunction.mem_due_unmasked {f : PcieFunction} (hon : f.msixControl.getLsbD 15 = true)
    (hm : f.msixControl.getLsbD 14 = false) (hv : v ∈ f.msixPending) : v ∈ (f.unmasked v).due := by
  refine List.mem_filter.mpr ⟨List.mem_reverse.mpr hv, ?_⟩
  have hbit := f.unmasked_bit v
  simp only [PcieFunction.msixOn, PcieFunction.masked, hbit]
  simp only [PcieFunction.unmasked, hon, hm]
  rfl

theorem PcieFunction.not_mem_undue {f : PcieFunction} (h : v ∈ f.due) : v ∉ f.undue.msixPending := by
  simp [PcieFunction.undue, h]

theorem unmaskEffect_eq (hv : v < (if fn = 0 then 2048 else 16)) :
    unmaskEffect fn (some v) d = (d.onFn fn (PcieFunction.unmasked v)).sendPending fn := if_pos hv

/-! ## Power states and configuration space (R321, R348) -/

theorem Dev.movePower_facts (h : d.pcie.ps ≠ v) : (d.movePower v o').pcie.ps = v ∧ (d.movePower v o').pcie.queues = d.pcie.queues := by
  simp only [Dev.movePower, h, if_false, Dev.report_pcie]
  exact ⟨rfl, rfl⟩

theorem configRead_zero (w : W64) (hfn : fn < 2) :
    leBytes 4 (d.configRead w fn 0) = if fn = 0 then [0xE0, 0xC1, 0x40, 0x96] else [0xE0, 0xC1, 0x41, 0x96] := by
  obtain rfl | rfl : fn = 0 ∨ fn = 1 := by omega
  · rw [show d.configRead w 0 0 = 0xC1E0 + 0x9640 * 65536 by simp [Dev.configRead]]
    decide
  · rw [show d.configRead w 1 0 = 0xC1E0 + 0x9641 * 65536 by simp [Dev.configRead]]
    decide

theorem enableMask_low : ∀ e : BitVec 4, e.getLsbD 0 = true → enableMask e &&& 0xFF = 2 ^ 8 - 1 := by decide

section
variable {s : State} {fn : FuncId} {write : Bool} {at_ : Nat} {e : BitVec 4} {value : W32}

theorem exec_configurationRequest (hr : s.dev.running = true) (ho : at_ < 4096) :
    exec (.configurationRequest fn write at_ e value) s =
      .next { s with dev := configEffect s.fuses.deviceId fn.val write at_ e value s.dev } :=
  onDev_guarded (by simp [hr, ho])

/-- A write of the interrupt line register takes the byte written. -/
theorem Dev.configWrite_intLine (fn m w : Nat) (d : Dev) : d.configWrite fn 0x3C m w =
    d.onFn fn fun f => { f with intLine := BitVec.ofNat 8 (merge (m &&& 0xFF) f.intLine.toNat w) } := by
  simp [Dev.configWrite]

theorem intLine_taken (old : Byte) (he : e.getLsbD 0 = true) :
    BitVec.ofNat 8 (merge (enableMask e &&& 0xFF) old.toNat value.toNat) = value.setWidth 8 := by
  refine BitVec.eq_of_toNat_eq ?_
  rw [enableMask_low e he, BitVec.toNat_ofNat, merge_low_mod, BitVec.toNat_setWidth]

end

end

/-- Settles O50, by what each row leaves of its function and sends of what it held. -/
theorem powerStatesAndConfiguration : Obligations.PowerStatesAndConfiguration := by
  refine ⟨fun s hs hfl hco hps hdr => ?_, fun s fn hl => ⟨?_, fun hd hfl => ?_⟩, fun s fn v hl hv => ?_,
    fun s fn e v hr => ⟨fun hn hrec => ?_, fun hddt => ⟨?_, fun hfs he => ?_, fun hfs => ?_⟩⟩⟩
  · have hgo : (s.dev.serving && s.dev.pfail.flush == .none &&
        s.dev.eng.coaches.all fun e => e.2.stage != .admitted && e.2.stage != .running) = true := by
      simpa [hs, hfl] using fun a b hab => hco (a, b) hab
    have heff : idleEffect s.dev = s.dev.movePower s.dev.idleState 2 := by
      have hready : (s.dev.idleState < 3 || (s.dev.drained && s.dev.coursesDone)) = true := by simpa using hdr
      simp only [idleEffect, Nat.not_le.mpr hps, if_false, hready, if_true]
    obtain ⟨hto, hq⟩ := Dev.movePower_facts (d := s.dev) (v := s.dev.idleState) (o' := 2) (Nat.ne_of_lt hps)
    have hmask := Dev.movePower_mask (T := { evt := true, life := true, pcie := true }) rfl rfl rfl s.dev.idleState 2 s.dev
    exact ⟨_, (onDev_guarded hgo).trans (by rw [heff]), hto, hq, Dev.store_of_mask hmask rfl, Dev.nv_of_mask hmask rfl⟩
  · refine ⟨_, whenLive_pos hl, ?_, s.dev.queues_onFn _ _, rfl⟩
    rw [Dev.enterD3, Dev.fn_onFn]
  · exact ⟨_, whenLive_pos hl, Dev.leaveD3_d3hot hd hfl, fun v hv => Dev.leaveD3_sends hd hfl hv⟩
  · refine ⟨_, (whenLive_pos hl).trans (by rw [unmaskEffect_eq hv]), ?_, fun hon hm hp hd hfl => ⟨?_, ?_⟩⟩
    · rw [Dev.sendPending_fn, Dev.fn_onFn]
      exact PcieFunction.unmasked_bit ..
    · rw [Dev.sendPending_fn, Dev.fn_onFn]
      exact PcieFunction.not_mem_undue (PcieFunction.mem_due_unmasked hon hm hp)
    · refine Dev.sendPending_sends hfl ?_ ?_ <;> rw [Dev.fn_onFn]
      · exact hd
      · exact PcieFunction.mem_due_unmasked hon hm hp
  · refine (exec_configurationRequest hr (by decide)).trans ?_
    rw [configEffect, if_pos (by rw [hn, bne_iff_ne.mpr hrec]; rfl)]
    rfl
  all_goals have hbuilt : (s.dev.pcie.ddt.isNone && s.dev.fw.recovery != 1) = false := by simp [Option.isNone_eq_false_iff.mpr hddt]
  · refine ⟨_, rfl, (exec_configurationRequest hr (by decide)).trans ?_⟩
    rw [configEffect, hbuilt, ← configRead_zero (d := s.dev) s.fuses.deviceId fn.isLt]
    rfl
  · have heff : configEffect s.fuses.deviceId fn.val true 0x3C e v s.dev = s.dev.onFn fn.val fun f =>
        { f with intLine := BitVec.ofNat 8 (merge (enableMask e &&& 0xFF) f.intLine.toNat v.toNat) } := by
      rw [← Dev.configWrite_intLine, configEffect, hbuilt, hfs]
      rfl
    refine ⟨_, exec_configurationRequest hr (by decide), ?_, ?_⟩ <;> rw [heff]
    · rw [Dev.fn_onFn]
      exact intLine_taken _ he
    · rfl
  · refine (exec_configurationRequest hr (by decide)).trans ?_
    rw [configEffect, hbuilt, hfs]
    rfl

end Sys2Proof.Machine
end

section
/-!
PROOFS. Windows, rings, filing and the programming of the log (O52).
-/
namespace Sys2Proof.Machine

/-! ## Windows and rings (R418, R419) -/

section
variable (d : Dev) (r b cell code : Nat) (ps : List Nat)

/-- The window that a report opens. -/
def Dev.opening : Window :=
  { opened := d.chip.tick
    entry := { code := BitVec.ofNat 16 code, source := eventSource r b cell, cycle := d.stampCycle, ms := d.stampMs, params := ps } }

/-- A report of a block with no window opens one. -/
theorem Dev.report_opens (h : (d.recorder r).windows.get [] b = []) :
    d.report r b cell code ps = d.onRecorder r fun q => { q with windows := q.windows.set b [d.opening r b cell code ps] } := by
  simp only [Dev.report, Dev.reportCounted, h]
  rfl

/-- A window with one more occurrence. -/
def Window.again (w : Window) : Window := { w with entry := { w.entry with repeats := w.entry.repeats + 1 } }

/-- A report that matches the one window of its block adds one to it. -/
theorem Dev.report_joins {w : Window} (h : (d.recorder r).windows.get [] b = [w]) (hc : w.entry.code = BitVec.ofNat 16 code)
    (hs : w.entry.source = eventSource r b cell) (hp : w.entry.params = ps) (hr : w.entry.repeats ≠ 254) :
    d.report r b cell code ps = (d.onRecorder r fun q => { q with coalesced := bump q.coalesced }).onRecorder r fun q =>
      { q with windows := q.windows.set b [w.again] } := by
  have hfull : ¬ w.entry.repeats + 1 = 255 := by omega
  simp only [Dev.report, Dev.reportCounted, h, hc, hs, hp, sameParams, beq_self_eq_true, Bool.and_self, List.find?_cons_of_pos,
    hfull, if_false, List.map_cons, List.map_nil, if_true, Window.again]

end

/-- A recorder whose ring takes a record. -/
def Recorder.taking (e : EventRec) (q : Recorder) : Recorder :=
  { q with ring := q.ring ++ [e], peak := max q.peak (q.ring.length + 1) }

section
variable (d : Dev) (r k : Nat) (e : EventRec)

theorem Dev.toRing_takes (h : (d.recorder r).ring.length < 256) : d.toRing r e = d.onRecorder r (Recorder.taking e) := by
  rw [Dev.toRing, if_neg (Nat.not_le.mpr h)]
  rfl

/-- A recorder that loses a record at `us`. -/
def Recorder.losing (us : Nat) (q : Recorder) : Recorder :=
  { q with lostNow := q.lostNow + 1, lost := bump q.lost, lostLast := us, lostFirst := if q.lostNow = 0 then us else q.lostFirst }

theorem Dev.toRing_loses (h : 256 ≤ (d.recorder r).ring.length) : d.toRing r e =
    (d.onRecorder r (Recorder.losing (d.stampMs * 1000))).onLife fun l => { l with recordsLost := bump l.recordsLost } := by
  rw [Dev.toRing, if_pos h]
  rfl

theorem Dev.toRing_ring (h : (d.recorder r).ring.length < 256) : ((d.toRing r e).recorder r).ring = (d.recorder r).ring ++ [e] := by
  rw [d.toRing_takes r e h, Dev.recorder_onRecorder]
  rfl

theorem Dev.toRing_full (h : 256 ≤ (d.recorder r).ring.length) : ((d.toRing r e).recorder r).ring = (d.recorder r).ring ∧
    ((d.toRing r e).recorder r).lost = bump (d.recorder r).lost ∧ (d.toRing r e).life.recordsLost = bump d.life.recordsLost := by
  have hr : (d.toRing r e).recorder r = (d.recorder r).losing (d.stampMs * 1000) := by
    rw [d.toRing_loses r e h]
    exact d.recorder_onRecorder r _
  rw [hr, d.toRing_loses r e h]
  exact ⟨rfl, rfl, rfl⟩

/-- What a change of a recorder leaves of another, or of its own where the field stays. -/
theorem Dev.onRecorder_keeps {β : Type} {g : Recorder → β} {f : Recorder → Recorder} (h : ∀ q, g (f q) = g q) :
    g ((d.onRecorder r f).recorder k) = g (d.recorder k) := by
  by_cases hk : k = r
  · subst hk
    rw [Dev.recorder_onRecorder, h]
  · rw [Dev.recorder_onRecorder_ne _ _ hk]

theorem Dev.toRing_windows : ((d.toRing k e).recorder r).windows = (d.recorder r).windows := by
  unfold Dev.toRing
  extract_lets q us
  split
  · exact d.onRecorder_keeps k r (g := Recorder.windows) fun _ => rfl
  · exact d.onRecorder_keeps k r (g := Recorder.windows) fun _ => rfl

/-- A record on its way to the ring: the recorder that passes it on has counted it. -/
def Dev.passed : Dev :=
  d.when (decide (r < 8) && !(d.recorder r).fenced && !d.evt.logOpen) (Dev.onRecorder r fun q => { q with forwarded := bump q.forwarded })

theorem Dev.passed_keeps {β : Type} {g : Recorder → β} (h : ∀ q, g { q with forwarded := bump q.forwarded } = g q) :
    g ((d.passed r).recorder k) = g (d.recorder k) := by
  unfold Dev.passed Dev.when
  split
  · exact d.onRecorder_keeps r k h
  · rfl

theorem Dev.passed_life : (d.passed r).life = d.life := by
  unfold Dev.passed Dev.when
  split <;> rfl

theorem Dev.sendRecord_eq : d.sendRecord r e = (d.passed r).toRing (d.recorderFor r) e := rfl

/-- The device whose oldest window of block `b` has closed. -/
def Dev.windowed (b : Nat) (rest : List Window) : Dev := d.onRecorder r fun q => { q with windows := q.windows.set b rest }

theorem Dev.windowed_recorderFor (b : Nat) (rest : List Window) : (d.windowed r b rest).recorderFor k = d.recorderFor k := by
  have hf : ((d.windowed r b rest).recorder k).fenced = (d.recorder k).fenced := d.onRecorder_keeps r k fun _ => rfl
  rw [Dev.recorderFor, Dev.recorderFor, hf]
  rfl

end

/-! ## Filing (R420, R428) -/

/-- The event state without its recorders. -/
def EventState.bare (v : EventState) : EventState := { v with recorders := [] }

theorem EventState.fields_of_bare {v w : EventState} (h : v.bare = w.bare) : v.nextSeq = w.nextSeq ∧ v.chipRing = w.chipRing ∧
    v.turn = w.turn ∧ v.waiting = w.waiting ∧ v.entry = w.entry ∧ v.deadPrimary = w.deadPrimary ∧ v.deadMirror = w.deadMirror := by
  have hf : ∀ {β : Type} (f : EventState → β), (∀ x, f x.bare = f x) → f v = f w := fun f hx => by rw [← hx v, h, hx]
  exact ⟨hf _ fun _ => rfl, hf _ fun _ => rfl, hf _ fun _ => rfl, hf _ fun _ => rfl, hf _ fun _ => rfl, hf _ fun _ => rfl,
    hf _ fun _ => rfl⟩

section
variable (d : Dev)

theorem Dev.toRing_bare (r : Nat) (e : EventRec) : (d.toRing r e).evt.bare = d.evt.bare := by
  unfold Dev.toRing
  extract_lets q us
  split <;> rfl

theorem Dev.sendRecord_bare (r : Nat) (e : EventRec) : (d.sendRecord r e).evt.bare = d.evt.bare := by
  unfold Dev.sendRecord Dev.when
  rw [Dev.toRing_bare]
  split <;> rfl

/-- A report changes nothing of the event state but the recorders. -/
theorem Dev.report_bare (region block cell code : Nat) (params : List Nat) :
    (d.report region block cell code params).evt.bare = d.evt.bare := by
  unfold Dev.report Dev.reportCounted
  extract_lets src ws isMatch grow entry open_ a b
  split
  · split
    · rw [Dev.sendRecord_bare]; rfl
    · rfl
  · split
    · split
      · rw [Dev.sendRecord_bare]; rfl
      · rfl
    · rfl

/-- The record as the chip recorder numbers it. -/
def Dev.numbered (e : EventRec) : EventRec :=
  { e with seq := d.evt.nextSeq, degraded := d.chip.logDegraded, cycle := if e.cycle = 0 then d.stampCycle else e.cycle }

/-- What filing shows: the recorders, the next number, the on-chip ring and the turn. -/
def EventState.shown (v : EventState) : Tab Recorder × Nat × List EventRec × Nat := (v.recorders, v.nextSeq, v.chipRing, v.turn)

theorem Dev.notifyRecord_shown (sev : Nat) : (d.notifyRecord sev).evt.shown = d.evt.shown := by
  unfold Dev.notifyRecord Dev.notifyNow
  split
  · split
    · simp only [Dev.onEvt, Dev.raise_evt]
      rfl
    · rfl
  · rfl

theorem Dev.programFoundation_evt : d.programFoundation.evt = d.evt := by
  unfold Dev.programFoundation
  simp only []
  split <;> rfl

/-- The device that has numbered the record `e`, before it goes on to the media. -/
def Dev.ringed (e : EventRec) : Dev :=
  d.onEvt fun v => { v with nextSeq := v.nextSeq + 1, chipRing := (e :: v.chipRing).take 64 }

theorem Dev.fileRecord_shown (e : EventRec) : (d.fileRecord e).evt.shown = (d.ringed (d.numbered e)).evt.shown := by
  unfold Dev.fileRecord
  extract_lets x d1 d2 d3
  have h2 : d2.evt = d1.evt := by
    simp only [d2]
    split <;> rfl
  have h3 : d3.evt.shown = d2.evt.shown := by
    simp only [d3]
    split
    · rw [Dev.programFoundation_evt]
      simp only [Dev.onEvt, EventState.addBuffer]
      split <;> rfl
    · rfl
  rw [Dev.notifyRecord_shown, h3, h2]
  rfl

end

/-! ## Programming the log (R423, R427) -/

/-- The event state with a dead copy of entry `e`. -/
def EventState.killed (e : Nat) (mirror : Bool) (v : EventState) : EventState :=
  if mirror then { v with deadMirror := setBit v.deadMirror e true } else { v with deadPrimary := setBit v.deadPrimary e true }

/-- The event state once the copies of entry `e` that did not take their program are dead. -/
def EventState.failed (e : Nat) (p m : Bool) (v : EventState) : EventState :=
  { v with
    deadPrimary := if p then v.deadPrimary else setBit v.deadPrimary e true
    deadMirror := if m then v.deadMirror else setBit v.deadMirror e true }

/-- What programming the log goes by: the event state, the log's media, the geometry and the count of its passes. -/
structure LogView where
  evt : EventState
  log : LogMedia
  geom : Option Geometry
  passes : Counter

/-- The view of a device. -/
def Dev.logView (d : Dev) : LogView := { evt := d.evt.bare, log := d.nv.log, geom := d.store.geom, passes := d.life.passes }

theorem Lifetime.passes_of_exceptLost {l m : Lifetime} (h : l.exceptLost = m.exceptLost) : l.passes = m.passes := by
  rw [show l.passes = l.exceptLost.passes from rfl, h]
  rfl

section
variable (d : Dev)

theorem Dev.report_logView (region block cell code : Nat) (params : List Nat) :
    (d.report region block cell code params).logView = d.logView := by
  rw [Dev.logView, Dev.report_bare, Lifetime.passes_of_exceptLost (d.report_life ..), Dev.report_nv, Dev.report_store]
  rfl

/-! A keystone leaves the log as it is. -/

theorem Dev.eraseKeystones_logView (r b : Nat) : (d.eraseKeystones r b).logView = d.logView := rfl

theorem Dev.programKeystone_logView (r b : Nat) (k : Keystone) : (d.programKeystone r b k).logView = d.logView := by
  have herase : ∀ c : Bool, (d.when c (Dev.eraseKeystones r b)).logView = d.logView := fun c => by cases c <;> rfl
  exact herase _

theorem Dev.keystoneFailed_logView (r b : Nat) : (d.keystoneFailed r b).logView = d.logView := Dev.report_logView ..

theorem Dev.putKeystone_logView (fate : KeystoneFate) (r : Nat) (k : Keystone) : (d.putKeystone fate r k).logView = d.logView := by
  unfold Dev.putKeystone
  extract_lets b e
  split
  · exact d.programKeystone_logView ..
  · split
    · exact (Dev.programKeystone_logView ..).trans (Dev.keystoneFailed_logView ..)
    · exact Dev.programKeystone_logView ..

theorem Dev.writeKeystones_logView : d.writeKeystones.logView = d.logView :=
  Dev.each_keep Dev.logView _ (fun r d => d.writeKeystone (d.keystoneFate r) r) (fun _ _ => Dev.putKeystone_logView ..) d

theorem Dev.reserveWsn_logView (n : Nat) : (d.reserveWsn n).logView = d.logView := by
  unfold Dev.reserveWsn
  split
  · rfl
  · exact Dev.writeKeystones_logView _

theorem Dev.reserveLog_logView : d.reserveLog.logView = d.logView := by
  unfold Dev.reserveLog Dev.when
  split
  · exact d.reserveWsn_logView _
  · rfl

/-- Numbers that are still in the block are not reserved again. -/
theorem Dev.reserveLog_spare (h : d.store.nextWsn + 2 * d.logSpg + wsnMargin ≤ d.store.wsnLimit) : d.reserveLog = d := by
  unfold Dev.reserveLog Dev.when
  split
  · rw [Dev.reserveWsn, if_pos h]
  · rfl

/-! Copies that fail. -/

theorem Dev.killCopy_eq {e : Nat} {mirror : Bool} (why : Nat)
    (h : (if mirror then d.evt.deadMirror.getLsbD e else d.evt.deadPrimary.getLsbD e) = false) : ∃ ps,
      d.killCopy e mirror why = (d.onEvt (EventState.killed e mirror)).report 8 11 0 0x7003 ps := by
  rw [Dev.killCopy, if_neg (by rw [h]; decide)]
  exact ⟨_, rfl⟩

theorem Dev.killCopy_logView {e : Nat} {mirror : Bool} (why : Nat)
    (h : (if mirror then d.evt.deadMirror.getLsbD e else d.evt.deadPrimary.getLsbD e) = false) :
    (d.killCopy e mirror why).logView = { d.logView with evt := (d.evt.killed e mirror).bare } := by
  obtain ⟨ps, heq⟩ := d.killCopy_eq why h
  rw [heq, Dev.report_logView]
  rfl

/-- The copies of entry `e` that did not take their program are dead. -/
def Dev.killFailed (e : Nat) (p m : Bool) : Dev :=
  let d := if !p then d.killCopy e false 1 else d
  if !m then d.killCopy e true 1 else d

theorem Dev.killFailed_logView {e : Nat} (p m : Bool) (hp : d.evt.deadPrimary.getLsbD e = false)
    (hm : d.evt.deadMirror.getLsbD e = false) : (d.killFailed e p m).logView = { d.logView with evt := (d.evt.failed e p m).bare } := by
  have hfirst : ∀ x : Dev, x = (if !p then d.killCopy e false 1 else d) →
      x.logView = { d.logView with evt := (d.evt.failed e p true).bare } := fun x hx => by
    subst hx
    cases p
    · exact d.killCopy_logView 1 hp
    · rfl
  unfold Dev.killFailed
  extract_lets x
  have hx := hfirst x rfl
  cases m
  · have hmx : x.evt.deadMirror.getLsbD e = false := by
      rw [show x.evt.deadMirror = d.evt.deadMirror from congrArg (fun v : LogView => v.evt.deadMirror) hx]
      exact hm
    have hb : x.evt.bare = (d.evt.failed e p true).bare := congrArg LogView.evt hx
    refine (x.killCopy_logView (mirror := true) 1 hmx).trans ?_
    rw [hx, show (x.evt.killed e true).bare = (x.evt.bare.killed e true) from rfl, hb]
    rfl
  · exact hx

theorem Dev.killFailed_mask (e : Nat) (p m : Bool) :
    (d.killFailed e p m).mask { evt := true, life := true } = d.mask { evt := true, life := true } := by
  unfold Dev.killFailed
  cases p <;> cases m <;> simp

/-! A page group. -/

variable {g : List EventRec} {p m : Bool}

/-- The group that the log takes. -/
def Dev.logGroup (g : List EventRec) (p m : Bool) : LogGroup :=
  { recs := g, wsn := (d.store.nextWsn, d.store.nextWsn + d.logSpg), primary := p, mirror := m }

/-- The device whose log has taken the group `x` in entry `e`. -/
def Dev.grouped (e : Nat) (x : LogGroup) : Dev :=
  (d.onNv fun v => { v with log := { v.log with
    entries := v.log.entries.update {} e fun y => { y with groups := y.groups ++ [x] } } }).takeWsn (2 * d.logSpg)

theorem Dev.grouped_groups (e : Nat) (x : LogGroup) :
    ((d.grouped e x).nv.log.entry e).groups = (d.nv.log.entry e).groups ++ [x] := by
  show (Tab.get {} (Tab.update {} d.nv.log.entries e fun y => { y with groups := y.groups ++ [x] }) e).groups = _
  rw [Tab.get_update_self]
  rfl

/-- A group that a copy takes, and that does not fill its entry, is appended. -/
theorem Dev.programGroup_takes (hp : d.evt.deadPrimary.getLsbD d.evt.entry = false)
    (hm : d.evt.deadMirror.getLsbD d.evt.entry = false) (hone : p = true ∨ m = true)
    (hroom : (d.nv.log.entry d.evt.entry).groups.length + 1 < d.logGeom.ppb) :
    d.programGroup g p m true true =
      (d.killFailed d.evt.entry p m).grouped d.evt.entry ((d.killFailed d.evt.entry p m).logGroup g p m) := by
  have hmask := d.killFailed_mask d.evt.entry p m
  have hnv := Dev.nv_of_mask hmask rfl
  have hstore := Dev.store_of_mask hmask rfl
  have hgo : (p || m) = true := by simpa using hone
  unfold Dev.programGroup
  simp only [hp, hm, Bool.not_false, Bool.and_true, hgo, if_true]
  refine if_neg (Nat.not_le.mpr ?_)
  have hlen : (((d.killFailed d.evt.entry p m).grouped d.evt.entry ((d.killFailed d.evt.entry p m).logGroup g p m)).nv.log.entry
      d.evt.entry).groups.length = (d.nv.log.entry d.evt.entry).groups.length + 1 := by
    rw [Dev.grouped_groups, hnv, List.length_append]
    rfl
  have hgeom : ((d.killFailed d.evt.entry p m).grouped d.evt.entry ((d.killFailed d.evt.entry p m).logGroup g p m)).logGeom =
      d.logGeom := by
    show Dev.logGeom (d.killFailed d.evt.entry p m) = _
    rw [Dev.logGeom, hstore]
    rfl
  exact lt_of_eq_of_lt hlen (hgeom ▸ hroom)

theorem Dev.grouped_evt (e : Nat) (x : LogGroup) : (d.grouped e x).evt = d.evt := rfl

theorem EventState.failed_bits (v : EventState) (e : Nat) (p m : Bool) (he : e < 64) (hp : v.deadPrimary.getLsbD e = false)
    (hm : v.deadMirror.getLsbD e = false) :
    (v.failed e p m).deadPrimary.getLsbD e = !p ∧ (v.failed e p m).deadMirror.getLsbD e = !m := by
  constructor
  · cases p
    · exact (getLsbD_setBit v.deadPrimary e e true he).trans (if_pos rfl)
    · exact hp
  · cases m
    · exact (getLsbD_setBit v.deadMirror e e true he).trans (if_pos rfl)
    · exact hm

/-- What the programming of a group that a copy takes leaves. -/
theorem Dev.programGroup_facts (hp : d.evt.deadPrimary.getLsbD d.evt.entry = false)
    (hm : d.evt.deadMirror.getLsbD d.evt.entry = false) (hone : p = true ∨ m = true)
    (hroom : (d.nv.log.entry d.evt.entry).groups.length + 1 < d.logGeom.ppb) :
    (d.programGroup g p m true true).evt.bare = (d.evt.failed d.evt.entry p m).bare ∧
      ((d.programGroup g p m true true).nv.log.entry d.evt.entry).groups =
        (d.nv.log.entry d.evt.entry).groups ++ [d.logGroup g p m] ∧
      (d.programGroup g p m true true).store.nextWsn = d.store.nextWsn + 2 * d.logSpg := by
  have hmask := d.killFailed_mask d.evt.entry p m
  have hnv := Dev.nv_of_mask hmask rfl
  have hstore := Dev.store_of_mask hmask rfl
  have hspg : (d.killFailed d.evt.entry p m).logSpg = d.logSpg := by
    rw [Dev.logSpg, Dev.logSpg, Dev.logGeom, Dev.logGeom, hnv, hstore]
  have hgroup : (d.killFailed d.evt.entry p m).logGroup g p m = d.logGroup g p m := by
    rw [Dev.logGroup, Dev.logGroup, hspg, hstore]
  rw [d.programGroup_takes hp hm hone hroom, hgroup]
  refine ⟨congrArg LogView.evt (d.killFailed_logView p m hp hm), ?_, ?_⟩
  · rw [Dev.grouped_groups, hnv]
  · show (d.killFailed d.evt.entry p m).store.nextWsn + 2 * (d.killFailed d.evt.entry p m).logSpg = _
    rw [hspg, hstore]

/-- A group that no copy takes leaves its entry dead and the log degraded. -/
theorem Dev.programGroup_fails : d.programGroup g false false true true =
    ((d.killFailed d.evt.entry false false).setDegraded d.evt.entry 3).advanceEntry true true := by
  simp only [Dev.programGroup, Bool.false_and, Bool.not_false, if_true, Bool.or_self, Bool.false_eq_true, if_false]
  rfl

theorem Dev.notifyNow_keeps : d.notifyNow.evt.waiting = d.evt.waiting ∧ d.notifyNow.chip = d.chip ∧ d.notifyNow.life = d.life := by
  unfold Dev.notifyNow
  split
  · refine ⟨?_, d.raise_chip 1 1, d.raise_life 1 1⟩
    exact (show _ = (d.raise 1 1).evt.waiting from rfl).trans (by rw [Dev.raise_evt])
  · exact ⟨rfl, rfl, rfl⟩

theorem Dev.setDegraded_facts (e mask : Nat) : (d.setDegraded e mask).evt.waiting = d.evt.waiting ∧
    (d.setDegraded e mask).chip.logDegraded = true ∧ (d.setDegraded e mask).life.passes = d.life.passes := by
  unfold Dev.setDegraded
  extract_lets x
  obtain ⟨hw, hc, hl⟩ := (x.report 8 11 0 0x7002 [e, mask, x.liveEntries, 0, 0]).notifyNow_keeps
  obtain ⟨-, -, -, hbare, -⟩ := EventState.fields_of_bare (x.report_bare 8 11 0 0x7002 [e, mask, x.liveEntries, 0, 0])
  refine ⟨hw.trans hbare, ?_, ?_⟩
  · rw [hc, Dev.report_chip]
    rfl
  · rw [hl, Lifetime.passes_of_exceptLost (x.report_life ..)]
    rfl

theorem Dev.advanceEntry_facts : (d.advanceEntry true true).evt.waiting = d.evt.waiting ∧
    (d.advanceEntry true true).chip = d.chip ∧ (d.advanceEntry true true).life.passes = bump d.life.passes := by
  unfold Dev.advanceEntry
  exact ⟨rfl, rfl, rfl⟩

end

section
variable {s : State} {g : List EventRec} {rest : List (List EventRec)} {p m : Bool}

/-- The device that programs the oldest waiting group. -/
def Dev.unwaiting (rest : List (List EventRec)) (d : Dev) : Dev := d.reserveLog.onEvt fun v => { v with waiting := rest }

theorem exec_logPageProgram (hr : s.dev.running = true) (hl : s.dev.logWritable = true) (hw : s.dev.evt.waiting = g :: rest) :
    exec (.logPageProgram p m true true) s = .next { s with dev := (s.dev.unwaiting rest).programGroup g p m true true } := by
  have hwait : s.dev.reserveLog.evt.waiting = g :: rest := by
    rw [(EventState.fields_of_bare (congrArg LogView.evt s.dev.reserveLog_logView)).2.2.2.1, hw]
  refine (onDev_guarded (by simp [hr, hl, hw])).trans ?_
  rw [Dev.programWaiting, hwait]
  rfl

theorem Dev.unwaiting_logView (d : Dev) :
    (d.unwaiting rest).logView = { d.logView with evt := { d.evt with waiting := rest }.bare } := by
  have h := d.reserveLog_logView
  show { d.reserveLog.logView with evt := { d.reserveLog.evt.bare with waiting := rest } } = _
  rw [h, show d.reserveLog.evt.bare = d.evt.bare from congrArg LogView.evt h]
  rfl

theorem Dev.unwaiting_facts (d : Dev) : (d.unwaiting rest).evt.waiting = rest ∧ (d.unwaiting rest).evt.entry = d.evt.entry ∧
    (d.unwaiting rest).evt.deadPrimary = d.evt.deadPrimary ∧ (d.unwaiting rest).evt.deadMirror = d.evt.deadMirror ∧
    (d.unwaiting rest).nv.log = d.nv.log ∧ (d.unwaiting rest).logGeom = d.logGeom := by
  have hview := d.unwaiting_logView (rest := rest)
  obtain ⟨-, -, -, hwait, hentry, hdp, hdm⟩ := EventState.fields_of_bare (congrArg LogView.evt hview)
  exact ⟨hwait, hentry, hdp, hdm, congrArg LogView.log hview, congrArg (fun v : LogView => v.geom.getD {}) hview⟩

end

section
variable (d : Dev) (r b k : Nat) (w : Window) (rest : List Window)

/-- A block whose oldest window has closed, its record on the way. -/
def Dev.closing : Dev := (d.windowed r b rest).passed r

theorem Dev.closing_windows : ((d.closing r b rest).recorder r).windows.get [] b = rest := by
  refine (Dev.passed_keeps (d.windowed r b rest) r r (g := fun q => q.windows.get [] b) fun _ => rfl).trans ?_
  rw [Dev.windowed, Dev.recorder_onRecorder, Tab.get, Tab.get?_set_self]
  rfl

theorem Dev.closing_keeps {β : Type} {g : Recorder → β} (hw : ∀ q ws, g { q with windows := ws } = g q)
    (hf : ∀ q, g { q with forwarded := bump q.forwarded } = g q) : g ((d.closing r b rest).recorder k) = g (d.recorder k) :=
  (Dev.passed_keeps _ r k hf).trans (d.onRecorder_keeps r k fun q => hw q _)

theorem Dev.closing_nv : (d.closing r b rest).nv = d.nv := by
  unfold Dev.closing Dev.passed Dev.when
  split <;> rfl

variable {s : State}

theorem exec_coalescingWindowClose {r : Fin 9} {b : Fin 64} {w : Window} {rest : List Window} (hr : s.dev.running = true)
    (hw : (s.dev.recorder r.val).windows.get [] b.val = w :: rest) (ho : w.opened + 2 ≤ s.dev.chip.tick) :
    exec (.coalescingWindowClose r b) s =
      .next { s with dev := (s.dev.closing r.val b.val rest).toRing (s.dev.recorderFor r.val) w.entry } := by
  refine (onDev_guarded hr).trans ?_
  simp only [hw, ho, if_true]
  rw [← s.dev.windowed_recorderFor r.val r.val b.val rest]
  rfl

/-- A recorder whose losses have been told. -/
def Recorder.told (e : EventRec) (q : Recorder) : Recorder :=
  { q with ring := q.ring ++ [e], lostNow := 0, peak := max q.peak (q.ring.length + 1) }

theorem exec_recordsLostInsert {r : Fin 9} (hr : s.dev.running = true) (hn : 0 < (s.dev.recorder r.val).lostNow)
    (hl : (s.dev.recorder r.val).ring.length ≤ 192) : exec (.recordsLostInsert r) s =
      .next { s with dev := s.dev.onRecorder r.val (Recorder.told (s.dev.lostRecord r.val)) } :=
  onDev_guarded (by simp [hr, hn, hl])

/-- A recorder that gives its oldest record. -/
def Recorder.giving (r : Nat) (rest : List EventRec) (q : Recorder) : Recorder :=
  { q with ring := rest, forwarded := if r < 8 then bump q.forwarded else q.forwarded }

/-- The device whose recorder `r` has had its turn. -/
def Dev.turned (r : Nat) (rest : List EventRec) (d : Dev) : Dev :=
  (d.onRecorder r (Recorder.giving r rest)).onEvt fun v => { v with turn := (r + 1) % 9 }

theorem exec_eventFile {r : Fin 9} {e : EventRec} {rest : List EventRec} (hf : s.dev.filing = true)
    (hn : s.dev.nextRecorder = some r.val) (hg : (s.dev.recorder r.val).ring = e :: rest) :
    exec (.eventFile r) s = .next { s with dev := (s.dev.turned r.val rest).fileRecord e } := by
  refine (onDev_guarded (by simp [hf, hn])).trans ?_
  simp only [Dev.fileFrom, hg]
  rfl

/-- What a filed record leaves: the rings, the next number, the on-chip ring and the turn. -/
theorem Dev.fileRecord_facts (d : Dev) (e : EventRec) : (d.fileRecord e).evt.recorders = d.evt.recorders ∧
    (d.fileRecord e).evt.nextSeq = d.evt.nextSeq + 1 ∧ (d.fileRecord e).evt.chipRing.head? = some (d.numbered e) ∧
    (d.fileRecord e).evt.turn = d.evt.turn := by
  have h := d.fileRecord_shown e
  simp only [EventState.shown, Prod.mk.injEq] at h
  obtain ⟨hr, hn, hc, ht⟩ := h
  exact ⟨hr, hn, (congrArg List.head? hc).trans rfl, ht⟩

end

/-- Settles O52, window by window, ring by ring and group by group. -/
theorem eventsAreFiledAndLogged : Obligations.EventsAreFiledAndLogged := by
  refine ⟨⟨fun d r b cell code ps h => ?_, fun d r b cell code ps w h hc hs hp hr => ?_, fun s r b w rest hr hw ho hl => ?_,
    fun s r b w rest hr hw ho hl => ?_, fun s r hr hn hl => ?_, fun s r e rest hf hn hg => ?_⟩,
    fun s g rest p m hr hlw hw hp hm he hroom => ⟨fun hone => ?_, fun hp0 hm0 => ?_⟩,
    fun s who hl hwho => whenLive_byManagement hl hwho⟩
  · rw [d.report_opens r b cell code ps h, Dev.recorder_onRecorder, Tab.get, Tab.get?_set_self]
    rfl
  · rw [d.report_joins r b cell code ps h hc hs hp hr, Dev.recorder_onRecorder, Tab.get, Tab.get?_set_self]
    rfl
  · have hring := s.dev.closing_keeps r.val b.val (s.dev.recorderFor r.val) rest (g := Recorder.ring) (fun _ _ => rfl) fun _ => rfl
    refine ⟨_, exec_coalescingWindowClose hr hw ho, ?_, ?_, (Dev.toRing_nv ..).trans (Dev.closing_nv ..)⟩
    · rw [Dev.toRing_windows, Dev.closing_windows]
    · rw [Dev.toRing_ring _ _ _ (by rw [hring]; exact hl), hring]
  · have hring := s.dev.closing_keeps r.val b.val (s.dev.recorderFor r.val) rest (g := Recorder.ring) (fun _ _ => rfl) fun _ => rfl
    have hlost := s.dev.closing_keeps r.val b.val (s.dev.recorderFor r.val) rest (g := Recorder.lost) (fun _ _ => rfl) fun _ => rfl
    have hlife : (s.dev.closing r.val b.val rest).life = s.dev.life := Dev.passed_life ..
    obtain ⟨hr', hl', hn'⟩ := Dev.toRing_full (s.dev.closing r.val b.val rest) (s.dev.recorderFor r.val) w.entry (by rw [hring]; exact hl)
    exact ⟨_, exec_coalescingWindowClose hr hw ho, hr'.trans hring, hl'.trans (by rw [hlost]), hn'.trans (by rw [hlife])⟩
  · refine ⟨_, s.dev.lostRecord r.val, exec_recordsLostInsert hr hn hl, ?_, ?_, rfl, rfl, rfl⟩ <;> rw [Dev.recorder_onRecorder]
    · rfl
    · rfl
  · obtain ⟨hrec, hnext, hring, hturn⟩ := (s.dev.turned r.val rest).fileRecord_facts e
    refine ⟨_, _, exec_eventFile hf hn hg, ?_, hnext, hring, rfl, rfl, rfl, hturn⟩
    rw [Dev.recorder, hrec]
    exact congrArg Recorder.ring (s.dev.recorder_onRecorder r.val (Recorder.giving r.val rest))
  · obtain ⟨hwait, hentry, hdp, hdm, hlog, hgeom⟩ := s.dev.unwaiting_facts (rest := rest)
    have hlen : ((s.dev.unwaiting rest).nv.log.entry (s.dev.unwaiting rest).evt.entry).groups.length + 1 <
        (s.dev.unwaiting rest).logGeom.ppb := by rwa [hlog, hentry, hgeom]
    obtain ⟨hevt, hgroups, hnext⟩ := (s.dev.unwaiting rest).programGroup_facts (g := g)
      (by rwa [hdp, hentry]) (by rwa [hdm, hentry]) hone hlen
    obtain ⟨-, -, -, hwait', hentry', hdp', hdm'⟩ := EventState.fields_of_bare hevt
    obtain ⟨hbp, hbm⟩ := (s.dev.unwaiting rest).evt.failed_bits (s.dev.unwaiting rest).evt.entry p m (by rwa [hentry])
      (by rwa [hdp, hentry]) (by rwa [hdm, hentry])
    rw [hentry] at hgroups hdp' hdm' hbp hbm
    refine ⟨_, _, exec_logPageProgram hr hlw hw, hwait'.trans hwait, hgroups.trans (by rw [hlog]; rfl), fun hroomw => ?_, ?_, ?_, ?_⟩
    · rw [hnext, Dev.unwaiting, Dev.reserveLog_spare _ hroomw]
      exact ⟨rfl, rfl⟩
    · rw [hdp', hbp]
    · rw [hdm', hbm]
    · exact hentry'.trans hentry
  · subst hp0 hm0
    obtain ⟨hwait, hentry, hdp, hdm, hlog, hgeom⟩ := s.dev.unwaiting_facts (rest := rest)
    have hview := (s.dev.unwaiting rest).killFailed_logView (e := (s.dev.unwaiting rest).evt.entry) false false
      (by rwa [hdp, hentry]) (by rwa [hdm, hentry])
    obtain ⟨hw2, hdeg, hpass⟩ := ((s.dev.unwaiting rest).killFailed (s.dev.unwaiting rest).evt.entry false false).setDegraded_facts
      (s.dev.unwaiting rest).evt.entry 3
    obtain ⟨hw3, hc3, hp3⟩ := (((s.dev.unwaiting rest).killFailed (s.dev.unwaiting rest).evt.entry false false).setDegraded
      (s.dev.unwaiting rest).evt.entry 3).advanceEntry_facts
    have hexec := exec_logPageProgram (p := false) (m := false) hr hlw hw
    rw [Dev.programGroup_fails] at hexec
    refine ⟨_, hexec, ?_, by rw [hc3, hdeg], ?_⟩
    · exact hw3.trans (hw2.trans ((congrArg (fun v : LogView => v.evt.waiting) hview).trans hwait))
    · refine hp3.trans (congrArg bump (hpass.trans ?_))
      exact (congrArg LogView.passes hview).trans (congrArg LogView.passes (s.dev.unwaiting_logView (rest := rest)))

end Sys2Proof.Machine
end

section
/-!
PROOFS. The emission of responses (O54).
-/
namespace Sys2Proof.Machine

/-! ## What an emission leaves beside the response (R433) -/

section
variable (d : Dev) (i : Nat) (c : Coach) (r : Response) (ns : Nat)

/-- The part of a device that an emission shows. -/
theorem Dev.emitted_facts : (d.emitted i c r ns).out = d.out ∧ (d.emitted i c r ns).pcie = d.pcie ∧
    (d.emitted i c r ns).net.sessions = d.net.sessions ∧ (d.emitted i c r ns).eng.coaches = d.eng.coaches.erase i := by
  unfold Dev.emitted
  extract_lets d1 isExport exported bound size note d2 d3 held
  have h1 : d1.out = d.out ∧ d1.pcie = d.pcie ∧ d1.net = d.net ∧ d1.eng = d.eng := by
    simp only [d1]
    split <;> exact ⟨rfl, rfl, rfl, rfl⟩
  have h2 : d2.out = d1.out ∧ d2.pcie = d1.pcie ∧ d2.net.sessions = d1.net.sessions ∧ d2.eng = d1.eng := by
    simp only [d2]
    split <;> exact ⟨rfl, rfl, rfl, rfl⟩
  obtain ⟨ho, hp, hn, he⟩ := h1
  obtain ⟨ho', hp', hn', he'⟩ := h2
  exact ⟨ho'.trans ho, hp'.trans hp, hn'.trans (by rw [hn]), (show _ = d2.eng.coaches.erase i from rfl).trans (by rw [he', he])⟩

theorem Dev.emitted_coach : (d.emitted i c r ns).coach? i = none ∧ ∀ j, j ≠ i → (d.emitted i c r ns).coach? j = d.coach? j := by
  obtain ⟨-, -, -, he⟩ := d.emitted_facts i c r ns
  simp only [Dev.coach?, he]
  exact ⟨Tab.get?_erase_self .., fun j hj => Tab.get?_erase_ne _ hj⟩

theorem Dev.emitted_latency (h : c.path = 0) : (d.emitted i c r ns).life.latency.get 0 (c.clsNow * 64 + latencyBin ns) =
    bump (d.life.latency.get 0 (c.clsNow * 64 + latencyBin ns)) := by
  unfold Dev.emitted
  extract_lets d1 isExport exported bound size note d2 d3 held
  have h2 : d2.life = d1.life := by
    simp only [d2]
    split <;> rfl
  have h1 : d1.life.latency = d.life.latency.update 0 (c.clsNow * 64 + latencyBin ns) bump := by
    simp only [d1, h, Nat.zero_mul, Nat.zero_add, Nat.zero_lt_two, if_true]
    rfl
  show d2.life.latency.get 0 _ = _
  rw [h2, h1, Tab.get_update_self]

end

/-! ## A response with no fields -/

section
variable {d : Dev} {m : Memories} {i q n slot : Nat} {c : Coach} {rd : ReadEnv} {ns : Nat} {cid : W16} {seq : W32} {cmd : Command}
  {x : Session}

/-- The response of a coach that appended nothing. -/
def Dev.bareResponse (d : Dev) (c : Coach) : Response := c.response (d.finalStatus c) []

theorem Dev.bareResponse_result (d : Dev) (c : Coach) : (d.bareResponse c).result = d.finalStatus c := rfl

theorem Dev.bareResponse_word (d : Dev) (c : Coach) : (d.bareResponse c).word =
    outcomeWord (d.finalStatus c) c.run.flags.committed true c.run.flags.stale c.run.last c.run.steps := rfl

theorem Response.pcie_bare (d : Dev) (c : Coach) (room : Nat) : ((d.bareResponse c).pcie room).body = [] ∧
    ((d.bareResponse c).pcie room).status = d.finalStatus c := by
  exact ⟨by simp [Response.pcie, Dev.bareResponse, Coach.response], by simp [Response.pcie, Dev.bareResponse, Coach.response]; rfl⟩

theorem emissionEffect_waits (hc : d.coach? i = some c) (h : d.mayEmit c = false) (part : Option Nat) :
    emissionEffect i rd part ns m d = (m, d) := by
  simp [emissionEffect, hc, h]

theorem emissionEffect_ahead (hc : d.coach? i = some c) (h : d.mayEmit c = true) (k : Nat) :
    emissionEffect i rd (some k) ns m d = (m, d.streamAhead i k rd) := by
  simp [emissionEffect, hc, h]

theorem emissionEffect_orphan (hc : d.coach? i = some c) (h : d.mayEmit c = true) (hr : c.run.resp = []) (hs : c.source = .orphan) :
    emissionEffect i rd none ns m d = (m, d.emitted i c (d.bareResponse c) ns) := by
  simp only [emissionEffect, hc, h, hr, hs]
  rfl

theorem emissionEffect_mctp (hc : d.coach? i = some c) (h : d.mayEmit c = true) (hr : c.run.resp = []) (hs : c.source = .mctp) :
    emissionEffect i rd none ns m d = (m, (d.emit (.mctp (leBytes 4 (d.bareResponse c).word.toNat ++
      [(d.bareResponse c).result, 0, 0, 0]))).emitted i c (d.bareResponse c) ns) := by
  have hlist : ∀ l : List Byte, l ++ [] = l := List.append_nil
  simp only [emissionEffect, hc, h, hr, hs]
  rw [← hlist (leBytes 4 (d.bareResponse c).word.toNat ++ [(d.bareResponse c).result, 0, 0, 0])]
  rfl

/-- The mailbox's response with no body writes nothing but its result. -/
theorem emitMailbox_bare {r : Response} (hb : (r.pcie cmd.sub.respLen).body = []) (hp : cmd.respPieces 0 = []) :
    emitMailbox cmd r (m, d) = (m, d.mboxDone cmd r.word (r.pcie cmd.sub.respLen).status r.fields.length
      (r.pcie cmd.sub.respLen).bodyLen (r.pcie cmd.sub.respLen).crc) := by
  simp only [emitMailbox, hb, List.length_nil, hp, Dev.writePieces, ite_self]

theorem emissionEffect_mailbox (hc : d.coach? i = some c) (h : d.mayEmit c = true) (hr : c.run.resp = []) (hs : c.source = .mailbox cid)
    (hm : d.pcie.mboxCmd = some cmd) (hp : cmd.respPieces 0 = []) : ∃ b e, emissionEffect i rd none ns m d =
      (m, (d.mboxDone cmd (d.bareResponse c).word (d.finalStatus c) 0 b e).emitted i c (d.bareResponse c) ns) := by
  obtain ⟨hbody, hstatus⟩ := Response.pcie_bare d c cmd.sub.respLen
  refine ⟨((d.bareResponse c).pcie cmd.sub.respLen).bodyLen, ((d.bareResponse c).pcie cmd.sub.respLen).crc, ?_⟩
  have hmail := emitMailbox_bare (m := m) (d := d) hbody hp
  rw [hstatus] at hmail
  simp only [emissionEffect, hc, h, hr, hs, Dev.streamFields, hm]
  rw [show c.response (d.finalStatus c) [] = d.bareResponse c from rfl, hmail]
  rfl

/-- A queue command's response with no body posts nothing but its completion. -/
theorem emitQueue_bare {r : Response} (hb : (r.pcie cmd.sub.respLen).body = []) (hp : cmd.respPieces 0 = []) (ha : d.atsOn = false) :
    emitQueue q slot cmd r (m, d) = some (m, d.post q slot r.word (r.pcie cmd.sub.respLen).status r.fields.length
      (r.pcie cmd.sub.respLen).bodyLen (r.pcie cmd.sub.respLen).crc) := by
  have hto : ∀ a : Nat, (d.targetOf cmd.resolved a).isNone = false := fun a => by simp [Dev.targetOf, ha]
  have hall : ∀ l : List Nat, (l.any fun a => (d.targetOf cmd.resolved a).isNone) = false := fun l => by simp [hto]
  simp only [emitQueue, hb, List.length_nil, hp, Dev.writePieces, hall, Bool.false_eq_true, if_false]

theorem emissionEffect_queue {x : QueuePair} (hc : d.coach? i = some c) (h : d.mayEmit c = true) (hr : c.run.resp = [])
    (hs : c.source = .queue q cid) (hx : d.queue? q = some x)
    (hf : x.commands.find? (fun e => e.2.stage == .coached i) = some (slot, cmd)) (hp : cmd.respPieces 0 = [])
    (ha : d.atsOn = false) : ∃ b e, emissionEffect i rd none ns m d =
      (m, (d.post q slot (d.bareResponse c).word (d.finalStatus c) 0 b e).emitted i c (d.bareResponse c) ns) := by
  obtain ⟨hbody, hstatus⟩ := Response.pcie_bare d c cmd.sub.respLen
  refine ⟨((d.bareResponse c).pcie cmd.sub.respLen).bodyLen, ((d.bareResponse c).pcie cmd.sub.respLen).crc, ?_⟩
  have hpost := emitQueue_bare (m := m) (d := d) (q := q) (slot := slot) hbody hp ha
  rw [hstatus] at hpost
  simp only [emissionEffect, hc, h, hr, hs, Dev.streamFields, hx, Option.bind_some, hf]
  rw [show c.response (d.finalStatus c) [] = d.bareResponse c from rfl, hpost]
  rfl

theorem emissionEffect_session (hc : d.coach? i = some c) (h : d.mayEmit c = true) (hr : c.run.resp = []) (hs : c.source = .session n seq) :
    emissionEffect i rd none ns m d = (m, (d.emitJenloth i c n seq (d.bareResponse c)).emitted i c (d.bareResponse c) ns) := by
  simp only [emissionEffect, hc, h, hr, hs]
  rfl

/-! ## The completion of a command and the answer of a session -/

/-- A queue that has posted the completion of command `slot`. -/
def QueuePair.postedOne (slot : Nat) (x : QueuePair) : QueuePair :=
  { x with
    commands := x.commands.erase slot, cqTail := if x.size ≤ x.cqTail + 1 then 0 else x.cqTail + 1
    phase := if x.size ≤ x.cqTail + 1 then !x.phase else x.phase, armed := false }

theorem Dev.commandGone_pcie (d : Dev) (q key : Nat) : (d.commandGone q key).pcie.queues = d.pcie.queues ∧
    (d.commandGone q key).pcie.cmds = d.pcie.cmds := by
  unfold Dev.commandGone
  split
  · exact ⟨rfl, rfl⟩
  · split
    · obtain ⟨hq, -, -, -, -, -, -, -, -, -, hc⟩ := Pcie.fields_of_mute (Dev.queueResult_mute _ _)
      exact ⟨hq, hc⟩
    · exact ⟨rfl, rfl⟩

theorem Dev.raised_pcie (d : Dev) (b : Bool) (v : Nat) : (if b then d.raise 0 v else d).pcie.queues = d.pcie.queues ∧
    (if b then d.raise 0 v else d).pcie.cmds = d.pcie.cmds := by
  split
  · obtain ⟨hq, -, -, -, -, -, -, -, -, -, hc⟩ := Pcie.fields_of_mute (d.raise_mute 0 v)
    exact ⟨hq, hc⟩
  · exact ⟨rfl, rfl⟩

/-- A completion takes its command from the queue and its slot from the completion queue. -/
theorem Dev.post_pcie {x : QueuePair} (hx : d.queue? q = some x) (hcmd : x.commands.get? slot = some cmd) (w : W32) (st : Byte)
    (a b e : Nat) : (d.post q slot w st a b e).queue? q = some (x.postedOne slot) ∧
      (d.post q slot w st a b e).pcie.cmds = bump d.pcie.cmds := by
  generalize hz : d.post q slot w st a b e = z
  unfold Dev.post at hz
  rw [hx] at hz
  split at hz
  · next h => exact absurd h (by simp)
  · next y hy =>
    obtain rfl := Option.some.inj hy
    split at hz
    · next h => exact absurd (h.symm.trans hcmd) (by simp)
    · next k hk =>
      extract_lets entry address sent wraps moved counted at hz
      subst hz
      obtain ⟨hgone, hgonec⟩ := Dev.commandGone_pcie (if x.armed then counted.raise 0 x.vector else counted) q slot
      obtain ⟨hraise, hraisec⟩ := counted.raised_pcie x.armed x.vector
      obtain ⟨hsent, -, -, -, -, -, -, -, -, -, hsentc⟩ := Pcie.fields_of_mute (p := sent.pcie) (q := d.pcie) (Dev.sendHeld_mute ..)
      have hmoved : moved.queue? q = some (x.postedOne slot) := by
        refine (Dev.queue?_onQueue_of (d := sent) ((congrArg (·.get? q) hsent).trans hx) _).trans ?_
        simp only [QueuePair.postedOne, wraps, decide_eq_true_eq]
      exact ⟨(congrArg (·.get? q) (hgone.trans hraise)).trans hmoved, (hgonec.trans hraisec).trans (congrArg bump hsentc)⟩

theorem Dev.session_setEntry (hx : d.net.sessions.get? n = some x) (seq : W32) (e : Entry) :
    (d.setEntry n seq e).net.sessions.get? n = some { x with window := x.window.set seq.toNat e } := by
  show (d.net.sessions.adjust n fun s => { s with window := s.window.set seq.toNat e }).get? n = _
  rw [Tab.get?_adjust_self, hx]
  rfl

theorem Dev.sendResponse_keeps (d : Dev) (c : Coach) (n : Nat) (seq : W32) (body : Bytes) :
    (d.sendResponse c n seq body).net.sessions = d.net.sessions ∧ (d.sendResponse c n seq body).life = d.life := by
  unfold Dev.sendResponse
  refine ⟨Dev.each_keep (fun e => e.net.sessions) _ _ ?_ d, Dev.each_keep (fun e => e.life) _ _ ?_ d⟩
  · exact fun _ _ => rfl
  · exact fun _ _ => rfl

/-- The session's response leaves its replay entry, and changes no other session. -/
theorem Dev.emitJenloth_session {r : Response} (hx : d.net.sessions.get? n = some x) (hcl : x.closers = 0)
    (hck : x.cookie = c.peer.cookie) (he : x.entry seq = some (.inFlight i)) (ha : c.acks = []) :
    (d.emitJenloth i c n seq r).net.sessions.get? n = some { x with window := x.window.set seq.toNat (c.replayEntry r) } ∧
      (d.emitJenloth i c n seq r).life = d.life := by
  unfold Dev.emitJenloth
  extract_lets d1 ack d2 mine
  have hd2 : d2 = d1 := by
    simp only [d2, ha]
    rfl
  obtain ⟨hsess, hlife⟩ : d1.net.sessions = d.net.sessions ∧ d1.life = d.life := d.sendResponse_keeps ..
  have hmine : mine = true := by
    simp only [mine, hd2, hsess, hx, hck, he]
    simp
  rw [if_pos hmine]
  have hset : (d2.setEntry n seq (c.replayEntry r)).net.sessions.get? n =
      some { x with window := x.window.set seq.toNat (c.replayEntry r) } := by
    exact Dev.session_setEntry (by rw [hd2, hsess, hx]) _ _
  have hstay : (d2.setEntry n seq (c.replayEntry r)).closeIfDone n = d2.setEntry n seq (c.replayEntry r) := by
    simp only [Dev.closeIfDone, hset, hcl, true_or, if_true]
  rw [hstay]
  exact ⟨hset, by rw [hd2]; exact hlife⟩

theorem Dev.mboxDone_result (d : Dev) (cmd : Command) (w : W32) (st : Byte) (a b e : Nat) :
    (d.mboxDone cmd w st a b e).pcie.mboxCmd = none ∧
      (d.mboxDone cmd w st a b e).pcie.mboxStatus = { valid := true, busy := false, status := st } ∧
      (d.mboxDone cmd w st a b e).pcie.mboxResult.map (·.status) = some st := by
  obtain ⟨hc, hs, -⟩ := d.mboxDone_facts cmd w st a b e
  refine ⟨hc, hs, ?_⟩
  unfold Dev.mboxDone
  simp only []
  split
  · obtain ⟨-, -, -, -, -, -, -, hr, -⟩ := Pcie.fields_of_mute (Dev.raise_mute (d.onPcie fun p => { p with
      mboxResult := some { outcome := w, status := st, phase := true, nfields := a, cid := cmd.sub.cid, sqid := 0xFFFF, sqHead := 0
                           slot := 0, bodyLen := b, crc := e }, mboxCmd := none
      mboxStatus := { valid := true, busy := false, status := st } }) 1 0)
    rw [hr]
    rfl
  · rfl

end

theorem exec_responseEmission {s : State} {i : Nat} {rd : StreamEnv} {ns : W64} {part : Option Nat} {m : Memories} {d : Dev}
    (hp : rd.part = part) (h : emissionEffect i rd.toReadEnv part ns.toNat s.mem s.dev = (m, d)) :
    exec (.responseEmission i rd ns) s = .next { s with mem := m, dev := d } := by
  subst hp
  refine (onAll_eq ..).trans ?_
  rw [h]

/-- Settles O54, path by path. -/
theorem responsesLeave : Obligations.ResponsesLeave := by
  refine ⟨fun s i c rd ns hc hm hp hr => ⟨fun hs => ?_, fun hs => ?_, fun cid cmd hs hcmd hpc => ?_, fun n seq x hs hx hcl hck he ha hpath => ?_⟩,
    fun s i slot q cid c rd ns x cmd hc hm hp hr hs hx hf hcmd hpc hats => ?_, fun s i c rd ns hc hd => ?_, fun s i n c rd ns hc hm hp => ?_⟩
  · obtain ⟨hout, -, -, -⟩ := s.dev.emitted_facts i c (s.dev.bareResponse c) ns.toNat
    obtain ⟨hi, hj⟩ := s.dev.emitted_coach i c (s.dev.bareResponse c) ns.toNat
    exact ⟨_, exec_responseEmission hp (emissionEffect_orphan hc hm hr hs), hi, hout, hj⟩
  · have hexec := exec_responseEmission hp (emissionEffect_mctp (m := s.mem) (rd := rd.toReadEnv) (ns := ns.toNat) hc hm hr hs)
    obtain ⟨hout, -, -, -⟩ := Dev.emitted_facts (s.dev.emit (.mctp (leBytes 4 (s.dev.bareResponse c).word.toNat ++
      [(s.dev.bareResponse c).result, 0, 0, 0]))) i c (s.dev.bareResponse c) ns.toNat
    exact ⟨_, hexec, (Dev.emitted_coach _ i c _ _).1, hout⟩
  · obtain ⟨b, e, heff⟩ := emissionEffect_mailbox (m := s.mem) (rd := rd.toReadEnv) (ns := ns.toNat) hc hm hr hs hcmd hpc
    obtain ⟨hdone, hst, hres⟩ := s.dev.mboxDone_result cmd (s.dev.bareResponse c).word (s.dev.finalStatus c) 0 b e
    obtain ⟨-, hpcie, -, -⟩ := (s.dev.mboxDone cmd (s.dev.bareResponse c).word (s.dev.finalStatus c) 0 b e).emitted_facts i c
      (s.dev.bareResponse c) ns.toNat
    refine ⟨_, exec_responseEmission hp heff, (Dev.emitted_coach _ i c _ _).1, ?_, ?_, ?_⟩ <;> rw [hpcie]
    · exact hdone
    · exact hst
    · exact hres
  · obtain ⟨hsess, hlife⟩ := s.dev.emitJenloth_session (i := i) (c := c) (r := s.dev.bareResponse c) hx hcl hck he ha
    obtain ⟨-, -, hnet, -⟩ := (s.dev.emitJenloth i c n seq (s.dev.bareResponse c)).emitted_facts i c (s.dev.bareResponse c) ns.toNat
    refine ⟨_, _, exec_responseEmission hp (emissionEffect_session hc hm hr hs), (Dev.emitted_coach _ i c _ _).1,
      (congrArg (·.get? n) hnet).trans hsess, ?_, ?_⟩
    · exact Tab.get?_set_self x.window seq.toNat _
    · rw [Dev.emitted_latency _ i c _ _ hpath, hlife]
  · obtain ⟨b, e, heff⟩ := emissionEffect_queue (m := s.mem) (rd := rd.toReadEnv) (ns := ns.toNat) hc hm hr hs hx hf hpc hats
    obtain ⟨hq, hcmds⟩ := Dev.post_pcie hx hcmd (s.dev.bareResponse c).word (s.dev.finalStatus c) 0 b e
    obtain ⟨-, hpcie, -, -⟩ := (s.dev.post q slot (s.dev.bareResponse c).word (s.dev.finalStatus c) 0 b e).emitted_facts i c
      (s.dev.bareResponse c) ns.toNat
    exact ⟨_, _, exec_responseEmission hp heff, (Dev.emitted_coach _ i c _ _).1, (congrArg (fun p : Pcie => p.queues.get? q) hpcie).trans hq,
      rfl, rfl, rfl, rfl, (congrArg Pcie.cmds hpcie).trans hcmds⟩
  · have hwait : s.dev.mayEmit c = false := by simp [Dev.mayEmit, hd]
    exact exec_responseEmission rfl (emissionEffect_waits hc hwait rd.part)
  · exact ⟨_, exec_responseEmission hp (emissionEffect_ahead hc hm n), Dev.becomes_onCoach _ hc⟩

end Sys2Proof.Machine
end

section
/-!
PROOFS. Links, layouts and partners (O12).
-/
namespace Sys2Proof.Machine

/-! ## Links and layouts (R261, R262, R281, R283) -/

section
variable (d : Dev) (m k : Nat)

theorem Dev.reportMac_net (cell code : Nat) (ps : List Nat) : (d.reportMac m cell code ps).net = d.net := Dev.report_net ..

theorem Dev.reportMac_store (cell code : Nat) (ps : List Nat) : (d.reportMac m cell code ps).store = d.store := Dev.report_store ..

theorem Dev.mac_of_net {d e : Dev} (h : d.net.macs = e.net.macs) (k : Nat) : d.mac k = e.mac k := by rw [Dev.mac, h]; rfl

theorem Dev.lockLanes_net (on : Bool) : (d.lockLanes m on).net = d.net := by
  unfold Dev.lockLanes
  split <;> rfl

/-- The MAC whose link has come up. -/
def Mac.linked (c : Mac) : Mac := { c with linkUp := true, rxLocalFault := false, rxRemoteFault := false }

/-- The MAC whose link has gone down. -/
def Mac.unlinked (cause : LinkDownCause) (c : Mac) : Mac :=
  { c with linkUp := false, linkDowns := bump c.linkDowns, rxLocalFault := cause == .localFault, rxRemoteFault := cause == .remoteFault }

theorem Dev.linkDown_net (cause : LinkDownCause) : (d.linkDown m cause).net = (d.onMac m (Mac.unlinked cause)).net := by
  unfold Dev.linkDown
  rw [Dev.reportMac_net]
  split
  · rw [Dev.lockLanes_net]
    rfl
  · rfl

theorem Dev.linkDown_mac (cause : LinkDownCause) : (d.linkDown m cause).mac m = (d.mac m).unlinked cause := by
  rw [Dev.mac_of_net (congrArg Net.macs (d.linkDown_net m cause)), Dev.mac_onMac]

/-- A group that reads its layout. -/
def Region.laidOut (x : Region) : Region := { x with badLayout := !layoutLegal x.netCfg.toNat, layout := x.netCfg }

/-- A MAC as the layout of its group makes it. -/
def Mac.placed (cfg j : Nat) (c : Mac) : Mac := { c with noPort := !bit (bits cfg 2 8) j }

theorem Dev.readLayout_eq (r : Nat) : d.readLayout r = Dev.each (List.range 8)
    (fun j => Dev.onMac (r * 8 + j) (Mac.placed (d.region r).netCfg.toNat j)) (d.onRegion r Region.laidOut) := rfl

theorem Dev.each_onMac_region (l : List Nat) (r x : Nat) (f : Nat → Mac → Mac) :
    (Dev.each l (fun j => Dev.onMac (r * 8 + j) (f j)) d).region x = d.region x :=
  Dev.each_keep (fun e => e.region x) l (fun j => Dev.onMac (r * 8 + j) (f j)) (fun _ _ => rfl) d

/-- Of the MACs of a group, each is changed once. -/
theorem Dev.each_onMac_mac (r : Nat) (f : Nat → Mac → Mac) {j : Nat} {l : List Nat} (hl : l.Nodup) :
    (Dev.each l (fun j => Dev.onMac (r * 8 + j) (f j)) d).mac (r * 8 + j) = if j ∈ l then f j (d.mac (r * 8 + j)) else d.mac (r * 8 + j) := by
  unfold Dev.each
  induction l generalizing d with
  | nil => rfl
  | cons i l ih =>
    obtain ⟨hi, hl⟩ := List.nodup_cons.mp hl
    rw [List.foldl_cons, ih _ hl]
    by_cases hij : j = i
    · subst hij
      rw [if_neg hi, if_pos List.mem_cons_self, Dev.mac_onMac]
    · rw [Dev.mac_onMac_ne _ _ (by omega)]
      simp [hij]

theorem Dev.readLayout_mac {r j : Nat} (hj : j < 8) :
    (d.readLayout r).mac (r * 8 + j) = (d.mac (r * 8 + j)).placed (d.region r).netCfg.toNat j := by
  rw [Dev.readLayout_eq, Dev.each_onMac_mac _ _ _ List.nodup_range, if_pos (List.mem_range.mpr hj)]
  rfl

theorem Dev.readLayout_region (r : Nat) : (d.readLayout r).region r = (d.region r).laidOut := by
  rw [Dev.readLayout_eq, Dev.each_onMac_region, Dev.region_onRegion]

end

theorem setBit_zero_bit (w : W32) : (setBit w 0 true).getLsbD 0 = true := by
  rw [getLsbD_setBit w 0 0 true (by decide)]
  rfl

/-- The bits of MAC_CFG that can be written. -/
def macWritable (m : Nat) : W32 := if m < 64 then 0x7FFF7 else 0x7FFFF

section
variable {d : Dev} {m : Nat} {v : W32}

theorem Dev.writeMacCfg_off (hv : v.getLsbD 0 = false) : d.writeMacCfg m v =
    (d.onMac m fun c => { c with cfg := setBit (v &&& macWritable m) 0 false }).when (d.mac m).linkUp (Dev.linkDown m .disabled) := by
  simp only [Dev.writeMacCfg, hv, Bool.false_and, Bool.false_eq_true, if_false, Bool.not_false, Bool.true_and]
  rfl

theorem Dev.region_onMac (d : Dev) (m r : Nat) (f : Mac → Mac) : (d.onMac m f).region r = d.region r := rfl

/-- The layout of its group gives a MAC its port. -/
theorem Dev.readLayout_port (hport : bit (bits (d.region (m / 8)).netCfg.toNat 2 8) (m % 8) = true) :
    ((d.readLayout (m / 8)).mac m).noPort = false := by
  have hplace : m / 8 * 8 + m % 8 = m := by omega
  have h := d.readLayout_mac (r := m / 8) (Nat.mod_lt m (by decide : 8 > 0))
  rw [hplace] at h
  rw [h, Mac.placed, hport]
  rfl

/-- The first MAC of a group that is enabled reads the layout, which gives it a port. -/
theorem Dev.writeMacCfg_first (hm : m < 64) (hoff : ∀ k, k < 8 → (d.mac (m / 8 * 8 + k)).enabled = false)
    (hport : bit (bits (d.region (m / 8)).netCfg.toNat 2 8) (m % 8) = true) (hv : v.getLsbD 0 = true) :
    d.writeMacCfg m v = (d.readLayout (m / 8)).onMac m fun c => { c with cfg := setBit (v &&& macWritable m) 0 true } := by
  have hplace : m / 8 * 8 + m % 8 = m := by omega
  have hoffm : (d.mac m).enabled = false := by
    have := hoff (m % 8) (Nat.mod_lt _ (by decide))
    rwa [hplace] at this
  have hgroup : ((List.range 8).all fun k => !(d.mac (m / 8 * 8 + k)).enabled) = true := by
    simpa using hoff
  have hmac := Dev.readLayout_port hport
  simp only [Dev.writeMacCfg, hv, hoffm, hm, hgroup, decide_true, Bool.not_false, Bool.and_self, if_true, hmac, Bool.and_false,
    Bool.not_true, Bool.false_and]
  simp only [Dev.when, Bool.false_eq_true, if_false, macWritable, hm, if_true]

theorem Dev.writeMacCfg_first_facts (hm : m < 64) (hoff : ∀ k, k < 8 → (d.mac (m / 8 * 8 + k)).enabled = false)
    (hport : bit (bits (d.region (m / 8)).netCfg.toNat 2 8) (m % 8) = true) (hv : v.getLsbD 0 = true) :
    ((d.writeMacCfg m v).mac m).enabled = true ∧ ((d.writeMacCfg m v).mac m).noPort = false ∧
      ((d.writeMacCfg m v).region (m / 8)).layout = (d.region (m / 8)).netCfg ∧
      ((d.writeMacCfg m v).region (m / 8)).badLayout = !layoutLegal (d.region (m / 8)).netCfg.toNat := by
  have hregion : ((d.writeMacCfg m v).region (m / 8)) = (d.region (m / 8)).laidOut := by
    rw [Dev.writeMacCfg_first hm hoff hport hv]
    rw [Dev.region_onMac, Dev.readLayout_region]
  have hmac : (d.writeMacCfg m v).mac m = { (d.readLayout (m / 8)).mac m with cfg := setBit (v &&& macWritable m) 0 true } := by
    rw [Dev.writeMacCfg_first hm hoff hport hv, Dev.mac_onMac]
  rw [hregion, hmac]
  exact ⟨setBit_zero_bit _, Dev.readLayout_port hport, rfl, rfl⟩

end

/-! ## Frames at the head of a parser queue (R291) -/

section
variable {d : Dev} {m type : Nat} {x : RxFrame} {rest : List RxFrame}

/-- The device whose parser has taken the frame `x` of MAC `m`. -/
def Dev.taken (m : Nat) (x : RxFrame) (rest : List RxFrame) (d : Dev) : Dev :=
  (d.onMac m fun c => { c with rx := rest }).drainPartition m x.cls x.size

theorem jenRow_head (h : d.Head m type x rest) (f : RxFrame → Dev → Dev) : jenRow type m f d = f x (d.taken m x rest) := by
  simp only [jenRow, h.queue, h.open_, h.type, beq_self_eq_true, Bool.and_self, if_true]
  rfl

theorem onDev_jenRow {s : State} (h : s.dev.Head m type x rest) (f : RxFrame → Dev → Dev) :
    onDev (jenRow type m f) s = .next { s with dev := f x (s.dev.taken m x rest) } := by
  rw [onDev_eq, jenRow_head h]

theorem Dev.taken_mac (d : Dev) (m : Nat) (x : RxFrame) (rest : List RxFrame) : (d.taken m x rest).mac m =
    { d.mac m with rx := rest, held_ := (d.mac m).held_.update 0 x.cls (· - x.size) } := by
  rw [Dev.taken, Dev.drainPartition, Dev.mac_onMac, Dev.mac_onMac]

/-! ## Partners (R308, R309) -/

/-- The partner that an ANNOUNCE tells of. -/
def RxFrame.partner (m now : Nat) (x : RxFrame) : Partner :=
  { deviceId := BitVec.ofNat 64 (beAt x.body 0 8), state := 1, gens := BitVec.ofNat 8 (leAt x.body 8 1), mac := m
    interval := BitVec.ofNat 32 (beAt x.body 12 4), addr := x.src, lastSeen := now, fmtgen := BitVec.ofNat 16 (beAt x.body 10 2)
    dataPort := BitVec.ofNat 16 (beAt x.body 16 2), counter := BitVec.ofNat 64 (beAt x.body 24 8) }

/-- The device with partner `p` in entry `e`. -/
def Dev.partnered (e : Nat) (p : Partner) (d : Dev) : Dev := d.onNet fun n => { n with partners := n.partners.set e p }

/-- A partner whose announcements have stopped. -/
def Partner.expired (p : Partner) : Partner := { p with state := 2 }

/-- A legal ANNOUNCE of another device makes or refreshes its entry. -/
theorem announceEffect_net {fu : Fuses} {e : Nat} (ht : x.total = 64) (ho : x.offset = 0) (hb : x.body.length = 64)
    (hi : beAt x.body 12 4 ≠ 0) (hid : BitVec.ofNat 64 (beAt x.body 0 8) ≠ fu.deviceId)
    (he : (∃ p, d.net.partners.find? (fun q => q.2.deviceId == BitVec.ofNat 64 (beAt x.body 0 8)) = some (e, p)) ∨
      (d.net.partners.find? (fun q => q.2.deviceId == BitVec.ofNat 64 (beAt x.body 0 8)) = none ∧
        partnerSlot d.net.partners = some e)) :
    (announceEffect fu m x d).net = (d.partnered e (x.partner m d.chip.tick)).net := by
  have hlegal : ¬(x.total ≠ 64 ∨ x.offset ≠ 0 ∨ x.body.length ≠ 64 ∨ beAt x.body 12 4 = 0) := by simp [ht, ho, hb, hi]
  obtain ⟨p, hp⟩ | ⟨hn, hslot⟩ := he
  · simp only [announceEffect, hlegal, hid, if_false, hp]
    rfl
  · simp only [announceEffect, hlegal, hid, if_false, hn, hslot, Dev.report_net]
    rfl

/-- A frame that is queued stands last in its queue. -/
theorem Dev.queueFrame_egress (d : Dev) (m cls : Nat) (f : OutFrame) :
    ((d.queueFrame m cls f).mac m).egress.get [] cls = (d.mac m).egress.get [] cls ++ [f] := by
  rw [Dev.queueFrame, Dev.mac_onMac, Tab.get_update_self]

/-- The device that has counted one more ANNOUNCE. -/
def Dev.announcing (d : Dev) : Dev := d.onNet fun n => { n with annSent := bump n.annSent }

/-- The frame of an ANNOUNCE. -/
def Dev.announceFrame (fu : Fuses) (m : Nat) (src dst : W128) (d : Dev) : OutFrame :=
  { tag := if (d.mac m).vid = 0 then none else some ((d.mac m).vid, 0), dst := dst, src := src, dstMac := groupMac (isV6 dst) dst
    srcPort := BitVec.ofNat 16 d.net.announcePort, dstPort := BitVec.ofNat 16 d.net.announcePort
    payload := jenMessage 3 0x08 0 0 (d.net.annSent % 2 ^ 32) 64 0 (d.announceBody fu) }

theorem Dev.announceTo_eq (fu : Fuses) (m : Nat) (src dst : W128) (d : Dev) :
    d.announceTo fu m src dst = d.announcing.queueFrame m 0 (d.announcing.announceFrame fu m src dst) := rfl

theorem beBytes_length (n v : Nat) : (beBytes n v).length = n := by simp [beBytes, leBytes_length]

theorem Dev.announceBody_id (fu : Fuses) (d : Dev) : (d.announceBody fu).take 8 = beBytes 8 fu.deviceId.toNat := by
  simp only [Dev.announceBody, List.append_assoc]
  exact List.take_left' (beBytes_length ..)

theorem exec_announceSend {s : State} {m : MacId} (hs : s.dev.serving = true) (hm : m.val < 64) (hu : (s.dev.mac m.val).linkUp = true)
    (hd : s.dev.net.discMask.getLsbD m.val = true) (h4 : (s.dev.mac m.val).ipv4 ≠ 0) (h6 : (s.dev.mac m.val).ipv6a = 0) :
    exec (.announceSend m) s = .next { s with dev := s.dev.announceTo s.fuses m.val (mapped (s.dev.mac m.val).ipv4) announceV4 } := by
  have hgo : (s.dev.serving && decide (m.val < 64) && (s.dev.mac m.val).linkUp && s.dev.net.discMask.getLsbD m.val) = true := by
    rw [hs, hu, hd, decide_eq_true hm]
    rfl
  simp only [exec, execAnnounceSend, onDev_eq, hgo, if_true, Dev.when, bne_iff_ne.mpr h4, h6, bne_self_eq_false, Bool.false_eq_true, if_false]

end

/-- Settles O12, from what each row leaves of its MAC and of the partner table. -/
theorem linksLayoutsAndPartners : Obligations.LinksLayoutsAndPartners := by
  refine ⟨⟨fun s m hl hr hu => ?_, fun s m cause h => ?_, fun s m who v hl hw hm hoff hport hv => ?_, fun s m who v hl hw hv hu => ?_,
    fun s m who v hl hw hv hu => ?_, fun s m v hl => whenLive_pf0 hl⟩,
    fun s m x rest e h ht ho hb hi hid he => ?_, fun s m hs hm hu hd h4 h6 => ?_, fun s e p hl hp hst ht => ?_⟩
  · have hgo : (s.dev.portReady m.val && !(s.dev.mac m.val).linkUp) = true := by simp [hr, hu]
    refine ⟨_, whenLive_guarded hl hgo, ?_, fun k hk => ?_⟩ <;>
      rw [Dev.mac_of_net (congrArg Net.macs ((Dev.reportMac_net ..).trans (Dev.lockLanes_net ..)))]
    · rw [Dev.mac_onMac]
    · rw [Dev.mac_onMac_ne _ _ hk]
  · have hgo : (if cause = .negotiation then s.dev.live && s.dev.portReady m.val && (s.dev.mac m.val).negotiates
        else s.dev.running && (s.dev.mac m.val).linkUp) = true := by
      by_cases hc : cause = .negotiation
      · rw [if_pos hc] at h ⊢
        obtain ⟨hl, hr, hn⟩ := h
        simp [hl, hr, hn]
      · rw [if_neg hc] at h ⊢
        obtain ⟨hr, hu⟩ := h
        simp [hr, hu]
    refine ⟨s.dev.linkDown m.val cause, onDev_guarded (p := fun d => if cause = .negotiation then _ else _) hgo, ?_⟩
    rw [Dev.linkDown_mac]
    exact ⟨rfl, rfl, rfl, rfl⟩
  · have hplace : m.val / 8 * 8 + m.val % 8 = m.val := by omega
    have hoffm : (s.dev.mac m.val).enabled = false := by
      have := hoff (m.val % 8) (Nat.mod_lt _ (by decide))
      rwa [hplace] at this
    have hexec : exec (.macEnable m who v) s = .next { s with dev := s.dev.writeMacCfg m.val v } :=
      (whenLive_byManagement hl hw).trans (by rw [guarded_pos (by simp [hv, hoffm])])
    exact ⟨_, hexec, Dev.writeMacCfg_first_facts hm hoff hport hv⟩
  · have hexec : exec (.macDisable m who v) s = .next { s with dev := (s.dev.onMac m.val fun c =>
        { c with cfg := setBit (v &&& macWritable m.val) 0 false }).linkDown m.val .disabled } := by
      refine (whenLive_byManagement hl hw).trans ?_
      rw [guarded_pos (by rw [hv]; rfl), Dev.writeMacCfg_off hv, hu]
      rfl
    refine ⟨_, hexec, ?_⟩
    rw [Dev.linkDown_mac, Dev.mac_onMac]
    exact ⟨rfl, rfl, rfl⟩
  · refine (whenLive_byManagement hl hw).trans ?_
    rw [guarded_pos (by rw [hv]; rfl), Dev.writeMacCfg_off hv, hu]
    rfl
  · have hexec : exec (.jenlothAnnounce m) s = .next { s with dev := announceEffect s.fuses m.val x (s.dev.taken m.val x rest) } :=
      onDev_jenRow h _
    have hnet := announceEffect_net (m := m.val) (d := s.dev.taken m.val x rest) (fu := s.fuses) ht ho hb hi hid he
    refine ⟨_, x.partner m.val s.dev.chip.tick, hexec, ?_, rfl, rfl, rfl, rfl, rfl, rfl, ?_⟩
    · rw [hnet]
      exact Tab.get?_set_self ..
    · rw [Dev.mac_of_net (congrArg Net.macs hnet)]
      exact congrArg Mac.rx (s.dev.taken_mac m.val x rest)
  · refine ⟨_, s.dev.announcing.announceFrame s.fuses m.val (mapped (s.dev.mac m.val).ipv4) announceV4, s.dev.announcing.announceBody s.fuses,
      exec_announceSend hs hm hu hd h4 h6, rfl, ?_, rfl, rfl, s.dev.announcing.announceBody_id s.fuses⟩
    rw [Dev.announceTo_eq]
    exact s.dev.announcing.queueFrame_egress m.val 0 _
  · have hexec : exec (.partnerExpiry e) s = .next { s with dev := (s.dev.onNet fun n => { n with
        partners := n.partners.adjust e.val Partner.expired }).report 8 3 0 0xA003 [p.deviceId.toNat, e.val, 0, 0, 0] } := by
      refine (whenLive_pos hl).trans ?_
      simp only [hp, hst, ht, and_self, if_true]
      rfl
    refine ⟨_, hexec, ?_, fun k hk => ?_⟩ <;> rw [Dev.report_net]
    · exact (Tab.get?_adjust_self s.dev.net.partners e.val Partner.expired).trans (congrArg (Option.map Partner.expired) hp)
    · exact Tab.get?_adjust_ne s.dev.net.partners Partner.expired hk

end Sys2Proof.Machine
end

section
/-!
PROOFS. Jenloth sessions: OPEN, PING, CLOSE and the idle time (R294, R295).
-/
namespace Sys2Proof.Machine

/-! ## Frames of a session (R291, R295) -/

/-- The session of a frame that has been heard. -/
def Session.heard (now : Nat) (x : RxFrame) (y : Session) : Session :=
  { y with lastTick := now, vid := x.vid, dstPort := x.dstPort, ether := x.ether, own := x.own }

section
variable {d : Dev} {m n type : Nat} {x : RxFrame} {rest : List RxFrame} {y : Session}

theorem Dev.sessionFor_facts (h : d.sessionFor m x = some (n, y)) : d.net.sessions.get? n = some y ∧ y.mac = m := by
  unfold Dev.sessionFor at h
  split at h
  · exact absurd h (by simp)
  · split at h
    · exact absurd h (by simp)
    · next k _ s hs =>
      split at h
      · next hc =>
        obtain ⟨rfl, rfl⟩ := Prod.mk.inj (Option.some.inj h)
        obtain ⟨-, -, -, hm, -⟩ := hc
        exact ⟨hs, hm⟩
      · exact absurd h (by simp)

/-- The device that has heard from session `n`. -/
def Dev.hearing (m n : Nat) (x : RxFrame) (rest : List RxFrame) (d : Dev) : Dev :=
  (d.taken m x rest).onSession n (Session.heard d.chip.tick x)

theorem withSession_found (h : d.sessionFor m x = some (n, y)) (f : Nat → Session → RxFrame → Dev → Dev) :
    withSession m f x (d.taken m x rest) = f n y x (d.hearing m n x rest) := by
  have hs : (d.taken m x rest).sessionFor m x = some (n, y) := h
  simp only [withSession, hs]
  rfl

theorem Dev.session_onSession (h : d.net.sessions.get? n = some y) (f : Session → Session) :
    (d.onSession n f).net.sessions.get? n = some (f y) := by
  show (d.net.sessions.adjust n f).get? n = _
  rw [Tab.get?_adjust_self, h]
  rfl

theorem Dev.session_hearing (h : d.sessionFor m x = some (n, y)) :
    (d.hearing m n x rest).net.sessions.get? n = some (y.heard d.chip.tick x) :=
  Dev.session_onSession (d := d.taken m x rest) (Dev.sessionFor_facts h).1 _

theorem Dev.hearing_mac (d : Dev) (m n k : Nat) (x : RxFrame) (rest : List RxFrame) :
    (d.hearing m n x rest).mac k = (d.taken m x rest).mac k := rfl

theorem Dev.hearing_egress (d : Dev) (m n cls : Nat) (x : RxFrame) (rest : List RxFrame) :
    ((d.hearing m n x rest).mac m).egress.get [] cls = (d.mac m).egress.get [] cls := by
  rw [Dev.hearing_mac, Dev.taken_mac]

theorem Dev.hearing_rx (d : Dev) (m n : Nat) (x : RxFrame) (rest : List RxFrame) : ((d.hearing m n x rest).mac m).rx = rest := by
  rw [Dev.hearing_mac, Dev.taken_mac]

/-- A message to a client joins the queue of its class. -/
theorem Dev.sendJen_egress (d : Dev) (m cls : Nat) (p : Peer) (b : Bytes) : ∃ f : OutFrame, f.payload = b ∧
    ((d.sendJen m cls p b).mac m).egress.get [] cls = (d.mac m).egress.get [] cls ++ [f] :=
  ⟨_, rfl, d.queueFrame_egress m cls _⟩

theorem Dev.sendJen_rx (d : Dev) (m cls : Nat) (p : Peer) (b : Bytes) (k : Nat) : ((d.sendJen m cls p b).mac k).rx = (d.mac k).rx := by
  by_cases hk : k = m
  · subst hk
    rw [Dev.sendJen, Dev.queueFrame, Dev.mac_onMac]
  · rw [Dev.sendJen, Dev.queueFrame, Dev.mac_onMac_ne _ _ hk]

/-- A control message of a session leaves in queue 0 of its MAC. -/
theorem Dev.sendControl_egress (d : Dev) (y : Session) (n type seq : Nat) (body : Bytes) : ∃ f : OutFrame,
    f.payload = jenMessage y.gen type (wireSession n) y.cookie.toNat seq body.length 0 body ∧
    ((d.sendControl y n type seq body).mac y.mac).egress.get [] 0 = (d.mac y.mac).egress.get [] 0 ++ [f] :=
  d.sendJen_egress y.mac 0 _ _

/-! ## OPEN (R294) -/

/-- The session that an OPEN makes. -/
def RxFrame.opened (m now : Nat) (cookie : W32) (x : RxFrame) : Session :=
  { src := x.src, v6 := x.v6, srcPort := x.srcPort, dstPort := x.dstPort, mac := m, gen := x.gen, cookie := cookie
    nonce := BitVec.ofNat 64 (beAt x.body 0 8), seq0 := BitVec.ofNat 32 (beAt x.body 8 4), maxFrame := beAt x.body 12 2
    ruleset := x.ruleset, nsDefault := x.nsDefault, ceiling := x.ceiling, high := BitVec.ofNat 32 (beAt x.body 8 4) - 1
    nextSeq := BitVec.ofNat 32 (beAt x.body 8 4), lastTick := now, vid := x.vid, ether := x.ether, own := x.own }

/-- The device with the new session `n` of group `g`. -/
def Dev.openedOn (g n : Nat) (y : Session) (d : Dev) : Dev :=
  { d with free := d.free + 1 }.onNet fun t => { t with
    sessions := t.sessions.set n y, sessPeak := t.sessPeak.update 0 g (max · ((d.net.sessionsOf g).length + 1)) }

/-- The numbers of a group that are free among its sessions are those that no session has. -/
theorem Net.sessionsOf_get? (t : Net) (g i : Nat) (h : i < groupSize g) :
    (t.sessionsOf g).get? (groupBase g + i) = t.sessions.get? (groupBase g + i) := by
  unfold Net.sessionsOf
  induction t.sessions with
  | nil => rfl
  | cons e l ih =>
    by_cases hk : e.1 = groupBase g + i
    · have hin : groupBase g ≤ e.1 ∧ e.1 < groupBase g + groupSize g := by omega
      rw [List.filter_cons_of_pos (by simpa using hin)]
      simp [Tab.get?, hk]
    · by_cases hin : groupBase g ≤ e.1 ∧ e.1 < groupBase g + groupSize g
      · rw [List.filter_cons_of_pos (by simpa using hin)]
        simpa [Tab.get?, hk] using ih
      · rw [List.filter_cons_of_neg (by simpa using hin)]
        simpa [Tab.get?, hk] using ih

/-- An OPEN of a client that has no session takes the lowest free number of its group. -/
theorem openEffect_new {fu : Fuses} {i : Nat} (ht : x.total = 16) (ho : x.offset = 0) (hb : x.body.length = 16)
    (hz : zeroRange x.body 14 2 = true) (hlo : 1518 ≤ beAt x.body 12 2) (hhi : beAt x.body 12 2 ≤ 9216)
    (hnew : ∀ e ∈ d.net.sessions, ¬(e.2.nonce = BitVec.ofNat 64 (beAt x.body 0 8) ∧ e.2.src = x.src ∧ e.2.srcPort = x.srcPort ∧
      e.2.mac = m ∧ e.2.gen = x.gen ∧ e.2.closers = 0))
    (hi : i < groupSize (macRegion m)) (hfree : ∀ k, k ≤ i →
      ((d.net.sessions.get? (groupBase (macRegion m) + k)).isNone = true ↔ k = i)) :
    openEffect fu m x d = (d.openedOn (macRegion m) (groupBase (macRegion m) + i)
      (x.opened m d.chip.tick ((Config.drbg d.free).setWidth 32))).openAck fu m x (groupBase (macRegion m) + i)
        (x.opened m d.chip.tick ((Config.drbg d.free).setWidth 32)) := by
  have hlegal : ¬(x.total ≠ 16 ∨ x.offset ≠ 0 ∨ x.body.length ≠ 16 ∨ zeroRange x.body 14 2 = false ∨ beAt x.body 12 2 < 1518 ∨
      9216 < beAt x.body 12 2) := by simp [ht, ho, hb, hz, hlo, hhi]
  have hnone : (d.net.sessions.find? fun e => e.2.nonce == BitVec.ofNat 64 (beAt x.body 0 8) && e.2.src == x.src &&
      e.2.srcPort == x.srcPort && e.2.mac == m && e.2.gen == x.gen && e.2.closers == 0) = none := by
    refine List.find?_eq_none.mpr fun e he hsame => hnew e he ?_
    simpa only [Bool.and_eq_true, beq_iff_eq, and_assoc] using hsame
  have hlow : findNat (groupSize (macRegion m)) (fun k =>
      ((d.net.sessionsOf (macRegion m)).get? (groupBase (macRegion m) + k)).isNone) = some i := by
    refine findNat_eq_some hi ?_ fun j hj => ?_
    · rw [Net.sessionsOf_get? _ _ _ hi]
      exact (hfree i (Nat.le_refl _)).mpr rfl
    · rw [Net.sessionsOf_get? _ _ _ (by omega)]
      exact Bool.eq_false_iff.mpr fun h => absurd ((hfree j (by omega)).mp h) (by omega)
  simp only [openEffect, hlegal, if_false, hnone, hlow]
  rfl

/-- The answer to an OPEN. -/
theorem Dev.openAck_facts (fu : Fuses) (y : Session) (e : Dev) : ∃ f body,
    ((e.openAck fu m x n y).mac m).egress.get [] x.cls = (e.mac m).egress.get [] x.cls ++ [f] ∧
      f.payload = jenMessage y.gen 0x82 (wireSession n) y.cookie.toNat x.seq.toNat 40 0 body ∧
      body.take 9 = beBytes 8 y.nonce.toNat ++ [stOk] ∧ ((e.openAck fu m x n y).mac m).rx = (e.mac m).rx := by
  obtain ⟨f, hp, he⟩ := e.sendJen_egress m x.cls (x.peer 0 9216) (jenMessage y.gen 0x82 (wireSession n) y.cookie.toNat x.seq.toNat 40 0
    (beBytes 8 y.nonce.toNat ++ [stOk, 0] ++ beBytes 2 (e.mac m).maxBytes ++ beBytes 2 y.nsDefault.toNat ++
      beBytes 1 y.ceiling ++ [0] ++ beBytes 4 (e.net.idleMs / 1000) ++ beBytes 4 e.net.gapMs ++ beBytes 8 fu.deviceId.toNat ++ zeros 8))
  refine ⟨f, _, he, hp, ?_, e.sendJen_rx ..⟩
  simp only [List.append_assoc]
  rw [show [stOk, 0] = [stOk] ++ [(0 : Byte)] from rfl]
  simp only [List.append_assoc]
  rw [← List.append_assoc]
  exact List.take_left' (by rw [List.length_append, beBytes_length]; rfl)

/-! ## CLOSE and the idle time (R295) -/

/-- The session that a CLOSE ends. -/
def Session.closing (y : Session) : Session :=
  { y with
    closers := y.closers + 1
    window := y.window.keep fun _ e => match e with
      | .reassembling _ _ _ _ _ _ => false
      | .held _ _ => false
      | _ => true }

theorem Session.closing_idle (h : y.inFlight = false) : y.closing.inFlight = false := by
  unfold Session.inFlight at h ⊢
  rw [List.any_eq_false] at h ⊢
  exact fun e he => h e (List.mem_filter.mp he).1

theorem Dev.endSession_sessions (d : Dev) (n : Nat) : (d.endSession n).net.sessions = d.net.sessions.erase n := by
  unfold Dev.endSession Dev.closeStreamsOf
  exact Dev.each_keep (fun e => e.net.sessions) _ _ (fun k e => by simp [Dev.closeStream]) _

theorem Dev.endSession_macs (d : Dev) (n : Nat) : (d.endSession n).net.macs = d.net.macs := by
  unfold Dev.endSession
  rw [Dev.closeStreamsOf_macs]
  rfl

/-- A CLOSE of a session with nothing in flight is answered and ends it. -/
theorem closeEffect_idle (he : x.empty = true) (hs : d.net.sessions.get? n = some y) (hc : y.closers = 0) (hi : y.inFlight = false) :
    ∃ e : Dev, e.net = (d.onSession n Session.closing).net ∧ closeEffect m n y x d =
      (e.sendControl y.closing n 0x83 0 [stOk, 0, 0, 0]).endSession n := by
  have hs' : ((d.dropHeld n).onSession n Session.closing).net.sessions.get? n = some y.closing :=
    Dev.session_onSession (d := d.dropHeld n) hs _
  refine ⟨(d.dropHeld n).onSession n Session.closing, rfl, ?_⟩
  have hone : y.closing.closers = 1 := by
    rw [Session.closing, hc]
  have hclose : closeEffect m n y x d = ((d.dropHeld n).onSession n Session.closing).closeIfDone n := by
    simp only [closeEffect, he, Bool.not_true, Bool.false_eq_true, if_false]
    rfl
  rw [hclose, Dev.closeIfDone, hs']
  simp only [hone, Session.closing_idle hi, Nat.one_ne_zero, Bool.false_eq_true, or_self, if_false]
  rfl

end

/-- Settles O14, from what each message leaves of the sessions and of its MAC. -/
theorem sessionsOpenAndEnd : Obligations.SessionsOpenAndEnd := by
  refine ⟨fun s m x rest i h ht ho hb hz hlo hhi hnew hfree => ?_, fun s m x rest n y h hs he => ?_,
    fun s m x rest n y h hs he hc hi => ?_, fun s n y hl hs ht => ?_⟩
  · have hopen := openEffect_new (d := s.dev.taken m.val x rest) (fu := s.fuses) ht ho hb hz hlo hhi hnew hfree.1 hfree.2
    have hexec := (onDev_jenRow h (openEffect s.fuses m.val)).trans (congrArg (fun d => Host.Outcome.next { s with dev := d }) hopen)
    obtain ⟨f, body, hegress, hpay, hbody, hrx⟩ := Dev.openAck_facts (m := m.val) (n := groupBase (macRegion m.val) + i) (x := x) s.fuses
      (x.opened m.val s.dev.chip.tick ((Config.drbg s.dev.free).setWidth 32))
      ((s.dev.taken m.val x rest).openedOn (macRegion m.val) (groupBase (macRegion m.val) + i)
        (x.opened m.val s.dev.chip.tick ((Config.drbg s.dev.free).setWidth 32)))
    have hmac : ((s.dev.taken m.val x rest).openedOn (macRegion m.val) (groupBase (macRegion m.val) + i)
        (x.opened m.val s.dev.chip.tick ((Config.drbg s.dev.free).setWidth 32))).mac m.val = (s.dev.taken m.val x rest).mac m.val := rfl
    rw [hmac, Dev.taken_mac] at hegress hrx
    exact ⟨_, x.opened m.val s.dev.chip.tick ((Config.drbg s.dev.free).setWidth 32), f, body, hexec,
      Tab.get?_set_self .., rfl, rfl, rfl, rfl, rfl, rfl, rfl, rfl, hrx, hegress, hpay, hbody⟩
  · have hping : withSession m.val (pingEffect m.val) x (s.dev.taken m.val x rest) =
        (s.dev.hearing m.val n x rest).sendJen m.val x.cls (x.peer 0 9216)
          (jenMessage y.gen 0x85 (wireSession n) y.cookie.toNat 0 0 0 []) := by
      rw [withSession_found hs]
      simp only [pingEffect, he, Bool.not_true, Bool.false_eq_true, if_false]
    have hexec := (onDev_jenRow h _).trans (congrArg (fun d => Host.Outcome.next { s with dev := d }) hping)
    obtain ⟨f, hp, hf⟩ := (s.dev.hearing m.val n x rest).sendJen_egress m.val x.cls (x.peer 0 9216)
      (jenMessage y.gen 0x85 (wireSession n) y.cookie.toNat 0 0 0 [])
    refine ⟨_, f, hexec, ?_, Dev.session_hearing hs, ?_, hp⟩
    · rw [Dev.sendJen_rx, Dev.hearing_rx]
    · rw [hf, Dev.hearing_egress]
  · obtain ⟨hy, hmac⟩ := Dev.sessionFor_facts hs
    obtain ⟨e, hnet, hclose⟩ := closeEffect_idle (m := m.val) (d := s.dev.hearing m.val n x rest) (y := y.heard s.dev.chip.tick x) he
      (Dev.session_hearing hs) hc hi
    have hexec := (onDev_jenRow h _).trans
      (congrArg (fun d => Host.Outcome.next { s with dev := d }) ((withSession_found hs (closeEffect m.val)).trans hclose))
    have hold : (e.mac m.val).egress.get [] 0 = (s.dev.mac m.val).egress.get [] 0 :=
      (congrArg (fun c : Mac => c.egress.get [] 0) (Dev.mac_of_net ((congrArg Net.macs hnet).trans rfl) m.val)).trans (Dev.hearing_egress s.dev m.val n 0 x rest)
    obtain ⟨f, hp, hf⟩ := e.sendControl_egress (y.heard s.dev.chip.tick x).closing n 0x83 0 [stOk, 0, 0, 0]
    refine ⟨_, f, hexec, ?_, ?_, hp⟩
    · rw [Dev.endSession_sessions]
      exact Tab.get?_erase_self ..
    · rw [Dev.mac, Dev.endSession_macs, ← hold]
      exact hmac ▸ hf
  · have hexec : exec (.sessionIdleExpiry n) s = .next { s with dev := (s.dev.jenCount (macRegion y.mac) 14).endSession n } := by
      refine (whenLive_pos hl).trans ?_
      simp only [hs, ht, if_true]
    refine ⟨_, hexec, ?_, fun k hk => ?_⟩ <;> rw [Dev.endSession_sessions]
    · exact Tab.get?_erase_self ..
    · exact Tab.get?_erase_ne _ hk

end Sys2Proof.Machine
end

section
/-!
PROOFS. The sequence window of a Jenloth session (R301 to R305).
-/
namespace Sys2Proof.Machine

/-! ## The window moves (R301, R303) -/

section
variable {d : Dev} {m n i : Nat} {x : RxFrame} {rest : List RxFrame} {y : Session} {q : W32}

@[simp] theorem Dev.setEntry_macs (d : Dev) (n : Nat) (q : W32) (e : Entry) : (d.setEntry n q e).net.macs = d.net.macs := rfl
@[simp] theorem Dev.onSession_macs (d : Dev) (n : Nat) (f : Session → Session) : (d.onSession n f).net.macs = d.net.macs := rfl
@[simp] theorem Dev.submit_net (d : Dev) (i : Nat) : (d.submit i).net = d.net := rfl

/-- Session `n` has passed the number `q`. -/
def Dev.Passed (n : Nat) (q : W32) (d : Dev) : Prop :=
  ∃ y, d.net.sessions.get? n = some y ∧ y.entry q = some .passed

theorem Dev.passed_setEntry (hs : d.net.sessions.get? n = some y) (q : W32) : (d.setEntry n q .passed).Passed n q :=
  ⟨_, Dev.session_setEntry hs q .passed, Tab.get?_set_self ..⟩

theorem Dev.Passed.next (h : d.Passed n q) : (d.onSession n fun s => { s with nextSeq := s.nextSeq + 1 }).Passed n q := by
  obtain ⟨y, hs, he⟩ := h
  exact ⟨_, Dev.session_onSession hs _, he⟩

/-- Another number that is admitted leaves the number that was passed. -/
theorem Dev.Passed.admits (h : d.Passed n q) {p : W32} (hp : p ≠ q) (e : Entry) (i : Nat) : ((d.setEntry n p e).submit i).Passed n q := by
  obtain ⟨y, hs, he⟩ := h
  have hne : q.toNat ≠ p.toNat := fun hqp => hp (BitVec.eq_of_toNat_eq hqp).symm
  exact ⟨_, Dev.session_setEntry hs p e, (Tab.get?_set_ne _ _ hne).trans he⟩

/-- Held requests that are admitted leave the numbers that were passed. -/
theorem Dev.Passed.advance : ∀ (k : Nat) {d : Dev}, d.Passed n q → (d.advance n k).Passed n q
  | 0, _, h => h
  | k + 1, d, h => by
    obtain ⟨y, hs, he⟩ := h
    have hd : d.Passed n q := ⟨y, hs, he⟩
    rw [Dev.advance, hs]
    simp only
    split
    · exact hd
    · split
      · exact hd
      · exact hd
      · next c since hheld =>
        have hp : y.nextSeq ≠ q := fun hq => by rw [hq, he] at hheld; exact absurd hheld (by simp)
        exact Dev.Passed.advance k (hd.admits hp (.inFlight c) c).next
      · exact Dev.Passed.advance k hd.next

theorem Dev.advance_macs (n : Nat) : ∀ (k : Nat) (d : Dev), (d.advance n k).net.macs = d.net.macs
  | 0, _ => rfl
  | k + 1, d => by
    rw [Dev.advance]
    split
    · rfl
    · next y hs =>
      simp only
      split
      · rfl
      · split
        · rfl
        · rfl
        · exact Dev.advance_macs n k _
        · exact Dev.advance_macs n k _

/-! ## A request in one frame (R296, R301, R303) -/

theorem seqDiff_self (q : W32) : seqDiff q q = 0 := by
  simp [seqDiff]

theorem seqDiff_succ (q : W32) : seqDiff (q + 1) q = 1 := by
  have h : q + 1 - q = 1#32 := by bv_omega
  rw [seqDiff, h]
  rfl

theorem seqDiff_low (q : W32) : seqDiff (q - 63) q = -63 := by
  have h : q - 63 - q = 4294967233#32 := by bv_omega
  rw [seqDiff, h]
  rfl

theorem mapM_range_getElem (b : Bytes) (f : Nat → Option Byte) (hf : ∀ j < b.length, f j = b[j]?) :
    (List.range b.length).mapM f = some b := by
  have h : ∀ n, n ≤ b.length → (List.range n).mapM f = some (b.take n) := by
    intro n
    induction n with
    | zero => exact fun _ => rfl
    | succ n ih =>
      intro hn
      have ha : f n = some b[n] := (hf n hn).trans (List.getElem?_eq_getElem hn)
      rw [List.range_succ, List.mapM_append, ih (Nat.le_of_succ_le hn), ← List.take_append_getElem hn]
      simp [ha]
  rw [h _ (Nat.le_refl _), List.take_length]

/-- A frame that holds its whole message gives its body. -/
theorem wholeBody_single (b : Bytes) : wholeBody [(0, b)] b.length = some b :=
  mapM_range_getElem b _ fun j _ => by
    simp [partByte, List.findSome?_cons]
    cases b[j]? <;> rfl

/-- The slide of an empty window by one number. -/
theorem Session.slide_empty (hw : y.window = []) (hn : y.nextSeq = q) : y.slide q = some ({ y with high := q, window := [], nextSeq := q }, 0) := by
  have hz : (seqDiff (q - 63) y.nextSeq).toNat = 0 := by
    rw [hn, seqDiff_low]
    rfl
  simp only [Session.slide, hw, hz, List.any_nil, Bool.false_eq_true, if_false, List.range_zero, List.filter_nil, List.length_nil, if_true]
  rw [hn]
  rfl

/-- The session that a held request of number `q` has been admitted to. -/
def Session.admitted (q : W32) (i : Nat) (y : Session) : Session :=
  { y with window := y.window.set q.toNat (.inFlight i), nextSeq := y.nextSeq + 1 }

/-- The highest number, held for its turn, is admitted at once. -/
theorem Dev.advance_highest (hs : d.net.sessions.get? n = some y) (hn : y.nextSeq = q) (hq : y.high = q) {since : Nat}
    (he : y.entry q = some (.held i since)) (k : Nat) : d.advance n (k + 2) =
      ((d.setEntry n q (.inFlight i)).submit i).onSession n fun s => { s with nextSeq := s.nextSeq + 1 } := by
  have hnext : (((d.setEntry n q (.inFlight i)).submit i).onSession n fun s => { s with nextSeq := s.nextSeq + 1 }).net.sessions.get? n =
      some (y.admitted q i) :=
    Dev.session_onSession (d := (d.setEntry n q (.inFlight i)).submit i) (Dev.session_setEntry hs q _) _
  have hdue : ¬ 0 < seqDiff y.nextSeq y.high := by rw [hn, hq, seqDiff_self]; decide
  have hdone : 0 < seqDiff (y.admitted q i).nextSeq (y.admitted q i).high := by
    show 0 < seqDiff (y.nextSeq + 1) y.high
    rw [hn, hq, seqDiff_succ]
    decide
  rw [Dev.advance, hs]
  simp only [hdue, if_false]
  rw [hn, he]
  show Dev.advance n (k + 1) _ = _
  rw [Dev.advance, hnext]
  simp only [hdone, if_true]

/-- The frame of a message that it holds whole. -/
theorem RxFrame.whole_framing (ho : x.offset = 0) (hb : x.body.length = x.total) (ht : x.total ≤ 67117576) : x.framingOk = true := by
  have hbody : (x.total == 0 || !x.body.isEmpty) = true := by
    rw [← hb]
    cases x.body <;> rfl
  simp [RxFrame.framingOk, ho, hb, ht, hbody]

theorem RxFrame.agrees_nil (x : RxFrame) : x.agrees [] = true := by
  simp [RxFrame.agrees, partByte]

theorem Dev.joinMessage_whole (ho : x.offset = 0) (hb : x.body.length = x.total) (ht : x.total ≤ 67117576) (m n : Nat) (d : Dev) :
    d.joinMessage m n x [] 7 false true = d.completeRequest m n x (min 7 x.cls) x.body := by
  have hbody : wholeBody ([] ++ [(x.offset, x.body)]) x.total = some x.body := by
    rw [ho, ← hb]
    exact wholeBody_single _
  simp only [Dev.joinMessage, RxFrame.whole_framing ho hb ht, RxFrame.agrees_nil, Bool.not_true, Bool.or_false, Bool.false_eq_true,
    if_false, hbody]

/-- The device that has made a coach of a request. -/
def Dev.coached (m n : Nat) (x : RxFrame) (cls : Nat) (y : Session) (d : Dev) : Dev :=
  (d.jenCount (macRegion m) 1).onEng fun e =>
    { e with nextCoach := e.nextCoach + 1, coaches := e.coaches.set e.nextCoach (y.coachOf n x cls x.body) }

theorem Dev.completeRequest_next (hs : d.net.sessions.get? n = some y) (hn : y.nextSeq = x.seq) (hh : y.high = x.seq) (m cls : Nat) :
    d.completeRequest m n x cls x.body = ((((d.coached m n x cls y).setEntry n x.seq (.held d.eng.nextCoach d.chip.tick)).setEntry n x.seq
      (.inFlight d.eng.nextCoach)).submit d.eng.nextCoach).onSession n fun s => { s with nextSeq := s.nextSeq + 1 } := by
  have hturn : ¬ seqDiff x.seq y.nextSeq < 0 := by rw [hn, seqDiff_self]; decide
  have hset := Dev.session_setEntry (d := d.coached m n x cls y) hs x.seq (.held d.eng.nextCoach d.chip.tick)
  rw [Dev.completeRequest, hs]
  simp only [hturn, if_false]
  exact Dev.advance_highest hset hn hh (Tab.get?_set_self ..) 198

theorem Dev.submit_coach {c : Coach} (h : d.coach? i = some c) :
    (d.submit i).coach? i = some { c with stage := .arrived, order := d.eng.nextStamp } :=
  (Dev.coach?_onCoach i (fun c => { c with stage := .arrived, order := d.eng.nextStamp }) d).trans (by rw [h]; rfl)

/-- The device that has admitted the coach of a request as number `q` of session `n`. -/
def Dev.admitting (n : Nat) (q : W32) (i tick : Nat) (d : Dev) : Dev :=
  (((d.setEntry n q (.held i tick)).setEntry n q (.inFlight i)).submit i).onSession n fun s => { s with nextSeq := s.nextSeq + 1 }

theorem Dev.admitting_coach {c : Coach} (h : d.coach? i = some c) (n : Nat) (q : W32) (tick : Nat) :
    (d.admitting n q i tick).coach? i = some { c with stage := .arrived, order := d.eng.nextStamp } :=
  Dev.submit_coach (d := (d.setEntry n q (.held i tick)).setEntry n q (.inFlight i)) h

theorem Dev.admitting_session (hs : d.net.sessions.get? n = some y) (q : W32) (i tick : Nat) : ∃ y',
    (d.admitting n q i tick).net.sessions.get? n = some y' ∧ y'.entry q = some (.inFlight i) ∧ y'.high = y.high ∧
      y'.nextSeq = y.nextSeq + 1 :=
  ⟨_, Dev.session_onSession (d := ((d.setEntry n q (.held i tick)).setEntry n q (.inFlight i)).submit i)
    (Dev.session_setEntry (Dev.session_setEntry hs ..) ..) _, Tab.get?_set_self .., rfl, rfl⟩

theorem Dev.admitting_macs (d : Dev) (n : Nat) (q : W32) (i tick : Nat) : (d.admitting n q i tick).net.macs = d.net.macs := rfl

theorem Dev.admitting_nextCoach (d : Dev) (n : Nat) (q : W32) (i tick : Nat) :
    (d.admitting n q i tick).eng.nextCoach = d.eng.nextCoach := rfl

theorem Dev.coached_coach (d : Dev) (m n : Nat) (x : RxFrame) (cls : Nat) (y : Session) :
    (d.coached m n x cls y).coach? d.eng.nextCoach = some (y.coachOf n x cls x.body) :=
  Tab.get?_set_self ..

/-- What a request that is admitted at once leaves. -/
theorem Dev.coached_admitting (hs : d.net.sessions.get? n = some y) (m cls tick : Nat) (x : RxFrame) (q : W32) {e : Dev}
    (he : e = (d.coached m n x cls y).admitting n q d.eng.nextCoach tick) :
    ∃ y' c, e.net.macs = d.net.macs ∧ e.coach? d.eng.nextCoach = some c ∧ c.stage = .arrived ∧
      c.source = .session n x.seq ∧ c.order = d.eng.nextStamp ∧ e.eng.nextCoach = d.eng.nextCoach + 1 ∧
      e.net.sessions.get? n = some y' ∧ y'.entry q = some (.inFlight d.eng.nextCoach) ∧ y'.high = y.high ∧
      y'.nextSeq = y.nextSeq + 1 := by
  subst he
  obtain ⟨y', hy', hent, hhigh, hnext⟩ := Dev.admitting_session (d := d.coached m n x cls y) hs q d.eng.nextCoach tick
  exact ⟨y', { y.coachOf n x cls x.body with stage := .arrived, order := d.eng.nextStamp }, rfl,
    Dev.admitting_coach (d.coached_coach m n x cls y) n q tick, rfl, rfl, rfl, rfl, hy', hent, hhigh, hnext⟩

/-- The device in which the window of session `n` ends with the number `q`. -/
def Dev.slid (n : Nat) (q : W32) : Dev → Dev :=
  Dev.onSession n fun z => { z with high := q, window := [], nextSeq := q }

theorem Dev.session_slid (hs : d.net.sessions.get? n = some y) (q : W32) :
    (d.slid n q).net.sessions.get? n = some { y with high := q, window := [], nextSeq := q } :=
  Dev.session_onSession hs _

/-- The request with the next number, in one frame, of a session with an empty window. -/
theorem requestEffect_next (hs : d.net.sessions.get? n = some y) {z : Session} (hw : z.window = []) (hq : x.seq = z.high + 1)
    (hn : z.nextSeq = x.seq) (ho : x.offset = 0) (hb : x.body.length = x.total) (ht : x.total ≤ 67117576) (m : Nat) :
    requestEffect m n z x d = (((d.slid n x.seq).coached m n x (min 7 x.cls) { y with high := x.seq, window := [], nextSeq := x.seq }).admitting n
      x.seq d.eng.nextCoach d.chip.tick) := by
  have hdiff : seqDiff x.seq z.high = 1 := by rw [hq, seqDiff_succ]
  have h65 : ¬ (65 : Int) ≤ 1 := by decide
  have h64 : ¬ (1 : Int) ≤ -64 := by decide
  have heff : requestEffect m n z x d = (d.slid n x.seq).joinMessage m n x [] 7 false true := by
    rw [requestEffect, hdiff]
    simp only [h65, h64, if_false, Session.slide_empty hw hn]
    rfl
  rw [heff, Dev.joinMessage_whole ho hb ht]
  exact Dev.completeRequest_next (Dev.session_slid hs x.seq) rfl rfl m _

/-! ## The other entries of the window (R302, R303, R305) -/

/-- A number in the window. -/
theorem requestEffect_replays {z : Session} (hlo : -64 < seqDiff x.seq z.high) (hhi : seqDiff x.seq z.high ≤ 0) {o : W32} {fields : Bytes}
    {partly : Bool} {k : Nat} (he : z.entry x.seq = some (.replayable o fields partly k)) (ho : x.offset = 0) (m n : Nat) (d : Dev) :
    requestEffect m n z x d = d.replay m n z x o fields partly k := by
  have h65 : ¬ 65 ≤ seqDiff x.seq z.high := by omega
  have h64 : ¬ seqDiff x.seq z.high ≤ -64 := by omega
  have h1 : ¬ 1 ≤ seqDiff x.seq z.high := by omega
  simp only [requestEffect, h65, h64, h1, if_false, he, ho, if_true]

theorem Dev.replay_facts {z : Session} (hg : z.gen ≠ 1) (m n : Nat) (x : RxFrame) (o : W32) (fields : Bytes) (partly : Bool) (k : Nat)
    (d : Dev) : (d.replay m n z x o fields partly k).eng = d.eng ∧ ∃ f : OutFrame,
      f.payload = jenMessage z.gen 0x81 (wireSession n) z.cookie.toNat x.seq.toNat (8 + fields.length) 0
        (beBytes 4 o.toNat ++ [stReplayed, BitVec.ofNat 8 (b2n partly)] ++ beBytes 1 k ++ [0] ++ fields) ∧
      ((d.replay m n z x o fields partly k).mac m).egress.get [] x.cls = (d.mac m).egress.get [] x.cls ++ [f] := by
  obtain ⟨f, hp, hf⟩ := (d.jenCount (macRegion m) 5).sendJen_egress m x.cls (x.peer 0 9216) (jenMessage z.gen 0x81 (wireSession n)
    z.cookie.toNat x.seq.toNat (8 + fields.length) 0
    (beBytes 4 o.toNat ++ [stReplayed, BitVec.ofNat 8 (b2n partly)] ++ beBytes 1 k ++ [0] ++ fields))
  have hlen : (beBytes 4 o.toNat ++ [stReplayed, BitVec.ofNat 8 (b2n partly)] ++ beBytes 1 k ++ [0] ++ fields).length = 8 + fields.length := by
    simp [beBytes_length]
    omega
  have hr : d.replay m n z x o fields partly k = (d.jenCount (macRegion m) 5).sendJen m x.cls (x.peer 0 9216) (jenMessage z.gen 0x81
      (wireSession n) z.cookie.toNat x.seq.toNat (8 + fields.length) 0
      (beBytes 4 o.toNat ++ [stReplayed, BitVec.ofNat 8 (b2n partly)] ++ beBytes 1 k ++ [0] ++ fields)) := by
    simp only [Dev.replay, hg, if_false, hlen]
  rw [hr]
  exact ⟨rfl, f, hp, hf⟩

/-- An ABORT of a request that runs. -/
theorem abortMessage_inFlight {z : Session} (hlo : -64 < seqDiff x.seq z.high) (hhi : seqDiff x.seq z.high ≤ 0) (hx : x.empty = true)
    (he : z.entry x.seq = some (.inFlight i)) {c : Coach} (hc : d.coach? i = some c) (hst : c.stage ≠ .ended)
    (hf : c.run.flags.committed = false) (m n : Nat) : ∃ e : Dev, abortMessage m n z x d = e ∧
      e.coach? i = some { c.abortedBy with acks := c.acks ++ [stOk] } := by
  have h65 : ¬ 65 ≤ seqDiff x.seq z.high := by omega
  have h64 : ¬ seqDiff x.seq z.high ≤ -64 := by omega
  have h1 : ¬ 1 ≤ seqDiff x.seq z.high := by omega
  obtain ⟨hok, hab⟩ := Dev.abortCoach_open (d := d.jenCount (macRegion m) 13) hc hst hf
  refine ⟨((d.jenCount (macRegion m) 13).abortCoach i).2.onCoach i fun k => { k with acks := k.acks ++ [stOk] }, ?_, ?_⟩
  · rw [← hok]
    simp only [abortMessage, h65, h64, h1, if_false, hx, Bool.not_true, Bool.false_eq_true, he]
  · rw [Dev.coach?_onCoach, hab, ← c.abortedBy_acks]
    rfl

end

/-- Settles O15, from the window's moves and from what each number's entry answers. -/
theorem requestsThroughTheWindow : Obligations.RequestsThroughTheWindow := by
  refine ⟨fun s m x rest n y h hs hw hq hn ho hb ht => ?_, fun s m x rest n y o fields partly k h hs hg hlo hhi he ho => ?_,
    fun s m x rest n y i c h hs hx hlo hhi he hc hst hf => ?_, fun s n q y total last cls parts again peer hl hs he ht => ?_,
    fun s n y k i since hl hs hk ht hn => ?_⟩
  · have heff := requestEffect_next (d := s.dev.hearing m.val n x rest) (Dev.session_hearing hs) hw hq hn ho hb ht m.val
    have hexec := (onDev_jenRow h _).trans
      (congrArg (fun d => Host.Outcome.next { s with dev := d }) ((withSession_found hs (requestEffect m.val)).trans heff))
    obtain ⟨y', c, hmacs, hc, hst, hsrc, hord, hnc, hy', hent, hhigh, hnext⟩ := Dev.coached_admitting
      (d := (s.dev.hearing m.val n x rest).slid n x.seq) (Dev.session_slid (Dev.session_hearing hs) x.seq) m.val (min 7 x.cls)
      s.dev.chip.tick x x.seq rfl
    refine ⟨_, y', c, hexec, ?_, hc, hst, hsrc, hord, hnc, hy', hent, hhigh, hnext⟩
    exact (congrArg Mac.rx (Dev.mac_of_net hmacs m.val)).trans (Dev.hearing_rx s.dev m.val n x rest)
  · have hexec := (onDev_jenRow h _).trans (congrArg (fun d => Host.Outcome.next { s with dev := d })
      ((withSession_found hs (requestEffect m.val)).trans (requestEffect_replays hlo hhi he ho m.val n (s.dev.hearing m.val n x rest))))
    obtain ⟨heng, f, hp, hf⟩ := Dev.replay_facts hg m.val n x o fields partly k (s.dev.hearing m.val n x rest)
    refine ⟨_, f, hexec, heng, ?_, hp⟩
    rw [hf, Dev.hearing_egress]
  · have hc' : (s.dev.hearing m.val n x rest).coach? i = some c := hc
    obtain ⟨e, heff, hcoach⟩ := abortMessage_inFlight (d := s.dev.hearing m.val n x rest) hlo hhi hx he hc' hst hf m.val n
    exact ⟨e, _, (onDev_jenRow h _).trans (congrArg (fun d => Host.Outcome.next { s with dev := d })
      ((withSession_found hs (abortMessage m.val)).trans heff)), hcoach, rfl, rfl, rfl, rfl, rfl⟩
  · have hset := Dev.passed_setEntry (d := (s.dev.jenCount (macRegion y.mac) 11).jenCount (macRegion y.mac) 12) hs q
    generalize hd1 : ((s.dev.jenCount (macRegion y.mac) 11).jenCount (macRegion y.mac) 12).setEntry n q .passed = d1 at hset
    have hmac : d1.mac y.mac = s.dev.mac y.mac := by rw [← hd1]; rfl
    obtain ⟨f, hp, hf⟩ := d1.sendJen_egress y.mac cls peer (jenMessage y.gen 0x81 (wireSession n) y.cookie.toNat q.toNat
      (bareBody y.gen stReassemblyTimeout).length 0 (bareBody y.gen stReassemblyTimeout))
    have hexec : exec (.reassemblyTimeout n q) s = .next { s with dev := (d1.sendJen y.mac cls peer (jenMessage y.gen 0x81 (wireSession n)
        y.cookie.toNat q.toNat (bareBody y.gen stReassemblyTimeout).length 0 (bareBody y.gen stReassemblyTimeout))).advance n advanceFuel } := by
      refine (whenLive_pos hl).trans ?_
      simp only [hs, he, ht, if_true, hd1]
    have hsent : (d1.sendJen y.mac cls peer (jenMessage y.gen 0x81 (wireSession n) y.cookie.toNat q.toNat
      (bareBody y.gen stReassemblyTimeout).length 0 (bareBody y.gen stReassemblyTimeout))).Passed n q := hset
    obtain ⟨y', hy', hent⟩ := hsent.advance advanceFuel
    refine ⟨_, y', f, hexec, hy', hent, ?_, hp⟩
    rw [Dev.mac_of_net (Dev.advance_macs ..), hf, hmac]
  · have hexec : exec (.gapPassed n) s = .next { s with dev :=
        ((s.dev.jenCount (macRegion y.mac) 12).setEntry n y.nextSeq .passed).advance n advanceFuel } := by
      refine (whenLive_pos hl).trans ?_
      simp only [hs, hn, Option.isNone_none, Bool.and_true]
      refine congrArg (fun d => Host.Outcome.next { s with dev := d }) (if_pos ?_)
      exact List.any_eq_true.mpr ⟨(k, .held i since), hk, decide_eq_true ht⟩
    have hset := Dev.passed_setEntry (d := s.dev.jenCount (macRegion y.mac) 12) hs y.nextSeq
    obtain ⟨y', hy', hent⟩ := hset.advance advanceFuel
    exact ⟨_, y', hexec, hy', hent⟩

end Sys2Proof.Machine
end

section
/-!
PROOFS. The checks of received frames and what receive leaves (R264, R265).
-/
namespace Sys2Proof.Machine

/-! ## What receive leaves of the counts of traffic (R264, R265) -/

/-- The frames that reach a line. -/
def Output.isFrame : Output → Bool
  | .frame _ _ => true
  | _ => false

/-- The counts of frames of a MAC: sent, received, bytes received, bad FCS. -/
def Mac.counts (c : Mac) : Counter × Counter × Counter × Counter := (c.txFrames, c.rxFrames, c.rxBytes, c.fcsErr)

/-- What the destinations of a received frame leave: counts of frames, frames on the line, the media and the chip registers. -/
structure Traffic where
  counts : Nat → Counter × Counter × Counter × Counter
  frames : List Output
  nv : NonVolatile
  chip : Chip

def Dev.traffic (d : Dev) : Traffic := { counts := fun k => (d.mac k).counts, frames := d.out.filter Output.isFrame, nv := d.nv, chip := d.chip }

/-- The frames sent, and those on the line. -/
def Dev.sent (d : Dev) : (Nat → Counter) × List Output := (fun k => (d.mac k).txFrames, d.out.filter Output.isFrame)

section
variable {d e : Dev} {m cls : Nat} {f : Frame}

theorem Dev.sent_of_traffic (h : e.traffic = d.traffic) : e.sent = d.sent := by
  have hc : (fun k => (e.mac k).counts.1) = fun k => (d.mac k).counts.1 := congrArg (fun t k => (Traffic.counts t k).1) h
  exact Prod.ext hc (congrArg Traffic.frames h)

theorem Dev.onMac_mac_congr {α : Type} (m : Nat) {f : Mac → Mac} (g : Mac → α) (hf : ∀ c, g (f c) = g c) (d : Dev) (k : Nat) :
    g ((d.onMac m f).mac k) = g (d.mac k) := by
  by_cases hk : k = m
  · subst hk
    rw [Dev.mac_onMac, hf]
  · rw [Dev.mac_onMac_ne _ _ hk]

theorem Dev.onMac_traffic (m : Nat) (d : Dev) {f : Mac → Mac} (hf : ∀ c, (f c).counts = c.counts := by exact fun _ => rfl) : (d.onMac m f).traffic = d.traffic :=
  congrArg (fun t => ({ counts := t, frames := d.out.filter Output.isFrame, nv := d.nv, chip := d.chip } : Traffic))
    (funext (Dev.onMac_mac_congr m Mac.counts hf d))

theorem Dev.onMac_sent (m : Nat) (d : Dev) {f : Mac → Mac} (hf : ∀ c, (f c).txFrames = c.txFrames := by exact fun _ => rfl) : (d.onMac m f).sent = d.sent :=
  Prod.ext (funext (Dev.onMac_mac_congr m Mac.txFrames hf d)) rfl

theorem Dev.emit_traffic (o : Output) (ho : o.isFrame = false) (d : Dev) : (d.emit o).traffic = d.traffic := by
  have hout : (d.emit o).out.filter Output.isFrame = d.out.filter Output.isFrame := List.filter_cons_of_neg (by simp [ho])
  unfold Dev.traffic
  rw [hout]
  rfl

theorem Dev.sendPfc_traffic (m cls time : Nat) (d : Dev) : (d.sendPfc m cls time).traffic = d.traffic :=
  (Dev.emit_traffic _ rfl _).trans (d.onMac_traffic m)

theorem Dev.sendPause_traffic (m cls time : Nat) (d : Dev) : (d.sendPause m cls time).traffic = d.traffic := by
  unfold Dev.sendPause
  extract_lets e
  have he : e.traffic = d.traffic := d.onMac_traffic m
  split
  · exact he
  · exact (Dev.emit_traffic _ rfl _).trans he

theorem Dev.sendFlow_traffic (m cls time : Nat) (d : Dev) : (d.sendFlow m cls time).traffic = d.traffic := by
  unfold Dev.sendFlow
  extract_lets c
  split
  · split
    · exact d.sendPause_traffic ..
    · exact d.sendPfc_traffic ..
  · split
    · exact d.sendPfc_traffic ..
    · split
      · exact d.sendPause_traffic ..
      · rfl

theorem Dev.fillPartition_traffic (m cls n : Nat) (d : Dev) : (d.fillPartition m cls n).traffic = d.traffic := by
  unfold Dev.fillPartition
  extract_lets e c
  have he : e.traffic = d.traffic := d.onMac_traffic m
  split
  · exact (e.sendFlow_traffic ..).trans he
  · exact he

theorem Dev.jenCount_traffic (r i : Nat) (d : Dev) : (d.jenCount r i).traffic = d.traffic := rfl
theorem Dev.onBank_traffic (b : Nat) (f : Bank → Bank) (d : Dev) : (d.onBank b f).traffic = d.traffic := rfl

theorem Dev.notServed_traffic (m : Nat) (d : Dev) : (d.notServed m).traffic = d.traffic := d.onMac_traffic m

theorem Dev.respond_traffic (m : Nat) (tag : Option VlanTag) (f : OutFrame) (d : Dev) : (d.respond m tag f).traffic = d.traffic :=
  d.onMac_traffic m

theorem Dev.arpReply_traffic (m : Nat) (tag : Option VlanTag) (f : OutFrame) (d : Dev) : (d.arpReply m tag f).traffic = d.traffic := by
  unfold Dev.arpReply
  extract_lets c
  split
  · exact (Dev.respond_traffic ..).trans (d.onMac_traffic m)
  · exact d.notServed_traffic m

theorem Dev.echoReply_traffic (enable m : Nat) (tag : Option VlanTag) (f : OutFrame) (d : Dev) :
    (d.echoReply enable m tag f).traffic = d.traffic := by
  unfold Dev.echoReply
  extract_lets c
  split
  · exact (Dev.respond_traffic ..).trans (d.onMac_traffic m)
  · exact d.notServed_traffic m

theorem Dev.ptpReceive_traffic (m : Nat) (event allowed : Bool) (msg : Bytes) (d : Dev) :
    (d.ptpReceive m event allowed msg).traffic = d.traffic :=
  Dev.emit_traffic _ rfl d

theorem Dev.toParser_traffic (m cls : Nat) (f : Frame) (v6 : Bool) (src dst : W128) (sp dp : W16) (p : Bytes) (d : Dev) :
    (d.toParser m cls f v6 src dst sp dp p).traffic = d.traffic := by
  have hq : ∀ (x : RxFrame) (e : Dev), ((e.onMac m fun c => { c with rx := c.rx ++ [x] }).fillPartition m cls f.length).traffic = e.traffic :=
    fun x e => (Dev.fillPartition_traffic ..).trans (e.onMac_traffic m)
  unfold Dev.toParser
  extract_lets r queue b key e
  split
  · rfl
  · split
    · split
      · exact hq _ d
      · rfl
    · split
      · split
        · exact hq _ e
        · rfl
      · rfl

theorem Dev.deliver_traffic (fu : Fuses) (m cls : Nat) (f : Frame) (d : Dev) : (d.deliver fu m cls f).traffic = d.traffic := by
  unfold Dev.deliver
  extract_lets c ownMac back
  split
  · exact d.ptpReceive_traffic ..
  · split
    · exact d.arpReply_traffic ..
    · exact d.notServed_traffic m
  · split
    · split
      · exact d.ptpReceive_traffic ..
      · exact d.toParser_traffic ..
    · split
      · exact d.notServed_traffic m
      · exact d.echoReply_traffic ..
    · exact d.echoReply_traffic ..
    · split
      · exact d.arpReply_traffic ..
      · exact d.notServed_traffic m
    · exact d.notServed_traffic m
    · exact d.notServed_traffic m
  · rfl
  · exact d.notServed_traffic m

theorem Dev.receiveChecks_traffic (fu : Fuses) (m cls : Nat) (f : Frame) (d : Dev) : (d.receiveChecks fu m cls f).traffic = d.traffic := by
  unfold Dev.receiveChecks
  extract_lets c filtered badSum isArp
  have hfilt : filtered.traffic = d.traffic := d.onMac_traffic m
  have hsum : badSum.traffic = d.traffic := d.onMac_traffic m
  split
  · exact hfilt
  · split
    · exact d.notServed_traffic m
    · split
      · exact hsum
      · split
        · exact d.notServed_traffic m
        · split
          · exact hfilt
          · split
            · exact hsum
            · exact d.deliver_traffic ..
    · exact d.deliver_traffic ..

theorem Mac.hold_counts (now i time ns : Nat) (c : Mac) : (c.hold now i time ns).counts = c.counts := by
  unfold Mac.hold
  extract_lets isHeld c1 c2
  have h1 : c1.counts = c.counts := by
    by_cases hi : i = 8 <;> simp [c1, hi, Mac.counts]
  split
  · exact h1
  · split
    · exact h1
    · exact h1

theorem Dev.macControl_traffic (m : Nat) (op : W16) (enables : Byte) (times : List W16) (d : Dev) :
    (d.macControl m op enables times).traffic = d.traffic := by
  unfold Dev.macControl
  extract_lets now ns
  split
  · refine Dev.each_keep Dev.traffic _ _ (fun c e => ?_) d
    split
    · refine e.onMac_traffic m fun x => ?_
      extract_lets y
      split
      · exact Mac.hold_counts ..
      · rfl
    · rfl
  · split
    · refine d.onMac_traffic m fun x => ?_
      extract_lets y
      split
      · exact Mac.hold_counts ..
      · rfl
    · exact d.notServed_traffic m

/-! ## The checks of a received frame (R264, R265) -/

/-- A MAC has counted the codewords of a frame. -/
def Dev.decoded (m : Nat) (f : Frame) : Dev → Dev :=
  Dev.onMac m fun c => { c with fecCorr := satAdd c.fecCorr f.fecCorr, fecUncorr := satAdd c.fecUncorr f.fecBad }

/-- A MAC has discarded and counted a frame. -/
def Dev.dropped (m cls : Nat) (d : Dev) : Dev :=
  (d.onMac m fun c => { c with rxDrop := bumpAt c.rxDrop cls }).reportCounted (some 2) (macRegion m) (macBlock m)
    (if m < 64 then cls else 0) 0x9004 [m, cls, 1, 0, 0]

/-- A MAC has counted a frame as received. -/
def Dev.accepted (m : Nat) (f : Frame) : Dev → Dev :=
  Dev.onMac m fun c => { c with rxFrames := bump c.rxFrames, rxBytes := satAdd c.rxBytes f.length }

/-- Where a frame goes that has passed checks 1 to 3. -/
def Dev.examine (fu : Fuses) (m cls : Nat) (f : Frame) (d : Dev) : Dev :=
  match f.body with
  | .macControl op en times => d.macControl m op en times
  | _ => d.receiveChecks fu m cls f

/-- The buffer that a frame needs has room for it. -/
def Dev.HasRoom (m : Nat) (f : Frame) (d : Dev) : Prop :=
  if frameIsControl f then f.length ≤ 2048
  else (d.mac m).heldBytes ((d.mac m).classOf m f.tag) + f.length ≤ (partitionSize m ((d.mac m).classOf m f.tag)).1

theorem Dev.decoded_portReady (m : Nat) (f : Frame) (d : Dev) : (d.decoded m f).portReady m = d.portReady m := by
  rw [Dev.portReady, Dev.decoded, Dev.mac_onMac]
  rfl

theorem Dev.reportCounted_net (counted : Option Nat) (r b cell code : Nat) (ps : List Nat) (d : Dev) :
    (d.reportCounted counted r b cell code ps).net = d.net :=
  Dev.net_of_mask (Dev.reportCounted_mask (T := { evt := true, life := true }) rfl rfl counted r b cell code ps d) rfl

theorem Dev.reportCounted_out (counted : Option Nat) (r b cell code : Nat) (ps : List Nat) (d : Dev) :
    (d.reportCounted counted r b cell code ps).out = d.out :=
  Dev.out_of_mask (Dev.reportCounted_mask (T := { evt := true, life := true }) rfl rfl counted r b cell code ps d) rfl

/-- A frame without room, or after PWRFAIL#, is dropped. -/
theorem Dev.receive_drops (fu : Fuses) (hr : d.portReady m = true) (h : (d.pfail.flush ≠ .none ∧ m < 64) ∨
    (d.pfail.flush = .none ∧ frameIsControl f = false ∧ (partitionSize m ((d.mac m).classOf m f.tag)).1 <
      (d.mac m).heldBytes ((d.mac m).classOf m f.tag) + f.length)) :
    d.receive fu m f = (d.decoded m f).dropped m ((d.mac m).classOf m f.tag) := by
  have hr' := (d.decoded_portReady m f).trans hr
  have hflush : (d.decoded m f).pfail.flush = d.pfail.flush := rfl
  unfold Dev.receive
  extract_lets c cls e drop
  rw [if_neg (by rw [show e.portReady m = true from hr']; decide)]
  rcases h with ⟨hf, hm⟩ | ⟨hf, hc, hfull⟩
  · rw [if_pos (by rw [show e.pfail.flush = d.pfail.flush from rfl]; simp [hf, hm])]
    rfl
  · rw [if_neg (by rw [show e.pfail.flush = d.pfail.flush from rfl]; simp [hf]), if_neg (by simp [hc]),
      if_pos (by rw [hc]; simpa using hfull)]
    rfl

/-- A frame that finds room meets the checks. -/
theorem Dev.receive_roomy (fu : Fuses) (hr : d.portReady m = true) (hf : d.pfail.flush = .none) (hroom : d.HasRoom m f) :
    d.receive fu m f =
      if !f.fcsOk || f.fecBad != 0 then (d.decoded m f).onMac m fun c => { c with fcsErr := bump c.fcsErr }
      else if f.length < 64 || decide ((d.mac m).maxBytes < f.length) then (d.decoded m f).onMac m fun c => { c with lenErr := bump c.lenErr }
      else ((d.decoded m f).accepted m f).examine fu m ((d.mac m).classOf m f.tag) f := by
  have hr' := (d.decoded_portReady m f).trans hr
  unfold Dev.HasRoom at hroom
  unfold Dev.receive
  extract_lets c cls e drop g
  rw [if_neg (by rw [show e.portReady m = true from hr']; decide),
    if_neg (by rw [show e.pfail.flush = d.pfail.flush from rfl]; simp [hf])]
  cases hc : frameIsControl f with
  | true =>
    rw [hc, if_pos rfl] at hroom
    rw [if_neg (by simpa using hroom), if_neg (by simp)]
    rfl
  | false =>
    rw [hc, if_neg (by decide)] at hroom
    rw [if_neg (by simp), if_neg (by simpa using hroom)]
    rfl

/-- A frame that passes checks 1 to 3. -/
theorem Dev.receive_passes (fu : Fuses) (hr : d.portReady m = true) (hf : d.pfail.flush = .none) (hroom : d.HasRoom m f)
    (hfcs : f.fcsOk = true) (hfec : f.fecBad = 0) (hlo : 64 ≤ f.length) (hhi : f.length ≤ (d.mac m).maxBytes) :
    d.receive fu m f = ((d.decoded m f).accepted m f).examine fu m ((d.mac m).classOf m f.tag) f := by
  rw [Dev.receive_roomy fu hr hf hroom, if_neg (by simp [hfcs, hfec]), if_neg (by simp; omega)]

theorem Dev.examine_traffic (fu : Fuses) (m cls : Nat) (f : Frame) (d : Dev) : (d.examine fu m cls f).traffic = d.traffic := by
  unfold Dev.examine
  split
  · exact d.macControl_traffic ..
  · exact d.receiveChecks_traffic ..

theorem Dev.dropped_sent (m cls : Nat) (d : Dev) : (d.dropped m cls).sent = d.sent := by
  refine Eq.trans ?_ (d.onMac_sent m (f := fun c => { c with rxDrop := bumpAt c.rxDrop cls }))
  unfold Dev.sent Dev.dropped Dev.mac
  rw [Dev.reportCounted_net, Dev.reportCounted_out]

/-- A received frame puts none on the line, and counts none as sent. -/
theorem Dev.receive_sent (fu : Fuses) (m : Nat) (f : Frame) (d : Dev) : (d.receive fu m f).sent = d.sent := by
  have hdec : (d.decoded m f).sent = d.sent := d.onMac_sent m
  unfold Dev.receive
  extract_lets c cls e drop g
  have he : e.sent = d.sent := hdec
  have hdrop : (drop e).sent = d.sent := (e.dropped_sent m cls).trans he
  have hg : g.sent = d.sent := (e.onMac_sent m).trans he
  have hexam : (g.examine fu m cls f).sent = d.sent := (Dev.sent_of_traffic (g.examine_traffic ..)).trans hg
  split
  · exact he
  · split
    · exact hdrop
    · split
      · exact (Dev.sent_of_traffic (e.notServed_traffic m)).trans he
      · split
        · exact hdrop
        · split
          · exact (e.onMac_sent m).trans he
          · split
            · exact (e.onMac_sent m).trans he
            · exact hexam

end

end Sys2Proof.Machine
end

section
/-!
PROOFS. Checksums and frames sent (R266, R270, R278, R279).
-/
namespace Sys2Proof.Machine

/-! ## Checksums (R266) -/

theorem wordSum_append : ∀ (a b : Bytes), a.length % 2 = 0 → wordSum (a ++ b) = wordSum a + wordSum b
  | [], b, _ => (Nat.zero_add _).symm
  | [_], _, h => absurd h (by simp)
  | x :: y :: t, b, h => by
    have ht : t.length % 2 = 0 := by simp only [List.length_cons] at h; omega
    show x.toNat * 256 + y.toNat + wordSum (t ++ b) = x.toNat * 256 + y.toNat + wordSum t + wordSum b
    rw [wordSum_append t b ht, Nat.add_assoc _ (wordSum t)]

theorem wordSum_word {w : Nat} (h : w < 65536) : wordSum (beBytes 2 w) = w := by
  have hb : beBytes 2 w = [BitVec.ofNat 8 (w / 256), BitVec.ofNat 8 w] := by
    simp [beBytes, leBytes]
  rw [hb]
  simp only [wordSum, BitVec.toNat_ofNat]
  omega

/-- The sum of a string with its checksum in the place of two zero bytes. -/
theorem wordSum_putWord {a b : Bytes} {off w : Nat} (ha : a.length = off) (he : off % 2 = 0) (hw : w < 65536) :
    wordSum (putWord off w (a ++ [0, 0] ++ b)) = wordSum (a ++ [0, 0] ++ b) + w := by
  have hput : putWord off w (a ++ [0, 0] ++ b) = a ++ (beBytes 2 w ++ b) := by
    subst ha
    simp [putWord]
  rw [hput, List.append_assoc, wordSum_append a _ (ha ▸ he), wordSum_append a _ (ha ▸ he), wordSum_append _ b (by rw [beBytes_length]),
    wordSum_append [0, 0] b rfl, wordSum_word hw]
  show _ = wordSum a + (0 + wordSum b) + w
  omega

theorem foldCarry_le (n : Nat) : foldCarry n ≤ 65535 := by
  unfold foldCarry
  split <;> omega

/-- A sum and the complement of it folded. -/
theorem foldCarry_complement (n : Nat) : foldCarry (n + (65535 - foldCarry n)) = 65535 := by
  unfold foldCarry
  split
  · next h => simp [h]
  · next h =>
    rw [if_neg (by omega)]
    omega

theorem foldCarry_full {n : Nat} (h : foldCarry n = 65535) : foldCarry (n + 65535) = 65535 := by
  unfold foldCarry at h ⊢
  split at h
  · omega
  · rw [if_neg (by omega)]
    omega

theorem addrBytes_even (a : W128) : (addrBytes a).length % 2 = 0 := by
  unfold addrBytes
  split <;> simp [leBytes_length]

namespace OutFrame

/-- The IPv4 header sums to all ones. -/
theorem ipv4Header_sum (f : OutFrame) (n : Nat) : foldCarry (wordSum (f.ipv4Header n)) = 65535 := by
  have hput := wordSum_putWord (a := [0x45, 0] ++ beBytes 2 (20 + n) ++ [0, 0, 0x40, 0, 64] ++ beBytes 1 f.protocol) (off := 10)
    (b := addrBytes f.src ++ addrBytes f.dst)
    (w := inetChecksum ([0x45, 0] ++ beBytes 2 (20 + n) ++ [0, 0, 0x40, 0, 64] ++ beBytes 1 f.protocol ++ [0, 0] ++
      (addrBytes f.src ++ addrBytes f.dst))) (by simp [beBytes_length]) rfl (by unfold inetChecksum; omega)
  unfold ipv4Header
  simp only [List.append_assoc] at hput ⊢
  rw [hput]
  exact foldCarry_complement _

theorem ipv4Header_dontFragment (f : OutFrame) (n : Nat) : (f.ipv4Header n).getD 6 0 = 0x40 := by
  rfl

theorem pseudo_even (f : OutFrame) : f.pseudo.length % 2 = 0 := by
  have hs := addrBytes_even f.src
  have hd := addrBytes_even f.dst
  unfold pseudo
  extract_lets n
  split
  · simp only [List.length_append, beBytes_length, List.length_cons, List.length_nil]
    omega
  · split
    · rfl
    · simp only [List.length_append, beBytes_length, List.length_cons, List.length_nil]
      omega

theorem udp_checksum_ne_zero {f : OutFrame} (h : f.proto = .udp) : f.checksum ≠ 0 := by
  unfold checksum
  extract_lets c
  split
  · decide
  · next hc => exact fun h0 => hc ⟨h, h0⟩

/-- A UDP segment with its checksum and the pseudo-header sum to all ones. -/
theorem udp_checksum_sum {f : OutFrame} (h : f.proto = .udp) :
    foldCarry (wordSum (f.pseudo ++ putWord 6 f.checksum f.segment)) = 65535 := by
  have hseg : f.segment = beBytes 2 f.srcPort.toNat ++ beBytes 2 f.dstPort.toNat ++ beBytes 2 (8 + f.payload.length) ++ [0, 0] ++ f.payload := by
    simp only [segment, h]
  have hle := foldCarry_le (wordSum (f.pseudo ++ f.segment))
  have hc : f.checksum = 65535 - foldCarry (wordSum (f.pseudo ++ f.segment)) ∨
      f.checksum = 65535 ∧ foldCarry (wordSum (f.pseudo ++ f.segment)) = 65535 := by
    unfold checksum inetChecksum
    extract_lets c
    split
    · next h0 => exact .inr ⟨rfl, by omega⟩
    · exact .inl rfl
  have hlt : f.checksum < 65536 := by omega
  have hput : wordSum (f.pseudo ++ putWord 6 f.checksum f.segment) = wordSum (f.pseudo ++ f.segment) + f.checksum := by
    rw [wordSum_append _ _ f.pseudo_even, wordSum_append _ _ f.pseudo_even, hseg,
      wordSum_putWord (by simp [beBytes_length]) rfl hlt, Nat.add_assoc]
  rw [hput]
  rcases hc with hc | ⟨hc, hfull⟩
  · rw [hc]
    exact foldCarry_complement _
  · rw [hc]
    exact foldCarry_full hfull

end OutFrame

/-! ## Frames sent (R270, R278, R279, R287) -/

section
variable {d : Dev} {m cls : Nat} {f : OutFrame} {rest : List OutFrame}

theorem Dev.countTx_mac (m : Nat) (f : OutFrame) (d : Dev) : (d.countTx m f).mac m = { d.mac m with
    txFrames := bump (d.mac m).txFrames
    txBytes := satAdd (d.mac m).txBytes f.length
    txResponder := if f.kind == .responder then bump (d.mac m).txResponder else (d.mac m).txResponder } := by
  rw [Dev.countTx, Dev.mac_onMac]

/-- A frame goes to the line with the port's own address. -/
theorem Dev.sendFrame_line (fu : Fuses) (h : (d.mac m).cfg.getLsbD 2 = false) (f : OutFrame) : d.sendFrame fu m f =
    (d.countTx m { f with srcMac := (d.mac m).ownMac fu m }).emit (.frame m { f with srcMac := (d.mac m).ownMac fu m }) := by
  unfold Dev.sendFrame
  extract_lets g e
  have hcfg : (e.mac m).cfg.getLsbD 2 = false := by rw [Dev.countTx_mac]; exact h
  rw [hcfg]
  rfl

/-- In near-end loopback a frame counts as sent and none goes to the line. -/
theorem Dev.sendFrame_loop (fu : Fuses) (h : (d.mac m).cfg.getLsbD 2 = true) (f : OutFrame) :
    (d.sendFrame fu m f).sent = (d.countTx m { f with srcMac := (d.mac m).ownMac fu m }).sent := by
  unfold Dev.sendFrame
  extract_lets g e
  have hcfg : (e.mac m).cfg.getLsbD 2 = true := by rw [Dev.countTx_mac]; exact h
  rw [hcfg]
  exact e.receive_sent ..

/-- The device that has taken the oldest frame from a queue. -/
def Dev.dequeued (m cls : Nat) (rest : List OutFrame) : Dev → Dev := Dev.onMac m fun c => { c with egress := c.egress.set cls rest }

theorem Dev.transmit_oldest (fu : Fuses) (h : (d.mac m).egress.get [] cls = f :: rest) :
    d.transmit fu m cls = (d.dequeued m cls rest).sendFrame fu m f := by
  simp only [Dev.transmit, h]
  rfl

theorem Dev.dequeued_mac (m cls : Nat) (rest : List OutFrame) (d : Dev) :
    (d.dequeued m cls rest).mac m = { d.mac m with egress := (d.mac m).egress.set cls rest } := by
  rw [Dev.dequeued, Dev.mac_onMac]

/-- The frame of a message of management firmware. -/
def firmwareFrame (fw : FirmwareFrame) (c : Mac) : OutFrame :=
  { kind := .firmware, proto := if fw.l2 then .ptp else .udp, dstMac := fw.dstMac, dst := fw.dst
    src := c.ownAddress (isV6 fw.dst) 0, tag := fw.vlan.map fun t => (t.vid, t.pcp), payload := fw.message, srcPort := 319
    dstPort := 319 }

/-- A two-step message of management firmware leaves its timestamp. -/
theorem Dev.firmwareSend_stamped (fu : Fuses) {fw : FirmwareFrame} (h1 : (d.mac m).tsCfg.getLsbD 1 = true)
    (h2 : (d.mac m).tsCfg.getLsbD (if fw.l2 then 2 else 3) = true) (ho : fw.oneStep = false) (hq : (d.mac m).tsQueue.length < 64) :
    d.firmwareSend fu m fw = (d.sendFrame fu m (firmwareFrame fw (d.mac m))).onMac m fun c => { c with
      tsQueue := c.tsQueue ++ [⟨(d.sendFrame fu m (firmwareFrame fw (d.mac m))).net.ptp.seconds, (d.sendFrame fu m (firmwareFrame fw (d.mac m))).net.ptp.ns,
        fw.tag⟩] } := by
  have hst : ((d.mac m).tsCfg.getLsbD 1 && if fw.l2 then (d.mac m).tsCfg.getLsbD 2 else (d.mac m).tsCfg.getLsbD 3) = true := by
    rw [h1, Bool.true_and]
    cases hl2 : fw.l2 <;> rw [hl2] at h2 <;> exact h2
  unfold Dev.firmwareSend
  extract_lets c stamped msg f e
  have hmsg : msg = fw.message := if_neg (by rw [ho, Bool.and_false]; decide)
  have hf : f = firmwareFrame fw c := by
    simp only [f, hmsg]
    rfl
  rw [if_pos (show (stamped && !fw.oneStep) = true by rw [show stamped = true from hst, ho]; rfl), if_pos hq, ← hf]

end

/-- A MAC may start a frame of a queue that is not held until emission stops. -/
theorem Dev.mayTransmit {d : Dev} {m cls : Nat} (hw : d.macWorks m = true) (hm : (d.mac m).maySend cls = true)
    (hp : d.pfail.flush = .none ∨ d.pfail.flush = .closing) :
    (d.macWorks m && (d.mac m).maySend cls && (d.pfail.flush == .none || d.pfail.flush == .closing)) = true := by
  rw [hw, hm]
  rcases hp with hp | hp <;> rw [hp] <;> rfl

/-- Settles O11, from what a frame that is sent leaves of its MAC, and from the sums of checksums. -/
theorem framesLeaveInOrder : Obligations.FramesLeaveInOrder := by
  refine ⟨fun s m c f rest hw hm hp hl he => ?_, fun s m c f rest hw hm hp hl he => ?_, fun f n => ⟨f.ipv4Header_sum n, f.ipv4Header_dontFragment n⟩,
    fun f h => ⟨OutFrame.udp_checksum_ne_zero h, OutFrame.udp_checksum_sum h⟩, fun s m c fw hw hl hm hp h1 h2 ho hq => ?_,
    fun s m by_ hl hr => whenLive_byManagement hl hr⟩
  · have hmac := s.dev.dequeued_mac m.val c.val rest
    have hcfg : ((s.dev.dequeued m.val c.val rest).mac m.val).cfg.getLsbD 2 = false := by rw [hmac]; exact hl
    have hown : ((s.dev.dequeued m.val c.val rest).mac m.val).ownMac s.fuses m.val = (s.dev.mac m.val).ownMac s.fuses m.val := by
      rw [hmac]; rfl
    have hsend := (s.dev.transmit_oldest s.fuses he).trans (Dev.sendFrame_line s.fuses hcfg f)
    rw [hown] at hsend
    refine ⟨_, (onDev_guarded (Dev.mayTransmit hw hm hp)).trans (congrArg (fun d => Host.Outcome.next { s with dev := d }) hsend), rfl, ?_, ?_, fun k hk => ?_⟩
    · exact (congrArg (fun x : Mac => x.egress.get [] c.val) ((Dev.countTx_mac ..).trans (by rw [hmac]))).trans (Tab.get_set_self ..)
    · exact (congrArg Mac.txFrames (Dev.countTx_mac ..)).trans (by rw [hmac])
    · exact (Dev.mac_onMac_ne _ _ hk).trans (Dev.mac_onMac_ne _ _ hk)
  · have hmac := s.dev.dequeued_mac m.val c.val rest
    have hcfg : ((s.dev.dequeued m.val c.val rest).mac m.val).cfg.getLsbD 2 = true := by rw [hmac]; exact hl
    have hsent := Dev.sendFrame_loop s.fuses hcfg f
    refine ⟨_, (onDev_guarded (Dev.mayTransmit hw hm hp)).trans (congrArg (fun d => Host.Outcome.next { s with dev := d }) (s.dev.transmit_oldest s.fuses he)),
      ?_, fun g hg => ?_⟩
    · refine (congrFun (congrArg Prod.fst hsent) m.val).trans ?_
      exact (congrArg Mac.txFrames (Dev.countTx_mac ..)).trans (by rw [hmac])
    · have hmem : Output.frame m.val g ∈ ((s.dev.dequeued m.val c.val rest).sendFrame s.fuses m.val f).sent.2 := List.mem_filter.mpr ⟨hg, rfl⟩
      rw [hsent] at hmem
      exact (List.mem_filter.mp hmem).1
  · have hst := Dev.firmwareSend_stamped s.fuses h1 h2 ho hq
    rw [Dev.sendFrame_line s.fuses hl] at hst
    refine ⟨_, { firmwareFrame fw (s.dev.mac m.val) with srcMac := (s.dev.mac m.val).ownMac s.fuses m.val },
      (onDev_guarded (Dev.mayTransmit hw hm hp)).trans (congrArg (fun d => Host.Outcome.next { s with dev := d }) hst), rfl, rfl, ?_⟩
    rw [Dev.mac_onMac]
    exact congrArg (fun x : Mac => x.tsQueue ++ [⟨s.dev.net.ptp.seconds, s.dev.net.ptp.ns, fw.tag⟩]) (Dev.countTx_mac ..)

end Sys2Proof.Machine
end

section
/-!
PROOFS. Received frames and flow control (R264, R265, R272 to R276).
-/
namespace Sys2Proof.Machine

/-! ## Flow control sent (R272) -/

section
variable {d : Dev} {m cls : Nat} {f : Frame}

theorem Dev.sendFlow_pfc (hx : (d.mac m).xoff.getLsbD cls = true) (hp : (d.mac m).pauseCause.getLsbD cls = false) (time : Nat) :
    d.sendFlow m cls time = d.sendPfc m cls time := by
  simp only [Dev.sendFlow, hx, hp, if_true, Bool.false_eq_true, if_false]

theorem Dev.sendFlow_pause (hx : (d.mac m).xoff.getLsbD cls = true) (hp : (d.mac m).pauseCause.getLsbD cls = true) (time : Nat) :
    d.sendFlow m cls time = d.sendPause m cls time := by
  simp only [Dev.sendFlow, hx, hp, if_true]

theorem Dev.sendPfc_mac (m cls time : Nat) (d : Dev) : (d.sendPfc m cls time).mac m =
    { d.mac m with pfcSent := bumpAt (d.mac m).pfcSent cls, xoff := setBit (d.mac m).xoff cls (time != 0) } := by
  show (d.onMac m _).mac m = _
  rw [Dev.mac_onMac]

/-- A class that causes a pause, or no longer does. -/
def Dev.pausing (m cls time : Nat) : Dev → Dev :=
  Dev.onMac m fun c => { c with xoff := setBit c.xoff cls (time != 0), pauseCause := setBit c.pauseCause cls (time != 0) }

theorem Dev.pausing_mac (m cls time : Nat) (d : Dev) : (d.pausing m cls time).mac m =
    { d.mac m with xoff := setBit (d.mac m).xoff cls (time != 0), pauseCause := setBit (d.mac m).pauseCause cls (time != 0) } := by
  rw [Dev.pausing, Dev.mac_onMac]

theorem Dev.sendPause_asks (m cls : Nat) {time : Nat} (ht : time ≠ 0) (d : Dev) :
    d.sendPause m cls time = (d.pausing m cls time).emit (.pause m time) := by
  simp only [Dev.sendPause, ht, decide_false, Bool.false_and, Bool.false_eq_true, if_false]
  rfl

/-- A pause is released once no class causes it. -/
theorem Dev.sendPause_release (m cls : Nat) (d : Dev) : (d.sendPause m cls 0).mac m = (d.pausing m cls 0).mac m ∧
    (d.sendPause m cls 0).out = if setBit (d.mac m).pauseCause cls false = 0 then .pause m 0 :: d.out else d.out := by
  have hc : ((d.pausing m cls 0).mac m).pauseCause = setBit (d.mac m).pauseCause cls false := by rw [Dev.pausing_mac]; rfl
  have h : d.sendPause m cls 0 = if setBit (d.mac m).pauseCause cls false = 0 then (d.pausing m cls 0).emit (.pause m 0) else d.pausing m cls 0 := by
    rw [← hc]
    unfold Dev.sendPause
    extract_lets e
    by_cases hz : (e.mac m).pauseCause = 0
    · rw [if_neg (by simp [hz])]
      exact (if_pos hz).symm
    · rw [if_pos (by simpa using hz)]
      exact (if_neg hz).symm
  rw [h]
  split
  · exact ⟨rfl, rfl⟩
  · exact ⟨rfl, rfl⟩

/-! ## Flow control received (R274, R275) -/

theorem Mac.hold_held (now i time ns : Nat) (hi : i ≠ 8) (c : Mac) : (c.hold now i time ns).held = setBit c.held i (time != 0) := by
  unfold Mac.hold
  simp only [hi, if_false]
  split
  · rfl
  · split <;> rfl

theorem Mac.release (i : Nat) (hi : i ≠ 8) (c : Mac) : (c.hold 0 i 0 0).held = setBit c.held i false ∧ (c.hold 0 i 0 0).pauseHeld = c.pauseHeld := by
  unfold Mac.hold
  simp only [hi, if_false, if_true]
  exact ⟨rfl, trivial⟩

theorem Mac.release_port (c : Mac) : (c.hold 0 8 0 0).pauseHeld = false ∧ (c.hold 0 8 0 0).held = c.held := by
  unfold Mac.hold
  simp only [if_true]
  exact ⟨rfl, trivial⟩

theorem Mac.hold_pfcCfg (now i time ns : Nat) (hi : i ≠ 8) (c : Mac) : (c.hold now i time ns).pfcCfg = c.pfcCfg := by
  unfold Mac.hold
  simp only [hi, if_false]
  split
  · rfl
  · split <;> rfl

/-- What a PFC frame does to the queue of priority `c`. -/
def Mac.heed (now : Nat) (times : List W16) (ns : Nat → Nat) (c : Nat) (x : Mac) : Mac :=
  let x := { x with pfcRcvd := bumpAt x.pfcRcvd c }
  if x.pfcCfg.getLsbD c then x.hold now c (times.getD c 0).toNat (ns c) else x

theorem Mac.heed_pfcCfg (now : Nat) (times : List W16) (ns : Nat → Nat) {c : Nat} (hc : c < 8) (x : Mac) :
    (x.heed now times ns c).pfcCfg = x.pfcCfg := by
  unfold Mac.heed
  extract_lets y
  split
  · exact y.hold_pfcCfg now c _ _ (by omega)
  · rfl

theorem toNat_bne_zero (v : W16) : (v.toNat != 0) = (v != 0) := by
  rw [Bool.eq_iff_iff, bne_iff_ne, bne_iff_ne, ne_eq, ne_eq, ← BitVec.toNat_inj]
  rfl

theorem Mac.heed_held (now : Nat) (times : List W16) (ns : Nat → Nat) {c : Nat} (hc : c < 8) (x : Mac) :
    (x.heed now times ns c).held = if x.pfcCfg.getLsbD c then setBit x.held c (times.getD c 0 != 0) else x.held := by
  unfold Mac.heed
  extract_lets y
  split
  · exact (y.hold_held now c _ _ (by omega)).trans (by rw [toNat_bne_zero])
  · rfl

/-- What a PFC frame does to the queue of one priority. -/
def Dev.heedPriority (m now : Nat) (enables : Byte) (times : List W16) (ns : Nat → Nat) (c : Nat) (d : Dev) : Dev :=
  if enables.getLsbD c then
    d.onMac m (Mac.heed now times ns c)
  else d

theorem Dev.macControl_pfc (hm : m < 64) (enables : Byte) (times : List W16) (d : Dev) : d.macControl m 0x0101 enables times =
    Dev.each (List.range 8) (Dev.heedPriority m d.chip.tick enables times fun i => pauseNs (d.portGbit m) (times.getD i 0).toNat) d := by
  have h : ((0x0101 : W16) = 0x0101 && decide (m < 64)) = true := by simp [hm]
  unfold Dev.macControl
  extract_lets now ns
  rw [if_pos h]
  rfl

theorem Dev.heedPriority_self {now c : Nat} (hc : c < 8) (enables : Byte) (times : List W16) (ns : Nat → Nat) (d : Dev) :
    ((d.heedPriority m now enables times ns c).mac m).pfcCfg = (d.mac m).pfcCfg ∧ ∀ k,
      ((d.heedPriority m now enables times ns c).mac m).held.getLsbD k =
        if k = c then (if enables.getLsbD c && (d.mac m).pfcCfg.getLsbD c then times.getD c 0 != 0 else (d.mac m).held.getLsbD c)
        else (d.mac m).held.getLsbD k := by
  unfold Dev.heedPriority
  by_cases hen : enables.getLsbD c = true
  · rw [if_pos hen, Dev.mac_onMac, Mac.heed_pfcCfg now times ns hc, Mac.heed_held now times ns hc]
    refine ⟨rfl, fun k => ?_⟩
    rw [hen, Bool.true_and]
    by_cases hcfg : (d.mac m).pfcCfg.getLsbD c = true
    · rw [if_pos hcfg, if_pos hcfg, getLsbD_setBit _ c k _ hc]
    · rw [if_neg hcfg, if_neg hcfg]
      split
      · next hk => rw [hk]
      · rfl
  · rw [if_neg hen]
    refine ⟨rfl, fun k => ?_⟩
    by_cases hk : k = c
    · rw [if_pos hk, if_neg (by simp [hen]), hk]
    · rw [if_neg hk]

/-- A PFC frame sets the hold of each priority that it enables and that MAC_PFC_CFG heeds. -/
theorem Dev.each_heedPriority {now : Nat} (enables : Byte) (times : List W16) (ns : Nat → Nat) : ∀ (l : List Nat) (d : Dev), (∀ c ∈ l, c < 8) →
    ∀ k, ((Dev.each l (Dev.heedPriority m now enables times ns) d).mac m).held.getLsbD k =
      if k ∈ l ∧ (enables.getLsbD k && (d.mac m).pfcCfg.getLsbD k) = true then times.getD k 0 != 0 else (d.mac m).held.getLsbD k
  | [], d, _, k => by
    rw [if_neg (fun h => absurd h.1 List.not_mem_nil)]
    rfl
  | c :: l, d, hl, k => by
    obtain ⟨hcfg, hheld⟩ := Dev.heedPriority_self (m := m) (now := now) (hl c List.mem_cons_self) enables times ns d
    refine (Dev.each_heedPriority enables times ns l (d.heedPriority m now enables times ns c) (fun b hb => hl b (List.mem_cons_of_mem _ hb)) k).trans ?_
    rw [hcfg, hheld]
    by_cases hk : k = c
    · subst hk
      by_cases hen : (enables.getLsbD k && (d.mac m).pfcCfg.getLsbD k) = true <;> simp [hen]
    · simp [hk]

/-! ## A request that a peer rule admits (R291) -/

theorem Dev.sendFlow_keeps (m cls time : Nat) (d : Dev) : ((d.sendFlow m cls time).mac m).rx = (d.mac m).rx ∧
    ((d.sendFlow m cls time).mac m).held_ = (d.mac m).held_ := by
  have hpfc : ((d.sendPfc m cls time).mac m).rx = (d.mac m).rx ∧ ((d.sendPfc m cls time).mac m).held_ = (d.mac m).held_ := by
    rw [Dev.sendPfc_mac]
    exact ⟨rfl, rfl⟩
  have hpause : ((d.sendPause m cls time).mac m).rx = (d.mac m).rx ∧ ((d.sendPause m cls time).mac m).held_ = (d.mac m).held_ := by
    have hmac : (d.sendPause m cls time).mac m = (d.pausing m cls time).mac m := by
      unfold Dev.sendPause
      extract_lets e
      split <;> rfl
    rw [hmac, Dev.pausing_mac]
    exact ⟨rfl, rfl⟩
  unfold Dev.sendFlow
  extract_lets c
  split
  · split
    · exact hpause
    · exact hpfc
  · split
    · exact hpfc
    · split
      · exact hpause
      · exact ⟨rfl, rfl⟩

theorem Dev.fillPartition_keeps (m cls n : Nat) (d : Dev) : ((d.fillPartition m cls n).mac m).rx = (d.mac m).rx ∧
    ((d.fillPartition m cls n).mac m).heldBytes cls = (d.mac m).heldBytes cls + n := by
  have hfill : ∀ e : Dev, e.mac m = { d.mac m with held_ := (d.mac m).held_.update 0 cls (· + n) } →
      (e.mac m).rx = (d.mac m).rx ∧ (e.mac m).heldBytes cls = (d.mac m).heldBytes cls + n := fun e he => by
    rw [he]
    exact ⟨rfl, Tab.get_update_self 0 (d.mac m).held_ cls (· + n)⟩
  unfold Dev.fillPartition
  extract_lets e c
  have he : e.mac m = { d.mac m with held_ := (d.mac m).held_.update 0 cls (· + n) } := Dev.mac_onMac ..
  split
  · obtain ⟨hrx, hheld⟩ := e.sendFlow_keeps m cls 0xFFFF
    obtain ⟨hr, hh⟩ := hfill e he
    exact ⟨hrx.trans hr, (congrArg (fun t : Tab Nat => t.get 0 cls) hheld).trans hh⟩
  · exact hfill e he

/-- The frame that waits for the parser. -/
def forParser (f : Frame) (cls : Nat) (v6 : Bool) (src dst : W128) (sp dp : W16) (p : Bytes) (row : ClassRow) : RxFrame :=
  { src := src, v6 := v6, srcPort := sp, dstPort := dp, vid := f.tag.map (·.vid), cls := cls
    ruleset := BitVec.ofNat 16 (bits row.assoc 0 16), nsDefault := BitVec.ofNat 16 (bits row.assoc 16 16)
    ceiling := bits row.assoc 32 3, payload := p, size := f.length, ether := f.src, own := dst }

/-- A Jenloth frame that a peer rule admits waits for the parser. -/
theorem Dev.toParser_admitted {v6 : Bool} {src dst : W128} {sp dp : W16} {p : Bytes} {k : Nat} {row : ClassRow} (hm : m < 64)
    (hh : jenHeaderOk d.net m dp.toNat p = true)
    (hrow : (d.bank (m / 8 * 4 + 3)).lowest (peerKey (leAt p 2 1) m dp.toNat src) = some (k, row)) (hb : bit row.assoc 35 = true) :
    ((d.toParser m cls f v6 src dst sp dp p).mac m).rx = (d.mac m).rx ++ [forParser f cls v6 src dst sp dp p row] ∧
      ((d.toParser m cls f v6 src dst sp dp p).mac m).heldBytes cls = (d.mac m).heldBytes cls + f.length := by
  have hr : macRegion m = m / 8 := if_pos hm
  unfold Dev.toParser
  extract_lets r queue b key e
  have hlow : (e.bank b).lowest key = some (k, row) := by
    have hbank : (e.bank b).lowest key = (d.bank b).lowest key := by
      simp only [e, Dev.giveWord, Dev.countSearch, Dev.bank_onBank]
      rfl
    rw [hbank]
    simp only [b, r, hr]
    exact hrow
  rw [if_neg (by rw [hh]; decide), if_neg (by omega), hlow]
  simp only [hb, if_true]
  obtain ⟨hrx, hheld⟩ := Dev.fillPartition_keeps m cls f.length (e.onMac m fun c => { c with rx := c.rx ++ [forParser f cls v6 src dst sp dp p row] })
  rw [Dev.mac_onMac] at hrx hheld
  exact ⟨hrx, hheld⟩

/-- A UDP frame that checks 4 to 9 pass and that is no PTP message goes to the parser. -/
theorem Dev.receiveChecks_jenloth {fu : Fuses} {v6 : Bool} {src dst : W128} {sp dp : W16} {p : Bytes}
    (hb : f.body = .ip v6 true true src dst (.udp sp dp .right p)) (ha : (d.mac m).accepts fu m f.dst false = true)
    (ht : (d.mac m).tagOk f.tag = true) (hi : (d.mac m).ipOk v6 dst f.dst = true) (h1 : dp ≠ 319) (h2 : dp ≠ 320) :
    d.receiveChecks fu m cls f = d.toParser m cls f v6 src dst sp dp p := by
  have hptp : ¬(dp = 319 ∨ dp = 320) := fun h => h.elim h1 h2
  simp [Dev.receiveChecks, Dev.deliver, hb, ha, ht, hi, sumOk]
  exact fun h => absurd h hptp

theorem Dev.received_mac (m : Nat) (f : Frame) (d : Dev) : ((d.decoded m f).accepted m f).mac m = { d.mac m with
    fecCorr := satAdd (d.mac m).fecCorr f.fecCorr, fecUncorr := satAdd (d.mac m).fecUncorr f.fecBad
    rxFrames := bump (d.mac m).rxFrames, rxBytes := satAdd (d.mac m).rxBytes f.length } := by
  rw [Dev.accepted, Dev.mac_onMac, Dev.decoded, Dev.mac_onMac]

/-- A frame that passes checks 1 to 3 is counted as received, and by nothing else that these counts tell. -/
theorem Dev.examine_counts (fu : Fuses) (m : Nat) (f : Frame) (d : Dev) {e : Dev}
    (he : e = ((d.decoded m f).accepted m f).examine fu m cls f) :
    (e.mac m).rxFrames = bump (d.mac m).rxFrames ∧ (e.mac m).rxBytes = satAdd (d.mac m).rxBytes f.length ∧
      (e.mac m).fcsErr = (d.mac m).fcsErr ∧ e.nv = d.nv ∧ e.chip = d.chip := by
  have ht : e.traffic = ((d.decoded m f).accepted m f).traffic := he ▸ Dev.examine_traffic ..
  have hc : (e.mac m).counts = (((d.decoded m f).accepted m f).mac m).counts := congrFun (congrArg Traffic.counts ht) m
  rw [Dev.received_mac] at hc
  exact ⟨congrArg (·.2.1) hc, congrArg (·.2.2.1) hc, congrArg (·.2.2.2) hc, congrArg Traffic.nv ht, congrArg Traffic.chip ht⟩

theorem Dev.dropped_mac (m cls : Nat) (d : Dev) :
    (d.dropped m cls).mac m = { d.mac m with rxDrop := bumpAt (d.mac m).rxDrop cls } := by
  rw [Dev.mac, Dev.dropped, Dev.reportCounted_net]
  exact Dev.mac_onMac ..

theorem Dev.decoded_mac (m : Nat) (f : Frame) (d : Dev) : (d.decoded m f).mac m = { d.mac m with
    fecCorr := satAdd (d.mac m).fecCorr f.fecCorr, fecUncorr := satAdd (d.mac m).fecUncorr f.fecBad } := by
  rw [Dev.decoded, Dev.mac_onMac]

end

/-! ## Tables (general) -/

theorem Tab.set_set {α : Type} : ∀ (t : Tab α) (k : Nat) (v w : α), Tab.set (Tab.set t k v) k w = Tab.set t k w
  | [], k, v, w => by simp [Tab.set]
  | (j, u) :: t, k, v, w => by
    by_cases hlt : k < j
    · simp [Tab.set, hlt]
    · by_cases heq : j = k
      · subst heq
        simp [Tab.set]
      · simp [Tab.set, hlt, heq, Tab.set_set t k v w]

theorem Dev.onMac_onMac (m : Nat) (f g : Mac → Mac) (d : Dev) : (d.onMac m f).onMac m g = d.onMac m fun c => g (f c) := by
  have h : ∀ t : Tab Mac, Tab.update {} (Tab.update {} t m f) m g = Tab.update {} t m fun c => g (f c) := fun t => by
    rw [Tab.update, Tab.get_update_self]
    exact Tab.set_set ..
  exact congrArg (fun t => { d with net := { d.net with macs := t } }) (h d.net.macs)

/-- Settles O10, from the checks of a received frame and from what flow control does to a MAC. -/
theorem framesAndFlowControl : Obligations.FramesAndFlowControl := by
  refine ⟨⟨fun s m f hw hr hc hf hroom => ⟨fun hfcs hfec hlo hhi => ?_, fun hfcs => ?_⟩, fun s m f hw hr hc h => ?_,
      fun s m f v6 src dst sp dp p k row hl hm hr hc hf hroom hfcs hfec hlo hhi hb ha ht hi h1 h2 hh hrow hbit => ?_⟩,
    fun s m c hl hx hp => ⟨fun hn => ?_, fun hn => ?_⟩, fun s m c hl hx hp => ⟨fun hn => ?_, fun hn => ?_⟩,
    fun s m f enables times hl hm hr hf hfcs hfec hlo hhi hb => ?_, fun s m c hl hp => ?_, fun s m hl hp => ?_, fun s m q hp => ?_,
    fun s m q hl hh ht hs => ?_⟩
  · have hgo : (s.dev.macWorks m.val && s.dev.peerClean m.val f) = true := by rw [hw, hc]; rfl
    have hexec : exec (.frameReceive m f) s = _ := (onDev_guarded hgo).trans
      (congrArg (fun d => Host.Outcome.next { s with dev := d }) (Dev.receive_passes s.fuses hr hf hroom hfcs hfec hlo hhi))
    exact ⟨_, hexec, Dev.examine_counts s.fuses m.val f s.dev rfl⟩
  · have hgo : (s.dev.macWorks m.val && s.dev.peerClean m.val f) = true := by rw [hw, hc]; rfl
    have hbad : s.dev.receive s.fuses m.val f = s.dev.onMac m.val fun c => { c with
        fecCorr := satAdd c.fecCorr f.fecCorr, fecUncorr := satAdd c.fecUncorr f.fecBad, fcsErr := bump c.fcsErr } := by
      rw [Dev.receive_roomy s.fuses hr hf hroom, if_pos (by simp [hfcs])]
      exact Dev.onMac_onMac m.val _ _ s.dev
    exact (onDev_guarded hgo).trans (congrArg (fun d => Host.Outcome.next { s with dev := d }) hbad)
  · have hgo : (s.dev.macWorks m.val && s.dev.peerClean m.val f) = true := by rw [hw, hc]; rfl
    have hexec : exec (.frameReceive m f) s = _ := (onDev_guarded hgo).trans
      (congrArg (fun d => Host.Outcome.next { s with dev := d }) (Dev.receive_drops s.fuses hr h))
    have hmac := ((s.dev.decoded m.val f).dropped_mac m.val ((s.dev.mac m.val).classOf m.val f.tag))
    rw [Dev.decoded_mac] at hmac
    refine ⟨_, hexec, ?_, ?_, ?_⟩ <;> rw [hmac]
    exact Tab.get_update_self 0 (s.dev.mac m.val).rxDrop _ bump
  · have hctl : frameIsControl f = false := by simp only [frameIsControl, hb]
    have hroom' : s.dev.HasRoom m.val f := by
      rw [Dev.HasRoom, hctl, if_neg (by decide)]
      exact hroom
    have hgo : (s.dev.macWorks m.val && s.dev.peerClean m.val f) = true := by rw [Dev.macWorks, hl, hc]; rfl
    generalize hd : (s.dev.decoded m.val f).accepted m.val f = d1
    have hmac : d1.mac m.val = _ := hd ▸ s.dev.received_mac m.val f
    have hbank : ∀ b, d1.bank b = s.dev.bank b := fun b => by rw [← hd]; rfl
    have hnet : d1.net.jenCfg = s.dev.net.jenCfg := by rw [← hd]; rfl
    have hpass := Dev.receive_passes s.fuses hr hf hroom' hfcs hfec hlo hhi
    rw [hd] at hpass
    have hexam : d1.examine s.fuses m.val ((s.dev.mac m.val).classOf m.val f.tag) f =
        d1.toParser m.val ((s.dev.mac m.val).classOf m.val f.tag) f v6 src dst sp dp p := by
      have hchk : d1.examine s.fuses m.val ((s.dev.mac m.val).classOf m.val f.tag) f =
          d1.receiveChecks s.fuses m.val ((s.dev.mac m.val).classOf m.val f.tag) f := by
        simp only [Dev.examine, hb]
      rw [hchk]
      exact Dev.receiveChecks_jenloth hb (by rw [hmac]; exact ha) (by rw [hmac]; exact ht) (by rw [hmac]; exact hi) h1 h2
    have hexec : exec (.frameReceive m f) s = _ := (onDev_guarded hgo).trans
      (congrArg (fun d => Host.Outcome.next { s with dev := d }) (hpass.trans hexam))
    obtain ⟨hrx, hheld⟩ := Dev.toParser_admitted (d := d1) (f := f) (cls := (s.dev.mac m.val).classOf m.val f.tag) (v6 := v6) (src := src)
      (dst := dst) (sp := sp) (dp := dp) (p := p) hm (by simpa only [jenHeaderOk, Net.dataPort, Net.announcePort, hnet] using hh)
      ((congrArg (fun b : Bank => b.lowest _) (hbank _)).trans hrow) hbit
    rw [hmac] at hrx hheld
    exact ⟨_, hexec, hrx, hheld⟩
  · have hexec : exec (.pfcRefresh m c) s = _ := (whenLive_guarded hl (by rw [hx, decide_eq_true hn]; rfl)).trans
      (congrArg (fun d => Host.Outcome.next { s with dev := d }) (Dev.sendFlow_pfc hx hp 0xFFFF))
    refine ⟨_, hexec, rfl, ?_, ?_⟩ <;> rw [Dev.sendPfc_mac]
    · exact getLsbD_setBit_self _ c.isLt
    · exact Tab.get_update_self 0 (s.dev.mac m.val).pfcSent _ bump
  · have hexec : exec (.pfcXonRelease m c) s = _ := (whenLive_guarded hl (by rw [hx, decide_eq_true hn]; rfl)).trans
      (congrArg (fun d => Host.Outcome.next { s with dev := d }) (Dev.sendFlow_pfc hx hp 0))
    refine ⟨_, hexec, rfl, ?_, ?_⟩ <;> rw [Dev.sendPfc_mac]
    · rfl
    · exact Tab.get_update_self 0 (s.dev.mac m.val).pfcSent _ bump
  · have hexec : exec (.pfcRefresh m c) s = _ := (whenLive_guarded hl (by rw [hx, decide_eq_true hn]; rfl)).trans
      (congrArg (fun d => Host.Outcome.next { s with dev := d })
        ((Dev.sendFlow_pause hx hp 0xFFFF).trans (Dev.sendPause_asks m.val c.val (by decide) s.dev)))
    exact ⟨_, hexec, rfl⟩
  · have hexec : exec (.pfcXonRelease m c) s = _ := (whenLive_guarded hl (by rw [hx, decide_eq_true hn]; rfl)).trans
      (congrArg (fun d => Host.Outcome.next { s with dev := d }) (Dev.sendFlow_pause hx hp 0))
    obtain ⟨hmac, hout⟩ := s.dev.sendPause_release m.val c.val
    rw [Dev.pausing_mac] at hmac
    refine ⟨_, hexec, ?_, ?_, hout⟩ <;> rw [hmac] <;> rfl
  · have hctl : frameIsControl f = true := by simp only [frameIsControl, hb]
    have hroom : s.dev.HasRoom m.val f := by
      rw [Dev.HasRoom, hctl, if_pos rfl]
      omega
    have hclean : s.dev.peerClean m.val f = true := by simp only [Dev.peerClean, hb]
    have hgo : (s.dev.macWorks m.val && s.dev.peerClean m.val f) = true := by rw [Dev.macWorks, hl, hclean]; rfl
    have hmax : f.length ≤ (s.dev.mac m.val).maxBytes := by unfold Mac.maxBytes; omega
    generalize hd : (s.dev.decoded m.val f).accepted m.val f = d1
    have hmac : d1.mac m.val = _ := hd ▸ s.dev.received_mac m.val f
    have hpass := Dev.receive_passes s.fuses hr hf hroom hfcs hfec hlo hmax
    rw [hd] at hpass
    have hexam : d1.examine s.fuses m.val ((s.dev.mac m.val).classOf m.val f.tag) f = d1.macControl m.val 0x0101 enables times := by
      simp only [Dev.examine, hb]
    have hexec : exec (.frameReceive m f) s = _ := (onDev_guarded hgo).trans
      (congrArg (fun d => Host.Outcome.next { s with dev := d }) ((hpass.trans hexam).trans (Dev.macControl_pfc hm enables times d1)))
    refine ⟨_, hexec, fun c hc => ?_⟩
    refine (Dev.each_heedPriority enables times _ (List.range 8) d1 (fun b hb => List.mem_range.mp hb) c).trans ?_
    rw [hmac]
    simp only [List.mem_range, hc, true_and]
  · have hexec : exec (.pfcTimerExpiry m (some c)) s = _ := whenLive_guarded hl hp
    have hrel := (s.dev.mac m.val).release c.val (by omega)
    refine ⟨_, hexec, ?_⟩
    rw [Dev.mac_onMac]
    exact hrel
  · have hexec : exec (.pfcTimerExpiry m none) s = _ := whenLive_guarded hl hp
    refine ⟨_, hexec, ?_⟩
    rw [Dev.mac_onMac]
    exact (s.dev.mac m.val).release_port
  · show onDev (guarded Dev.live (guarded _ _)) s = _
    rw [onDev_eq]
    have hidle : guarded Dev.live (guarded (fun d : Dev => (d.mac m.val).pausePassed d.chip.tick (queueNumber q))
        (Dev.onMac m.val (Mac.hold 0 (queueNumber q) 0 0))) s.dev = s.dev := by
      simp [guarded, hp]
    rw [hidle]
  · have hq : ((if queueNumber q = 8 then (s.dev.mac m.val).pauseHeld else (s.dev.mac m.val).held.getLsbD (queueNumber q)) &&
        !(s.dev.mac m.val).heldTold.getLsbD (queueNumber q) &&
        decide ((s.dev.mac m.val).heldSince.get 0 (queueNumber q) + 100 ≤ s.dev.chip.tick)) = true := by
      rw [ht, decide_eq_true hs]
      cases q with
      | none =>
        rw [if_pos (show queueNumber none = 8 from rfl), show (s.dev.mac m.val).pauseHeld = true from hh]
        rfl
      | some c =>
        rw [if_neg (by simp only [queueNumber]; omega), show (s.dev.mac m.val).held.getLsbD (queueNumber (some c)) = true from hh]
        rfl
    have hexec : exec (.priorityHeld100ms m q) s = _ := whenLive_guarded hl hq
    refine ⟨_, hexec, ?_⟩
    cases q with
    | none => rfl
    | some c =>
      rw [if_neg (by simp only [queueNumber]; omega)]
      rfl

end Sys2Proof.Machine
end

section
/-!
PROOFS. Key slots (R358 to R363).
-/
namespace Sys2Proof.Machine

/-! ## A coach that waits for seals (R362) -/

/-- The groups that a change of the key table reaches. -/
def keyGroups : Groups := { keys := true, evt := true, life := true }

section
variable {d e : Dev} {i : Nat} {c : Coach} {w : Fields} {f : Nat → Coach → Fields → Dev → Dev}

/-- The coach that a context runs is in that context. -/
theorem Dev.At.context {ctx : CtxId} {op : Nat} (h : d.At ctx i c op) : c.context = ctx.val := by
  have hf := List.find?_some h.running
  simp only [Bool.and_eq_true, beq_iff_eq] at hf
  rw [Coach.context, hf.2]
  rfl

theorem Dev.sealsWanted_congr (hs : e.store = d.store) (hc : e.chip = d.chip) : e.sealsWanted = d.sealsWanted := by
  unfold Dev.sealsWanted Dev.openRegions Dev.fencedRegion Dev.region
  rw [hs, hc]

/-- What an instruction leaves that has changed the key table and waits for its seals. -/
theorem noted_awaitSeals {v : W64} (heq : f i c w d = e.awaitSeals i v) (he : e.mask keyGroups = d.mask keyGroups)
    (hc : d.coach? i = some c) : ∃ c', (noted f i c w d).coach? i = some c' ∧ c'.wait = .seals d.sealsWanted ∧ c'.result = v ∧
      c'.run = c.run ∧ (noted f i c w d).nv = d.nv ∧ (noted f i c w d).keys = e.keys := by
  have hw : e.sealsWanted = d.sealsWanted := Dev.sealsWanted_congr (Dev.store_of_mask he rfl) (Dev.chip_of_mask he rfl)
  have hco : e.coach? i = some c := (congrArg (·.coaches.get? i) (Dev.eng_of_mask he rfl)).trans hc
  have hco' : (f i c w d).coach? i = some { c with wait := .seals d.sealsWanted, result := v } := by
    rw [heq, Dev.awaitSeals, Dev.coach?_onCoach, hco, hw]
    rfl
  obtain ⟨b, hb⟩ := noted_coach hco'
  refine ⟨_, hb, rfl, rfl, rfl, ?_, ?_⟩
  · rw [noted_nv, heq]
    exact (Dev.nv_of_mask he rfl : e.nv = d.nv)
  · rw [noted_keys, heq]
    rfl

/-- The key state once an unwrap operation has ended. -/
def KeyState.unwrapEnds (st : Byte) (k : KeyState) : KeyState :=
  { k with unwraps := bump k.unwraps, unwrapResult := st, unwrapFails := if st = stOk then k.unwrapFails else bump k.unwrapFails }

theorem Dev.unwrapDone_keys (op n : Nat) (st : Byte) (d : Dev) : (d.unwrapDone op n st).keys = d.keys.unwrapEnds st := by
  unfold Dev.unwrapDone
  extract_lets e
  split
  · rfl
  · exact Dev.report_keys ..

/-- What an instruction leaves whose key does not open. -/
theorem noted_unopened {op n : Nat} (heq : f i c w d = (d.unwrapDone op n stIntegrityFailed).fail i stIntegrityFailed)
    (hc : d.coach? i = some c) : ∃ c', (noted f i c w d).coach? i = some c' ∧ c'.run = c.run.answers 0x0F ∧
      (noted f i c w d).nv = d.nv ∧ (noted f i c w d).keys = d.keys.unwrapEnds stIntegrityFailed := by
  have hmask : (d.unwrapDone op n stIntegrityFailed).mask keyGroups = d.mask keyGroups := Dev.unwrapDone_mask rfl rfl rfl ..
  obtain ⟨b, hb⟩ := noted_endWith heq ((congrArg (·.coaches.get? i) (Dev.eng_of_mask hmask rfl)).trans hc)
  refine ⟨_, hb, rfl, ?_, ?_⟩
  · rw [noted_nv, heq, Dev.fail_nv]
    exact Dev.nv_of_mask hmask rfl
  · rw [noted_keys, heq, Dev.fail_keys, Dev.unwrapDone_keys]

/-! ## Loading, enrolling, clearing and rekeying (R358 to R363) -/

/-- The device whose unwrap unit has opened a key for the KSLOT of a context. -/
def Dev.unwrapped (ctx op n : Nat) (d : Dev) : Dev := (d.takeLock ctx).unwrapDone op n stOk

theorem Dev.unwrapped_mask (ctx op n : Nat) (d : Dev) : (d.unwrapped ctx op n).mask keyGroups = d.mask keyGroups :=
  (Dev.unwrapDone_mask rfl rfl rfl ..).trans (Dev.takeLock_mask rfl ..)

theorem Dev.unwrapped_keys (ctx op n : Nat) (d : Dev) : (d.unwrapped ctx op n).keys =
    { d.keys with lockOwner := engineCode ctx, lockTick := d.chip.tick }.unwrapEnds stOk :=
  Dev.unwrapDone_keys ..

variable {ctx n o : Nat} {wrapped key : Bytes}

/-- KSLOT load up to the key that its blob wraps. -/
theorem kslotLoadEffect_eq (hctx : c.context = ctx)
    (hn : (c.run.num w.a < 4096 ∧ n = c.run.num w.a ∧ (d.slot n).state = .empty) ∨ (c.run.num w.a = 4096 ∧ d.emptySlot = some n))
    (hb : c.dataBlob w = some (o, wrapped)) (ho : (d.owner o).enrolled = true) (hl : d.lockRefused ctx = false)
    (hloads : (d.slot n).loads < 65535) : kslotLoadEffect i c w d = match d.openKey o wrapped with
      | none => (d.unwrapDone 1 n stIntegrityFailed).fail i stIntegrityFailed
      | some key => ((d.unwrapped ctx 1 n).loadSlot n o wrapped key).awaitSeals i (BitVec.ofNat 64 n) := by
  have hroom : ¬ 65535 < (d.slot n).loads + 1 := by omega
  have hlegal : (decide (c.run.num w.a ≤ 4096) && (c.run.num w.a == 4096 || (d.slot (c.run.num w.a)).state == .empty)) = true := by
    rcases hn with ⟨hlt, rfl, he⟩ | ⟨h, -⟩
    · rw [he, decide_eq_true (by omega)]
      simp
    · rw [h]
      rfl
  have hpick : (if c.run.num w.a = 4096 then d.emptySlot else some (c.run.num w.a)) = some n := by
    rcases hn with ⟨hlt, rfl, -⟩ | ⟨h, he⟩
    · exact if_neg (by omega)
    · rw [if_pos h, he]
  unfold kslotLoadEffect
  extract_lets t legal
  rw [hb]
  simp only
  rw [if_neg (by rw [show legal = true from hlegal, ho]; decide), if_neg (by rw [hctx, hl]; decide), show (if t = 4096 then d.emptySlot else some t) = some n from hpick]
  simp only
  rw [if_neg hroom, hctx]
  rfl

theorem Dev.loadSlot_keys (n o : Nat) (wrapped key : Bytes) (d : Dev) : (d.loadSlot n o wrapped key).keys = { d.keys with
    table := { d.keys.table with slots := d.keys.table.slots.update {} n fun s =>
      { state := .loaded, owner := o, loads := s.loads + 1, gen := d.nextGen n, limit := 0, key := wrapped } }
    store := d.keys.store.set n key, storeFault := d.keys.storeFault.filter (· != n) } :=
  Dev.report_keys ..

/-- KSLOT load of an owner up to the KEK that its blob wraps. -/
theorem kslotEnrolEffect_eq {fu : Fuses} {pub : Bytes} (hctx : c.context = ctx) (ho : c.run.num w.a = 8192 + o)
    (hb : c.ownerBlob w = some (pub, wrapped)) (he : (d.owner o).enrolled = false) (hl : d.lockRefused ctx = false) :
    kslotEnrolEffect fu i c w d = match d.enrolledKek fu pub wrapped, d.keys.root with
      | some kek, some root => ((d.unwrapped ctx 2 o).enrol o root kek).awaitSeals i
          (BitVec.ofNat 64 (leNat ((aesBlock kek (zeros 16)).take 8)))
      | _, _ => (d.unwrapDone 2 o stIntegrityFailed).fail i stIntegrityFailed := by
  have hno : c.run.num w.a - 8192 = o := by omega
  unfold kslotEnrolEffect
  rw [hb, hno, hctx]
  simp only [he, hl, Bool.false_eq_true, if_false]
  rfl

theorem Dev.enrol_keys (o : Nat) (root kek : Bytes) (d : Dev) : (d.enrol o root kek).keys = { d.keys with
    table := { d.keys.table with owners := d.keys.table.owners.update {} o fun _ =>
      { enrolled := true, kek := keyWrap root kek, kcv := (aesBlock kek (zeros 16)).take 8 } } } :=
  Dev.report_keys ..

theorem kslotClearEffect_eq (hctx : c.context = ctx) (hn : n < 4096) (ht : c.run.num w.a = n) (he : (d.slot n).state ≠ .empty)
    (hl : d.lockRefused ctx = false) : kslotClearEffect i c w d = ((d.takeLock ctx).clearSlot n).awaitSeals i 0 := by
  unfold kslotClearEffect
  extract_lets t
  rw [if_neg (by rw [show t = n from ht]; exact fun h => h.elim (by omega) he), if_neg (by rw [hctx, hl]; decide), hctx, show t = n from ht]

theorem Dev.clearSlot_keys (n : Nat) (d : Dev) : (d.clearSlot n).keys = { d.keys with
    table := { d.keys.table with slots := d.keys.table.slots.update {} n fun s =>
      { state := .empty, owner := s.owner, loads := s.loads, gen := s.gen, limit := s.limit } }
    store := d.keys.store.erase n, prevStore := d.keys.prevStore.erase n, storeFault := d.keys.storeFault.filter (· != n)
    rekey := if d.keys.rekey.slot = n then { d.keys.rekey with running := false } else d.keys.rekey } :=
  Dev.report_keys ..

/-- The device that has cleared an owner for the KSLOT of a context. -/
def Dev.ownerCleared (ctx o : Nat) (d : Dev) : Dev :=
  ((d.takeLock ctx).onOwner o fun _ => {}).report 8 8 0 0xC006 [o, 2, leNat (d.owner o).kcv, 0, 0]

theorem Dev.ownerCleared_mask (ctx o : Nat) (d : Dev) : (d.ownerCleared ctx o).mask keyGroups = d.mask keyGroups :=
  (Dev.report_mask rfl rfl ..).trans ((Dev.onOwner_mask rfl ..).trans (Dev.takeLock_mask rfl ..))

theorem Dev.ownerCleared_keys (ctx o : Nat) (d : Dev) : (d.ownerCleared ctx o).keys =
    ((d.takeLock ctx).onOwner o fun _ => {}).keys :=
  Dev.report_keys ..

theorem kslotClearOwnerEffect_eq (hctx : c.context = ctx) (ho : c.run.num w.a = 8192 + o) (he : (d.owner o).enrolled = true)
    (hnm : d.ownerNamed o = false) (hl : d.lockRefused ctx = false) :
    kslotClearOwnerEffect i c w d = (d.ownerCleared ctx o).awaitSeals i 0 := by
  have hno : c.run.num w.a - 8192 = o := by omega
  unfold kslotClearOwnerEffect
  rw [hno, hctx]
  simp only [he, hnm, hl, Bool.not_true, Bool.or_self, Bool.false_eq_true, if_false]
  rfl

theorem kslotClearOwnerEffect_named (ho : c.run.num w.a = 8192 + o) (hnm : d.ownerNamed o = true) :
    kslotClearOwnerEffect i c w d = d.fail i stIllegalValue := by
  have hno : c.run.num w.a - 8192 = o := by omega
  unfold kslotClearOwnerEffect
  rw [hno]
  simp only [hnm, Bool.or_true, if_true]

/-- KSLOT rekey up to the key that its blob wraps. -/
theorem kslotRekeyEffect_eq (hctx : c.context = ctx) (hn : n < 4096) (ht : c.run.num w.a = n)
    (hst : (d.slot n).state = .loaded ∨ (d.slot n).state = .exhausted) (hb : c.dataBlob w = some (o, wrapped))
    (ho : (d.owner o).enrolled = true) (hl : d.lockRefused ctx = false) (hr : d.keys.rekey.running = false)
    (hloads : (d.slot n).loads < 65535) : kslotRekeyEffect i c w d = match d.openKey o wrapped with
      | none => (d.unwrapDone 1 n stIntegrityFailed).fail i stIntegrityFailed
      | some key => ((d.unwrapped ctx 1 n).startRekey n o wrapped key).awaitSeals i ((d.nextGen n).setWidth 64) := by
  have hroom : ¬ 65535 < (d.slot n).loads + 1 := by omega
  have hlegal : (decide (n < 4096) && ((d.slot n).state == .loaded || (d.slot n).state == .exhausted)) = true := by
    rw [decide_eq_true hn]
    rcases hst with h | h <;> rw [h] <;> rfl
  unfold kslotRekeyEffect
  rw [hb, ht, hctx]
  simp only [hlegal, ho, hl, hr, hroom, Bool.not_true, Bool.or_self, Bool.false_eq_true, if_false]
  rfl

/-- The slot that a rekey leaves. -/
def SlotEntry.rekeyed (o : Nat) (gen : W32) (wrapped : Bytes) (s : SlotEntry) : SlotEntry :=
  { state := .rekeying, owner := o, loads := s.loads + 1, gen := gen, limit := 0, key := wrapped
    prevKey := s.key, prevGen := s.gen, prevOwner := s.owner }

theorem Dev.startRekey_keys (n o : Nat) (wrapped key : Bytes) (d : Dev) : (d.startRekey n o wrapped key).keys = { d.keys with
    table := { d.keys.table with slots := d.keys.table.slots.update {} n (SlotEntry.rekeyed o (d.nextGen n) wrapped) }
    prevStore := match d.keys.store.get? n with
      | some p => d.keys.prevStore.set n p
      | none => d.keys.prevStore.erase n
    store := d.keys.store.set n key, storeFault := d.keys.storeFault.filter (· != n)
    rekey := { slot := n, running := true, started := d.sealsWanted, gens := d.sealsWanted } } :=
  Dev.report_keys ..

/-- A KSLOT of an operation, on a slot or on an owner. -/
def kslotRow (m : Nat) (owner : Bool) (f : Nat → Coach → Fields → Dev → Dev) (i : Nat) (c : Coach) (w : Fields) (d : Dev) : Dev :=
  if w.m = m ∧ isOwnerTarget (c.run.num w.a) = owner then f i c w d else d

theorem kslotRow_at {m : Nat} {owner : Bool} (hm : w.m = m) (ht : isOwnerTarget (c.run.num w.a) = owner) :
    kslotRow m owner f i c w d = f i c w d :=
  if_pos ⟨hm, ht⟩

theorem isOwnerTarget_slot {t : Nat} (h : t < 8192) : isOwnerTarget t = false := decide_eq_false (by omega)

theorem isOwnerTarget_at (hr : c.run.num w.a = 8192 + o) (h : o < 16) : isOwnerTarget (c.run.num w.a) = true :=
  decide_eq_true (by omega)

theorem Dev.slot_of_table (h : e.keys.table = d.keys.table) (n : Nat) : e.slot n = d.slot n := by
  rw [Dev.slot, Dev.slot, h]

theorem Dev.owner_of_table (h : e.keys.table = d.keys.table) (o : Nat) : e.owner o = d.owner o := by
  rw [Dev.owner, Dev.owner, h]

theorem Dev.slot_of_keys (h : e.keys = d.keys) (n : Nat) : e.slot n = d.slot n := Dev.slot_of_table (congrArg KeyState.table h) n

theorem Dev.owner_of_keys (h : e.keys = d.keys) (o : Nat) : e.owner o = d.owner o := Dev.owner_of_table (congrArg KeyState.table h) o

theorem Dev.slot_updated {g : SlotEntry → SlotEntry} (h : e.keys.table.slots = d.keys.table.slots.update {} n g) : e.slot n = g (d.slot n) := by
  rw [Dev.slot, h, Tab.get_update_self]
  rfl

theorem Dev.owner_updated {g : OwnerEntry → OwnerEntry} (h : e.keys.table.owners = d.keys.table.owners.update {} o g) :
    e.owner o = g (d.owner o) := by
  rw [Dev.owner, h, Tab.get_update_self]
  rfl

/-- What unwrapping a key leaves of the key state. -/
theorem Dev.unwrapped_facts (ctx op m : Nat) (d : Dev) : (d.unwrapped ctx op m).keys.table = d.keys.table ∧
    (d.unwrapped ctx op m).keys.store = d.keys.store ∧ (d.unwrapped ctx op m).keys.prevStore = d.keys.prevStore ∧
    (d.unwrapped ctx op m).keys.lockOwner = engineCode ctx ∧ (d.unwrapped ctx op m).keys.unwrapResult = 0x00 ∧
    ∀ k, (d.unwrapped ctx op m).nextGen k = d.nextGen k := by
  have hk := d.unwrapped_keys ctx op m
  have ht : (d.unwrapped ctx op m).keys.table = d.keys.table := by rw [hk]; rfl
  refine ⟨ht, by rw [hk]; rfl, by rw [hk]; rfl, by rw [hk]; rfl, by rw [hk]; rfl, fun k => ?_⟩
  have hs : (d.unwrapped ctx op m).slot k = d.slot k := Dev.slot_of_table ht k
  have hg : (d.unwrapped ctx op m).geom = d.geom := congrArg (fun v : Store => v.geom.getD {}) (Dev.store_of_mask (d.unwrapped_mask ctx op m) rfl)
  rw [Dev.nextGen, Dev.nextGen, hs, hg]

/-- The slot that a load leaves. -/
def SlotEntry.loadedWith (o : Nat) (gen : W32) (wrapped : Bytes) (s : SlotEntry) : SlotEntry :=
  { state := .loaded, owner := o, loads := s.loads + 1, gen := gen, limit := 0, key := wrapped }

/-- What a load leaves of the key state. -/
theorem Dev.loaded_facts (ctx n o : Nat) (wrapped key : Bytes) (d : Dev) {e : Dev}
    (he : e = (d.unwrapped ctx 1 n).loadSlot n o wrapped key) : e.slot n = (d.slot n).loadedWith o (d.nextGen n) wrapped ∧
      e.keys.store.get? n = some key ∧ e.keys.lockOwner = engineCode ctx ∧ e.keys.unwrapResult = 0x00 := by
  obtain ⟨ht, hs, -, hl, hu, hg⟩ := d.unwrapped_facts ctx 1 n
  generalize d.unwrapped ctx 1 n = u at he ht hs hl hu hg
  have hk := he ▸ u.loadSlot_keys n o wrapped key
  refine ⟨Dev.slot_updated ?_, ?_, ?_, ?_⟩
  · rw [hk, ← ht, ← hg n]
    rfl
  · rw [hk]
    exact Tab.get?_set_self ..
  · rw [hk]
    exact hl
  · rw [hk]
    exact hu

/-- What an enrolment leaves of the key state. -/
theorem Dev.enrolled_facts (ctx o : Nat) (root kek : Bytes) (d : Dev) {e : Dev} (he : e = (d.unwrapped ctx 2 o).enrol o root kek) :
    e.owner o = { enrolled := true, kek := keyWrap root kek, kcv := (aesBlock kek (zeros 16)).take 8 } ∧
      e.keys.table.slots = d.keys.table.slots ∧ e.keys.lockOwner = engineCode ctx := by
  obtain ⟨ht, -, -, hl, -, -⟩ := d.unwrapped_facts ctx 2 o
  generalize d.unwrapped ctx 2 o = u at he ht hl
  have hk := he ▸ u.enrol_keys o root kek
  refine ⟨Dev.owner_updated (d := d) (g := fun _ => _) ?_, ?_, ?_⟩
  · rw [hk, ← ht]
  · rw [hk, ← ht]
  · rw [hk]
    exact hl

/-- What a rekey leaves of the key state. -/
theorem Dev.rekeyed_facts (ctx n o : Nat) (wrapped key : Bytes) (d : Dev) {e : Dev}
    (he : e = (d.unwrapped ctx 1 n).startRekey n o wrapped key) : e.slot n = (d.slot n).rekeyed o (d.nextGen n) wrapped ∧
      e.keys.store.get? n = some key ∧ e.keys.prevStore.get? n = d.keys.store.get? n ∧
      e.keys.rekey = { slot := n, running := true, started := d.sealsWanted, gens := d.sealsWanted } := by
  have hw : (d.unwrapped ctx 1 n).sealsWanted = d.sealsWanted := Dev.sealsWanted_congr (Dev.store_of_mask (d.unwrapped_mask ctx 1 n) rfl)
    (Dev.chip_of_mask (d.unwrapped_mask ctx 1 n) rfl)
  obtain ⟨ht, hs, hp, -, -, hg⟩ := d.unwrapped_facts ctx 1 n
  generalize d.unwrapped ctx 1 n = u at he ht hs hp hg hw
  have hk := he ▸ u.startRekey_keys n o wrapped key
  refine ⟨Dev.slot_updated ?_, ?_, ?_, ?_⟩
  · rw [hk, ← ht, ← hg n]
  · rw [hk]
    exact Tab.get?_set_self ..
  · rw [hk, ← hs]
    cases u.keys.store.get? n with
    | none => exact Tab.get?_erase_self ..
    | some p => exact Tab.get?_set_self ..
  · rw [hk, hw]

/-- The slot that a clear leaves. -/
def SlotEntry.cleared (s : SlotEntry) : SlotEntry :=
  { state := .empty, owner := s.owner, loads := s.loads, gen := s.gen, limit := s.limit }

/-- What clearing a slot leaves of the key state. -/
theorem Dev.cleared_facts (ctx n : Nat) (d : Dev) {e : Dev} (he : e = (d.takeLock ctx).clearSlot n) :
    e.slot n = (d.slot n).cleared ∧
      e.keys.store.get? n = none ∧ e.keys.prevStore.get? n = none ∧ e.keys.lockOwner = engineCode ctx := by
  have hk := he ▸ (d.takeLock ctx).clearSlot_keys n
  refine ⟨Dev.slot_updated (d := d) (g := SlotEntry.cleared) ?_, ?_, ?_, ?_⟩
  · rw [hk]
    rfl
  · rw [hk]
    exact Tab.get?_erase_self ..
  · rw [hk]
    exact Tab.get?_erase_self ..
  · rw [hk]
    rfl

theorem stIntegrityFailed_ne : stIntegrityFailed ≠ stOk := by decide

/-- What an unwrap that fails leaves of the key state. -/
theorem KeyState.unwrapFails_facts (k : KeyState) : (k.unwrapEnds stIntegrityFailed).table = k.table ∧
    (k.unwrapEnds stIntegrityFailed).store = k.store ∧ (k.unwrapEnds stIntegrityFailed).rekey = k.rekey ∧
    (k.unwrapEnds stIntegrityFailed).unwrapFails = bump k.unwrapFails := by
  rw [KeyState.unwrapEnds, if_neg stIntegrityFailed_ne]
  exact ⟨rfl, rfl, rfl, rfl⟩

end

/-- The key state once the owner of a code has released the lock. -/
def KeyState.lockFreed (code : BitVec 3) (k : KeyState) : KeyState := if k.lockOwner = code then { k with lockOwner := 0 } else k

/-- Settles O29, from what each KSLOT leaves of the key table. -/
theorem kslotActsOnKeys : Obligations.KslotActsOnKeys := by
  refine ⟨⟨fun s ctx i n o c wrapped h hm hn hb ho hl hloads => ?_, fun s ctx i o c pub wrapped h hm hlt hnum hb he hl => ?_,
      fun s ctx i n o c wrapped h hm hn hnum hst hb ho hl hr hloads => ?_⟩,
    fun s ctx i n c h hm hn hnum hst hl => ?_, fun s ctx i o c h hm hlt hnum hl => ⟨fun he hnm => ?_, fun hnm => ?_⟩,
    fun s ctx i c gens h => ?_⟩
  · have hlt : c.run.num c.current.a < 8192 := by
      rcases hn with ⟨h1, -⟩ | ⟨h1, -⟩
      · exact Nat.lt_trans h1 (by decide)
      · exact Nat.lt_of_le_of_lt (Nat.le_of_eq h1) (by decide)
    have heff := (kslotRow_at (i := i) (d := s.dev) (f := kslotLoadEffect) hm (isOwnerTarget_slot hlt)).trans
      (kslotLoadEffect_eq h.toAt.context hn hb ho hl hloads)
    have hexec : exec (.kslotLoad ctx) s = .next { s with dev := noted (kslotRow 0 false kslotLoadEffect) i c c.current s.dev } := runActing_at _ h
    cases hk : s.dev.openKey o wrapped with
    | none =>
      rw [hk] at heff
      obtain ⟨c', hc, hrun, hnv, hkeys⟩ := noted_unopened heff h.coach
      obtain ⟨ht, hst, -, hf⟩ := s.dev.keys.unwrapFails_facts
      rw [← hkeys] at ht hst hf
      exact ⟨_, c', hexec, hc, hnv, hrun, Dev.slot_of_table ht n, hst, hf⟩
    | some key =>
      rw [hk] at heff
      have hmask := (Dev.loadSlot_mask (T := keyGroups) rfl rfl rfl n o wrapped key _).trans (s.dev.unwrapped_mask ctx.val 1 n)
      obtain ⟨c', hc, hw, hres, hrun, hnv, hkeys⟩ := noted_awaitSeals heff hmask h.coach
      obtain ⟨hslot, hstore, hlock, hres'⟩ := s.dev.loaded_facts ctx.val n o wrapped key rfl
      rw [← Dev.slot_of_keys hkeys] at hslot
      rw [← hkeys] at hstore hlock hres'
      exact ⟨_, c', hexec, hc, hnv, hw, hres, hrun, hslot, hstore, hlock, hres'⟩
  · have heff := (kslotRow_at (i := i) (d := s.dev) (f := kslotEnrolEffect s.fuses) hm (isOwnerTarget_at hnum hlt)).trans
      (kslotEnrolEffect_eq h.toAt.context hnum hb he hl)
    have hexec : exec (.kslotEnrolOwner ctx) s = .next { s with dev := noted (kslotRow 0 true (kslotEnrolEffect s.fuses)) i c c.current s.dev } :=
      runActing_at _ h
    have hfails : kslotRow 0 true (kslotEnrolEffect s.fuses) i c c.current s.dev =
        (s.dev.unwrapDone 2 o stIntegrityFailed).fail i stIntegrityFailed → ∃ c',
          (noted (kslotRow 0 true (kslotEnrolEffect s.fuses)) i c c.current s.dev).coach? i = some c' ∧
          (noted (kslotRow 0 true (kslotEnrolEffect s.fuses)) i c c.current s.dev).nv = s.dev.nv ∧
          (noted (kslotRow 0 true (kslotEnrolEffect s.fuses)) i c c.current s.dev).keys.table = s.dev.keys.table ∧
          c'.run = c.run.answers 0x0F := fun hf => by
      obtain ⟨c', hc, hrun, hnv, hkeys⟩ := noted_unopened hf h.coach
      exact ⟨c', hc, hnv, by rw [hkeys]; rfl, hrun⟩
    cases hk : s.dev.enrolledKek s.fuses pub wrapped with
    | none =>
      rw [hk] at heff
      obtain ⟨c', hc, hnv, htab, hrun⟩ := hfails heff
      exact ⟨_, c', hexec, hc, hnv, congrArg KeyTable.slots htab, hrun, Dev.owner_of_table htab o⟩
    | some kek =>
      cases hroot : s.dev.keys.root with
      | none =>
        rw [hk, hroot] at heff
        obtain ⟨c', hc, hnv, htab, hrun⟩ := hfails heff
        exact ⟨_, c', hexec, hc, hnv, congrArg KeyTable.slots htab, hrun, Dev.owner_of_table htab o⟩
      | some root =>
        rw [hk, hroot] at heff
        have hmask := (Dev.enrol_mask (T := keyGroups) rfl rfl rfl o root kek _).trans (s.dev.unwrapped_mask ctx.val 2 o)
        obtain ⟨c', hc, hw, hres, hrun, hnv, hkeys⟩ := noted_awaitSeals heff hmask h.coach
        obtain ⟨howner, hslots, hlock⟩ := s.dev.enrolled_facts ctx.val o root kek rfl
        rw [← Dev.owner_of_keys hkeys] at howner
        rw [← hkeys] at hslots hlock
        exact ⟨_, c', hexec, hc, hnv, hslots, hw, howner, hres, hlock⟩
  · have heff : (fun (i : Nat) (c : Coach) (w : Fields) (d : Dev) => if w.m = 2 then kslotRekeyEffect i c w d else d) i c c.current s.dev = _ :=
      (if_pos hm).trans (kslotRekeyEffect_eq (i := i) (d := s.dev) h.toAt.context hn hnum hst hb ho hl hr hloads)
    have hexec : exec (.kslotRekey ctx) s = _ := runActing_at (fun (i : Nat) (c : Coach) (w : Fields) (d : Dev) => if w.m = 2 then kslotRekeyEffect i c w d else d) h
    generalize (fun (i : Nat) (c : Coach) (w : Fields) (d : Dev) => if w.m = 2 then kslotRekeyEffect i c w d else d) = f at heff hexec
    cases hk : s.dev.openKey o wrapped with
    | none =>
      rw [hk] at heff
      obtain ⟨c', hc, hrun, hnv, hkeys⟩ := noted_unopened heff h.coach
      obtain ⟨ht, -, hrk, -⟩ := s.dev.keys.unwrapFails_facts
      rw [← hkeys] at ht hrk
      exact ⟨_, c', hexec, hc, hnv, hrun, Dev.slot_of_table ht n, hrk⟩
    | some key =>
      rw [hk] at heff
      have hmask := (Dev.startRekey_mask (T := keyGroups) rfl rfl rfl n o wrapped key _).trans (s.dev.unwrapped_mask ctx.val 1 n)
      obtain ⟨c', hc, hw, hres, hrun, hnv, hkeys⟩ := noted_awaitSeals heff hmask h.coach
      obtain ⟨hslot, hstore, hprev, hrk⟩ := s.dev.rekeyed_facts ctx.val n o wrapped key rfl
      rw [← Dev.slot_of_keys hkeys] at hslot
      rw [← hkeys] at hstore hprev hrk
      exact ⟨_, c', hexec, hc, hnv, hw, hslot, hstore, hprev, hrk⟩
  · have heff := (kslotRow_at (i := i) (d := s.dev) (f := kslotClearEffect) hm (isOwnerTarget_slot (by rw [Run.num, hnum]; exact Nat.lt_trans hn (by decide)))).trans
      (kslotClearEffect_eq h.toAt.context hn hnum hst hl)
    have hexec : exec (.kslotClear ctx) s = .next { s with dev := noted (kslotRow 1 false kslotClearEffect) i c c.current s.dev } := runActing_at _ h
    have hmask := (Dev.clearSlot_mask (T := keyGroups) rfl rfl rfl n _).trans (Dev.takeLock_mask rfl ctx.val s.dev)
    obtain ⟨c', hc, hw, hres, hrun, hnv, hkeys⟩ := noted_awaitSeals heff hmask h.coach
    obtain ⟨hslot, hstore, hprev, hlock⟩ := s.dev.cleared_facts ctx.val n rfl
    rw [← Dev.slot_of_keys hkeys] at hslot
    rw [← hkeys] at hstore hprev hlock
    exact ⟨_, c', hexec, hc, hw, hstore, hprev, hslot, hlock, hnv⟩
  · have heff := (kslotRow_at (i := i) (d := s.dev) (f := kslotClearOwnerEffect) hm (isOwnerTarget_at hnum hlt)).trans
      (kslotClearOwnerEffect_eq h.toAt.context hnum he hnm hl)
    have hexec : exec (.kslotClearOwner ctx) s = .next { s with dev := noted (kslotRow 1 true kslotClearOwnerEffect) i c c.current s.dev } :=
      runActing_at _ h
    obtain ⟨c', hc, hw, hres, hrun, hnv, hkeys⟩ := noted_awaitSeals heff (s.dev.ownerCleared_mask ctx.val o) h.coach
    rw [Dev.ownerCleared_keys] at hkeys
    exact ⟨_, c', hexec, hc, hw, Dev.owner_updated (d := s.dev) (g := fun _ => {}) (by rw [hkeys]; rfl), by rw [hkeys]; rfl, hnv⟩
  · have heff := (kslotRow_at (i := i) (d := s.dev) (f := kslotClearOwnerEffect) hm (isOwnerTarget_at hnum hlt)).trans
      (kslotClearOwnerEffect_named hnum hnm)
    have hexec : exec (.kslotClearOwner ctx) s = .next { s with dev := noted (kslotRow 1 true kslotClearOwnerEffect) i c c.current s.dev } :=
      runActing_at _ h
    obtain ⟨b, hb⟩ := becomes_noted_endWith heff h.coach
    exact ⟨_, _, hexec, hb, rfl⟩
  · have hreached : s.dev.sealsReached c = true := by
      rw [Dev.sealsReached, h.waits]
      exact h.durable
    have hsealed : s.dev.sealedCoach ctx.val 0x44 = some (i, c) := by
      rw [Dev.sealedCoach, h.running]
      simp only [h.path, h.opcode, hreached, beq_self_eq_true, Bool.and_self, if_true]
    have hexec : exec (.kslotComplete ctx) s = .next { s with dev :=
        (s.dev.endWith i stOk (Run.setReg c.current.d c.result)).onKeys (KeyState.lockFreed (engineCode ctx.val)) } := by
      simp only [exec, execKslotComplete, onDev_eq, hsealed]
      rfl
    refine ⟨_, hexec, ?_, rfl, rfl, rfl⟩
    exact Dev.coach?_endWith stOk _ h.coach

end Sys2Proof.Machine
end

section
/-!
PROOFS. The rekey walk (R363).
-/
namespace Sys2Proof.Machine

/-! ## The rekey walk (R363) -/

section
variable {d : Dev} {a : Nat} {rd : ReadBack}

/-- What the walk keeps once it has visited an entry. -/
def Rekey.visit (a : Nat) (k : Rekey) : Rekey :=
  if k.visited.contains a then k else { k with scanned := bump k.scanned, visited := a :: k.visited }

theorem Rekey.visit_keeps (a : Nat) (k : Rekey) : (k.visit a).slot = k.slot ∧ (k.visit a).copied = k.copied ∧
    (k.visit a).failedAt = k.failedAt ∧ a ∈ (k.visit a).visited := by
  unfold Rekey.visit
  split
  · next h => exact ⟨rfl, rfl, rfl, List.contains_iff_mem.mp h⟩
  · exact ⟨rfl, rfl, rfl, List.mem_cons_self ..⟩

theorem Dev.visitEntry_keys (a : Nat) (d : Dev) : (d.visitEntry a).keys = { d.keys with rekey := d.keys.rekey.visit a } := rfl

theorem Dev.visitEntry_underPrev (a b : Nat) (d : Dev) : (d.visitEntry a).underPrev b = d.underPrev b := by
  have hslot : (d.visitEntry a).keys.rekey.slot = d.keys.rekey.slot := (d.keys.rekey.visit_keeps a).1
  unfold Dev.underPrev
  rw [hslot]
  rfl

theorem Dev.visitEntry_readSegment (a b : Nat) (rd : ReadBack) (d : Dev) : (d.visitEntry a).readSegment b rd = d.readSegment b rd := rfl

/-- What a visit of an entry by the walk leaves. -/
def Dev.rekeyVisited (a : Nat) (rd : ReadBack) (d : Dev) : Dev :=
  if !d.underPrev a || d.keys.rekey.failedAt.contains a then d.visitEntry a
  else if (d.readSegment a rd).st != stOk then (d.visitEntry a).rekeyFails a (d.readSegment a rd)
  else (d.visitEntry a).rekeyCopy a ((d.recordAt a).getD {}) (d.readSegment a rd).data

/-- The row of the walk on an entry that it may visit. -/
theorem exec_rekeyRecordCopy {s : State} {r : RegionId} (ht : s.dev.tending r.val = true) (hr : s.dev.keys.rekey.running = true)
    (hs : s.dev.sealedAll s.dev.keys.rekey.started = true) (he : s.dev.entryNames r.val a = true) (hm : s.dev.beingMoved a = false) :
    exec (.rekeyRecordCopy r a rd) s = .next { s with dev := s.dev.rekeyVisited a rd } := by
  have hfail : (s.dev.visitEntry a).keys.rekey.failedAt = s.dev.keys.rekey.failedAt := (s.dev.keys.rekey.visit_keeps a).2.2.1
  refine (onDev_guarded (by rw [ht, hr, hs, he, hm]; rfl)).trans ?_
  simp only [Dev.visitEntry_underPrev, hfail]
  rfl

/-- A record that is copied under the new key. -/
theorem Dev.rekeyCopy_copies {x y : Record} {plain : Bytes} {iv : Nat} {d1 d2 : Dev}
    (hc : d.nextCounter (d.homeOf x.ns x.key) d.keys.rekey.slot = .value iv d1)
    (hy : y = { x with slotGen := (d1.slot d.keys.rekey.slot).gen, ivCounter := iv })
    (h : d1.copyRecord a { y with
      payload := (gcmSeal ((d1.keys.store.get? d.keys.rekey.slot).getD []) y.iv y.header plain).1
      tag := (gcmSeal ((d1.keys.store.get? d.keys.rekey.slot).getD []) y.iv y.header plain).2 } true = some d2) :
    d.rekeyCopy a x plain = (d2.onRekey fun k => { k with copied := bump k.copied }).countLane (regionOfAddr a) (2 * plain.length) 0 := by
  subst hy
  unfold Dev.rekeyCopy
  extract_lets slot
  rw [show d.nextCounter (d.homeOf x.ns x.key) slot = _ from hc]
  simp only
  rw [show d1.copyRecord a _ true = _ from h]

end

/-- The slot once its rekey has ended. -/
def SlotEntry.settled (x : SlotEntry) : SlotEntry :=
  { x with state := if x.state = .rekeying then .loaded else x.state, prevKey := [], prevGen := 0, prevOwner := 0 }

/-- Settles O30, from what a visit of the walk and its end leave. -/
theorem rekeyWalksTheRecords : Obligations.RekeyWalksTheRecords := by
  refine ⟨fun s r a rd ht hr hs he hm => ⟨fun hu => ?_, fun x y iv d1 d2 hu hf hst hx hc hy h => ?_⟩, fun s n hl hr hs hd hmv hg hn => ?_⟩
  · have hexec := exec_rekeyRecordCopy (rd := rd) ht hr hs he hm
    rw [Dev.rekeyVisited, if_pos (by rw [hu]; rfl)] at hexec
    obtain ⟨-, hcop, -, hmem⟩ := s.dev.keys.rekey.visit_keeps a
    exact ⟨_, hexec, hmem, hcop, rfl⟩
  · have hexec := exec_rekeyRecordCopy (rd := rd) ht hr hs he hm
    have hslot : (s.dev.visitEntry a).keys.rekey.slot = s.dev.keys.rekey.slot := (s.dev.keys.rekey.visit_keeps a).1
    have hcopy := Dev.rekeyCopy_copies (d := s.dev.visitEntry a) (a := a) (x := x) (y := y) (plain := (s.dev.readSegment a rd).data)
      (by rw [hslot]; exact hc) (by rw [hslot]; exact hy) (by rw [hslot]; exact h)
    rw [Dev.rekeyVisited, if_neg (by rw [hu, hf]; decide), if_neg (by rw [hst]; decide), hx] at hexec
    have hend := hexec.trans (congrArg (fun d => Host.Outcome.next { s with dev := d }) hcopy)
    exact ⟨_, hend, rfl, rfl, rfl⟩
  · subst hn
    have hexec : exec .rekeyWalkDone s = _ := whenLive_guarded hl (by rw [hr, hs, hd, hmv, hg]; rfl)
    refine ⟨_, hexec, ?_, ?_, ?_, ?_, ?_, ?_⟩
    · rw [Dev.report_keys]
      rfl
    · exact (Dev.slot_of_keys (Dev.report_keys ..) _).trans (Dev.slot_updated (g := SlotEntry.settled) rfl)
    · rw [Dev.report_keys]
      exact Tab.get?_erase_self ..
    · rw [Dev.report_keys]
      rfl
    · rw [Dev.report_store]
      rfl
    · rw [Dev.report_nv]
      rfl

end Sys2Proof.Machine
end

section
/-!
PROOFS. Namespaces (R113 to R118, R138, R139).
-/
namespace Sys2Proof.Machine

/-! ## NSDEF up to its seals (R115 to R117) -/

/-- The groups that a change of a namespace reaches. -/
def nameGroups : Groups := { store := true, evt := true, life := true }

section
variable {d e : Dev} {i n : Nat} {c : Coach} {w : Fields} {f : Nat → Coach → Fields → Dev → Dev} {x : NsDescriptor}

/-- What an instruction leaves that has noted a change of a namespace and waits for its seals. -/
theorem noted_noteChange {v : W64} {y : NsChange} (heq : f i c w d = (d.noteChange i y).awaitSeals i v) (hc : d.coach? i = some c) :
    ∃ c', (noted f i c w d).coach? i = some c' ∧ c'.wait = .seals d.sealsWanted ∧ (noted f i c w d).nv = d.nv ∧
      (noted f i c w d).keys = d.keys ∧ (noted f i c w d).store =
        { d.store with nsChanges := d.store.nsChanges.set i { y with gens := d.sealsWanted } } := by
  have hco : (f i c w d).coach? i = some { c with wait := .seals d.sealsWanted, result := v } := by
    rw [heq, Dev.awaitSeals, Dev.coach?_onCoach]
    exact congrArg (Option.map _) hc
  obtain ⟨b, hb⟩ := noted_coach hco
  refine ⟨_, hb, rfl, ?_, ?_, ?_⟩
  · rw [noted_nv, heq]
    rfl
  · rw [noted_keys, heq]
    rfl
  · rw [noted_store, heq]
    rfl

theorem nsdefCreateEffect_eq (hn : 0 < n) (hlt : n < 65536) (hnum : c.run.num w.a = n) (hfree : (d.ns n).state = .free)
    (hcr : d.creating i n = false) (hx : c.nsDescriptor w = some x) (ho : x.options < 4) (hk : d.slotHoldsKey x.keySlot = true) :
    nsdefCreateEffect i c w d = (d.noteChange i { nsid := n, create := true, desc := x }).awaitSeals i 0 := by
  have hgo : (decide (4 ≤ x.options) || n == 0 || decide (65536 ≤ n) || (d.ns n).state != .free || d.creating i n) = false := by
    rw [decide_eq_false (by omega), decide_eq_false (by omega), hfree, hcr, beq_false_of_ne (by omega)]
    rfl
  simp only [nsdefCreateEffect, hx, hnum, hgo, hk, Bool.not_true, Bool.false_eq_true, if_false]

theorem nsdefModifyEffect_eq (hlt : n < 65536) (hnum : c.run.num w.a = n) (hact : (d.ns n).state = .active)
    (hx : c.nsDescriptor w = some x) (hg : x.groupPrefix = (d.ns n).groupPrefix ∨ (d.ns n).liveKeys = 0)
    (hk : x.keySlot = (d.ns n).keySlot ∨ d.slotHoldsKey x.keySlot = true) :
    nsdefModifyEffect i c w d =
      (d.noteChange i { nsid := n, create := false, retire := decide (4 ≤ x.options), desc := x }).awaitSeals i 0 := by
  have hgo : (decide (65536 ≤ n) || (d.ns n).state != .active) = false := by
    rw [decide_eq_false (by omega), hact]
    rfl
  have hgroup : ¬(x.groupPrefix ≠ (d.ns n).groupPrefix ∧ 0 < (d.ns n).liveKeys) := by
    rintro ⟨h1, h2⟩
    exact hg.elim h1 (by omega)
  have hkey : ¬(x.keySlot ≠ (d.ns n).keySlot ∧ d.slotHoldsKey x.keySlot = false) := by
    rintro ⟨h1, h2⟩
    exact hk.elim h1 fun h => by rw [h] at h2; exact absurd h2 (by decide)
  simp only [nsdefModifyEffect, hx, hnum, hgo, Bool.false_eq_true, if_false, if_neg hgroup, if_neg hkey]

theorem Dev.sealsWanted_of_regions (hs : e.store.regions = d.store.regions) (hc : e.chip = d.chip) : e.sealsWanted = d.sealsWanted := by
  unfold Dev.sealsWanted Dev.openRegions Dev.fencedRegion Dev.region
  rw [hs, hc]

theorem Dev.setNsState_groups (n : Nat) (st : NsState) (d : Dev) : (d.setNsState n st).mask nameGroups = d.mask nameGroups :=
  Dev.setNsState_mask rfl rfl rfl n st d

theorem Dev.setNsState_store (n : Nat) (st : NsState) (d : Dev) : (d.setNsState n st).store =
    (d.onNs n fun x => { x with state := st }).store :=
  Dev.report_store ..

theorem Dev.setNsState_ns (n : Nat) (st : NsState) (d : Dev) : (d.setNsState n st).ns n = { d.ns n with state := st } := by
  rw [Dev.ns, Dev.setNsState_store]
  exact d.ns_onNs n _

theorem Dev.ns_congr (h : e.store.namespaces = d.store.namespaces) (n : Nat) : e.ns n = d.ns n := by
  rw [Dev.ns, Dev.ns, h]

/-- The device whose namespace `n` coach `i` removes. -/
def Dev.removing (i n : Nat) (d : Dev) : Dev :=
  (d.setNsState n .removing).onStore fun x => { x with removals := x.removals.set n { remover := some i, started := d.sealsWanted } }

theorem Dev.removing_mask (i n : Nat) (d : Dev) : (d.removing i n).mask nameGroups = d.mask nameGroups :=
  (Dev.onStore_mask rfl ..).trans (d.setNsState_groups n .removing)

theorem nsdefRemoveEffect_eq (hlt : n < 65536) (hnum : c.run.num w.a = n) (hact : (d.ns n).state = .active) :
    nsdefRemoveEffect i c w d = (d.removing i n).waitFor i (.coaches (BitVec.ofNat 16 n)) := by
  have hgo : (decide (65536 ≤ n) || (d.ns n).state != .active) = false := by
    rw [decide_eq_false (by omega), hact]
    rfl
  have hw : (d.setNsState n .removing).sealsWanted = d.sealsWanted :=
    Dev.sealsWanted_of_regions (by rw [Dev.setNsState_store]; rfl) (Dev.chip_of_mask (d.setNsState_groups n .removing) rfl)
  simp only [nsdefRemoveEffect, hnum, hgo, Bool.false_eq_true, if_false, hw]
  rfl

/-! ## Changes that take effect (R117) -/

variable {y : NsChange}

/-- The device without the change of coach `i`. -/
def Dev.unchanged (i : Nat) : Dev → Dev := Dev.onStore fun s => { s with nsChanges := s.nsChanges.erase i }

theorem Dev.applyChange_none (h : d.store.nsChanges.get? i = none) : d.applyChange i = d := by
  rw [Dev.applyChange, h]

/-- A create that takes effect. -/
theorem Dev.applyChange_create (h : d.store.nsChanges.get? i = some y) (hy : y.create = true) :
    ((d.applyChange i).ns y.nsid = { ({ epoch := (d.ns y.nsid).epoch + 1 } : Namespace).define y.desc with state := .active }) ∧
      (d.applyChange i).store.nsChanges.get? i = none := by
  have heq : d.applyChange i = ((((d.unchanged i).onStore fun s => { s with nsBefore := s.nsBefore.erase y.nsid }).onNs y.nsid
      fun z => ({ epoch := z.epoch + 1 } : Namespace).define y.desc).setNsState y.nsid .active) := by
    simp only [Dev.applyChange, h, hy, if_true]
    rfl
  rw [heq]
  refine ⟨?_, ?_⟩
  · rw [Dev.setNsState_ns, Dev.ns_onNs]
    rfl
  · rw [Dev.setNsState_store]
    exact Tab.get?_erase_self ..

theorem Dev.advanceEpoch_ns (cause n : Nat) (d : Dev) : (d.advanceEpoch cause n).ns n = { d.ns n with epoch := (d.ns n).epoch + 1, tokenGen := 0 } := by
  rw [Dev.advanceEpoch, Dev.ns_congr (congrArg Store.namespaces (Dev.report_store ..)), Dev.ns_onNs]

theorem Dev.advanceEpoch_ns_ne (cause : Nat) {k n : Nat} (hk : k ≠ n) (d : Dev) : (d.advanceEpoch cause n).ns k = d.ns k := by
  rw [Dev.advanceEpoch, Dev.ns_congr (congrArg Store.namespaces (Dev.report_store ..)), Dev.ns_onNs_ne _ _ hk]

/-- A modify that takes effect. -/
theorem Dev.applyChange_modify (h : d.store.nsChanges.get? i = some y) (hy : y.create = false) (hf : d.changeFails y = false) :
    (d.applyChange i).ns y.nsid = { (d.ns y.nsid).define y.desc with
        epoch := (d.ns y.nsid).epoch + (if y.retire then 1 else 0), tokenGen := if y.retire then 0 else (d.ns y.nsid).tokenGen } ∧
      (d.applyChange i).store.nsChanges.get? i = none := by
  have hf' : (d.unchanged i).changeFails y = false := hf
  have heq : d.applyChange i = ((((d.unchanged i).keepBefore y.nsid).onNs y.nsid (Namespace.define y.desc)).when y.retire
      (Dev.advanceEpoch 1 y.nsid)) := by
    simp only [Dev.applyChange, h, hy, Bool.false_eq_true, if_false]
    exact if_neg (by rw [show (Dev.onStore _ d).changeFails y = false from hf']; decide)
  have hns : (((d.unchanged i).keepBefore y.nsid).onNs y.nsid (Namespace.define y.desc)).ns y.nsid = (d.ns y.nsid).define y.desc := by
    rw [Dev.ns_onNs]
    rfl
  rw [heq]
  cases hr : y.retire with
  | false =>
    exact ⟨hns, Tab.get?_erase_self ..⟩
  | true =>
    refine ⟨(Dev.advanceEpoch_ns ..).trans ?_, ?_⟩
    · rw [hns]
      rfl
    · refine (congrArg (fun v : Store => v.nsChanges.get? i) (Dev.report_store ..)).trans ?_
      exact Tab.get?_erase_self ..

/-- An NSDEF of an operation. -/
def nsdefRow (m : Nat) (f : Nat → Coach → Fields → Dev → Dev) (i : Nat) (c : Coach) (w : Fields) (d : Dev) : Dev :=
  if w.m = m then f i c w d else d

/-- NSDEF_COMPLETE of a coach whose wait has ended. -/
theorem exec_nsdefComplete {s : State} {ctx : CtxId} {c : Coach} (hrun : s.dev.coachIn ctx.val = some (i, c))
    (hpath : s.dev.pathRuns c.privileged = true) (hop : c.current.op = 0x45)
    (hw : (∃ gens, c.wait = .seals gens ∧ s.dev.sealedAll gens = true) ∨
      ∃ n : W16, c.wait = .coaches n ∧ s.dev.removalStarted n.toNat = true) {st : Byte}
    (hst : (if (s.dev.store.nsChanges.get? i).any s.dev.changeFails then stIllegalValue else stOk) = st) :
    exec (.nsdefComplete ctx) s = .next { s with dev := (s.dev.applyChange i).endWith i st id } := by
  subst hst
  rcases hw with ⟨gens, hw, hs⟩ | ⟨n, hw, hs⟩ <;>
    simp only [exec, execNsdefComplete, onDev_eq, hrun, hw, hs, hpath, hop, beq_self_eq_true, Bool.and_self, if_true]

theorem Dev.applyChange_groups (i : Nat) (d : Dev) : (d.applyChange i).mask nameGroups = d.mask nameGroups :=
  Dev.applyChange_mask rfl rfl rfl i d

/-- What the end of an NSDEF leaves whose change has taken effect. -/
theorem Dev.applied_coach {c : Coach} (hc : d.coach? i = some c) (st : Byte) : ((d.applyChange i).endWith i st id).coach? i =
    some { c with wait := .none, run := c.run.answers st } ∧ ((d.applyChange i).endWith i st id).nv = d.nv := by
  refine ⟨Dev.coach?_endWith st id ((congrArg (·.coaches.get? i) (Dev.eng_of_mask (d.applyChange_groups i) rfl)).trans hc), ?_⟩
  rw [Dev.endWith_nv]
  exact Dev.nv_of_mask (d.applyChange_groups i) rfl

end

/-- Settles O31, from what each NSDEF, the removal walk and the wrap of a token generation leave of the namespaces. -/
theorem namespacesComeAndGo : Obligations.NamespacesComeAndGo := by
  refine ⟨⟨fun s ctx i n c x h hm hn hlt hnum hfree hcr hx ho hk => ?_, fun s ctx i n c x h hm hlt hnum hact hx hg hk => ?_,
      fun s ctx i n c h hm hlt hnum hact => ?_, fun s ctx i c gens x h hx => ⟨fun hcr => ?_, fun hcr hfree hg => ?_⟩,
      fun s ctx i c n hc hrun hpath hop hw hno => ⟨fun hst => ?_, fun hst => ?_⟩⟩,
    fun s r n ht hrem hst => ?_, fun s n hl hrem hst hall hsl => ?_, fun s n hl hact hge => ?_⟩
  · have heq : nsdefRow 0 nsdefCreateEffect i c c.current s.dev = _ :=
      (if_pos hm).trans (nsdefCreateEffect_eq (i := i) hn hlt hnum hfree hcr hx ho hk)
    have hexec : exec (.nsdefCreate ctx) s = _ := runActing_at (nsdefRow 0 nsdefCreateEffect) h
    obtain ⟨c', hc, hw, hnv, hkeys, hstore⟩ := noted_noteChange heq h.coach
    exact ⟨_, c', hexec, hc, hw, hnv, hkeys, by rw [hstore], by rw [hstore]⟩
  · have heq : nsdefRow 1 nsdefModifyEffect i c c.current s.dev = _ :=
      (if_pos hm).trans (nsdefModifyEffect_eq (i := i) hlt hnum hact hx hg hk)
    have hexec : exec (.nsdefModify ctx) s = _ := runActing_at (nsdefRow 1 nsdefModifyEffect) h
    obtain ⟨c', hc, hw, hnv, hkeys, hstore⟩ := noted_noteChange heq h.coach
    exact ⟨_, c', hexec, hc, hw, hnv, hkeys, by rw [hstore], by rw [hstore]⟩
  · have heq : nsdefRow 2 nsdefRemoveEffect i c c.current s.dev = _ :=
      (if_pos hm).trans (nsdefRemoveEffect_eq (i := i) hlt hnum hact)
    have hexec : exec (.nsdefRemove ctx) s = _ := runActing_at (nsdefRow 2 nsdefRemoveEffect) h
    generalize nsdefRow 2 nsdefRemoveEffect = f at heq hexec
    have hmask := s.dev.removing_mask i n
    have hco : (f i c c.current s.dev).coach? i = some { c with wait := .coaches (BitVec.ofNat 16 n) } := by
      rw [heq, Dev.waitFor, Dev.coach?_onCoach]
      exact congrArg (Option.map _) ((congrArg (·.coaches.get? i) (Dev.eng_of_mask hmask rfl)).trans h.coach)
    obtain ⟨b, hb⟩ := noted_coach hco
    have hstore : (noted f i c c.current s.dev).store = (s.dev.removing i n).store := by
      rw [noted_store, heq]
      rfl
    refine ⟨_, _, hexec, hb, rfl, ?_, ?_, ?_⟩
    · rw [Dev.ns_congr (congrArg Store.namespaces hstore)]
      exact s.dev.setNsState_ns n .removing
    · rw [hstore]
      exact Tab.get?_set_self ..
    · rw [noted_nv, heq]
      exact (Dev.nv_of_mask hmask rfl : (s.dev.removing i n).nv = s.dev.nv)
  · have hok : (if (s.dev.store.nsChanges.get? i).any s.dev.changeFails then stIllegalValue else stOk) = stOk := by
      rw [hx]
      simp [Dev.changeFails, hcr]
    have hexec := exec_nsdefComplete h.running h.path h.opcode (.inl ⟨gens, h.waits, h.durable⟩) hok
    obtain ⟨hco, hnv⟩ := Dev.applied_coach h.coach stOk
    obtain ⟨hns, hgone⟩ := Dev.applyChange_create hx hcr
    exact ⟨_, hexec, hco, hnv, hgone, hns⟩
  · have hfails : s.dev.changeFails x = false := by
      have hg' : ((s.dev.ns x.nsid).groupPrefix != x.desc.groupPrefix && decide (0 < (s.dev.ns x.nsid).liveKeys)) = false := by
        rcases hg with hg | hg <;> rw [hg] <;> simp
      rw [Dev.changeFails, hg', beq_false_of_ne hfree]
      simp
    have hok : (if (s.dev.store.nsChanges.get? i).any s.dev.changeFails then stIllegalValue else stOk) = stOk := by
      rw [hx, Option.any_some, hfails]
      rfl
    have hexec := exec_nsdefComplete h.running h.path h.opcode (.inl ⟨gens, h.waits, h.durable⟩) hok
    obtain ⟨hco, hnv⟩ := Dev.applied_coach h.coach stOk
    obtain ⟨hns, hgone⟩ := Dev.applyChange_modify hx hcr hfails
    exact ⟨_, hexec, hco, hnv, hgone, hns⟩
  · have hexec := exec_nsdefComplete hrun hpath hop (.inr ⟨n, hw, hst⟩) (st := stOk) (by rw [hno]; rfl)
    rw [Dev.applyChange_none hno] at hexec
    exact ⟨_, hexec, Dev.becomes_endWith stOk id hc⟩
  · simp only [exec, execNsdefComplete, onDev_eq, hrun, hw, hst, Bool.and_false, Bool.false_eq_true, if_false]
  · have hexec : exec (.namespaceRemovalWalk r n) s = _ := onDev_guarded (by rw [ht, hrem, hst]; rfl)
    refine ⟨_, _, hexec, s.dev.region_onRegion r.val _, fun k hk => Dev.region_onRegion_ne _ _ hk, Tab.get?_set_self .., ?_, rfl, rfl⟩
    exact getLsbD_setBit_self _ r.isLt
  · have hexec : exec (.namespaceFree n) s = _ := whenLive_guarded hl (by simp only [hrem, hst, hall, hsl, beq_self_eq_true, Bool.and_self])
    refine ⟨_, hexec, ?_, ?_, ?_⟩
    · refine (Dev.setNsState_ns ..).trans ?_
      rw [Dev.ns_onNs]
      rfl
    · rw [Dev.setNsState_store]
      exact Tab.get?_erase_self ..
    · exact (Dev.nv_of_mask (Dev.setNsState_groups ..) rfl).trans rfl
  · have hexec : exec (.tokenGenerationWrap n) s = _ := whenLive_guarded hl (by rw [hact, decide_eq_true hge]; rfl)
    exact ⟨_, hexec, s.dev.advanceEpoch_ns 2 n.toNat, fun k hk => s.dev.advanceEpoch_ns_ne 2 hk, Dev.report_nv ..⟩

end Sys2Proof.Machine
end

section
/-!
PROOFS. The search of the directory, and the rows of the instructions on a key (R89, R128, R148, R154).
-/
namespace Sys2Proof.Machine

/-! ## The search of the directory (R128, R148, R154) -/

/-- A bank but for its counts of searches. -/
def Bank.uncounted (b : Bank) : Bank := { b with searches := 0, c7Searches := 0 }

/-- A region but for its directory result word. -/
def Region.unworded (x : Region) : Region := { x with dirWord := 0 }

/-- The store but for its banks and regions. -/
def Store.offArray (x : Store) : Store := { x with banks := [], regions := [] }

theorem Bank.eq_of_uncounted {x y : Bank} (h : x.uncounted = y.uncounted) :
    x = { y with searches := x.searches, c7Searches := x.c7Searches } := by
  cases x; cases y; simpa [Bank.uncounted] using h

theorem Region.eq_of_unworded {x y : Region} (h : x.unworded = y.unworded) : x = { y with dirWord := x.dirWord } := by
  cases x; cases y; simpa [Region.unworded] using h

theorem Store.eq_of_offArray {x y : Store} (h : x.offArray = y.offArray) :
    x = { y with banks := x.banks, regions := x.regions } := by
  cases x; cases y; simpa [Store.offArray] using h

section
variable (d : Dev)

theorem Dev.stepDir_eq (r cls : Nat) (ns : W16) (key : Bytes) : ∃ n lo, d.stepDir r cls ns key =
    d.searchDir r (d.dirKeyOf ns key) cls n lo := ⟨_, _, rfl⟩

/-- Counting the searches of a list of banks. -/
def Dev.countBanks (l : List Nat) (cls n : Nat) (d : Dev) : Dev :=
  Dev.each l (fun b d => Dev.each (List.range (n + 1)) (fun _ => Dev.countSearch b cls) d) d

theorem Dev.countBanks_keep {β : Type} (g : Dev → β) (l : List Nat) (cls n : Nat)
    (hg : ∀ b (d : Dev), g (d.countSearch b cls) = g d) : g (d.countBanks l cls n) = g d :=
  Dev.each_keep g l _ (fun b d => Dev.each_keep g _ _ (fun _ d => hg b d) d) d

theorem Dev.searchDir_offArray (r key cls n lo : Nat) : (d.searchDir r key cls n lo).store.offArray = d.store.offArray :=
  Dev.countBanks_keep d (·.store.offArray) (dirBanks r) cls n fun _ _ => rfl

theorem Dev.searchDir_banks (r key cls n lo : Nat) (b : Nat) :
    (d.searchDir r key cls n lo).bank b = (d.countBanks (dirBanks r) cls n).bank b := rfl

theorem Dev.countSearch_uncounted (b cls q : Nat) : ((d.countSearch b cls).bank q).uncounted = (d.bank q).uncounted := by
  by_cases h : q = b
  · rw [h, Dev.countSearch, Dev.bank_onBank]; rfl
  · rw [Dev.countSearch, Dev.bank_onBank_ne _ _ h]

theorem Dev.searchDir_uncounted (r key cls n lo b : Nat) :
    ((d.searchDir r key cls n lo).bank b).uncounted = (d.bank b).uncounted :=
  Dev.countBanks_keep d (fun e => (e.bank b).uncounted) (dirBanks r) cls n fun q d => d.countSearch_uncounted q cls b

theorem Dev.searchDir_bank_ne {r b : Nat} (key cls n lo : Nat) (h : b ∉ dirBanks r) :
    (d.searchDir r key cls n lo).bank b = d.bank b :=
  Dev.each_invariant (P := fun e => e.bank b = d.bank b) (dirBanks r) (fun _ hq _ he =>
    (Dev.each_keep (·.bank b) _ _ (fun _ _ => Dev.bank_onBank_ne _ _ (fun hb => h (hb ▸ hq))) _).trans he) d rfl

theorem Dev.searchDir_region (r key cls n lo q : Nat) :
    ((d.searchDir r key cls n lo).region q).unworded = (d.region q).unworded := by
  have hk : ∀ q, (d.countBanks (dirBanks r) cls n).region q = d.region q := fun q =>
    Dev.countBanks_keep d (·.region q) (dirBanks r) cls n fun _ _ => rfl
  by_cases h : q = r
  · rw [h, Dev.searchDir, Dev.region_onRegion]
    exact (show _ = ((d.countBanks (dirBanks r) cls n).region r).unworded from rfl).trans (congrArg Region.unworded (hk r))
  · rw [Dev.searchDir, Dev.region_onRegion_ne _ _ h]
    exact congrArg Region.unworded (hk q)

/-- A search that is counted raises the count of its bank, unless that has reached its limit, and no other count. -/
theorem Dev.countSearch_searches {v : Nat} (b q cls : Nat) (hv : v < 2 ^ 64 - 1) (h : v ≤ (d.bank b).searches) :
    v ≤ ((d.countSearch q cls).bank b).searches ∧
    (b = q ∨ v < (d.bank b).searches → v < ((d.countSearch q cls).bank b).searches) := by
  by_cases hq : b = q
  · subst hq
    rw [Dev.countSearch, Dev.bank_onBank]
    simp only [bump, satAdd, counterMax]; omega
  · rw [Dev.countSearch, Dev.bank_onBank_ne _ _ hq]
    exact ⟨h, fun hlt => hlt.resolve_left hq⟩

/-- What a step of a list brings about where `Q` holds stays, while every step keeps `Q`. -/
theorem Dev.each_attains {α : Type} {P Q : Dev → Prop} {f : α → Dev → Dev} {a : α} {l : List α} (ha : a ∈ l)
    (hq : ∀ b d, Q d → Q (f b d)) (hf : ∀ d, Q d → P (f a d)) (hk : ∀ b d, Q d → P d → P (f b d)) (h : Q d) :
    P (Dev.each l f d) := by
  obtain ⟨l₁, l₂, rfl⟩ := List.append_of_mem ha
  have hl₁ : Q (Dev.each l₁ f d) := Dev.each_invariant l₁ (fun b _ => hq b) d h
  have hrest := Dev.each_invariant (P := fun d => Q d ∧ P d) l₂ (fun b _ d hd => ⟨hq b d hd.1, hk b d hd.1 hd.2⟩)
    (f a (Dev.each l₁ f d)) ⟨hq a _ hl₁, hf _ hl₁⟩
  have heq : Dev.each (l₁ ++ a :: l₂) f d = Dev.each l₂ f (f a (Dev.each l₁ f d)) := by
    simp only [Dev.each, List.foldl_append, List.foldl_cons]
  rw [heq]
  exact hrest.2

theorem Dev.searchDir_rises {r b : Nat} (key cls n lo : Nat) (hb : b ∈ dirBanks r) (hv : (d.bank b).searches < 2 ^ 64 - 1) :
    (d.bank b).searches < ((d.searchDir r key cls n lo).bank b).searches := by
  have hone := fun q (e : Dev) h => e.countSearch_searches (v := (d.bank b).searches) b q cls hv h
  refine Dev.each_attains (P := fun e => (d.bank b).searches < (e.bank b).searches)
    (Q := fun e => (d.bank b).searches ≤ (e.bank b).searches) d hb
    (fun q e h => Dev.each_invariant _ (fun _ _ e h => (hone q e h).1) e h)
    (fun e h => Dev.each_attains e (List.mem_range.mpr n.succ_pos) (fun _ e h => (hone b e h).1)
      (fun e h => (hone b e h).2 (.inl rfl)) (fun _ e h hlt => (hone b e h).2 (.inr hlt)) h)
    (fun q e _ hlt => Dev.each_invariant (P := fun e => (d.bank b).searches < (e.bank b).searches) _
      (fun _ _ e h => (hone q e (Nat.le_of_lt h)).2 (.inr h)) e hlt) (Nat.le_refl _)

end

theorem Dev.searchDir_eq (r key cls n lo : Nat) (d : Dev) : d.searchDir r key cls n lo =
    (d.countBanks (dirBanks r) cls n).onRegion r fun x => { x with dirWord := d.dirWord r key lo false } := rfl

/-- A change of a coach and the search of the directory do not meet. -/
theorem Dev.searchDir_onCoach (i : Nat) (f : Coach → Coach) (r key cls n lo : Nat) (d : Dev) :
    (d.onCoach i f).searchDir r key cls n lo = (d.searchDir r key cls n lo).onCoach i f := by
  have hone : ∀ (l : List Nat) (b : Nat) (d : Dev), Dev.each l (fun _ => Dev.countSearch b cls) (d.onCoach i f) =
      (Dev.each l (fun _ => Dev.countSearch b cls) d).onCoach i f := fun l b => by
    unfold Dev.each
    induction l with
    | nil => exact fun _ => rfl
    | cons a l ih => exact fun d => ih (d.countSearch b cls)
  have hall : ∀ (l : List Nat) (d : Dev), (d.onCoach i f).countBanks l cls n = (d.countBanks l cls n).onCoach i f := fun l => by
    induction l with
    | nil => exact fun _ => rfl
    | cons b l ih =>
      exact fun d => (congrArg (Dev.countBanks l cls n) (hone _ b d)).trans (ih _)
  have hw : (d.onCoach i f).dirWord r key lo false = d.dirWord r key lo false := by
    simp only [Dev.dirWord, Dev.dirHits, Dev.arrayHits, Dev.arrayRow, Dev.validRows, Dev.shadowRow, Dev.dirRow, Dev.bank,
      Dev.onCoach_store]
  rw [Dev.searchDir_eq, Dev.searchDir_eq, hall, hw]
  rfl

section
variable (d : Dev) (c : Coach) (r : Nat)

theorem Dev.searched_onCoach (i : Nat) (f : Coach → Coach) : (d.onCoach i f).searched c r = (d.searched c r).onCoach i f :=
  Dev.searchDir_onCoach i f r _ _ _ _ d

theorem Dev.searched_agree : Dev.agree { store := true } (d.searched c r) d := Dev.stepDir_mask rfl r _ _ _ d

theorem Dev.searched_store :
    (d.searched c r).store = { d.store with banks := (d.searched c r).store.banks, regions := (d.searched c r).store.regions } :=
  Store.eq_of_offArray (d.searchDir_offArray r _ _ _ _)

theorem Dev.searched_region (q : Nat) :
    (d.searched c r).region q = { d.region q with dirWord := ((d.searched c r).region q).dirWord } :=
  Region.eq_of_unworded (d.searchDir_region r _ _ _ _ q)

theorem Dev.searched_bank (b : Nat) : (d.searched c r).bank b = { d.bank b with
    searches := ((d.searched c r).bank b).searches, c7Searches := ((d.searched c r).bank b).c7Searches } :=
  Bank.eq_of_uncounted (d.searchDir_uncounted r _ _ _ _ b)

theorem Dev.searched_eng : (d.searched c r).eng = d.eng := Dev.eng_of_mask (d.searched_agree c r) rfl

theorem Dev.searched_keys : (d.searched c r).keys = d.keys := Dev.keys_of_mask (d.searched_agree c r) rfl

theorem Dev.searched_coach? (i : Nat) : (d.searched c r).coach? i = d.coach? i := by
  rw [Dev.coach?, d.searched_eng c r]; rfl

theorem Dev.searched_ns (n : Nat) : (d.searched c r).ns n = d.ns n := by
  rw [Dev.ns, Dev.ns, d.searched_store c r]

theorem Dev.searched_nsFor (c' : Coach) (n : Nat) : (d.searched c r).nsFor c' n = d.nsFor c' n := by
  rw [Dev.nsFor, Dev.nsFor, d.searched_ns c r, d.searched_store c r]

end

/-! ## The row of an instruction on a key (R89) -/

/-- Where checks 1 to 3 of R89 pass, in the home region or answered, the instruction runs on the device searched. -/
theorem keyed_run {f : Nat → Nat → KeyEffect} {bd : Board} {rd : ReadEnv} {answered : Bool} {i r : Nat} {c : Coach} {w : Fields}
    {d : Dev} (ha : d.nsActive c.run.nsReg = true) (hk : c.run.keyReg ≠ []) (hh : d.homeOf c.run.nsReg c.run.keyReg = r)
    (hg : d.regionGate r = none) (hl : answered = true ∨ c.privileged = false ∧ r = c.home)
    (hc : d.dirClean r (d.dirKeyOf c.run.nsReg c.run.keyReg) = true) :
    keyed f bd rd answered i c w d = f r (d.fpFor c) bd rd answered i c w (d.searched c r) := by
  have hl : (!answered && (c.privileged || r != c.home)) = false := by
    rcases hl with rfl | ⟨hp, rfl⟩
    · rfl
    · rw [hp, bne_self_eq_false, Bool.or_false, Bool.and_false]
  unfold keyed
  simp only [ha, hh, hg, hl, hc, List.isEmpty_eq_false_iff.mpr hk, Bool.not_true, Bool.false_eq_true, if_false]
  rfl

/-- An instruction on a key runs on the device searched. -/
theorem runKey_at {s : State} {ctx : CtxId} {i op : Nat} {c : Coach} {rd : ReadEnv} (f : Nat → Nat → KeyEffect)
    (h : s.dev.Keyed ctx i c op) : runKey ctx op rd (keyed f) s = .next { s with
      dev := f c.home (s.dev.fpFor c) s.board rd false i c c.current (s.dev.searched c c.home) } := by
  rw [runKey, runInstr_at (p := (·.op == op)) _ h.toAt (beq_iff_eq.mpr h.opcode), accepted_of_ne h.accepted,
    keyed_run h.active h.key h.home h.gate (.inr ⟨h.request, rfl⟩) h.clean]

end Sys2Proof.Machine
end

section
/-!
PROOFS. GET, GETR, HEAD and the answer of a sub-request on the device searched (O22).
-/
namespace Sys2Proof.Machine

/-! ## Serving a value (R90, R91) -/

/-- The run of a coach whose instruction has read a key: version register, status `OK`, flags.found and flags.pending. -/
def Run.served (r : Run) (d version : Nat) (pending : Bool) : Run :=
  { r.retire with
    g := r.g.set d (BitVec.ofNat 64 version), status := stOk
    flags := { r.flags with err := false, found := true, pending := pending } }

/-- Two changes of one coach are a change of it. -/
theorem Dev.Becomes.trans {d d' d'' : Dev} {i : Nat} {c c' : Coach} (h : d.Becomes d' i c) (h' : d'.Becomes d'' i c') :
    d.Becomes d'' i c' where
  coach := h'.coach
  others j hj := (h'.others j hj).trans (h.others j hj)
  groups := Eq.trans h'.groups h.groups
  engines := h'.engines.trans h.engines

section
variable {d : Dev} {i : Nat} {c : Coach} {w : Fields} {a : ReadAsk} {h : Hit} {r : Record} {field : Attached}
  {resp : List RespField} {home f : Nat} {bodies : List ReadBack} {version : Nat} {pending : Bool}

/-- A reading instruction that succeeds changes its coach alone. -/
theorem Dev.becomes_readDone (g : Run → Run) (hc : d.coach? i = some c) (hs : a.okStatus = stOk) (hx : a.extra = none) :
    d.Becomes (d.readDone i w a version g) i
      { c with wait := .none, run := (((g c.run).setReg w.d (BitVec.ofNat 64 version)).setStatus stOk).retire } := by
  have hk := (Dev.becomes_onCoach (fun c => { c with wait := .none, run :=
    ((g c.run).setReg w.d (BitVec.ofNat 64 version)).setStatus stOk }) hc).onCoach fun c => { c with run := c.run.retire }
  unfold Dev.readDone
  simp only [hs, hx, show (stOk = stTokenStale) = False from by decide, if_false]
  exact hk

/-- An attached value is appended to the response of its coach, whose instruction then succeeds. -/
theorem Dev.becomes_attached (hc : d.coach? i = some c) (hs : a.okStatus = stOk) (hx : a.extra = none)
    (hf : appendField c.run.resp (.attached field) = some resp) :
    d.Becomes (d.appendThen i (.attached field) (Dev.readDone i w a version (Run.looked true pending))) i
      { c with wait := .none, run := { c.run.served w.d version pending with resp := resp } } := by
  have hrun := Dev.becomes_onRun (fun r => { r with resp := resp }) hc
  rw [Dev.appendThen, Dev.coach_of_some hc, hf]
  exact hrun.trans (Dev.becomes_readDone (Run.looked true pending) hrun.coach hs hx)

/-- A value that is attached whole. -/
theorem Dev.serve_whole (hr : d.recordAt (h.addrs.headD 0) = some r) (ha : a.attach = true) (hrange : a.range = none)
    (hopen : d.servesClosed h.addrs 0 r.totalLen true = false) (hkeys : d.keysHeld h.addrs = true)
    (hfield : field = { ns := c.run.nsReg, fp := f, home := home, addrs := h.addrs, totalLen := r.totalLen
                        length := r.totalLen, whole := true, hold := (d.nsFor c c.run.nsReg.toNat).options / 2 % 2 == 1
                        fixity := r.fixity, digest := r.digest }) :
    d.serve i home f c w a h bodies =
      d.appendThen i (.attached field) (Dev.readDone i w a h.version (Run.looked true h.pending)) := by
  unfold Dev.serve
  simp only [hr, ha, hrange, Option.map_none, Option.getD_none, Nat.not_lt_zero, if_false, Option.isNone_none, hopen, hkeys,
    Bool.not_true, Bool.and_false, Bool.false_eq_true, if_true, hfield]

/-- A range of a value that is attached: from an offset to the end, or at most so many bytes. -/
theorem Dev.serve_range {off n len : Nat} (hr : d.recordAt (h.addrs.headD 0) = some r) (ha : a.attach = true)
    (hrange : a.range = some (off, n)) (hoff : off ≤ r.totalLen)
    (hlen : len = if n = 0 then r.totalLen - off else min n (r.totalLen - off))
    (hopen : d.servesClosed h.addrs off len false = false) (hkeys : d.keysHeld h.addrs = true)
    (hfield : field = { ns := c.run.nsReg, fp := f, home := home, addrs := h.addrs, totalLen := r.totalLen, offset := off
                        length := len, hold := (d.nsFor c c.run.nsReg.toNat).options / 2 % 2 == 1
                        fixity := r.fixity, digest := r.digest }) :
    d.serve i home f c w a h bodies =
      d.appendThen i (.attached field) (Dev.readDone i w a h.version (Run.looked true h.pending)) := by
  unfold Dev.serve
  cases n with
  | zero =>
    rw [if_pos rfl] at hlen
    subst hlen
    simp only [hr, ha, hrange, Option.map_some, Option.getD_some, Nat.not_lt.mpr hoff, if_false, Option.isNone_some, hopen,
      hkeys, Bool.not_true, Bool.and_false, Bool.false_eq_true, if_true, hfield]
  | succ n =>
    rw [if_neg n.succ_ne_zero] at hlen
    subst hlen
    simp only [hr, ha, hrange, Option.map_some, Option.getD_some, Nat.not_lt.mpr hoff, if_false, Option.isNone_some, hopen,
      hkeys, Bool.not_true, Bool.and_false, Bool.false_eq_true, if_true, hfield]

end

/-! ## Reads and counts leave the coaches -/

section
variable (d : Dev)

theorem Dev.markSuspect_eng (home f a : Nat) : (d.markSuspect home f a).eng = d.eng :=
  Dev.eng_of_mask (Dev.markSuspect_mask (T := { store := true }) rfl home f a d) rfl

theorem Dev.countRead_coaches (x : SegRead) : (d.countRead x).eng.coaches = d.eng.coaches := by
  unfold Dev.countRead
  split
  · split <;> rfl
  · rfl

theorem Dev.noteTags_coaches (cause home : Nat) (ns : W16) (f addr0 : Nat) (l : List SegRead) :
    (d.noteTags cause home ns f addr0 l).eng.coaches = d.eng.coaches := by
  unfold Dev.noteTags
  refine (Dev.each_keep (·.eng.coaches) _ _ (fun x d => ?_) _).trans
    (Dev.each_keep (·.eng.coaches) _ _ (fun x d => d.countRead_coaches x) d)
  simp only [Dev.markSuspect_eng, Dev.report_eng]
  rfl

theorem Dev.noteTags_coach? (cause home : Nat) (ns : W16) (f addr0 : Nat) (l : List SegRead) (i : Nat) :
    (d.noteTags cause home ns f addr0 l).coach? i = d.coach? i :=
  congrArg (Tab.get? · i) (d.noteTags_coaches cause home ns f addr0 l)

theorem Dev.cacheStep_coach? (rd : ReadEnv) (home f a i : Nat) : (d.cacheStep rd home f a).coach? i = d.coach? i :=
  congrArg (fun e => Tab.get? (Engines.coaches e) i)
    (Dev.eng_of_mask (Dev.cacheStep_mask (T := { store := true }) rfl rd home f a d) rfl)

/-- A read after which nothing leaves the value cache and nothing stays in it. -/
theorem Dev.cacheStep_idle {rd : ReadEnv} (home f a : Nat) (hk : rd.keep = false) (he : rd.evict = []) :
    d.cacheStep rd home f a = d := by
  unfold Dev.cacheStep
  rw [hk, he]
  rfl

end

/-! ## GET into the fetch area -/

/-- A value of one segment that is read into the fetch area, cut at its end. -/
theorem Dev.serve_fetched {d : Dev} {i home f : Nat} {c : Coach} {w : Fields} {h : Hit} {r : Record} {bodies : List ReadBack}
    (hc : d.coach? i = some c) (hr : d.recordAt (h.addrs.headD 0) = some r)
    (hopen : d.servesClosed h.addrs 0 r.totalLen true = false) (hok : firstFailure (d.readSegments h.addrs 0 1 bodies) = stOk)
    (hd : h.addrs.length = 1 → digestOf r.fixity (segBytes (d.readSegments h.addrs 0 1 bodies)) = r.digest) :
    (d.serve i home f c w { attach := false } h bodies).coach? i = some { c with
      wait := .none
      run := { c.run.served w.d h.version h.pending with
        fetch := (segBytes (d.readSegments h.addrs 0 1 bodies)).take (min r.totalLen 16384)
        flags := { c.run.flags with
          err := false, found := true, pending := h.pending, trunc := decide (16384 < r.totalLen) } } } := by
  have hgood : ¬(h.addrs.length = 1 ∧ digestOf r.fixity (segBytes (d.readSegments h.addrs 0 1 bodies)) ≠ r.digest) :=
    fun hn => hn.2 (hd hn.1)
  have htrunc : decide (min r.totalLen 16384 < r.totalLen) = decide (16384 < r.totalLen) := decide_eq_decide.mpr (by omega)
  have hbecomes := fun e g (he : e.coach? i = some c) =>
    (Dev.becomes_readDone (w := w) (a := { attach := false }) (version := h.version) (d := e) g he rfl rfl).coach
  unfold Dev.serve
  simp only [hr, Option.map_none, Option.getD_none, Nat.not_lt_zero, if_false, Option.isNone_none, hopen, Bool.false_and,
    Bool.false_eq_true, Nat.zero_div, if_true, hok, Bool.true_and, beq_iff_eq, true_and, hgood, htrunc]
  exact hbecomes _ _ ((d.noteTags_coach? ..).trans hc)

/-! ## The cores of GET, GETR and HEAD on the device searched -/

section
variable {d : Dev} {i home f : Nat} {c : Coach} {w : Fields} {bd : Board} {rd : ReadEnv} {answered ranged : Bool} {h : Hit}

theorem getCore_hit (hh : (d.lookFor c home c.run.nsReg c.run.keyReg true rd.headers).1.hit = some h) :
    getCore ranged home f bd rd answered i c w d =
      (d.serve i home f c w { attach := w.m % 2 == 1, range := if ranged then some (c.run.num w.a, c.run.num w.b) else none }
        h rd.bodies).cacheStep rd home f (h.addrs.headD 0) := by
  unfold getCore
  simp only [hh]

/-- A lookup that finds nothing: `NOT_FOUND`, version 0. -/
theorem getCore_missed (hc : d.coach? i = some c)
    (hh : (d.lookFor c home c.run.nsReg c.run.keyReg true rd.headers).1.hit = none)
    (hb : (d.lookFor c home c.run.nsReg c.run.keyReg true rd.headers).1.blocked = none) :
    ∃ c', d.Becomes (getCore ranged home f bd rd answered i c w d) i c' ∧ c'.run.status = stNotFound ∧
      c'.run.g = c.run.g.set w.d 0 ∧ c'.run.flags.found = false ∧ c'.run.flags.err = true ∧ c'.run.pc = c.run.pc + 1 := by
  unfold getCore
  simp only [hh, Dev.notServedKey, hb]
  refine ⟨_, Dev.becomes_endWith _ _ hc, rfl, ?_, rfl, rfl, ?_⟩ <;> split <;> rfl

theorem headCore_missed (hc : d.coach? i = some c)
    (hh : (d.lookFor c home c.run.nsReg c.run.keyReg false rd.headers).1.hit = none)
    (hb : (d.lookFor c home c.run.nsReg c.run.keyReg false rd.headers).1.blocked = none) :
    ∃ c', d.Becomes (headCore home f bd rd answered i c w d) i c' ∧ c'.run.status = stNotFound ∧
      c'.run.g = c.run.g.set w.d 0 ∧ c'.run.flags.found = false ∧ c'.run.flags.err = true ∧ c'.run.pc = c.run.pc + 1 := by
  unfold headCore
  simp only [hh, hb]
  exact ⟨_, Dev.becomes_endWith _ _ hc, rfl, rfl, rfl, rfl, rfl⟩

/-- HEAD of a record whose header is read. -/
theorem headCore_found {x : Record} {left : List ReadBack} (hc : d.coach? i = some c)
    (hh : (d.lookFor c home c.run.nsReg c.run.keyReg false rd.headers).1.hit = some h)
    (hx : d.readHeader (h.addrs.headD 0) (d.lookFor c home c.run.nsReg c.run.keyReg false rd.headers).1.left = (.found x, left)) :
    d.Becomes (headCore home f bd rd answered i c w d) i { c with
      wait := .none
      run := { c.run.served w.d (if w.m = 0 then h.version else if w.m = 1 then x.totalLen else x.writeTime) h.pending with
        fetch := metadataBlock x h.version h.pending h.entry } } := by
  have hend := fun v => Dev.becomes_endWith stOk (fun r =>
    ({ r with fetch := metadataBlock x h.version h.pending h.entry }.setReg w.d (BitVec.ofNat 64 v)).looked true h.pending) hc
  unfold headCore
  simp only [hh, hx]
  match hm : w.m with
  | 0 => exact hend h.version
  | 1 => exact hend x.totalLen
  | _ + 2 => exact hend x.writeTime

end

/-- An instruction on a key whose coach waited for nothing, on the device searched. -/
theorem Dev.Keyed.searched_coach {d : Dev} {ctx : CtxId} {i op : Nat} {c : Coach} (h : d.Keyed ctx i c op) (r : Nat) :
    (d.searched c r).coach? i = some c := (d.searched_coach? c r i).trans h.coach

/-- The answer of a sub-request runs its instruction in the region that the coach waited for. -/
theorem subRequestAnswer_run {s : State} {ctx : CtxId} {i r op : Nat} {c : Coach} {rd : ReadEnv} {f : Nat → Nat → KeyEffect}
    (hop : c.current.op = op) (hf : keyEffectOf op = some (keyed f)) (hr : s.dev.coachIn ctx.val = some (i, c))
    (hp : s.dev.pathRuns c.privileged = true) (hw : c.wait = .subRequest r) (ha : s.dev.nsActive c.run.nsReg = true)
    (hk : c.run.keyReg ≠ []) (hh : s.dev.homeOf c.run.nsReg c.run.keyReg = r) (hg : s.dev.regionGate r = none)
    (hc : s.dev.dirClean r (s.dev.dirKeyOf c.run.nsReg c.run.keyReg) = true) :
    exec (.subRequestAnswer ctx rd) s = .next { s with
      dev := f r (s.dev.fpFor c) s.board rd true i { c with wait := .none } c.current
        ((s.dev.searched c r).waitFor i .none) } := by
  have hrun : keyed f s.board rd true i { c with wait := .none } c.current (s.dev.waitFor i .none) =
      f r (s.dev.fpFor c) s.board rd true i { c with wait := .none } c.current ((s.dev.searched c r).waitFor i .none) :=
    (keyed_run (d := s.dev.waitFor i .none) (c := { c with wait := .none }) ha hk hh hg (.inl rfl) hc).trans
      (congrArg (f r (s.dev.fpFor c) s.board rd true i { c with wait := .none } c.current) (s.dev.searched_onCoach c r i _))
  have hexec : exec (.subRequestAnswer ctx rd) s = execSubRequestAnswer ctx rd s := rfl
  rw [hexec, execSubRequestAnswer, resume, onDev_eq]
  simp only [hr, hp, hw, hop, hf, Bool.and_self, if_true, hrun]

/-- A coach that waited and is taken up again changes as the coach that waits for nothing. -/
theorem Dev.Becomes.resumed {d d' : Dev} {i : Nat} {c c' : Coach} (hc : d.coach? i = some c)
    (h : (d.waitFor i .none).Becomes d' i c') : d.Becomes d' i c' :=
  (Dev.becomes_onCoach (fun c => { c with wait := .none }) hc).trans h


/-! ## ITER at the end of its walk (R100) -/

/-- An ITER from the end of a walk lists nothing. -/
theorem iterEffect_end {d : Dev} {i : Nat} {c : Coach} {w : Fields} {bd : Board} {rd : ReadEnv} {answered : Bool}
    (hc : d.coach? i = some c) (ha : d.nsActive c.run.nsReg = true) (hcur : c.run.num w.a = cursorEnd)
    (hlo : 1 ≤ w.imm % 128) (hhi : w.imm % 128 ≤ 64) :
    d.Becomes (iterEffect bd rd answered i c w d) i { c with
      wait := .none, cursor := some cursorEnd
      run := { c.run.answers stOk with fetch := [], g := c.run.g.set w.d (BitVec.ofNat 64 cursorEnd) } } := by
  unfold iterEffect
  simp only [ha, hcur, hlo, hhi, Bool.not_true, Bool.false_eq_true, if_false, and_self, if_true]
  exact (Dev.becomes_endWith stOk (fun x => { x with fetch := [] }.setReg w.d (BitVec.ofNat 64 cursorEnd)) hc).onCoach
    fun c => { c with cursor := some cursorEnd }

theorem exec_iter_at {s : State} {ctx : CtxId} {i : Nat} {c : Coach} {rd : ReadEnv} (h : s.dev.At ctx i c 0x32)
    (hrec : s.dev.fw.recovery ≠ 1) : exec (.iter ctx rd) s = .next { s with
      dev := iterEffect s.board rd false i c c.current s.dev } := by
  have hexec : exec (.iter ctx rd) s = execIter ctx rd s := rfl
  rw [hexec, execIter, runKey, runInstr_at (p := (·.op == 0x32)) _ h (beq_iff_eq.mpr h.opcode), accepted_of_ne hrec]

/-- GETR of a range that is attached. -/
theorem exec_getr_attached {s : State} {ctx : CtxId} {i : Nat} {c : Coach} {rd : ReadEnv} {e : Dev} {h : Hit} {r : Record}
    {a : Attached} {resp : List RespField} (hk : s.dev.Keyed ctx i c 0x23) (he : e = s.dev.searched c c.home)
    (hm : c.current.m = 1) (hh : (e.lookFor c c.home c.run.nsReg c.run.keyReg true rd.headers).1.hit = some h)
    (hr : e.recordAt (h.addrs.headD 0) = some r) (hoff : c.run.num c.current.a ≤ r.totalLen)
    (ha : a = { ns := c.run.nsReg, fp := s.dev.fpFor c, home := c.home, addrs := h.addrs, totalLen := r.totalLen
                offset := c.run.num c.current.a
                length := if c.run.num c.current.b = 0 then r.totalLen - c.run.num c.current.a
                  else min (c.run.num c.current.b) (r.totalLen - c.run.num c.current.a)
                hold := (s.dev.nsFor c c.run.nsReg.toNat).options / 2 % 2 == 1, fixity := r.fixity, digest := r.digest })
    (hopen : e.servesClosed h.addrs a.offset a.length false = false) (hkeys : e.keysHeld h.addrs = true)
    (hresp : appendField c.run.resp (.attached a) = some resp) :
    ∃ d', e.Becomes d' i { c with run := { c.run.served c.current.d h.version h.pending with resp := resp } } ∧
      exec (.getr ctx rd) s = .next { s with dev := d'.cacheStep rd c.home (s.dev.fpFor c) (h.addrs.headD 0) } := by
  subst he
  have hserve := Dev.serve_range (i := i) (w := c.current) (bodies := rd.bodies)
    (a := { attach := true, range := some (c.run.num c.current.a, c.run.num c.current.b) }) hr rfl rfl hoff rfl
    (by rw [ha] at hopen; exact hopen) hkeys (ha.trans (by rw [Dev.searched_nsFor]))
  have hbecomes := Dev.becomes_attached (w := c.current) (version := h.version) (pending := h.pending)
    (a := { attach := true, range := some (c.run.num c.current.a, c.run.num c.current.b) }) (hk.searched_coach c.home)
    rfl rfl hresp
  rw [← hserve, ← hk.free] at hbecomes
  have hexec := runKey_at (rd := rd) (getCore true) hk
  rw [getCore_hit hh, hm] at hexec
  exact ⟨_, hbecomes, hexec⟩

section
variable {d : Dev} {i r : Nat} {c : Coach} {w : Wait}

theorem Dev.readHeader_waitFor (a : Nat) (left : List ReadBack) : (d.waitFor i w).readHeader a left = d.readHeader a left := rfl

theorem Dev.confirm_waitFor (ns : W16) (key : Bytes) (ms : List (Nat × IndexEntry)) (l : Lookup) :
    (d.waitFor i w).confirm ns key ms l = d.confirm ns key ms l := by
  have hseg : ∀ q f v, (d.waitFor i w).segmentEntry q f v = d.segmentEntry q f v := fun _ _ _ => rfl
  have hfp : ∀ k, (d.waitFor i w).segFp ns key k = d.segFp ns key k := fun _ => rfl
  induction ms generalizing l with
  | nil => rfl
  | cons e ms ih => simp only [Dev.confirm, Dev.readHeader_waitFor, hseg, hfp, ih]

theorem Dev.look_waitFor (ns : W16) (key : Bytes) (always : Bool) (left : List ReadBack) :
    (d.waitFor i w).look r ns key always left = d.look r ns key always left := by
  have hchain : ∀ f, (d.waitFor i w).chainOf r f = d.chainOf r f := fun _ => rfl
  have hfp : (d.waitFor i w).fpOf ns key = d.fpOf ns key := rfl
  have hunit : (d.waitFor i w).unit? r ns key = d.unit? r ns key := rfl
  simp only [Dev.look, Dev.lookIndex, Dev.confirm_waitFor, hchain, hfp, hunit]

/-- What a coach waits for says nothing of what it looks up. -/
theorem Dev.lookFor_waitFor (always : Bool) (left : List ReadBack) :
    (d.waitFor i w).lookFor { c with wait := .none } r c.run.nsReg c.run.keyReg always left =
      d.lookFor c r c.run.nsReg c.run.keyReg always left := by
  have hstaged : Coach.stagedFor { c with wait := .none } = c.stagedFor := rfl
  simp only [Dev.lookFor, hstaged, Dev.look_waitFor]

end

/-- Settles O22, by the counts of the directory search and what the cores of GET, GETR and HEAD leave on the device searched. -/
theorem readsServeTheNewestRecord : Obligations.ReadsServeTheNewestRecord := by
  refine ⟨?_, ?_, ?_, ?_, ?_, ?_, ?_⟩
  · rintro d _ c r b rfl
    exact ⟨d.searched_agree c r, d.searched_store c r, d.searched_region c r, d.searched_bank c r b,
      fun hb => d.searchDir_bank_ne _ _ _ _ hb, fun hb hv => d.searchDir_rises _ _ _ _ hb hv⟩
  · rintro s ctx i c rd _ h r hk rfl hm hh hr hopen hok hd
    have hserve := Dev.serve_fetched (home := c.home) (f := s.dev.fpFor c) (w := c.current) (hk.searched_coach c.home) hr hopen hok hd
    have hexec := runKey_at (rd := rd) (getCore false) hk
    rw [getCore_hit hh, hm] at hexec
    exact ⟨_, _, hexec, (Dev.cacheStep_coach? ..).trans hserve, rfl, rfl, rfl, rfl, rfl, rfl, rfl⟩
  · intro s ctx i c rd e h r a resp hk he hm hh hr hoff ha hopen hkeys hresp
    obtain ⟨d', hbecomes, hexec⟩ := exec_getr_attached hk he hm hh hr hoff ha hopen hkeys hresp
    exact ⟨d', hbecomes, hexec, fun hkeep hevict => Dev.cacheStep_idle _ _ _ _ hkeep hevict⟩
  · rintro s ctx i c rd _ h x left hk rfl hh hx
    have hfree := hk.free
    exact ⟨_, runKey_at headCore hk, hfree ▸ headCore_found (hk.searched_coach c.home) hh hx⟩
  · rintro s ctx i c rd _ con op always hcon hk rfl hh hb
    have hc := hk.searched_coach c.home
    simp only [Prod.mk.injEq] at hcon
    rcases hcon with ⟨rfl, rfl, rfl⟩ | ⟨rfl, rfl, rfl⟩ | ⟨rfl, rfl, rfl⟩
    · obtain ⟨c', hmiss⟩ := getCore_missed (ranged := false) (w := c.current) (bd := s.board) (answered := false) hc hh hb
      exact ⟨_, c', runKey_at (getCore false) hk, hmiss⟩
    · obtain ⟨c', hmiss⟩ := getCore_missed (ranged := true) (w := c.current) (bd := s.board) (answered := false) hc hh hb
      exact ⟨_, c', runKey_at (getCore true) hk, hmiss⟩
    · obtain ⟨c', hmiss⟩ := headCore_missed (w := c.current) (bd := s.board) (answered := false) hc hh hb
      exact ⟨_, c', runKey_at headCore hk, hmiss⟩
  · rintro s ctx i r c rd _ h x left hc hr hp hw hop ha hk hh hg hclean rfl hhit hx
    have hcs := (s.dev.searched_coach? c r i).trans hc
    have hwait : ((s.dev.searched c r).waitFor i .none).coach? i = some { c with wait := .none } := by
      rw [Dev.waitFor, Dev.coach?_onCoach, hcs]; rfl
    exact ⟨_, subRequestAnswer_run hop rfl hr hp hw ha hk hh hg hclean,
      (headCore_found (w := c.current) (c := { c with wait := .none }) hwait
        ((congrArg (fun l => l.1.hit) (Dev.lookFor_waitFor false rd.headers)).trans hhit)
        (by rw [Dev.lookFor_waitFor]; exact hx)).resumed hcs⟩
  · intro s ctx i c rd hat hrec ha hcur hlo hhi
    have hend := iterEffect_end (w := c.current) (bd := s.board) (rd := rd) (answered := false) hat.coach ha hcur hlo hhi
    rw [← hat.free] at hend
    exact ⟨_, exec_iter_at hat hrec, hend⟩

end Sys2Proof.Machine
end

section
/-!
PROOFS. VERIFY, TOKEN and USETOK (O23).
-/
namespace Sys2Proof.Machine

/-! ## VERIFY and TOKEN (R98, R105) -/

section
variable {d : Dev} {i home f : Nat} {c : Coach} {w : Fields} {bd : Board} {rd : ReadEnv} {answered : Bool} {h : Hit}

/-- VERIFY of a value that has been read whole: its digest decides. -/
theorem verifyCore_read {r : Record} (hc : d.coach? i = some c)
    (hh : (d.look home c.run.nsReg c.run.keyReg true rd.headers).hit = some h) (hopen : d.segmentClosed h.addrs 0 64 = false)
    (hr : d.recordAt (h.addrs.headD 0) = some r) (hok : firstFailure (d.readSegments h.addrs 0 64 rd.bodies) = stOk) :
    (verifyCore home f bd rd answered i c w d).coach? i = some { c with
      wait := .none
      run := ((c.run.setReg w.d (BitVec.ofNat 64 h.version)).looked true h.pending).answers
        (if digestOf r.fixity (segBytes (d.readSegments h.addrs 0 64 rd.bodies)) = r.digest then stOk
         else stIntegrityFailed) } := by
  have hnote : ∀ st (g : Run → Run) (e : Dev), e.coach? i = d.coach? i →
      (e.endWith i st g).coach? i = some { c with wait := .none, run := (g c.run).answers st } :=
    fun st g e he => Dev.coach?_endWith st g (he.trans hc)
  unfold verifyCore
  simp only [hh, hopen, Bool.false_eq_true, if_false, hr, hok, true_and]
  by_cases hd : digestOf r.fixity (segBytes (d.readSegments h.addrs 0 64 rd.bodies)) = r.digest
  · simp only [hd, beq_self_eq_true, Bool.true_eq_false, if_false, if_true, show (stOk = stIntegrityFailed) = False from by decide]
    exact hnote _ _ _ (d.noteTags_coach? ..)
  · simp only [hd, beq_eq_false_iff_ne.mpr hd, if_true, if_false]
    exact hnote _ _ _ ((congrArg (fun e => Tab.get? (Engines.coaches e) i) (Dev.markSuspect_eng ..)).trans (d.noteTags_coach? ..))

/-- TOKEN of a record that is found appends its token and counts it in its region. -/
theorem tokenCore_found {resp : List RespField} (hc : d.coach? i = some c)
    (hh : (d.look home c.run.nsReg c.run.keyReg false rd.headers).hit = some h)
    (hresp : appendField c.run.resp (.bytes (d.tokenFor c.run.nsReg (h.addrs.headD 0) (d.spanAt (h.addrs.headD 0)) h.version)) =
      some resp) :
    tokenCore home f bd rd answered i c w d = ((d.onRun i fun r => { r with resp := resp }).countIssued home).endWith i stOk
      fun r => (r.setReg w.d (BitVec.ofNat 64 h.version)).looked true h.pending := by
  unfold tokenCore
  simp only [hh, Dev.appendThen, Dev.coach_of_some hc, hresp]

/-! ## USETOK (R99, R136) -/

/-- A token that does not carry the tag of its namespace is invalid. -/
theorem usetokCore_invalid {tk : Bytes} (ht : d.keys.tokenKey = some tk) (ha : inArea c.inbound (c.run.num w.a) 16 = true)
    (htag : tokenTag tk c.run.nsReg ((slice c.inbound (c.run.num w.a) 16).drop 4) ≠ (slice c.inbound (c.run.num w.a) 16).take 4) :
    usetokCore home f bd rd answered i c w d =
      (d.onRegion home fun x => { x with tokInvalid := bump x.tokInvalid }).fail i stTokenInvalid := by
  unfold usetokCore
  simp only [ha, Bool.not_true, Bool.false_eq_true, if_false, ht, htag, ne_eq, not_false_eq_true, if_true]

/-- The region that a token of its pending record is used in counts it where the record is served. -/
def Dev.countCurrent (home i : Nat) (d : Dev) : Dev :=
  if (d.coach i).run.status = stOk then d.onRegion home fun x => { x with tokCurrent := bump x.tokCurrent } else d

/-- A token that names the pending record of the key serves it. -/
theorem usetokCore_pending {tk : Bytes} (ht : d.keys.tokenKey = some tk) (ha : inArea c.inbound (c.run.num w.a) 16 = true)
    (htag : tokenTag tk c.run.nsReg ((slice c.inbound (c.run.num w.a) 16).drop 4) = (slice c.inbound (c.run.num w.a) 16).take 4)
    (hh : (d.look home c.run.nsReg c.run.keyReg true rd.headers).hit = some h) (hp : h.pending = true)
    (haddr : h.addrs.headD 0 = (tokenFields (slice c.inbound (c.run.num w.a) 16)).addr) :
    usetokCore home f bd rd answered i c w d =
      (d.serve i home f c w { attach := w.m % 2 == 1 } h rd.bodies).countCurrent home i := by
  unfold usetokCore
  simp only [ha, Bool.not_true, Bool.false_eq_true, if_false, ht, htag, ne_eq, not_true_eq_false, hh, hp, if_true, haddr]
  rfl

end

section
variable {d : Dev} {i home : Nat} {c : Coach}

theorem Dev.countIssued_endWith_region (st : Byte) (g : Run → Run) :
    (((d.countIssued home).endWith i st g).region home).tokIssued = bump (d.region home).tokIssued :=
  congrArg Region.tokIssued (d.region_onRegion home _)

theorem Dev.countInvalid_fail_region (st : Byte) :
    (((d.onRegion home fun x => { x with tokInvalid := bump x.tokInvalid }).fail i st).region home).tokInvalid =
      bump (d.region home).tokInvalid :=
  congrArg Region.tokInvalid (d.region_onRegion home _)

theorem Dev.searched_nv (d : Dev) (c : Coach) (r : Nat) : (d.searched c r).nv = d.nv := Dev.nv_of_mask (d.searched_agree c r) rfl

theorem Dev.countIssued_endWith_nv (st : Byte) (g : Run → Run) : ((d.countIssued home).endWith i st g).nv = d.nv := rfl

theorem Dev.searched_tokens (r q : Nat) :
    ((d.searched c r).region q).tokIssued = (d.region q).tokIssued ∧
    ((d.searched c r).region q).tokInvalid = (d.region q).tokInvalid ∧
    ((d.searched c r).region q).tokCurrent = (d.region q).tokCurrent := by
  rw [d.searched_region c r]
  exact ⟨rfl, rfl, rfl⟩

/-- A record that is served is counted as current. -/
theorem Dev.countCurrent_served (hc : d.coach? i = some c) (hs : c.run.status = stOk) :
    (d.countCurrent home i).coach? i = some c ∧
    ((d.countCurrent home i).region home).tokCurrent = bump (d.region home).tokCurrent := by
  unfold Dev.countCurrent
  rw [if_pos ((congrArg (·.run.status) (Dev.coach_of_some hc)).trans hs)]
  exact ⟨hc, congrArg Region.tokCurrent (d.region_onRegion home _)⟩

theorem Dev.Becomes.store {d' : Dev} (h : d.Becomes d' i c) : d'.store = d.store := Dev.store_of_mask h.groups rfl

end

/-- USETOK of a token that is not the namespace's. -/
theorem exec_usetok_invalid {s : State} {ctx : CtxId} {i : Nat} {c : Coach} {rd : ReadEnv} {tk : Bytes}
    (hk : s.dev.Keyed ctx i c 0x31) (ht : s.dev.keys.tokenKey = some tk)
    (ha : inArea c.inbound (c.run.num c.current.a) 16 = true)
    (htag : tokenTag tk c.run.nsReg ((slice c.inbound (c.run.num c.current.a) 16).drop 4) ≠
      (slice c.inbound (c.run.num c.current.a) 16).take 4) :
    ∃ d' c', exec (.usetok ctx rd) s = .next { s with dev := d' } ∧ d'.coach? i = some c' ∧
      c'.run.status = stTokenInvalid ∧ c'.run.g = c.run.g ∧
      (d'.region c.home).tokInvalid = bump (s.dev.region c.home).tokInvalid := by
  have hexec := runKey_at (rd := rd) usetokCore hk
  rw [usetokCore_invalid ((congrArg KeyState.tokenKey (s.dev.searched_keys c c.home)).trans ht) ha htag] at hexec
  refine ⟨_, _, hexec, Dev.coach?_endWith _ _ (hk.searched_coach c.home), rfl, rfl, ?_⟩
  obtain ⟨-, hinvalid, -⟩ := Dev.searched_tokens (d := s.dev) (c := c) c.home c.home
  rw [Dev.countInvalid_fail_region, hinvalid]

/-- USETOK of a token that names the pending record of its key. -/
theorem exec_usetok_pending {s : State} {ctx : CtxId} {i : Nat} {c : Coach} {rd : ReadEnv} {e : Dev} {tk : Bytes} {h : Hit}
    {r : Record} {a : Attached} {resp : List RespField} (hk : s.dev.Keyed ctx i c 0x31) (he : e = s.dev.searched c c.home)
    (ht : s.dev.keys.tokenKey = some tk) (harea : inArea c.inbound (c.run.num c.current.a) 16 = true)
    (htag : tokenTag tk c.run.nsReg ((slice c.inbound (c.run.num c.current.a) 16).drop 4) =
      (slice c.inbound (c.run.num c.current.a) 16).take 4)
    (hh : (e.look c.home c.run.nsReg c.run.keyReg true rd.headers).hit = some h) (hp : h.pending = true)
    (haddr : h.addrs.headD 0 = (tokenFields (slice c.inbound (c.run.num c.current.a) 16)).addr)
    (hr : e.recordAt (h.addrs.headD 0) = some r) (hm : c.current.m = 1)
    (hopen : e.servesClosed h.addrs 0 r.totalLen true = false) (hkeys : e.keysHeld h.addrs = true)
    (ha : a = { ns := c.run.nsReg, fp := s.dev.fpFor c, home := c.home, addrs := h.addrs, totalLen := r.totalLen
                length := r.totalLen, whole := true, hold := (s.dev.nsFor c c.run.nsReg.toNat).options / 2 % 2 == 1
                fixity := r.fixity, digest := r.digest })
    (hresp : appendField c.run.resp (.attached a) = some resp) :
    ∃ d' c', exec (.usetok ctx rd) s = .next { s with dev := d' } ∧ d'.coach? i = some c' ∧ c'.run.status = stOk ∧
      c'.run.resp = resp ∧ c'.run.g = c.run.g.set c.current.d (BitVec.ofNat 64 h.version) ∧
      (d'.region c.home).tokCurrent = bump (s.dev.region c.home).tokCurrent := by
  subst he
  have hserve := Dev.serve_whole (i := i) (w := c.current) (bodies := rd.bodies) (a := { attach := true }) hr rfl rfl hopen
    hkeys (ha.trans (by rw [Dev.searched_nsFor]))
  have hbecomes := Dev.becomes_attached (w := c.current) (version := h.version) (pending := h.pending)
    (a := { attach := true }) (hk.searched_coach c.home) rfl rfl hresp
  rw [← hserve] at hbecomes
  obtain ⟨hcoach, hregion⟩ := Dev.countCurrent_served (home := c.home) hbecomes.coach rfl
  have hexec := runKey_at (rd := rd) usetokCore hk
  rw [usetokCore_pending ((congrArg KeyState.tokenKey (s.dev.searched_keys c c.home)).trans ht) harea htag hh hp haddr, hm] at hexec
  refine ⟨_, _, hexec, hcoach, rfl, rfl, rfl, hregion.trans ?_⟩
  obtain ⟨-, -, hcurrent⟩ := Dev.searched_tokens (d := s.dev) (c := c) c.home c.home
  rw [Dev.region, hbecomes.store]
  exact congrArg bump hcurrent

/-- TOKEN of a key that is found. -/
theorem exec_token_found {s : State} {ctx : CtxId} {i : Nat} {c : Coach} {rd : ReadEnv} {e : Dev} {h : Hit}
    {resp : List RespField} (hk : s.dev.Keyed ctx i c 0x30) (he : e = s.dev.searched c c.home)
    (hh : (e.look c.home c.run.nsReg c.run.keyReg false rd.headers).hit = some h)
    (hresp : appendField c.run.resp (.bytes (e.tokenFor c.run.nsReg (h.addrs.headD 0) (e.spanAt (h.addrs.headD 0))
      h.version)) = some resp) :
    ∃ d' c', exec (.token ctx rd) s = .next { s with dev := d' } ∧ d'.coach? i = some c' ∧ c'.run.resp = resp ∧
      c'.run.status = stOk ∧ c'.run.g = c.run.g.set c.current.d (BitVec.ofNat 64 h.version) ∧
      (d'.region c.home).tokIssued = bump (s.dev.region c.home).tokIssued ∧ d'.nv = s.dev.nv := by
  subst he
  have hexec := runKey_at (rd := rd) tokenCore hk
  have hc := (Dev.becomes_onRun (fun r => { r with resp := resp }) (hk.searched_coach c.home)).coach
  rw [tokenCore_found (hk.searched_coach c.home) hh hresp] at hexec
  obtain ⟨hissued, -, -⟩ := Dev.searched_tokens (d := s.dev) (c := c) c.home c.home
  refine ⟨_, _, hexec, Dev.coach?_endWith _ _ (d := Dev.countIssued _ _) hc, rfl, rfl, rfl, ?_, ?_⟩
  · exact (Dev.countIssued_endWith_region _ _).trans (congrArg bump hissued)
  · exact (Dev.countIssued_endWith_nv _ _).trans (s.dev.searched_nv c c.home)

/-- Settles O23, by what the cores of VERIFY, TOKEN and USETOK leave on the device searched. -/
theorem tokensAndVerification : Obligations.TokensAndVerification := by
  refine ⟨?_, fun s ctx i c rd e h resp hk he hh hresp => exec_token_found hk he hh hresp, ?_⟩
  · rintro s ctx i c rd _ h r hk rfl hh hopen hr hok
    exact ⟨_, _, runKey_at verifyCore hk, verifyCore_read (hk.searched_coach c.home) hh hopen hr hok, rfl, rfl, rfl, rfl⟩
  · intro s ctx i c rd e tk hk he ht harea
    exact ⟨exec_usetok_invalid hk ht harea, fun h r a resp htag hh hp haddr hr hm hopen hkeys ha hresp =>
      exec_usetok_pending hk he ht harea htag hh hp haddr hr hm hopen hkeys ha hresp⟩

end Sys2Proof.Machine
end

section
/-!
PROOFS. A write that is done: its coaches, its commit and its key's directory unit.
-/
namespace Sys2Proof.Machine

/-! ## A write that is done leaves the coaches (R140) -/

section
variable {bd : Board} {w : WriteAsk} {d d' : Dev} {addrs : List (Nat × Nat)}

/-- What each segment that is written keeps, a write that is done keeps. -/
theorem Dev.writeRecords_keep {β : Type} (g : Dev → β)
    (hg : ∀ n i seg d a d', Dev.writeSegment bd w n i seg d = .done a d' → g d' = g d)
    (h : d.writeRecords bd w = .done addrs d') : g d' = g d := by
  unfold Dev.writeRecords at h
  split at h
  · cases h
  revert h
  simp only []
  generalize List.range (segmentsOf w.value).length = l
  suffices hfold : ∀ acc : Wrote, List.foldl _ acc l = .done addrs d' → ∃ as e, acc = .done as e ∧ g d' = g e by
    intro h
    obtain ⟨as, e, heq, hge⟩ := hfold _ h
    cases heq
    exact hge
  induction l with
  | nil => exact fun acc h => ⟨_, _, h, rfl⟩
  | cons i l ih =>
    intro acc h
    obtain ⟨as, e, heq, hge⟩ := ih _ h
    cases acc with
    | waits p => cases heq
    | fails st e => cases heq
    | done as' e' =>
      simp only [] at heq
      split at heq
      · next q =>
        cases heq
        exact ⟨_, _, rfl, hge.trans (hg _ _ _ _ _ _ q)⟩
      · cases heq
      · cases heq

theorem Dev.markSeven_eng (a cls : Nat) (d : Dev) : (d.markSeven a cls).eng = d.eng :=
  Dev.eng_of_mask (Dev.markSeven_mask (T := { store := true }) rfl a cls d) rfl

theorem Dev.place_eng (f : Nat) (x : Record) (b : Bool) (d : Dev) : (d.place f x b).2.eng = d.eng :=
  Dev.eng_of_mask (Dev.place_mask (T := { evt := true, life := true, store := true, nv := true }) rfl rfl rfl rfl f x b d) rfl

theorem Dev.nextCounter_eng {r slot n : Nat} (h : d.nextCounter r slot = .value n d') : d'.eng = d.eng := by
  have hall := Dev.nextCounter_all (T := { keys := true, store := true, nv := true, evt := true, life := true })
    rfl rfl rfl rfl rfl r slot d
  rw [h] at hall
  exact Dev.eng_of_mask hall rfl

theorem Dev.writeSegment_coaches (n i : Nat) (seg : Bytes) (d : Dev) :
    (d.writeSegment bd w n i seg).all fun e => e.eng.coaches = d.eng.coaches := by
  unfold Dev.writeSegment
  extract_lets ns r isNew f span base put
  have hput : ∀ (x : Record) (e : Dev) (k m : Nat), e.eng = d.eng →
      (put x (e.countLane r k m)).all fun e => e.eng.coaches = d.eng.coaches := fun x e k m he => by
    have hplaced : ((e.countLane r k m).place f x w.member.isSome).2.eng.coaches = d.eng.coaches :=
      (congrArg (·.coaches) (Dev.place_eng f x w.member.isSome (e.countLane r k m))).trans (congrArg (·.coaches) he)
    exact (congrArg (·.coaches) (Dev.markSeven_eng _ w.cls _)).trans hplaced
  split
  · trivial
  split
  · trivial
  split
  · exact hput base d _ _ rfl
  split
  · trivial
  · next q =>
    have hall := Dev.nextCounter_all (T := { keys := true, store := true, nv := true, evt := true, life := true })
      rfl rfl rfl rfl rfl w.home ns.keySlot d
    rw [q] at hall
    exact congrArg (·.coaches) (Dev.eng_of_mask hall rfl)
  · next q => exact hput _ _ _ _ (Dev.nextCounter_eng q)

theorem Dev.writeRecords_coach? (h : d.writeRecords bd w = .done addrs d') (i : Nat) : d'.coach? i = d.coach? i :=
  congrArg (Tab.get? · i) (Dev.writeRecords_keep (·.eng.coaches) (fun n i seg d a d' h => by
    have hall := Dev.writeSegment_coaches (bd := bd) (w := w) n i seg d
    rw [h] at hall
    exact hall) h)

theorem Dev.writeRecords_net (h : d.writeRecords bd w = .done addrs d') : d'.net = d.net := by
  have hall := Dev.writeRecords_all (T := { keys := true, store := true, nv := true, evt := true, life := true, eng := true })
    rfl rfl rfl rfl rfl rfl bd w d
  rw [h] at hall
  exact Dev.net_of_mask hall rfl

theorem Dev.writeTombstone_coach? {ns : W16} {key : Bytes} {home version cls : Nat} {m : Option Nat}
    (h : d.writeTombstone bd ns key home version cls m = .done addrs d') (i : Nat) : d'.coach? i = d.coach? i := by
  have hall := Dev.writeTombstone_all (T := { evt := true, life := true, store := true, nv := true })
    rfl rfl rfl rfl bd ns key home version cls m d
  rw [h] at hall
  exact congrArg (fun e => Tab.get? (Engines.coaches e) i) (Dev.eng_of_mask hall rfl)

end

/-! ## The commit of one key names it in its directory unit (R127, R130) -/

section
variable (d : Dev)

theorem Dev.noteOld_dir (home : Nat) (ns : W16) (f : Nat) (l : Lookup) (staged : Bool) :
    (d.noteOld home ns f l staged).store.dir = d.store.dir := by
  unfold Dev.noteOld
  split
  · rfl
  · next h => exact congrArg Store.dir (by simp only [Dev.report_store])
  · unfold Dev.when
    split <;> rfl

theorem Dev.noteOld_eng (home : Nat) (ns : W16) (f : Nat) (l : Lookup) (staged : Bool) :
    (d.noteOld home ns f l staged).eng = d.eng :=
  Dev.eng_of_mask (Dev.noteOld_mask (T := { evt := true, life := true, store := true }) rfl rfl rfl home ns f l staged d) rfl

theorem Dev.dropRecords_dir (ns : W16) (key : Bytes) (home : Nat) (h : Hit) (keep : Nat) :
    (d.dropRecords ns key home h keep).store.dir = d.store.dir := by
  unfold Dev.dropRecords
  refine (Dev.each_keep (·.store.dir) _ _ (fun x e => ?_) _).trans ((Dev.each_keep (·.store.dir) _ _ ?_ _).trans
    (Dev.each_keep (·.store.dir) _ _ ?_ _))
  · simp only []
    split
    · split <;> rfl
    · rfl
  · exact fun _ _ => rfl
  · exact fun _ _ => rfl

theorem Dev.setUnit_dir (u : Nat) (x : DirUnit) : (d.setUnit u x).store.dir.get? u = some x :=
  Tab.get?_set_self ..

theorem Dev.insertEntry_dir (r : Nat) (e : IndexEntry) : ((d.insertEntry r e).getD d).store.dir = d.store.dir := by
  unfold Dev.insertEntry
  simp only []
  cases (d.region r).newSlot d.geom.overflow (d.chainOf r e.fp) <;> rfl

/-- The unit of a key whose new records are current. -/
theorem Dev.commitValue_unit (w : WriteAsk) (u : Nat) (addrs : List (Nat × Nat)) :
    (d.commitValue w u addrs).store.dir.get? u = some {
      fp := w.fp, key := w.key, ns := w.ns, rec_ := 1, addrs := addrs.map Prod.fst, version := w.version
      seven := d.sevenAt u w.cls } := by
  unfold Dev.commitValue
  extract_lets as d1 olds put d2 d3 d4 d5
  have h1 : d1.store.dir = d.store.dir := by
    simp only [d1]
    split
    · exact d.dropRecords_dir ..
    · rfl
  have h2 : d2.store.dir = d1.store.dir := Dev.each_keep (·.store.dir) _ _ (fun x e => by
    simp only [put]
    split
    · rfl
    · exact e.insertEntry_dir ..) _
  have h3 : d3.store.dir = d2.store.dir := Dev.each_keep (·.store.dir) as Dev.setLive (fun _ _ => rfl) d2
  have h5 : d5.sevenAt u w.cls = d.sevenAt u w.cls := by
    rw [Dev.sevenAt, Dev.sevenAt, show d5.store.dir = d.store.dir from h3.trans (h2.trans h1)]
  rw [Dev.setUnit_dir, h5]

/-- The unit of a key whose tombstone is its newest record. -/
theorem Dev.commitDelete_unit (ns : W16) (key : Bytes) (home f : Nat) (h : Hit) (u a version cls : Nat) :
    (d.commitDelete ns key home f h u a version cls).store.dir.get? u = some {
      fp := f, key := key, ns := ns, rec_ := 3, addrs := [a], version := version, seven := d.sevenAt u cls } := by
  unfold Dev.commitDelete
  extract_lets d1 d2 d3 d4
  have h1 : d1.store.dir = d.store.dir := d.dropRecords_dir ..
  have h2 : d2.store.dir = d1.store.dir := by
    simp only [d2]
    split <;> rfl
  have h4 : d4.sevenAt u cls = d.sevenAt u cls := by
    rw [Dev.sevenAt, Dev.sevenAt, show d4.store.dir = d.store.dir from h2.trans h1]
  rw [Dev.setUnit_dir, h4]

theorem Dev.commitValue_eng (w : WriteAsk) (u : Nat) (addrs : List (Nat × Nat)) : (d.commitValue w u addrs).eng = d.eng :=
  Dev.eng_of_mask (Dev.commitValue_mask (T := { store := true }) rfl w u addrs d) rfl

theorem Dev.commitDelete_eng (ns : W16) (key : Bytes) (home f : Nat) (h : Hit) (u a version cls : Nat) :
    (d.commitDelete ns key home f h u a version cls).eng = d.eng :=
  Dev.eng_of_mask (Dev.commitDelete_mask (T := { store := true }) rfl ns key home f h u a version cls d) rfl

theorem Dev.commitValue_net (w : WriteAsk) (u : Nat) (addrs : List (Nat × Nat)) : (d.commitValue w u addrs).net = d.net :=
  Dev.net_of_mask (Dev.commitValue_mask (T := { store := true }) rfl w u addrs d) rfl

theorem Dev.noteOld_net (home : Nat) (ns : W16) (f : Nat) (l : Lookup) (staged : Bool) :
    (d.noteOld home ns f l staged).net = d.net :=
  Dev.net_of_mask (Dev.noteOld_mask (T := { evt := true, life := true, store := true }) rfl rfl rfl home ns f l staged d) rfl

theorem Dev.sevenAt_noteOld (home : Nat) (ns : W16) (f : Nat) (l : Lookup) (staged : Bool) (u cls : Nat) :
    (d.noteOld home ns f l staged).sevenAt u cls = d.sevenAt u cls := by
  rw [Dev.sevenAt, Dev.noteOld_dir]; rfl

end

/-! ## Updates of a coach with no set open (R46, R51, R94 to R97) -/

section
variable {d d2 : Dev} {bd : Board} {i home f u : Nat} {c : Coach} {w : Fields} {l : Lookup} {v : Bytes}
  {imported : Option (Nat × Nat × Bytes)} {addrs : List (Nat × Nat)}

/-- The ending of an update that appends no token. -/
theorem Dev.updated_coach? (home gd : Nat) (found pending : Bool) (hc : d.coach? i = some c) :
    (d.updated i home w gd none found pending).coach? i = some { c with
      wait := .none
      run := (((c.run.setReg w.d (BitVec.ofNat 64 gd)).setStatus stOk).looked found pending).retire } :=
  ((Dev.becomes_onCoach (fun c => { c with wait := .none, run :=
    ((c.run.setReg w.d (BitVec.ofNat 64 gd)).setStatus stOk).looked found pending }) hc).onCoach
      fun c => { c with run := c.run.retire }).coach

theorem Coach.stagedFor_unset (ns : W16) (key : Bytes) (hs : c.set = none) : c.stagedFor ns key = none := by
  rw [Coach.stagedFor, hs]; rfl

/-- The coach after an update of the version `n` has committed the records at `as`. -/
def Coach.committedAt (c : Coach) (w : Fields) (n : Nat) (found pending : Bool) (as : List Nat) (ns : W16) : Coach :=
  let r := (((c.run.setReg w.d (BitVec.ofNat 64 n)).setStatus stOk).looked found pending).retire
  let r := { r with flags := { r.flags with committed := true } }
  { c with wait := .none, run := r, saved := some r, awaits := c.awaits ++ as, wrote := ([ns] ++ c.wrote).eraseDups }

theorem Dev.updated_commitPoint_coach? (home n : Nat) (found pending : Bool) (as : List Nat) (ns : W16)
    (hc : d.coach? i = some c) : ((d.updated i home w n none found pending).commitPoint i as [ns]).coach? i =
      some (c.committedAt w n found pending as ns) := by
  rw [Dev.commitPoint, Dev.coach?_onCoach, Dev.updated_coach? home n found pending hc]
  rfl

theorem Dev.updated_commitPoint_store (home n : Nat) (found pending : Bool) (as : List Nat) (ns : W16) :
    ((d.updated i home w n none found pending).commitPoint i as [ns]).store = d.store := rfl

theorem Dev.updated_commitPoint_net (home n : Nat) (found pending : Bool) (as : List Nat) (ns : W16) :
    ((d.updated i home w n none found pending).commitPoint i as [ns]).net = d.net := rfl

/-- A write outside a set that is done: the records are current and the coach is at its commit point. -/
theorem Dev.putValue_done (hs : c.set = none) (hn : c.run.flags.committed = false)
    (hu : d.unitFor home c.clsNow c.run.nsReg c.run.keyReg = some u)
    (hw : d.writeRecords bd (d.askFor home f c l { value := v, imported := imported }) = .done addrs d2) :
    ∃ found pending, d.putValue bd i home f c w l { value := v, imported := imported } =
      ((((d2.noteOld home c.run.nsReg f l false).commitValue (d.askFor home f c l { value := v, imported := imported }) u
        addrs).updated i home w (d.askFor home f c l { value := v, imported := imported }).version none found
          pending).commitPoint i (addrs.map Prod.fst) [c.run.nsReg]) := by
  unfold Dev.putValue
  simp only [hu, hw, hs, hn, Option.isNone_none, Option.isSome_none, Bool.and_false, Bool.false_eq_true, if_false,
    Bool.not_true, Bool.or_false]
  exact ⟨_, _, rfl⟩

/-- What such a write leaves: its coach at the commit point, its key's directory unit. -/
theorem Dev.putValue_committed (hc : d.coach? i = some c) (hs : c.set = none) (hn : c.run.flags.committed = false)
    (hu : d.unitFor home c.clsNow c.run.nsReg c.run.keyReg = some u)
    (hw : d.writeRecords bd (d.askFor home f c l { value := v, imported := imported }) = .done addrs d2) :
    ∃ found pending d', d.putValue bd i home f c w l { value := v, imported := imported } = d' ∧
      d'.coach? i = some (c.committedAt w (d.askFor home f c l { value := v, imported := imported }).version found pending
        (addrs.map Prod.fst) c.run.nsReg) ∧
      d'.store.dir.get? u = some {
        fp := f, key := c.run.keyReg, ns := c.run.nsReg, rec_ := 1, addrs := addrs.map Prod.fst
        version := (d.askFor home f c l { value := v, imported := imported }).version, seven := d2.sevenAt u c.clsNow } ∧
      d'.net = d2.net := by
  obtain ⟨found, pending, heq⟩ := Dev.putValue_done (i := i) (w := w) hs hn hu hw
  refine ⟨found, pending, _, heq, ?_, ?_, ?_⟩
  · apply Dev.updated_commitPoint_coach?
    rw [Dev.coach?, Dev.commitValue_eng, Dev.noteOld_eng]
    exact (Dev.writeRecords_coach? hw i).trans hc
  · rw [Dev.updated_commitPoint_store, Dev.commitValue_unit, Dev.sevenAt_noteOld]
    rfl
  · rw [Dev.updated_commitPoint_net, Dev.commitValue_net, Dev.noteOld_net]

end

end Sys2Proof.Machine
end

section
/-!
PROOFS. PUT, APPEND and CAS (O24).
-/
namespace Sys2Proof.Machine

/-! ## Waits, stages and the checks of an update (R59, R89, R94, R95, R119, R130) -/

section
variable {d d2 : Dev} {bd : Board} {rd : ReadEnv} {answered : Bool} {i home f fp u : Nat} {c : Coach} {w : Fields} {l : Lookup}
  {v : Bytes}

/-- The next version of a key that its coach has not staged. -/
theorem Dev.askFor_version (hs : c.set = none) : (d.askFor home f c l { value := v }).version =
    match l.hit with
    | some h => h.version + 1
    | none => match l.blocked with
      | some (_, x, _) => x.version + 1
      | none => (d.region home).versions.get 0 c.run.nsReg.toNat + 1 := by
  simp only [Dev.askFor, Dev.nextVersion, Coach.stagedFor_unset _ _ hs, Lookup.old]
  cases l.hit with
  | some h => rfl
  | none => cases l.blocked <;> rfl

/-- A write outside a set that waits behind credits holds its key's directory unit. -/
theorem Dev.putValue_waits {a : ValueAsk} (hs : c.set = none)
    (hu : d.unitFor home c.clsNow c.run.nsReg c.run.keyReg = some u)
    (hw : d.writeRecords bd (d.askFor home f c l a) = .waits none) :
    ∃ x, (d.putValue bd i home f c w l a).store.dir.get? u = some x ∧ x.holder = some i ∧ x.hold = 1 ∧ x.stamp = c.stamp ∧
      (d.putValue bd i home f c w l a).eng = d.eng := by
  have heng := fun x => Dev.eng_of_mask (Dev.setUnit_mask (T := { store := true }) rfl u x d) rfl
  have hput : d.putValue bd i home f c w l a = d.holdKey i u f c.run.nsReg c.run.keyReg c := by
    unfold Dev.putValue
    simp only [hu, hw, Dev.padWaiting]
  rw [hput, Dev.holdKey, hs]
  exact ⟨_, Dev.setUnit_dir .., rfl, rfl, rfl, heng _⟩

theorem Dev.discardRecord_eng (a : Nat) : (d.discardRecord a).eng = d.eng := rfl

/-- An update that is staged joins its coach's set. -/
theorem Dev.stage_coach? {y : Updated} {ns : W16} {key : Bytes} {set : AtomicSet} (hc : d.coach? i = some c)
    (hs : c.set = some set) : ∃ x set', (d.stage i ns key f home y).coach? i = some { c with set := some set' } ∧
      set'.staged = set.staged ++ [x] ∧ set'.locks = set.locks ∧ x.key = key ∧ x.ns = ns ∧ x.addr = (y.addrs.headD (0, 0)).1 ∧
      x.kind = y.kind ∧ x.version = y.version := by
  unfold Dev.stage
  extract_lets a x d1 id d2
  have h1 : d1.coach? i = some c := by
    simp only [d1]
    split
    · exact hc
    · exact hc
  refine ⟨x, { set with staged := set.staged ++ [x], setId := if set.staged.isEmpty then id else set.setId }, ?_,
    rfl, rfl, rfl, rfl, rfl, rfl, rfl⟩
  rw [Dev.coach?_onCoach, show d2.coach? i = some c from h1]
  rw [Option.map_some, hs]
  rfl

/-- A write within a set that is done: its record is staged, and nothing is committed. -/
theorem Dev.putValue_staged {set : AtomicSet} {a span : Nat} (hc : d.coach? i = some c) (hs : c.set = some set)
    (hu : d.unitFor home c.clsNow c.run.nsReg c.run.keyReg = some u)
    (hw : d.writeRecords bd (d.askFor home f c l { value := v }) = .done [(a, span)] d2) :
    ∃ c' x, (d.putValue bd i home f c w l { value := v }).coach? i = some c' ∧ c'.run.status = stOk ∧
      c'.set.map (·.staged) = some (set.staged ++ [x]) ∧ c'.set.map (·.locks) = some set.locks ∧ x.key = c.run.keyReg ∧
      x.ns = c.run.nsReg ∧ x.addr = a ∧ x.kind = .value ∧
      c'.run.g = c.run.g.set w.d (BitVec.ofNat 64 x.version) ∧
      c'.run.flags.committed = c.run.flags.committed ∧ c'.saved = c.saved := by
  have hc2 : (d2.noteOld home c.run.nsReg f l true).coach? i = some c := by
    rw [Dev.coach?, Dev.noteOld_eng]
    exact (Dev.writeRecords_coach? hw i).trans hc
  unfold Dev.putValue
  simp only [hu, hw, hs, Option.isNone_some, Option.isSome_some, Bool.false_and, Bool.false_eq_true, if_false, if_true,
    Bool.not_true, Bool.or_false]
  generalize (d.askFor home f c l { value := v }).version = n
  generalize (d.askFor home f c l { value := v }).old.isSome = ex
  obtain ⟨x, set', hstage, hstaged, hlocks, hkey, hns, haddr, hkind, hversion⟩ := Dev.stage_coach? (f := f) (home := home)
    (ns := c.run.nsReg) (key := c.run.keyReg)
    (y := { addrs := [(a, span)], version := n, kind := .value, existed := ex, collided := l.collided }) hc2 hs
  refine ⟨_, x, Dev.updated_coach? home n _ _ hstage, rfl, congrArg some hstaged, congrArg some hlocks, hkey, hns, haddr, hkind,
    ?_, rfl, rfl⟩
  rw [hversion]
  rfl

/-- Check 5 of R89 passes, and no other set holds the key: the update goes on. -/
theorem updating_run {g : Nat → Nat → KeyEffect} (hl : c.set.isSome = true → c.locked c.run.nsReg c.run.keyReg = true)
    (hh : d.heldByOther i home c.run.nsReg c.run.keyReg = none) :
    updating g home fp bd rd answered i c w d = g home fp bd rd answered i c w d := by
  have hcheck : (c.set.isSome && !c.locked c.run.nsReg c.run.keyReg) = false := by
    cases hs : c.set.isSome with
    | false => rfl
    | true => rw [hl hs]; rfl
  unfold updating
  simp only [hcheck, hh, Bool.false_eq_true, if_false]

/-- PUT without a token writes its range. -/
theorem putCore_writes (hm : w.m = 0) (ha : inArea c.inbound (c.run.num w.a) (c.run.num w.b) = true)
    (hl : c.set.isSome = true → c.locked c.run.nsReg c.run.keyReg = true)
    (hh : d.heldByOther i home c.run.nsReg c.run.keyReg = none) :
    putCore home f bd rd answered i c w d = d.putValue bd i home f c w (d.look home c.run.nsReg c.run.keyReg true rd.headers)
      { value := slice c.inbound (c.run.num w.a) (c.run.num w.b) } := by
  unfold putCore
  simp only [ha, Bool.not_true, Bool.false_eq_true, if_false, updating_run hl hh, hm]
  rfl

/-- APPEND without a token writes the old value and its range. -/
theorem appendCore_writes {old : Bytes} (hm : w.m = 0) (ha : inArea c.inbound (c.run.num w.a) (c.run.num w.b) = true)
    (hl : c.set.isSome = true → c.locked c.run.nsReg c.run.keyReg = true)
    (hh : d.heldByOther i home c.run.nsReg c.run.keyReg = none)
    (hold : d.oldValue c (d.look home c.run.nsReg c.run.keyReg true rd.headers) rd.bodies = .ok old) :
    appendCore home f bd rd answered i c w d = d.putValue bd i home f c w (d.look home c.run.nsReg c.run.keyReg true rd.headers)
      { value := old ++ slice c.inbound (c.run.num w.a) (c.run.num w.b) } := by
  unfold appendCore
  simp only [ha, Bool.not_true, Bool.false_eq_true, if_false, updating_run hl hh, hm, hold]
  rfl

/-- CAS on the version of a key that is found: it writes its range where the version is the one asked for, and fails with
`VERSION_MISMATCH` where it is not. -/
theorem casCore_compares {h : Hit} (hm : w.m = 0) (ha : inArea c.inbound (c.run.num w.b) (c.run.num (w.b + 1)) = true)
    (hl : c.set.isSome = true → c.locked c.run.nsReg c.run.keyReg = true)
    (hh : d.heldByOther i home c.run.nsReg c.run.keyReg = none)
    (hhit : (d.look home c.run.nsReg c.run.keyReg true rd.headers).hit = some h) :
    casCore home f bd rd answered i c w d =
      if h.version = c.run.num w.a then
        d.putValue bd i home f c w (d.look home c.run.nsReg c.run.keyReg true rd.headers)
          { value := slice c.inbound (c.run.num w.b) (c.run.num (w.b + 1)) }
      else d.endWith i stVersionMismatch fun r =>
        (r.setReg w.d (BitVec.ofNat 64 h.version)).looked true h.pending := by
  unfold casCore
  simp only [hm, ha, updating_run hl hh, Dev.compares, Lookup.old, hhit]
  by_cases hv : h.version = c.run.num w.a
  · simp [hv]
  · have hne : (h.version == c.run.num w.a) = false := beq_eq_false_iff_ne.mpr hv
    simp [hv, hne]

end


/-! ## The rows of the updates -/

section
variable {s : State} {ctx : CtxId} {i op u : Nat} {c : Coach} {rd : ReadEnv} {con : CtxId → ReadEnv → Instr} {v : Bytes}
  {e : Dev} {l : Lookup} {w : WriteAsk}

/-- An update outside a set writes its value: PUT, APPEND, or a CAS that holds. -/
theorem exec_update (he : e = s.dev.searched c c.home) (hl : l = e.look c.home c.run.nsReg c.run.keyReg true rd.headers)
    (hcon : (con, op) = (.put, 0x25) ∧ c.current.m = 0 ∧
        inArea c.inbound (c.run.num c.current.a) (c.run.num c.current.b) = true ∧
        v = slice c.inbound (c.run.num c.current.a) (c.run.num c.current.b) ∨
      (con, op) = (.append, 0x26) ∧ c.current.m = 0 ∧
        inArea c.inbound (c.run.num c.current.a) (c.run.num c.current.b) = true ∧
        (∃ old, e.oldValue c l rd.bodies = .ok old ∧
          v = old ++ slice c.inbound (c.run.num c.current.a) (c.run.num c.current.b)) ∨
      (con, op) = (.cas, 0x28) ∧ c.current.m = 0 ∧
        inArea c.inbound (c.run.num c.current.b) (c.run.num (c.current.b + 1)) = true ∧
        (∃ h, l.hit = some h ∧ h.version = c.run.num c.current.a) ∧
        v = slice c.inbound (c.run.num c.current.b) (c.run.num (c.current.b + 1)))
    (hk : s.dev.Keyed ctx i c op) (hh : e.heldByOther i c.home c.run.nsReg c.run.keyReg = none) (hs : c.set = none) :
    exec (con ctx rd) s = .next { s with
      dev := e.putValue s.board i c.home (s.dev.fpFor c) c c.current l { value := v } } := by
  have hset : c.set.isSome = true → c.locked c.run.nsReg c.run.keyReg = true := fun h => by rw [hs] at h; cases h
  subst he hl
  rcases hcon with ⟨hop, hm, ha, rfl⟩ | ⟨hop, hm, ha, old, hold, rfl⟩ | ⟨hop, hm, ha, ⟨h, hhit, hv⟩, rfl⟩ <;> cases hop
  · exact (runKey_at putCore hk).trans (congrArg (fun d => Host.Outcome.next { s with dev := d }) (putCore_writes hm ha hset hh))
  · exact (runKey_at appendCore hk).trans
      (congrArg (fun d => Host.Outcome.next { s with dev := d }) (appendCore_writes hm ha hset hh hold))
  · exact (runKey_at casCore hk).trans
      (congrArg (fun d => Host.Outcome.next { s with dev := d }) ((casCore_compares hm ha hset hh hhit).trans (if_pos hv)))

end

theorem List.mem_eraseDups_head {α : Type} [BEq α] [LawfulBEq α] (a : α) (l : List α) : a ∈ ([a] ++ l).eraseDups :=
  List.mem_eraseDups.mpr (List.mem_cons_self ..)

/-- Settles O24, by what a write leaves of its coach and of its key's directory unit where it commits, waits or is staged. -/
theorem updatesCommitOrStage : Obligations.UpdatesCommitOrStage := by
  refine ⟨?_, ?_, ?_⟩
  · intro s ctx i c rd con op u v e l w he hl hcon hk hh hs hn hu hw
    have hexec := exec_update he hl hcon hk hh hs
    have hc : e.coach? i = some c := he ▸ hk.searched_coach c.home
    refine ⟨fun addrs d2 hdone => ?_, fun hwaits => ?_⟩
    · obtain ⟨found, pending, d', hput, hcoach, hunit, -⟩ :=
        Dev.putValue_committed (w := c.current) hc hs hn hu (hw ▸ hdone)
      rw [hput] at hexec
      have hversions : (e.region c.home).versions = (s.dev.region c.home).versions := by
        rw [he, s.dev.searched_region c c.home]
      have hversion := Dev.askFor_version (d := e) (home := c.home) (f := s.dev.fpFor c) (l := l) (v := v) hs
      rw [hversions] at hversion
      rw [hversion] at hcoach hunit
      exact ⟨d', _, _, hexec, hcoach, rfl, rfl, rfl, rfl, rfl, rfl, List.mem_eraseDups_head _ _, hunit⟩
    · obtain ⟨x, hunit, hholder, hhold, hstamp, heng⟩ :=
        Dev.putValue_waits (i := i) (w := c.current) (a := { value := v }) hs hu (hw ▸ hwaits)
      exact ⟨_, x, hexec, (congrArg (fun e => Tab.get? (Engines.coaches e) i) heng).trans hc, hunit, hholder, hhold, hstamp⟩
  · intro s ctx i c rd set u a span d2 e w hk he hm hs hlock ha hh hu hw hdone
    have hset : c.set.isSome = true → c.locked c.run.nsReg c.run.keyReg = true := fun _ => by
      rw [Coach.locked, hs]; exact hlock
    have hc : e.coach? i = some c := he ▸ hk.searched_coach c.home
    obtain ⟨c', x, hrest⟩ := Dev.putValue_staged (w := c.current) hc hs hu (hw ▸ hdone)
    have hexec := runKey_at (rd := rd) putCore hk
    rw [← he, putCore_writes hm ha hset hh] at hexec
    exact ⟨_, c', x, hexec, hrest⟩
  · intro s ctx i c rd h e hk he hm ha hs hh hhit hv
    have hset : c.set.isSome = true → c.locked c.run.nsReg c.run.keyReg = true := fun h => by rw [hs] at h; cases h
    have hc : e.coach? i = some c := he ▸ hk.searched_coach c.home
    have hbecomes := Dev.becomes_endWith stVersionMismatch
      (fun r => (r.setReg c.current.d (BitVec.ofNat 64 h.version)).looked true h.pending) hc
    rw [← hk.free] at hbecomes
    have hexec := runKey_at (rd := rd) casCore hk
    rw [← he, casCore_compares hm ha hset hh hhit, if_neg hv] at hexec
    exact ⟨_, hexec, hbecomes⟩

end Sys2Proof.Machine
end

section
/-!
PROOFS. DEL (O25).
-/
namespace Sys2Proof.Machine

/-! ## DEL (R47, R97) -/

section
variable {d d2 : Dev} {bd : Board} {rd : ReadEnv} {answered : Bool} {i home f u a : Nat} {c : Coach} {w : Fields} {l : Lookup}
  {h : Hit} {pending : Bool}

/-- A delete outside a set that is done leaves its coach at the commit point and a tombstone in the key's directory unit. -/
theorem Dev.deleteKey_committed (hc : d.coach? i = some c) (hs : c.set = none) (hn : c.run.flags.committed = false)
    (hu : d.unitFor home c.clsNow c.run.nsReg c.run.keyReg = some u)
    (hw : d.writeTombstone bd c.run.nsReg c.run.keyReg home (h.version + 1) c.clsNow none = .done [(a, 1)] d2) :
    (d.deleteKey bd i home f c w l h pending).coach? i = some (c.committedAt w h.version true pending [a] c.run.nsReg) ∧
    (d.deleteKey bd i home f c w l h pending).store.dir.get? u = some {
      fp := f, key := c.run.keyReg, ns := c.run.nsReg, rec_ := 3, addrs := [a], version := h.version + 1
      seven := d2.sevenAt u c.clsNow } := by
  have hm : c.memberId = none := by rw [Coach.memberId, hs]; rfl
  have heq : d.deleteKey bd i home f c w l h pending =
      ((((d2.noteOld home c.run.nsReg f l false).commitDelete c.run.nsReg c.run.keyReg home f h u a (h.version + 1)
        c.clsNow).updated i home w h.version none true pending).commitPoint i [a] [c.run.nsReg]) := by
    unfold Dev.deleteKey
    simp only [Coach.stagedFor_unset _ _ hs, hm, hu, hw, hs, hn, Option.isNone_none, Option.isSome_none, Bool.and_false,
      Bool.false_eq_true, if_false]
    rfl
  rw [heq]
  constructor
  · apply Dev.updated_commitPoint_coach?
    rw [Dev.coach?, Dev.commitDelete_eng, Dev.noteOld_eng]
    exact (Dev.writeTombstone_coach? hw i).trans hc
  · rw [Dev.updated_commitPoint_store, Dev.commitDelete_unit, Dev.sevenAt_noteOld]

/-- DEL outside a set in a region that may be written: it deletes the key, or finds none. -/
theorem delCore_runs (hs : c.set = none) (hh : d.heldByOther i home c.run.nsReg c.run.keyReg = none)
    (hw : d.writable home = none) :
    (∀ h, (d.look home c.run.nsReg c.run.keyReg true rd.headers).hit = some h →
      delCore home f bd rd answered i c w d =
        d.deleteKey bd i home f c w (d.look home c.run.nsReg c.run.keyReg true rd.headers) h h.pending) ∧
    ((d.look home c.run.nsReg c.run.keyReg true rd.headers).hit = none →
      (d.look home c.run.nsReg c.run.keyReg true rd.headers).blocked = none →
      delCore home f bd rd answered i c w d = d.endWith i stNotFound fun r => (r.setReg w.d 0).looked false false) := by
  have hset : c.set.isSome = true → c.locked c.run.nsReg c.run.keyReg = true := fun h => by rw [hs] at h; cases h
  refine ⟨fun h hhit => ?_, fun hhit hb => ?_⟩ <;>
    simp only [delCore, updating_run hset hh, hw, Dev.present, Coach.stagedFor_unset _ _ hs, Lookup.old, hhit,
      Option.isSome_none, Bool.false_or]
  simp only [hb]

end

/-- Settles O25, by what a tombstone that is written leaves of its coach and of its key's directory unit. -/
theorem deleteLeavesATombstone : Obligations.DeleteLeavesATombstone := by
  refine ⟨?_, ?_⟩
  · intro s ctx i c rd h u a d2 e hk he hh hs hn hw hhit hu hdone
    have hc : e.coach? i = some c := he ▸ hk.searched_coach c.home
    have hexec := runKey_at (rd := rd) delCore hk
    rw [← he, (delCore_runs hs hh hw).1 h hhit] at hexec
    obtain ⟨hcoach, hunit⟩ := Dev.deleteKey_committed (f := s.dev.fpFor c) (w := c.current) (pending := h.pending)
      (l := e.look c.home c.run.nsReg c.run.keyReg true rd.headers) hc hs hn hu hdone
    exact ⟨_, _, hexec, hcoach, rfl, rfl, rfl, rfl, hunit⟩
  · intro s ctx i c rd e hk he hh hs hw hhit hb
    have hc : e.coach? i = some c := he ▸ hk.searched_coach c.home
    have hexec := runKey_at (rd := rd) delCore hk
    rw [← he, (delCore_runs hs hh hw).2 hhit hb] at hexec
    have hbecomes := Dev.becomes_endWith stNotFound (fun r => (r.setReg c.current.d 0).looked false false) hc
    rw [← hk.free] at hbecomes
    exact ⟨_, hexec, hbecomes⟩

end Sys2Proof.Machine
end

section
/-!
PROOFS. ITER, EXPORT, IMPORT and the answer of a sub-request (O27).
-/
namespace Sys2Proof.Machine

/-! ## ITER (R100, R142) -/

/-- A list entry has 256 bytes. -/
def listed256 (l : List Bytes) : Prop := ∀ x ∈ l, x.length = 256

theorem Dev.iterEntry_length (d : Dev) (e : IndexEntry) (left : List ReadBack) : (d.iterEntry e left).1.length = 256 := by
  unfold Dev.iterEntry
  split <;> exact padTo_length ..

/-- An entry joins a walk. -/
def Dev.iterStep (d : Dev) (w : Walk) (p : Nat × IndexEntry) : Walk :=
  let (bs, st, left) := d.iterEntry p.2 w.left
  { w with entries := w.entries ++ [bs], st := if w.st = stOk then st else w.st, left := left }

theorem Dev.iterStep_fold (d : Dev) (es : List (Nat × IndexEntry)) (w : Walk) (h : listed256 w.entries) :
    (es.foldl d.iterStep w).entries.length = w.entries.length + es.length ∧ listed256 (es.foldl d.iterStep w).entries := by
  induction es generalizing w with
  | nil => exact ⟨rfl, h⟩
  | cons e es ih =>
    have hstep : (d.iterStep w e).entries = w.entries ++ [(d.iterEntry e.2 w.left).1] := rfl
    have hlisted : listed256 (d.iterStep w e).entries := by
      intro x hx
      rw [hstep, List.mem_append, List.mem_singleton] at hx
      rcases hx with hx | rfl
      · exact h x hx
      · exact d.iterEntry_length ..
    obtain ⟨hlen, hall⟩ := ih _ hlisted
    rw [List.foldl_cons, hlen, hstep]
    exact ⟨by simp only [List.length_append, List.length_cons, List.length_nil]; omega, hall⟩

theorem Dev.iterChains_bounds (d : Dev) (r : Nat) (ns : W16) (max_ : Nat) (l : List (Nat × Nat × Chain)) (w : Walk)
    (hlen : w.entries.length ≤ max_) (h : listed256 w.entries) :
    (d.iterChains r ns max_ l w).entries.length ≤ max_ ∧ listed256 (d.iterChains r ns max_ l w).entries := by
  induction l generalizing w with
  | nil => exact ⟨hlen, h⟩
  | cons e l ih =>
    obtain ⟨b, from_, c⟩ := e
    obtain ⟨hcount, hall⟩ := d.iterStep_fold ((c.listed ns from_).take (max_ - w.entries.length)) w h
    have hle : (((c.listed ns from_).take (max_ - w.entries.length)).foldl d.iterStep w).entries.length ≤ max_ := by
      rw [hcount, List.length_take]; omega
    unfold Dev.iterChains
    extract_lets es room step
    split
    · exact ⟨hle, hall⟩
    · exact ih _ hle hall

theorem Dev.walkFrom_bounds (d : Dev) (ns : W16) (cur max_ : Nat) (left : List ReadBack) :
    (d.walkFrom ns cur max_ left).entries.length ≤ max_ ∧ listed256 (d.walkFrom ns cur max_ left).entries :=
  d.iterChains_bounds _ ns max_ _ { left := left, next := _ } (Nat.zero_le _) nofun

/-- An ITER within a region that is open lists what its walk gathers. -/
theorem iterEffect_walks {d : Dev} {i : Nat} {c : Coach} {w : Fields} {bd : Board} {rd : ReadEnv} {answered : Bool}
    {res : Walk} (hc : d.coach? i = some c) (ha : d.nsActive c.run.nsReg = true) (hcur : c.run.num w.a < cursorEnd)
    (hlo : 1 ≤ w.imm % 128) (hhi : w.imm % 128 ≤ 64) (hb : bits (c.run.num w.a) 5 32 < 2 ^ d.geom.k)
    (hg : d.regionGate (bits (c.run.num w.a) 37 3) = none)
    (hres : res = d.walkFrom c.run.nsReg (c.run.num w.a) (w.imm % 128) rd.headers) :
    d.Becomes (iterEffect bd rd answered i c w d) i { c with
      wait := .none, cursor := some res.next
      run := { c.run.answers res.st with fetch := res.entries.flatten, g := c.run.g.set w.d (BitVec.ofNat 64 res.next) } } := by
  have hne : c.run.num w.a ≠ cursorEnd := Nat.ne_of_lt hcur
  have hlt : ¬2 ^ 40 ≤ c.run.num w.a := by simp only [cursorEnd] at hcur ⊢; omega
  have hmax : ¬(w.imm % 128 = 0 ∨ 64 < w.imm % 128 ∨ 2 ^ d.geom.k ≤ bits (c.run.num w.a) 5 32) := by omega
  have hend := (Dev.becomes_endWith res.st
    (fun x => { x with fetch := res.entries.flatten }.setReg w.d (BitVec.ofNat 64 res.next)) hc).onCoach
      fun c => { c with cursor := some res.next }
  unfold iterEffect
  simp only [ha, hne, hlt, hg, hmax, Bool.not_true, Bool.false_eq_true, if_false, false_and, or_false, ← hres]
  exact hend

/-! ## EXPORT (R101, R312) -/

/-- EXPORT of a record whose keys are held attaches it after its header. -/
theorem exportCore_attached {d : Dev} {i home f : Nat} {c : Coach} {w : Fields} {bd : Board} {rd : ReadEnv} {answered : Bool}
    {h : Hit} {r : Record} {a : Attached} {resp : List RespField} (hc : d.coach? i = some c)
    (hh : (d.look home c.run.nsReg c.run.keyReg true rd.headers).hit = some h)
    (hr : d.recordAt (h.addrs.headD 0) = some r) (hopen : d.segmentClosed h.addrs 0 64 = false)
    (hkeys : d.keysHeld h.addrs = true)
    (ha : a = { ns := c.run.nsReg, fp := f, home := home, addrs := h.addrs, totalLen := r.totalLen
                length := r.totalLen, whole := true, hold := (d.nsFor c c.run.nsReg.toNat).options / 2 % 2 == 1
                fixity := r.fixity, digest := r.digest, header := migrationHeader r h.version, export_ := true })
    (hresp : appendField c.run.resp (.attached a) = some resp) :
    d.Becomes (exportCore home f bd rd answered i c w d) i { c with
      wait := .none, run := { c.run.served w.d h.version h.pending with resp := resp } } := by
  have hrun := Dev.becomes_onRun (fun r => { r with resp := resp }) hc
  subst ha
  unfold exportCore
  simp only [hh, hr, hopen, hkeys, Bool.not_true, Bool.false_eq_true, if_false, Dev.appendThen, Dev.coach_of_some hc, hresp]
  exact hrun.trans (Dev.becomes_endWith stOk (fun x => (x.setReg w.d (BitVec.ofNat 64 h.version)).looked true h.pending) hrun.coach)

/-! ## IMPORT (R103, R312, R314) -/

/-- The key of a migration record with nothing wrong. -/
theorem migrationKey_of_good {m : Bytes} (h : migrationFault m = none) : migrationKey m = some (slice m 72 (beAt m 4 1)) := by
  unfold migrationFault at h
  simp only [] at h
  split at h
  · cases h
  · next hgood =>
    have hshort : ¬(beAt m 4 1 = 0 ∨ m.length < 72 + beAt m 4 1) := by
      simp only [not_or, ne_eq, Classical.not_not] at hgood
      omega
    unfold migrationKey
    rw [if_neg hshort]

section
variable {d d2 : Dev} {bd : Board} {rd : ReadEnv} {answered : Bool} {i home f u n : Nat} {c c' : Coach} {w : Fields} {m : Bytes}
  {h : Hit} {addrs : List (Nat × Nat)}

/-- IMPORT of a record that is no newer than its key's. -/
theorem importCore_older (hh : (d.look home c.run.nsReg c.run.keyReg true rd.headers).hit = some h)
    (hv : beAt m 8 8 ≤ h.version) :
    importCore m home f bd rd answered i c w d = d.endWith i stVersionMismatch fun r => r.looked true h.pending := by
  unfold importCore
  simp only [hh, hv, decide_true, if_true]

/-- IMPORT of a record that is newer writes its value with its version, write time and digest. -/
theorem importCore_newer {l : Lookup} (hl : l = d.look home c.run.nsReg c.run.keyReg true rd.headers)
    (hv : ∀ h, l.hit = some h → h.version < beAt m 8 8) :
    importCore m home f bd rd answered i c w d = d.putValue bd i home f c w l {
      value := slice m (72 + beAt m 4 1) (beAt m 24 8)
      imported := some (beAt m 8 8, beAt m 16 8,
        if (d.ns c.run.nsReg.toNat).fixity = beAt m 5 1 then
          slice m 32 (digestOf (beAt m 5 1) (slice m (72 + beAt m 4 1) (beAt m 24 8))).length
        else digestOf (d.ns c.run.nsReg.toNat).fixity (slice m (72 + beAt m 4 1) (beAt m 24 8))) } := by
  unfold importCore
  subst hl
  cases hh : (d.look home c.run.nsReg c.run.keyReg true rd.headers).hit with
  | none => simp only [hh, Bool.false_eq_true, if_false]
  | some h => simp only [hh, decide_eq_false (Nat.not_le.mpr (hv h hh)), Bool.false_eq_true, if_false]

theorem Dev.countImport_failed (hc : d.coach? i = some c') (hst : c'.run.status ≠ stOk) : d.countImport i c n = d := by
  unfold Dev.countImport
  rw [Dev.coach_of_some hc]
  have hno : ¬(c'.run.steps ≠ c.run.steps ∧ c'.run.status = stOk) := fun h => hst h.2
  simp only [hno, if_false]
  split <;> rfl

/-- An import that succeeds counts in the stream of its coach, and changes nothing else. -/
theorem Dev.countImport_done (hc : d.coach? i = some c') (hst : c'.run.status = stOk) (hsteps : c'.run.steps ≠ c.run.steps) :
    (d.countImport i c n).coach? i = some c' ∧ (d.countImport i c n).store = d.store ∧
    ∀ k dir ns x, c.streamHeld = some (k, dir, ns) → d.net.streams.get? k = some x →
      (d.countImport i c n).net.streams.get? k = some { x with records := bump x.records, bytes := satAdd x.bytes n } := by
  unfold Dev.countImport
  rw [Dev.coach_of_some hc]
  cases hheld : c.streamHeld with
  | none => exact ⟨hc, rfl, nofun⟩
  | some t =>
    obtain ⟨k, dir, ns⟩ := t
    simp only [hst, hsteps, ne_eq, not_false_eq_true, and_self, if_true]
    refine ⟨hc, rfl, fun k' dir' ns' x heq hx => ?_⟩
    cases heq
    have hcount := Tab.get?_adjust_self d.net.streams k fun x => { x with records := bump x.records, bytes := satAdd x.bytes n }
    rw [hx] at hcount
    exact hcount

end

/-- What IMPORT checks before it looks its key up: stream, namespace, window, region, set and record (R101, R103). -/
structure Dev.Imports (d : Dev) (i : Nat) (c : Coach) (m key : Bytes) : Prop where
  bound : c.boundFor 2 = true
  active : d.nsActive c.run.nsReg = true
  window : inArea c.inbound (c.run.num c.current.a) (c.run.num c.current.b) = true
  record : m = slice c.inbound (c.run.num c.current.a) (c.run.num c.current.b)
  good : migrationFault m = none
  keyAt : key = slice m 72 (beAt m 4 1)
  home : d.homeOf c.run.nsReg key = c.home
  gate : d.regionGate c.home = none
  request : c.privileged = false
  clean : d.dirClean c.home (d.dirKeyOf c.run.nsReg key) = true
  unset : c.set = none

/-- IMPORT whose checks pass runs on the device searched, with its key loaded. -/
theorem importEffect_run {d e : Dev} {i : Nat} {c c1 : Coach} {m key : Bytes} {bd : Board} {rd : ReadEnv}
    (h : d.Imports i c m key) (hc1 : c1 = { c with run := { c.run with keyReg := key } })
    (he : e = (d.onRun i fun r => { r with keyReg := key }).searched c1 c.home)
    (hh : e.heldByOther i c.home c.run.nsReg key = none) :
    importEffect bd rd false i c c.current d =
      (importCore m c.home (d.fpOf c.run.nsReg key) bd rd false i c1 c.current e).countImport i c m.length := by
  have hkey : migrationKey m = some key := (migrationKey_of_good h.good).trans (congrArg some h.keyAt.symm)
  have hset : c1.set.isSome = true → c1.locked c1.run.nsReg c1.run.keyReg = true := fun hs => by
    rw [hc1, show ({ c with run := { c.run with keyReg := key } } : Coach).set = c.set from rfl, h.unset] at hs; cases hs
  have hheld : e.heldByOther i c.home c1.run.nsReg c1.run.keyReg = none := by rw [hc1]; exact hh
  have hunset : c.set.isSome = false := by rw [h.unset]; rfl
  unfold importEffect
  simp only [h.bound, h.active, h.window, ← h.record, hkey, h.home, h.gate, h.request, h.clean, hunset, h.good, bne_self_eq_false,
    Bool.or_false, Bool.not_true, Bool.not_false, Bool.and_false, Bool.false_eq_true, if_false]
  have hcore := updating_run (g := importCore m) (fp := d.fpOf c.run.nsReg key) (bd := bd) (rd := rd) (answered := false)
    (w := c.current) hset hheld
  have hcls : (if c1.privileged = true then 3 else c1.clsNow) = c.clsNow := by
    rw [hc1, show Coach.privileged { c with run := { c.run with keyReg := key } } = c.privileged from rfl, h.request]
    rfl
  rw [Dev.searched, hcls] at he
  subst hc1 he
  exact congrArg (Dev.countImport i c m.length) hcore

section
variable {s : State} {ctx : CtxId} {i : Nat} {c c1 : Coach} {rd : ReadEnv} {m key : Bytes} {e : Dev} {l : Lookup}

/-- The row of IMPORT runs the check of its record on the device searched. -/
theorem exec_import_run (hat : s.dev.At ctx i c 0x34) (hrec : s.dev.fw.recovery ≠ 1) (h : s.dev.Imports i c m key)
    (hc1 : c1 = { c with run := { c.run with keyReg := key } })
    (he : e = (s.dev.onRun i fun r => { r with keyReg := key }).searched c1 c.home)
    (hh : e.heldByOther i c.home c.run.nsReg key = none) :
    exec (.import_ ctx rd) s = .next { s with
      dev := (importCore m c.home (s.dev.fpOf c.run.nsReg key) s.board rd false i c1 c.current e).countImport i c m.length } := by
  have hexec : exec (.import_ ctx rd) s = execImport ctx rd s := rfl
  rw [hexec, execImport, runKey, runInstr_at (p := (·.op == 0x34)) _ hat (beq_iff_eq.mpr hat.opcode), accepted_of_ne hrec,
    importEffect_run h hc1 he hh]

/-- The device on which IMPORT runs: its coach has the key loaded, and what else a search leaves is as before. -/
theorem Dev.imported_searched {d : Dev} (hc : d.coach? i = some c) (hc1 : c1 = { c with run := { c.run with keyReg := key } })
    (he : e = (d.onRun i fun r => { r with keyReg := key }).searched c1 c.home) :
    e.coach? i = some c1 ∧ e.net = d.net ∧ ∀ n, e.ns n = d.ns n := by
  have hrun := (Dev.becomes_onRun (fun r => { r with keyReg := key }) hc).coach
  subst hc1 he
  refine ⟨(Dev.searched_coach? ..).trans hrun, ?_, fun n => ?_⟩
  · exact (Dev.net_of_mask (Dev.searched_agree _ _ _) rfl).trans rfl
  · exact (Dev.searched_ns ..).trans rfl

end

section
variable {d d2 : Dev} {bd : Board} {rd : ReadEnv} {i home f u : Nat} {c c1 : Coach} {w : Fields} {m : Bytes} {h : Hit}
  {l : Lookup} {addrs : List (Nat × Nat)}

/-- The check of a record that is no newer than the key's own changes its coach alone. -/
theorem importCore_older_becomes (hc : d.coach? i = some c1) (hl : l = d.look home c1.run.nsReg c1.run.keyReg true rd.headers)
    (hh : l.hit = some h) (hv : beAt m 8 8 ≤ h.version) :
    d.Becomes ((importCore m home f bd rd false i c1 w d).countImport i c m.length) i { c1 with
      wait := .none, run := (c1.run.looked true h.pending).answers stVersionMismatch } := by
  have hend := Dev.becomes_endWith stVersionMismatch (fun r => r.looked true h.pending) hc
  have hst : stVersionMismatch ≠ stOk := by decide
  rw [importCore_older (hl ▸ hh) hv, Dev.countImport_failed hend.coach hst]
  exact hend

/-- The import of a newer record commits it and counts it in the stream. -/
theorem importCore_newer_commits (hc : d.coach? i = some c1) (hl : l = d.look home c1.run.nsReg c1.run.keyReg true rd.headers)
    (hs : c1.set = none) (hn : c1.run.flags.committed = false) (hsteps : c1.run.steps = c.run.steps)
    (hv : ∀ h, l.hit = some h → h.version < beAt m 8 8)
    (hu : d.unitFor home c1.clsNow c1.run.nsReg c1.run.keyReg = some u)
    (hw : d.writeRecords bd (d.askFor home f c1 l
      { value := slice m (72 + beAt m 4 1) (beAt m 24 8)
        imported := some (beAt m 8 8, beAt m 16 8,
          if (d.ns c1.run.nsReg.toNat).fixity = beAt m 5 1 then
            slice m 32 (digestOf (beAt m 5 1) (slice m (72 + beAt m 4 1) (beAt m 24 8))).length
          else digestOf (d.ns c1.run.nsReg.toNat).fixity (slice m (72 + beAt m 4 1) (beAt m 24 8))) }) = .done addrs d2) :
    ∃ d' found pending, (importCore m home f bd rd false i c1 w d).countImport i c m.length = d' ∧
      d'.coach? i = some (c1.committedAt w (beAt m 8 8) found pending (addrs.map Prod.fst) c1.run.nsReg) ∧
      d'.store.dir.get? u = some { fp := f, key := c1.run.keyReg, ns := c1.run.nsReg, rec_ := 1
                                   addrs := addrs.map Prod.fst, version := beAt m 8 8, seven := d2.sevenAt u c1.clsNow } ∧
      ∀ k dir ns x, c.streamHeld = some (k, dir, ns) → d.net.streams.get? k = some x →
        d'.net.streams.get? k = some { x with records := bump x.records, bytes := satAdd x.bytes m.length } := by
  obtain ⟨found, pending, d', hput, hcoach, hunit, hnet⟩ := Dev.putValue_committed (i := i) (w := w) hc hs hn hu hw
  have hrun : (c1.committedAt w (beAt m 8 8) found pending (addrs.map Prod.fst) c1.run.nsReg).run.steps ≠ c.run.steps :=
    hsteps ▸ Nat.succ_ne_self _
  obtain ⟨hcoach', hstore, hstreams⟩ := Dev.countImport_done (n := m.length) (c := c) hcoach rfl hrun
  rw [hnet, Dev.writeRecords_net hw] at hstreams
  rw [importCore_newer hl hv, hput]
  exact ⟨_, found, pending, rfl, hcoach', hstore ▸ hunit, hstreams⟩

end

/-- GET whose key lies in another region attaches the value once its sub-request is answered. -/
theorem getCore_attached {d : Dev} {i home f : Nat} {c : Coach} {w : Fields} {bd : Board} {rd : ReadEnv} {answered : Bool}
    {h : Hit} {x : Record} {a : Attached} {resp : List RespField} (hc : d.coach? i = some c) (hm : w.m = 1)
    (hh : (d.lookFor c home c.run.nsReg c.run.keyReg true rd.headers).1.hit = some h)
    (hr : d.recordAt (h.addrs.headD 0) = some x) (hopen : d.servesClosed h.addrs 0 x.totalLen true = false)
    (hkeys : d.keysHeld h.addrs = true)
    (ha : a = { ns := c.run.nsReg, fp := f, home := home, addrs := h.addrs, totalLen := x.totalLen
                length := x.totalLen, whole := true, hold := (d.nsFor c c.run.nsReg.toNat).options / 2 % 2 == 1
                fixity := x.fixity, digest := x.digest })
    (hresp : appendField c.run.resp (.attached a) = some resp) (hkeep : rd.keep = false) (hevict : rd.evict = []) :
    d.Becomes (getCore false home f bd rd answered i c w d) i { c with
      wait := .none, run := { c.run.served w.d h.version h.pending with resp := resp } } := by
  have hserve := Dev.serve_whole (i := i) (w := w) (bodies := rd.bodies) (a := { attach := true }) hr rfl rfl hopen hkeys ha
  have hbecomes := Dev.becomes_attached (w := w) (version := h.version) (pending := h.pending)
    (a := { attach := true }) hc rfl rfl hresp
  rw [← hserve] at hbecomes
  rw [getCore_hit hh, Dev.cacheStep_idle _ _ _ _ hkeep hevict, hm]
  exact hbecomes

/-- Settles O27, by the bounds of a walk and what EXPORT, IMPORT and the answer of a sub-request leave. -/
theorem iterationAndMigration : Obligations.IterationAndMigration := by
  refine ⟨?_, ?_, ?_, ?_⟩
  · intro s ctx i c rd w hat hrec ha hcur hlo hhi hb hg hw
    have hend := iterEffect_walks (w := c.current) (bd := s.board) (rd := rd) (answered := false) hat.coach ha hcur hlo hhi hb hg hw
    obtain ⟨hlen, hall⟩ := s.dev.walkFrom_bounds c.run.nsReg (c.run.num c.current.a) (c.current.imm % 128) rd.headers
    rw [← hat.free] at hend
    rw [← hw] at hlen hall
    exact ⟨hlen, hall, _, exec_iter_at hat hrec, hend⟩
  · intro s ctx i c rd h r a resp e hk he hb hh hr hopen hkeys ha hresp
    subst he
    have hbecomes := exportCore_attached (w := c.current) (bd := s.board) (answered := false) (hk.searched_coach c.home) hh hr
      hopen hkeys (ha.trans (by rw [Dev.searched_nsFor])) hresp
    rw [← hk.free] at hbecomes
    refine ⟨_, ?_, hbecomes⟩
    have hexec : exec (.export_ ctx rd) s = execExport ctx rd s := rfl
    rw [hexec, execExport, runKey, runInstr_at (p := (·.op == 0x33)) _ hk.toAt (beq_iff_eq.mpr hk.opcode),
      accepted_of_ne hk.accepted, exportEffect, hb]
    exact congrArg (fun d => Host.Outcome.next { s with dev := d })
      (keyed_run (f := exportCore) hk.active hk.key hk.home hk.gate (.inr ⟨hk.request, rfl⟩) hk.clean)
  · intro s ctx i c c1 rd m key e l hat hrec ha hg hp hb hs hwin hm hgood hkey hhome hclean hc1 he hh hl
    have him : s.dev.Imports i c m key := ⟨hb, ha, hwin, hm, hgood, hkey, hhome, hg, hp, hclean, hs⟩
    have hexec := exec_import_run (rd := rd) hat hrec him hc1 he hh
    obtain ⟨hc, hnet, hns⟩ := Dev.imported_searched hat.coach hc1 he
    refine ⟨fun h hhit hv => ?_, fun u addrs w d2 hn hv hw hu hdone => ?_⟩
    · have hfree : c1.wait = .none := by rw [hc1]; exact hat.free
      have hbecomes := importCore_older_becomes (f := s.dev.fpOf c.run.nsReg key) (bd := s.board) (c := c) (w := c.current)
        (l := l) (home := c.home) hc (by subst hc1; exact hl) hhit hv
      rw [← hfree] at hbecomes
      subst hc1
      exact ⟨_, hexec, hbecomes⟩
    · rw [← hns] at hw
      subst hw hc1
      obtain ⟨d', found, pending, heq, hcoach, hunit, hstreams⟩ := importCore_newer_commits (f := s.dev.fpOf c.run.nsReg key)
        (c := c) (w := c.current) (home := c.home) hc hl hs hn rfl hv hu hdone
      rw [heq] at hexec
      rw [hnet] at hstreams
      exact ⟨d', _, hexec, hcoach, rfl, rfl, rfl, rfl, rfl, hunit, hstreams⟩
  · intro s ctx rd i r c h x a resp e hc hr hp hw hop hm ha hk hh hg hclean he hhit hx hopen hkeys hattach hresp hkeep hevict
    subst he
    have hcs := (s.dev.searched_coach? c r i).trans hc
    have hwait : ((s.dev.searched c r).waitFor i .none).coach? i = some { c with wait := .none } := by
      rw [Dev.waitFor, Dev.coach?_onCoach, hcs]; rfl
    exact ⟨_, subRequestAnswer_run hop rfl hr hp hw ha hk hh hg hclean,
      (getCore_attached (w := c.current) (c := { c with wait := .none }) hwait hm
        ((congrArg (fun l => l.1.hit) (Dev.lookFor_waitFor true rd.headers)).trans hhit) hx hopen hkeys
        (hattach.trans (by rw [← Dev.searched_nsFor s.dev c r]; rfl)) hresp hkeep hevict).resumed hcs⟩

end Sys2Proof.Machine
end

section
/-!
PROOFS. The array of a bank: upsets, faults and their repair.
-/
namespace Sys2Proof.Machine

/-! ## What a search reads of a bank (R154 to R157) -/

section
variable {d e : Dev} {b : Nat}

/-- Rows, upsets and bad shadow words of a bank, and the directory. -/
def Dev.arrayView (b : Nat) (d : Dev) : Tab ClassRow × Tab Nat × List Nat × Tab DirUnit :=
  ((d.bank b).rows, (d.bank b).struck, (d.bank b).shadowBad, d.store.dir)

theorem Dev.arrayHits_congr (h : d.arrayView b = e.arrayView b) (key lo : Nat) : d.arrayHits b key lo = e.arrayHits b key lo := by
  simp only [Dev.arrayView, Prod.mk.injEq] at h
  obtain ⟨hrows, hstruck, -, hdir⟩ := h
  simp only [Dev.arrayHits, Dev.arrayRow, Dev.validRows, Dev.shadowRow, Dev.dirRow, hrows, hstruck, hdir]

theorem Dev.searchWord_congr (h : d.arrayView b = e.arrayView b) (key lo : Nat) (again : Bool) :
    d.searchWord b key lo again = e.searchWord b key lo again := by
  simp only [Dev.searchWord, Dev.arrayHits_congr h]

theorem Dev.faultMet_congr (h : d.arrayView b = e.arrayView b) (key lo : Nat) : d.faultMet b key lo = e.faultMet b key lo := by
  have hhits := Dev.arrayHits_congr h
  simp only [Dev.arrayView, Prod.mk.injEq] at h
  obtain ⟨hrows, hstruck, hbad, hdir⟩ := h
  simp only [Dev.faultMet, hhits, Bank.isStruck, Dev.arrayRow, Dev.shadowRow, Dev.dirRow, hrows, hstruck, hbad, hdir]
  rfl

/-- A bank with no upset and no bad shadow word meets no fault. -/
theorem Dev.faultMet_whole (hs : (d.bank b).struck = []) (hb : (d.bank b).shadowBad = []) (key lo : Nat) :
    d.faultMet b key lo = .none := by
  simp only [Dev.faultMet, Bank.isStruck, hs, hb]
  cases (d.arrayHits b key lo).head? <;> rfl

end

/-! ## Upsets (R157, R159) -/

/-- A bank but for its upsets. -/
def Bank.unstruck (x : Bank) : Bank := { x with struck := [], shadowBad := [] }

theorem Bank.upset_unstruck (b : Nat) (x : Bank) (u : Upset) : (x.upset b u).unstruck = x.unstruck := by
  cases u <;> simp only [Bank.upset] <;> split <;> rfl

section
variable (b : Nat) (us : List Upset) (d : Dev)

theorem Dev.strikeBank_nil : d.strikeBank b [] = d := rfl

theorem Dev.strikeBank_unstruck : ((d.strikeBank b us).bank b).unstruck = (d.bank b).unstruck := by
  have hfold : ∀ x : Bank, (us.foldl (Bank.upset b) x).unstruck = x.unstruck := by
    induction us with
    | nil => exact fun _ => rfl
    | cons u us ih => exact fun x => (ih (x.upset b u)).trans (x.upset_unstruck b u)
  unfold Dev.strikeBank Dev.when
  split
  · rw [Dev.bank_onBank]
    exact hfold _
  · rfl

/-- What an upset leaves of its bank: all but the rows it strikes. -/
theorem Dev.strikeBank_bank :
    (((d.strikeBank b us).bank b).replaced = (d.bank b).replaced ∧ ((d.strikeBank b us).bank b).rewritten = (d.bank b).rewritten ∧
      ((d.strikeBank b us).bank b).failed = (d.bank b).failed) ∧
    ((d.strikeBank b us).bank b).falseHits = (d.bank b).falseHits ∧
    ((d.strikeBank b us).bank b).parityHits = (d.bank b).parityHits ∧
    ((d.strikeBank b us).bank b).scrubFixes = (d.bank b).scrubFixes := by
  have h := d.strikeBank_unstruck b us
  generalize (d.strikeBank b us).bank b = x at h ⊢
  generalize d.bank b = y at h ⊢
  cases x
  cases y
  simp only [Bank.unstruck, Bank.mk.injEq] at h
  simp only [h, and_self]

theorem Dev.strikeBank_agree : Dev.agree { store := true } (d.strikeBank b us) d :=
  Dev.strikeBank_mask rfl b us d

end

/-! ## Repairs (R157 to R161) -/

/-- Row `row` of bank `b`, which is `x` once the fault has been counted, is rewritten from its shadow at its first fault. -/
structure Dev.Repaired (e d : Dev) (b row : Nat) (x : Bank) : Prop where
  bank : d.bank b = { x with struck := x.struck.erase row, rewritten := x.rewritten.set row e.chip.tick }
  dir : d.store.dir = e.store.dir
  groups : Dev.agree { evt := true, life := true, store := true } d e

section
variable {d e : Dev} {b row : Nat}

theorem Dev.reportBank_life (cell code : Nat) (ps : List Nat) :
    (e.reportBank b cell code ps).life.falseHits = e.life.falseHits := by
  have h := congrArg Lifetime.falseHits (e.report_life (bankRegion b) (bankBlock b) cell code ps)
  exact h

theorem Dev.reportBank_dir (cell code : Nat) (ps : List Nat) : (e.reportBank b cell code ps).store.dir = e.store.dir :=
  congrArg Store.dir (by simp only [Dev.reportBank, Dev.report_store])

theorem Dev.reportBank_chip (cell code : Nat) (ps : List Nat) : (e.reportBank b cell code ps).chip = e.chip := by
  simp only [Dev.reportBank, Dev.report_chip]

/-- A fault is counted and recorded, and its row rewritten. -/
theorem Dev.repairRow_first (g : Bank → Bank) (code : Nat) (ps : List Nat)
    (hrep : (g (e.bank b)).replaced.contains row = false) (hre : (g (e.bank b)).rewritten.get? row = none)
    (hd : (d.bank b) = g (e.bank b)) (hdir : d.store.dir = e.store.dir) (hg : Dev.agree { evt := true, life := true, store := true } d e) :
    e.Repaired ((d.reportBank b 63 code ps).repairRow b row) b row (g (e.bank b)) ∧
    ((d.reportBank b 63 code ps).repairRow b row).life.falseHits = d.life.falseHits := by
  have hb : (d.reportBank b 63 code ps).bank b = g (e.bank b) := (d.bank_reportBank ..).trans hd
  have hchip : (d.reportBank b 63 code ps).chip = e.chip := (Dev.reportBank_chip ..).trans (Dev.chip_of_mask hg rfl)
  have hdir' : (d.reportBank b 63 code ps).store.dir = e.store.dir := (Dev.reportBank_dir ..).trans hdir
  have hg' : Dev.agree { evt := true, life := true, store := true } (d.reportBank b 63 code ps) e :=
    Eq.trans (Dev.report_mask rfl rfl ..) hg
  have hlife : (d.reportBank b 63 code ps).life.falseHits = d.life.falseHits := Dev.reportBank_life ..
  generalize d.reportBank b 63 code ps = x at *
  unfold Dev.repairRow
  simp only [hb, hrep, hre, Option.map_none, Option.getD_none, Bool.false_eq_true, if_false, hchip]
  refine ⟨⟨?_, hdir', ?_⟩, hlife⟩
  · rw [Dev.bank_onBank, Dev.bank_onBank, hb]
  · exact Eq.trans (Dev.onBank_mask rfl ..) (Eq.trans (Dev.onBank_mask rfl ..) hg')

/-- A row that a search met at fault for the first time is counted, recorded and rewritten. -/
theorem Dev.meetFault_falseHit (cls : Nat) (seen : W64) (hrep : (e.bank b).replaced.contains row = false)
    (hre : (e.bank b).rewritten.get? row = none) :
    e.Repaired (e.meetFault b cls (.falseHit row seen)) b row
      { e.bank b with falseHits := bump (e.bank b).falseHits } ∧
    (e.meetFault b cls (.falseHit row seen)).life.falseHits = e.life.falseHits.update 0 b bump :=
  Dev.repairRow_first (e := e) (d := (e.onBank b fun x => { x with falseHits := bump x.falseHits }).countFalseHit b)
    (fun x => { x with falseHits := bump x.falseHits }) _ _ hrep hre (Dev.bank_onBank ..) rfl
    (Eq.trans (Dev.onLife_mask rfl ..) (Dev.onBank_mask rfl ..))

@[inherit_doc Dev.meetFault_falseHit]
theorem Dev.meetFault_parity (cls unit : Nat) (hrep : (e.bank b).replaced.contains row = false)
    (hre : (e.bank b).rewritten.get? row = none) :
    e.Repaired (e.meetFault b cls (.parity row unit)) b row
      { e.bank b with parityHits := bump (e.bank b).parityHits } ∧
    (e.meetFault b cls (.parity row unit)).life.falseHits = e.life.falseHits.update 0 b bump :=
  Dev.repairRow_first (e := e) (d := (e.onBank b fun x => { x with parityHits := bump x.parityHits }).countFalseHit b)
    (fun x => { x with parityHits := bump x.parityHits }) _ _ hrep hre (Dev.bank_onBank ..) rfl
    (Eq.trans (Dev.onLife_mask rfl ..) (Dev.onBank_mask rfl ..))

/-- A search that meets no fault is served as it is. -/
theorem Dev.searchBank_clean {key lo cls : Nat} (h : e.faultMet b key lo = .none) : e.searchBank b key lo cls = (false, e) := by
  unfold Dev.searchBank Dev.repairSearch
  simp only [h]

/-- The one row at fault is repaired and the search repeated. -/
theorem Dev.searchBank_repairs {key lo cls m : Nat} {f : ArrayFault} {x : Bank} (hs : (e.bank b).struck = [(row, m)])
    (hx : x.struck = (e.bank b).struck) (hbad : x.shadowBad = []) (hf : e.faultMet b key lo = f)
    (hkind : (∃ seen, f = .falseHit row seen) ∨ ∃ u, f = .parity row u)
    (hrep : e.Repaired (e.meetFault b cls f) b row x) :
    e.searchBank b key lo cls = (true, e.meetFault b cls f) ∧ ((e.meetFault b cls f).bank b).struck = [] := by
  have hempty : ((e.meetFault b cls f).bank b).struck = [] := by
    rw [hrep.bank]
    show x.struck.erase row = []
    rw [hx, hs]
    simp [Tab.erase]
  have hnone : (e.meetFault b cls f).faultMet b key lo = .none :=
    Dev.faultMet_whole hempty (by rw [hrep.bank]; exact hbad) key lo
  refine ⟨?_, hempty⟩
  unfold Dev.searchBank
  rw [hs]
  show Dev.repairSearch b key lo cls (1 + 1) (false, e) = _
  rcases hkind with ⟨seen, rfl⟩ | ⟨u, rfl⟩ <;>
    · rw [Dev.repairSearch]
      simp only [hf]
      rw [Dev.repairSearch]
      simp only [hnone]

end

end Sys2Proof.Machine
end

section
/-!
PROOFS. CAMOP (O39).
-/
namespace Sys2Proof.Machine

/-! ## The rows of CAMOP (R166 to R168) -/

/-- The parameters of an operation of CAMOP. -/
abbrev CamOp := Nat → Nat → Bool → Nat → Coach → Fields → Dev → Dev

section
variable {s : State} {ctx : CtxId} {i row bank m : Nat} {all : Bool} {c : Coach} {f : CamOp} {d : Dev} {w : Fields}

/-- CAMOP on a target that passes the checks of R167. -/
theorem camEffect_run (hm : w.m = m) (ht : camTarget (c.run.num w.a) = some (row, bank, all))
    (hok : d.camOk w.m row bank all = true) : camEffect m f i c w d = f row bank all i c w d := by
  subst hm
  unfold camEffect
  simp only [ht, hok, ne_eq, not_true_eq_false, if_false, if_true]

theorem runCam_at (h : s.dev.Acts ctx i c 0x4B) : runCam ctx m f s = .next { s with
    dev := noted (camEffect m f) i c c.current s.dev } := runActing_at _ h

end

/-! ## Rows read, written and cleared -/

/-- CAMOP_READ_ROW of a row. -/
def camRead : CamOp := fun row bank _ i _ w d =>
  d.endWith i stOk fun r => { r with fetch := d.rowBlock bank row }.setReg w.d
    (BitVec.ofNat 64 (b2n ((d.validRows bank).contains row) + 2 * b2n ((d.bank bank).replaced.contains row)))

/-- The classification banks of an operation changed alike, and the instruction ended. -/
def Dev.camChange (g : Bank → Bank) (banks : List Nat) (i : Nat) (w : Fields) (d : Dev) : Dev :=
  (Dev.each banks (fun k d => d.onBank k g) d).endWith i stOk (Run.setReg w.d 0)

section
variable {d : Dev} {g : Bank → Bank} {banks : List Nat} {i k : Nat} {c : Coach} {w : Fields}

theorem Dev.camChange_mem {P : Bank → Prop} (hk : k ∈ banks) (hg : ∀ x, P (g x)) : P ((d.camChange g banks i w).bank k) :=
  Dev.each_reaches (P := fun e => P (e.bank k)) hk (fun e => by rw [Dev.bank_onBank]; exact hg _) (fun q e he => by
    by_cases hq : k = q
    · rw [hq, Dev.bank_onBank]; exact hg _
    · rw [Dev.bank_onBank_ne _ _ hq]; exact he) d

theorem Dev.camChange_not_mem (hk : k ∉ banks) : (d.camChange g banks i w).bank k = d.bank k :=
  Dev.each_invariant (P := fun e => e.bank k = d.bank k) banks
    (fun _ hq _ he => (Dev.bank_onBank_ne _ _ (ne_of_mem_of_not_mem hq hk).symm).trans he) d rfl

theorem Dev.camChange_nv : (d.camChange g banks i w).nv = d.nv :=
  Dev.each_keep (·.nv) banks (fun k d => d.onBank k g) (fun _ _ => rfl) d

/-- A noted change of classification banks: its coach is answered with 0, its banks alone have changed. -/
theorem noted_camChange {f : Nat → Coach → Fields → Dev → Dev} (h : f i c w d = d.camChange g banks i w) (hc : d.coach? i = some c) :
    ∃ c', (noted f i c w d).coach? i = some c' ∧ c'.run = { c.run with g := c.run.g.set w.d 0 }.answers 0x00 ∧
      (∀ k, (noted f i c w d).bank k = (d.camChange g banks i w).bank k) ∧ (noted f i c w d).nv = d.nv := by
  have hbanks : (Dev.each banks (fun k d => d.onBank k g) d).coach? i = some c :=
    (Dev.each_keep (·.coach? i) banks (fun k d => d.onBank k g) (fun _ _ => rfl) d).trans hc
  obtain ⟨b, hb⟩ := noted_endWith h hbanks
  refine ⟨_, hb, rfl, fun k => ?_, ?_⟩
  · rw [Dev.bank, noted_store, h]; rfl
  · rw [noted_nv, h, Dev.camChange_nv]

end

/-- A row of a classification bank takes an entry. -/
def Bank.takeRow (row : Nat) (x : ClassRow) (y : Bank) : Bank := { y.written row with rows := y.rows.set row x }

/-- A row of a classification bank is cleared. -/
def Bank.clearRow (row : Nat) (y : Bank) : Bank := { y.written row with rows := y.rows.erase row }

/-- CAMOP_WRITE_ROW of a row. -/
def camWrite : CamOp := fun row bank all i c w d =>
  match c.camBlock w with
  | none => d.fail i stIllegalValue
  | some b =>
    if leAt b 0 20 &&& leAt b 20 20 ≠ leAt b 0 20 then d.fail i stIllegalValue
    else d.camChange (Bank.takeRow row (ClassRow.ofBlock b)) (d.camBanks bank all) i w

/-- CAMOP_CLEAR_ROW of a row. -/
def camClear : CamOp := fun row bank all i _ w d => d.camChange (Bank.clearRow row) (d.camBanks bank all) i w

/-- The value of a classification entry keeps the kind that its data block gives. -/
theorem ClassRow.ofBlock_kind (b : Bytes) : (ClassRow.ofBlock b).value / 2 ^ 156 = leAt b 0 20 / 2 ^ 156 := by
  simp only [ClassRow.ofBlock]
  split
  · omega
  · split <;> omega

theorem ClassRow.ofBlock_fields {b : Bytes} {x : ClassRow} (hx : x = ClassRow.ofBlock b) :
    x.mask = leAt b 20 20 ∧ (x.value / 2 ^ 156 = 1 → x.assoc = leAt b 40 24 % 2 ^ 36) ∧
    (x.value / 2 ^ 156 = 2 → x.assoc = leAt b 40 24 % 2) := by
  subst hx
  rw [ClassRow.ofBlock_kind]
  exact ⟨rfl, fun hk => if_pos hk, fun hk => (if_neg (by rw [hk]; decide)).trans (if_pos hk)⟩

/-! ## Searches -/

section
variable {d d' : Dev} {i lo bank key : Nat} {us : List Upset} {c : Coach} {w : Fields} {again : Bool}

/-- A search that leaves its coach running and its region open gives the word of what it leaves. -/
theorem camSearch_gives (hkey : (c.camBlock w).bind (searchKey bank) = some key)
    (hs : ((d.strikeBank bank us).countSearch bank 8).searchBank bank key lo 8 = (again, d'))
    (hrun : (d'.coach i).stage = .running) (hopen : d'.fencedRegion (bankRegion bank) = false) :
    camSearch lo bank us i c w d = (d'.giveWord bank (d'.searchWord bank key lo again)).endWith i stOk
      (Run.setReg w.d (BitVec.ofNat 64 (d'.searchWord bank key lo again))) := by
  unfold camSearch
  simp only [hkey, hs, hrun, hopen, bne_self_eq_false, Bool.false_eq_true, if_false]

end

section
variable {s : State} {ctx : CtxId} {i row bank lo key : Nat} {all : Bool} {c : Coach} {con : CtxId → List Upset → Instr}

/-- CAMOP_SEARCH and CAMOP_NEXT run the search of their rows. -/
theorem exec_camSearch (us : List Upset) (h : s.dev.Acts ctx i c 0x4B) (ht : camTarget (c.run.num c.current.a) = some (row, bank, all))
    (hok : s.dev.camOk c.current.m row bank all = true)
    (hcon : (con = .camopSearch ∧ c.current.m = 3 ∧ lo = 0) ∨ (con = .camopNext ∧ c.current.m = 4 ∧ lo = row + 1)) :
    ∃ f, exec (con ctx us) s = .next { s with dev := noted f i c c.current s.dev } ∧
      f i c c.current s.dev = camSearch lo bank us i c c.current s.dev := by
  rcases hcon with ⟨rfl, hm, rfl⟩ | ⟨rfl, hm, rfl⟩
  · exact ⟨_, runCam_at (m := 3) (f := fun _ bank _ i c w d => camSearch 0 bank us i c w d) h, camEffect_run hm ht hok⟩
  · exact ⟨_, runCam_at (m := 4) (f := fun row bank _ i c w d => camSearch (row + 1) bank us i c w d) h, camEffect_run hm ht hok⟩

/-- The region of a target that is searched is open. -/
theorem Dev.camOk_open {d : Dev} (hok : d.camOk c.current.m row bank all = true) (hm : c.current.m = 3 ∨ c.current.m = 4) :
    d.fencedRegion (bankRegion bank) = false := by
  unfold Dev.camOk at hok
  rcases hm with hm | hm <;> cases all <;> simp_all

/-- What a CAMOP search leaves, where it gives the word of `d'`. -/
theorem camSearch_leaves {f : Nat → Coach → Fields → Dev → Dev} {us : List Upset} {d' : Dev} {again : Bool}
    (h : s.dev.Acts ctx i c 0x4B) (hopen : s.dev.fencedRegion (bankRegion bank) = false)
    (hf : f i c c.current s.dev = camSearch lo bank us i c c.current s.dev)
    (hkey : (c.camBlock c.current).bind (searchKey bank) = some key)
    (hs : ((s.dev.strikeBank bank us).countSearch bank 8).searchBank bank key lo 8 = (again, d'))
    (hg : Dev.agree { evt := true, life := true, store := true } d' s.dev) :
    ∃ c', (noted f i c c.current s.dev).coach? i = some c' ∧
      c'.run = { c.run with g := c.run.g.set c.current.d (BitVec.ofNat 64
        ((noted f i c c.current s.dev).searchWord bank key lo again)) }.answers 0x00 ∧
      (noted f i c c.current s.dev).bank bank = { d'.bank bank with word := d'.searchWord bank key lo again } ∧
      (noted f i c c.current s.dev).nv = s.dev.nv ∧
      (noted f i c c.current s.dev).searchWord bank key lo again = d'.searchWord bank key lo again := by
  have heng : d'.eng = s.dev.eng := Dev.eng_of_mask hg rfl
  have hco : d'.coach? i = some c := (congrArg (fun e => Tab.get? (Engines.coaches e) i) heng).trans h.coach
  have hgives := hf.trans (camSearch_gives hkey hs
    ((congrArg (·.stage) (Dev.coach_of_some hco)).trans (Dev.coachIn_stage h.running))
    ((Dev.fencedRegion_of_chip (Dev.chip_of_mask hg rfl) _).trans hopen))
  have hbank : (noted f i c c.current s.dev).bank bank = { d'.bank bank with word := d'.searchWord bank key lo again } := by
    rw [Dev.bank, noted_store, hgives]
    exact Dev.bank_onBank ..
  have hdir : (noted f i c c.current s.dev).store.dir = d'.store.dir := by
    rw [noted_store, hgives]; rfl
  have hword : (noted f i c c.current s.dev).searchWord bank key lo again = d'.searchWord bank key lo again :=
    Dev.searchWord_congr (by rw [Dev.arrayView, Dev.arrayView, hbank, hdir]) key lo again
  obtain ⟨b, hb⟩ := noted_endWith hgives (show (d'.giveWord bank _).coach? i = some c from hco)
  refine ⟨_, hb, ?_, hbank, ?_, hword⟩
  · rw [hword]; rfl
  · rw [noted_nv, hgives]
    exact (Dev.nv_of_mask hg rfl : d'.nv = s.dev.nv)

/-- The array of a bank that counts a search is as it was. -/
theorem Dev.arrayView_countSearch (d : Dev) (b cls : Nat) : (d.countSearch b cls).arrayView b = d.arrayView b := by
  rw [Dev.arrayView, Dev.countSearch, Dev.bank_onBank]
  rfl

end

/-- Settles O39, by what each operation of CAMOP leaves of the banks it acts on and of its coach. -/
theorem camopActsOnRows : Obligations.CamopActsOnRows := by
  intro s ctx i row bank all c h ht hok
  refine ⟨fun hm => ?_, fun b x hm hb hx hand => ?_, fun hm => ?_, fun con lo key hcon hkey => ⟨fun hclean => ?_,
    fun us e p m unit he hs hbad hrep hre hf => ?_⟩, fun hm hrow hscrub => ?_⟩
  · obtain ⟨b, hb⟩ := becomes_noted_endWith (camEffect_run (f := camRead) hm ht hok) h.coach
    exact ⟨_, _, runCam_at h, hb, rfl⟩
  · obtain ⟨hmask, h1, h2⟩ := ClassRow.ofBlock_fields hx
    have heq : camEffect 1 camWrite i c c.current s.dev =
        s.dev.camChange (Bank.takeRow row x) (s.dev.camBanks bank all) i c.current := by
      rw [camEffect_run hm ht hok, hx]
      unfold camWrite
      simp only [hb, hand, ne_eq, not_true_eq_false, if_false]
    obtain ⟨c', hco, hrun, hbanks, hnv⟩ := noted_camChange heq h.coach
    exact ⟨hmask, h1, h2, _, c', runCam_at (f := camWrite) h, hco, hrun,
      fun k hk => (congrArg (·.rows.get? row) (hbanks k)).trans
        (Dev.camChange_mem (P := fun y => y.rows.get? row = some x) hk fun y => Tab.get?_set_self ..),
      fun k hk => (hbanks k).trans (Dev.camChange_not_mem hk), hnv⟩
  · obtain ⟨c', hco, hrun, hbanks, hnv⟩ := noted_camChange (camEffect_run (f := camClear) hm ht hok) h.coach
    exact ⟨_, c', runCam_at (f := camClear) h, hco, hrun,
      fun k hk => (congrArg (·.rows.get? row) (hbanks k)).trans
        (Dev.camChange_mem (P := fun y => y.rows.get? row = none) hk fun y => Tab.get?_erase_self ..),
      fun k hk => (hbanks k).trans (Dev.camChange_not_mem hk), hnv⟩
  · have hopen := Dev.camOk_open hok (hcon.imp (·.2.1) (·.2.1))
    have hs : ((s.dev.strikeBank bank []).countSearch bank 8).searchBank bank key lo 8 = (false, s.dev.countSearch bank 8) :=
      Dev.searchBank_clean ((Dev.faultMet_congr (s.dev.arrayView_countSearch bank 8) key lo).trans hclean)
    obtain ⟨f, hexec, hf⟩ := exec_camSearch [] h ht hok hcon
    obtain ⟨c', hco, hrun, hbank, hnv, hword⟩ := camSearch_leaves h hopen hf hkey hs
      (Eq.trans (Dev.onBank_mask rfl ..) rfl)
    rw [hword, Dev.searchWord_congr (s.dev.arrayView_countSearch bank 8)] at hrun
    rw [Dev.searchWord_congr (s.dev.arrayView_countSearch bank 8), Dev.countSearch, Dev.bank_onBank] at hbank
    exact ⟨_, c', hexec, hco, hrun, hbank, hnv⟩
  · have hopen := Dev.camOk_open hok (hcon.imp (·.2.1) (·.2.1))
    obtain ⟨⟨hr, hw, -⟩, -, hp, -⟩ := s.dev.strikeBank_bank bank us
    have hcb : (e.countSearch bank 8).bank bank = { e.bank bank with searches := bump (e.bank bank).searches } := by
      rw [Dev.countSearch, Dev.bank_onBank]; rfl
    have hf' : (e.countSearch bank 8).faultMet bank key lo = .parity p unit :=
      (Dev.faultMet_congr (e.arrayView_countSearch bank 8) key lo).trans hf
    obtain ⟨hrepaired, -⟩ := Dev.meetFault_parity (e := e.countSearch bank 8) (b := bank) (row := p) 8 unit
      (by rw [hcb]; exact hrep) (by rw [hcb]; exact hre)
    obtain ⟨hsearch, hempty⟩ := Dev.searchBank_repairs (by rw [hcb]; exact hs) (by rfl) (by rw [hcb]; exact hbad) hf' (.inr ⟨unit, rfl⟩)
      hrepaired
    have hg : Dev.agree { evt := true, life := true, store := true }
        ((e.countSearch bank 8).meetFault bank 8 (.parity p unit)) s.dev :=
      Eq.trans hrepaired.groups (Eq.trans (Dev.onBank_mask rfl ..) (he ▸ Dev.strikeBank_mask rfl bank us s.dev))
    obtain ⟨f, hexec, hfeq⟩ := exec_camSearch us h ht hok hcon
    obtain ⟨c', hco, hrun, hbank, hnv, -⟩ := camSearch_leaves h hopen hfeq hkey (by rw [← he]; exact hsearch) hg
    refine ⟨_, c', hexec, hco, hrun, (congrArg Bank.struck hbank).trans hempty, ?_, hnv⟩
    rw [hbank, hrepaired.bank, hcb]
    exact congrArg bump (he ▸ hp)
  · have heq : camEffect 5 (fun row bank _ i _ _ d =>
        if row ≠ 0 then d.fail i stIllegalValue
        else if d.scrubbing bank then d.fail i stBusy
        else d.waitFor i (.scrub bank)) i c c.current s.dev = s.dev.waitFor i (.scrub bank) := by
      rw [camEffect_run hm ht hok]
      simp only [hrow, hscrub, ne_eq, not_true_eq_false, if_false, Bool.false_eq_true]
    have hwait := Dev.becomes_onCoach (fun c => { c with wait := .scrub bank }) h.coach
    obtain ⟨b, hb⟩ := Dev.Becomes.noted (heq.symm ▸ (show s.dev.Becomes (s.dev.waitFor i (.scrub bank)) i _ from hwait))
    exact ⟨_, _, runCam_at h, hb, rfl, rfl⟩

end Sys2Proof.Machine
end

section
/-!
PROOFS. Searches and the scrubber (R154 to R160).
-/
namespace Sys2Proof.Machine

/-! ## ASSOC_SEARCH (R154, R157) -/

section
variable {s : State} {b : BankId} {key : BitVec 160} {cls : Option ClassId} {k : Nat} {us : List Upset} {e : Dev}

/-- The key of a search as its bank takes it. -/
theorem searchKey_eq (hk : k = (if b.val % 4 = 3 then key.toNat else key.toNat % 2 ^ 80)) :
    (if isClassBank b.val then key.toNat else key.toNat % 2 ^ 80) = k := by
  simp only [hk, isClassBank, beq_iff_eq]

/-- A search of an open bank that meets no fault. -/
theorem exec_assocSearch_clean (hl : s.dev.live = true) (ho : s.dev.fencedRegion (bankRegion b.val) = false)
    (hk : k = (if b.val % 4 = 3 then key.toNat else key.toNat % 2 ^ 80)) (hf : s.dev.faultMet b.val k 0 = .none) :
    exec (.assocSearch b key cls []) s = .next { s with
      dev := (s.dev.countSearch b.val ((cls.map Fin.val).getD 8)).giveWord b.val (s.dev.searchWord b.val k 0 false) } := by
  have hexec : exec (.assocSearch b key cls []) s = execAssocSearch b key cls [] s := rfl
  rw [hexec, execAssocSearch, whenLive_pos hl]
  simp only [ho, searchKey_eq hk, Dev.strikeBank_nil, hf, beq_self_eq_true, Bool.false_eq_true, if_false, if_true]

/-- A search of an open bank whose one struck row it meets: repaired, and the word of the repeat. -/
theorem exec_assocSearch_repairs {d : Dev} (hl : s.dev.live = true) (ho : s.dev.fencedRegion (bankRegion b.val) = false)
    (hk : k = (if b.val % 4 = 3 then key.toNat else key.toNat % 2 ^ 80)) (he : e = s.dev.strikeBank b.val us)
    (hf : e.faultMet b.val k 0 ≠ .none) (hs : e.searchBank b.val k 0 ((cls.map Fin.val).getD 8) = (true, d))
    (hw : (d.bank b.val).failed = false) :
    exec (.assocSearch b key cls us) s = .next { s with dev := d.giveWord b.val (d.searchWord b.val k 0 true) } := by
  have hexec : exec (.assocSearch b key cls us) s = execAssocSearch b key cls us s := rfl
  rw [hexec, execAssocSearch, whenLive_pos hl]
  simp only [ho, searchKey_eq hk, ← he, hs, hw, beq_eq_false_iff_ne.mpr hf, Bool.false_eq_true, if_false]

/-- The word that a bank is given is that of the bank it leaves. -/
theorem Dev.searchWord_giveWord (d : Dev) (b w key lo : Nat) (again : Bool) :
    (d.giveWord b w).searchWord b key lo again = d.searchWord b key lo again :=
  Dev.searchWord_congr (by rw [Dev.arrayView, Dev.giveWord, Dev.bank_onBank]; rfl) key lo again

/-- What the search leaves that repairs a row at its first fault. -/
theorem Dev.Repaired.given {d : Dev} {b row k : Nat} {x : Bank} (h : e.Repaired d b row x) (hx : x.struck = (e.bank b).struck)
    {m : Nat} (hs : (e.bank b).struck = [(row, m)]) (g : Dev) (hg : g = d.giveWord b (d.searchWord b k 0 true)) :
    (g.bank b).struck = [] ∧ (g.bank b).falseHits = x.falseHits ∧ (g.bank b).parityHits = x.parityHits ∧
    (g.bank b).rewritten.get? row = some e.chip.tick ∧ (g.bank b).word = g.searchWord b k 0 true ∧ g.chip = e.chip ∧
    g.life = d.life := by
  subst hg
  have hchip : d.chip = e.chip := Dev.chip_of_mask h.groups rfl
  have hbank : (d.giveWord b (d.searchWord b k 0 true)).bank b = { d.bank b with word := d.searchWord b k 0 true } :=
    Dev.bank_onBank ..
  rw [Dev.searchWord_giveWord, hbank, h.bank, hx, hs]
  exact ⟨by simp [Tab.erase], rfl, rfl, Tab.get?_set_self .., rfl, hchip, rfl⟩

/-- A search that repairs the one struck row counts its fault by kind. -/
theorem assocSearch_repairs {row m : Nat} (hl : s.dev.live = true) (ho : s.dev.fencedRegion (bankRegion b.val) = false)
    (hk : k = (if b.val % 4 = 3 then key.toNat else key.toNat % 2 ^ 80)) (he : e = s.dev.strikeBank b.val us)
    (hs : (e.bank b.val).struck = [(row, m)]) (hbad : (e.bank b.val).shadowBad = [])
    (hrep : (e.bank b.val).replaced.contains row = false) (hre : (e.bank b.val).rewritten.get? row = none)
    (hw : (e.bank b.val).failed = false)
    (hf : (∃ seen, e.faultMet b.val k 0 = .falseHit row seen) ∨ ∃ u, e.faultMet b.val k 0 = .parity row u) :
    ∃ d', exec (.assocSearch b key cls us) s = .next { s with dev := d' } ∧ (d'.bank b.val).struck = [] ∧
      (∀ seen, e.faultMet b.val k 0 = .falseHit row seen → (d'.bank b.val).falseHits = bump (s.dev.bank b.val).falseHits ∧
        (d'.bank b.val).parityHits = (s.dev.bank b.val).parityHits) ∧
      (∀ u, e.faultMet b.val k 0 = .parity row u → (d'.bank b.val).parityHits = bump (s.dev.bank b.val).parityHits ∧
        (d'.bank b.val).falseHits = (s.dev.bank b.val).falseHits) ∧
      (d'.bank b.val).rewritten.get? row = some s.dev.chip.tick ∧
      (d'.bank b.val).word = d'.searchWord b.val k 0 true ∧
      d'.life.falseHits.get 0 b.val = bump (s.dev.life.falseHits.get 0 b.val) ∧ d'.chip = s.dev.chip := by
  obtain ⟨-, hfalse, hparity, -⟩ := s.dev.strikeBank_bank b.val us
  have hagree := s.dev.strikeBank_agree b.val us
  rw [← he] at hfalse hparity hagree
  have hchip : e.chip = s.dev.chip := Dev.chip_of_mask hagree rfl
  have hlife : e.life = s.dev.life := Dev.life_of_mask hagree rfl
  rcases hf with ⟨seen, hf⟩ | ⟨u, hf⟩
  · obtain ⟨hrepaired, hcount⟩ := Dev.meetFault_falseHit ((cls.map Fin.val).getD 8) seen hrep hre
    obtain ⟨hsearch, -⟩ := Dev.searchBank_repairs hs (by rfl) (by exact hbad) hf (.inl ⟨seen, rfl⟩) hrepaired
    obtain ⟨h1, h2, h3, h4, h5, h6, h7⟩ := hrepaired.given (k := k) (by rfl) hs _ rfl
    refine ⟨_, exec_assocSearch_repairs hl ho hk he (by rw [hf]; nofun) hsearch (by rw [hrepaired.bank]; exact hw), h1,
      fun _ _ => ⟨h2.trans (congrArg bump hfalse), h3.trans hparity⟩, fun u hu => ?_, h4.trans (by rw [hchip]), h5, ?_, h6.trans hchip⟩
    · rw [hf] at hu; cases hu
    · rw [h7, hcount, hlife, Tab.get_update_self]
  · obtain ⟨hrepaired, hcount⟩ := Dev.meetFault_parity ((cls.map Fin.val).getD 8) u hrep hre
    obtain ⟨hsearch, -⟩ := Dev.searchBank_repairs hs (by rfl) (by exact hbad) hf (.inr ⟨u, rfl⟩) hrepaired
    obtain ⟨h1, h2, h3, h4, h5, h6, h7⟩ := hrepaired.given (k := k) (by rfl) hs _ rfl
    refine ⟨_, exec_assocSearch_repairs hl ho hk he (by rw [hf]; nofun) hsearch (by rw [hrepaired.bank]; exact hw), h1,
      fun seen hseen => ?_, fun _ _ => ⟨h3.trans (congrArg bump hparity), h2.trans hfalse⟩, h4.trans (by rw [hchip]), h5, ?_, h6.trans hchip⟩
    · rw [hf] at hseen; cases hseen
    · rw [h7, hcount, hlife, Tab.get_update_self]

end

/-! ## The scrubber (R159, R160) -/

section
variable {d e : Dev} {b row m t : Nat}

/-- The repair of a row that was rewritten less than 1 s ago goes to a replacement register. -/
theorem Dev.repairRow_replaced (hrep : (d.bank b).replaced.contains row = false) (hroom : (d.bank b).replaced.length < 4)
    (hre : (d.bank b).rewritten.get? row = some t) (ht : d.chip.tick < t + 1000) :
    (d.repairRow b row).bank b = { d.bank b with
      struck := (d.bank b).struck.erase row, replaced := (d.bank b).replaced ++ [row] } ∧
    Dev.agree { evt := true, life := true, store := true } (d.repairRow b row) d := by
  unfold Dev.repairRow
  simp only [hrep, hre, ht, Nat.not_le.mpr hroom, Option.map_some, Option.getD_some, decide_true, Bool.false_eq_true, if_false,
    if_true]
  constructor
  · rw [Dev.bank_reportBank, Dev.bank_onBank, Dev.bank_onBank]
  · exact Eq.trans (Dev.report_mask rfl rfl ..) (Eq.trans (Dev.onBank_mask rfl ..) (Dev.onBank_mask rfl ..))

/-- The repair of a row that was rewritten long ago, or never, rewrites it. -/
theorem Dev.repairRow_rewritten (hrep : (d.bank b).replaced.contains row = false)
    (hre : ∀ t, (d.bank b).rewritten.get? row = some t → ¬d.chip.tick < t + 1000) :
    (d.repairRow b row).bank b = { d.bank b with
      struck := (d.bank b).struck.erase row, rewritten := (d.bank b).rewritten.set row d.chip.tick } ∧
    Dev.agree { evt := true, life := true, store := true } (d.repairRow b row) d := by
  have hold : (((d.bank b).rewritten.get? row).map fun t => decide (d.chip.tick < t + 1000)).getD false = false := by
    cases h : (d.bank b).rewritten.get? row with
    | none => rfl
    | some t => exact decide_eq_false (hre t h)
  unfold Dev.repairRow
  simp only [hrep, hold, Bool.false_eq_true, if_false]
  exact ⟨by rw [Dev.bank_onBank, Dev.bank_onBank], Eq.trans (Dev.onBank_mask rfl ..) (Dev.onBank_mask rfl ..)⟩

/-- The scrubber's count of a row it repairs. -/
def Dev.countFix (b row m : Nat) (d : Dev) : Dev :=
  (d.onBank b fun x => { x with scrubFixes := bump x.scrubFixes }).reportBank b 63 0x5003 [row, flippedUnit b m, 0, 0, 0]

theorem Dev.countFix_bank : (d.countFix b row m).bank b = { d.bank b with scrubFixes := bump (d.bank b).scrubFixes } := by
  rw [Dev.countFix, Dev.bank_reportBank, Dev.bank_onBank]

theorem Dev.countFix_agree : Dev.agree { evt := true, life := true, store := true } (d.countFix b row m) d :=
  Eq.trans (Dev.report_mask rfl rfl ..) (Dev.onBank_mask rfl ..)

/-- The scrubber repairs a row that upsets have struck. -/
theorem Dev.scrubRow_struck (hbad : (d.bank b).shadowBad.contains row = false) (hs : (d.bank b).struck.get? row = some m) :
    d.scrubRow b row = ((d.countFix b row m).repairRow b row, true) := by
  unfold Dev.scrubRow
  simp only [hbad, hs, Bool.false_eq_true, if_false]
  rfl

theorem Dev.scrubRow_whole (hbad : (d.bank b).shadowBad.contains row = false) (hs : (d.bank b).struck.get? row = none) :
    d.scrubRow b row = (d, false) := by
  unfold Dev.scrubRow
  simp only [hbad, hs, Bool.false_eq_true, if_false]

/-- The scrubber finds a shadow word that cannot be corrected: the bank fails and its region is fenced. -/
theorem Dev.scrubRow_bad (hbad : (d.bank b).shadowBad.contains row = true) : d.scrubRow b row = (d.failBank b row 2, false) := by
  unfold Dev.scrubRow
  simp only [hbad, if_true]

/-! ## A scrub pass -/

/-- A table that rises from beyond a number does not list it. -/
theorem Tab.get?_none_of_rising {α : Type} {lo k : Nat} {t : Tab α} (h : Tab.rising lo t = true) (hk : k < lo) : t.get? k = none := by
  induction t generalizing lo with
  | nil => rfl
  | cons e t ih =>
    obtain ⟨q, v⟩ := e
    simp only [Tab.rising, Bool.and_eq_true, decide_eq_true_eq] at h
    obtain ⟨hlo, hrest⟩ := h
    rw [Tab.get?, if_neg (by omega), ih hrest (by omega)]

/-- The first entry of a rising table is erased: the others stay. -/
theorem Tab.erase_head {α : Type} {lo k : Nat} {v : α} {t : Tab α} (h : Tab.rising lo ((k, v) :: t) = true) :
    Tab.erase ((k, v) :: t) k = t := by
  have hkeep : ∀ (lo : Nat) (t : Tab α), Tab.rising lo t = true → k < lo → Tab.erase t k = t := by
    intro lo t ht hk
    induction t generalizing lo with
    | nil => rfl
    | cons e t ih =>
      obtain ⟨q, w⟩ := e
      simp only [Tab.rising, Bool.and_eq_true, decide_eq_true_eq] at ht
      obtain ⟨hlo, hrest⟩ := ht
      have hne : (q != k) = true := by simp; omega
      rw [Tab.erase, List.filter_cons, if_pos hne]
      exact congrArg _ (ih (q + 1) hrest (by omega))
  simp only [Tab.rising, Bool.and_eq_true, decide_eq_true_eq] at h
  obtain ⟨-, hrest⟩ := h
  rw [Tab.erase, List.filter_cons, if_neg (by simp)]
  exact hkeep (k + 1) t hrest (by omega)

/-- One row of a scrub pass. -/
def Dev.scrubStep (b : Nat) (p : Dev × Nat) (row : Nat) : Dev × Nat :=
  ((p.1.scrubRow b row).1, p.2 + b2n (p.1.scrubRow b row).2)

/-- A bank whose struck rows a pass can repair: they rise, none is replaced already, and the replacement registers suffice. -/
structure Bank.Scrubbable (x : Bank) (lo : Nat) : Prop where
  bad : x.shadowBad = []
  rising : Tab.rising lo x.struck = true
  room : x.replaced.length + x.struck.length ≤ 4
  apart : ∀ r ∈ x.replaced, x.struck.get? r = none

/-- The first struck row of such a bank is repaired, and the rest is such a bank. -/
theorem Dev.scrubRow_first {lo : Nat} {rest : Tab Nat} (h : (d.bank b).Scrubbable lo) (hs : (d.bank b).struck = (row, m) :: rest) :
    (d.scrubRow b row).2 = true ∧ ((d.scrubRow b row).1.bank b).struck = rest ∧
    ((d.scrubRow b row).1.bank b).Scrubbable (row + 1) ∧
    Dev.agree { evt := true, life := true, store := true } (d.scrubRow b row).1 d := by
  obtain ⟨hbad, hrising, hroom, hapart⟩ := h
  rw [hs] at hrising hroom hapart
  have herase := Tab.erase_head hrising
  simp only [Tab.rising, Bool.and_eq_true, decide_eq_true_eq] at hrising
  obtain ⟨hlo, hrest⟩ := hrising
  have hget : (d.bank b).struck.get? row = some m := by rw [hs, Tab.get?, if_pos rfl]
  have hrow : (d.bank b).replaced.contains row = false := by
    rw [List.contains_eq_mem, decide_eq_false_iff_not]
    intro hmem
    have := hapart row hmem
    rw [Tab.get?, if_pos rfl] at this
    cases this
  have hrestapart : ∀ r ∈ (d.bank b).replaced, rest.get? r = none := fun r hr => by
    have := hapart r hr
    rw [Tab.get?] at this
    split at this
    · cases this
    · exact this
  rw [Dev.scrubRow_struck (by rw [hbad]; rfl) hget]
  have hfix := d.countFix_bank (b := b) (row := row) (m := m)
  have hlen : (d.bank b).replaced.length < 4 := by simp only [List.length_cons] at hroom; omega
  by_cases hrecent : ∃ t, (d.bank b).rewritten.get? row = some t ∧ (d.countFix b row m).chip.tick < t + 1000
  · obtain ⟨t, ht, hlt⟩ := hrecent
    obtain ⟨hbank, hagree⟩ := Dev.repairRow_replaced (d := d.countFix b row m) (by rw [hfix]; exact hrow) (by rw [hfix]; exact hlen)
      (by rw [hfix]; exact ht) hlt
    have hstruck : (((d.countFix b row m).repairRow b row).bank b).struck = rest := by
      rw [hbank, hfix]
      exact (congrArg (Tab.erase · row) hs).trans herase
    refine ⟨rfl, hstruck, ⟨by rw [hbank, hfix]; exact hbad, by rw [hstruck]; exact hrest, ?_, ?_⟩, Eq.trans hagree d.countFix_agree⟩
    · rw [hstruck, hbank, hfix]
      simp only [List.length_append, List.length_cons, List.length_nil] at hroom ⊢
      omega
    · rw [hstruck, hbank, hfix]
      intro r hr
      rcases List.mem_append.mp hr with hr | hr
      · exact hrestapart r hr
      · rw [List.mem_singleton.mp hr]
        exact Tab.get?_none_of_rising hrest (by omega)
  · obtain ⟨hbank, hagree⟩ := Dev.repairRow_rewritten (d := d.countFix b row m) (b := b) (row := row) (by rw [hfix]; exact hrow)
      (by rw [hfix]; exact fun t ht hlt => hrecent ⟨t, ht, hlt⟩)
    have hstruck : (((d.countFix b row m).repairRow b row).bank b).struck = rest := by
      rw [hbank, hfix]
      exact (congrArg (Tab.erase · row) hs).trans herase
    refine ⟨rfl, hstruck, ⟨by rw [hbank, hfix]; exact hbad, by rw [hstruck]; exact hrest, ?_, ?_⟩, Eq.trans hagree d.countFix_agree⟩
    · rw [hstruck, hbank, hfix]
      simp only [List.length_cons] at hroom
      show (d.bank b).replaced.length + rest.length ≤ 4
      omega
    · rw [hstruck, hbank, hfix]
      exact hrestapart

/-- A pass over the struck rows of such a bank repairs them all. -/
theorem Dev.scrubStep_fold {lo n : Nat} (ms : Tab Nat) (h : (d.bank b).Scrubbable lo) (hs : (d.bank b).struck = ms) :
    (((ms.map Prod.fst).foldl (Dev.scrubStep b) (d, n)).1.bank b).struck = [] ∧
    ((ms.map Prod.fst).foldl (Dev.scrubStep b) (d, n)).2 = n + ms.length ∧
    Dev.agree { evt := true, life := true, store := true } ((ms.map Prod.fst).foldl (Dev.scrubStep b) (d, n)).1 d := by
  induction ms generalizing d lo n with
  | nil => exact ⟨hs, rfl, rfl⟩
  | cons e ms ih =>
    obtain ⟨row, m⟩ := e
    obtain ⟨hfixed, hrest, hscrub, hagree⟩ := Dev.scrubRow_first h hs
    obtain ⟨hstruck, hcount, hall⟩ := ih (n := n + 1) hscrub hrest
    have hstep : Dev.scrubStep b (d, n) row = ((d.scrubRow b row).1, n + 1) := by
      rw [Dev.scrubStep, hfixed]; rfl
    rw [List.map_cons, List.foldl_cons, hstep]
    refine ⟨hstruck, ?_, Eq.trans hall hagree⟩
    rw [hcount, List.length_cons]
    omega

end

end Sys2Proof.Machine
end

section
/-!
PROOFS. Banks that fail, and O38.
-/
namespace Sys2Proof.Machine

/-! ## A failed bank stays failed while its region is fenced (R17, R161) -/

section
variable (d : Dev) (k : Nat)

/-- Bank `k` has failed. -/
def Dev.bankFailed (k : Nat) (d : Dev) : Bool := (d.bank k).failed

theorem Dev.bankFailed_of_store {d e : Dev} (h : d.store = e.store) (k : Nat) : d.bankFailed k = e.bankFailed k := by
  rw [Dev.bankFailed, Dev.bankFailed, Dev.bank, Dev.bank, h]

theorem Dev.onBank_failed (b : Nat) (f : Bank → Bank) (hf : ∀ x, (f x).failed = x.failed) :
    (d.onBank b f).bankFailed k = d.bankFailed k := by
  rw [Dev.bankFailed, Dev.bankFailed]
  by_cases h : k = b
  · rw [h, Dev.bank_onBank, hf]
  · rw [Dev.bank_onBank_ne _ _ h]

theorem Dev.writeRow_failed (u : Nat) : (d.writeRow u).bankFailed k = d.bankFailed k := by
  unfold Dev.writeRow Dev.when
  simp only []
  split
  · exact Dev.onBank_failed d k _ _ fun _ => rfl
  · rfl

theorem Dev.releaseUnit_failed (u : Nat) : (d.releaseUnit u).bankFailed k = d.bankFailed k := by
  unfold Dev.releaseUnit
  split
  · rfl
  · split
    · split
      · exact d.writeRow_failed k u
      · rfl
    · rfl

theorem Dev.releaseHolds_failed (i : Nat) : (d.releaseHolds i).bankFailed k = d.bankFailed k := by
  unfold Dev.releaseHolds
  refine Dev.each_keep (Dev.bankFailed k) _ _ (fun u d => ?_) d
  exact (Dev.releaseUnit_failed _ k u).trans rfl

theorem Dev.dissolve_failed (i : Nat) : (d.dissolve i).bankFailed k = d.bankFailed k := by
  unfold Dev.dissolve
  split
  · exact d.releaseHolds_failed k i
  · exact (Dev.releaseHolds_failed _ k i).trans (Dev.each_keep (Dev.bankFailed k) _ Dev.discardRecord (fun _ _ => rfl) d)

theorem Dev.endCoach_failed (i : Nat) (st : Byte) (t : Bool) : (d.endCoach i st t).bankFailed k = d.bankFailed k := by
  unfold Dev.endCoach
  simp only []
  split <;> exact d.dissolve_failed k i

theorem Dev.fenceCoach_failed (i : Nat) : (d.fenceCoach i).bankFailed k = d.bankFailed k := by
  unfold Dev.fenceCoach
  simp only []
  split
  · split
    · exact d.endCoach_failed k i _ _
    · rfl
  · rw [Dev.endCoach_failed]
    split <;> rfl

theorem Dev.fenceRequests_failed (r : Nat) : (d.fenceRequests r).bankFailed k = d.bankFailed k := by
  unfold Dev.fenceRequests
  extract_lets mine e
  refine (Dev.each_keep (Dev.bankFailed k) _ Dev.endSession (fun n d => ?_) e).trans
    (Dev.each_keep (Dev.bankFailed k) mine Dev.fenceCoach (fun i d => d.fenceCoach_failed k i) d)
  exact Dev.bankFailed_of_store (Dev.store_of_mask
    (Dev.endSession_mask (T := { evt := true, life := true, eng := true, net := true }) rfl rfl rfl rfl n d) rfl) k

theorem Dev.fenceRegion_failed {d : Dev} {r : Nat} (cause : Nat) (hr : r < 8) (hf : d.fencedRegion r = false) :
    (d.fenceRegion r cause).bankFailed k = d.bankFailed k := by
  have hreq := (Dev.fenceRequests_failed ((d.fenceMarks r cause).report 8 0 0 0x1002 [r, cause, 0, 0, 0]) k r).trans
    ((Dev.bankFailed_of_store (Dev.report_store ..) k).trans (show (d.fenceMarks r cause).bankFailed k = d.bankFailed k from rfl))
  rw [Dev.fenceRegion_eq hr hf]
  simp only []
  split
  · exact (Dev.bankFailed_of_store (Dev.enterFailsafe_store ..) k).trans hreq
  · exact hreq

end

/-- A bank that fails in an open region fences it with cause 2. -/
theorem Dev.failBank_fences {d : Dev} {b : Nat} (row cause : Nat) (hb : b < 32) (hw : (d.bank b).failed = false)
    (ho : d.fencedRegion (bankRegion b) = false) :
    ((d.failBank b row cause).bank b).failed = true ∧
    (d.failBank b row cause).chip.fenced = setBit d.chip.fenced (bankRegion b) true ∧
    (d.failBank b row cause).chip.fenceCause.get 0 (bankRegion b) = 2 := by
  have hr : bankRegion b < 8 := by unfold bankRegion; omega
  let e := (d.onBank b fun x => { x with failed := true }).reportBank b 0 0x5005 [row, cause, 0, 0, 0]
  have heq : d.failBank b row cause = e.fenceRegion (bankRegion b) 2 := by
    unfold Dev.failBank
    simp only [hw, Bool.false_eq_true, if_false]
    rfl
  have hchip : e.chip = d.chip := Dev.reportBank_chip ..
  have hopen : e.fencedRegion (bankRegion b) = false := (Dev.fencedRegion_of_chip hchip _).trans ho
  have hfailed : e.bankFailed b = true := by
    rw [Dev.bankFailed, Dev.bank_reportBank, Dev.bank_onBank]
  obtain ⟨hfenced, -, hcause, -, -⟩ := Dev.fenceRegion_fenced 2 hr hopen
  rw [heq]
  refine ⟨(Dev.fenceRegion_failed b 2 hr hopen).trans hfailed, hfenced.trans (by rw [hchip]), ?_⟩
  rw [hcause, Tab.get_set_self]

/-- SCRUBBER_ROW_CHECK in an open region. -/
theorem exec_scrubberRowCheck {s : State} {b : BankId} {row : Nat} {us : List Upset} (hl : s.dev.live = true)
    (ho : s.dev.fencedRegion (bankRegion b.val) = false) : exec (.scrubberRowCheck b row us) s = .next { s with
      dev := ((s.dev.strikeBank b.val us).scrubRow b.val row).1 } := by
  have hexec : exec (.scrubberRowCheck b row us) s = execScrubberRowCheck b row us s := rfl
  rw [hexec, execScrubberRowCheck, whenLive_pos hl]
  simp only [ho, Bool.false_eq_true, if_false]

/-- The end of a scrub pass of a bank whose struck rows the pass repairs. -/
theorem exec_camopScrubPassEnd {s : State} {ctx : CtxId} {i bank : Nat} {c : Coach} {us : List Upset} {e : Dev}
    (hl : s.dev.live = true) (hr : s.dev.coachIn ctx.val = some (i, c)) (hw : c.wait = .scrub bank)
    (he : e = s.dev.strikeBank bank us) (hbad : (e.bank bank).shadowBad = [])
    (hrun : ((((e.bank bank).struck.map Prod.fst).foldl (Dev.scrubStep bank) (e, 0)).1.coach i).stage = .running) :
    exec (.camopScrubPassEnd ctx us) s = .next { s with
      dev := (((e.bank bank).struck.map Prod.fst).foldl (Dev.scrubStep bank) (e, 0)).1.endWith i stOk
        (Run.setReg c.current.d (BitVec.ofNat 64
          (((e.bank bank).struck.map Prod.fst).foldl (Dev.scrubStep bank) (e, 0)).2)) } := by
  have hexec : exec (.camopScrubPassEnd ctx us) s = execCamopScrubPassEnd ctx us s := rfl
  have hmap : ((e.bank bank).struck.map fun x => (x.1, ())).map Prod.fst = (e.bank bank).struck.map Prod.fst := by
    rw [List.map_map]; rfl
  rw [hexec, execCamopScrubPassEnd, whenLive_pos hl]
  simp only [hr, hw, ← he, hbad, List.foldl_nil, hmap]
  refine congrArg (fun d => Host.Outcome.next { s with dev := d }) ?_
  exact if_neg (by rw [bne_iff_ne, ne_eq, Classical.not_not]; exact hrun)

/-- Settles O38, by the search of a bank, the repair of a row at its first and at a further fault, and the pass over struck
rows. -/
theorem banksSearchRepairAndScrub : Obligations.BanksSearchRepairAndScrub := by
  refine ⟨⟨?_, ?_, ?_, ?_⟩, ?_⟩
  · intro s b key cls k hl ho hk
    refine ⟨fun hf => ⟨_, exec_assocSearch_clean hl ho hk hf, ?_, fun q hq => ?_, rfl, rfl⟩, ?_⟩
    · rw [Dev.giveWord, Dev.bank_onBank, Dev.countSearch, Dev.bank_onBank]
      cases cls <;> simp
    · rw [Dev.giveWord, Dev.bank_onBank_ne _ _ hq, Dev.countSearch, Dev.bank_onBank_ne _ _ hq]
    · intro us e row m he hs hbad hrep hre hw hf
      exact assocSearch_repairs hl ho hk he hs hbad hrep hre hw hf
  · intro s b row m t us e hl ho he hbad hs hrep hroom hre ht
    obtain ⟨⟨hreplaced, -, -⟩, -, -, hfixes⟩ := s.dev.strikeBank_bank b.val us
    have hchip : e.chip = s.dev.chip := he ▸ Dev.chip_of_mask (s.dev.strikeBank_agree b.val us) rfl
    rw [← he] at hreplaced hfixes
    have hfix := e.countFix_bank (b := b.val) (row := row) (m := m)
    have hfixchip : (e.countFix b.val row m).chip = s.dev.chip := (Dev.chip_of_mask e.countFix_agree rfl).trans hchip
    obtain ⟨hbank, hagree⟩ := Dev.repairRow_replaced (d := e.countFix b.val row m) (by rw [hfix]; exact hrep)
      (by rw [hfix]; exact hroom) (by rw [hfix]; exact hre) (by rw [hfixchip]; exact ht)
    have hexec := exec_scrubberRowCheck (row := row) (us := us) hl ho
    rw [← he, Dev.scrubRow_struck hbad hs] at hexec
    refine ⟨_, hexec, ?_, ?_, ?_, (Dev.chip_of_mask hagree rfl).trans hfixchip⟩
    · rw [hbank, hfix]; exact congrArg bump hfixes
    · rw [hbank]; exact Tab.get?_erase_self ..
    · rw [hbank, hfix]; exact congrArg (· ++ [row]) hreplaced
  · intro s b row hbad hs
    have hexec : exec (.scrubberRowCheck b row []) s = execScrubberRowCheck b row [] s := rfl
    rw [hexec, execScrubberRowCheck, whenLive, onDev_eq]
    simp only [guarded, Dev.strikeBank_nil, Dev.scrubRow_whole hbad hs, ite_self]
  · intro s b row us hl ho hw hbad
    have hagree := s.dev.strikeBank_agree b.val us
    have hchip : (s.dev.strikeBank b.val us).chip = s.dev.chip := Dev.chip_of_mask hagree rfl
    obtain ⟨⟨-, -, hfailed⟩, -⟩ := s.dev.strikeBank_bank b.val us
    have hexec := exec_scrubberRowCheck (row := row) (us := us) hl ho
    rw [Dev.scrubRow_bad hbad] at hexec
    obtain ⟨h1, h2, h3⟩ := Dev.failBank_fences row 2 b.isLt (hfailed.trans hw) ((Dev.fencedRegion_of_chip hchip _).trans ho)
    exact ⟨_, hexec, h1, h2.trans (by rw [hchip]), h3⟩
  · intro s ctx i bank c us e hl hc hr hw he hbad hwf hroom hapart
    obtain ⟨hstruck, hcount, hagree⟩ := Dev.scrubStep_fold (n := 0) (e.bank bank).struck ⟨hbad, hwf, hroom, hapart⟩ rfl
    have hg : Dev.agree { evt := true, life := true, store := true }
        (((e.bank bank).struck.map Prod.fst).foldl (Dev.scrubStep bank) (e, 0)).1 s.dev :=
      Eq.trans hagree (he ▸ Dev.strikeBank_mask rfl bank us s.dev)
    have hnv : (((e.bank bank).struck.map Prod.fst).foldl (Dev.scrubStep bank) (e, 0)).1.nv = s.dev.nv := Dev.nv_of_mask hg rfl
    have hco := (congrArg (fun e => Tab.get? (Engines.coaches e) i) (Dev.eng_of_mask hg rfl)).trans hc
    have hexec := exec_camopScrubPassEnd hl hr hw he hbad
      ((congrArg (·.stage) (Dev.coach_of_some hco)).trans (Dev.coachIn_stage hr))
    rw [hcount, Nat.zero_add] at hexec
    exact ⟨_, _, hexec, Dev.coach?_endWith stOk _ hco, rfl, rfl, hstruck, hnv⟩

end Sys2Proof.Machine
end

section
/-!
PROOFS. Page reads for requests, suspended dies and patrol visits (R213 to R215, R253): O40.
-/
namespace Sys2Proof.Machine

/-! ## Media addresses and sector numbers (R171) -/

section
variable (st c p n : Nat)

theorem regionOfAddr_mkAddr (hc : c < 16) (hp : p < 4096) (hn : n < 16) :
    regionOfAddr (mkAddr st c p n) = st / 2 ^ 22 := by
  unfold regionOfAddr mkAddr
  omega

theorem stripeOf_mkAddr (hc : c < 16) (hp : p < 4096) (hn : n < 16) : stripeOf (mkAddr st c p n) = st := by
  unfold stripeOf mkAddr bits
  omega

theorem channelOf_mkAddr (hc : c < 16) (hp : p < 4096) (hn : n < 16) : channelOf (mkAddr st c p n) = c := by
  unfold channelOf mkAddr bits
  omega

theorem pageOf_mkAddr (hp : p < 4096) (hn : n < 16) : pageOf (mkAddr st c p n) = p := by
  unfold pageOf mkAddr bits
  omega

end

/-! ## Stripes and blocks under the media's small operations -/

section
variable (d : Dev) (k : Nat)

theorem Dev.stripe_of_store {d e : Dev} (h : d.store = e.store) (k : Nat) : d.stripe k = e.stripe k := by
  rw [Dev.stripe, Dev.stripe, h]

theorem Dev.blockEntry_of_store {d e : Dev} (h : d.store = e.store) (k : Nat) : d.blockEntry k = e.blockEntry k := by
  rw [Dev.blockEntry, Dev.blockEntry, h]

theorem Dev.region_of_store {d e : Dev} (h : d.store = e.store) (k : Nat) : d.region k = e.region k := by
  rw [Dev.region, Dev.region, h]

@[simp] theorem Dev.blockEntry_onBlock (f : BlockEntry → BlockEntry) : (d.onBlock k f).blockEntry k = f (d.blockEntry k) := by
  simp [Dev.blockEntry, Dev.onBlock]

theorem Dev.reportDie_store (die code : Nat) (ps : List Nat) : (d.reportDie die code ps).store = d.store :=
  Dev.report_store ..

theorem Dev.reportDie_nv (die code : Nat) (ps : List Nat) : (d.reportDie die code ps).nv = d.nv :=
  Dev.report_nv ..

theorem Dev.stripe_onStripe_ne {x : Nat} (f : Stripe → Stripe) (h : k ≠ x) : (d.onStripe x f).stripe k = d.stripe k := by
  simp [Dev.stripe, Dev.onStripe, Tab.get_update_ne _ _ _ h]

/-- A field of the stripes that a change does not touch keeps its value everywhere. -/
theorem Dev.onStripe_field {α : Type} (p : Stripe → α) (x : Nat) (f : Stripe → Stripe) (hf : ∀ y, p (f y) = p y) :
    p ((d.onStripe x f).stripe k) = p (d.stripe k) := by
  by_cases h : k = x
  · rw [h, Dev.stripe_onStripe, hf]
  · rw [Dev.stripe_onStripe_ne _ _ _ h]

/-- The same for a field of the regions. -/
theorem Dev.onRegion_field {α : Type} (p : Region → α) (x : Nat) (f : Region → Region) (hf : ∀ y, p (f y) = p y) :
    p ((d.onRegion x f).region k) = p (d.region k) := by
  by_cases h : k = x
  · rw [h, Dev.region_onRegion, hf]
  · rw [Dev.region_onRegion_ne _ _ h]

end

/-! ## Reads of a block are counted (R214) -/

section
variable (d : Dev) (st c n : Nat)

/-- A count of reads changes block entries and stripes alone. -/
theorem Dev.countReads_keep {α : Type} (p : Store → α)
    (hp : ∀ (x : Store) b t, p { x with blocks := b, stripes := t } = p x) :
    p (d.countReads st c n).store = p d.store := by
  unfold Dev.countReads Dev.when
  extract_lets b old new limit e
  split
  · exact hp d.store e.store.blocks _
  · exact hp d.store e.store.blocks d.store.stripes

theorem Dev.countReads_region (r : Nat) : (d.countReads st c n).region r = d.region r :=
  d.countReads_keep st c n (fun x => x.regions.get ({} : Region) r) fun _ _ _ => rfl

theorem Dev.countReads_queues : (d.countReads st c n).store.queues = d.store.queues :=
  d.countReads_keep st c n (·.queues) fun _ _ _ => rfl

theorem Dev.countReads_courses : (d.countReads st c n).store.courses = d.store.courses :=
  d.countReads_keep st c n (·.courses) fun _ _ _ => rfl

theorem Dev.countReads_geom : (d.countReads st c n).geom = d.geom :=
  d.countReads_keep st c n (fun x => x.geom.getD ({} : Geometry)) fun _ _ _ => rfl

/-- Of a stripe only the refresh mark can change. -/
theorem Dev.countReads_stripe {α : Type} (p : Stripe → α) (hp : ∀ y, p { y with refresh := true } = p y) (k : Nat) :
    p ((d.countReads st c n).stripe k) = p (d.stripe k) := by
  unfold Dev.countReads Dev.when
  extract_lets b old new limit e
  split
  · exact e.onStripe_field k p st _ hp
  · rfl

theorem Dev.countReads_blockEntry : ((d.countReads st c n).blockEntry (blockKey st c)).reads =
    min ((d.blockEntry (blockKey st c)).reads + n) 4294967295 := by
  unfold Dev.countReads Dev.when
  extract_lets b old new limit e
  have he : (e.blockEntry b).reads = new := by rw [Dev.blockEntry_onBlock]
  split
  · exact he
  · exact he

theorem Dev.countReads_nv : (d.countReads st c n).nv = d.nv :=
  Dev.nv_of_mask (Dev.countReads_mask (T := { store := true }) rfl _ _ _ d) rfl

theorem Dev.countReads_life : (d.countReads st c n).life = d.life :=
  Dev.life_of_mask (Dev.countReads_mask (T := { store := true }) rfl _ _ _ d) rfl

theorem Dev.countReads_keys : (d.countReads st c n).keys = d.keys :=
  Dev.keys_of_mask (Dev.countReads_mask (T := { store := true }) rfl _ _ _ d) rfl

end

/-! ## Sectors that cannot be read (R213) -/

section
variable (d : Dev) (a : Nat)

theorem Dev.retireLater_stripe : ((d.retireLater a).stripe (stripeOf a)).refresh = true ∧
    ((d.retireLater a).stripe (stripeOf a)).retireLater.getLsbD (channelOf a) =
      (setBit (d.stripe (stripeOf a)).retireLater (channelOf a) true).getLsbD (channelOf a) := by
  rw [Dev.retireLater, Dev.stripe_onStripe]
  exact ⟨rfl, rfl⟩

theorem channelOf_lt : channelOf a < 16 := by
  unfold channelOf bits
  omega

/-- What a sector that failed leaves of its stripe: a refresh, and its block marked. -/
def Dev.sectorMarked (d : Dev) (a : Nat) : Prop :=
  (d.stripe (stripeOf a)).refresh = true ∧ (d.stripe (stripeOf a)).retireLater.getLsbD (channelOf a) = true

theorem Dev.retireLater_marked : (d.retireLater a).sectorMarked a := by
  obtain ⟨hr, hl⟩ := d.retireLater_stripe a
  exact ⟨hr, hl.trans (getLsbD_setBit_self _ (channelOf_lt a))⟩

theorem Dev.sectorMarked_of_store {d e : Dev} {a : Nat} (h : d.store = e.store) (he : e.sectorMarked a) : d.sectorMarked a := by
  rw [Dev.sectorMarked, Dev.stripe_of_store h]
  exact he

/-- A lost sector is counted in its region, and its stripe marked. -/
theorem Dev.lostSector_counts (cause : Nat) :
    ((d.lostSector a cause).region (regionOfAddr a)).uncorr = bump (d.region (regionOfAddr a)).uncorr ∧
      (d.lostSector a cause).sectorMarked a := by
  unfold Dev.lostSector
  extract_lets x e
  refine ⟨?_, Dev.sectorMarked_of_store (Dev.reportDie_store ..) (Dev.retireLater_marked ..)⟩
  rw [Dev.region_of_store (Dev.reportDie_store ..)]
  exact congrArg Region.uncorr (d.region_onRegion (regionOfAddr a) fun y => { y with uncorr := bump y.uncorr })

/-- A rebuilt one likewise. -/
theorem Dev.rebuiltSector_counts :
    ((d.rebuiltSector a).region (regionOfAddr a)).rebuilds = bump (d.region (regionOfAddr a)).rebuilds ∧
      (d.rebuiltSector a).sectorMarked a := by
  unfold Dev.rebuiltSector
  extract_lets e
  refine ⟨?_, Dev.sectorMarked_of_store (Dev.reportDie_store ..) (Dev.retireLater_marked ..)⟩
  rw [Dev.region_of_store (Dev.reportDie_store ..)]
  exact congrArg Region.rebuilds (d.region_onRegion (regionOfAddr a) fun y => { y with rebuilds := bump y.rebuilds })

theorem Dev.failedSector_nv (b : Bool) : (d.failedSector a b).nv = d.nv :=
  Dev.nv_of_mask (Dev.failedSector_mask (T := { store := true, evt := true, life := true }) rfl rfl rfl a b d) rfl

end

/-! ## Page reads for requests (R213, R214, R253) -/

section
variable (d : Dev)

/-- Whether a sector can be rebuilt does not turn on counts of reads. -/
theorem Dev.rebuildable_congr {d e : Dev} (st page : Nat) (hk : (d.stripe st).kept = (e.stripe st).kept)
    (hc : d.store.courses = e.store.courses) : d.rebuildable st page = e.rebuildable st page := by
  rw [Dev.rebuildable, Dev.rebuildable, Dev.coursesOn, Dev.coursesOn, hk, hc]

theorem Dev.suspendFor_nv (die : Nat) : (d.suspendFor die).nv = d.nv :=
  Dev.nv_of_mask (Dev.suspendFor_mask (T := { store := true }) rfl die d) rfl

/-- A suspension changes die queues alone. -/
theorem Dev.suspendFor_keep {α : Type} (die : Nat) (p : Store → α) (hp : ∀ (x : Store) q, p { x with queues := q } = p x) :
    p (d.suspendFor die).store = p d.store := by
  unfold Dev.suspendFor
  extract_lets q
  split
  · exact hp _ _
  · rfl

/-- What a page read counts before its outcome is looked at. -/
def Dev.pageCounted (die : DieId) (st c : Nat) (retried good : Bool) (iterations : Nat) (cls : ClassId) (d : Dev) : Dev :=
  ((d.when (cls.val == 7) (Dev.suspendFor die.val)).countReads st c 1).onLife fun l => { l with
    ldpc := l.ldpc.update 0 (die.val / 256 * 32 + if retried || !good then 31 else min 30 iterations) bump
    dies := if retried then l.dies.update 0 (die.val * 4 + 3) bump else l.dies }

variable {d} {die : DieId} {st c : Nat} {retried good : Bool} {n : Nat} {cls : ClassId}

/-- The die may be suspended and reads counted: nothing else in the store changes. -/
theorem Dev.pageCounted_keep {α : Type} (p : Store → α)
    (hp : ∀ (x : Store) b t q, p { x with blocks := b, stripes := t, queues := q } = p x) :
    p (d.pageCounted die st c retried good n cls).store = p d.store := by
  rw [Dev.pageCounted]
  refine ((Dev.countReads_keep _ st c 1 p fun x b t => hp x b t x.queues)).trans ?_
  unfold Dev.when
  split
  · exact d.suspendFor_keep _ p fun x q => hp x x.blocks x.stripes q
  · rfl

theorem Dev.pageCounted_region (r : Nat) : (d.pageCounted die st c retried good n cls).region r = d.region r :=
  Dev.pageCounted_keep (fun x => x.regions.get ({} : Region) r) fun _ _ _ _ => rfl

theorem Dev.pageCounted_nv : (d.pageCounted die st c retried good n cls).nv = d.nv := by
  rw [Dev.pageCounted]
  refine (Dev.countReads_nv ..).trans ?_
  unfold Dev.when
  split
  · exact d.suspendFor_nv _
  · rfl

theorem Dev.pageCounted_kept (k : Nat) : ((d.pageCounted die st c retried good n cls).stripe k).kept = (d.stripe k).kept := by
  rw [Dev.pageCounted]
  refine (Dev.countReads_stripe _ st c 1 Stripe.kept (fun _ => rfl) k).trans ?_
  unfold Dev.when
  split
  · exact d.suspendFor_keep _ (fun x => (x.stripes.get ({} : Stripe) k).kept) fun _ _ => rfl
  · rfl

theorem Dev.pageCounted_rebuildable (page : Nat) :
    (d.pageCounted die st c retried good n cls).rebuildable st page = d.rebuildable st page :=
  Dev.rebuildable_congr _ _ (Dev.pageCounted_kept _) (Dev.pageCounted_keep (·.courses) fun _ _ _ _ => rfl)

end

/-- A page read of a sector of the geometry outside a flush. -/
structure Dev.Reads (d : Dev) (x : DieId) (plane : Fin 4) (block page : Nat) (sector : Fin 16) : Prop where
  live : d.live = true
  formatted : d.store.geom.isSome = true
  holds : d.geom.holds x.val plane.val block page sector.val = true
  flush : d.pfail.flush = .none

/-- What becomes of a page read's sector `a` of stripe `st`. -/
def Dev.pageOutcome (st a : Nat) (out : SectorResult) (again : Bool) (d : Dev) : Dev :=
  if out = .good then d.when again (Dev.queueRefresh st) else d.failedSector a (out == .rebuilt)

/-- PAGE_READ_COMPLETE is its counts and then the sector's outcome. -/
theorem exec_pageReadComplete {s : State} {x : DieId} {plane : Fin 4} {block page : Nat} {sector : Fin 16}
    (h : s.dev.Reads x plane block page sector) (retried : Bool) (n : Nat) (out : SectorResult) (cls : ClassId) {st : Nat}
    (hst : st = x.val / 256 * 2 ^ 22 + x.val % 16 * 262144 + plane.val * 65536 + block) :
    exec (.pageReadComplete x plane block page sector retried n out cls) s =
      .next { s with
        dev := (s.dev.pageCounted x st (dieChannel x.val) retried (out == .good) n cls).pageOutcome st
          (mkAddr st (dieChannel x.val) page sector.val) out (retried || decide (12 < n)) } := by
  subst hst
  have hexec : exec (.pageReadComplete x plane block page sector retried n out cls) s =
    execPageReadComplete x plane block page sector retried n out cls s := rfl
  rw [hexec, execPageReadComplete, onDev_guarded (by simp [h.live, h.formatted, h.holds, h.flush])]
  rfl

section
variable (d : Dev) (st a : Nat)

theorem Dev.pageOutcome_nv (out : SectorResult) (again : Bool) : (d.pageOutcome st a out again).nv = d.nv := by
  unfold Dev.pageOutcome Dev.when
  split
  · split
    · rfl
    · rfl
  · exact d.failedSector_nv a _

/-- A sector read good leaves what is not of the stripes. -/
theorem Dev.pageOutcome_good (again : Bool) : (d.pageOutcome st a .good again).store.queues = d.store.queues := by
  unfold Dev.pageOutcome Dev.when
  split
  · split
    · rfl
    · rfl
  · contradiction

theorem Dev.pageOutcome_lost {out : SectorResult} (again : Bool)
    (h : out = .failed ∨ (out = .rebuilt ∧ d.rebuildable (stripeOf a) (pageOf a) = false)) :
    d.pageOutcome st a out again = d.lostSector a 1 := by
  obtain rfl | ⟨rfl, h⟩ := h
  · rfl
  · simp [Dev.pageOutcome, Dev.failedSector, h]

theorem Dev.pageOutcome_rebuilt (again : Bool) (h : d.rebuildable (stripeOf a) (pageOf a) = true) :
    d.pageOutcome st a .rebuilt again = d.rebuiltSector a := by
  simp [Dev.pageOutcome, Dev.failedSector, h]

end

/-- The requested clauses of `Obligations.ReadsOfTheMedia` on one page read. -/
theorem pageRead_good {s : State} {x : DieId} {plane : Fin 4} {block page : Nat} {sector : Fin 16} {n st : Nat}
    {cls : ClassId} (h : s.dev.Reads x plane block page sector)
    (hst : st = x.val / 256 * 2 ^ 22 + x.val % 16 * 262144 + plane.val * 65536 + block) (hc : cls.val ≠ 7) (hn : n ≤ 12) :
    ∃ d', exec (.pageReadComplete x plane block page sector false n .good cls) s = .next { s with dev := d' } ∧
      (d'.blockEntry (blockKey st (dieChannel x.val))).reads =
        min ((s.dev.blockEntry (blockKey st (dieChannel x.val))).reads + 1) 4294967295 ∧
      d'.life.ldpc.get 0 (x.val / 256 * 32 + n) = bump (s.dev.life.ldpc.get 0 (x.val / 256 * 32 + n)) ∧
      d'.store.queues = s.dev.store.queues ∧ d'.nv = s.dev.nv := by
  have hquiet : s.dev.when (cls.val == 7) (Dev.suspendFor x.val) = s.dev := by simp [Dev.when, hc]
  have hagain : (false || decide (12 < n)) = false := by simpa using hn
  have hbin : min 30 n = n := by omega
  refine ⟨_, exec_pageReadComplete h _ _ _ _ hst, ?_⟩
  rw [hagain, Dev.pageOutcome, if_pos rfl, Dev.when, if_neg Bool.false_ne_true, Dev.pageCounted, hquiet]
  refine ⟨Dev.countReads_blockEntry .., ?_, Dev.countReads_queues .., Dev.countReads_nv ..⟩
  have hl : ((s.dev.countReads st (dieChannel x.val) 1).life.ldpc.update 0 (x.val / 256 * 32 + min 30 n) bump).get 0
      (x.val / 256 * 32 + n) = bump (s.dev.life.ldpc.get 0 (x.val / 256 * 32 + n)) := by
    rw [hbin, Tab.get_update_self, Dev.countReads_life]
  exact hl

theorem pageRead_suspends {s : State} {x : DieId} {plane : Fin 4} {block page : Nat} {sector : Fin 16} {n st : Nat}
    {cls : ClassId} (h : s.dev.Reads x plane block page sector)
    (hst : st = x.val / 256 * 2 ^ 22 + x.val % 16 * 262144 + plane.val * 65536 + block) (hc : cls.val = 7)
    (hbusy : s.dev.dieBusy x.val = true) (hspent : (s.dev.store.queues.get {} x.val).spent = false)
    (hsus : (s.dev.store.queues.get {} x.val).suspended = false) :
    ∃ d', exec (.pageReadComplete x plane block page sector false n .good cls) s = .next { s with dev := d' } ∧
      d'.store.queues.get? x.val = some { s.dev.store.queues.get {} x.val with
        suspended := true, since := s.dev.chip.tick } ∧ d'.nv = s.dev.nv := by
  have hwhen : s.dev.when (cls.val == 7) (Dev.suspendFor x.val) = s.dev.suspendFor x.val := by simp [Dev.when, hc]
  refine ⟨_, exec_pageReadComplete h _ _ _ _ hst, ?_, (Dev.pageOutcome_nv ..).trans Dev.pageCounted_nv⟩
  rw [Dev.pageOutcome_good, Dev.pageCounted, hwhen]
  have hq : ((s.dev.suspendFor x.val).countReads st (dieChannel x.val) 1).store.queues = _ := Dev.countReads_queues ..
  refine (congrArg (Tab.get? · x.val) hq).trans ?_
  simp [Dev.suspendFor, hbusy, hspent, hsus, Dev.onStore]

theorem pageRead_loses {s : State} {x : DieId} {plane : Fin 4} {block page : Nat} {sector : Fin 16} {n st : Nat}
    {cls : ClassId} (h : s.dev.Reads x plane block page sector) (hb : block < 65536) (hp : page < 4096)
    (hst : st = x.val / 256 * 2 ^ 22 + x.val % 16 * 262144 + plane.val * 65536 + block) {out : SectorResult}
    (hout : out = .failed ∨ (out = .rebuilt ∧ s.dev.rebuildable st page = false)) :
    ∃ d', exec (.pageReadComplete x plane block page sector true n out cls) s = .next { s with dev := d' } ∧
      (d'.region (x.val / 256)).uncorr = bump (s.dev.region (x.val / 256)).uncorr ∧ (d'.stripe st).refresh = true ∧
      (d'.stripe st).retireLater.getLsbD (dieChannel x.val) = true ∧ d'.nv = s.dev.nv := by
  have hch : dieChannel x.val < 16 := Nat.mod_lt _ (by decide)
  have hs := stripeOf_mkAddr st _ _ _ hch hp sector.isLt
  have hcn := channelOf_mkAddr st _ _ _ hch hp sector.isLt
  have hr : regionOfAddr (mkAddr st (dieChannel x.val) page sector.val) = x.val / 256 :=
    (regionOfAddr_mkAddr st _ _ _ hch hp sector.isLt).trans (by omega)
  refine ⟨_, exec_pageReadComplete h _ _ _ _ hst, ?_⟩
  have hnv := Dev.pageOutcome_nv (s.dev.pageCounted x st (dieChannel x.val) true (out == .good) n cls) st
    (mkAddr st (dieChannel x.val) page sector.val) out (true || decide (12 < n))
  rw [Dev.pageOutcome_lost] at hnv ⊢
  · obtain ⟨hu, hm, hl⟩ := Dev.lostSector_counts (s.dev.pageCounted x st (dieChannel x.val) true (out == .good) n cls)
      (mkAddr st (dieChannel x.val) page sector.val) 1
    rw [hr, Dev.pageCounted_region] at hu
    rw [hs] at hm
    rw [hs, hcn] at hl
    exact ⟨hu, hm, hl, hnv.trans Dev.pageCounted_nv⟩
  all_goals rwa [hs, pageOf_mkAddr st _ _ _ hp sector.isLt, Dev.pageCounted_rebuildable]

theorem pageRead_rebuilds {s : State} {x : DieId} {plane : Fin 4} {block page : Nat} {sector : Fin 16} {n st : Nat}
    {cls : ClassId} (h : s.dev.Reads x plane block page sector) (hb : block < 65536) (hp : page < 4096)
    (hst : st = x.val / 256 * 2 ^ 22 + x.val % 16 * 262144 + plane.val * 65536 + block)
    (hre : s.dev.rebuildable st page = true) :
    ∃ d', exec (.pageReadComplete x plane block page sector true n .rebuilt cls) s = .next { s with dev := d' } ∧
      (d'.region (x.val / 256)).rebuilds = bump (s.dev.region (x.val / 256)).rebuilds ∧ (d'.stripe st).refresh = true ∧
      (d'.stripe st).retireLater.getLsbD (dieChannel x.val) = true ∧ d'.nv = s.dev.nv := by
  have hch : dieChannel x.val < 16 := Nat.mod_lt _ (by decide)
  have hs := stripeOf_mkAddr st _ _ _ hch hp sector.isLt
  have hcn := channelOf_mkAddr st _ _ _ hch hp sector.isLt
  have hr : regionOfAddr (mkAddr st (dieChannel x.val) page sector.val) = x.val / 256 :=
    (regionOfAddr_mkAddr st _ _ _ hch hp sector.isLt).trans (by omega)
  refine ⟨_, exec_pageReadComplete h _ _ _ _ hst, ?_⟩
  have hnv := Dev.pageOutcome_nv (s.dev.pageCounted x st (dieChannel x.val) true (SectorResult.rebuilt == .good) n cls) st
    (mkAddr st (dieChannel x.val) page sector.val) .rebuilt (true || decide (12 < n))
  rw [Dev.pageOutcome_rebuilt] at hnv ⊢
  · obtain ⟨hu, hm, hl⟩ := Dev.rebuiltSector_counts
      (s.dev.pageCounted x st (dieChannel x.val) true (SectorResult.rebuilt == .good) n cls)
      (mkAddr st (dieChannel x.val) page sector.val)
    rw [hr, Dev.pageCounted_region] at hu
    rw [hs] at hm
    rw [hs, hcn] at hl
    exact ⟨hu, hm, hl, hnv.trans Dev.pageCounted_nv⟩
  all_goals rwa [hs, pageOf_mkAddr st _ _ _ hp sector.isLt, Dev.pageCounted_rebuildable]

/-! ## Suspended dies (R253) -/

section
variable {s : State} (x : DieId) {q : DieQueue} (hl : s.dev.live = true) (hq : s.dev.store.queues.get? x.val = some q)
  (hs : q.suspended = true)
include hl hq hs

theorem programEraseResume_resumes : ∃ d', exec (.programEraseResume x) s = .next { s with dev := d' } ∧
    d'.store.queues.get? x.val = some { q with
      suspended := false, held := q.held + (s.dev.chip.tick - q.since) } ∧ d'.nv = s.dev.nv ∧
    d'.store.courses = s.dev.store.courses := by
  have hexec : exec (.programEraseResume x) s = execProgramEraseResume x s := rfl
  rw [execProgramEraseResume, whenLive_pos hl] at hexec
  exact ⟨_, hexec, by simp [Dev.onStore, hq, DieQueue.resume, hs], rfl, rfl⟩

theorem suspendLimitExpiry_expires (h : 10 ≤ q.held + (s.dev.chip.tick - q.since)) :
    ∃ d', exec (.suspendLimitExpiry x) s = .next { s with dev := d' } ∧
      d'.store.queues.get? x.val = some { q with
        suspended := false, spent := true, held := q.held + (s.dev.chip.tick - q.since) } ∧ d'.nv = s.dev.nv := by
  have hexec : exec (.suspendLimitExpiry x) s = execSuspendLimitExpiry x s := rfl
  rw [execSuspendLimitExpiry, whenLive_pos hl] at hexec
  exact ⟨_, hexec, by simp [Dev.onStore, hq, DieQueue.expire, DieQueue.resume, hs, h], rfl⟩

theorem suspendLimitExpiry_waits (h : q.held + (s.dev.chip.tick - q.since) < 10) :
    ∃ d', exec (.suspendLimitExpiry x) s = .next { s with dev := d' } ∧ d'.store.queues.get? x.val = some q := by
  have hexec : exec (.suspendLimitExpiry x) s = execSuspendLimitExpiry x s := rfl
  rw [execSuspendLimitExpiry, whenLive_pos hl] at hexec
  exact ⟨_, hexec, by simp [Dev.onStore, hq, DieQueue.expire, DieQueue.resume, hs]; omega⟩

end

/-! ## Patrol (R215) -/

section
variable (d : Dev) (r st c : Nat)

theorem Dev.patrolRound_blockEntry (b : Nat) : (d.patrolRound r).blockEntry b = d.blockEntry b := by
  unfold Dev.patrolRound Dev.when
  extract_lets x
  split
  · rfl
  · rfl

theorem Dev.patrolRound_geom : (d.patrolRound r).geom = d.geom := by
  unfold Dev.patrolRound Dev.when
  extract_lets x
  split
  · rfl
  · rfl

/-- The end of a visit lists the block, and leaves stripes and block entries. -/
theorem Dev.patrolDone_lists : ((d.patrolDone r st c).region r).patrolled = (st * 16 + c) :: (d.region r).patrolled ∧
    (∀ b, (d.patrolDone r st c).blockEntry b = d.blockEntry b) ∧ ∀ k, (d.patrolDone r st c).stripe k = d.stripe k := by
  unfold Dev.patrolDone
  extract_lets x seen all left e
  have he : (e.region r).patrolled = seen := by rw [show e.region r = _ from Dev.region_onRegion ..]
  split
  · have hf := Dev.reportRegion_store r 0x600A [3, x.offTime, 0, 0, 0] (e.onRegion r fun y => { y with wake := false })
    refine ⟨?_, fun b => Dev.blockEntry_of_store hf b, fun k => Dev.stripe_of_store hf k⟩
    rw [Dev.region_of_store hf, Dev.region_onRegion]
    exact he
  · exact ⟨he, fun _ => rfl, fun _ => rfl⟩

theorem Dev.each_same {α : Type} (l : List α) : Dev.each l (fun _ e => e) d = d := by
  induction l with
  | nil => rfl
  | cons _ _ ih => exact ih

/-- Page groups that show nothing leave the device. -/
theorem Dev.patrolFound_nothing (l : List Nat) (page : Nat → Nat) :
    Dev.each l (fun i => Dev.patrolFound st c (page i) (([] : List PageFound).getD i {})) d = d := by
  have h : (fun i => Dev.patrolFound st c (page i) (([] : List PageFound).getD i {})) = fun _ e => e := rfl
  rw [h, Dev.each_same]

/-- The two page groups chosen at random are drawn. -/
def Dev.drawn (d : Dev) : Dev := { d with free := d.free + 2 }

theorem Dev.drawn_geom : d.drawn.geom = d.geom := rfl

/-- A visit that finds nothing to rebuild. -/
def Dev.patrolClean (r st c : Nat) (hard : Bool) (d : Dev) : Dev :=
  (((d.drawn).countReads st c (4 * d.drawn.geom.bpc)).when hard (Dev.queueRefresh st)).patrolDone r st c

end

/-- A patrol visit counts the reads of four page groups, refreshes a stripe that is hard to read and lists the block. -/
theorem patrolVisit_clean {s : State} (r : RegionId) (st : Nat) (ch : Fin 16) (hard : Bool) {e : Dev}
    (ht : s.dev.tending r.val = true) (he : e = s.dev.patrolRound r.val) (hn : e.patrolNext r.val st ch.val = true)
    (hd : e.patrolDue r.val = true) :
    exec (.patrolVisit r st ch [] hard) s = .next { s with dev := e.patrolClean r.val st ch.val hard } := by
  subst he
  have hexec : exec (.patrolVisit r st ch [] hard) s = execPatrolVisit r st ch [] hard s := rfl
  rw [hexec, execPatrolVisit, onDev_guarded (by simp [ht, hn, hd])]
  simp only [Dev.patrolFound_nothing]
  rfl

section
variable (d : Dev) (r st c : Nat) (hard : Bool)

/-- Before the visit is listed: the reads counted, and the stripe marked where it was hard to read. -/
def Dev.patrolCounted (st c : Nat) (hard : Bool) (d : Dev) : Dev :=
  (d.drawn.countReads st c (4 * d.drawn.geom.bpc)).when hard (Dev.queueRefresh st)

theorem Dev.patrolCounted_keep {α : Type} (p : Store → α)
    (hp : ∀ (x : Store) b t, p { x with blocks := b, stripes := t } = p x) :
    p (d.patrolCounted st c hard).store = p d.store := by
  refine Eq.trans ?_ (Dev.countReads_keep d.drawn st c (4 * d.drawn.geom.bpc) p hp)
  rw [Dev.patrolCounted, Dev.when]
  generalize d.drawn.countReads st c (4 * d.drawn.geom.bpc) = e
  split
  · exact hp e.store e.store.blocks _
  · rfl

theorem Dev.patrolCounted_reads : ((d.patrolCounted st c hard).blockEntry (blockKey st c)).reads =
    min ((d.blockEntry (blockKey st c)).reads + 4 * d.geom.bpc) 4294967295 := by
  rw [← d.drawn_geom]
  refine Eq.trans ?_ (Dev.countReads_blockEntry d.drawn st c (4 * d.drawn.geom.bpc))
  rw [Dev.patrolCounted, Dev.when]
  generalize d.drawn.countReads st c (4 * d.drawn.geom.bpc) = e
  split
  · rfl
  · rfl

theorem Dev.patrolCounted_hard : ((d.patrolCounted st c true).stripe st).refresh = true := by
  rw [Dev.patrolCounted, Dev.when, if_pos rfl, Dev.queueRefresh, Dev.stripe_onStripe]

theorem Dev.patrolClean_eq : d.patrolClean r st c hard = (d.patrolCounted st c hard).patrolDone r st c := rfl

/-- A visit that finds nothing keeps the media and the keys. -/
theorem Dev.patrolClean_nv : (d.patrolClean r st c hard).nv = d.nv :=
  (Dev.nv_of_mask (Dev.patrolDone_mask (T := { store := true, evt := true, life := true }) rfl rfl rfl ..) rfl).trans
    ((Dev.nv_of_mask (Dev.when_mask (T := { store := true }) _ _ _ fun e => Dev.queueRefresh_mask rfl st e) rfl).trans
      (Dev.countReads_nv ..))

theorem Dev.patrolClean_keys : (d.patrolClean r st c hard).keys = d.keys :=
  (Dev.keys_of_mask (Dev.patrolDone_mask (T := { store := true, evt := true, life := true }) rfl rfl rfl ..) rfl).trans
    ((Dev.keys_of_mask (Dev.when_mask (T := { store := true }) _ _ _ fun e => Dev.queueRefresh_mask rfl st e) rfl).trans
      (Dev.countReads_keys ..))

theorem Dev.patrolRound_nv : (d.patrolRound r).nv = d.nv :=
  Dev.nv_of_mask (Dev.patrolRound_mask (T := { store := true }) rfl r d) rfl

theorem Dev.patrolRound_keys : (d.patrolRound r).keys = d.keys :=
  Dev.keys_of_mask (Dev.patrolRound_mask (T := { store := true }) rfl r d) rfl

end

theorem patrolVisit_counts {s : State} (r : RegionId) (st : Nat) (ch : Fin 16) (hard : Bool) {e : Dev}
    (ht : s.dev.tending r.val = true) (he : e = s.dev.patrolRound r.val) (hn : e.patrolNext r.val st ch.val = true)
    (hd : e.patrolDue r.val = true) :
    ∃ d', exec (.patrolVisit r st ch [] hard) s = .next { s with dev := d' } ∧
      (d'.blockEntry (blockKey st ch.val)).reads =
        min ((s.dev.blockEntry (blockKey st ch.val)).reads + 4 * s.dev.geom.bpc) 4294967295 ∧
      (hard = true → (d'.stripe st).refresh = true) ∧
      (d'.region r.val).patrolled = (st * 16 + ch.val) :: (e.region r.val).patrolled ∧
      d'.nv = s.dev.nv ∧ d'.keys = s.dev.keys := by
  have hexec := patrolVisit_clean r st ch hard ht he hn hd
  obtain ⟨hp, hb, hst⟩ := (e.patrolCounted st ch.val hard).patrolDone_lists r.val st ch.val
  rw [← Dev.patrolClean_eq] at hp hb hst
  have hnv : e.nv = s.dev.nv := he ▸ Dev.patrolRound_nv ..
  have hkeys : e.keys = s.dev.keys := he ▸ Dev.patrolRound_keys ..
  refine ⟨_, hexec, ?_, fun hh => ?_, hp.trans ?_, (Dev.patrolClean_nv ..).trans hnv, (Dev.patrolClean_keys ..).trans hkeys⟩
  · rw [hb, Dev.patrolCounted_reads, he, Dev.patrolRound_blockEntry, Dev.patrolRound_geom]
  · subst hh
    rw [hst, Dev.patrolCounted_hard]
  · exact congrArg _ (e.patrolCounted_keep st ch.val hard
      (fun x => (x.regions.get ({} : Region) r.val).patrolled) fun _ _ _ => rfl)

/-- Settles O40, by the counts of a page read before its outcome, the two marks that a failed sector leaves, the die
queue's own cases, and a patrol visit whose page groups show nothing. -/
theorem readsOfTheMedia : Obligations.ReadsOfTheMedia := by
  unfold Obligations.ReadsOfTheMedia
  refine ⟨?_, ?_, ?_⟩
  · intro s x plane block page sector n st cls hl hg hh hb hp hf hst
    have h : s.dev.Reads x plane block page sector := ⟨hl, hg, hh, hf⟩
    exact ⟨fun hc hn => pageRead_good h hst hc hn, fun hc h1 h2 h3 => pageRead_suspends h hst hc h1 h2 h3,
      fun out ho => pageRead_loses h hb hp hst ho, fun hre => pageRead_rebuilds h hb hp hst hre⟩
  · intro s x q hl hq hs
    exact ⟨programEraseResume_resumes x hl hq hs, suspendLimitExpiry_expires x hl hq hs, suspendLimitExpiry_waits x hl hq hs⟩
  · intro s r st ch hard e ht he hn hd
    exact patrolVisit_counts r st ch hard ht he hn hd

end Sys2Proof.Machine
end

section
/-!
PROOFS. Blocks, dies and stripes that are retired, and stripes opened and erased (R203, R205, R210): O41.
-/
namespace Sys2Proof.Machine

/-! ## Blocks, dies and stripes that are retired (R203, R211) -/

section
variable (d : Dev) (st c : Nat)

theorem Dev.retireStripe_state : ((d.retireStripe st).stripe st).state = .retired := by
  rw [Dev.retireStripe, Dev.stripe_of_store (Dev.reportRegion_store ..), Dev.stripe_onStripe]

theorem Dev.retireStripe_keep {α : Type} (p : Store → α) (hp : ∀ (x : Store) t, p { x with stripes := t } = p x) :
    p (d.retireStripe st).store = p d.store := by
  rw [Dev.retireStripe, Dev.reportRegion_store]
  exact hp _ _

theorem Dev.retireStripe_nv : (d.retireStripe st).nv = d.nv := by
  rw [Dev.retireStripe, Dev.reportRegion_nv]
  rfl

theorem Dev.retireIfShort_keep {α : Type} (p : Store → α) (hp : ∀ (x : Store) t, p { x with stripes := t } = p x) :
    p (d.retireIfShort st).store = p d.store := by
  unfold Dev.retireIfShort Dev.when
  split
  · exact d.retireStripe_keep st p hp
  · rfl

/-- Only its state, its generation for erase and its seals are those of a stripe that is retired as short. -/
theorem Dev.retireIfShort_stripe {α : Type} (p : Stripe → α)
    (hp : ∀ y : Stripe, p { y with state := .retired, raised := false, epochGens := [] } = p y) (k : Nat) :
    p ((d.retireIfShort st).stripe k) = p (d.stripe k) := by
  unfold Dev.retireIfShort Dev.when
  split
  · rw [Dev.retireStripe, Dev.stripe_of_store (Dev.reportRegion_store ..)]
    exact d.onStripe_field k p st _ hp
  · rfl

theorem Dev.setDie_keep {α : Type} (die new : Nat) (p : Store → α) (hp : ∀ (x : Store) t, p { x with dies := t } = p x) :
    p (d.setDie die new).store = p d.store := by
  unfold Dev.setDie
  extract_lets old
  rw [Dev.reportDie_store]
  exact hp _ _

/-- A block that is retired may take its die and its stripe with it; nothing else in the store changes. -/
theorem Dev.retireBlock_keep {α : Type} (state egen : Nat) (p : Store → α)
    (hp : ∀ (x : Store) b i t, p { x with blocks := b, dies := i, stripes := t } = p x) :
    p (d.retireBlock st c state egen).store = p d.store := by
  unfold Dev.retireBlock
  extract_lets b die e1 e2 e3 e e4
  split
  · rfl
  · refine (Dev.retireIfShort_keep _ _ p fun x t => hp x x.blocks x.dies t).trans ?_
    have h4 : p e4.store = p d.store := by
      rw [show e4.store = e3.store from Dev.reportDie_store ..]
      exact hp d.store e1.store.blocks _ d.store.stripes
    unfold Dev.when
    split
    · exact (Dev.setDie_keep _ _ _ p fun x t => hp x x.blocks t x.stripes).trans h4
    · exact h4

theorem Dev.retireBlock_state (state egen : Nat) (h : (d.blockEntry (blockKey st c)).state = 0) :
    ((d.retireBlock st c state egen).blockEntry (blockKey st c)).state = state := by
  unfold Dev.retireBlock
  extract_lets b die e1 e2 e3 e e4
  rw [if_neg (Classical.not_not.mpr h)]
  refine (Dev.retireIfShort_keep _ _ (fun x => (x.blocks.get ({} : BlockEntry) b).state) fun _ _ => rfl).trans ?_
  have h1 : (e1.blockEntry b).state = state := by rw [show e1.blockEntry b = _ from d.blockEntry_onBlock b _]
  have h4 : (e4.blockEntry b).state = state := by
    rw [Dev.blockEntry_of_store (Dev.reportDie_store ..)]
    exact h1
  unfold Dev.when
  split
  · exact (Dev.setDie_keep _ _ _ (fun x => (x.blocks.get ({} : BlockEntry) b).state) fun _ _ => rfl).trans h4
  · exact h4

theorem Dev.retireBlock_nv (state egen : Nat) : (d.retireBlock st c state egen).nv = d.nv :=
  Dev.nv_of_mask (Dev.retireBlock_mask (T := { store := true, evt := true, life := true }) rfl rfl rfl ..) rfl

/-! ## Erases of members (R210) -/

theorem Dev.eraseBlock_keep {α : Type} (p : Store → α) (hp : ∀ (x : Store) b, p { x with blocks := b } = p x) :
    p (d.eraseBlock st c).store = p d.store := hp _ _

theorem Dev.eraseBlock_entry : (d.eraseBlock st c).blockEntry (blockKey st c) =
    { d.blockEntry (blockKey st c) with erases := (d.blockEntry (blockKey st c)).erases + 1, reads := 0 } :=
  Dev.blockEntry_onBlock ..

/-- An erase leaves nothing of the block on the media. -/
theorem Dev.eraseBlock_flash : ∀ e ∈ (d.eraseBlock st c).nv.flash, e ∈ d.nv.flash ∧ (stripeOf e.1 ≠ st ∨ channelOf e.1 ≠ c) := by
  intro e he
  obtain ⟨hm, hs⟩ := List.mem_filter.mp he
  exact ⟨hm, by simpa [Classical.not_and_iff_not_or_not] using hs⟩

/-- A field of the block entries that a change does not touch keeps its value everywhere. -/
theorem Dev.onBlock_field {α : Type} (p : BlockEntry → α) (x k : Nat) (f : BlockEntry → BlockEntry) (hf : ∀ y, p (f y) = p y) :
    p ((d.onBlock x f).blockEntry k) = p (d.blockEntry k) := by
  by_cases h : k = x
  · rw [h, Dev.blockEntry_onBlock, hf]
  · exact congrArg p (Tab.get_update_ne ({} : BlockEntry) d.store.blocks f h)

/-- Who is present turns on the states of the blocks and the geometry. -/
theorem Dev.presentFor_congr {d e : Dev} (hs : ∀ k, (d.blockEntry k).state = (e.blockEntry k).state)
    (hr : ∀ k, (d.blockEntry k).retireEgen = (e.blockEntry k).retireEgen) (hg : d.geom = e.geom) (egen : Nat) :
    d.presentFor st egen = e.presentFor st egen := by
  simp only [Dev.presentFor, hs, hr, hg]

/-- An erase changes the counts of a block's entry alone. -/
theorem Dev.eraseBlock_field {α : Type} (p : BlockEntry → α) (hp : ∀ y n, p { y with erases := n, reads := 0 } = p y) (k : Nat) :
    p ((d.eraseBlock st c).blockEntry k) = p (d.blockEntry k) :=
  d.onBlock_field p (blockKey st c) k (fun e => { e with erases := e.erases + 1, reads := 0 }) fun y => hp y _

theorem Dev.eraseBlock_geom : (d.eraseBlock st c).geom = d.geom := rfl

theorem Dev.eraseBlock_presentFor (s egen : Nat) : (d.eraseBlock st c).presentFor s egen = d.presentFor s egen :=
  Dev.presentFor_congr s (d.eraseBlock_field st c BlockEntry.state fun _ _ => rfl)
    (d.eraseBlock_field st c BlockEntry.retireEgen fun _ _ => rfl) (d.eraseBlock_geom st c) egen

theorem Dev.eraseBlock_stripe (k : Nat) : (d.eraseBlock st c).stripe k = d.stripe k := rfl

theorem Dev.failErase_keep {α : Type} (p : Store → α)
    (hp : ∀ (x : Store) r b i t, p { x with regions := r, blocks := b, dies := i, stripes := t } = p x) :
    p (d.failErase st c).store = p d.store := by
  unfold Dev.failErase
  extract_lets e1 e2
  refine (Dev.retireBlock_keep _ _ _ _ _ p fun x b i t => hp x x.regions b i t).trans ?_
  rw [show e2.store = e1.store from Dev.reportDie_store ..]
  exact hp d.store _ d.store.blocks d.store.dies d.store.stripes

theorem Dev.failErase_state (h : (d.blockEntry (blockKey st c)).state = 0) :
    ((d.failErase st c).blockEntry (blockKey st c)).state = 2 := by
  unfold Dev.failErase
  extract_lets e1 e2
  refine Dev.retireBlock_state _ _ _ _ _ ?_
  rw [Dev.blockEntry_of_store (show e2.store = e1.store from Dev.reportDie_store ..)]
  exact h

theorem Dev.failErase_counts : ((d.failErase st c).region (stripeRegion st)).eraseFails =
    bump (d.region (stripeRegion st)).eraseFails := by
  unfold Dev.failErase
  extract_lets e1 e2
  refine (Dev.retireBlock_keep _ _ _ _ _ (fun x => (x.regions.get ({} : Region) (stripeRegion st)).eraseFails)
    fun _ _ _ _ => rfl).trans ?_
  rw [show e2.store = e1.store from Dev.reportDie_store ..]
  exact congrArg Region.eraseFails (d.region_onRegion (stripeRegion st) fun x => { x with eraseFails := bump x.eraseFails })

theorem Dev.failErase_nv : (d.failErase st c).nv = d.nv :=
  Dev.nv_of_mask (Dev.failErase_mask (T := { store := true, evt := true, life := true }) rfl rfl rfl ..) rfl

end

/-! ## A front takes a stripe (R205) -/

section
variable (d : Dev) (f x : Nat)

theorem Dev.takeStripe_front : ((d.takeStripe f x).front f).stripe = some x ∧ ((d.takeStripe f x).front f).next = 0 := by
  unfold Dev.takeStripe
  extract_lets e1 e2
  rw [Dev.front_onFront]
  exact ⟨rfl, rfl⟩

theorem Dev.takeStripe_stripe : (d.takeStripe f x).stripe x =
    { state := .opened, egen := (d.stripe x).egen, kept := frontKept f, present := d.presentFor x (d.stripe x).egen } :=
  by exact d.stripe_onStripe x fun y =>
    { state := .opened, egen := y.egen, kept := frontKept f, present := d.presentFor x y.egen }

theorem Dev.takeStripe_keep {α : Type} (p : Store → α)
    (hp : ∀ (y : Store) t r f, p { y with stripes := t, padRuns := r, fronts := f } = p y) :
    p (d.takeStripe f x).store = p d.store := by
  unfold Dev.takeStripe
  extract_lets e1 e2
  exact hp d.store e1.store.stripes e2.store.padRuns _

/-- A generation that is not a multiple of 4,096 rises on its own. -/
theorem Dev.raiseEgen_of_mod (h : ((d.stripe x).egen + 1) % 4096 ≠ 0) : d.raiseEgen x =
    d.onStripe x fun y => { y with egen := (d.stripe x).egen + 1, raised := true } := by
  unfold Dev.raiseEgen
  extract_lets e d1 d2
  rw [if_neg h]

end

/-- STRIPE_OPEN outside a flush, where no eligible stripe is short: the stripe that is chosen is taken or prepared. -/
theorem exec_stripeOpen {s : State} (f : FrontId) {x : Nat} (ht : s.dev.tending (frontRegion f.val) = true)
    (hs : (s.dev.front f.val).stripe = none) (hp : (s.dev.front f.val).preparing = none)
    (hall : (s.dev.eligible (frontRegion f.val)).all (fun y => decide (12 ≤ (channelsOf (s.dev.membersNext y)).length)) = true)
    (hx : s.dev.chooseStripe f.val = some x) : ∃ d', exec (.stripeOpen f) s = .next { s with dev := d' } ∧
      d' = if (s.dev.stripe x).erased then s.dev.takeStripe f.val x
        else (s.dev.raiseEgen x).onFront f.val fun y =>
          { y with preparing := some (x, (s.dev.raiseEgen x).presentFor x ((s.dev.raiseEgen x).stripe x).egen) } := by
  have hexec : exec (.stripeOpen f) s = execStripeOpen f s := rfl
  have hflush : s.dev.pfail.flush = .none := by
    simp only [Dev.tending, Bool.and_eq_true, beq_iff_eq] at ht
    exact ht.2
  have hpoor : (s.dev.eligible (frontRegion f.val)).filter
      (fun y => decide ((channelsOf (s.dev.membersNext y)).length < 12)) = [] := by
    refine List.filter_eq_nil_iff.mpr fun y hy => ?_
    have := of_decide_eq_true (List.all_eq_true.mp hall y hy)
    simpa using this
  rw [execStripeOpen, onDev_guarded (by simp [ht, hs, hp])] at hexec
  refine ⟨_, hexec, ?_⟩
  have heach : Dev.each [] Dev.retireStripe s.dev = s.dev := rfl
  have hno : (FlushStage.none != FlushStage.none) = false := rfl
  simp only [hflush, hpoor, heach, hx, hno, Bool.false_eq_true, if_false]

/-- The die's queue after an operation. -/
def Dev.queueCleared (x c : Nat) (d : Dev) : Dev :=
  d.onStore fun y => { y with queues := y.queues.set (stripeDie x c) {} }

/-- BLOCK_ERASE_COMPLETE after the erase itself: the queue of the die is clean, and the front goes on. -/
def Dev.memberErased (f x c : Nat) (left : BitVec 16) (d : Dev) : Dev :=
  let d := d.onStore fun y => { y with queues := y.queues.set (stripeDie x c) {} }
  if setBit left c false ≠ 0 then d.onFront f fun y => { y with preparing := some (x, setBit left c false) }
  else if 12 ≤ (channelsOf (d.presentFor x (d.stripe x).egen)).length then d.takeStripe f x
  else (d.retireStripe x).onFront f fun y => { y with preparing := none }

theorem exec_blockEraseComplete {s : State} (f : FrontId) (ch : Fin 16) {x : Nat} {left : BitVec 16} (ok : Bool)
    (ht : s.dev.tending (frontRegion f.val) = true) (hp : (s.dev.front f.val).preparing = some (x, left))
    (hc : left.getLsbD ch.val = true) (hg : s.dev.sealedAll (s.dev.stripe x).epochGens = true)
    (hq : (s.dev.store.queues.get {} (stripeDie x ch.val)).suspended = false) :
    exec (.blockEraseComplete f ch ok) s = .next { s with
      dev := (if ok then s.dev.eraseBlock x ch.val else s.dev.failErase x ch.val).memberErased f.val x ch.val left } := by
  have hexec : exec (.blockEraseComplete f ch ok) s = execBlockEraseComplete f ch ok s := rfl
  rw [hexec, execBlockEraseComplete, onDev_guarded ht]
  simp only [hp, hc, hg, hq, Bool.not_true, Bool.or_self, Bool.false_eq_true, if_false]
  rfl

section
variable (d : Dev) (f x c : Nat) (left : BitVec 16)

/-- The die's queue has nothing of the erase left. -/
theorem Dev.memberErased_eq : d.memberErased f x c left =
    if setBit left c false ≠ 0 then (d.queueCleared x c).onFront f fun y => { y with preparing := some (x, setBit left c false) }
    else if 12 ≤ (channelsOf (d.presentFor x (d.stripe x).egen)).length then (d.queueCleared x c).takeStripe f x
    else ((d.queueCleared x c).retireStripe x).onFront f fun y => { y with preparing := none } := rfl

theorem Dev.memberErased_nv : (d.memberErased f x c left).nv = d.nv := by
  unfold Dev.memberErased
  extract_lets e
  split
  · rfl
  · split
    · rfl
    · exact e.retireStripe_nv x

theorem Dev.memberErased_keep {α : Type} (p : Store → α)
    (hp : ∀ (y : Store) q t r f, p { y with queues := q, stripes := t, padRuns := r, fronts := f } = p y) :
    p (d.memberErased f x c left).store = p d.store := by
  have he : ∀ q, p { d.store with queues := q } = p d.store := fun q => hp d.store q d.store.stripes d.store.padRuns d.store.fronts
  unfold Dev.memberErased
  extract_lets e
  split
  · exact (hp e.store e.store.queues e.store.stripes e.store.padRuns _).trans (he _)
  · split
    · exact (e.takeStripe_keep f x p fun y t r f => hp y y.queues t r f).trans (he _)
    · exact (hp (e.retireStripe x).store _ _ _ _).trans
        ((e.retireStripe_keep x p fun y t => hp y y.queues t y.padRuns y.fronts).trans (he _))

theorem Dev.memberErased_more (h : setBit left c false ≠ 0) :
    ((d.memberErased f x c left).front f).preparing = some (x, setBit left c false) := by
  rw [Dev.memberErased_eq, if_pos h, Dev.front_onFront]

theorem Dev.memberErased_last (h : setBit left c false = 0)
    (h12 : 12 ≤ (channelsOf (d.presentFor x (d.stripe x).egen)).length) :
    ((d.memberErased f x c left).front f).stripe = some x ∧ ((d.memberErased f x c left).stripe x).state = .opened := by
  rw [Dev.memberErased_eq, if_neg (Classical.not_not.mpr h), if_pos h12]
  exact ⟨(Dev.takeStripe_front ..).1, by rw [Dev.takeStripe_stripe]⟩

theorem Dev.memberErased_short (h : setBit left c false = 0)
    (h12 : (channelsOf (d.presentFor x (d.stripe x).egen)).length < 12) :
    ((d.memberErased f x c left).front f).preparing = none ∧ ((d.memberErased f x c left).stripe x).state = .retired := by
  rw [Dev.memberErased_eq, if_neg (Classical.not_not.mpr h), if_neg (Nat.not_le.mpr h12)]
  exact ⟨by rw [Dev.front_onFront], (d.queueCleared x c).retireStripe_state x⟩

end

section
variable {s : State} (f : FrontId) (ch : Fin 16) {x : Nat} {left : BitVec 16}
  (ht : s.dev.tending (frontRegion f.val) = true) (hp : (s.dev.front f.val).preparing = some (x, left))
  (hc : left.getLsbD ch.val = true) (hg : s.dev.sealedAll (s.dev.stripe x).epochGens = true)
  (hq : (s.dev.store.queues.get {} (stripeDie x ch.val)).suspended = false)
include ht hp hc hg hq

/-- A member erased is counted, holds nothing, and lets its front go on. -/
theorem blockEraseComplete_good : ∃ d', exec (.blockEraseComplete f ch true) s = .next { s with dev := d' } ∧
    (d'.blockEntry (blockKey x ch.val)).erases = (s.dev.blockEntry (blockKey x ch.val)).erases + 1 ∧
    (d'.blockEntry (blockKey x ch.val)).reads = 0 ∧
    (∀ e ∈ d'.nv.flash, stripeOf e.1 ≠ x ∨ channelOf e.1 ≠ ch.val) ∧
    (setBit left ch.val false ≠ 0 → (d'.front f.val).preparing = some (x, setBit left ch.val false)) ∧
    (setBit left ch.val false = 0 → 12 ≤ (channelsOf (s.dev.presentFor x (s.dev.stripe x).egen)).length →
      (d'.front f.val).stripe = some x ∧ (d'.stripe x).state = .opened) ∧
    (setBit left ch.val false = 0 → (channelsOf (s.dev.presentFor x (s.dev.stripe x).egen)).length < 12 →
      (d'.front f.val).preparing = none ∧ (d'.stripe x).state = .retired) := by
  have hexec := exec_blockEraseComplete f ch true ht hp hc hg hq
  rw [if_pos rfl] at hexec
  have hst : (s.dev.eraseBlock x ch.val).presentFor x ((s.dev.eraseBlock x ch.val).stripe x).egen =
      s.dev.presentFor x (s.dev.stripe x).egen := by
    rw [Dev.eraseBlock_presentFor, Dev.eraseBlock_stripe]
  have hentry := s.dev.eraseBlock_entry x ch.val
  have hflash := s.dev.eraseBlock_flash x ch.val
  rw [← hst]
  generalize s.dev.eraseBlock x ch.val = e at hexec hentry hflash
  have hb : ∀ k, (e.memberErased f.val x ch.val left).blockEntry k = e.blockEntry k := fun k =>
    Dev.memberErased_keep _ _ _ _ _ (fun y => y.blocks.get ({} : BlockEntry) k) fun _ _ _ _ _ => rfl
  refine ⟨_, hexec, ?_, ?_, ?_, e.memberErased_more f.val x ch.val left, e.memberErased_last f.val x ch.val left,
    e.memberErased_short f.val x ch.val left⟩
  · rw [hb, hentry]
  · rw [hb, hentry]
  · rw [Dev.memberErased_nv]
    exact fun y hy => (hflash y hy).2

/-- A member that cannot be erased is retired and counted. -/
theorem blockEraseComplete_failed (h0 : (s.dev.blockEntry (blockKey x ch.val)).state = 0) :
    ∃ d', exec (.blockEraseComplete f ch false) s = .next { s with dev := d' } ∧
      (d'.blockEntry (blockKey x ch.val)).state = 2 ∧
      (d'.region (stripeRegion x)).eraseFails = bump (s.dev.region (stripeRegion x)).eraseFails ∧ d'.nv = s.dev.nv := by
  have hexec := exec_blockEraseComplete f ch false ht hp hc hg hq
  rw [if_neg Bool.false_ne_true] at hexec
  have hstate := s.dev.failErase_state x ch.val h0
  have hcount := s.dev.failErase_counts x ch.val
  have hnv := s.dev.failErase_nv x ch.val
  generalize s.dev.failErase x ch.val = e at hexec hstate hcount hnv
  refine ⟨_, hexec, Eq.trans ?_ hstate, Eq.trans ?_ hcount, (e.memberErased_nv f.val x ch.val left).trans hnv⟩
  · exact e.memberErased_keep f.val x ch.val left (fun y => (y.blocks.get ({} : BlockEntry) (blockKey x ch.val)).state)
      fun _ _ _ _ _ => rfl
  · exact e.memberErased_keep f.val x ch.val left (fun y => (y.regions.get ({} : Region) (stripeRegion x)).eraseFails)
      fun _ _ _ _ _ => rfl

end

/-- Settles O41, by the stripe that STRIPE_OPEN takes or prepares and, for an erase that completes, the block's entry and
what its front does next. -/
theorem stripesAreOpenedAndErased : Obligations.StripesAreOpenedAndErased := by
  unfold Obligations.StripesAreOpenedAndErased
  refine ⟨fun s f x ht hs hp hall hx => ?_, fun s f ch x left ht hp hc hg hq =>
    ⟨blockEraseComplete_good f ch ht hp hc hg hq, blockEraseComplete_failed f ch ht hp hc hg hq⟩⟩
  obtain ⟨d', hexec, hd⟩ := exec_stripeOpen f ht hs hp hall hx
  refine ⟨fun he => ⟨d', hexec, ?_⟩, fun he hm => ⟨d', hexec, ?_⟩⟩
  · rw [he, if_pos rfl] at hd
    subst hd
    obtain ⟨h1, h2⟩ := s.dev.takeStripe_front f.val x
    exact ⟨h1, h2, s.dev.takeStripe_stripe f.val x, rfl⟩
  · rw [he, if_neg Bool.false_ne_true, s.dev.raiseEgen_of_mod x hm] at hd
    subst hd
    rw [Dev.front_onFront]
    have hst : (s.dev.onStripe x fun y => { y with egen := (s.dev.stripe x).egen + 1, raised := true }).stripe x = _ :=
      s.dev.stripe_onStripe x _
    exact ⟨hs, by rw [hst]; rfl, hst, rfl⟩

end Sys2Proof.Machine
end

section
/-!
PROOFS. What keystones, reservations and wear change of the store (R193, R211, R222).
-/
namespace Sys2Proof.Machine

/-! ## What a change of one table keeps of the store -/

section
variable {α : Type} (d : Dev) (k : Nat) (p : Store → α)

theorem Dev.onRegion_keep (f : Region → Region) (hp : ∀ (y : Store) t, p { y with regions := t } = p y) :
    p (d.onRegion k f).store = p d.store := hp _ _

theorem Dev.onBlock_keep (f : BlockEntry → BlockEntry) (hp : ∀ (y : Store) t, p { y with blocks := t } = p y) :
    p (d.onBlock k f).store = p d.store := hp _ _

theorem Dev.onStripe_keep (f : Stripe → Stripe) (hp : ∀ (y : Store) t, p { y with stripes := t } = p y) :
    p (d.onStripe k f).store = p d.store := hp _ _

theorem Dev.onFront_keep (f : Front → Front) (hp : ∀ (y : Store) t, p { y with fronts := t } = p y) :
    p (d.onFront k f).store = p d.store := hp _ _

@[simp] theorem Dev.media_onMedia (f : RegionMedia → RegionMedia) : (d.onMedia k f).media k = f (d.media k) :=
  Tab.get_update_self ..

end

/-! ## Keystones (R193, R222) -/

section
variable (d : Dev) (r b k : Nat) (x : Keystone) (fate : KeystoneFate)

theorem Dev.eraseKeystones_keep {α : Type} (p : Store → α) (hp : ∀ (y : Store) t, p { y with blocks := t } = p y) :
    p (d.eraseKeystones r b).store = p d.store := hp _ _

theorem Dev.programKeystone_keep {α : Type} (p : Store → α)
    (hp : ∀ (y : Store) t n, p { y with blocks := t, nextWsn := n } = p y) :
    p (d.programKeystone r b x).store = p d.store := by
  unfold Dev.programKeystone
  extract_lets page d1 q a d2
  refine (hp d2.store d2.store.blocks _).trans ?_
  have h2 : p d2.store = p d1.store := rfl
  have h1 : p d1.store = p d.store := by
    unfold d1 Dev.when
    split
    · exact d.eraseKeystones_keep r b p fun y t => hp y t y.nextWsn
    · rfl
  exact h2.trans h1

theorem Dev.keystoneFailed_keep {α : Type} (p : Store → α)
    (hp : ∀ (y : Store) s t, p { y with regions := s, blocks := t } = p y) :
    p (d.keystoneFailed r b).store = p d.store := by
  unfold Dev.keystoneFailed
  extract_lets a
  rw [Dev.reportDie_store]
  exact (Dev.onRegion_keep _ r p _ fun y s => hp y s y.blocks).trans (d.onBlock_keep _ p _ fun y t => hp y y.regions t)

theorem Dev.keystoneFailed_region {α : Type} (p : Region → α) (hp : ∀ y : Region, p { y with keystoneSingle := true } = p y) :
    p ((d.keystoneFailed r b).region k) = p (d.region k) := by
  unfold Dev.keystoneFailed
  extract_lets a
  rw [Dev.region_of_store (Dev.reportDie_store ..)]
  exact Dev.onRegion_field _ k p r _ hp

theorem Dev.keystoneFailed_single : ((d.keystoneFailed r b).region r).keystoneSingle = true := by
  unfold Dev.keystoneFailed
  extract_lets a
  rw [Dev.region_of_store (Dev.reportDie_store ..), Dev.region_onRegion]

theorem Dev.programKeystone_region : (d.programKeystone r b x).region k = d.region k :=
  d.programKeystone_keep r b x (fun y => y.regions.get ({} : Region) k) fun _ _ _ => rfl

theorem Dev.eraseKeystones_region : (d.eraseKeystones r b).region k = d.region k := rfl

/-- A keystone changes block entries, the next sequence number and the mark of a single block. -/
theorem Dev.putKeystone_keep {α : Type} (p : Store → α)
    (hp : ∀ (y : Store) s t n, p { y with regions := s, blocks := t, nextWsn := n } = p y) :
    p (d.putKeystone fate r x).store = p d.store := by
  have hprog : ∀ (e : Dev) c, p (e.programKeystone r c x).store = p e.store := fun e c =>
    e.programKeystone_keep r c x p fun y t n => hp y y.regions t n
  have herase : ∀ c, p (d.eraseKeystones r c).store = p d.store := fun c =>
    d.eraseKeystones_keep r c p fun y t => hp y y.regions t y.nextWsn
  unfold Dev.putKeystone
  extract_lets c e
  split
  · exact hprog d c
  · split
    · exact (hprog _ _).trans ((e.keystoneFailed_keep r c p fun y s t => hp y s t y.nextWsn).trans (herase c))
    · exact (hprog e c).trans (herase c)

theorem Dev.putKeystone_region {α : Type} (p : Region → α) (hp : ∀ y : Region, p { y with keystoneSingle := true } = p y) :
    p ((d.putKeystone fate r x).region k) = p (d.region k) := by
  unfold Dev.putKeystone
  extract_lets c e
  split
  · rw [Dev.programKeystone_region]
  · split
    · rw [Dev.programKeystone_region, Dev.keystoneFailed_region _ _ _ _ p hp]
      rfl
    · rw [Dev.programKeystone_region]
      rfl

/-- The keystone that was written last is the one at the head of the region's list. -/
theorem Dev.programKeystone_head : ∃ q w, ((d.programKeystone r b x).media r).keystones.head? =
    some { x with block := b, page := q, wsn := w } := by
  unfold Dev.programKeystone
  extract_lets page d1 q a d2
  refine ⟨q, d2.store.nextWsn, ?_⟩
  exact congrArg (fun m : RegionMedia => m.keystones.head?) (d2.media_onMedia r fun m => { m with
      keystones := { x with block := b, page := q, wsn := d2.store.nextWsn } :: m.keystones
      keyNext := if b = 0 then (q + 1, m.keyNext.2) else (m.keyNext.1, q + 1) })

theorem Dev.putKeystone_head : ∃ c q w, ((d.putKeystone fate r x).media r).keystones.head? =
    some { x with block := c, page := q, wsn := w } := by
  unfold Dev.putKeystone
  extract_lets c e
  split
  · exact ⟨c, d.programKeystone_head r c x⟩
  · split
    · exact ⟨1 - c, Dev.programKeystone_head _ r (1 - c) x⟩
    · exact ⟨c, e.programKeystone_head r c x⟩

/-- An erase of its keystones does not tell a block dead. -/
theorem Dev.keystoneDead_eraseKeystones (c : Nat) : (d.eraseKeystones r b).keystoneDead r c = d.keystoneDead r c := by
  have hm : ((d.eraseKeystones r b).media r).newest = (d.media r).newest := by
    unfold Dev.eraseKeystones
    extract_lets a
    rw [Dev.media_onMedia]
    rfl
  have hg : (d.eraseKeystones r b).geom = d.geom := rfl
  have ha : (d.eraseKeystones r b).keystoneAddr r c = d.keystoneAddr r c := by
    rw [Dev.keystoneAddr, Dev.keystoneAddr, hm, hg]
  rw [Dev.keystoneDead, Dev.keystoneDead, ha]
  exact congrArg (· == 1) (d.eraseBlock_field _ _ BlockEntry.state (fun _ _ => rfl) _)

/-- A block that fails twice while the other one is good leaves the region with one (R222). -/
theorem Dev.putKeystone_single (h : d.keystoneDead r (1 - d.keystoneBlockOf r x.kseq) = false) :
    ((d.putKeystone .failed r x).region r).keystoneSingle = true := by
  unfold Dev.putKeystone
  extract_lets c e
  have hd : e.keystoneDead r (1 - c) = false := (d.keystoneDead_eraseKeystones r c _).trans h
  rw [if_neg (by decide), if_pos ⟨rfl, hd⟩, Dev.programKeystone_region]
  exact e.keystoneFailed_single r c

end

/-! ## What wears out stays worn out (R211) -/

/-- From `d` to `e` no die comes back into service, no block loses the mark of a program failure, no failure of a program
is counted or forgotten, and the geometry stays. -/
structure Dev.WornFrom (d e : Dev) : Prop where
  dies : ∀ k, (d.die k).state ≠ 0 → (e.die k).state = (d.die k).state
  blocks : ∀ k, (d.blockEntry k).state = 1 → (e.blockEntry k).state = 1
  fails : ∀ r, (e.region r).progFails = (d.region r).progFails
  geom : e.store.geom = d.store.geom

theorem Dev.WornFrom.refl (d : Dev) : d.WornFrom d := ⟨fun _ _ => rfl, fun _ h => h, fun _ => rfl, rfl⟩

theorem Dev.WornFrom.trans {d e f : Dev} (h : d.WornFrom e) (g : e.WornFrom f) : d.WornFrom f where
  dies k hk := (g.dies k ((h.dies k hk).symm ▸ hk)).trans (h.dies k hk)
  blocks k hk := g.blocks k (h.blocks k hk)
  fails r := (g.fails r).trans (h.fails r)
  geom := g.geom.trans h.geom

theorem Dev.WornFrom.each {α : Type} {f : α → Dev → Dev} (hf : ∀ a (d : Dev), d.WornFrom (f a d)) (l : List α) (d : Dev) :
    d.WornFrom (Dev.each l f d) :=
  Dev.each_invariant l (fun a _ _ h => h.trans (hf a _)) d (.refl d)

theorem Dev.WornFrom.when {f : Dev → Dev} (c : Bool) (hf : ∀ d : Dev, d.WornFrom (f d)) (d : Dev) : d.WornFrom (d.when c f) := by
  cases c with
  | false => exact .refl d
  | true => exact hf d

/-- What leaves dies, blocks and regions alone. -/
theorem Dev.WornFrom.of_store {d e : Dev} (hd : e.store.dies = d.store.dies) (hb : e.store.blocks = d.store.blocks)
    (hr : e.store.regions = d.store.regions) (hg : e.store.geom = d.store.geom) : d.WornFrom e where
  dies k _ := by rw [Dev.die, Dev.die, hd]
  blocks k h := by rwa [Dev.blockEntry, hb]
  fails r := by rw [Dev.region, Dev.region, hr]
  geom := hg

theorem Dev.WornFrom.onRegion (r : Nat) (f : Region → Region) (hf : ∀ y, (f y).progFails = y.progFails) (d : Dev) :
    d.WornFrom (d.onRegion r f) where
  dies _ _ := rfl
  blocks _ h := h
  fails k := d.onRegion_field k Region.progFails r f hf
  geom := rfl

theorem Dev.WornFrom.report (region block cell code : Nat) (params : List Nat) (d : Dev) :
    d.WornFrom (d.report region block cell code params) :=
  .of_store (congrArg Store.dies (Dev.report_store ..)) (congrArg Store.blocks (Dev.report_store ..))
    (congrArg Store.regions (Dev.report_store ..)) (congrArg Store.geom (Dev.report_store ..))

theorem Dev.WornFrom.onMedia (r : Nat) (f : RegionMedia → RegionMedia) (d : Dev) : d.WornFrom (d.onMedia r f) :=
  .of_store rfl rfl rfl rfl

theorem Dev.WornFrom.onLife (f : Lifetime → Lifetime) (d : Dev) : d.WornFrom (d.onLife f) := .of_store rfl rfl rfl rfl

theorem Dev.WornFrom.takeWsn (n : Nat) (d : Dev) : d.WornFrom (d.takeWsn n) := .of_store rfl rfl rfl rfl

theorem Dev.WornFrom.eraseBlock (st c : Nat) (d : Dev) : d.WornFrom (d.eraseBlock st c) where
  dies _ _ := rfl
  blocks k h := (d.eraseBlock_field st c BlockEntry.state (fun _ _ => rfl) k).trans h
  fails _ := rfl
  geom := rfl

theorem Dev.WornFrom.eraseKeystones (r b : Nat) (d : Dev) : d.WornFrom (d.eraseKeystones r b) := by
  unfold Dev.eraseKeystones
  extract_lets a
  exact (eraseBlock (stripeOf a) (channelOf a) d).trans (onMedia ..)

theorem Dev.WornFrom.programKeystone (r b : Nat) (x : Keystone) (d : Dev) : d.WornFrom (d.programKeystone r b x) := by
  unfold Dev.programKeystone
  extract_lets page d1 q a d2
  have h1 : d.WornFrom d1 := when _ (eraseKeystones r b) d
  exact h1.trans ((onLife _ d1).trans ((onMedia r _ d2).trans (takeWsn ..)))

theorem Dev.WornFrom.markBlock (b : Nat) (d : Dev) : d.WornFrom (d.onBlock b fun e => { e with state := 1 }) where
  dies _ _ := rfl
  blocks k h := by
    by_cases hk : k = b
    · rw [hk, Dev.blockEntry_onBlock]
    · exact (congrArg BlockEntry.state (Tab.get_update_ne ({} : BlockEntry) d.store.blocks (fun e => { e with state := 1 }) hk)).trans h
  fails _ := rfl
  geom := rfl

theorem Dev.WornFrom.keystoneFailed (r b : Nat) (d : Dev) : d.WornFrom (d.keystoneFailed r b) := by
  unfold Dev.keystoneFailed
  extract_lets a
  exact (markBlock (blockKey (stripeOf a) (channelOf a)) d).trans
    ((onRegion r (fun x => { x with keystoneSingle := true }) (fun _ => rfl) _).trans (report ..))

theorem Dev.WornFrom.putKeystone (fate : KeystoneFate) (r : Nat) (x : Keystone) (d : Dev) :
    d.WornFrom (d.putKeystone fate r x) := by
  unfold Dev.putKeystone
  extract_lets c e
  split
  · exact programKeystone r c x d
  · have he : d.WornFrom e := eraseKeystones r c d
    split
    · exact he.trans ((keystoneFailed r c e).trans (programKeystone ..))
    · exact he.trans (programKeystone ..)

theorem Dev.WornFrom.writeKeystone (fate : KeystoneFate) (r : Nat) (d : Dev) : d.WornFrom (d.writeKeystone fate r) := by
  unfold Dev.writeKeystone
  extract_lets x last m
  exact (onRegion r (fun x => { x with kseq := x.kseq + 1 }) (fun _ => rfl) d).trans (putKeystone fate r m _)

theorem Dev.WornFrom.writeKeystones (d : Dev) : d.WornFrom d.writeKeystones := each (fun r _ => writeKeystone _ r _) _ d

theorem Dev.WornFrom.reserveWsn (n : Nat) (d : Dev) : d.WornFrom (d.reserveWsn n) := by
  unfold Dev.reserveWsn
  split
  · exact .refl d
  · have h : d.WornFrom (d.onStore fun x => { x with wsnLimit := x.wsnLimit + 2 ^ 32 }) := .of_store rfl rfl rfl rfl
    exact h.trans (writeKeystones _)

/-! ## Sequence numbers are reserved (R222) -/

section
variable (d : Dev) (r k n : Nat)

theorem Dev.writeKeystone_keep {α : Type} (fate : KeystoneFate) (p : Store → α)
    (hp : ∀ (y : Store) s t n, p { y with regions := s, blocks := t, nextWsn := n } = p y) :
    p (d.writeKeystone fate r).store = p d.store := by
  unfold Dev.writeKeystone
  extract_lets x last m
  exact (Dev.putKeystone_keep _ r m fate p hp).trans (hp d.store _ d.store.blocks d.store.nextWsn)

theorem Dev.writeKeystones_keep {α : Type} (p : Store → α)
    (hp : ∀ (y : Store) s t n, p { y with regions := s, blocks := t, nextWsn := n } = p y) :
    p d.writeKeystones.store = p d.store :=
  Dev.each_keep (fun e => p e.store) _ (fun r d => d.writeKeystone (d.keystoneFate r) r)
    (fun r e => e.writeKeystone_keep r _ p hp) d

theorem Dev.reserveWsn_keep {α : Type} (p : Store → α)
    (hp : ∀ (y : Store) s t n m, p { y with regions := s, blocks := t, nextWsn := n, wsnLimit := m } = p y) :
    p (d.reserveWsn n).store = p d.store := by
  unfold Dev.reserveWsn
  split
  · rfl
  · exact (Dev.writeKeystones_keep _ p fun y s t n => hp y s t n y.wsnLimit).trans
      (hp d.store d.store.regions d.store.blocks d.store.nextWsn _)

theorem Dev.writeKeystone_region {α : Type} (fate : KeystoneFate) (p : Region → α)
    (hp : ∀ (y : Region) n b, p { y with kseq := n, keystoneSingle := b } = p y) :
    p ((d.writeKeystone fate r).region k) = p (d.region k) := by
  unfold Dev.writeKeystone
  extract_lets x last m
  exact (Dev.putKeystone_region _ r k m fate p fun y => hp y y.kseq true).trans
    (d.onRegion_field k p r _ fun y => hp y _ y.keystoneSingle)

/-- Of a region a reservation changes the number of its keystones and the mark of a single block. -/
theorem Dev.reserveWsn_region {α : Type} (p : Region → α)
    (hp : ∀ (y : Region) n b, p { y with kseq := n, keystoneSingle := b } = p y) :
    p ((d.reserveWsn n).region k) = p (d.region k) := by
  unfold Dev.reserveWsn
  split
  · rfl
  · exact Dev.each_keep (fun e => p (e.region k)) _ (fun r d => d.writeKeystone (d.keystoneFate r) r)
      (fun r e => e.writeKeystone_region r k _ p hp) _

theorem Dev.reserveWsn_enough (h : d.store.nextWsn + n + wsnMargin ≤ d.store.wsnLimit) : d.reserveWsn n = d := by
  rw [Dev.reserveWsn, if_pos h]

end
end Sys2Proof.Machine
end

section
/-!
PROOFS. Units, blocks and dies that fail, and fences that complete (R16, R17, R209, R211): O37.
-/
namespace Sys2Proof.Machine

section
variable (d : Dev) (k : Nat)

/-- Change a die's entry. -/
def Dev.onDie (k : Nat) (f : DieEntry → DieEntry) : Dev → Dev :=
  Dev.onStore fun x => { x with dies := x.dies.update {} k f }

@[simp] theorem Dev.die_onDie (f : DieEntry → DieEntry) : (d.onDie k f).die k = f (d.die k) := by simp [Dev.die, Dev.onDie]

theorem Dev.die_onDie_ne {j : Nat} (f : DieEntry → DieEntry) (h : j ≠ k) : (d.onDie k f).die j = d.die j := by
  simp [Dev.die, Dev.onDie, Tab.get_update_ne _ _ _ h]

theorem Dev.die_of_store {d e : Dev} (h : d.store = e.store) (k : Nat) : d.die k = e.die k := by
  rw [Dev.die, Dev.die, h]

theorem Dev.setDie_eq (new : Nat) : d.setDie k new =
    (d.onDie k fun y => { y with state := new }).reportDie k 0x6004 [k, new, (d.die k).state, 0, 0] := rfl

end

/-! ## Fronts and courses leave wear alone (R206 to R209) -/

namespace Dev.WornFrom

theorem onStripe (k : Nat) (f : Stripe → Stripe) (d : Dev) : d.WornFrom (d.onStripe k f) := .of_store rfl rfl rfl rfl

theorem onFront (k : Nat) (f : Front → Front) (d : Dev) : d.WornFrom (d.onFront k f) := .of_store rfl rfl rfl rfl

theorem onCourse (k : Nat) (f : Course → Course) (d : Dev) : d.WornFrom (d.onCourse k f) := .of_store rfl rfl rfl rfl

/-- A change of the store that leaves dies, blocks and regions. -/
theorem onStore (f : Store → Store) (hd : ∀ x, (f x).dies = x.dies) (hb : ∀ x, (f x).blocks = x.blocks)
    (hr : ∀ x, (f x).regions = x.regions) (hg : ∀ x, (f x).geom = x.geom) (d : Dev) : d.WornFrom (d.onStore f) :=
  .of_store (hd d.store) (hb d.store) (hr d.store) (hg d.store)

theorem openCourses (f lo hi : Nat) (data : Bool) (d : Dev) : d.WornFrom (d.openCourses f lo hi data) := by
  unfold Dev.openCourses
  extract_lets fr
  split
  · exact .refl d
  · extract_lets st per
    split
    · exact .refl d
    · refine each (fun _ e => ?_) _ d
      exact .of_store rfl rfl rfl rfl

theorem padFront (f n : Nat) (d : Dev) : d.WornFrom (d.padFront f n) := by
  unfold Dev.padFront
  extract_lets k d1 d2 run d3 d4
  have h4 : d.WornFrom d4 := (reserveWsn (n - k) d).trans ((openCourses f k n false d1).trans
    ((takeWsn (n - k) d2).trans (onFront f (fun x => { x with next := n }) d3)))
  split
  · exact .refl d
  · split
    · exact h4
    · next s _ =>
      exact h4.trans ((onStore (fun x => { x with padRuns := x.padRuns.set (s * 2 ^ 24 + k) run }) (fun _ => rfl)
        (fun _ => rfl) (fun _ => rfl) (fun _ => rfl) d4).trans ((onStripe s (fun x => { x with written := n }) _).trans
          (onRegion (frontRegion f) (fun x => { x with sinceSeal := x.sinceSeal + (n - k) }) (fun _ => rfl) _)))

theorem requireCopy (a : Nat) (d : Dev) : d.WornFrom (d.requireCopy a) := by
  unfold Dev.requireCopy
  split
  · exact .refl d
  · exact .of_store rfl rfl rfl rfl

theorem settleStripe (st : Nat) (d : Dev) : d.WornFrom (d.settleStripe st) := by
  unfold Dev.settleStripe
  extract_lets cs y taken d1
  have h1 : d.WornFrom d1 := by
    unfold d1
    split
    · exact onStripe ..
    · exact .refl d
  split
  · exact h1.trans (onStripe ..)
  · exact h1

theorem leaveFull (f st : Nat) (d : Dev) : d.WornFrom (d.leaveFull f st) := by
  unfold Dev.leaveFull
  extract_lets fr y
  split
  · exact onFront ..
  · exact .refl d

theorem unitsProgrammed (d : Dev) : d.WornFrom d.unitsProgrammed := .of_store rfl rfl rfl rfl

theorem courseProgrammed (k : Nat) (x : Course) (d : Dev) : d.WornFrom (d.courseProgrammed k x) := by
  unfold Dev.courseProgrammed
  extract_lets d1 mark d2 d3
  have h3 : d2.WornFrom d3 := by
    unfold d3
    split
    · exact .refl d2
    · exact onStore (fun y => { y with courses := y.courses.erase k }) (fun _ => rfl) (fun _ => rfl) (fun _ => rfl)
        (fun _ => rfl) d2
  have h1 : d.WornFrom d1 := onCourse k (fun c => { c with programmed := true }) d
  have h2 : d.WornFrom d2 := h1.trans (onStore (fun y => { y with buf := y.buf.mapVals mark }) (fun _ => rfl)
    (fun _ => rfl) (fun _ => rfl) (fun _ => rfl) d1)
  exact h2.trans (h3.trans ((unitsProgrammed d3).trans ((leaveFull ..).trans (settleStripe ..))))

theorem completeCourses (st : Nat) (d : Dev) : d.WornFrom (d.completeCourses st) := by
  unfold Dev.completeCourses
  extract_lets due
  refine each (f := fun (e : Nat × Course) d => Dev.courseProgrammed e.1 e.2 d) (fun e d => ?_) due d
  exact courseProgrammed e.1 e.2 d

theorem holdBlock (st c : Nat) (d : Dev) : d.WornFrom (d.holdBlock st c) := .of_store rfl rfl rfl rfl

theorem closeAfter (f st p : Nat) (d : Dev) : d.WornFrom (d.closeAfter f st p) := by
  unfold Dev.closeAfter
  extract_lets per d1 late d2 fill written d3 used
  have h1 : d.WornFrom d1 := when _ (padFront f _) d
  have h2 : d1.WornFrom d2 := each (fun e d => by
    split
    · exact .of_store rfl rfl rfl rfl
    · exact requireCopy ..) late d1
  have h3 : d.WornFrom d3 := h1.trans (h2.trans (.of_store rfl rfl rfl rfl))
  split
  · exact h3.trans ((onFront f (fun x => { x with stripe := none, next := 0, base := x.base + used }) d3).trans
      (settleStripe ..))
  · exact h3

/-! ## Blocks and dies that are retired (R211) -/

/-- A die that is in service may leave it. -/
theorem setDie (die new : Nat) (d : Dev) (h : (d.die die).state = 0) : d.WornFrom (d.setDie die new) := by
  rw [Dev.setDie_eq]
  refine .trans (e := d.onDie die fun y => { y with state := new }) ⟨fun k hk => ?_, fun _ hb => hb, fun _ => rfl, rfl⟩
    (report ..)
  have hne : k ≠ die := fun e => hk (e ▸ h)
  rw [Dev.die_onDie_ne _ _ _ hne]

theorem retireStripe (st : Nat) (d : Dev) : d.WornFrom (d.retireStripe st) :=
  (onStripe st (fun x => { x with state := .retired, raised := false, epochGens := [] }) d).trans (report ..)

theorem retireIfShort (st : Nat) (d : Dev) : d.WornFrom (d.retireIfShort st) := when _ (retireStripe st) d

/-- Only a good block takes another state. -/
theorem onGoodBlock (b : Nat) (f : BlockEntry → BlockEntry) (d : Dev) (h : (d.blockEntry b).state = 0) :
    d.WornFrom (d.onBlock b f) where
  dies _ _ := rfl
  blocks k hk := by
    have hne : k ≠ b := fun e => absurd ((e ▸ hk).symm.trans h) (by decide)
    exact (congrArg BlockEntry.state (Tab.get_update_ne ({} : BlockEntry) d.store.blocks f hne)).trans hk
  fails _ := rfl
  geom := rfl

theorem countRetired (die : Nat) (d : Dev) : d.WornFrom (d.onDie die fun y => { y with retired := y.retired + 1 }) where
  dies k _ := by
    by_cases hk : k = die
    · rw [hk, Dev.die_onDie]
    · rw [Dev.die_onDie_ne _ _ _ hk]
  blocks _ h := h
  fails _ := rfl
  geom := rfl

theorem retireBlock (st c state egen : Nat) (d : Dev) : d.WornFrom (d.retireBlock st c state egen) := by
  unfold Dev.retireBlock
  extract_lets b die e1 e2 e3 e e4
  split
  · exact .refl d
  · next h =>
    have h1 : d.WornFrom e1 := onGoodBlock b (fun e => { e with state := state, retireEgen := egen }) d (Classical.not_not.mp h)
    have h4 : d.WornFrom e4 := h1.trans ((countRetired die e1).trans ((onLife
      (fun l => { l with dies := l.dies.update 0 (die * 4 + 2) bump }) e2).trans (report ..)))
    refine .trans ?_ (retireIfShort ..)
    unfold Dev.when
    split
    · next hc =>
      have h0 : e.state = 0 := by
        rw [Bool.and_eq_true, beq_iff_eq] at hc
        exact hc.1
      have hdie : (e4.die die).state = 0 := by
        rw [Dev.die_of_store (show e4.store = e3.store from Dev.reportDie_store ..)]
        exact h0
      exact h4.trans (setDie die 1 e4 hdie)
    · exact h4

theorem setWriteState (r new : Nat) (d : Dev) : d.WornFrom (d.setWriteState r new) := by
  unfold Dev.setWriteState
  extract_lets old
  split
  · exact .refl d
  · exact (onRegion r (fun x => { x with writeState := BitVec.ofNat 2 new }) (fun _ => rfl) d).trans (report ..)

theorem checkWriteState (r : Nat) (d : Dev) : d.WornFrom (d.checkWriteState r) := by
  unfold Dev.checkWriteState
  extract_lets x n ro ex
  exact setWriteState ..

theorem dropDieBlocks (die : Nat) (d : Dev) : d.WornFrom (d.dropDieBlocks die) := by
  unfold Dev.dropDieBlocks
  extract_lets g keys
  refine each (fun b d => ?_) keys d
  split
  · next h => exact (onGoodBlock b _ d h).trans (retireIfShort ..)
  · exact .refl d

/-- A unit that fails is counted; what follows the count only wears. -/
theorem failUnit (f st p c : Nat) (d : Dev) :
    (d.onRegion (stripeRegion st) fun x => { x with progFails := bump x.progFails }).WornFrom (d.failUnit f st p c) := by
  unfold Dev.failUnit
  extract_lets r y d1 d2 d3 touches held onMedia
  have h3 : d1.WornFrom d3 := (report ..).trans (retireBlock st c 1 y.egen d2)
  exact h3.trans ((each requireCopy _ d3).trans ((closeAfter f st p _).trans (holdBlock ..)))

end Dev.WornFrom

/-! ## A die that is out stays out (R211) -/

section
variable (d : Dev) (k die : Nat)

theorem Dev.failUnit_die (f st p c : Nat) (h : (d.die k).state ≠ 0) : ((d.failUnit f st p c).die k).state = (d.die k).state :=
  (Dev.WornFrom.failUnit f st p c d).dies k h

theorem Dev.closeOnDie_die (h : (d.die k).state ≠ 0) : ((d.closeOnDie die).die k).state = (d.die k).state := by
  unfold Dev.closeOnDie
  extract_lets hit
  refine Dev.each_invariant (P := fun e => (e.die k).state = (d.die k).state) hit (fun a _ e he => ?_) d rfl
  have hf := (e.failUnit_die k a.1 a.2 (e.programming a.2) (dieChannel die) (he.symm ▸ h)).trans he
  exact ((Dev.WornFrom.completeCourses a.2 _).dies k (hf.symm ▸ h)).trans hf

theorem Dev.setDie_state (new : Nat) : ((d.setDie die new).die die).state = new := by
  rw [Dev.setDie_eq, Dev.die_of_store (Dev.reportDie_store ..), Dev.die_onDie]

theorem Dev.setDie_ne (new : Nat) (h : k ≠ die) : ((d.setDie die new).die k).state = (d.die k).state := by
  rw [Dev.setDie_eq, Dev.die_of_store (Dev.reportDie_store ..), Dev.die_onDie_ne _ _ _ h]

theorem Dev.setDie_worn (new : Nat) : ((d.setDie die new).closeOnDie die).WornFrom (d.dieOut die new) := by
  unfold Dev.dieOut
  exact (Dev.WornFrom.dropDieBlocks die _).trans (Dev.WornFrom.checkWriteState ..)

/-- What follows the new state of a die leaves a die that is out as it is. -/
theorem Dev.dieOut_keeps (new : Nat) (h : ((d.setDie die new).die k).state ≠ 0) :
    ((d.dieOut die new).die k).state = ((d.setDie die new).die k).state := by
  have hc := Dev.closeOnDie_die (d.setDie die new) k die h
  exact ((d.setDie_worn die new).dies k (hc.symm ▸ h)).trans hc

theorem Dev.dieOut_state (new : Nat) (h : new ≠ 0) : ((d.dieOut die new).die die).state = new := by
  have hs := d.setDie_state die new
  exact (d.dieOut_keeps die die new (hs.symm ▸ h)).trans hs

/-- A die that fails is failed, and one that is out stays out. -/
theorem Dev.failDie_out : 2 ≤ ((d.failDie die).die die).state := by
  unfold Dev.failDie
  split
  · rw [Dev.dieOut_state _ _ _ (by decide)]
    decide
  · next h => exact Nat.not_lt.mp h

theorem Dev.failDie_stays (h : 2 ≤ (d.die k).state) : 2 ≤ ((d.failDie die).die k).state := by
  unfold Dev.failDie
  split
  · next hd =>
    have hne : k ≠ die := fun e => absurd hd (e ▸ Nat.not_lt.mpr h)
    have hs := d.setDie_ne k die 3 hne
    rw [d.dieOut_keeps k die 3 (by omega), hs]
    exact h
  · exact h

/-- A die that fails leaves the geometry. -/
theorem Dev.failUnit_geom (f st p c : Nat) : (d.failUnit f st p c).geom = d.geom :=
  congrArg (·.getD {}) (Dev.WornFrom.failUnit f st p c d).geom

theorem Dev.failDie_geom : (d.failDie die).geom = d.geom := by
  unfold Dev.failDie
  split
  · have h1 : (d.setDie die 3).geom = d.geom := d.setDie_keep die 3 (fun x => x.geom.getD ({} : Geometry)) fun _ _ => rfl
    have h2 : ((d.setDie die 3).closeOnDie die).geom = (d.setDie die 3).geom := by
      unfold Dev.closeOnDie
      extract_lets hit
      refine Dev.each_keep Dev.geom hit _ (fun a e => ?_) _
      exact (congrArg (fun o : Option Geometry => o.getD {}) (Dev.WornFrom.completeCourses a.2 _).geom).trans
        (e.failUnit_geom ..)
    exact (congrArg (fun o : Option Geometry => o.getD {}) (d.setDie_worn die 3).geom).trans (h2.trans h1)
  · rfl

/-- The dies of a failed channel are out: the first one of it, where the channel has any. -/
theorem Dev.failChannel_out (r c : Nat) (hp : d.geom.populated r c = true) (hces : 0 < d.geom.ces) (hluns : 0 < d.geom.luns) :
    2 ≤ ((d.failChannel r c).die (r * 256 + c * 16)).state := by
  unfold Dev.failChannel
  refine Dev.each_attains d (Q := fun e => e.geom = d.geom) (P := fun e => 2 ≤ (e.die (r * 256 + c * 16)).state) (a := 0)
    (List.mem_range.mpr (by decide)) (fun i e he => ?_) (fun e he => ?_) (fun i e he h => ?_) rfl
  · split
    · exact (e.failDie_geom _).trans he
    · exact he
  · have hc : (e.geom.populated r c && decide (0 / 4 < e.geom.ces) && decide (0 % 4 < e.geom.luns)) = true := by
      rw [he]
      simp [hp, hces, hluns]
    rw [if_pos hc, Nat.add_zero]
    exact e.failDie_out _
  · split
    · exact e.failDie_stays _ _ h
    · exact h

end

/-! ## A region fence completes (R17, R246) -/

section
variable (d : Dev) (r : Nat)

/-- What a fence programs of a region's carts is no longer only in carts. -/
def Dev.cartsProgrammed (r : Nat) (d : Dev) : Prop :=
  ∀ e ∈ d.store.buf, regionOfAddr e.1 = r → e.2.rec_.stream < 2 → e.2.lost = false → e.2.phase ≠ .buffered

theorem Dev.programCarts_programmed : (d.programCarts r).cartsProgrammed r := by
  unfold Dev.programCarts
  extract_lets mine put mark d1 d2
  intro e he hr hs hl
  have hb : ((d2.onStore fun x => { x with buf := x.buf.mapVals mark }).unitsProgrammed).store.buf = d2.store.buf.mapVals mark :=
    rfl
  rw [hb] at he
  obtain ⟨y, hy, rfl⟩ := List.mem_map.mp he
  simp only [mark] at hs hl ⊢
  split at hs
  · next hc =>
    rw [if_pos hc]
    exact CartPhase.noConfusion
  · next hc =>
    rw [if_neg hc] at hl ⊢
    simpa [show regionOfAddr y.1 = r from hr, hs, hl] using hc

theorem Dev.programCarts_region {α : Type} (p : Region → α) (hp : ∀ (y : Region) n, p { y with sectorsWritten := n } = p y)
    (k : Nat) : p ((d.programCarts r).region k) = p (d.region k) := by
  unfold Dev.programCarts
  extract_lets mine put mark d1 d2
  exact d1.onRegion_field k p r _ fun y => hp y _

theorem Dev.programCarts_chip : (d.programCarts r).chip = d.chip := rfl

/-- A further keystone has the next number, and heads its region's list. -/
theorem Dev.writeKeystone_kseq (fate : KeystoneFate) : ((d.writeKeystone fate r).region r).kseq = (d.region r).kseq + 1 ∧
    ((d.writeKeystone fate r).media r).keystones.head?.map (·.kseq) = some ((d.region r).kseq + 1) := by
  unfold Dev.writeKeystone
  extract_lets x last k
  obtain ⟨c, q, w, hk⟩ := (d.onRegion r fun x => { x with kseq := x.kseq + 1 }).putKeystone_head r k fate
  refine ⟨?_, by rw [hk]; rfl⟩
  rw [Dev.putKeystone_region _ r r k fate Region.kseq fun _ => rfl, Dev.region_onRegion]

theorem Dev.writeKeystone_chip (fate : KeystoneFate) : (d.writeKeystone fate r).chip = d.chip :=
  Dev.chip_of_mask (Dev.writeKeystone_mask (T := { store := true, nv := true, evt := true, life := true })
    rfl rfl rfl rfl ..) rfl

/-- The record of a lost key. -/
def Dev.tellKey (r : Nat) (k : Nat × Nat × Nat) : Dev → Dev := Dev.reportRegion r 0x1005 [k.1, k.2.1, k.2.2, 0, 0]

/-- The records of lost keys. -/
def Dev.tellLost (r : Nat) (d : Dev) : Dev :=
  Dev.each (d.lostKeys r) (Dev.tellKey r) d

theorem Dev.tellLost_store : (d.tellLost r).store = d.store :=
  Dev.each_keep Dev.store _ (Dev.tellKey r)
    (fun _ _ => Dev.reportRegion_store ..) d

theorem Dev.tellLost_nv : (d.tellLost r).nv = d.nv :=
  Dev.each_keep Dev.nv _ (Dev.tellKey r)
    (fun _ _ => Dev.reportRegion_nv ..) d

theorem Dev.tellLost_chip : (d.tellLost r).chip = d.chip :=
  Dev.each_keep Dev.chip _ (Dev.tellKey r)
    (fun _ _ => Dev.report_chip ..) d

/-- The steps of a fence that can complete them. -/
def Dev.fenceSteps (fate : KeystoneFate) (r : Nat) (d : Dev) : Dev :=
  (if d.store.geom.isSome then (d.programCarts r).writeKeystone fate r else d).tellLost r

theorem Dev.fenceSteps_chip (fate : KeystoneFate) : (d.fenceSteps fate r).chip = d.chip := by
  rw [Dev.fenceSteps, Dev.tellLost_chip]
  split
  · rw [Dev.writeKeystone_chip, Dev.programCarts_chip]
  · rfl

theorem Dev.fenceSteps_formatted (fate : KeystoneFate) (h : d.store.geom.isSome = true) :
    (d.fenceSteps fate r).cartsProgrammed r ∧ ((d.fenceSteps fate r).region r).kseq = (d.region r).kseq + 1 ∧
      ((d.fenceSteps fate r).media r).keystones.head?.map (·.kseq) = some ((d.region r).kseq + 1) := by
  rw [Dev.fenceSteps, if_pos h]
  obtain ⟨hk, hm⟩ := (d.programCarts r).writeKeystone_kseq r fate
  rw [d.programCarts_region r Region.kseq fun _ _ => rfl] at hk hm
  have hbuf : ((d.programCarts r).writeKeystone fate r).store.buf = (d.programCarts r).store.buf :=
    Dev.writeKeystone_keep _ r fate Store.buf fun _ _ _ _ => rfl
  refine ⟨?_, ?_, ?_⟩
  · rw [Dev.cartsProgrammed, Dev.tellLost_store, hbuf]
    exact d.programCarts_programmed r
  · rw [Dev.region_of_store (Dev.tellLost_store ..), hk]
  · rw [Dev.media, Dev.tellLost_nv]
    exact hm

end

section
variable {s : State} (r : RegionId) (fate : KeystoneFate) (hl : s.dev.live = true)
  (hf : s.dev.chip.fencing.getLsbD r.val = true)
include hl hf

theorem regionFenceComplete_completes :
    ∃ d', exec (.regionFenceComplete r { stepsOk := true, keystone := fate }) s = .next { s with dev := d' } ∧
      d'.chip = { s.dev.chip with fencing := setBit s.dev.chip.fencing r.val false } ∧
      (s.dev.store.geom.isSome = true →
        (∀ e ∈ d'.store.buf, regionOfAddr e.1 = r.val → e.2.rec_.stream < 2 → e.2.lost = false → e.2.phase ≠ .buffered) ∧
        (d'.region r.val).kseq = (s.dev.region r.val).kseq + 1 ∧
        ((d'.media r.val).keystones.head?.map (·.kseq)) = some ((s.dev.region r.val).kseq + 1)) := by
  have hexec : exec (.regionFenceComplete r { stepsOk := true, keystone := fate }) s =
    execRegionFenceComplete r { stepsOk := true, keystone := fate } s := rfl
  rw [execRegionFenceComplete, whenLive_pos hl] at hexec
  simp only [hf, Bool.not_true, Bool.false_eq_true, if_false] at hexec
  refine ⟨(s.dev.onChip fun c => { c with fencing := setBit c.fencing r.val false }).fenceSteps fate r.val, hexec,
    Dev.fenceSteps_chip .., fun hg => Dev.fenceSteps_formatted _ r.val fate hg⟩

theorem regionFenceComplete_fails :
    ∃ d', exec (.regionFenceComplete r { stepsOk := false, keystone := fate }) s = .next { s with dev := d' } ∧
      d'.chip.reason = 0x74 ∧ d'.chip.detail = BitVec.ofNat 8 r.val ∧ d'.pins.alarmOut = true ∧ d'.nv = s.dev.nv := by
  have hexec : exec (.regionFenceComplete r { stepsOk := false, keystone := fate }) s =
    execRegionFenceComplete r { stepsOk := false, keystone := fate } s := rfl
  rw [execRegionFenceComplete, whenLive_pos hl] at hexec
  simp only [hf, Bool.not_true, Bool.false_eq_true, if_false, Bool.not_false, if_true] at hexec
  have hsafe : (s.dev.onChip fun c => { c with fencing := setBit c.fencing r.val false }).failsafe = false := by
    have h := hl
    simp only [Dev.live, Bool.and_eq_true, Bool.not_eq_true'] at h
    exact h.2
  have he := Dev.enterFailsafe_entered fsFence (BitVec.ofNat 8 r.val) hsafe
  exact ⟨_, hexec, he.hasReason, he.hasDetail, he.alarmOut, Dev.enterFailsafe_nv ..⟩

end

/-! ## Dies, MACs, recorders and channels that fail (R16, R211) -/

section
variable {s : State} (hl : s.dev.live = true)
include hl

theorem dieFailed_fails (x : DieId) (h : (s.dev.die x.val).state < 2) :
    ∃ d', exec (.dieFailed x) s = .next { s with dev := d' } ∧ (d'.die x.val).state = 3 ∧
      d'.eng = s.dev.eng ∧ d'.net = s.dev.net ∧ d'.keys = s.dev.keys := by
  have hexec : exec (.dieFailed x) s = execDieFailed x s := rfl
  rw [execDieFailed, whenLive_pos hl] at hexec
  have hm : ∀ {T : Groups}, T.evt = true → T.life = true → T.store = true → T.nv = true →
    (s.dev.failDie x.val).mask T = s.dev.mask T := fun h1 h2 h3 h4 => Dev.failDie_mask h1 h2 h3 h4 _ _
  refine ⟨_, hexec, ?_, ?_, ?_, ?_⟩
  · rw [Dev.failDie, if_pos h, Dev.dieOut_state _ _ _ (by decide)]
  · exact Dev.eng_of_mask (hm (T := { store := true, nv := true, evt := true, life := true }) rfl rfl rfl rfl) rfl
  · exact Dev.net_of_mask (hm (T := { store := true, nv := true, evt := true, life := true }) rfl rfl rfl rfl) rfl
  · exact Dev.keys_of_mask (hm (T := { store := true, nv := true, evt := true, life := true }) rfl rfl rfl rfl) rfl

theorem dieFailed_again (x : DieId) (h : 2 ≤ (s.dev.die x.val).state) : exec (.dieFailed x) s = .next s := by
  have hexec : exec (.dieFailed x) s = execDieFailed x s := rfl
  rw [hexec, execDieFailed, whenLive_pos hl, Dev.failDie, if_neg (Nat.not_lt.mpr h)]

theorem blockCannotBeRepaired_mac (r m : RegionId) (h : (s.dev.mac (r.val * 8 + m.val)).fenced = false) :
    ∃ d', exec (.blockCannotBeRepaired r (.mac m)) s = .next { s with dev := d' } ∧
      (d'.mac (r.val * 8 + m.val)).fenced = true ∧ (d'.mac (r.val * 8 + m.val)).linkUp = false ∧ d'.nv = s.dev.nv := by
  have hexec : exec (.blockCannotBeRepaired r (.mac m)) s = execBlockCannotBeRepaired r (.mac m) s := rfl
  rw [execBlockCannotBeRepaired, whenLive_pos hl] at hexec
  simp only [h, Bool.false_eq_true, if_false] at hexec
  have hmac : ((s.dev.linkDown (r.val * 8 + m.val) .disabled).onMac (r.val * 8 + m.val)
      fun c => { c with fenced := true }).mac (r.val * 8 + m.val) = _ := (Dev.mac_onMac ..).trans
    (congrArg (fun c : Mac => { c with fenced := true }) (s.dev.linkDown_mac (r.val * 8 + m.val) .disabled))
  have hnv : (s.dev.linkDown (r.val * 8 + m.val) .disabled).nv = s.dev.nv := Dev.nv_of_mask (Dev.linkDown_mask
    (T := { evt := true, life := true, store := true, net := true }) rfl rfl rfl rfl ..) rfl
  refine ⟨_, hexec, ?_, ?_, (Dev.report_nv ..).trans hnv⟩
  · rw [Dev.reportBlock, Dev.mac_of_net (congrArg Net.macs (Dev.report_net ..)), hmac]
  · rw [Dev.reportBlock, Dev.mac_of_net (congrArg Net.macs (Dev.report_net ..)), hmac]
    rfl

theorem blockCannotBeRepaired_recorder (r : RegionId) (h : (s.dev.recorder r.val).fenced = false) :
    ∃ d', exec (.blockCannotBeRepaired r .recorder) s = .next { s with dev := d' } ∧
      (d'.recorder r.val).fenced = true ∧ d'.recorderFor r.val = 8 ∧ d'.store = s.dev.store ∧ d'.nv = s.dev.nv := by
  have hexec : exec (.blockCannotBeRepaired r .recorder) s = execBlockCannotBeRepaired r .recorder s := rfl
  rw [execBlockCannotBeRepaired, whenLive_pos hl] at hexec
  simp only [h, Bool.false_eq_true, if_false] at hexec
  have hfen : (((s.dev.onRecorder r.val fun q => { q with fenced := true }).reportBlock r.val 47 0).recorder r.val).fenced =
      true := by
    rw [Dev.reportBlock, Dev.report_fenced, Dev.recorder_onRecorder]
  exact ⟨_, hexec, hfen, by rw [Dev.recorderFor, hfen]; simp, Dev.report_store .., Dev.report_nv ..⟩

theorem blockCannotBeRepaired_channel (r : RegionId) (ch : Fin 16) (hp : s.dev.geom.populated r.val ch.val = true)
    (hces : 0 < s.dev.geom.ces) (hluns : 0 < s.dev.geom.luns) :
    ∃ d', exec (.blockCannotBeRepaired r (.nandChannel ch)) s = .next { s with dev := d' } ∧
      2 ≤ (d'.die (r.val * 256 + ch.val * 16)).state ∧ d'.eng = s.dev.eng ∧ d'.net = s.dev.net ∧ d'.keys = s.dev.keys := by
  have hexec : exec (.blockCannotBeRepaired r (.nandChannel ch)) s = execBlockCannotBeRepaired r (.nandChannel ch) s := rfl
  rw [execBlockCannotBeRepaired, whenLive_pos hl] at hexec
  have hm : ∀ {T : Groups}, T.evt = true → T.life = true → T.store = true → T.nv = true →
    ((s.dev.failChannel r.val ch.val).reportBlock r.val (8 + ch.val) 0).mask T = s.dev.mask T := by
    intro T h1 h2 h3 h4
    exact (Dev.report_mask h1 h2 ..).trans (Dev.failChannel_mask h1 h2 h3 h4 ..)
  refine ⟨(s.dev.failChannel r.val ch.val).reportBlock r.val (8 + ch.val) 0, hexec, ?_, ?_, ?_, ?_⟩
  · rw [Dev.reportBlock, Dev.die_of_store (Dev.report_store ..)]
    exact s.dev.failChannel_out r.val ch.val hp hces hluns
  · exact Dev.eng_of_mask (hm (T := { store := true, nv := true, evt := true, life := true }) rfl rfl rfl rfl) rfl
  · exact Dev.net_of_mask (hm (T := { store := true, nv := true, evt := true, life := true }) rfl rfl rfl rfl) rfl
  · exact Dev.keys_of_mask (hm (T := { store := true, nv := true, evt := true, life := true }) rfl rfl rfl rfl) rfl

end

/-- Settles O37, by the steps of a fence, and for each failure by what stays out once it is out. -/
theorem fencesComplete : Obligations.FencesComplete := by
  unfold Obligations.FencesComplete
  refine ⟨fun s r fate hl hf => ⟨regionFenceComplete_completes r fate hl hf, regionFenceComplete_fails r fate hl hf⟩,
    fun s x hl => ⟨dieFailed_fails hl x, dieFailed_again hl x⟩, fun s r m hl h => blockCannotBeRepaired_mac hl r m h,
    fun s r hl h => blockCannotBeRepaired_recorder hl r h,
    fun s r ch hl hp hc hn => blockCannotBeRepaired_channel hl r ch hp hc hn⟩

end Sys2Proof.Machine
end

section
/-!
PROOFS. Pad sectors, records placed, and seals from their start until a keystone names them (R172, R206, R207, R220 to R222): O44.
-/
namespace Sys2Proof.Machine

/-! ## What pad sectors and records that are placed change (R172, R206, R207) -/

section
variable {α : Type} (d : Dev) (f n k : Nat)

theorem Dev.openCourses_keep (lo hi : Nat) (data : Bool) (p : Store → α) (hp : ∀ (y : Store) c, p { y with courses := c } = p y) :
    p (d.openCourses f lo hi data).store = p d.store := by
  unfold Dev.openCourses
  extract_lets fr
  split
  · rfl
  · extract_lets st per
    split
    · rfl
    · refine Dev.each_keep (fun e => p e.store) _ _ (fun _ e => ?_) d
      exact hp e.store _

/-- Pad sectors are of no record: they change what tells of courses, fronts, stripes and sequence numbers. -/
theorem Dev.padFront_keep (p : Store → α) (hp : ∀ (y : Store) s t c fr pr w l st,
      p { y with regions := s, stripes := t, courses := c, fronts := fr, padRuns := pr, nextWsn := w, wsnLimit := l, blocks := st } =
        p y) : p (d.padFront f n).store = p d.store := by
  unfold Dev.padFront
  extract_lets k d1 d2 run d3 d4
  have h1 : p d1.store = p d.store := d.reserveWsn_keep _ p fun y s t n m =>
    hp y s y.stripes y.courses y.fronts y.padRuns n m t
  have h2 : p d2.store = p d1.store := d1.openCourses_keep f _ _ _ p fun y c =>
    hp y y.regions y.stripes c y.fronts y.padRuns y.nextWsn y.wsnLimit y.blocks
  have h3 : p d3.store = p d2.store := hp d2.store d2.store.regions d2.store.stripes d2.store.courses d2.store.fronts
    d2.store.padRuns _ d2.store.wsnLimit d2.store.blocks
  have h4 : p d4.store = p d3.store := d3.onFront_keep f p _ fun y t =>
    hp y y.regions y.stripes y.courses t y.padRuns y.nextWsn y.wsnLimit y.blocks
  have h : p d4.store = p d.store := h4.trans (h3.trans (h2.trans h1))
  split
  · rfl
  · split
    · exact h
    · next s _ =>
      refine Eq.trans ?_ h
      refine (Dev.onRegion_keep _ _ p _ fun y t =>
        hp y t y.stripes y.courses y.fronts y.padRuns y.nextWsn y.wsnLimit y.blocks).trans ?_
      refine (Dev.onStripe_keep _ _ p _ fun y t =>
        hp y y.regions t y.courses y.fronts y.padRuns y.nextWsn y.wsnLimit y.blocks).trans ?_
      exact hp d4.store d4.store.regions d4.store.stripes d4.store.courses d4.store.fronts _ d4.store.nextWsn
        d4.store.wsnLimit d4.store.blocks

/-- What a region knows of its seals, that is not the count of sectors since the last one and the number of its
keystones. -/
theorem Dev.padFront_region (p : Region → α)
    (hp : ∀ (y : Region) n b m, p { y with kseq := n, keystoneSingle := b, sinceSeal := m } = p y) :
    p ((d.padFront f n).region k) = p (d.region k) := by
  unfold Dev.padFront
  extract_lets j d1 d2 run d3 d4
  have h1 : p (d1.region k) = p (d.region k) := d.reserveWsn_region k _ p fun y n b => hp y n b y.sinceSeal
  have h2 : d2.region k = d1.region k := d1.openCourses_keep f _ _ _ (fun y => y.regions.get ({} : Region) k) fun _ _ => rfl
  have h3 : d3.region k = d2.region k := rfl
  have h4 : d4.region k = d3.region k := rfl
  have h : p (d4.region k) = p (d.region k) := by rw [h4, h3, h2, h1]
  clear_value d4
  split
  · rfl
  · split
    · exact h
    · next s _ =>
      refine Eq.trans ?_ h
      exact Dev.onRegion_field (((d4.onStore fun y => { y with padRuns := y.padRuns.set (s * 2 ^ 24 + j) run }).onStripe s
        fun y => { y with written := n })) k p (frontRegion f) (fun y => { y with sinceSeal := y.sinceSeal + (n - j) })
        fun y => hp y y.kseq y.keystoneSingle _

theorem Dev.place_region (x : Record) (staged : Bool) (p : Region → α)
    (hp : ∀ (y : Region) n b m, p { y with kseq := n, keystoneSingle := b, sinceSeal := m } = p y) :
    p ((d.place f x staged).2.region k) = p (d.region k) := by
  unfold Dev.place
  split
  · rfl
  · extract_lets d1 st n a r d2 d3 d4 d5
    have h1 : p (d1.region k) = p (d.region k) := d.reserveWsn_region k _ p fun y n b => hp y n b y.sinceSeal
    have h2 : d2.region k = d1.region k := d1.openCourses_keep f _ _ _ (fun y => y.regions.get ({} : Region) k) fun _ _ => rfl
    have h3 : d3.region k = d2.region k := rfl
    have h4 : d4.region k = d3.region k := rfl
    have h5 : d5.region k = d4.region k := rfl
    have h6 := d5.onRegion_field k p (frontRegion f) (fun y => { y with sinceSeal := y.sinceSeal + r.span }) fun y =>
      hp y y.kseq y.keystoneSingle _
    rw [h5, h4, h3, h2, h1] at h6
    exact h6

theorem Dev.padStripe_region (p : Region → α)
    (hp : ∀ (y : Region) n b m, p { y with kseq := n, keystoneSingle := b, sinceSeal := m } = p y) :
    p ((d.padStripe f).region k) = p (d.region k) := by
  unfold Dev.padStripe
  split
  · rfl
  · exact d.padFront_region f _ k p hp

theorem Dev.padCourses_region (p : Region → α)
    (hp : ∀ (y : Region) n b m, p { y with kseq := n, keystoneSingle := b, sinceSeal := m } = p y) :
    p ((d.padCourses f n).region k) = p (d.region k) := by
  unfold Dev.padCourses
  split
  · rfl
  · exact d.padFront_region f _ k p hp

end

/-! ## A seal is written (R190, R191, R220) -/

section
variable {α : Type} (d : Dev) (r k : Nat) (p : Region → α)
  (hp : ∀ (y : Region) n b m c g, p { y with kseq := n, keystoneSingle := b, sinceSeal := m, chunkAt := c, manifestAt := g } = p y)

theorem Dev.whileRoom_keep {β : Type} (g : Dev → β) (l : List α) (f : α → Dev → Option Dev)
    (hf : ∀ a d e, f a d = some e → g e = g d) : g (Dev.whileRoom l f d).2 = g d := by
  unfold Dev.whileRoom
  have h : ∀ (l : List α) (q : Bool × Dev), g (l.foldl (fun (ok, d) a => if ok then match f a d with
      | some d => (true, d)
      | none => (false, d) else (false, d)) q).2 = g q.2 := by
    intro l
    induction l with
    | nil => exact fun _ => rfl
    | cons a l ih =>
      rintro ⟨ok, e⟩
      rw [List.foldl_cons, ih]
      cases ok with
      | false => rfl
      | true =>
        cases he : f a e with
        | none => simp [he]
        | some e' => simpa [he] using hf a e e' he
  exact h l (true, d)

include hp

theorem Dev.placeMeta_region (x : Record) : ∀ e, d.placeMeta r x = some e → p (e.2.region k) = p (d.region k) := by
  intro e he
  unfold Dev.placeMeta at he
  split at he
  · rw [← Option.some.inj he]
    exact d.place_region _ k x false p fun y n b m => hp y n b m y.chunkAt y.manifestAt
  · cases he

theorem Dev.writeChunks_region (c : Checkpoint) : p ((d.writeChunks r c).2.region k) = p (d.region k) := by
  unfold Dev.writeChunks
  extract_lets due
  refine Dev.whileRoom_keep d (fun e => p (e.region k)) due _ fun a e e' he => ?_
  obtain ⟨q, hq, rfl⟩ := Option.map_eq_some_iff.mp he
  exact (q.2.onRegion_field k p r (fun x => { x with chunkAt := x.chunkAt.set (chunkKey a.1 a.2) q.1 }) fun y =>
    hp y y.kseq y.keystoneSingle y.sinceSeal _ y.manifestAt).trans (e.placeMeta_region r k p hp _ q hq)

theorem Dev.writeManifests_region (gen : Nat) : p ((d.writeManifests r gen).2.region k) = p (d.region k) := by
  unfold Dev.writeManifests
  refine Dev.whileRoom_keep d (fun e => p (e.region k)) _ _ fun a e e' he => ?_
  obtain ⟨q, hq, rfl⟩ := Option.map_eq_some_iff.mp he
  exact (q.2.onRegion_field k p r (fun x => { x with manifestAt := x.manifestAt.set (a.1 * 64 + a.2) q.1 }) fun y =>
    hp y y.kseq y.keystoneSingle y.sinceSeal y.chunkAt _).trans (e.placeMeta_region r k p hp _ q hq)

/-- A seal's records leave what the region knows of its seals. -/
theorem Dev.writeSeal_region : p ((d.writeSeal r).2.region k) = p (d.region k) := by
  have hc := d.writeChunks_region r k p hp (d.noteTables r)
  unfold Dev.writeSeal
  extract_lets noted
  split
  · next e h => exact (congrArg (fun q : Bool × Dev => p (q.2.region k)) h).symm.trans hc
  · next e h =>
    have he : p (e.region k) = p (d.region k) := (congrArg (fun q : Bool × Dev => p (q.2.region k)) h).symm.trans hc
    have hm := e.writeManifests_region r k p hp noted.gen
    split
    · next e' h' => exact ((congrArg (fun q : Bool × Dev => p (q.2.region k)) h').symm.trans hm).trans he
    · next e' h' =>
      have he' : p (e'.region k) = p (d.region k) :=
        ((congrArg (fun q : Bool × Dev => p (q.2.region k)) h').symm.trans hm).trans he
      split
      · exact he'
      · next q hq => exact (e'.placeMeta_region r k p hp _ _ hq).trans he'

omit hp

/-- A seal answers the tables as they were noted at its start, but for the places of its own records. -/
theorem Dev.writeSeal_noted {c : Checkpoint} (h : (d.writeSeal r).1 = some c) :
    ∃ a x y, c = { d.noteTables r with addr := a, chunkAt := x, manifestAt := y } := by
  unfold Dev.writeSeal at h
  extract_lets noted at h
  split at h
  · cases h
  · split at h
    · cases h
    · split at h
      · cases h
      · exact ⟨_, _, _, (Option.some.inj h).symm⟩

theorem Dev.writeSeal_chip : (d.writeSeal r).2.chip = d.chip :=
  Dev.chip_of_mask (Dev.writeSeal_mask (T := { store := true, nv := true, evt := true, life := true }) rfl rfl rfl rfl ..) rfl

end

/-! ## SEAL_START (R220) -/

section
variable (d : Dev) (r : Nat)

theorem Dev.startSeal_sealing (h : (d.region r).sealing.isSome = true) : d.startSeal r = d := by
  unfold Dev.startSeal
  extract_lets f
  rw [if_pos h]

theorem Dev.startSeal_eq (h : (d.region r).sealing = none) : d.startSeal r = match (d.writeSeal r).1 with
    | none => (d.writeSeal r).2.padStripe (frontOf r 3 true)
    | some c => ((d.writeSeal r).2.padCourses (frontOf r 3 true) 4).onRegion r fun x =>
        { x with sealing := some { noted := c }, sinceSeal := 0, sealTick := (d.writeSeal r).2.chip.tick } := by
  unfold Dev.startSeal
  extract_lets f
  rw [if_neg (by simp [h])]
  split
  · next e he => rw [he]
  · next c e he => rw [he]

theorem Dev.startSeal_full (h : (d.region r).sealing = none) (hn : (d.writeSeal r).1 = none) :
    ((d.startSeal r).region r).sealing = none := by
  rw [d.startSeal_eq r h, hn]
  exact ((Dev.padStripe_region _ _ r Region.sealing fun _ _ _ _ => rfl).trans
    (d.writeSeal_region r r Region.sealing fun _ _ _ _ _ _ => rfl)).trans h

/-- A seal that is written is on its way, and the generation in force stays until it is durable. -/
theorem Dev.startSeal_starts (h : (d.region r).sealing = none) {c : Checkpoint} (hc : (d.writeSeal r).1 = some c) :
    ((d.startSeal r).region r).sealing = some { noted := c } ∧ ((d.startSeal r).region r).sealTick = d.chip.tick ∧
      ((d.startSeal r).region r).sealNow = (d.region r).sealNow := by
  rw [d.startSeal_eq r h, hc]
  have hnow : (((d.writeSeal r).2.padCourses (frontOf r 3 true) 4).region r).sealNow = (d.region r).sealNow :=
    (Dev.padCourses_region _ _ _ r Region.sealNow fun _ _ _ _ => rfl).trans
      (d.writeSeal_region r r Region.sealNow fun _ _ _ _ _ _ => rfl)
  simp only [Dev.region_onRegion, Dev.writeSeal_chip]
  exact ⟨trivial, trivial, hnow⟩

end

/-! ## A durable seal (R221, R222) -/

section
variable (d : Dev) (fate : KeystoneFate) (r : Nat) (c : Checkpoint)

theorem Dev.applyChange_regions (i : Nat) : (d.applyChange i).store.regions = d.store.regions := by
  unfold Dev.applyChange
  split
  · rfl
  · next x _ =>
    extract_lets e e'
    split
    · exact (congrArg Store.regions (Dev.report_store ..)).trans rfl
    · split
      · rfl
      · unfold Dev.when
        split
        · exact (congrArg Store.regions (Dev.report_store ..)).trans rfl
        · rfl

theorem Dev.applyChange_nv (i : Nat) : (d.applyChange i).nv = d.nv :=
  Dev.nv_of_mask (Dev.applyChange_mask (T := { store := true, evt := true, life := true }) rfl rfl rfl ..) rfl

theorem Dev.applySealed_region (k : Nat) : d.applySealed.region k = d.region k := by
  have h : d.applySealed.store.regions = d.store.regions :=
    Dev.each_keep (fun e => e.store.regions) _ Dev.applyChange (fun i e => e.applyChange_regions i) d
  rw [Dev.region, Dev.region, h]

theorem Dev.applySealed_nv : d.applySealed.nv = d.nv :=
  Dev.each_keep Dev.nv _ Dev.applyChange (fun i e => e.applyChange_nv i) d

/-- The keystone that names a seal (R221). -/
def Dev.sealKeystone (r : Nat) (c : Checkpoint) (d : Dev) : Keystone :=
  { kseq := (d.region r).kseq + 1, fmtgen := d.geom.fmtgen, sealAddr := c.addr
    sealPrev := ((d.media r).keystones.head?.getD {}).sealAddr, ckptGen := c.gen
    wsnLimit := d.store.wsnLimit, res := Dev.uncovered c (d.region r).reserved }

/-- A region as a durable seal makes it, with the reservations that the seal does not cover. -/
def Region.sealed (c : Checkpoint) (res : List (Nat × W32 × Nat)) (y : Region) : Region := { y with
  kseq := y.kseq + 1, reserved := res, sealing := none, listedBefore := y.listed, listed := c.stripeList
  sealBefore := y.sealNow, sealNow := c.gen, ckptGen := c.gen, replayWsn := c.replayWsn }

theorem Dev.nameSeal_eq : d.nameSeal fate r c = (((d.putKeystone fate r (d.sealKeystone r c)).onMedia r fun m =>
    { m with checkpoints := c :: m.checkpoints.take 1 }).onRegion r (Region.sealed c (Dev.uncovered c (d.region r).reserved))
      ).applySealed := rfl

theorem Dev.nameSeal_region : (d.nameSeal fate r c).region r =
    ((d.putKeystone fate r (d.sealKeystone r c)).region r).sealed c (Dev.uncovered c (d.region r).reserved) := by
  rw [Dev.nameSeal_eq, Dev.applySealed_region, Dev.region_onRegion]
  rfl

theorem Dev.nameSeal_media : (d.nameSeal fate r c).media r =
    { (d.putKeystone fate r (d.sealKeystone r c)).media r with
      checkpoints := c :: ((d.putKeystone fate r (d.sealKeystone r c)).media r).checkpoints.take 1 } := by
  rw [Dev.nameSeal_eq, Dev.media, Dev.applySealed_nv]
  exact Dev.media_onMedia ..

/-- The keystone of a durable seal heads its region's list. -/
theorem Dev.nameSeal_head : ∃ b q w, ((d.nameSeal fate r c).media r).keystones.head? =
    some { d.sealKeystone r c with block := b, page := q, wsn := w } := by
  rw [Dev.nameSeal_media]
  exact d.putKeystone_head r (d.sealKeystone r c) fate

end

section
variable {s : State} {r : RegionId} (ht : s.dev.tending r.val = true)
include ht

theorem exec_sealStart : exec (.sealStart r) s = .next { s with dev := s.dev.startSeal r.val } := by
  have hexec : exec (.sealStart r) s = execSealStart r s := rfl
  rw [hexec, execSealStart, onDev_guarded ht]

theorem sealDurable_waits {x : Sealing} (hx : (s.dev.region r.val).sealing = some x) (h : s.dev.settled x.noted.addr = false)
    (ok retry : Bool) : exec (.sealDurable r ok retry) s = .next s := by
  have hexec : exec (.sealDurable r ok retry) s = execSealDurable r ok retry s := rfl
  rw [hexec, execSealDurable, onDev_guarded ht]
  simp only [hx, h, Bool.not_false, if_true]

theorem exec_sealDurable {x : Sealing} (hx : (s.dev.region r.val).sealing = some x) (h : s.dev.settled x.noted.addr = true)
    (ok retry : Bool) : exec (.sealDurable r ok retry) s = .next { s with
      dev := s.dev.nameSeal (if ok then .good else if retry then .retried else .failed) r.val x.noted } := by
  have hexec : exec (.sealDurable r ok retry) s = execSealDurable r ok retry s := rfl
  rw [hexec, execSealDurable, onDev_guarded ht]
  simp only [hx, h, Bool.not_true, Bool.false_eq_true, if_false]

end

/-- Settles O44, by what a seal notes at its start, and by the region and the keystone list that a durable one leaves. -/
theorem sealsBecomeDurable : Obligations.SealsBecomeDurable := by
  unfold Obligations.SealsBecomeDurable
  refine ⟨fun s r ht hs => ⟨fun c hc => ?_, fun hn => ?_⟩, fun s r x hx => ⟨fun ht => ?_, fun hset ok retry ht => ?_⟩,
    fun s r x ok retry ht hx hset => ?_⟩
  · obtain ⟨hseal, htick, hnow⟩ := s.dev.startSeal_starts r.val hs hc
    obtain ⟨a, u, v, rfl⟩ := s.dev.writeSeal_noted r.val hc
    exact ⟨_, _, exec_sealStart ht, hseal, rfl, rfl, rfl, rfl, htick, hnow⟩
  · exact ⟨_, exec_sealStart ht, s.dev.startSeal_full r.val hs hn⟩
  · rw [exec_sealStart ht, s.dev.startSeal_sealing r.val (by rw [hx]; rfl)]
  · exact sealDurable_waits ht hx hset ok retry
  · refine ⟨_, exec_sealDurable ht hx hset ok retry, ?_⟩
    generalize hfate : (if ok then KeystoneFate.good else if retry then .retried else .failed) = fate
    obtain ⟨b, q, w, hhead⟩ := s.dev.nameSeal_head fate r.val x.noted
    have hk : ∀ {β : Type} (p : Region → β), (∀ y : Region, p { y with keystoneSingle := true } = p y) →
        p ((s.dev.putKeystone fate r.val (s.dev.sealKeystone r.val x.noted)).region r.val) = p (s.dev.region r.val) :=
      fun p hp => s.dev.putKeystone_region r.val r.val (s.dev.sealKeystone r.val x.noted) fate p hp
    rw [hhead, Dev.nameSeal_region, Dev.nameSeal_media]
    refine ⟨rfl, rfl, hk Region.sealNow fun _ => rfl, rfl, hk Region.listed fun _ => rfl,
      congrArg (· + 1) (hk Region.kseq fun _ => rfl), rfl, rfl, rfl, fun hok hretry hdead => ?_⟩
    have hf : fate = .failed := by rw [← hfate, hok, hretry]; rfl
    rw [hf]
    exact s.dev.putKeystone_single r.val (s.dev.sealKeystone r.val x.noted) hdead

end Sys2Proof.Machine
end

section
/-!
PROOFS. Units and courses that complete, carts that are freed, and padding (R206 to R209): O42.
-/
namespace Sys2Proof.Machine

/-! ## Courses and carts when a course is programmed (R206) -/

theorem Tab.mem_of_get? {α : Type} {t : Tab α} {k : Nat} {v : α} (h : t.get? k = some v) : (k, v) ∈ t := by
  induction t with
  | nil => cases h
  | cons e t ih =>
    obtain ⟨k', v'⟩ := e
    unfold Tab.get? at h
    split at h
    · next hk =>
      rw [hk, Option.some.inj h]
      exact List.mem_cons_self ..
    · exact List.mem_cons_of_mem _ (ih h)

/-- A step over the members of a list keeps `Q` and, from one of them on, `P`. -/
theorem Dev.each_attains_mem {α : Type} {P Q : Dev → Prop} {f : α → Dev → Dev} {a : α} {l : List α} (ha : a ∈ l)
    (hq : ∀ b ∈ l, ∀ d, Q d → Q (f b d)) (hf : ∀ d, Q d → P (f a d)) (hk : ∀ b ∈ l, ∀ d, P d → P (f b d)) {d : Dev} (h : Q d) :
    P (Dev.each l f d) := by
  obtain ⟨l₁, l₂, rfl⟩ := List.append_of_mem ha
  have hl₁ : Q (Dev.each l₁ f d) := Dev.each_invariant l₁ (fun b hb => hq b (List.mem_append_left _ hb)) d h
  have heq : Dev.each (l₁ ++ a :: l₂) f d = Dev.each l₂ f (f a (Dev.each l₁ f d)) := by
    simp only [Dev.each, List.foldl_append, List.foldl_cons]
  rw [heq]
  exact Dev.each_invariant l₂ (fun b hb => hk b (List.mem_append_right _ (List.mem_cons_of_mem _ hb))) _ (hf _ hl₁)

section
variable {α : Type} (d : Dev) (st : Nat) (p : Store → α)

theorem Dev.settleStripe_keep (hp : ∀ (y : Store) t, p { y with stripes := t } = p y) :
    p (d.settleStripe st).store = p d.store := by
  unfold Dev.settleStripe
  extract_lets cs y taken d1
  have h1 : p d1.store = p d.store := by
    unfold d1
    split
    · exact d.onStripe_keep st p _ hp
    · rfl
  split
  · exact (d1.onStripe_keep st p _ hp).trans h1
  · exact h1

theorem Dev.leaveFull_keep (f : Nat) (hp : ∀ (y : Store) t, p { y with fronts := t } = p y) :
    p (d.leaveFull f st).store = p d.store := by
  unfold Dev.leaveFull
  extract_lets fr y
  split
  · exact d.onFront_keep f p _ hp
  · rfl

end

section
variable (d : Dev) (k : Nat) (x : Course)

/-- A course that has been programmed is marked so; where it holds no data it leaves flight. -/
theorem Dev.courseProgrammed_courses : (d.courseProgrammed k x).store.courses =
    if x.holdsData then d.store.courses.adjust k fun c => { c with programmed := true }
    else (d.store.courses.adjust k fun c => { c with programmed := true }).erase k := by
  unfold Dev.courseProgrammed
  extract_lets d1 mark d2 d3
  rw [Dev.settleStripe_keep _ _ Store.courses fun _ _ => rfl, Dev.leaveFull_keep _ _ Store.courses _ fun _ _ => rfl]
  have h3 : d3.unitsProgrammed.store.courses = d3.store.courses := rfl
  rw [h3]
  unfold d3
  split
  · rfl
  · rfl

theorem Dev.courseProgrammed_other {j : Nat} (h : j ≠ k) :
    (d.courseProgrammed k x).store.courses.get? j = d.store.courses.get? j := by
  rw [Dev.courseProgrammed_courses]
  split
  · exact Tab.get?_adjust_ne _ _ h
  · rw [Tab.get?_erase_ne _ h, Tab.get?_adjust_ne _ _ h]

theorem Dev.courseProgrammed_self (h : x.holdsData = true) :
    (d.courseProgrammed k x).store.courses.get? k =
      (d.store.courses.get? k).map fun c => { c with programmed := true } := by
  rw [Dev.courseProgrammed_courses, if_pos h, Tab.get?_adjust_self]

/-- The courses of a stripe that its last unit has completed. -/
def Dev.dueCourses (d : Dev) (st : Nat) : List (Nat × Course) :=
  (d.coursesOn st).filter fun e => !e.2.programmed && e.2.filled && (e.2.done ||| e.2.failed) == BitVec.allOnes 16

theorem Dev.mem_dueCourses {st : Nat} {e : Nat × Course} : e ∈ d.dueCourses st ↔ e ∈ d.store.courses ∧ e.2.stripe = st ∧
    e.2.programmed = false ∧ e.2.filled = true ∧ e.2.done ||| e.2.failed = BitVec.allOnes 16 := by
  rw [Dev.dueCourses, Dev.coursesOn, List.mem_filter, List.mem_filter]
  simp only [Bool.and_eq_true, Bool.not_eq_true', beq_iff_eq, and_assoc]

theorem Dev.completeCourses_eq (st : Nat) :
    d.completeCourses st = Dev.each (d.dueCourses st) (fun e d => d.courseProgrammed e.1 e.2) d := rfl

/-- A course that still waits for a unit is left alone. -/
theorem Dev.completeCourses_waits (st : Nat) (h : ∀ e ∈ d.store.courses, e.1 = k → e.2.done ||| e.2.failed ≠ BitVec.allOnes 16) :
    (d.completeCourses st).store.courses.get? k = d.store.courses.get? k := by
  rw [Dev.completeCourses_eq]
  refine Dev.each_invariant (P := fun e => e.store.courses.get? k = d.store.courses.get? k) _ (fun a ha e he => ?_) d rfl
  obtain ⟨hm, -, -, -, hall⟩ := d.mem_dueCourses.mp ha
  have hne : k ≠ a.1 := fun hk => h a hm hk.symm hall
  exact (e.courseProgrammed_other a.1 a.2 hne).trans he

/-- With nothing due nothing changes. -/
theorem Dev.completeCourses_none (st : Nat) (h : ∀ e ∈ d.store.courses, e.2.stripe = st → e.2.programmed = true ∨
    e.2.done ||| e.2.failed ≠ BitVec.allOnes 16) : d.completeCourses st = d := by
  have hnil : d.dueCourses st = [] := by
    refine List.eq_nil_iff_forall_not_mem.mpr fun e he => ?_
    obtain ⟨hm, hs, hp, -, hall⟩ := d.mem_dueCourses.mp he
    obtain h1 | h2 := h e hm hs
    · exact Bool.false_ne_true (hp.symm.trans h1)
    · exact h2 hall
  rw [Dev.completeCourses_eq, hnil]
  rfl

/-- A course whose last unit is done is programmed, and stays in flight while it holds data. -/
theorem Dev.completeCourses_programs (hx : d.store.courses.get? k = some x) (hall : ∀ e ∈ d.store.courses, e.1 = k → e.2 = x)
    (hdata : x.holdsData = true) (hp : x.programmed = false) (hf : x.filled = true)
    (hm : x.done ||| x.failed = BitVec.allOnes 16) :
    (d.completeCourses x.stripe).store.courses.get? k = some { x with programmed := true } := by
  have hmem : (k, x) ∈ d.dueCourses x.stripe := d.mem_dueCourses.mpr ⟨Tab.mem_of_get? hx, rfl, hp, hf, hm⟩
  have hdue : ∀ b ∈ d.dueCourses x.stripe, b.1 = k → b.2.holdsData = true := fun b hb hk => by
    rw [hall b (d.mem_dueCourses.mp hb).1 hk]
    exact hdata
  rw [Dev.completeCourses_eq]
  refine Dev.each_attains_mem (Q := fun e => (e.store.courses.get? k).map (fun c => { c with programmed := true }) =
    some { x with programmed := true })
    (P := fun e => e.store.courses.get? k = some { x with programmed := true }) hmem (fun b hb e he => ?_) (fun e he => ?_) (fun b hb e he => ?_) (by rw [hx]; rfl)
  · by_cases hk : b.1 = k
    · rw [← hk] at he ⊢
      rw [e.courseProgrammed_self b.1 b.2 (hdue b hb hk), Option.map_map]
      exact he
    · rw [e.courseProgrammed_other b.1 b.2 (Ne.symm hk)]
      exact he
  · exact (e.courseProgrammed_self k x hdata).trans he
  · by_cases hk : b.1 = k
    · rw [← hk] at he ⊢
      rw [e.courseProgrammed_self b.1 b.2 (hdue b hb hk), he]
      rfl
    · rw [e.courseProgrammed_other b.1 b.2 (Ne.symm hk)]
      exact he

end

/-! ## UNIT_PROGRAM_COMPLETE (R206, R209) -/

/-- The block of a unit that fails has the state of a program failure, and the failure is counted. -/
theorem Dev.failUnit_block (d : Dev) (f st p c : Nat) (h : (d.blockEntry (blockKey st c)).state = 0) :
    ((d.failUnit f st p c).blockEntry (blockKey st c)).state = 1 := by
  unfold Dev.failUnit
  extract_lets r y d1 d2 d3 touches held onMedia
  have h2 : (d2.blockEntry (blockKey st c)).state = 0 := by
    rw [Dev.blockEntry_of_store (show d2.store = d1.store from Dev.reportDie_store ..)]
    exact h
  have h3 : (d3.blockEntry (blockKey st c)).state = 1 := d2.retireBlock_state st c 1 y.egen h2
  exact ((Dev.WornFrom.each Dev.WornFrom.requireCopy _ d3).trans ((Dev.WornFrom.closeAfter f st p _).trans
    (Dev.WornFrom.holdBlock ..))).blocks _ h3

theorem Dev.failUnit_counts (d : Dev) (f st p c : Nat) : ((d.failUnit f st p c).region (stripeRegion st)).progFails =
    bump (d.region (stripeRegion st)).progFails := by
  rw [(Dev.WornFrom.failUnit f st p c d).fails, Dev.region_onRegion]

/-- A unit of a course that its queues let run. -/
structure Dev.UnitRuns (d : Dev) (f p c : Nat) (x : Course) : Prop where
  mediaOpen : d.mediaOpen = true
  unfenced : d.fencedRegion (frontRegion f) = false
  course : d.store.courses.get? (courseKey f p) = some x
  only : ∀ e ∈ d.store.courses, e.1 = courseKey f p → e.2 = x
  undone : x.done.getLsbD c = false
  unfailed : x.failed.getLsbD c = false
  filled : d.unitFilled f c x = true
  stream : d.inStreamQueue (courseKey f p) x = true
  die : d.inDieQueue (courseKey f p) x c = true
  unheld : d.unitHeld x c = false

section
variable (d : Dev) (f p c : Nat) (x : Course)

/-- A unit of course `x` that is programmed. -/
def Dev.unitDone (f p c : Nat) (x : Course) (d : Dev) : Dev :=
  (((d.queueCleared x.stripe c).programUnit x.stripe x.page c).onCourse (courseKey f p) fun y =>
    { y with done := setBit y.done c true })

/-- A unit of course `x` that is not. -/
def Dev.unitFailed (f p c : Nat) (x : Course) (d : Dev) : Dev :=
  ((d.queueCleared x.stripe c).onCourse (courseKey f p) fun y => { y with failed := setBit y.failed c true }).failUnit f x.stripe
    x.page c

theorem Dev.programUnit_keep {α : Type} (g : Store → α) (st q : Nat) (hg : ∀ (y : Store) t, g { y with regions := t } = g y) :
    g (d.programUnit st q c).store = g d.store := by
  unfold Dev.programUnit
  extract_lets y u on d1 carts pad d2 d3 d4
  have h3 : d3.store = d.store := by
    unfold d3
    split
    · rfl
    · rfl
  rw [Dev.onRegion_keep _ _ g _ hg]
  exact congrArg g h3

theorem Dev.unitDone_courses : (d.unitDone f p c x).store.courses =
    d.store.courses.adjust (courseKey f p) fun y => { y with done := setBit y.done c true } := by
  refine congrArg (fun t : Tab Course => t.adjust (courseKey f p) fun y => { y with done := setBit y.done c true }) ?_
  exact Dev.programUnit_keep (d.queueCleared x.stripe c) c Store.courses _ _ fun _ _ => rfl

theorem Dev.unitDone_buf : (d.unitDone f p c x).store.buf = d.store.buf :=
  Dev.programUnit_keep (d.queueCleared x.stripe c) c Store.buf _ _ fun _ _ => rfl

end

theorem exec_unitProgramComplete {s : State} {f : FrontId} {p : Nat} {ch : Fin 16} {x : Course}
    (h : s.dev.UnitRuns f.val p ch.val x) (ok : Bool) : exec (.unitProgramComplete f p ch ok) s = .next { s with
      dev := (if ok then s.dev.unitDone f.val p ch.val x else s.dev.unitFailed f.val p ch.val x).completeCourses x.stripe } := by
  have hexec : exec (.unitProgramComplete f p ch ok) s = execUnitProgramComplete f p ch ok s := rfl
  rw [hexec, execUnitProgramComplete, onDev_guarded (by simp [h.mediaOpen, h.unfenced])]
  simp only [h.course, h.undone, h.unfailed, h.filled, h.stream, h.die, h.unheld, Bool.or_self, Bool.not_true, Bool.false_eq_true,
    if_false]
  rfl

section
variable {s : State} {f : FrontId} {p : Nat} {ch : Fin 16} {x : Course} (h : s.dev.UnitRuns f.val p ch.val x)
include h

/-- Every course under the unit's number has the unit done. -/
theorem Dev.UnitRuns.only_done : ∀ e ∈ (s.dev.unitDone f.val p ch.val x).store.courses, e.1 = courseKey f.val p →
    e.2 = { x with done := setBit x.done ch.val true } := by
  intro e he hk
  rw [Dev.unitDone_courses] at he
  obtain ⟨y, hy, rfl⟩ := List.mem_map.mp he
  split at hk
  · next hy1 =>
    rw [if_pos hy1, h.only y hy hy1]
  · next hy1 => exact absurd hk hy1

theorem Dev.UnitRuns.get_done : (s.dev.unitDone f.val p ch.val x).store.courses.get? (courseKey f.val p) =
    some { x with done := setBit x.done ch.val true } := by
  rw [Dev.unitDone_courses, Tab.get?_adjust_self, h.course]
  rfl

/-- A course that waits for further units goes on waiting for them. -/
theorem unitProgramComplete_waits (hm : setBit x.done ch.val true ||| x.failed ≠ BitVec.allOnes 16) :
    ∃ d', exec (.unitProgramComplete f p ch true) s = .next { s with dev := d' } ∧
      d'.store.courses.get? (courseKey f.val p) = some { x with done := setBit x.done ch.val true } ∧
      ((∀ e ∈ s.dev.store.courses, e.2.stripe = x.stripe → e.2.programmed = true ∨ e.2.done ||| e.2.failed ≠ BitVec.allOnes 16) →
        d'.store.buf = s.dev.store.buf) := by
  have hexec := exec_unitProgramComplete h true
  rw [if_pos rfl] at hexec
  refine ⟨_, hexec, ?_, fun hall => ?_⟩
  · rw [Dev.completeCourses_waits _ _ _ fun e he hk => by rw [h.only_done e he hk]; exact hm]
    exact h.get_done
  · rw [Dev.completeCourses_none, Dev.unitDone_buf]
    intro e he hs
    by_cases hk : e.1 = courseKey f.val p
    · rw [h.only_done e he hk]
      exact .inr hm
    · rw [Dev.unitDone_courses] at he
      obtain ⟨y, hy, rfl⟩ := List.mem_map.mp he
      split at hk
      · next hy1 => exact absurd hy1 hk
      · next hy1 =>
        rw [if_neg hy1] at hs ⊢
        exact hall y hy hs

/-- The last unit of a course that holds data programs it. -/
theorem unitProgramComplete_last (hm : setBit x.done ch.val true ||| x.failed = BitVec.allOnes 16) (hf : x.filled = true)
    (hd : x.holdsData = true) (hp : x.programmed = false) :
    ∃ d', exec (.unitProgramComplete f p ch true) s = .next { s with dev := d' } ∧
      d'.store.courses.get? (courseKey f.val p) =
        some { x with done := setBit x.done ch.val true, programmed := true } := by
  have hexec := exec_unitProgramComplete h true
  rw [if_pos rfl] at hexec
  exact ⟨_, hexec, Dev.completeCourses_programs _ (courseKey f.val p) { x with done := setBit x.done ch.val true }
    h.get_done h.only_done hd hp hf hm⟩

/-- A unit that fails is counted, and its block retired with the state of a program failure. -/
theorem unitProgramComplete_fails : ∃ d', exec (.unitProgramComplete f p ch false) s = .next { s with dev := d' } ∧
    (d'.region (stripeRegion x.stripe)).progFails = bump (s.dev.region (stripeRegion x.stripe)).progFails ∧
    ((s.dev.blockEntry (blockKey x.stripe ch.val)).state = 0 → (d'.blockEntry (blockKey x.stripe ch.val)).state = 1) ∧
    d'.eng = s.dev.eng ∧ d'.net = s.dev.net ∧ d'.keys = s.dev.keys := by
  have hexec := exec_unitProgramComplete h false
  rw [if_neg Bool.false_ne_true] at hexec
  have hw : (s.dev.unitFailed f.val p ch.val x).WornFrom ((s.dev.unitFailed f.val p ch.val x).completeCourses x.stripe) :=
    .completeCourses ..
  have hm : ∀ {T : Groups}, T.evt = true → T.life = true → T.store = true → T.nv = true →
      ((s.dev.unitFailed f.val p ch.val x).completeCourses x.stripe).mask T = s.dev.mask T := by
    intro T h1 h2 h3 h4
    refine (Dev.completeCourses_mask h3 _ _).trans ((Dev.failUnit_mask h1 h2 h3 h4 ..).trans ?_)
    exact (Dev.onCourse_mask h3 ..).trans (Dev.onStore_mask h3 ..)
  refine ⟨_, hexec, ?_, fun h0 => hw.blocks _ ?_, ?_, ?_, ?_⟩
  · rw [hw.fails, Dev.unitFailed, Dev.failUnit_counts]
    rfl
  · exact Dev.failUnit_block _ f.val x.stripe x.page ch.val h0
  · exact Dev.eng_of_mask (hm (T := { store := true, nv := true, evt := true, life := true }) rfl rfl rfl rfl) rfl
  · exact Dev.net_of_mask (hm (T := { store := true, nv := true, evt := true, life := true }) rfl rfl rfl rfl) rfl
  · exact Dev.keys_of_mask (hm (T := { store := true, nv := true, evt := true, life := true }) rfl rfl rfl rfl) rfl

end

/-! ## COURSE_VERIFIED (R206 steps 5 and 6) -/

section
variable {α : Type} (d : Dev) (g : Store → α)

theorem Dev.releaseUnit_keep (u : Nat) (hg : ∀ (y : Store) t b, g { y with dir := t, banks := b } = g y) :
    g (d.releaseUnit u).store = g d.store := by
  have hrow : g (d.writeRow u).store = g d.store := by
    unfold Dev.writeRow Dev.when
    simp only []
    split
    · exact hg d.store d.store.dir _
    · rfl
  unfold Dev.releaseUnit
  split
  · rfl
  · split
    · split
      · exact (hg (d.writeRow u).store _ (d.writeRow u).store.banks).trans hrow
      · exact hg d.store _ d.store.banks
    · rfl

theorem Dev.releaseUnits_keep (a : Nat) (hg : ∀ (y : Store) t b, g { y with dir := t, banks := b } = g y) :
    g (d.releaseUnits a).store = g d.store := by
  unfold Dev.releaseUnits
  exact Dev.each_keep (fun e => g e.store) _ (fun u e => e.releaseUnit u) (fun u e => e.releaseUnit_keep g u hg) d

theorem Dev.switchIndex_keep (old new : Nat) (x : Record) (hg : ∀ (y : Store) t s, g { y with dir := t, regions := s } = g y) :
    g (d.switchIndex old new x).store = g d.store := by
  have hr : ∀ (e : Dev) k f, g (e.onRegion k f).store = g e.store := fun e k f => e.onRegion_keep k g f fun y s => hg y y.dir s
  unfold Dev.switchIndex
  extract_lets r f c d1 d2 move
  have h1 : g d1.store = g d.store := by
    unfold d1
    split
    · rfl
    · split
      · exact (hr _ _ _).trans (hr d r _)
      · rfl
  have h2 : g d2.store = g d1.store := by
    unfold d2
    split
    · exact (hr _ _ _).trans (hr d1 _ _)
    · rfl
  exact (hg d2.store _ d2.store.regions).trans (h2.trans h1)

end

/-- The carts at an address are freed, but for those that a stream still reads (R53). -/
def Dev.cartsFreed (d : Dev) (a : Nat) (t : Tab BufRec) : Tab BufRec :=
  if d.eng.coaches.any fun c => c.2.heldAddrs.contains a then
    t.adjust a fun y => { y with phase := .verified, discarded := true, streamed := true }
  else t.erase a

section
variable (d : Dev) (a b : Nat) (t : Tab BufRec) (x : BufRec)

theorem Dev.cartsFreed_none (h : t.get? b = none) : (d.cartsFreed a t).get? b = none := by
  unfold Dev.cartsFreed
  by_cases hb : b = a
  · subst hb
    split
    · rw [Tab.get?_adjust_self, h]
      rfl
    · exact Tab.get?_erase_self t b
  · split
    · rw [Tab.get?_adjust_ne _ _ hb, h]
    · rw [Tab.get?_erase_ne _ hb, h]

theorem Dev.cartsFreed_self (h : d.eng.coaches.any (fun c => c.2.heldAddrs.contains a) = false) :
    (d.cartsFreed a t).get? a = none := by
  rw [Dev.cartsFreed, h, if_neg Bool.false_ne_true, Tab.get?_erase_self]

/-- Of the store a record that is settled changes its carts, what moves with it, and the indexes. -/
theorem Dev.settleRecord_keep {α : Type} (g : Store → α) (hg : ∀ (y : Store) s u bk c m tc st,
      g { y with regions := s, dir := u, banks := bk, buf := c, moves := m, toCopy := tc, stripes := st } = g y) :
    g (d.settleRecord a x).store = g d.store := by
  unfold Dev.settleRecord
  extract_lets held free d1 d2 d3
  have h2 : g d2.store = g d.store := hg d.store d.store.regions d.store.dir d.store.banks _ d.store.moves d.store.toCopy
    d.store.stripes
  have h3 : g d3.store = g d2.store := by
    unfold d3
    split
    · rfl
    · next m _ =>
      extract_lets e1 e2 e3
      have k1 : g e1.store = g d2.store := d2.switchIndex_keep g m.old a x.rec_ fun y t s =>
        hg y s t y.banks y.buf y.moves y.toCopy y.stripes
      have k2 : g e2.store = g e1.store := hg e1.store e1.store.regions e1.store.dir e1.store.banks _ _ _ e1.store.stripes
      have k3 : e3.store = e2.store := by
        unfold e3
        split
        · rfl
        · rfl
      refine (Dev.each_keep (fun e => g e.store) _ (fun k e => e.settleStripe k) (fun k e => e.settleStripe_keep k g fun y st =>
        hg y y.regions y.dir y.banks y.buf y.moves y.toCopy st) e3).trans ?_
      exact (congrArg g k3).trans (k2.trans k1)
  exact (d3.releaseUnits_keep g a fun y t bk => hg y y.regions t bk y.buf y.moves y.toCopy y.stripes).trans (h3.trans h2)

/-- The carts after a record is settled: its own freed, and those of the original that it replaces. -/
theorem Dev.settleRecord_buf : (d.settleRecord a x).store.buf = d.cartsFreed a d.store.buf ∨
    ∃ k, (d.settleRecord a x).store.buf = d.cartsFreed k (d.cartsFreed a d.store.buf) := by
  unfold Dev.settleRecord
  extract_lets held free d1 d2 d3
  rw [d3.releaseUnits_keep Store.buf a fun _ _ _ => rfl]
  unfold d3
  split
  · exact .inl rfl
  · next m _ =>
    extract_lets e1 e2 e3
    refine .inr ⟨m.old, ?_⟩
    have k1 : e1.store.buf = d2.store.buf := d2.switchIndex_keep Store.buf m.old a x.rec_ fun _ _ _ => rfl
    have k2 : e2.store.buf = d.cartsFreed m.old (d.cartsFreed a d.store.buf) := congrArg (d.cartsFreed m.old) k1
    have k3 : e3.store = e2.store := by
      unfold e3
      split
      · rfl
      · rfl
    exact (Dev.each_keep (fun e => e.store.buf) _ (fun k e => e.settleStripe k) (fun k e =>
      e.settleStripe_keep k Store.buf fun _ _ => rfl) e3).trans ((congrArg Store.buf k3).trans k2)

theorem Dev.settleRecord_none (h : d.store.buf.get? b = none) : (d.settleRecord a x).store.buf.get? b = none := by
  obtain h1 | ⟨k, h1⟩ := d.settleRecord_buf a x
  · rw [h1]
    exact d.cartsFreed_none a b _ h
  · rw [h1]
    exact d.cartsFreed_none k b _ (d.cartsFreed_none a b _ h)

theorem Dev.settleRecord_self (h : d.eng.coaches.any (fun c => c.2.heldAddrs.contains a) = false) :
    (d.settleRecord a x).store.buf.get? a = none := by
  obtain h1 | ⟨k, h1⟩ := d.settleRecord_buf a x
  · rw [h1]
    exact d.cartsFreed_self a _ h
  · rw [h1]
    exact d.cartsFreed_none k a _ (d.cartsFreed_self a _ h)

theorem Dev.settleRecord_eng : (d.settleRecord a x).eng = d.eng :=
  Dev.eng_of_mask (Dev.settleRecord_mask (T := { keys := true, store := true, nv := true }) rfl rfl rfl ..) rfl

end

/-! The read-back of a course -/

section
variable (d : Dev) (k : Nat) (x : Course)

/-- The records that the read-back of course `k` verifies. -/
def Dev.verifiable (k : Nat) (x : Course) (d : Dev) : List (Nat × BufRec) :=
  (d.bufOn x.stripe).filter fun e =>
    ((d.stripe x.stripe).coursesOf d.geom e.1 e.2.rec_.span).contains x.page && (d.store.toCopy.get? e.1).isNone &&
      !d.beingMoved e.1 && !((d.store.courses.erase k).filter fun c => c.2.stripe == x.stripe).any fun c =>
        ((d.stripe x.stripe).coursesOf d.geom e.1 e.2.rec_.span).contains c.2.page

/-- Course `k` leaves flight. -/
def Dev.courseGone (k : Nat) (d : Dev) : Dev := d.onStore fun y => { y with courses := y.courses.erase k }

theorem Dev.verifyCourse_eq : d.verifyCourse k x =
    (Dev.each (d.verifiable k x) (fun e => Dev.settleRecord e.1 e.2) (d.courseGone k)).settleStripe x.stripe := rfl

theorem Dev.verifyCourse_gone : (d.verifyCourse k x).store.courses.get? k = none := by
  rw [Dev.verifyCourse_eq, Dev.settleStripe_keep _ _ Store.courses fun _ _ => rfl]
  refine (congrArg (Tab.get? · k) (Dev.each_keep (fun e => e.store.courses) _ (fun (a : Nat × BufRec) e =>
    e.settleRecord a.1 a.2) (fun a e => e.settleRecord_keep a.1 a.2 Store.courses fun _ _ _ _ _ _ _ _ => rfl) _)).trans ?_
  exact Tab.get?_erase_self d.store.courses k

/-- A record that lies in the verified course alone, and that nothing holds, gives up its carts. -/
theorem Dev.verifyCourse_frees {e : Nat × BufRec} (he : e ∈ d.verifiable k x)
    (hh : ∀ c ∈ d.eng.coaches, c.2.heldAddrs.contains e.1 = false) : (d.verifyCourse k x).store.buf.get? e.1 = none := by
  have hfree : d.eng.coaches.any (fun c => c.2.heldAddrs.contains e.1) = false :=
    List.any_eq_false.mpr fun c hc => by rw [hh c hc]; exact Bool.false_ne_true
  rw [Dev.verifyCourse_eq, Dev.settleStripe_keep _ _ Store.buf fun _ _ => rfl]
  refine Dev.each_attains_mem (Q := fun y => y.eng = d.eng) (P := fun y => y.store.buf.get? e.1 = none) he
    (fun b _ y hy => (y.settleRecord_eng b.1 b.2).trans hy) (fun y hy => y.settleRecord_self e.1 e.2 (by rw [hy]; exact hfree))
    (fun b _ y hy => y.settleRecord_none b.1 e.1 b.2 hy) rfl

end

section
variable (d : Dev) (x : Course)

/-- The reads that the read-back of a course makes of its blocks (R214). -/
def Dev.readBack (x : Course) (d : Dev) : Dev :=
  Dev.each (channelsOf ((d.stripe x.stripe).present &&& ~~~x.failed)) (fun c d => d.countReads x.stripe c d.geom.bpc) d

theorem Dev.readBack_keep {α : Type} (p : Store → α) (hp : ∀ (y : Store) b t, p { y with blocks := b, stripes := t } = p y) :
    p (d.readBack x).store = p d.store :=
  Dev.each_keep (fun e => p e.store) _ (fun c e => e.countReads x.stripe c e.geom.bpc)
    (fun c e => e.countReads_keep x.stripe c _ p hp) d

theorem Dev.readBack_stripe {α : Type} (p : Stripe → α) (hp : ∀ y, p { y with refresh := true } = p y) (k : Nat) :
    p ((d.readBack x).stripe k) = p (d.stripe k) :=
  Dev.each_keep (fun e => p (e.stripe k)) _ (fun c e => e.countReads x.stripe c e.geom.bpc)
    (fun c e => e.countReads_stripe x.stripe c _ p hp k) d

theorem Dev.readBack_eng : (d.readBack x).eng = d.eng :=
  Dev.each_keep Dev.eng _ (fun c e => e.countReads x.stripe c e.geom.bpc)
    (fun _ e => Dev.eng_of_mask (Dev.countReads_mask (T := { store := true }) rfl _ _ _ e) rfl) d

/-- What a read-back verifies does not turn on the reads it makes. -/
theorem Dev.readBack_verifiable (k : Nat) : (d.readBack x).verifiable k x = d.verifiable k x := by
  have hc : ∀ a n, ((d.readBack x).stripe x.stripe).coursesOf (d.readBack x).geom a n = (d.stripe x.stripe).coursesOf d.geom a n := by
    intro a n
    have hg : (d.readBack x).geom = d.geom := d.readBack_keep x (fun y => y.geom.getD ({} : Geometry)) fun _ _ _ => rfl
    rw [hg]
    exact d.readBack_stripe x (fun y => y.coursesOf d.geom a n) (fun _ => rfl) x.stripe
  have hb : (d.readBack x).store.buf = d.store.buf := d.readBack_keep x Store.buf fun _ _ _ => rfl
  have ht : (d.readBack x).store.toCopy = d.store.toCopy := d.readBack_keep x Store.toCopy fun _ _ _ => rfl
  have hm : (d.readBack x).store.moves = d.store.moves := d.readBack_keep x Store.moves fun _ _ _ => rfl
  have hcs : (d.readBack x).store.courses = d.store.courses := d.readBack_keep x Store.courses fun _ _ _ => rfl
  simp only [Dev.verifiable, Dev.bufOn, Dev.beingMoved, hc, hb, ht, hm, hcs]

end

/-- COURSE_VERIFIED of a course whose every unit reads good. -/
theorem exec_courseVerified {s : State} {f : FrontId} {p : Nat} {x : Course} (ht : s.dev.tending (frontRegion f.val) = true)
    (hx : s.dev.store.courses.get? (courseKey f.val p) = some x) (hp : x.programmed = true) (hd : x.holdsData = true)
    (h4 : s.dev.programmedAt f.val (p + 4) = true) : exec (.courseVerified f p 0) s =
      .next { s with dev := (s.dev.readBack x).verifyCourse (courseKey f.val p) x } := by
  have hexec : exec (.courseVerified f p 0) s = execCourseVerified f p 0 s := rfl
  have hbad : ∀ v w : BitVec 16, channelsOf ((0 : BitVec 16) &&& v &&& w) = [] := fun v w => by
    have h0 : (0 : BitVec 16) &&& v &&& w = 0 := by simp
    rw [h0]
    decide
  rw [hexec, execCourseVerified, onDev_guarded ht]
  simp only [hx, hp, hd, h4, Bool.not_true, Bool.or_self, Bool.false_eq_true, if_false, hbad]
  rfl

theorem courseVerified_good {s : State} {f : FrontId} {p : Nat} {x : Course} (ht : s.dev.tending (frontRegion f.val) = true)
    (hx : s.dev.store.courses.get? (courseKey f.val p) = some x) (hp : x.programmed = true) (hd : x.holdsData = true)
    (h4 : s.dev.programmedAt f.val (p + 4) = true)
    (hothers : ∀ e ∈ s.dev.store.courses, e.1 ≠ courseKey f.val p → e.2.stripe = x.stripe → e.2.page ≠ x.page) :
    ∃ d', exec (.courseVerified f p 0) s = .next { s with dev := d' } ∧
      d'.store.courses.get? (courseKey f.val p) = none ∧
      ∀ e ∈ s.dev.store.buf, stripeOf e.1 = x.stripe →
        (s.dev.stripe x.stripe).coursesOf s.dev.geom e.1 e.2.rec_.span = [x.page] → s.dev.store.toCopy.get? e.1 = none →
        s.dev.beingMoved e.1 = false → (∀ c ∈ s.dev.eng.coaches, c.2.heldAddrs.contains e.1 = false) →
        d'.store.buf.get? e.1 = none := by
  refine ⟨_, exec_courseVerified ht hx hp hd h4, Dev.verifyCourse_gone .., fun e he hs hc htc hm hh => ?_⟩
  refine Dev.verifyCourse_frees _ _ _ ?_ (by rw [Dev.readBack_eng]; exact hh)
  rw [Dev.readBack_verifiable]
  have hno : ((s.dev.store.courses.erase (courseKey f.val p)).filter fun c => c.2.stripe == x.stripe).any
      (fun c => ([x.page] : List Nat).contains c.2.page) = false := by
    refine List.any_eq_false.mpr fun c hcm => ?_
    obtain ⟨hmem, hst⟩ := List.mem_filter.mp hcm
    obtain ⟨hmem, hne⟩ := List.mem_filter.mp hmem
    simpa using hothers c hmem (by simpa using hne) (beq_iff_eq.mp hst)
  refine List.mem_filter.mpr ⟨List.mem_filter.mpr ⟨he, beq_iff_eq.mpr hs⟩, ?_⟩
  rw [hc, htc, hm, hno]
  simp

/-! ## Padding (R207) -/

section
variable (d : Dev) (f n : Nat)

/-- A reservation leaves the fronts. -/
theorem Dev.reserveWsn_front (k : Nat) : (d.reserveWsn n).front k = d.front k :=
  d.reserveWsn_keep n (fun y => y.fronts.get ({} : Front) k) fun _ _ _ _ _ => rfl

/-- A front that is padded has moved on to the sector, and keeps its stripe. -/
theorem Dev.padFront_front : (d.padFront f n).front f = { d.front f with next := max (d.front f).next n } := by
  unfold Dev.padFront
  extract_lets k d1 d2 run d3 d4
  have h2 : d2.front f = d.front f := (d1.openCourses_keep f k n false (fun y => y.fronts.get ({} : Front) f) fun _ _ => rfl).trans
    (d.reserveWsn_front (n - k) f)
  have h3 : d3.front f = d2.front f := rfl
  have h4 : d4.front f = { d.front f with next := n } := by rw [show d4.front f = _ from Dev.front_onFront .., h3, h2]
  clear_value d4
  split
  · next h => rw [Nat.max_eq_left h]
  · next h =>
    rw [Nat.max_eq_right (Nat.le_of_lt (Nat.not_le.mp h)), ← h4]
    split
    · rfl
    · rfl

theorem Dev.padFront_buf : (d.padFront f n).store.buf = d.store.buf :=
  d.padFront_keep f n Store.buf fun _ _ _ _ _ _ _ _ _ => rfl

/-- The open course is padded to its end, and pad courses follow, within the stripe. -/
theorem Dev.padCourses_pads {st per : Nat} (hs : (d.front f).stripe = some st) (hper : per = (d.stripe st).perCourse d.geom) :
    ((d.padCourses f n).front f) = { d.front f with
      next := max (d.front f).next (min ((d.stripe st).capacity d.geom) ((ceilDiv (d.front f).next per + n) * per)) } ∧
    (d.padCourses f n).store.buf = d.store.buf := by
  subst hper
  unfold Dev.padCourses
  split
  · next h => rw [hs] at h; cases h
  · next st' h =>
    rw [hs] at h
    cases h
    exact ⟨d.padFront_front .., d.padFront_buf ..⟩

end

section
variable {s : State} (f : FrontId) {x : Course} {st per : Nat} (ht : s.dev.tending (frontRegion f.val) = true)
  (hs : (s.dev.front f.val).stripe = some st) (hper : per = (s.dev.stripe st).perCourse s.dev.geom)
include ht hs hper

theorem pad_openCourse (con : FrontId → Instr) (hx : s.dev.openCourse f.val = some x)
    (hcon : (con = .padIdleTimeout ∧ s.dev.courseAwaited x = true) ∨
      (con = .padHeldTimeout ∧ x.holdsData = true ∧ x.since + 10 ≤ s.dev.chip.tick)) :
    ∃ d', exec (con f) s = .next { s with dev := d' } ∧
      (d'.front f.val).next = max (s.dev.front f.val).next
        (min ((s.dev.stripe st).capacity s.dev.geom) (ceilDiv (s.dev.front f.val).next per * per)) ∧
      (d'.front f.val).stripe = some st ∧ d'.store.buf = s.dev.store.buf ∧ d'.keys = s.dev.keys := by
  have hexec : exec (con f) s = .next { s with dev := s.dev.padCourses f.val 0 } := by
    obtain ⟨rfl, ha⟩ | ⟨rfl, hd, hage⟩ := hcon
    · have h : exec (.padIdleTimeout f) s = execPadIdleTimeout f s := rfl
      rw [h, execPadIdleTimeout, onDev_guarded (by simp [ht, hx, ha])]
    · have h : exec (.padHeldTimeout f) s = execPadHeldTimeout f s := rfl
      rw [h, execPadHeldTimeout, onDev_guarded (by simp [ht, hx, hd, hage])]
  obtain ⟨hfront, hbuf⟩ := s.dev.padCourses_pads f.val 0 hs hper
  refine ⟨_, hexec, ?_, ?_, hbuf, Dev.padCourses_keys ..⟩
  · rw [hfront]
    rfl
  · rw [hfront]
    exact hs

theorem frontIdlePad_pads {p : Nat} (hidle : s.dev.sealOwed f.val = true ∨ (s.dev.front f.val).dataTick + 10 ≤ s.dev.chip.tick)
    (hp : s.dev.lastData f.val = some p) :
    ∃ d', exec (.frontIdlePad f) s = .next { s with dev := d' } ∧
      (d'.front f.val).next = max (s.dev.front f.val).next (min ((s.dev.stripe st).capacity s.dev.geom)
        ((ceilDiv (s.dev.front f.val).next per + (p + 5 - s.dev.positions f.val)) * per)) ∧
      d'.store.buf = s.dev.store.buf := by
  have hexec : exec (.frontIdlePad f) s = execFrontIdlePad f s := rfl
  have hg : (s.dev.tending (frontRegion f.val) &&
      (s.dev.sealOwed f.val || decide ((s.dev.front f.val).dataTick + 10 ≤ s.dev.chip.tick))) = true := by
    obtain h | h := hidle
    · simp [ht, h]
    · simp [ht, h]
  rw [execFrontIdlePad, onDev_guarded hg] at hexec
  simp only [hp] at hexec
  obtain ⟨hfront, hbuf⟩ := s.dev.padCourses_pads f.val (p + 5 - s.dev.positions f.val) hs hper
  exact ⟨_, hexec, by rw [hfront], hbuf⟩

end

/-- DIE_DRAIN_DONE of a die that holds nothing more. -/
theorem dieDrainDone_retires {s : State} (x : DieId) (ht : s.dev.tending (x.val / 256) = true) (h1 : (s.dev.die x.val).state = 1)
    (hh : s.dev.dieHolds x.val = false) : ∃ d', exec (.dieDrainDone x) s = .next { s with dev := d' } ∧
      (d'.die x.val).state = 2 ∧ d'.eng = s.dev.eng ∧ d'.net = s.dev.net ∧ d'.keys = s.dev.keys := by
  have hexec : exec (.dieDrainDone x) s = execDieDrainDone x s := rfl
  rw [execDieDrainDone, onDev_guarded (by simp [ht, h1, hh])] at hexec
  have hm : ∀ {T : Groups}, T.evt = true → T.life = true → T.store = true → T.nv = true →
    (s.dev.dieOut x.val 2).mask T = s.dev.mask T := fun h1 h2 h3 h4 => Dev.dieOut_mask h1 h2 h3 h4 ..
  refine ⟨_, hexec, s.dev.dieOut_state x.val 2 (by decide), ?_, ?_, ?_⟩
  · exact Dev.eng_of_mask (hm (T := { store := true, nv := true, evt := true, life := true }) rfl rfl rfl rfl) rfl
  · exact Dev.net_of_mask (hm (T := { store := true, nv := true, evt := true, life := true }) rfl rfl rfl rfl) rfl
  · exact Dev.keys_of_mask (hm (T := { store := true, nv := true, evt := true, life := true }) rfl rfl rfl rfl) rfl

/-- Settles O42, by what the end of a unit leaves of its course, the carts that a verified course frees, and the sectors
to which a front is padded. -/
theorem coursesAreProgrammedVerifiedAndPadded : Obligations.CoursesAreProgrammedVerifiedAndPadded := by
  unfold Obligations.CoursesAreProgrammedVerifiedAndPadded
  refine ⟨⟨fun s f p ch x hmo hfen hx honly hdone hfail hfill hstream hdie hheld => ?_,
    fun s f p x ht hx hp hd h4 ho => courseVerified_good ht hx hp hd h4 ho, fun s x ht h1 hh => dieDrainDone_retires x ht h1 hh⟩,
    fun s f x st per con ht hx hs hper hcon => pad_openCourse f ht hs hper con hx hcon,
    fun s f st per p ht hidle hp hs hper => frontIdlePad_pads f ht hs hper hidle hp⟩
  have h : s.dev.UnitRuns f.val p ch.val x := ⟨hmo, hfen, hx, honly, hdone, hfail, hfill, hstream, hdie, hheld⟩
  exact ⟨unitProgramComplete_waits h, unitProgramComplete_last h, unitProgramComplete_fails h⟩

end Sys2Proof.Machine
end

section
/-!
PROOFS. Victims, copies, and relocated stripes that are erased (R209, R213, R217 to R219): O43.
-/
namespace Sys2Proof.Machine

/-! ## Victims (R217) -/

section
variable {s : State} {r : RegionId}

theorem gcVictimSelect_wakes (hw : (s.dev.region r.val).wake = true) : exec (.gcVictimSelect r) s = .next s := by
  have hexec : exec (.gcVictimSelect r) s = execGcVictimSelect r s := rfl
  rw [hexec, execGcVictimSelect, onDev_eq, guarded, hw, Bool.not_true, Bool.and_false, if_neg Bool.false_ne_true]

variable (ht : s.dev.tending r.val = true)
include ht

theorem gcVictimSelect_takes (hw : (s.dev.region r.val).wake = false) {v : Nat} {b : Bool}
    (hv : s.dev.victim r.val = some (v, b)) : ∃ d', exec (.gcVictimSelect r) s = .next { s with dev := d' } ∧
      d'.stripe v = { s.dev.stripe v with state := .relocating, refresh := false, forRefresh := b, copyWsn := 0 } ∧
      (∀ k, k ≠ v → d'.stripe k = s.dev.stripe k) ∧ d'.nv = s.dev.nv := by
  have hexec : exec (.gcVictimSelect r) s = execGcVictimSelect r s := rfl
  rw [execGcVictimSelect, onDev_guarded (by simp [ht, hw])] at hexec
  simp only [hv] at hexec
  exact ⟨_, hexec, Dev.stripe_onStripe .., fun k hk => Dev.stripe_onStripe_ne _ _ _ hk, rfl⟩

theorem gcVictimSelect_none (hw : (s.dev.region r.val).wake = false) (hv : s.dev.victim r.val = none) :
    exec (.gcVictimSelect r) s = .next s := by
  have hexec : exec (.gcVictimSelect r) s = execGcVictimSelect r s := rfl
  rw [hexec, execGcVictimSelect, onDev_guarded (by simp [ht, hw])]
  simp only [hv]

end

/-! ## The reads of a copy are of no consequence for it (R214) -/

/-- What a copy and its failures turn on. -/
structure CopyView where
  store : Store
  kept : Nat → Stripe
  nv : NonVolatile
  eng : Engines

/-- The device without counts of reads and refresh marks. -/
def Dev.copyView (d : Dev) : CopyView where
  store := { d.store with blocks := [], stripes := [] }
  kept k := { d.stripe k with refresh := true }
  nv := d.nv
  eng := d.eng

section
variable (d : Dev) (a : Nat)

theorem Dev.countReads_copyView (st c n : Nat) : (d.countReads st c n).copyView = d.copyView := by
  have hs := d.countReads_keep st c n (fun y => { y with blocks := [], stripes := [] }) fun _ _ _ => rfl
  have hk : (fun k => { (d.countReads st c n).stripe k with refresh := true }) = fun k => { d.stripe k with refresh := true } :=
    funext fun k => d.countReads_stripe st c n (fun y => { y with refresh := true }) (fun _ => rfl) k
  have he : (d.countReads st c n).eng = d.eng :=
    Dev.eng_of_mask (Dev.countReads_mask (T := { store := true }) rfl _ _ _ d) rfl
  rw [Dev.copyView, Dev.copyView, hs, hk, Dev.countReads_nv, he]

theorem Dev.countCopyReads_copyView : (d.countCopyReads a).copyView = d.copyView := by
  unfold Dev.countCopyReads
  extract_lets s st span
  refine Dev.each_keep Dev.copyView _ _ (fun p e => ?_) d
  refine Dev.each_keep Dev.copyView _ _ (fun c e => ?_) e
  extract_lets n
  unfold Dev.when
  split
  · exact e.countReads_copyView s c n
  · rfl

end

section
variable {d e : Dev} (h : d.copyView = e.copyView)
include h

theorem Dev.copyView_store {α : Type} (p : Store → α) (hp : ∀ y : Store, p { y with blocks := [], stripes := [] } = p y) :
    p d.store = p e.store :=
  (hp d.store).symm.trans ((congrArg (fun v : CopyView => p v.store) h).trans (hp e.store))

theorem Dev.copyView_stripe {α : Type} (p : Stripe → α) (hp : ∀ y, p { y with refresh := true } = p y) (k : Nat) :
    p (d.stripe k) = p (e.stripe k) :=
  (hp (d.stripe k)).symm.trans ((congrArg (fun v : CopyView => p (v.kept k)) h).trans (hp (e.stripe k)))

theorem Dev.copyView_geom : d.geom = e.geom := Dev.copyView_store h (fun y => y.geom.getD ({} : Geometry)) fun _ => rfl

theorem Dev.copyView_buf : d.store.buf = e.store.buf := Dev.copyView_store h Store.buf fun _ => rfl

theorem Dev.copyView_recordAt (a : Nat) : d.recordAt a = e.recordAt a := by
  have hnv : d.nv = e.nv := congrArg CopyView.nv h
  rw [Dev.recordAt, Dev.recordAt, Dev.copyView_buf h, Dev.copyView_geom h, hnv]

theorem Dev.copyView_spanAt (a : Nat) : d.spanAt a = e.spanAt a := by
  rw [Dev.spanAt, Dev.spanAt, Dev.copyView_recordAt h]

theorem Dev.copyView_onFailedDie (a span : Nat) : d.onFailedDie a span = e.onFailedDie a span := by
  have hd : ∀ k, d.die k = e.die k := fun k => Dev.copyView_store h (fun y => y.dies.get ({} : DieEntry) k) fun _ => rfl
  have hk := Dev.copyView_stripe h Stripe.kept (fun _ => rfl) (stripeOf a)
  have hc : ∀ g, (d.stripe (stripeOf a)).coursesOf g = (e.stripe (stripeOf a)).coursesOf g := fun g =>
    Dev.copyView_stripe h (fun y => y.coursesOf g) (fun _ => rfl) (stripeOf a)
  have hdata := Dev.copyView_stripe h Stripe.data (fun _ => rfl) (stripeOf a)
  have hon : ∀ g, (d.stripe (stripeOf a)).sectorsOn g = (e.stripe (stripeOf a)).sectorsOn g := fun g =>
    Dev.copyView_stripe h (fun y => y.sectorsOn g) (fun _ => rfl) (stripeOf a)
  simp only [Dev.onFailedDie, Dev.dieFailed, hd, hk, hc, hdata, hon, Dev.copyView_geom h]

theorem Dev.copyView_readForCopy (a : Nat) (rd : ReadBack) : d.readForCopy a rd = e.readForCopy a rd := by
  unfold Dev.readForCopy
  rw [Dev.copyView_buf h, Dev.copyView_spanAt h, Dev.copyView_onFailedDie h, Dev.copyView_recordAt h]

theorem Dev.copyView_front (f : Nat) : d.front f = e.front f :=
  Dev.copyView_store h (fun y => y.fronts.get ({} : Front) f) fun _ => rfl

theorem Dev.copyView_room (f span : Nat) : d.room f span = e.room f span := by
  have hcap : ∀ k g, (d.stripe k).capacity g = (e.stripe k).capacity g := fun k g =>
    Dev.copyView_stripe h (fun y => y.capacity g) (fun _ => rfl) k
  simp only [Dev.room, Dev.copyView_front h, hcap, Dev.copyView_geom h]

theorem Dev.copyView_addrAt (k n : Nat) : (d.stripe k).addrAt d.geom k n = (e.stripe k).addrAt e.geom k n := by
  rw [Dev.copyView_geom h]
  exact Dev.copyView_stripe h (fun y => y.addrAt e.geom k n) (fun _ => rfl) k

theorem Dev.copyView_sectorAddr (a i : Nat) : d.sectorAddr a i = e.sectorAddr a i := by
  have hp : (d.stripe (stripeOf a)).placeOf d.geom a = (e.stripe (stripeOf a)).placeOf e.geom a := by
    rw [Dev.copyView_geom h]
    exact Dev.copyView_stripe h (fun y => y.placeOf e.geom a) (fun _ => rfl) (stripeOf a)
  simp only [Dev.sectorAddr, hp, Dev.copyView_addrAt h]

theorem Dev.copyView_moveFrom (a : Nat) (rekey : Bool) : d.moveFrom a rekey = e.moveFrom a rekey := by
  rw [Dev.moveFrom, Dev.moveFrom, Dev.copyView_store h Store.moves fun _ => rfl]

theorem Dev.copyView_region (k : Nat) : d.region k = e.region k :=
  Dev.copyView_store h (fun y => y.regions.get ({} : Region) k) fun _ => rfl

end

/-! ## A record is placed (R206 step 1) -/

section
variable (d : Dev) (f : Nat) (x : Record) (staged : Bool)

/-- A reservation leaves the stripes and the geometry. -/
theorem Dev.reserveWsn_stripe (n k : Nat) : (d.reserveWsn n).stripe k = d.stripe k :=
  d.reserveWsn_keep n (fun y => y.stripes.get ({} : Stripe) k) fun _ _ _ _ _ => rfl

theorem Dev.reserveWsn_geom (n : Nat) : (d.reserveWsn n).geom = d.geom :=
  d.reserveWsn_keep n (fun y => y.geom.getD ({} : Geometry)) fun _ _ _ _ _ => rfl

/-- A record that is placed has the next sector of its front as address, and lies in carts under it. -/
theorem Dev.place_addr {st : Nat} (hs : (d.front f).stripe = some st) :
    (d.place f x staged).1 = (d.stripe st).addrAt d.geom st (d.front f).next := by
  unfold Dev.place
  rw [hs]
  simp only [Dev.reserveWsn_stripe, Dev.reserveWsn_geom, Dev.reserveWsn_front]

/-- A place changes what tells of courses, fronts, stripes, carts and sequence numbers. -/
theorem Dev.place_keep {α : Type} (p : Store → α) (hp : ∀ (y : Store) s t c fr bf w l b,
      p { y with regions := s, stripes := t, courses := c, fronts := fr, buf := bf, nextWsn := w, wsnLimit := l, blocks := b } =
        p y) : p (d.place f x staged).2.store = p d.store := by
  unfold Dev.place
  split
  · rfl
  · extract_lets d1 st n a r d2 d3 d4 d5
    have h1 : p d1.store = p d.store := d.reserveWsn_keep _ p fun y s b n m => hp y s y.stripes y.courses y.fronts y.buf n m b
    have h2 : p d2.store = p d1.store := d1.openCourses_keep f _ _ _ p fun y c =>
      hp y y.regions y.stripes c y.fronts y.buf y.nextWsn y.wsnLimit y.blocks
    have h3 : p d3.store = p d2.store := hp d2.store d2.store.regions d2.store.stripes d2.store.courses d2.store.fronts _ _
      d2.store.wsnLimit d2.store.blocks
    have h4 : p d4.store = p d3.store := d3.onFront_keep f p _ fun y t =>
      hp y y.regions y.stripes y.courses t y.buf y.nextWsn y.wsnLimit y.blocks
    have h5 : p d5.store = p d4.store := d4.onStripe_keep _ p _ fun y t =>
      hp y y.regions t y.courses y.fronts y.buf y.nextWsn y.wsnLimit y.blocks
    refine (d5.onRegion_keep _ p _ fun y s => hp y s y.stripes y.courses y.fronts y.buf y.nextWsn y.wsnLimit y.blocks).trans ?_
    exact h5.trans (h4.trans (h3.trans (h2.trans h1)))

/-- The record that a front places: with the number, the generation and the stream of its place. -/
def Dev.recordFor (f st : Nat) (x : Record) (d : Dev) : Record := { x with
  wsn := (d.reserveWsn x.span).store.nextWsn, egen := (d.stripe st).egen, stream := frontStream f, kept := frontKept f }

/-- The record lies in carts at its place, and its sectors have taken their numbers. -/
theorem Dev.place_store {st : Nat} (hs : (d.front f).stripe = some st) :
    (d.place f x staged).2.store.buf =
      d.store.buf.set (d.place f x staged).1 { rec_ := d.recordFor f st x, staged := staged } ∧
    (d.place f x staged).2.store.nextWsn = (d.reserveWsn x.span).store.nextWsn + x.span := by
  have hbuf : (d.reserveWsn x.span).store.buf = d.store.buf := d.reserveWsn_keep _ Store.buf fun _ _ _ _ _ => rfl
  have hst := d.reserveWsn_stripe x.span st
  rw [Dev.recordFor, ← hst, ← hbuf]
  unfold Dev.place
  split
  · next h => rw [hs] at h; cases h
  · next st' h =>
    rw [hs] at h
    cases h
    extract_lets d1 y n a r d2 d3 d4 d5
    have h2b : d2.store.buf = d1.store.buf := d1.openCourses_keep f _ _ _ Store.buf fun _ _ => rfl
    have h2n : d2.store.nextWsn = d1.store.nextWsn := d1.openCourses_keep f _ _ _ Store.nextWsn fun _ _ => rfl
    have h5b : d5.store.buf = d2.store.buf.set a { rec_ := r, staged := staged } := rfl
    have h5n : d5.store.nextWsn = d2.store.nextWsn + r.span := rfl
    rw [h2b] at h5b
    rw [h2n] at h5n
    exact ⟨h5b, h5n⟩

end

/-! ## A copy (R185, R218) -/

section
variable (d : Dev) (old : Nat) (x : Record)

theorem Dev.dropCopy_keep {α : Type} (p : Store → α) (hp : ∀ (y : Store) b, p { y with buf := b } = p y) :
    p (d.dropCopy old).store = p d.store := by
  unfold Dev.dropCopy
  extract_lets s span
  split
  · exact hp _ _
  · exact hp _ _

/-- A copy that is dropped leaves the carts of every other record. -/
theorem Dev.dropCopy_buf {k : Nat} (h : k ≠ old) : (d.dropCopy old).store.buf.get? k = d.store.buf.get? k := by
  unfold Dev.dropCopy
  extract_lets s span
  split
  · exact Tab.get?_adjust_ne d.store.buf (fun b => { b with discarded := true }) h
  · exact Tab.get?_erase_ne d.store.buf h

theorem Dev.renameRecord_keep {α : Type} (new : Nat) (p : Store → α) (hp : ∀ (y : Store) s, p { y with regions := s } = p y) :
    p (d.renameRecord old new).store = p d.store := by
  unfold Dev.renameRecord
  extract_lets move swap same seal_
  exact Dev.onRegion_keep _ _ p _ hp

/-- What a copy placed at `a` of the record at `old` changes beside its carts. -/
def Dev.copyNamed (old a : Nat) (m : Move) (span : Nat) (d : Dev) : Dev :=
  let d := d.onStore fun y => { y with moves := (y.moves.erase old).set a m, toCopy := y.toCopy.erase old }
  let w := ((d.store.buf.get? a).map fun b => b.rec_.wsn).getD 0
  let d := Dev.each (m.old :: m.via) (fun b => Dev.onStripe (stripeOf b) fun y => { y with copyWsn := max y.copyWsn w }) d
  let d := d.onRegion (regionOfAddr old) fun y => { y with relocSectors := satAdd y.relocSectors span }
  (d.when (m.old != old) (Dev.dropCopy old)).renameRecord old a

theorem Dev.copyNamed_keep {α : Type} (a : Nat) (m : Move) (span : Nat) (p : Store → α)
    (hp : ∀ (y : Store) b s t, p { y with buf := b, regions := s, stripes := t } = p y) :
    p (d.copyNamed old a m span).store = p { d.store with
      moves := (d.store.moves.erase old).set a m, toCopy := d.store.toCopy.erase old } := by
  unfold Dev.copyNamed
  extract_lets d1 w d2 d3
  have h2 : p d2.store = p d1.store := by
    refine Dev.each_keep (fun e => p e.store) _ _ (fun b e => ?_) d1
    exact e.onStripe_keep _ p _ fun y t => hp y y.buf y.regions t
  have h3 : p d3.store = p d2.store := d2.onRegion_keep _ p _ fun y s => hp y y.buf s y.stripes
  rw [Dev.renameRecord_keep _ _ _ p fun y s => hp y y.buf s y.stripes]
  unfold Dev.when
  split
  · exact (d3.dropCopy_keep old p fun y b => hp y b y.regions y.stripes).trans (h3.trans h2)
  · exact h3.trans h2

theorem Dev.copyNamed_buf {k a : Nat} (m : Move) (span : Nat) (h : k ≠ old) :
    (d.copyNamed old a m span).store.buf.get? k = d.store.buf.get? k := by
  unfold Dev.copyNamed
  extract_lets d1 w d2 d3
  have h3 : d3.store.buf = d.store.buf := by
    refine Eq.trans ?_ (show d1.store.buf = d.store.buf from rfl)
    exact Dev.each_keep (fun e => e.store.buf) _ (fun b => Dev.onStripe (stripeOf b) fun y =>
      { y with copyWsn := max y.copyWsn w }) (fun _ _ => rfl) d1
  rw [Dev.renameRecord_keep _ _ _ Store.buf fun _ _ => rfl]
  unfold Dev.when
  split
  · rw [d3.dropCopy_buf old h, h3]
  · rw [h3]

/-- What a copy of the record at `old` under `new` leaves: the move, the record, and nothing more to copy. -/
structure Dev.CopyMade (d e : Dev) (old new : Nat) (m : Move) (y : Record) : Prop where
  moved : e.store.moves.get? new = some m
  copied : e.store.toCopy.get? old = none
  placed : (e.store.buf.get? new).map (·.rec_) = some y
  numbered : e.store.nextWsn = (d.reserveWsn y.span).store.nextWsn + y.span

/-- The front that copies of the record at `old` go to. -/
def Dev.copyFront (old : Nat) (d : Dev) : Nat := frontOf (regionOfAddr old) 2 (d.stripe (stripeOf old)).kept

theorem Dev.copyRecord_eq (rekey : Bool) : d.copyRecord old x rekey =
    if d.room (d.copyFront old) x.span then
      let q := d.place (d.copyFront old) { x with relocated := true } (((d.store.buf.get? old).map (·.staged)).getD false)
      some (q.2.copyNamed old q.1 (d.moveFrom old rekey) x.span)
    else none := by
  unfold Dev.copyRecord
  extract_lets s f staged m
  cases h : d.room f x.span with
  | false => rw [if_pos (show (!false) = true from rfl), if_neg (by rw [show d.room (d.copyFront old) x.span = false from h]; decide)]
  | true =>
    rw [if_neg (by decide), if_pos (show d.room (d.copyFront old) x.span = true from h)]
    rfl

theorem Dev.copyRecord_none (rekey : Bool) (h : d.room (d.copyFront old) x.span = false) : d.copyRecord old x rekey = none := by
  rw [Dev.copyRecord_eq, h, if_neg Bool.false_ne_true]

theorem Dev.copyRecord_copies (rekey : Bool) {st new : Nat} (hroom : d.room (d.copyFront old) x.span = true)
    (hs : (d.front (d.copyFront old)).stripe = some st)
    (hnew : new = (d.stripe st).addrAt d.geom st (d.front (d.copyFront old)).next) (hne : new ≠ old) :
    ∃ e, d.copyRecord old x rekey = some e ∧
      d.CopyMade e old new (d.moveFrom old rekey) (d.recordFor (d.copyFront old) st { x with relocated := true }) := by
  rw [Dev.copyRecord_eq, hroom, if_pos rfl]
  generalize ((d.store.buf.get? old).map (·.staged)).getD false = staged
  extract_lets q
  have haddr : q.1 = new := (d.place_addr _ _ staged hs).trans hnew.symm
  obtain ⟨hbuf, hwsn⟩ := d.place_store (d.copyFront old) { x with relocated := true } staged hs
  have hn := q.2.copyNamed_keep old q.1 (d.moveFrom old rekey) x.span Store.nextWsn fun _ _ _ _ => rfl
  refine ⟨_, rfl, ?_, ?_, ?_, hn.trans hwsn⟩
  · rw [q.2.copyNamed_keep old q.1 _ x.span Store.moves fun _ _ _ _ => rfl, ← haddr]
    exact Tab.get?_set_self ..
  · rw [q.2.copyNamed_keep old q.1 _ x.span Store.toCopy fun _ _ _ _ => rfl]
    exact Tab.get?_erase_self ..
  · rw [q.2.copyNamed_buf old _ x.span hne, ← haddr]
    refine (congrArg (fun t : Tab BufRec => (t.get? q.1).map (·.rec_)) hbuf).trans ?_
    rw [Tab.get?_set_self]
    rfl

end

/-! ## RELOCATION_RECORD_COPY (R209, R213, R218) -/

section
variable (d : Dev) (r a : Nat) (rd : ReadBack)

/-- A copy from media reads the blocks that hold the record. -/
def Dev.copyRead (a : Nat) (d : Dev) : Dev := d.when (d.store.buf.get? a).isNone (Dev.countCopyReads a)

/-- A copy made while the flush programs fills its course at once. -/
def Dev.copyFilled (r a : Nat) (d : Dev) : Dev :=
  d.when (d.pfail.flush != .none) (Dev.padCourses (frontOf r 2 (d.stripe (stripeOf a)).kept) 0)

theorem Dev.copyRead_copyView : (d.copyRead a).copyView = d.copyView := by
  unfold Dev.copyRead Dev.when
  split
  · exact d.countCopyReads_copyView a
  · rfl

theorem Dev.padCourses_keep {α : Type} (f n : Nat) (p : Store → α) (hp : ∀ (y : Store) s t c fr pr w l st,
      p { y with regions := s, stripes := t, courses := c, fronts := fr, padRuns := pr, nextWsn := w, wsnLimit := l, blocks := st } =
        p y) : p (d.padCourses f n).store = p d.store := by
  unfold Dev.padCourses
  split
  · rfl
  · exact d.padFront_keep f _ p hp

theorem Dev.copyFilled_keep {α : Type} (p : Store → α) (hp : ∀ (y : Store) s t c fr pr w l st,
      p { y with regions := s, stripes := t, courses := c, fronts := fr, padRuns := pr, nextWsn := w, wsnLimit := l, blocks := st } =
        p y) : p (d.copyFilled r a).store = p d.store := by
  unfold Dev.copyFilled Dev.when
  split
  · exact d.padCourses_keep _ 0 p hp
  · rfl

theorem Dev.copyFilled_uncorr (k : Nat) : ((d.copyFilled r a).region k).uncorr = (d.region k).uncorr := by
  unfold Dev.copyFilled Dev.when
  split
  · exact d.padCourses_region _ 0 k Region.uncorr fun _ _ _ _ => rfl
  · rfl

theorem Dev.copyFilled_of_none (h : d.pfail.flush = .none) : d.copyFilled r a = d := by
  rw [Dev.copyFilled, h, Dev.when, if_neg (by decide)]

/-- Of a stripe padding changes the count of sectors written. -/
theorem Dev.padFront_stripe {α : Type} (f n k : Nat) (p : Stripe → α) (hp : ∀ y w, p { y with written := w } = p y) :
    p ((d.padFront f n).stripe k) = p (d.stripe k) := by
  unfold Dev.padFront
  extract_lets j d1 d2 run d3 d4
  have h2 : d2.stripe k = d.stripe k := (d1.openCourses_keep f j n false (fun y => y.stripes.get ({} : Stripe) k)
    fun _ _ => rfl).trans (d.reserveWsn_stripe (n - j) k)
  have h3 : d3.stripe k = d2.stripe k := rfl
  have h4 : d4.stripe k = d3.stripe k := rfl
  have h : d4.stripe k = d.stripe k := by rw [h4, h3, h2]
  clear_value d4
  split
  · rfl
  · split
    · rw [h]
    · next s _ =>
      rw [← h]
      exact (d4.onStore fun y => { y with padRuns := y.padRuns.set (s * 2 ^ 24 + j) run }).onStripe_field k p s
        (fun y => { y with written := n }) fun y => hp y n

theorem Dev.copyFilled_retireLater (k : Nat) : ((d.copyFilled r a).stripe k).retireLater = (d.stripe k).retireLater := by
  unfold Dev.copyFilled Dev.when Dev.padCourses
  split
  · split
    · rfl
    · exact d.padFront_stripe _ _ k Stripe.retireLater fun _ _ => rfl
  · rfl

theorem Dev.copyFilled_mask {T : Groups} (h1 : T.evt = true) (h2 : T.life = true) (h3 : T.store = true) (h4 : T.nv = true) :
    (d.copyFilled r a).mask T = d.mask T := by
  unfold Dev.copyFilled
  exact Dev.when_mask _ _ _ fun e => Dev.padCourses_mask h1 h2 h3 h4 _ _ e

theorem Dev.copyRead_mask {T : Groups} (h : T.store = true) : (d.copyRead a).mask T = d.mask T := by
  unfold Dev.copyRead
  exact Dev.when_mask _ _ _ fun e => Dev.countCopyReads_mask h a e

/-- A sector that a copy could not read, where nothing says that its die is out. -/
theorem Dev.readForCopy_uncorrectable {bad : List Nat} (hb : d.store.buf.get? a = none)
    (hd : d.onFailedDie a (d.spanAt a) = false) : d.readForCopy a (.uncorrectable bad) = none := by
  unfold Dev.readForCopy
  rw [hb, hd]
  simp only [Bool.false_eq_true, if_false]
  cases d.recordAt a with
  | none => rfl
  | some x => rfl

theorem Dev.readForCopy_failedDie (hb : d.store.buf.get? a = none) (hd : d.onFailedDie a (d.spanAt a) = true) :
    d.readForCopy a rd = none := by
  unfold Dev.readForCopy
  rw [hb, hd]
  rfl

theorem Dev.copyOrLose_some {x : Record} (h : d.readForCopy a rd = some x) :
    d.copyOrLose a rd = (d.copyRecord a x false).getD (d.padRelocation a) := by
  unfold Dev.copyOrLose
  rw [h]

theorem Dev.copyOrLose_failedDie (h : d.readForCopy a rd = none) (hd : d.onFailedDie a (d.spanAt a) = true) :
    d.copyOrLose a rd = d := by
  unfold Dev.copyOrLose
  rw [h]
  simp only [hd, if_true]

theorem Dev.copyOrLose_lost {i : Nat} (h : d.readForCopy a rd = none) (hd : d.onFailedDie a (d.spanAt a) = false)
    (hr : rd = .uncorrectable [i] ∨ rd = .uncorrectable [] ∧ i = 0) : d.copyOrLose a rd = d.lostSector (d.sectorAddr a i) 1 := by
  unfold Dev.copyOrLose
  rw [h]
  simp only [hd, Bool.false_eq_true, if_false]
  obtain rfl | ⟨rfl, rfl⟩ := hr
  · rfl
  · rfl

end

theorem exec_relocationRecordCopy {s : State} {r : RegionId} {a : Nat} (hc : s.dev.copying r.val a = true)
    (hr : regionOfAddr a = r.val) (hw : s.dev.wantsCopy a = true) (rd : ReadBack) :
    exec (.relocationRecordCopy r a rd) s =
      .next { s with dev := ((s.dev.copyRead a).copyOrLose a rd).copyFilled r.val a } := by
  have hexec : exec (.relocationRecordCopy r a rd) s = execRelocationRecordCopy r a rd s := rfl
  rw [hexec, execRelocationRecordCopy, onDev_guarded (by simp [hc, hr, hw])]
  rfl

section
variable {s : State} {r : RegionId} {a : Nat} {rd : ReadBack} (hc : s.dev.copying r.val a = true)
  (hr : regionOfAddr a = r.val) (hw : s.dev.wantsCopy a = true)
include hc hr hw

theorem relocationRecordCopy_copies {x : Record} {f st new : Nat} (hx : s.dev.readForCopy a rd = some x)
    (hf : f = frontOf (regionOfAddr a) 2 (s.dev.stripe (stripeOf a)).kept) (hroom : s.dev.room f x.span = true)
    (hs : (s.dev.front f).stripe = some st) (hnew : new = (s.dev.stripe st).addrAt s.dev.geom st (s.dev.front f).next)
    (hne : new ≠ a) :
    ∃ d' y, exec (.relocationRecordCopy r a rd) s = .next { s with dev := d' } ∧
      d'.store.moves.get? new = some (s.dev.moveFrom a false) ∧ d'.store.toCopy.get? a = none ∧
      (d'.store.buf.get? new).map (·.rec_) = some y ∧ y.payload = x.payload ∧ y.version = x.version ∧ y.key = x.key ∧
      y.relocated = true ∧
      (s.dev.tending r.val = true → s.dev.store.nextWsn + x.span + wsnMargin ≤ s.dev.store.wsnLimit →
        y.wsn = s.dev.store.nextWsn ∧ d'.store.nextWsn = s.dev.store.nextWsn + x.span) := by
  have hv := s.dev.copyRead_copyView a
  have hfront : (s.dev.copyRead a).copyFront a = f := by
    rw [Dev.copyFront, Dev.copyView_stripe hv Stripe.kept fun _ => rfl, hf]
  obtain ⟨e, he, hmade⟩ := (s.dev.copyRead a).copyRecord_copies a x false (st := st) (new := new)
    (by rw [hfront, Dev.copyView_room hv, hroom]) (by rw [hfront, Dev.copyView_front hv, hs])
    (by rw [hfront, Dev.copyView_addrAt hv, Dev.copyView_front hv, hnew]) hne
  have hlose : (s.dev.copyRead a).copyOrLose a rd = e := by
    rw [Dev.copyOrLose_some _ _ _ ((Dev.copyView_readForCopy hv a rd).trans hx), he]
    rfl
  have hexec := exec_relocationRecordCopy hc hr hw rd
  rw [hlose] at hexec
  refine ⟨_, (s.dev.copyRead a).recordFor ((s.dev.copyRead a).copyFront a) st { x with relocated := true }, hexec, ?_, ?_, ?_,
    rfl, rfl, rfl, rfl, fun ht hlim => ?_⟩
  · rw [e.copyFilled_keep r.val a Store.moves fun _ _ _ _ _ _ _ _ _ => rfl, hmade.moved, Dev.copyView_moveFrom hv]
  · rw [e.copyFilled_keep r.val a Store.toCopy fun _ _ _ _ _ _ _ _ _ => rfl, hmade.copied]
  · rw [e.copyFilled_keep r.val a Store.buf fun _ _ _ _ _ _ _ _ _ => rfl, hmade.placed]
  · have hn : (s.dev.copyRead a).store.nextWsn = s.dev.store.nextWsn := Dev.copyView_store hv Store.nextWsn fun _ => rfl
    have hl : (s.dev.copyRead a).store.wsnLimit = s.dev.store.wsnLimit := Dev.copyView_store hv Store.wsnLimit fun _ => rfl
    have henough : (s.dev.copyRead a).reserveWsn x.span = s.dev.copyRead a :=
      Dev.reserveWsn_enough _ _ (by rw [hn, hl]; exact hlim)
    have hpf : e.pfail = s.dev.pfail := by
      rw [← hlose]
      exact (Dev.pfail_of_mask (Dev.copyOrLose_mask (T := { evt := true, life := true, store := true, eng := true, nv := true })
        rfl rfl rfl rfl rfl ..) rfl).trans (Dev.pfail_of_mask (Dev.copyRead_mask (T := { store := true }) _ _ rfl) rfl)
    have hflush : e.pfail.flush = .none := by
      rw [hpf]
      simp only [Dev.tending, Bool.and_eq_true, beq_iff_eq] at ht
      exact ht.2
    have hnum := hmade.numbered
    rw [Dev.copyFilled_of_none _ _ _ hflush, hnum]
    have hspan : ((s.dev.copyRead a).recordFor ((s.dev.copyRead a).copyFront a) st { x with relocated := true }).span = x.span :=
      rfl
    have hwsn : ((s.dev.copyRead a).recordFor ((s.dev.copyRead a).copyFront a) st { x with relocated := true }).wsn =
      ((s.dev.copyRead a).reserveWsn x.span).store.nextWsn := rfl
    rw [hspan, hwsn, henough, hn]
    exact ⟨rfl, rfl⟩

theorem relocationRecordCopy_pads {x : Record} (hx : s.dev.readForCopy a rd = some x)
    (hroom : s.dev.room (frontOf (regionOfAddr a) 2 (s.dev.stripe (stripeOf a)).kept) x.span = false) :
    ∃ d', exec (.relocationRecordCopy r a rd) s = .next { s with dev := d' } ∧ d'.store.moves = s.dev.store.moves ∧
      d'.store.buf = s.dev.store.buf ∧ d'.store.toCopy = s.dev.store.toCopy := by
  have hv := s.dev.copyRead_copyView a
  have hfront : (s.dev.copyRead a).copyFront a = frontOf (regionOfAddr a) 2 (s.dev.stripe (stripeOf a)).kept := by
    rw [Dev.copyFront, Dev.copyView_stripe hv Stripe.kept fun _ => rfl]
  have hnone := (s.dev.copyRead a).copyRecord_none a x false (by rw [hfront, Dev.copyView_room hv, hroom])
  have hlose : (s.dev.copyRead a).copyOrLose a rd = (s.dev.copyRead a).padRelocation a := by
    rw [Dev.copyOrLose_some _ _ _ ((Dev.copyView_readForCopy hv a rd).trans hx), hnone]
    rfl
  have hpad : ∀ {α : Type} (p : Store → α), (∀ (y : Store) s t c fr pr w l st,
      p { y with regions := s, stripes := t, courses := c, fronts := fr, padRuns := pr, nextWsn := w, wsnLimit := l, blocks := st } =
        p y) → p ((s.dev.copyRead a).padRelocation a).store = p (s.dev.copyRead a).store := by
    intro α p hp
    unfold Dev.padRelocation Dev.padStripe
    split
    · rfl
    · exact Dev.padFront_keep _ _ _ p hp
  have hexec := exec_relocationRecordCopy hc hr hw rd
  rw [hlose] at hexec
  refine ⟨_, hexec, ?_, ?_, ?_⟩
  · rw [Dev.copyFilled_keep _ r.val a Store.moves fun _ _ _ _ _ _ _ _ _ => rfl, hpad Store.moves fun _ _ _ _ _ _ _ _ _ => rfl]
    exact Dev.copyView_store hv Store.moves fun _ => rfl
  · rw [Dev.copyFilled_keep _ r.val a Store.buf fun _ _ _ _ _ _ _ _ _ => rfl, hpad Store.buf fun _ _ _ _ _ _ _ _ _ => rfl]
    exact Dev.copyView_store hv Store.buf fun _ => rfl
  · rw [Dev.copyFilled_keep _ r.val a Store.toCopy fun _ _ _ _ _ _ _ _ _ => rfl, hpad Store.toCopy fun _ _ _ _ _ _ _ _ _ => rfl]
    exact Dev.copyView_store hv Store.toCopy fun _ => rfl

theorem relocationRecordCopy_loses {i b : Nat} (hbuf : s.dev.store.buf.get? a = none)
    (hd : s.dev.onFailedDie a (s.dev.spanAt a) = false) (hrd : rd = .uncorrectable [i] ∨ rd = .uncorrectable [] ∧ i = 0)
    (hb : b = s.dev.sectorAddr a i) :
    ∃ d', exec (.relocationRecordCopy r a rd) s = .next { s with dev := d' } ∧
      (d'.region (regionOfAddr b)).uncorr = bump (s.dev.region (regionOfAddr b)).uncorr ∧
      (d'.stripe (stripeOf b)).retireLater.getLsbD (channelOf b) = true ∧
      d'.eng = s.dev.eng ∧ d'.net = s.dev.net ∧ d'.keys = s.dev.keys := by
  have hv := s.dev.copyRead_copyView a
  have hdie : (s.dev.copyRead a).onFailedDie a ((s.dev.copyRead a).spanAt a) = false := by
    rw [Dev.copyView_spanAt hv, Dev.copyView_onFailedDie hv, hd]
  have hnone : (s.dev.copyRead a).readForCopy a rd = none := by
    have hb' : (s.dev.copyRead a).store.buf.get? a = none := by rw [Dev.copyView_buf hv, hbuf]
    obtain rfl | ⟨rfl, -⟩ := hrd
    · exact Dev.readForCopy_uncorrectable _ _ hb' hdie
    · exact Dev.readForCopy_uncorrectable _ _ hb' hdie
  have hexec := exec_relocationRecordCopy hc hr hw rd
  rw [Dev.copyOrLose_lost _ _ _ hnone hdie hrd, Dev.copyView_sectorAddr hv, ← hb] at hexec
  obtain ⟨hu, -, hl⟩ := (s.dev.copyRead a).lostSector_counts b 1
  have hm : ∀ {T : Groups}, T.evt = true → T.life = true → T.store = true → T.nv = true →
      (((s.dev.copyRead a).lostSector b 1).copyFilled r.val a).mask T = s.dev.mask T := fun h1 h2 h3 h4 =>
    (Dev.copyFilled_mask _ _ _ h1 h2 h3 h4).trans ((Dev.lostSector_mask h1 h2 h3 ..).trans (Dev.copyRead_mask _ _ h3))
  refine ⟨_, hexec, ?_, ?_, ?_, ?_, ?_⟩
  · rw [Dev.copyFilled_uncorr, hu, Dev.copyView_region hv]
  · rw [Dev.copyFilled_retireLater]
    exact hl
  · exact Dev.eng_of_mask (hm (T := { store := true, nv := true, evt := true, life := true }) rfl rfl rfl rfl) rfl
  · exact Dev.net_of_mask (hm (T := { store := true, nv := true, evt := true, life := true }) rfl rfl rfl rfl) rfl
  · exact Dev.keys_of_mask (hm (T := { store := true, nv := true, evt := true, life := true }) rfl rfl rfl rfl) rfl

theorem relocationRecordCopy_leaves (hbuf : s.dev.store.buf.get? a = none)
    (hd : s.dev.onFailedDie a (s.dev.spanAt a) = true) :
    ∃ d', exec (.relocationRecordCopy r a rd) s = .next { s with dev := d' } ∧
      (d'.region r.val).uncorr = (s.dev.region r.val).uncorr ∧ d'.store.moves = s.dev.store.moves := by
  have hv := s.dev.copyRead_copyView a
  have hdie : (s.dev.copyRead a).onFailedDie a ((s.dev.copyRead a).spanAt a) = true := by
    rw [Dev.copyView_spanAt hv, Dev.copyView_onFailedDie hv, hd]
  have hnone := Dev.readForCopy_failedDie (s.dev.copyRead a) a rd (by rw [Dev.copyView_buf hv, hbuf]) hdie
  have hexec := exec_relocationRecordCopy hc hr hw rd
  rw [Dev.copyOrLose_failedDie _ _ _ hnone hdie] at hexec
  refine ⟨_, hexec, ?_, ?_⟩
  · rw [Dev.copyFilled_uncorr, Dev.copyView_region hv]
  · rw [Dev.copyFilled_keep _ r.val a Store.moves fun _ _ _ _ _ _ _ _ _ => rfl]
    exact Dev.copyView_store hv Store.moves fun _ => rfl

end

/-! ## RELOCATED_STRIPE_ERASE (R210, R219) -/

section
variable (d : Dev) (st : Nat)

/-- The members of a stripe that its next content will have. -/
def Dev.members (st : Nat) (d : Dev) : List Nat := channelsOf (d.presentFor st (d.stripe st).egen)

/-- Every member of a stripe is erased. -/
def Dev.membersErased (st : Nat) (d : Dev) : Dev := Dev.each (d.members st) (fun c => Dev.eraseBlock st c) d

theorem Dev.membersErased_keep {α : Type} (p : Store → α) (hp : ∀ (x : Store) b, p { x with blocks := b } = p x) :
    p (d.membersErased st).store = p d.store :=
  Dev.each_keep (fun e => p e.store) _ (fun c => Dev.eraseBlock st c) (fun c e => e.eraseBlock_keep st c p hp) d

theorem Dev.membersErased_presentFor (s e : Nat) : (d.membersErased st).presentFor s e = d.presentFor s e :=
  Dev.each_keep (fun x => x.presentFor s e) _ (fun c => Dev.eraseBlock st c) (fun c x => x.eraseBlock_presentFor st c s e) d

theorem Dev.membersErased_stripe (k : Nat) : (d.membersErased st).stripe k = d.stripe k :=
  d.membersErased_keep st (fun y => y.stripes.get ({} : Stripe) k) fun _ _ => rfl

/-- Nothing is left of a stripe on the channels of its members. -/
theorem Dev.membersErased_flash {c : Nat} (hc : c ∈ d.members st) :
    ∀ x ∈ (d.membersErased st).nv.flash, stripeOf x.1 ≠ st ∨ channelOf x.1 ≠ c :=
  Dev.each_reaches (P := fun e => ∀ x ∈ e.nv.flash, stripeOf x.1 ≠ st ∨ channelOf x.1 ≠ c) hc
    (fun e x hx => (e.eraseBlock_flash st c x hx).2) (fun b e he x hx => he x (e.eraseBlock_flash st b x hx).1) d

/-- A region counts a stripe that it has relocated. -/
def Region.relocated (forRefresh : Bool) (x : Region) : Region :=
  if forRefresh then { x with refreshes := bump x.refreshes } else { x with gcStripes := bump x.gcStripes }

/-- A relocated stripe whose members have been erased is counted, and free. -/
def Dev.stripeFreed (r st : Nat) (forRefresh : Bool) (d : Dev) : Dev :=
  ((d.membersErased st).onRegion r (Region.relocated forRefresh)).onStripe st
    fun x => { state := .free, erased := true, egen := x.egen }

theorem Dev.stripeFreed_stripe (r : Nat) (b : Bool) :
    (d.stripeFreed r st b).stripe st = { state := .free, erased := true, egen := (d.stripe st).egen } := by
  rw [Dev.stripeFreed, Dev.stripe_onStripe, ← d.membersErased_stripe st st]
  rfl

theorem Dev.stripeFreed_flash (r : Nat) (b : Bool) {c : Nat} (hc : c ∈ d.members st) :
    ∀ x ∈ (d.stripeFreed r st b).nv.flash, stripeOf x.1 ≠ st ∨ channelOf x.1 ≠ c := d.membersErased_flash st hc

theorem Dev.stripeFreed_region (r : Nat) (b : Bool) : (d.stripeFreed r st b).region r = (d.region r).relocated b := by
  have hr : (d.membersErased st).region r = d.region r :=
    d.membersErased_keep st (fun y => y.regions.get ({} : Region) r) fun _ _ => rfl
  have h : (d.stripeFreed r st b).region r = ((d.membersErased st).region r).relocated b :=
    (d.membersErased st).region_onRegion r (Region.relocated b)
  rw [h, hr]

/-- The generation of a stripe has risen for its erase, where it had not. -/
def Dev.risen (st : Nat) (d : Dev) : Dev := if (d.stripe st).raised then d else d.raiseEgen st

/-- The generation that an erase takes, where nothing of the stripe is to be retired and no epoch advances. -/
structure Dev.Rises (d : Dev) (st e : Nat) : Prop where
  seals : (d.stripe st).epochGens = []
  egen : (d.stripe st).raised = true ∧ e = (d.stripe st).egen ∨ (d.stripe st).raised = false ∧
    (d.stripe st).retireLater = 0 ∧ e = (d.stripe st).egen + 1 ∧ e % 4096 ≠ 0

variable {d st} {e : Nat} (h : d.Rises st e)
include h

theorem Dev.Rises.risen_eq : d.risen st = d ∨ d.risen st = d.onStripe st fun y => { y with egen := e, raised := true } := by
  unfold Dev.risen
  obtain ⟨hr, -⟩ | ⟨hr, -, he, hm⟩ := h.egen
  · exact .inl (if_pos hr)
  · rw [hr, if_neg Bool.false_ne_true, d.raiseEgen_of_mod st (he ▸ hm), ← he]
    exact .inr rfl

theorem Dev.Rises.risen_egen : ((d.risen st).stripe st).egen = e := by
  unfold Dev.risen
  obtain ⟨hr, he⟩ | ⟨hr, -, he, hm⟩ := h.egen
  · rw [if_pos hr, he]
  · rw [hr, if_neg Bool.false_ne_true, d.raiseEgen_of_mod st (he ▸ hm), Dev.stripe_onStripe, he]

theorem Dev.Rises.risen_keep {α : Type} (p : Store → α) (hp : ∀ (x : Store) t, p { x with stripes := t } = p x) :
    p (d.risen st).store = p d.store := by
  obtain h1 | h1 := h.risen_eq
  · rw [h1]
  · rw [h1]
    exact d.onStripe_keep st p _ hp

theorem Dev.Rises.risen_seals : ((d.risen st).stripe st).epochGens = [] := by
  obtain h1 | h1 := h.risen_eq
  · rw [h1]
    exact h.seals
  · rw [h1, Dev.stripe_onStripe]
    exact h.seals

theorem Dev.Rises.risen_members : (d.risen st).members st = channelsOf (d.presentFor st e) := by
  rw [Dev.members, h.risen_egen]
  exact congrArg channelsOf (Dev.presentFor_congr st
    (fun k => h.risen_keep (fun y => (y.blocks.get ({} : BlockEntry) k).state) fun _ _ => rfl)
    (fun k => h.risen_keep (fun y => (y.blocks.get ({} : BlockEntry) k).retireEgen) fun _ _ => rfl)
    (h.risen_keep (fun y => y.geom.getD ({} : Geometry)) fun _ _ => rfl) e)

end

theorem exec_relocatedStripeErase {s : State} {r : RegionId} {st e : Nat} (ht : s.dev.tending r.val = true)
    (hr : stripeRegion st = r.val) (hm : s.dev.mayErase st = true) (h : s.dev.Rises st e)
    (h12 : 12 ≤ (channelsOf (s.dev.presentFor st e)).length)
    (hq : ∀ c ∈ channelsOf (s.dev.presentFor st e), (s.dev.store.queues.get {} (stripeDie st c)).suspended = false) :
    exec (.relocatedStripeErase r st 0) s =
      .next { s with dev := (s.dev.risen st).stripeFreed r.val st (s.dev.stripe st).forRefresh } := by
  have hexec : exec (.relocatedStripeErase r st 0) s = execRelocatedStripeErase r st 0 s := rfl
  rw [hexec, execRelocatedStripeErase, onDev_guarded (by simp [ht, hr, hm])]
  extract_lets y d1 members d2 d3
  have hd1 : d1 = s.dev.risen st := by
    unfold d1 Dev.risen
    obtain ⟨hrs, -⟩ | ⟨hrs, hl, -, -⟩ := h.egen
    · rw [if_pos hrs, if_pos hrs]
    · have hnil : channelsOf y.retireLater = [] := by
        rw [show y.retireLater = 0 from hl]
        decide
      rw [if_neg (by rw [show y.raised = false from hrs]; decide), if_neg (by rw [hrs]; decide), hnil]
      rfl
  have hmem : members = channelsOf (s.dev.presentFor st e) := by
    rw [← h.risen_members, ← hd1]
    rfl
  have hseal : d1.sealedAll (d1.stripe st).epochGens = true := by
    rw [hd1, h.risen_seals]
    rfl
  have hsus : (members.any fun c => (d1.store.queues.get {} (stripeDie st c)).suspended) = false := by
    refine List.any_eq_false.mpr fun c hc => ?_
    rw [hd1, h.risen_keep Store.queues fun _ _ => rfl, hq c (hmem ▸ hc)]
    exact Bool.false_ne_true
  have h2 : d2 = d1.membersErased st := by
    have hz : ∀ c, (0 : BitVec 16).getLsbD c = false := fun c => by simp
    unfold d2
    simp only [hz, Bool.false_eq_true, if_false]
    rfl
  clear_value d2
  have hlen : ¬(channelsOf (d3.presentFor st (d3.stripe st).egen)).length < 12 := by
    have hp : d3.presentFor st (d3.stripe st).egen = d2.presentFor st (d2.stripe st).egen := rfl
    rw [hp, h2, Dev.membersErased_stripe, Dev.membersErased_presentFor, hd1]
    rw [show channelsOf _ = _ from h.risen_members]
    exact Nat.not_lt.mpr h12
  rw [hseal, hsus, if_neg (by decide), if_neg hlen, ← hd1]
  unfold d3
  rw [h2]
  rfl

/-- Settles O43, by the victim that is marked, the place and the move of a copy, the losses that a failed read leaves,
and the members and the counter of a stripe that is erased. -/
theorem stripesAreRelocated : Obligations.StripesAreRelocated := by
  unfold Obligations.StripesAreRelocated
  refine ⟨fun s r _ hw => gcVictimSelect_wakes hw,
    fun s r ht hw => ⟨fun v b hv => gcVictimSelect_takes ht hw hv, gcVictimSelect_none ht hw⟩,
    fun s r a rd hc hr hw => ⟨fun x f st new hx hf hroom hs hnew hne =>
      relocationRecordCopy_copies hc hr hw hx hf hroom hs hnew hne,
      fun x hx hroom => relocationRecordCopy_pads hc hr hw hx hroom,
      fun i b hbuf hd hrd hb => relocationRecordCopy_loses hc hr hw hbuf hd hrd hb,
      fun hbuf hd => relocationRecordCopy_leaves hc hr hw hbuf hd⟩,
    fun s r st e ht hr hm hseal hegen h12 hq => ?_⟩
  have h : s.dev.Rises st e := ⟨hseal, hegen⟩
  have hreg : (s.dev.risen st).region r.val = s.dev.region r.val :=
    h.risen_keep (fun y => y.regions.get ({} : Region) r.val) fun _ _ => rfl
  refine ⟨_, exec_relocatedStripeErase ht hr hm h h12 hq, ?_, fun c hc => ?_, fun hf => ?_, fun hf => ?_⟩
  · rw [Dev.stripeFreed_stripe, h.risen_egen]
  · exact Dev.stripeFreed_flash _ _ _ _ (by rw [h.risen_members]; exact hc)
  · rw [Dev.stripeFreed_region, hf, hreg]
    rfl
  · rw [Dev.stripeFreed_region, hf, hreg]
    rfl

end Sys2Proof.Machine
end

section
/-!
PROOFS. FMT: its checks, what an accepted format leaves, and the seals that a format writes (R200, R201).
-/
namespace Sys2Proof.Machine

/-! ## FMT is checked and accepted (R200, R201) -/

section
variable {s : State} {ctx : CtxId} {i : Nat} {c : Coach}

theorem Dev.setPhase_keep {α : Type} (d : Dev) (n : Nat) (p : Store → α) (hp : ∀ (y : Store) t, p { y with regions := t } = p y) :
    p (d.setPhase n).store = p d.store := by
  unfold Dev.setPhase
  exact Dev.each_keep (fun e => p e.store) _ (fun r e => e.onRegion r fun x => { x with fmtPhase := BitVec.ofNat 3 n })
    (fun r e => e.onRegion_keep r p _ hp) d

/-- Every region shows the phase that is set (MEDIA_FMT). -/
theorem Dev.setPhase_region (d : Dev) (n r : Nat) (hr : r < 8) : ((d.setPhase n).region r).fmtPhase = BitVec.ofNat 3 n := by
  unfold Dev.setPhase
  refine Dev.each_reaches (P := fun e => (e.region r).fmtPhase = BitVec.ofNat 3 n) (List.mem_range.mpr hr) (fun e => ?_)
    (fun b e he => ?_) d
  · rw [Dev.region_onRegion]
  · by_cases hb : r = b
    · rw [hb, Dev.region_onRegion]
    · rw [Dev.region_onRegion_ne _ _ hb, he]

/-- An FMT that is accepted is noted, and its regions show that it waits. -/
def Dev.formatNoted (x : FormatAsk) (g : Geometry) (d : Dev) : Dev :=
  (d.onStore fun y => { y with fmtRunning := true, fmtAsk := g, fmtErase := x.erase, fmtWaits := d.runningCoaches }).setPhase 1

theorem fmtEffect_error {d : Dev} {bd : Board} {w : Fields} {st : Byte} (h : d.formatCheck bd c w = .error st) :
    fmtEffect bd i c w d = d.endWith i st id := by
  rw [fmtEffect, h]
  rfl

theorem fmtEffect_ok {d : Dev} {bd : Board} {w : Fields} {x : FormatAsk} {g : Geometry} (h : d.formatCheck bd c w = .ok (x, g)) :
    fmtEffect bd i c w d = (d.formatNoted x g).endWith i stOk id := by
  rw [fmtEffect, h]
  rfl

theorem exec_fmt (h : s.dev.Acts ctx i c 0x46) :
    exec (.fmt ctx) s = .next { s with dev := noted (fmtEffect s.board) i c c.current s.dev } :=
  runActing_at _ h

theorem fmt_refused {st : Byte} (h : s.dev.Acts ctx i c 0x46) (hchk : s.dev.formatCheck s.board c c.current = .error st) :
    ∃ d' c', exec (.fmt ctx) s = .next { s with dev := d' } ∧ s.dev.Becomes d' i c' ∧ c'.run = c.run.answers st := by
  obtain ⟨b, hb⟩ := becomes_noted_endWith (fmtEffect_error hchk) h.coach
  exact ⟨_, _, exec_fmt h, hb, rfl⟩

theorem fmt_accepted {x : FormatAsk} {g : Geometry} (h : s.dev.Acts ctx i c 0x46)
    (hchk : s.dev.formatCheck s.board c c.current = .ok (x, g)) :
    ∃ d' c', exec (.fmt ctx) s = .next { s with dev := d' } ∧ d'.coach? i = some c' ∧ c'.run = c.run.answers 0x00 ∧
      d'.store.fmtRunning = true ∧ d'.store.fmtAsk = g ∧ d'.store.fmtErase = x.erase ∧
      d'.store.fmtWaits = s.dev.runningCoaches ∧
      (∀ r, r < 8 → d'.closedRegion r = true ∧ (d'.region r).fmtPhase = 1) ∧ d'.nv = s.dev.nv := by
  have heff := fmtEffect_ok (i := i) hchk
  have heng : (s.dev.formatNoted x g).eng = s.dev.eng := Dev.eng_of_mask (Dev.setPhase_mask (T := { store := true }) rfl ..) rfl
  have hnv : (s.dev.formatNoted x g).nv = s.dev.nv := Dev.nv_of_mask (Dev.setPhase_mask (T := { store := true }) rfl ..) rfl
  have hcoach : (s.dev.formatNoted x g).coach? i = some c := (congrArg (·.coaches.get? i) heng).trans h.coach
  obtain ⟨b, hb⟩ := noted_endWith heff hcoach
  have hstore : (noted (fmtEffect s.board) i c c.current s.dev).store = (s.dev.formatNoted x g).store := by
    rw [noted_store, heff, Dev.endWith_store]
  have hkeep : ∀ {α : Type} (p : Store → α), (∀ (y : Store) t, p { y with regions := t } = p y) →
      p (noted (fmtEffect s.board) i c c.current s.dev).store =
        p { s.dev.store with fmtRunning := true, fmtAsk := g, fmtErase := x.erase, fmtWaits := s.dev.runningCoaches } :=
    fun p hp => (congrArg p hstore).trans (Dev.setPhase_keep _ 1 p hp)
  have hrun := hkeep Store.fmtRunning fun _ _ => rfl
  refine ⟨_, _, exec_fmt h, hb, rfl, hrun, hkeep Store.fmtAsk fun _ _ => rfl, hkeep Store.fmtErase fun _ _ => rfl,
    hkeep Store.fmtWaits fun _ _ => rfl, fun r hr => ⟨?_, ?_⟩, ?_⟩
  · rw [Dev.closedRegion, Dev.closedAll, hrun, Bool.true_or, Bool.or_true]
  · rw [Dev.region_of_store hstore]
    exact Dev.setPhase_region _ 1 r hr
  · rw [noted_nv, heff, Dev.endWith_nv, hnv]

end

/-! ## Seals within a format (R197, R220, R221) -/

section
variable {α : Type} (d : Dev) (r : Nat) (p : Store → α) (hp : ∀ (y : Store) s t c fr bf w l b,
  p { y with regions := s, stripes := t, courses := c, fronts := fr, buf := bf, nextWsn := w, wsnLimit := l, blocks := b } = p y)
include hp

theorem Dev.placeMeta_keep (x : Record) (q : Nat × Dev) (h : d.placeMeta r x = some q) : p q.2.store = p d.store := by
  unfold Dev.placeMeta at h
  split at h
  · rw [← Option.some.inj h]
    exact d.place_keep _ x false p hp
  · cases h

theorem Dev.writeChunks_keep (c : Checkpoint) : p (d.writeChunks r c).2.store = p d.store := by
  unfold Dev.writeChunks
  extract_lets due
  refine Dev.whileRoom_keep d (fun e => p e.store) due _ fun a e e' he => ?_
  obtain ⟨q, hq, rfl⟩ := Option.map_eq_some_iff.mp he
  exact (q.2.onRegion_keep r p _ fun y s => hp y s _ _ _ _ _ _ _).trans (e.placeMeta_keep r p hp _ q hq)

theorem Dev.writeManifests_keep (gen : Nat) : p (d.writeManifests r gen).2.store = p d.store := by
  unfold Dev.writeManifests
  refine Dev.whileRoom_keep d (fun e => p e.store) _ _ fun a e e' he => ?_
  obtain ⟨q, hq, rfl⟩ := Option.map_eq_some_iff.mp he
  exact (q.2.onRegion_keep r p _ fun y s => hp y s _ _ _ _ _ _ _).trans (e.placeMeta_keep r p hp _ q hq)

theorem Dev.writeSeal_keep : p (d.writeSeal r).2.store = p d.store := by
  have hc := d.writeChunks_keep r p hp (d.noteTables r)
  unfold Dev.writeSeal
  extract_lets noted
  split
  · next e h => exact (congrArg (fun q : Bool × Dev => p q.2.store) h).symm.trans hc
  · next e h =>
    have hm := e.writeManifests_keep r p hp noted.gen
    have he : p e.store = p d.store := (congrArg (fun q : Bool × Dev => p q.2.store) h).symm.trans hc
    split
    · next e' h' => exact (congrArg (fun q : Bool × Dev => p q.2.store) h').symm.trans (hm.trans he)
    · next e' h' =>
      have he' : p e'.store = p d.store := (congrArg (fun q : Bool × Dev => p q.2.store) h').symm.trans (hm.trans he)
      split
      · exact he'
      · next a e'' hpl => exact (e'.placeMeta_keep r p hp _ (a, e'') hpl).trans he'

end
end Sys2Proof.Machine
end

section
/-!
PROOFS. What a format keeps while it seals: no names and no keys (R197, R201).
-/
namespace Sys2Proof.Machine

/-! ## What a format keeps once it has cleared the tables (R197, R201) -/

/-- The format's geometry, and the tables that name keys: namespaces, their changes and the directory. -/
def Store.named (y : Store) : Option Geometry × Tab Namespace × Tab NsChange × Tab DirUnit :=
  (y.geom, y.namespaces, y.nsChanges, y.dir)

/-- No namespace, directory unit or key is left, under geometry `o`; the fail-safe reason is `reason`. -/
structure Dev.Formatted (o : Option Geometry) (reason : Byte) (d : Dev) : Prop where
  named : d.store.named = (o, [], [], [])
  table : d.keys.table = {}
  sealed : d.keys.store = []
  reason : d.chip.reason = reason

/-- Every group but the chip registers and the keys. -/
def Groups.allButKeysChip : Groups := { Groups.allButChip with keys := false }

namespace Dev.Formatted
variable {o : Option Geometry} {reason : Byte} {d e : Dev} (h : d.Formatted o reason)
include h

theorem dir : d.store.dir = [] := congrArg (·.2.2.2) h.named
theorem nsChanges : d.store.nsChanges = [] := congrArg (·.2.2.1) h.named

theorem of (hs : e.store.named = d.store.named) (hk : e.keys = d.keys) (hr : e.chip.reason = d.chip.reason) :
    e.Formatted o reason :=
  ⟨hs.trans h.named, by rw [hk, h.table], by rw [hk, h.sealed], hr.trans h.reason⟩

/-- An effect that leaves the keys, the chip registers and what the store names leaves the format. -/
theorem of_mask (hs : e.store.named = d.store.named) (hm : e.mask .allButKeysChip = d.mask .allButKeysChip) :
    e.Formatted o reason :=
  h.of hs (Dev.keys_of_mask hm rfl) (congrArg Chip.reason (Dev.chip_of_mask hm rfl))

theorem onRegion (k : Nat) (f : Region → Region) : (d.onRegion k f).Formatted o reason := h.of rfl rfl rfl
theorem onStripe (k : Nat) (f : Stripe → Stripe) : (d.onStripe k f).Formatted o reason := h.of rfl rfl rfl

theorem setPhase (n : Nat) : (d.setPhase n).Formatted o reason :=
  h.of_mask (d.setPhase_keep n Store.named fun _ _ => rfl) (Dev.setPhase_mask rfl n d)

theorem eraseBlock (st c : Nat) : (d.eraseBlock st c).Formatted o reason := h.of rfl rfl rfl

theorem openMetadata (r st : Nat) : (d.openMetadata r st).Formatted o reason := by
  unfold Dev.openMetadata
  extract_lets d2 d1
  have h1 : d1.Formatted o reason := by
    unfold d1
    split
    · exact h
    · exact Dev.each_invariant (P := Dev.Formatted o reason) _ (fun c _ e he => he.eraseBlock st c) d2 (h.onStripe st _)
  clear_value d1
  exact h1.of_mask (d1.takeStripe_keep _ st Store.named fun _ _ _ _ => rfl) (by simp [Groups.allButKeysChip, Groups.allButChip])

theorem writeSeal (r : Nat) : (d.writeSeal r).2.Formatted o reason :=
  h.of_mask (d.writeSeal_keep r Store.named fun _ _ _ _ _ _ _ _ _ => rfl) (Dev.writeSeal_mask rfl rfl rfl rfl r d)

theorem padStripe (f : Nat) : (d.padStripe f).Formatted o reason := by
  unfold Dev.padStripe
  split
  · exact h
  · exact h.of_mask (d.padFront_keep f _ Store.named fun _ _ _ _ _ _ _ _ _ => rfl)
      (by simp [Groups.allButKeysChip, Groups.allButChip])

theorem padCourses (f n : Nat) : (d.padCourses f n).Formatted o reason :=
  h.of_mask (d.padCourses_keep f n Store.named fun _ _ _ _ _ _ _ _ _ => rfl)
    (by simp [Groups.allButKeysChip, Groups.allButChip])

theorem programUnit (st p c : Nat) : (d.programUnit st p c).Formatted o reason :=
  h.of_mask (d.programUnit_keep (c := c) Store.named st p fun _ _ => rfl) (by simp [Groups.allButKeysChip, Groups.allButChip])

theorem settleStripe (st : Nat) : (d.settleStripe st).Formatted o reason :=
  h.of_mask (d.settleStripe_keep st Store.named fun _ _ => rfl) (by simp [Groups.allButKeysChip, Groups.allButChip])

theorem courseProgrammed (k : Nat) (x : Course) : (d.courseProgrammed k x).Formatted o reason := by
  unfold Dev.courseProgrammed
  extract_lets d1 mark d2 d3
  have h2 : d2.Formatted o reason := h.of rfl rfl rfl
  have h3 : d3.Formatted o reason := by
    unfold d3
    split
    · exact h2
    · exact h2.of rfl rfl rfl
  have h4 : d3.unitsProgrammed.Formatted o reason := by
    clear_value d3
    have hd : d3.unitsProgrammed.store.dir = d3.store.dir := by
      simp only [Dev.unitsProgrammed, Dev.onStore, h3.dir]
      rfl
    exact h3.of (congrArg (fun u => (d3.store.geom, d3.store.namespaces, d3.store.nsChanges, u)) hd) rfl rfl
  exact Dev.Formatted.settleStripe (h4.of_mask (Dev.leaveFull_keep _ _ Store.named _ fun _ _ => rfl)
    (by simp [Groups.allButKeysChip, Groups.allButChip])) _

theorem switchIndex (old new : Nat) (x : Record) : (d.switchIndex old new x).Formatted o reason := by
  have hm : (d.switchIndex old new x).mask .allButKeysChip = d.mask .allButKeysChip := by
    simp [Groups.allButKeysChip, Groups.allButChip]
  refine h.of_mask ?_ hm
  have hr : ∀ (e : Dev) k f, (e.onRegion k f).store.dir = e.store.dir := fun _ _ _ => rfl
  have hrest := d.switchIndex_keep (fun y => (y.geom, y.namespaces, y.nsChanges)) old new x fun _ _ _ => rfl
  have hdir : (d.switchIndex old new x).store.dir = d.store.dir := by
    unfold Dev.switchIndex
    extract_lets r f c d1 d2 move
    have h1 : d1.store.dir = d.store.dir := by
      unfold d1
      split
      · rfl
      · split
        · rfl
        · rfl
    have h2 : d2.store.dir = d1.store.dir := by
      unfold d2
      split
      · rfl
      · rfl
    have h3 : d2.store.dir = [] := h2.trans (h1.trans h.dir)
    exact ((congrArg (Tab.mapVals move) h3).trans rfl).trans h.dir.symm
  have hgeom := congrArg Prod.fst hrest
  have hspaces := congrArg (fun q => q.2.1) hrest
  have hchanges := congrArg (fun q => q.2.2) hrest
  exact Prod.ext hgeom (Prod.ext hspaces (Prod.ext hchanges hdir))

theorem releaseUnits (a : Nat) : (d.releaseUnits a).Formatted o reason := by
  have hid : d.releaseUnits a = d := by
    unfold Dev.releaseUnits
    rw [h.dir]
    rfl
  rw [hid]
  exact h

theorem settleRecord (a : Nat) (x : BufRec) : (d.settleRecord a x).Formatted o reason := by
  unfold Dev.settleRecord
  extract_lets held free d1 d2 d3
  have h2 : d2.Formatted o reason := h.of rfl rfl rfl
  have h3 : d3.Formatted o reason := by
    unfold d3
    split
    · exact h2
    · next m _ =>
      extract_lets e1 e2 e3
      have k1 : e1.Formatted o reason := h2.switchIndex m.old a x.rec_
      clear_value e1
      have k2 : e2.Formatted o reason := k1.of rfl rfl rfl
      have k3 : e3.Formatted o reason := by
        unfold e3
        split
        · exact ⟨k2.named, k2.table, k2.sealed, k2.reason⟩
        · exact k2
      exact Dev.each_invariant (P := Dev.Formatted o reason) _ (fun c _ e he => he.settleStripe c) e3 k3
  exact h3.releaseUnits a

theorem verifyCourse (k : Nat) (x : Course) : (d.verifyCourse k x).Formatted o reason := by
  rw [Dev.verifyCourse_eq]
  have h1 : (d.courseGone k).Formatted o reason := h.of rfl rfl rfl
  exact (Dev.each_invariant (P := Dev.Formatted o reason) _ (fun (e : Nat × BufRec) _ d he => he.settleRecord e.1 e.2) _ h1
    ).settleStripe x.stripe

theorem runMetadata (r : Nat) : (d.runMetadata r).Formatted o reason := by
  unfold Dev.runMetadata
  refine Dev.each_invariant (P := Dev.Formatted o reason) _ (fun k _ e he => ?_) d h
  unfold Dev.runCourse
  have hu := Dev.each_invariant (P := Dev.Formatted o reason) (channelsOf (e.stripe k.2.stripe).present)
    (fun c _ y hy => hy.programUnit k.2.stripe k.2.page c) e he
  exact (hu.courseProgrammed k.1 k.2).verifyCourse k.1 k.2

theorem sealThrough (r n : Nat) : (d.sealThrough r n).2.Formatted o reason := by
  induction n generalizing d with
  | zero => exact h
  | succ n ih =>
    unfold Dev.sealThrough
    split
    · exact h
    · next st _ =>
      have hw := (h.openMetadata r st).writeSeal r
      split
      · next e he =>
        rw [he] at hw
        exact hw
      · next e he =>
        rw [he] at hw
        exact ih ((hw.padStripe _).runMetadata r)

theorem putKeystone (fate : KeystoneFate) (r : Nat) (x : Keystone) : (d.putKeystone fate r x).Formatted o reason :=
  h.of_mask (d.putKeystone_keep r x fate Store.named fun _ _ _ _ => rfl) (by simp [Groups.allButKeysChip, Groups.allButChip])

theorem nameSeal (fate : KeystoneFate) (r : Nat) (c : Checkpoint) : (d.nameSeal fate r c).Formatted o reason := by
  rw [Dev.nameSeal_eq]
  have h1 := ((h.putKeystone fate r (d.sealKeystone r c)).of (e := (d.putKeystone fate r (d.sealKeystone r c)).onMedia r fun m =>
    { m with checkpoints := c :: m.checkpoints.take 1 }) rfl rfl rfl).onRegion r
      (Region.sealed c (Dev.uncovered c (d.region r).reserved))
  have hid : ∀ {e : Dev}, e.Formatted o reason → e.applySealed = e := fun {e} he => by
    rw [Dev.applySealed, he.nsChanges]
    rfl
  rw [hid h1]
  exact h1

theorem sealNow (fate : KeystoneFate) (r : Nat) : (d.sealNow fate r).Formatted o reason := by
  have hs := h.sealThrough r (d.eligible r).length
  unfold Dev.sealNow
  split
  · next e he =>
    have h1 : e.Formatted o reason := by
      rw [he] at hs
      exact hs
    exact h1.of_mask (e.writeKeystone_keep r fate Store.named fun _ _ _ _ => rfl)
      (by simp [Groups.allButKeysChip, Groups.allButChip])
  · next c e he =>
    have h1 : e.Formatted o reason := by
      rw [he] at hs
      exact hs
    extract_lets e1
    exact (((h1.padCourses _ 4).runMetadata r).onRegion r _).nameSeal fate r c

theorem firstSeal (r : Nat) : (d.firstSeal r).Formatted o reason := by
  unfold Dev.firstSeal
  extract_lets d1
  exact ((h.onRegion r _).sealNow _ r).onRegion r _

theorem deriveWriteState (r : Nat) : (d.deriveWriteState r).Formatted o reason := h.of rfl rfl rfl

end Dev.Formatted
end Sys2Proof.Machine
end

section
/-!
PROOFS. The steps of a format and its end (R201).
-/
namespace Sys2Proof.Machine

/-! ## The steps of a format (R201) -/

/-- The tables are cleared and the block table is carried forward (R201 steps 3 and 4). -/
def Dev.formatCleared (bd : Board) (d : Dev) : Dev :=
  ((d.clearTables.setPhase 2).carryBlocks bd).onPins fun p => { p with wpHigh := true }

/-- The geometry that is made, before its seeds are drawn, with its log blocks. -/
def Dev.formatAssigned (fu : Fuses) (bd : Board) (d : Dev) : Geometry × Dev :=
  (d.formatCleared bd).assignLog { (d.formatCleared bd).store.fmtAsk with
    fmtgen := nextFmtgen d.currentFmtgen, deviceId := fu.deviceId, fmtTime := (d.formatCleared bd).wallNow, wsnBase := d.unusedWsn }

/-- The geometry that is made, and the device once its seeds are drawn. -/
def Dev.formatDrawn (fu : Fuses) (bd : Board) (d : Dev) : Geometry × Dev :=
  (d.formatAssigned fu bd).2.drawSeeds (d.formatAssigned fu bd).1

/-- The geometry takes effect. -/
def Dev.formatNamed (fu : Fuses) (bd : Board) (d : Dev) : Dev :=
  ((d.formatDrawn fu bd).2.setBudgets (d.formatDrawn fu bd).1).onStore fun x =>
    { x with geom := some (d.formatDrawn fu bd).1, nextWsn := (d.formatDrawn fu bd).1.wsnBase
             wsnLimit := (d.formatDrawn fu bd).1.wsnBase + 2 ^ 32 }

/-- What is left of the format before is erased, where asked or where the generations wrap. -/
def Dev.formatErased (g : Geometry) (wrap : Bool) (d : Dev) : Dev :=
  let short := d.thinStripes.filter fun s => decide ((channelsOf (d.membersNext s)).length < 12)
  let d := Dev.each short (fun s => Dev.onStripe s fun x => { x with state := .retired }) d
  let d := if d.store.fmtErase || wrap then (d.setPhase 4).eraseAll g else d
  d.onNv fun n => { n with
    flash := n.flash.filter fun e => e.2.fmtgen != g.fmtgen, pads := n.pads.filter fun e => e.2.fmtgen != g.fmtgen }

/-- What R197 writes: geometry copies, keystones and first seals. -/
def Dev.formatWritten (g : Geometry) (d : Dev) : Dev :=
  let d := Dev.each (List.range 8) Dev.clearKeystones (Dev.each (List.range 8) (Dev.writeGeometry g) (d.setPhase 3))
  let d := Dev.each (List.range 8) (Dev.firstKeystone g) d
  let d := d.onChip fun c => { c with nclkSel := BitVec.ofNat 2 g.nclk }
  Dev.each d.openRegions (fun r d => (d.deriveWriteState r).firstSeal r) d

/-- The log and the device description table follow, and the format has ended. -/
def Dev.formatEnded (deviceId : W64) (d : Dev) : Dev :=
  let d := d.openLogOnce.programFoundation
  let d := (d.onFw fun f => { f with ttrMs := d.nv.ttr }).buildDdt deviceId
  let d := d.onStore fun x => { x with fmtRunning := false, fmtAsk := {}, fmtErase := false, fmtWaits := [] }
  d.setPhase 5

/-- A format in service. -/
theorem Dev.format_inService {fu : Fuses} {bd : Board} {m : Memories} {d : Dev} (h : d.chip.state = 1) :
    d.format fu bd m = (((d.formatNamed fu bd).formatErased (d.formatDrawn fu bd).1
      (decide (65535 ≤ d.currentFmtgen))).formatWritten (d.formatDrawn fu bd).1).formatEnded fu.deviceId := by
  have hs : (d.chip.state == 2) = false := by rw [h]; rfl
  unfold Dev.format
  rw [hs]
  rfl

/-! ## What each step leaves -/

section
variable (d : Dev) (bd : Board)

theorem Dev.carryBlocks_keep {α : Type} (p : Store → α) (hp : ∀ (y : Store) b, p { y with blocks := b } = p y) :
    p (d.carryBlocks bd).store = p d.store := by
  unfold Dev.carryBlocks
  extract_lets d1
  exact (Dev.each_keep (fun e => p e.store) _ _ (fun b e => e.onBlock_keep b p _ hp) d1).trans (hp d.store _)

theorem Dev.clearTables_formatted : d.clearTables.Formatted d.store.geom d.chip.reason := ⟨rfl, rfl, rfl, rfl⟩

theorem Dev.formatCleared_formatted : (d.formatCleared bd).Formatted d.store.geom d.chip.reason := by
  have h := (d.clearTables_formatted.setPhase 2)
  have hc := h.of_mask (e := (d.clearTables.setPhase 2).carryBlocks bd) (Dev.carryBlocks_keep _ bd Store.named fun _ _ => rfl)
    (Dev.carryBlocks_mask rfl bd _)
  exact hc.of rfl rfl rfl

theorem Dev.formatCleared_ask : (d.formatCleared bd).store.fmtAsk = d.store.fmtAsk :=
  (Dev.carryBlocks_keep _ bd Store.fmtAsk fun _ _ => rfl).trans (Dev.setPhase_keep _ 2 Store.fmtAsk fun _ _ => rfl)

end

section
variable (g : Geometry) (d : Dev)

/-- The log's blocks are named in the geometry; all else that it says stays. -/
theorem Dev.assignLog_geometry : ∃ b, (d.assignLog g).1 = { g with logBlocks := b } := by
  unfold Dev.assignLog
  split
  · exact ⟨_, rfl⟩
  · exact ⟨_, rfl⟩

theorem Dev.systemBlock_formatted {o : Option Geometry} {reason : Byte} (h : d.Formatted o reason) (die block : Nat) :
    (d.systemBlock die block).Formatted o reason := h.of rfl rfl rfl

theorem Dev.assignLog_formatted {o : Option Geometry} {reason : Byte} (h : d.Formatted o reason) :
    (d.assignLog g).2.Formatted o reason := by
  unfold Dev.assignLog
  split
  · exact h
  · extract_lets own at_ blocks d1 d2
    have h1 : d1.Formatted o reason :=
      Dev.each_invariant (P := Dev.Formatted o reason) _ (fun p _ e he => e.systemBlock_formatted he p.1 p.2) d h
    clear_value d1
    exact h1.of rfl rfl rfl

theorem Dev.drawSeeds_formatted {o : Option Geometry} {reason : Byte} (h : d.Formatted o reason) :
    (d.drawSeeds g).2.Formatted o reason := ⟨h.named, h.table, h.sealed, h.reason⟩

theorem Dev.drawSeeds_geometry : ∃ a b t, (d.drawSeeds g).1 = { g with s1 := a, s2 := b, tokenWrapped := t } := ⟨_, _, _, rfl⟩

end

section
variable (fu : Fuses) (bd : Board) (d : Dev)

/-- The geometry that a format makes is of the next generation and has what was asked for (R197, R199). -/
theorem Dev.formatDrawn_geometry : (d.formatDrawn fu bd).1.fmtgen = nextFmtgen d.currentFmtgen ∧
    (d.formatDrawn fu bd).1.k = d.store.fmtAsk.k ∧ (d.formatDrawn fu bd).1.bpc = d.store.fmtAsk.bpc := by
  obtain ⟨a, b, t, hdrawn⟩ := Dev.drawSeeds_geometry (d.formatAssigned fu bd).1 (d.formatAssigned fu bd).2
  obtain ⟨l, hlog⟩ := Dev.assignLog_geometry { (d.formatCleared bd).store.fmtAsk with
    fmtgen := nextFmtgen d.currentFmtgen, deviceId := fu.deviceId, fmtTime := (d.formatCleared bd).wallNow
    wsnBase := d.unusedWsn } (d.formatCleared bd)
  rw [Dev.formatDrawn, hdrawn, Dev.formatAssigned, hlog, d.formatCleared_ask bd]
  exact ⟨rfl, rfl, rfl⟩

theorem Dev.formatNamed_formatted :
    (d.formatNamed fu bd).Formatted (some (d.formatDrawn fu bd).1) d.chip.reason := by
  have h : (d.formatDrawn fu bd).2.Formatted d.store.geom d.chip.reason :=
    Dev.drawSeeds_formatted _ _ (Dev.assignLog_formatted _ _ (d.formatCleared_formatted bd))
  exact ⟨congrArg (fun q => (some (d.formatDrawn fu bd).1, q.2)) h.named, h.table, h.sealed, h.reason⟩

end

section
variable {o : Option Geometry} {reason : Byte} {d : Dev} (h : d.Formatted o reason) (g : Geometry)
include h

theorem Dev.Formatted.eraseAll : (d.eraseAll g).Formatted o reason := by
  unfold Dev.eraseAll
  extract_lets logs isLog
  refine Dev.each_invariant (P := Dev.Formatted o reason) _ (fun st _ e he => ?_) d h
  refine Dev.each_invariant (P := Dev.Formatted o reason) _ (fun c _ y hy => ?_) e he
  extract_lets b
  split
  · exact hy.eraseBlock st c
  · exact hy

theorem Dev.Formatted.formatErased (wrap : Bool) : (d.formatErased g wrap).Formatted o reason := by
  unfold Dev.formatErased
  extract_lets short d1 d2
  have h1 : d1.Formatted o reason :=
    Dev.each_invariant (P := Dev.Formatted o reason) _ (fun st _ e he => he.onStripe st _) d h
  have h2 : d2.Formatted o reason := by
    unfold d2
    split
    · exact (h1.setPhase 4).eraseAll g
    · exact h1
  clear_value d2
  exact h2.of rfl rfl rfl

theorem Dev.Formatted.eraseZero (die block : Nat) : (d.eraseZero die block).Formatted o reason := h.eraseBlock _ _

theorem Dev.Formatted.mediaTaken (r n : Nat) (f : RegionMedia → RegionMedia) : ((d.onMedia r f).takeWsn n).Formatted o reason :=
  h.of rfl rfl rfl

theorem Dev.Formatted.writeGeometry (r : Nat) : (d.writeGeometry g r).Formatted o reason := by
  unfold Dev.writeGeometry
  extract_lets dieA dieB a b own d1 d2
  have h1 : d1.Formatted o reason := Dev.systemBlock_formatted _ (Dev.systemBlock_formatted _ (Dev.systemBlock_formatted _
    (Dev.systemBlock_formatted _ h _ _) _ _) _ _) _ _
  have h2 : d2.Formatted o reason := (h1.eraseZero _ _).eraseZero _ _
  exact h2.mediaTaken r _ _

theorem Dev.Formatted.clearKeystones (r : Nat) : (d.clearKeystones r).Formatted o reason :=
  h.of_mask ((Dev.eraseKeystones_keep _ r 1 Store.named fun _ _ => rfl).trans (d.eraseKeystones_keep r 0 Store.named fun _ _ => rfl))
    (Dev.clearKeystones_mask rfl rfl rfl r d)

theorem Dev.Formatted.firstKeystone (r : Nat) : (d.firstKeystone g r).Formatted o reason := by
  unfold Dev.firstKeystone
  extract_lets fate
  exact (h.onRegion r _).putKeystone fate r _

theorem Dev.Formatted.formatWritten : (d.formatWritten g).Formatted o reason := by
  unfold Dev.formatWritten
  extract_lets d1 d2 d3
  have h1 : d1.Formatted o reason := Dev.each_invariant (P := Dev.Formatted o reason) _ (fun r _ e he => he.clearKeystones r) _
    (Dev.each_invariant (P := Dev.Formatted o reason) _ (fun r _ e he => he.writeGeometry g r) _ (h.setPhase 3))
  have h2 : d2.Formatted o reason := Dev.each_invariant (P := Dev.Formatted o reason) _ (fun r _ e he => he.firstKeystone g r) d1 h1
  clear_value d2
  have h3 : d3.Formatted o reason := h2.of rfl rfl rfl
  exact Dev.each_invariant (P := Dev.Formatted o reason) _ (fun r _ e he => (he.deriveWriteState r).firstSeal r) d3 h3

theorem Dev.Formatted.programFoundation : d.programFoundation.Formatted o reason := by
  unfold Dev.programFoundation
  split
  · exact h.of rfl rfl rfl
  · exact h

theorem Dev.Formatted.openLog (saved : Nat) (env : LogReadEnv) : (d.openLog saved env).Formatted o reason := by
  have hlog : (d.readLog env).Formatted o reason :=
    h.of (congrArg Store.named (Dev.store_of_mask (Dev.readLog_mask (T := { evt := true, life := true }) rfl rfl env d) rfl))
      (Dev.keys_of_mask (Dev.readLog_mask (T := { evt := true, life := true }) rfl rfl env d) rfl)
      (congrArg Chip.reason (Dev.chip_of_mask (Dev.readLog_mask (T := { evt := true, life := true }) rfl rfl env d) rfl))
  unfold Dev.openLog
  extract_lets d1 last e e1 full d2 d3
  have h2 : d2.Formatted o reason := by
    unfold d2
    split
    · have h1 : e1.Formatted o reason := hlog.of rfl rfl rfl
      clear_value e1
      split
      · have hm := Dev.advanceEntry_mask (T := { evt := true, life := true, nv := true }) rfl rfl rfl true true e1
        exact h1.of (congrArg Store.named (Dev.store_of_mask hm rfl)) (Dev.keys_of_mask hm rfl)
          (congrArg Chip.reason (Dev.chip_of_mask hm rfl))
      · exact h1
    · exact hlog.of rfl rfl rfl
  have h3 : d3.Formatted o reason := h2.programFoundation
  clear_value d3
  split
  · have hm := Dev.setDegraded_mask (T := { out := true, chip := true, evt := true, life := true, pcie := true })
      rfl rfl rfl rfl rfl d3.evt.entry 0 d3
    exact h3.of (congrArg Store.named (Dev.store_of_mask hm rfl)) (Dev.keys_of_mask hm rfl) (Dev.setDegraded_reason _ _)
  · exact h3

theorem Dev.Formatted.openLogOnce : d.openLogOnce.Formatted o reason := by
  unfold Dev.openLogOnce
  split
  · exact h
  · extract_lets d1
    have h1 : d1.Formatted o reason := h.of rfl rfl rfl
    exact h1.openLog 0 {}

theorem Dev.Formatted.described (deviceId : W64) (f : Firmware → Firmware) :
    ((d.onFw f).buildDdt deviceId).Formatted o reason :=
  h.of_mask (congrArg Store.named (Dev.store_of_mask (T := { fw := true, pcie := true }) (by simp) rfl))
    (by simp [Groups.allButKeysChip, Groups.allButChip])

theorem Dev.Formatted.formatClosed :
    (d.onStore fun x => { x with fmtRunning := false, fmtAsk := {}, fmtErase := false, fmtWaits := [] }).Formatted o reason :=
  h.of rfl rfl rfl

/-- At the end no format runs and every region has reached phase 5. -/
theorem Dev.Formatted.formatEnded (deviceId : W64) : (d.formatEnded deviceId).Formatted o reason ∧
    (d.formatEnded deviceId).store.fmtRunning = false ∧ ∀ r, r < 8 → ((d.formatEnded deviceId).region r).fmtPhase = 5 := by
  unfold Dev.formatEnded
  extract_lets d1 d2 d3
  have h1 : d1.Formatted o reason := h.openLogOnce.programFoundation
  have h3 : d3.Formatted o reason := (h1.described deviceId _).formatClosed
  have hrun : d3.store.fmtRunning = false := rfl
  exact ⟨h3.setPhase 5, (d3.setPhase_keep 5 Store.fmtRunning fun _ _ => rfl).trans hrun, fun r hr => d3.setPhase_region 5 r hr⟩

end

/-! ## FMT_COMPLETE -/

theorem exec_fmtComplete {s : State} (hl : s.dev.live = true) (hr : s.dev.formatReady = true) :
    exec .fmtComplete s = .next { s with dev := s.dev.format s.fuses s.board s.mem } := by
  have hexec : exec .fmtComplete s = execFmtComplete s := rfl
  rw [hexec, execFmtComplete, whenLive_guarded hl hr]

/-- Settles O32, by the checks in their order, and by what every step of a format leaves of the tables once they are
cleared. -/
theorem formatClearsTheDevice : Obligations.FormatClearsTheDevice := by
  unfold Obligations.FormatClearsTheDevice
  refine ⟨fun s ctx i c st h hchk => fmt_refused h hchk, fun s ctx i c x g h hchk => fmt_accepted h hchk,
    fun s ctx i c _ hmode => ?_, fun s hl hr hst => ?_⟩
  · rw [Dev.formatCheck, hmode]
    rfl
  · obtain ⟨hgen, hk, hbpc⟩ := s.dev.formatDrawn_geometry s.fuses s.board
    have h := (((s.dev.formatNamed_formatted s.fuses s.board).formatErased (s.dev.formatDrawn s.fuses s.board).1
      (decide (65535 ≤ s.dev.currentFmtgen))).formatWritten (s.dev.formatDrawn s.fuses s.board).1)
    obtain ⟨hend, hrun, hphase⟩ := h.formatEnded s.fuses.deviceId
    rw [exec_fmtComplete hl hr, Dev.format_inService hst]
    exact ⟨_, _, rfl, hrun, congrArg Prod.fst hend.named, hgen, hk, hbpc, congrArg (·.2.1) hend.named, hend.dir, hend.table,
      hend.sealed, hphase, hend.reason⟩

end Sys2Proof.Machine
end

section
/-!
PROOFS. Start-up steps 1 to 5 (R381, R386, R395, R403).
-/
namespace Sys2Proof.Machine

/-! ## The order of the steps (R381) -/

/-- Every group but the media. -/
def Groups.allButMedia : Groups := { Groups.allButChip with chip := true, nv := false }

/-- Every group but the keys, the firmware and what trained. -/
def Groups.allButFirmware : Groups := { Groups.allButChip with chip := true, keys := false, fw := false, trained := false }

section
variable (d : Dev)

/-- The time that a step took. -/
theorem Dev.stepEnds_time (k : Nat) (ms : W32) : (d.stepEnds k ms).fw.stepMs.get 0 k = ms := Tab.get_set_self ..

theorem Dev.mayStart_state {k : Nat} (h : d.mayStart k = true) : d.chip.state = 0 := by
  simp only [Dev.mayStart, Bool.and_eq_true, beq_iff_eq] at h
  exact h.1.1.1.1.2

theorem Dev.enterRecovery_state (cause : Nat) : (d.enterRecovery cause).chip.state = 2 ∧ (d.enterRecovery cause).chip.step = 0 ∧
    (d.enterRecovery cause).fw.recovery = BitVec.ofNat 2 cause ∧ (d.enterRecovery cause).fw.stepMs = d.fw.stepMs := by
  unfold Dev.enterRecovery Dev.reportStart
  simp only [Dev.report_chip, Dev.report_fw]
  exact ⟨rfl, rfl, rfl, rfl⟩

theorem Dev.enterRecovery_pins (cause : Nat) : (d.enterRecovery cause).pins = d.pins :=
  Dev.pins_of_mask (Dev.enterRecovery_mask (T := { chip := true, evt := true, life := true, fw := true }) rfl rfl rfl rfl ..) rfl

end

/-! ## Step 1 (R381) -/

theorem startRom_runs {s : State} {r : RomResult} (hheld : s.dev.pins.stage = .held) (hperst : s.dev.pins.perstHolds = false)
    (htest : r.testEnHigh = false) (hpll : r.pllLocked = true) (hself : r.selfTestOk = true) (hent : r.entropyOk = true) :
    ∃ d', exec (.startRom r) s = .next { s with dev := d' } ∧ d'.pins.stage = .running ∧ d'.pins.uartUp = true ∧
      d'.pins.smbAddrHigh = r.smbAddrHigh ∧ d'.pfail.waiting = r.pwrfailLow ∧ d'.chip.state = 0 ∧ d'.chip.step = 1 ∧
      d'.chip.rootLock = true ∧ d'.keys.entropyPassed = true ∧ d'.fw.stepMs.get 0 1 = r.ms := by
  have hexec : exec (.startRom r) s = execStartRom r s := rfl
  rw [execStartRom, onDev_guarded (by simp [hheld, hperst]), htest] at hexec
  simp only [Bool.false_eq_true, if_false, Dev.rom, hpll, hself, hent, Bool.not_true] at hexec
  exact ⟨_, hexec, rfl, rfl, rfl, rfl, rfl, rfl, rfl, rfl, Tab.get_set_self ..⟩

/-! ## Step 2 (R386, R391, R393) -/

section
variable (fu : Fuses) (ms : W32) (q : Memories × Dev)

theorem bootRecord_times (f : BootControl → BootControl) : (bootRecord f q).2.fw.stepMs = q.2.fw.stepMs := rfl

theorem revertTrial_times (cause : Nat) : (revertTrial cause q).2.fw.stepMs = q.2.fw.stepMs := by
  unfold revertTrial
  extract_lets b d
  have hd : d.fw.stepMs = q.2.fw.stepMs := congrArg Firmware.stepMs (Dev.report_fw ..)
  clear_value d
  simp only []
  split
  · exact hd
  · exact hd

theorem bootCommitted_times : (bootCommitted fu q).2.2.fw.stepMs = q.2.fw.stepMs := by
  unfold bootCommitted
  simp only []
  split
  · rfl
  · rfl

/-- The choice of a slot leaves the times of the start. -/
theorem chooseSlot_times : (chooseSlot fu q).2.2.fw.stepMs = q.2.fw.stepMs := by
  unfold chooseSlot
  extract_lets b committed x
  have hc : ∀ x, (committed x).2.2.fw.stepMs = x.2.fw.stepMs := bootCommitted_times fu
  split
  · split
    · exact (congrArg Firmware.stepMs (Dev.report_fw ..)).trans rfl
    · exact (hc _).trans (revertTrial_times x 3)
  · split
    · exact (hc _).trans (revertTrial_times q _)
    · exact hc q

/-- What step 2 has read when it chooses a slot. -/
def norRead (q : Memories × Dev) : Memories × Dev :=
  let b := (validBoot q.1.norA).getD {}
  let options := loaderOptions q.1 b
  let d := q.2.onFw fun f => { f with bcr := b, options := options }
  let d := (d.applyOptions options).onPcie fun p => { p with training := !d.pins.perstAsserted }
  (q.1, d.stepEnds 2 ms)

/-- The slot that is chosen boots; with none the device is in recovery. -/
def norChosen (x : (Option Nat × Bool) × Memories × Dev) : Memories × Dev :=
  match x.1.1 with
  | none => (x.2.1, x.2.2.enterRecovery 1)
  | some i => (x.2.1, x.2.2.onFw fun f =>
      { f with slot := i, onTrial := x.1.2, revertCause := none, image := imageInfo (headerBytes x.2.1.norA i) })

theorem norStep_eq : norStep fu ms q = norChosen (chooseSlot fu (norRead ms q)) := rfl

theorem norChosen_some {x : (Option Nat × Bool) × Memories × Dev} {i : Nat} (h : x.1.1 = some i) :
    norChosen x = (x.2.1, x.2.2.onFw fun f =>
      { f with slot := i, onTrial := x.1.2, revertCause := none, image := imageInfo (headerBytes x.2.1.norA i) }) := by
  rw [norChosen, h]

theorem norChosen_none {x : (Option Nat × Bool) × Memories × Dev} (h : x.1.1 = none) :
    norChosen x = (x.2.1, x.2.2.enterRecovery 1) := by
  rw [norChosen, h]

end

theorem startNor_runs {s : State} (ms : W32) (h : s.dev.mayStart 2 = true) :
    ∃ t, exec (.startNor ms) s = .next t ∧ t.dev.pcie.training = (!s.dev.pins.perstAsserted) ∧
      t.dev.fw.stepMs.get 0 2 = ms ∧
      ((t.dev.chip.state = 0 ∧ t.dev.chip.step = 2) ∨
       (t.dev.chip.state = 2 ∧ t.dev.chip.step = 0 ∧ t.dev.fw.recovery = 1)) := by
  have hexec : exec (.startNor ms) s = execStartNor ms s := rfl
  rw [execStartNor, onAll_eq, if_pos h, norStep_eq] at hexec
  have hm := chooseSlot_mask (T := { evt := true, life := true, fw := true }) rfl rfl rfl s.fuses (norRead ms (s.mem, s.dev))
  have hpcie : (chooseSlot s.fuses (norRead ms (s.mem, s.dev))).2.2.pcie.training = (!s.dev.pins.perstAsserted) :=
    congrArg Pcie.training (Dev.pcie_of_mask hm rfl)
  have hchip := Dev.chip_of_mask hm rfl
  have hstate : (chooseSlot s.fuses (norRead ms (s.mem, s.dev))).2.2.chip.state = 0 :=
    (congrArg Chip.state hchip).trans (s.dev.mayStart_state h)
  have hstep : (chooseSlot s.fuses (norRead ms (s.mem, s.dev))).2.2.chip.step = 2 := congrArg Chip.step hchip
  have htime : (chooseSlot s.fuses (norRead ms (s.mem, s.dev))).2.2.fw.stepMs.get 0 2 = ms := by
    rw [chooseSlot_times]
    exact Dev.stepEnds_time _ 2 ms
  generalize chooseSlot s.fuses (norRead ms (s.mem, s.dev)) = x at *
  refine ⟨_, hexec, ?_⟩
  cases hx : x.1.1 with
  | some i =>
    rw [norChosen_some hx]
    exact ⟨hpcie, htime, .inl ⟨hstate, hstep⟩⟩
  | none =>
    obtain ⟨h2, h0, hrec, hms⟩ := x.2.2.enterRecovery_state 1
    rw [norChosen_none hx]
    refine ⟨?_, ?_, .inr ⟨h2, h0, hrec⟩⟩
    · rw [← hpcie]
      exact congrArg Pcie.training (Dev.pcie_of_mask (Dev.enterRecovery_mask
        (T := { chip := true, evt := true, life := true, fw := true }) rfl rfl rfl rfl ..) rfl)
    · exact (congrArg (Tab.get 0 · 2) hms).trans htime

/-! ## Step 3 (R382, R395) -/

/-- With no trial, settings are always read or fall back to their reset values. -/
theorem loadSettings_reads {q : Memories × Dev} (h : q.2.fw.onTrial = false) : (loadSettings q).1 = true := by
  obtain ⟨m, d⟩ := q
  have hfw : ∀ c p, (d.reportStart c p).fw.onTrial = false := fun c p =>
    (congrArg Firmware.onTrial (Dev.report_fw ..)).trans h
  unfold loadSettings
  simp only []
  split
  · rfl
  · split
    · split
      · rfl
      · rw [show d.fw.onTrial = false from h]
        rfl
    · split
      · rfl
      · rw [hfw]
        rfl

/-- The device that management firmware leaves: settings in force, the description table built. -/
def Dev.firmwareReady (fu : Fuses) (m : Memories) (d : Dev) : Dev :=
  let d := d.applySettings fu m
  let d := d.onFw fun f => { f with ttrMs := d.nv.ttr }
  (d.buildDdt fu.deviceId).onChip fun c => { c with mgmtLaneLock := true }

/-- Step 3 has begun. -/
def Dev.firmwareBegun (ms : W32) (d : Dev) : Dev := (d.onFw fun f => { f with trialTick := d.chip.tick }).stepEnds 3 ms

theorem firmwareStep_ready {fu : Fuses} {ms : W32} {q : Memories × Dev} (h : q.2.fw.onTrial = false) :
    (firmwareStep fu true ms q).2 = (loadSettings (q.1, q.2.firmwareBegun ms)).2.2.firmwareReady fu
      (loadSettings (q.1, q.2.firmwareBegun ms)).2.1 := by
  have hl : (loadSettings (q.1, q.2.firmwareBegun ms)).1 = true := loadSettings_reads h
  unfold firmwareStep
  simp only [Bool.not_true, Bool.false_eq_true, if_false]
  rw [← Dev.firmwareBegun, hl]
  rfl

theorem startManagementFirmware_runs {s : State} (ms : W32) (h : s.dev.mayStart 3 = true) (htrial : s.dev.fw.onTrial = false) :
    ∃ t, exec (.startManagementFirmware true ms) s = .next t ∧ t.dev.pcie.ddt.isSome = true ∧
      t.dev.chip.mgmtLaneLock = true ∧ t.dev.fw.ttrMs = s.dev.nv.ttr ∧ t.dev.nv = s.dev.nv := by
  have hexec : exec (.startManagementFirmware true ms) s = execStartManagementFirmware true ms s := rfl
  rw [execStartManagementFirmware, onAll_eq, if_pos h] at hexec
  have hready := firmwareStep_ready (fu := s.fuses) (ms := ms) (q := (s.mem, s.dev)) htrial
  have hnv : (firmwareStep s.fuses true ms (s.mem, s.dev)).2.nv = s.dev.nv :=
    Dev.nv_of_mask (T := .allButMedia) (firmwareStep_mask rfl rfl rfl rfl rfl rfl rfl rfl rfl rfl rfl ..) rfl
  have hload : ((loadSettings (s.mem, s.dev.firmwareBegun ms)).2.2.applySettings s.fuses
      (loadSettings (s.mem, s.dev.firmwareBegun ms)).2.1).nv = s.dev.nv :=
    (Dev.nv_of_mask (T := .allButMedia) (Dev.applySettings_mask rfl rfl rfl rfl rfl rfl rfl rfl rfl rfl ..) rfl).trans
      (Dev.nv_of_mask (T := .allButMedia) (loadSettings_mask rfl rfl rfl _) rfl)
  refine ⟨_, hexec, ?_, ?_, ?_, hnv⟩
  · exact congrArg (fun d : Dev => d.pcie.ddt.isSome) hready
  · exact congrArg (fun d : Dev => d.chip.mgmtLaneLock) hready
  · refine (congrArg (fun d : Dev => d.fw.ttrMs) hready).trans ?_
    exact congrArg NonVolatile.ttr hload

theorem startManagementFirmware_fails {s : State} (ms : W32) (h : s.dev.mayStart 3 = true) (htrial : s.dev.fw.onTrial = false) :
    ∃ t, exec (.startManagementFirmware false ms) s = .next t ∧ t.dev.chip.state = 2 ∧ t.dev.fw.recovery = 1 := by
  have hexec : exec (.startManagementFirmware false ms) s = execStartManagementFirmware false ms s := rfl
  rw [execStartManagementFirmware, onAll_eq, if_pos h] at hexec
  have hstep : firmwareStep s.fuses false ms (s.mem, s.dev) = (s.mem, (s.dev.firmwareBegun ms).enterRecovery 1) := by
    have ht : (s.dev.firmwareBegun ms).fw.onTrial = false := htrial
    have hf : (s.dev.firmwareBegun ms).startFails = (s.dev.firmwareBegun ms).enterRecovery 1 := by
      rw [Dev.startFails, ht]
      rfl
    rw [← hf]
    rfl
  obtain ⟨h2, -, hrec, -⟩ := (s.dev.firmwareBegun ms).enterRecovery_state 1
  refine ⟨_, hexec, ?_, ?_⟩
  · rw [hstep]
    exact h2
  · rw [hstep]
    exact hrec

/-! ## Step 4 (R381) -/

section
variable (d : Dev)

theorem Dev.cutOff_dramReset (reason : Byte) : (d.cutOff reason).pins.dramResetHigh = d.pins.dramResetHigh := by
  unfold Dev.cutOff
  split
  · rfl
  · rfl

theorem Dev.enterFailsafe_dramReset (reason detail : Byte) : (d.enterFailsafe reason detail).pins.dramResetHigh =
    d.pins.dramResetHigh := by
  by_cases hf : d.failsafe = true
  · rw [Dev.enterFailsafe, if_pos hf]
    rfl
  · have hp : ((d.marked reason detail).stopCoaches.tellFailsafe).pins = (d.marked reason detail).pins :=
      (Dev.pins_of_mask (Dev.tellFailsafe_mask _) rfl).trans (Dev.pins_of_mask (Dev.stopCoaches_mask _) rfl)
    rw [Dev.enterFailsafe_eq reason detail (Bool.eq_false_iff.mpr hf), Dev.cutOff_dramReset, hp]
    rfl

theorem Dev.fenceRegion_dramReset (r cause : Nat) : (d.fenceRegion r cause).pins.dramResetHigh = d.pins.dramResetHigh := by
  by_cases h : d.fencedRegion r = false ∧ r < 8
  · rw [Dev.fenceRegion_eq h.2 h.1]
    extract_lets e
    have he : e.pins = d.pins :=
      Dev.pins_of_mask (T := { chip := true, evt := true, life := true, store := true, eng := true, net := true })
        (by simp [e, Dev.fenceRequests, Dev.fenceMarks]) rfl
    split
    · rw [Dev.enterFailsafe_dramReset, he]
    · rw [he]
  · rw [Dev.fenceRegion, if_pos]
    rw [Bool.or_eq_true, decide_eq_true_iff]
    by_cases h8 : r < 8
    · exact .inl (by simpa [h8] using h)
    · exact .inr (Nat.not_lt.mp h8)

/-- DRAM has been trained, before the regions whose channels failed are fenced. -/
def Dev.dramTrained (mts : Nat) (trained : BitVec 24) (ms : W32) (d : Dev) : Dev :=
  ((({ d with trained := trained } : Dev).onChip fun c => { c with dclkSel := dclkSelect mts }).stepEnds 4 ms).onPins fun p =>
    { p with dramResetHigh := true, ceHigh := false }

/-- The regions with a channel that failed to train. -/
def untrainedRegions (trained : BitVec 24) : List Nat :=
  (List.range 8).filter fun r => (List.range 3).any fun c => !trained.getLsbD (r * 3 + c)

theorem untrainedRegions_none : untrainedRegions (BitVec.allOnes 24) = [] := by decide

end

theorem exec_startDramTraining {s : State} (trained : BitVec 24) (ms : W32) (h : s.dev.mayStart 4 = true) :
    exec (.startDramTraining trained ms) s = .next { s with
      dev := Dev.each (untrainedRegions trained) (fun r => Dev.fenceRegion r 5) (s.dev.dramTrained s.board.ddrMts trained ms) } := by
  have hexec : exec (.startDramTraining trained ms) s = execStartDramTraining trained ms s := rfl
  rw [hexec, execStartDramTraining, onDev_guarded h]
  rfl

theorem startDramTraining_runs {s : State} (trained : BitVec 24) (ms : W32) (h : s.dev.mayStart 4 = true) :
    ∃ d', exec (.startDramTraining trained ms) s = .next { s with dev := d' } ∧ d'.trained = trained ∧
      d'.fw.stepMs.get 0 4 = ms ∧ d'.pins.dramResetHigh = true := by
  have hm : ∀ (l : List Nat) (d : Dev), (Dev.each l (fun r => Dev.fenceRegion r 5) d).mask .allButFirmware =
      d.mask .allButFirmware := fun l d =>
    Dev.each_mask _ _ _ fun r e => Dev.fenceRegion_mask rfl rfl rfl rfl rfl rfl rfl rfl rfl r 5 e
  refine ⟨_, exec_startDramTraining trained ms h, ?_, ?_, ?_⟩
  · exact (Dev.trained_of_mask (hm _ _) rfl).trans rfl
  · rw [Dev.fw_of_mask (hm _ _) rfl]
    exact Tab.get_set_self ..
  · rw [Dev.each_keep (fun e => e.pins.dramResetHigh) _ _ fun r e => e.fenceRegion_dramReset r 5]
    rfl

theorem startDramTraining_good {s : State} (ms : W32) (h : s.dev.mayStart 4 = true) :
    exec (.startDramTraining (BitVec.allOnes 24) ms) s =
      .next { s with dev := { s.dev with
        trained := BitVec.allOnes 24, chip := { s.dev.chip with step := 4, dclkSel := dclkSelect s.board.ddrMts }
        fw := { s.dev.fw with stepMs := s.dev.fw.stepMs.set 4 ms }
        pins := { s.dev.pins with dramResetHigh := true, ceHigh := false } } } := by
  rw [exec_startDramTraining _ ms h, untrainedRegions_none]
  rfl

/-! ## Step 5 (R356, R399, R403) -/

/-- What step 5 derives of the keys. -/
def KeyState.derived (k : KeyState) : Option Bytes × Bytes × Bool × Bool × BitVec 8 :=
  (k.root, k.devCert, k.privateHeld, k.lanesKeyed, k.seeded)

section
variable (d : Dev)

theorem Dev.unwrapDone_derived (op target : Nat) (st : Byte) : (d.unwrapDone op target st).keys.derived = d.keys.derived := by
  unfold Dev.unwrapDone
  extract_lets e
  split
  · rfl
  · exact (congrArg KeyState.derived (Dev.report_keys ..)).trans rfl

theorem Dev.unwrapDone_fw (op target : Nat) (st : Byte) : (d.unwrapDone op target st).fw = d.fw :=
  Dev.fw_of_mask (Dev.unwrapDone_mask (T := { evt := true, life := true, keys := true }) rfl rfl rfl ..) rfl

theorem Dev.loadStores_times (base patch : W32) : (d.loadStores base patch).fw.stepMs = d.fw.stepMs := by
  unfold Dev.loadStores
  extract_lets e
  have he : e.fw = d.fw := Dev.fw_of_mask (T := { eng := true }) (by simp [e]) rfl
  clear_value e
  exact (congrArg Firmware.stepMs he : e.fw.stepMs = d.fw.stepMs)

theorem Dev.loadMicrocode_times (fu : Fuses) (nor : Mem) (e : Dev) (h : d.loadMicrocode fu nor = some e) :
    e.fw.stepMs = d.fw.stepMs := by
  unfold Dev.loadMicrocode at h
  extract_lets slot hd at h
  split at h
  · cases h
  · split at h
    · cases h
    · extract_lets base at h
      split at h
      · rw [← Option.some.inj h, Dev.loadStores_times]
      · split at h
        split at h
        · rw [← Option.some.inj h, Dev.loadStores_times]
        · rw [← Option.some.inj h, Dev.reportStart, Dev.report_fw, Dev.loadStores_times]

theorem Dev.startFails_times (h : d.chip.state = 0) : d.startFails.fw.stepMs = d.fw.stepMs := by
  unfold Dev.startFails
  split
  · unfold Dev.failTrial
    extract_lets e
    have hs : ¬(e.chip.state == 1) = true := by
      rw [show e.chip.state = 0 from h]
      decide
    rw [if_neg hs]
    rfl
  · exact (d.enterRecovery_state 1).2.2.2

theorem Dev.deriveKeys_derived (fu : Fuses) : (d.deriveKeys fu).keys.derived =
    (some (leBytes 32 (Config.deviceRootKey fu.secret fu.deviceId).toNat), fu.devCert, true, true, BitVec.allOnes 8) := rfl

/-- Step 5 once the keys are derived: microcode is loaded, and what fails its test is fenced or retired. -/
def Dev.microcodeLoaded (fu : Fuses) (nor : Mem) (failedClusters : BitVec 64) (failedRows : List (BankId × Nat)) (d : Dev) : Dev :=
  match d.loadMicrocode fu nor with
  | none => (d.unwrapDone 5 0 stIntegrityFailed).startFails
  | some d =>
    let d := d.unwrapDone 5 0 stOk
    let d := Dev.each ((List.range 64).filter failedClusters.getLsbD) Dev.fenceCluster d
    Dev.each failedRows (fun x => Dev.retireRow x.1.val x.2) d

theorem microcodeStep_eq (fu : Fuses) (nor : Mem) (cs : BitVec 64) (rows : List (BankId × Nat)) (ms : W32) :
    microcodeStep fu nor cs rows ms d = ((d.stepEnds 5 ms).deriveKeys fu).microcodeLoaded fu nor cs rows := by
  unfold microcodeStep Dev.microcodeLoaded
  simp only [] <;> cases ((d.stepEnds 5 ms).deriveKeys fu).loadMicrocode fu nor <;> rfl

/-- Loading the microcode leaves the derived keys and the times of the start. -/
theorem Dev.microcodeLoaded_keeps (fu : Fuses) (nor : Mem) (cs : BitVec 64) (rows : List (BankId × Nat)) (h : d.chip.state = 0) :
    (d.microcodeLoaded fu nor cs rows).keys.derived = d.keys.derived ∧
      (d.microcodeLoaded fu nor cs rows).fw.stepMs = d.fw.stepMs := by
  unfold Dev.microcodeLoaded
  split
  · have hf : (d.unwrapDone 5 0 stIntegrityFailed).chip = d.chip :=
      Dev.chip_of_mask (Dev.unwrapDone_mask (T := { evt := true, life := true, keys := true }) rfl rfl rfl ..) rfl
    have hm : (d.unwrapDone 5 0 stIntegrityFailed).startFails.keys = (d.unwrapDone 5 0 stIntegrityFailed).keys :=
      Dev.keys_of_mask (T := { Groups.allButFirmware with fw := true }) (Dev.startFails_mask rfl rfl rfl rfl rfl rfl rfl rfl rfl _) rfl
    refine ⟨?_, ?_⟩
    · rw [hm, Dev.unwrapDone_derived]
    · rw [Dev.startFails_times _ (by rw [hf, h]), Dev.unwrapDone_fw]
  · next e he =>
    extract_lets e1 e2
    have h1 : e1.keys.derived = d.keys.derived :=
      (e.unwrapDone_derived 5 0 stOk).trans (congrArg KeyState.derived (Dev.keys_of_mask
        (Dev.loadMicrocode_mask (T := { evt := true, life := true, fw := true, eng := true }) rfl rfl rfl rfl _ _ _ e he) rfl))
    have ht1 : e1.fw.stepMs = d.fw.stepMs :=
      (congrArg Firmware.stepMs (e.unwrapDone_fw 5 0 stOk)).trans (d.loadMicrocode_times _ _ e he)
    have hm : (Dev.each rows (fun x => Dev.retireRow x.1.val x.2) e2).mask .allButFirmware = e1.mask .allButFirmware :=
      (Dev.each_mask _ _ _ fun _ _ => Dev.retireRow_mask rfl rfl rfl rfl rfl rfl rfl rfl rfl ..).trans
        (Dev.each_mask _ _ _ fun _ _ => Dev.fenceCluster_mask rfl rfl rfl rfl rfl rfl rfl rfl rfl ..)
    refine ⟨?_, ?_⟩
    · rw [Dev.keys_of_mask hm rfl, h1]
    · rw [Dev.fw_of_mask hm rfl, ht1]

end

theorem startMicrocodeLoad_runs {s : State} (cs : BitVec 64) (rows : List (BankId × Nat)) (ms : W32)
    (h : s.dev.mayStart 5 = true) :
    ∃ d', exec (.startMicrocodeLoad cs rows ms) s = .next { s with dev := d' } ∧
      d'.keys.root = some (leBytes 32 (Config.deviceRootKey s.fuses.secret s.fuses.deviceId).toNat) ∧
      d'.keys.devCert = s.fuses.devCert ∧ d'.keys.privateHeld = true ∧ d'.keys.lanesKeyed = true ∧
      d'.keys.seeded = BitVec.allOnes 8 ∧ d'.nv = s.dev.nv ∧ d'.fw.stepMs.get 0 5 = ms := by
  have hexec : exec (.startMicrocodeLoad cs rows ms) s = execStartMicrocodeLoad cs rows ms s := rfl
  rw [execStartMicrocodeLoad, onDev_guarded h] at hexec
  have hnv : (microcodeStep s.fuses s.mem.norA cs rows ms s.dev).nv = s.dev.nv :=
    Dev.nv_of_mask (T := .allButMedia) (microcodeStep_mask rfl rfl rfl rfl rfl rfl rfl rfl rfl rfl rfl rfl ..) rfl
  rw [microcodeStep_eq] at hexec hnv
  obtain ⟨hkeys, htime⟩ := ((s.dev.stepEnds 5 ms).deriveKeys s.fuses).microcodeLoaded_keeps s.fuses s.mem.norA cs rows
    (s.dev.mayStart_state h)
  rw [Dev.deriveKeys_derived, KeyState.derived] at hkeys
  simp only [Prod.mk.injEq] at hkeys
  obtain ⟨hroot, hcert, hheld, hlanes, hseeded⟩ := hkeys
  refine ⟨_, hexec, hroot, hcert, hheld, hlanes, hseeded, hnv, ?_⟩
  rw [htime]
  exact Tab.get_set_self ..

end Sys2Proof.Machine
end

section
/-!
PROOFS. Start-up steps 6 to 10 (R194, R216, R225, R426): O2.
-/
namespace Sys2Proof.Machine

/-! ## Step 6 (R194, R197) -/

section
variable (d : Dev)

theorem Dev.useGeometry_facts (g : Geometry) : (d.useGeometry g).store.geom = some g ∧
    (d.useGeometry g).chip.state = d.chip.state ∧ (d.useGeometry g).chip.step = d.chip.step ∧ (d.useGeometry g).pins = d.pins := by
  unfold Dev.useGeometry
  extract_lets top d1 d2
  have hgeom : d2.store.geom = some g := rfl
  have hstate : d2.chip.state = d.chip.state := rfl
  have hstep : d2.chip.step = d.chip.step := rfl
  have hpins : d2.pins = d.pins := rfl
  clear_value d2
  have hm := Dev.each_mask (T := { store := true }) d2.openRegions
    (fun r (e : Dev) => e.onRegion r fun x => { x with kseq := (((e.media r).valid g.fmtgen).head?.getD {}).kseq }) d2
    fun r e => Dev.onRegion_mask rfl ..
  refine ⟨?_, ?_, ?_, ?_⟩
  · rw [← hgeom]
    exact Dev.each_keep (fun e => e.store.geom) d2.openRegions
      (fun r (e : Dev) => e.onRegion r fun x => { x with kseq := (((e.media r).valid g.fmtgen).head?.getD {}).kseq })
      (fun r e => e.onRegion_keep r Store.geom _ fun _ _ => rfl) d2
  · rw [← hstate]
    exact congrArg Chip.state (Dev.chip_of_mask hm rfl)
  · rw [← hstep]
    exact congrArg Chip.step (Dev.chip_of_mask hm rfl)
  · rw [← hpins]
    exact Dev.pins_of_mask hm rfl

/-- Step 6 once the copies have been read: the newest geometry comes into force where every region's format is complete. -/
def Dev.copiesRead (copies : List KeystoneRead) (ms : W32) (d : Dev) : Dev :=
  let d := (d.stepEnds 6 ms).onPins fun p => { p with wpHigh := true }
  Dev.each d.openRegions (fun r => Dev.readCopies (copies.getD r {}) r) d

theorem keystoneStep_none {copies : List KeystoneRead} {ms : W32} (h : (d.copiesRead copies ms).newestGeometry = none) :
    keystoneStep copies ms d = (d.copiesRead copies ms).enterRecovery 2 := by
  unfold keystoneStep
  extract_lets d1 d2
  rw [show d2.newestGeometry = none from h]
  rfl

theorem keystoneStep_some {copies : List KeystoneRead} {ms : W32} {g : Geometry}
    (h : (d.copiesRead copies ms).newestGeometry = some g) : keystoneStep copies ms d = (d.copiesRead copies ms).useGeometry g ∨
      keystoneStep copies ms d = (d.copiesRead copies ms).enterRecovery 2 := by
  unfold keystoneStep
  extract_lets d1 d2
  rw [show d2.newestGeometry = some g from h]
  simp only []
  split
  · exact .inl rfl
  · exact .inr rfl

theorem Dev.copiesRead_mask (copies : List KeystoneRead) (ms : W32) : (d.copiesRead copies ms).mask { nv := true } =
    ((d.stepEnds 6 ms).onPins fun p => { p with wpHigh := true }).mask { nv := true } := by
  unfold Dev.copiesRead
  exact Dev.each_mask _ _ _ fun r e => Dev.readCopies_mask rfl ..

/-- A region with no geometry copy. -/
def Dev.blank (d : Dev) : Prop := ∀ r, (d.media r).copyA = none ∧ (d.media r).copyB = none

theorem Dev.media_onMedia_ne {q r : Nat} (f : RegionMedia → RegionMedia) (h : q ≠ r) : (d.onMedia r f).media q = d.media q :=
  Tab.get_update_ne ({} : RegionMedia) d.nv.regions f h

theorem Dev.readCopies_blank {d : Dev} (h : d.blank) (k : KeystoneRead) (r : Nat) : (d.readCopies k r).blank := by
  intro q
  by_cases hq : q = r
  · subst hq
    have hm : (d.readCopies k q).media q = _ := d.media_onMedia q _
    rw [hm]
    obtain ⟨ha, hb⟩ := h q
    exact ⟨by simp [ha], by simp [hb]⟩
  · have hm : (d.readCopies k r).media q = d.media q := d.media_onMedia_ne _ hq
    rw [hm]
    exact h q

theorem Dev.newestGeometry_blank {d : Dev} (h : d.blank) : d.newestGeometry = none := by
  have hn : ∀ r, (d.media r).newest = none := fun r => by
    obtain ⟨ha, hb⟩ := h r
    rw [RegionMedia.newest, ha, hb]
  unfold Dev.newestGeometry
  generalize d.openRegions = l
  induction l with
  | nil => rfl
  | cons r l ih =>
    rw [List.foldl_cons, hn r]
    exact ih

theorem Dev.copiesRead_blank (copies : List KeystoneRead) (ms : W32) (h : d.nv.regions = []) : (d.copiesRead copies ms).blank := by
  unfold Dev.copiesRead
  extract_lets e
  have he : e.blank := fun r => by
    have hm : e.media r = {} := by
      rw [Dev.media, show e.nv.regions = [] from h]
      rfl
    rw [hm]
    exact ⟨rfl, rfl⟩
  exact Dev.each_invariant (P := Dev.blank) _ (fun r _ y hy => Dev.readCopies_blank hy _ r) e he

end

theorem exec_startKeystoneRead {s : State} (cp : List KeystoneRead) (ms : W32) (h : s.dev.mayStart 6 = true) :
    exec (.startKeystoneRead cp ms) s = .next { s with dev := keystoneStep cp ms s.dev } := by
  have hexec : exec (.startKeystoneRead cp ms) s = execStartKeystoneRead cp ms s := rfl
  rw [hexec, execStartKeystoneRead, onDev_guarded h]

theorem startKeystoneRead_runs {s : State} (cp : List KeystoneRead) (ms : W32) (h : s.dev.mayStart 6 = true) :
    ∃ d', exec (.startKeystoneRead cp ms) s = .next { s with dev := d' } ∧ d'.pins.wpHigh = true ∧
      ((d'.chip.state = 0 ∧ d'.chip.step = 6 ∧ d'.store.geom.isSome = true) ∨
       (d'.chip.state = 2 ∧ d'.chip.step = 0 ∧ d'.fw.recovery = 2)) := by
  have hm := s.dev.copiesRead_mask cp ms
  have hpins : (s.dev.copiesRead cp ms).pins.wpHigh = true := congrArg Pins.wpHigh (Dev.pins_of_mask hm rfl)
  have hstate : (s.dev.copiesRead cp ms).chip.state = 0 :=
    (congrArg Chip.state (Dev.chip_of_mask hm rfl)).trans (s.dev.mayStart_state h)
  have hstep : (s.dev.copiesRead cp ms).chip.step = 6 := congrArg Chip.step (Dev.chip_of_mask hm rfl)
  have hrec : keystoneStep cp ms s.dev = (s.dev.copiesRead cp ms).enterRecovery 2 →
      (keystoneStep cp ms s.dev).pins.wpHigh = true ∧ (keystoneStep cp ms s.dev).chip.state = 2 ∧
        (keystoneStep cp ms s.dev).chip.step = 0 ∧ (keystoneStep cp ms s.dev).fw.recovery = 2 := fun heq => by
    obtain ⟨h2, h0, hr, -⟩ := (s.dev.copiesRead cp ms).enterRecovery_state 2
    rw [heq, Dev.enterRecovery_pins]
    exact ⟨hpins, h2, h0, hr⟩
  refine ⟨_, exec_startKeystoneRead cp ms h, ?_⟩
  cases hg : (s.dev.copiesRead cp ms).newestGeometry with
  | none =>
    obtain ⟨hw, hrest⟩ := hrec (keystoneStep_none _ hg)
    exact ⟨hw, .inr hrest⟩
  | some g =>
    obtain heq | heq := keystoneStep_some _ hg
    · obtain ⟨hgeom, hst, hsp, hp⟩ := (s.dev.copiesRead cp ms).useGeometry_facts g
      rw [heq, hp, hst, hsp, hgeom]
      exact ⟨hpins, .inl ⟨hstate, hstep, rfl⟩⟩
    · obtain ⟨hw, hrest⟩ := hrec heq
      exact ⟨hw, .inr hrest⟩

theorem startKeystoneRead_blank {s : State} (cp : List KeystoneRead) (ms : W32) (h : s.dev.mayStart 6 = true)
    (hn : s.dev.nv.regions = []) :
    ∃ d', exec (.startKeystoneRead cp ms) s = .next { s with dev := d' } ∧ d'.chip.state = 2 ∧ d'.fw.recovery = 2 := by
  obtain ⟨h2, -, hr, -⟩ := (s.dev.copiesRead cp ms).enterRecovery_state 2
  refine ⟨_, exec_startKeystoneRead cp ms h, ?_⟩
  rw [keystoneStep_none _ (Dev.newestGeometry_blank (s.dev.copiesRead_blank cp ms hn))]
  exact ⟨h2, hr⟩

/-! ## Step 7 (R426) -/

/-- Every group but the firmware and the power failure. -/
def Groups.allButFlush : Groups := { Groups.allButChip with chip := true, fw := false, pfail := false }

section
variable (d : Dev)

theorem Dev.killCopy_open (e : Nat) (b : Bool) (why : Nat) : (d.killCopy e b why).evt.logOpen = d.evt.logOpen := by
  have hr : ∀ (y : Dev) p, (y.report 8 11 0 0x7003 p).evt.logOpen = y.evt.logOpen := fun y p =>
    (congrArg EventState.logOpen (y.report_bare 8 11 0 0x7003 p) :
      (y.report 8 11 0 0x7003 p).evt.bare.logOpen = y.evt.bare.logOpen)
  unfold Dev.killCopy
  cases b with
  | false =>
    simp only [Bool.false_eq_true, if_false]
    split
    · rfl
    · exact (hr _ _).trans rfl
  | true =>
    simp only [if_true]
    split
    · rfl
    · exact (hr _ _).trans rfl

theorem Dev.advanceEntry_open (p m : Bool) : (d.advanceEntry p m).evt.logOpen = d.evt.logOpen := by
  have hk : ∀ (c : Bool) (n : Nat) (b : Bool) (y : Dev), (if c then y.killCopy n b 2 else y).evt.logOpen = y.evt.logOpen :=
    fun c n b y => by
      split
      · exact y.killCopy_open n b 2
      · rfl
  unfold Dev.advanceEntry
  extract_lets n d1 d2 n' d3
  have h2 : d2.evt.logOpen = d.evt.logOpen := (hk _ _ _ d1).trans (hk _ _ _ d)
  clear_value d2
  exact h2

theorem Dev.setDegraded_open (e m : Nat) : (d.setDegraded e m).evt.logOpen = d.evt.logOpen ∧
    (d.setDegraded e m).chip.statsLoaded = d.chip.statsLoaded := by
  have hn : ∀ y : Dev, y.notifyNow.evt.logOpen = y.evt.logOpen ∧ y.notifyNow.chip = y.chip := fun y => by
    unfold Dev.notifyNow
    split
    · have hr : (y.raise 1 1).evt = y.evt := Dev.raise_evt ..
      have hc : (y.raise 1 1).chip = y.chip := Dev.raise_chip ..
      exact ⟨(congrArg EventState.logOpen hr : (y.raise 1 1).evt.logOpen = y.evt.logOpen), hc⟩
    · exact ⟨rfl, rfl⟩
  unfold Dev.setDegraded
  extract_lets d1
  have h1 : d1.evt.logOpen = d.evt.logOpen := rfl
  have hc1 : d1.chip.statsLoaded = d.chip.statsLoaded := rfl
  clear_value d1
  refine ⟨(hn _).1.trans ((congrArg EventState.logOpen (Dev.report_bare ..)).trans h1), ?_⟩
  rw [(hn _).2, Dev.report_chip, hc1]

theorem Dev.programFoundation_open : d.programFoundation.evt = d.evt ∧ d.programFoundation.chip = d.chip :=
  ⟨Dev.evt_of_mask (Dev.programFoundation_mask (T := { store := true, nv := true }) rfl rfl d) rfl,
    Dev.chip_of_mask (Dev.programFoundation_mask (T := { store := true, nv := true }) rfl rfl d) rfl⟩

/-- The log is open once it has been read, whatever was found (R426). -/
theorem Dev.openLog_opens (saved : Nat) (env : LogReadEnv) : (d.openLog saved env).evt.logOpen = true ∧
    (d.openLog saved env).chip.statsLoaded = d.chip.statsLoaded := by
  have hlog : (d.readLog env).chip = d.chip := Dev.chip_of_mask (Dev.readLog_mask (T := { evt := true, life := true }) rfl rfl env d) rfl
  unfold Dev.openLog
  extract_lets d1 last e e1 full d2 d3
  have h2 : d2.evt.logOpen = true ∧ d2.chip = d.chip := by
    unfold d2
    split
    · have h1 : e1.evt.logOpen = true ∧ e1.chip = d.chip := ⟨rfl, hlog⟩
      clear_value e1
      split
      · exact ⟨(e1.advanceEntry_open true true).trans h1.1, (Dev.chip_of_mask (Dev.advanceEntry_mask
          (T := { evt := true, life := true, nv := true }) rfl rfl rfl true true e1) rfl).trans h1.2⟩
      · exact h1
    · exact ⟨rfl, hlog⟩
  have h3 : d3.evt.logOpen = true ∧ d3.chip = d.chip :=
    ⟨(congrArg EventState.logOpen d2.programFoundation_open.1).trans h2.1, d2.programFoundation_open.2.trans h2.2⟩
  clear_value d3
  split
  · exact ⟨(d3.setDegraded_open _ 0).1.trans h3.1, (d3.setDegraded_open _ 0).2.trans (congrArg Chip.statsLoaded h3.2)⟩
  · exact ⟨h3.1, congrArg Chip.statsLoaded h3.2⟩

/-- The chip's tables are loaded: the log is open and the counts have been read. -/
theorem Dev.loadChip_opens (sealsBad : BitVec 8) (log : LogReadEnv) : (d.loadChip sealsBad log).evt.logOpen = true ∧
    (d.loadChip sealsBad log).chip.statsLoaded = true := by
  unfold Dev.loadChip
  extract_lets c own e
  have hs : e.chip.statsLoaded = true := rfl
  clear_value e
  obtain ⟨ho, hk⟩ := (e.loadKeys c.keys).openLog_opens c.lifetime.nextSeq log
  refine ⟨ho, hk.trans ?_⟩
  rw [← hs]
  exact congrArg Chip.statsLoaded (Dev.chip_of_mask (Dev.loadKeys_mask (T := { evt := true, life := true, keys := true })
    rfl rfl rfl c.keys e) rfl)

end

theorem startIndexLoad_runs {s : State} (a b : BitVec 8) (log : LogReadEnv) (ms : W32) (h : s.dev.mayStart 7 = true) :
    ∃ d', exec (.startIndexLoad a b log ms) s = .next { s with dev := d' } ∧ d'.evt.logOpen = true ∧
      d'.chip.statsLoaded = true ∧ d'.fw.stepMs.get 0 7 = ms ∧ d'.pfail = s.dev.pfail := by
  have hexec : exec (.startIndexLoad a b log ms) s = execStartIndexLoad a b log ms s := rfl
  rw [execStartIndexLoad, onDev_guarded h] at hexec
  refine ⟨_, hexec, ?_⟩
  extract_lets d1 d2
  have hm : ((Dev.each d2.openRegions (Dev.loadRegion a) d2).loadChip a log).mask .allButFlush = d1.mask .allButFlush :=
    (Dev.loadChip_mask rfl rfl rfl rfl rfl rfl rfl rfl rfl a log _).trans
      ((Dev.each_mask _ _ _ fun r e => Dev.loadRegion_mask rfl a r e).trans
        (Dev.each_mask _ _ _ fun r e => Dev.fenceRegion_mask rfl rfl rfl rfl rfl rfl rfl rfl rfl r 5 e))
  obtain ⟨ho, hs⟩ := (Dev.each d2.openRegions (Dev.loadRegion a) d2).loadChip_opens a log
  refine ⟨ho, hs, ?_, ?_⟩
  · rw [Dev.fw_of_mask hm rfl]
    exact Tab.get_set_self ..
  · exact (Dev.pfail_of_mask hm rfl).trans rfl

/-! ## Steps 8 and 9 (R216, R225) -/

theorem startReplay_runs {s : State} (found : ReplayRead) (ms : W32) (h : s.dev.mayStart 8 = true) :
    ∃ d', exec (.startReplay found ms) s = .next { s with dev := d' } ∧ d'.chip.step = 8 ∧ d'.fw.stepMs.get 0 8 = ms ∧
      d'.eng = s.dev.eng ∧ d'.net = s.dev.net ∧ d'.pcie = s.dev.pcie := by
  have hexec : exec (.startReplay found ms) s = execStartReplay found ms s := rfl
  rw [execStartReplay, onDev_guarded h] at hexec
  have hm := replayStep_mask (T := { pfail := true, evt := true, life := true, keys := true, store := true, nv := true })
    rfl rfl rfl rfl rfl rfl found (s.dev.stepEnds 8 ms)
  refine ⟨_, hexec, congrArg Chip.step (Dev.chip_of_mask hm rfl), ?_, (Dev.eng_of_mask hm rfl).trans rfl,
    (Dev.net_of_mask hm rfl).trans rfl, (Dev.pcie_of_mask hm rfl).trans rfl⟩
  rw [Dev.fw_of_mask hm rfl]
  exact Dev.stepEnds_time _ 8 ms

theorem startWakePatrolScheduling_runs {s : State} (ms : W32) (h : s.dev.mayStart 9 = true) :
    ∃ d', exec (.startWakePatrolScheduling ms) s = .next { s with dev := d' } ∧ d'.chip.step = 9 ∧
      d'.fw.stepMs.get 0 9 = ms ∧ d'.nv = s.dev.nv := by
  have hexec : exec (.startWakePatrolScheduling ms) s = execStartWakePatrolScheduling ms s := rfl
  rw [execStartWakePatrolScheduling, onDev_guarded h] at hexec
  have hm : (Dev.each s.dev.openRegions Dev.scheduleWake (s.dev.stepEnds 9 ms)).mask { evt := true, life := true, store := true } =
      (s.dev.stepEnds 9 ms).mask { evt := true, life := true, store := true } :=
    Dev.each_mask _ _ _ fun r e => Dev.scheduleWake_mask rfl rfl rfl r e
  refine ⟨_, hexec, congrArg Chip.step (Dev.chip_of_mask hm rfl), ?_, (Dev.nv_of_mask hm rfl).trans rfl⟩
  rw [Dev.fw_of_mask hm rfl]
  exact Dev.stepEnds_time _ 9 ms

/-! ## Step 10 (R153, R281, R395) -/

/-- Service is open: the state is 1, and no step is left. -/
theorem Dev.openService_state (d : Dev) (fu : Fuses) (m : Memories) : (d.openService fu m).chip.state = 1 ∧
    (d.openService fu m).chip.step = 0 := by
  unfold Dev.openService
  extract_lets rules d1 d2
  have hc := Dev.chip_of_mask (Dev.pumpAll_mask (T := { out := true, eng := true, pcie := true }) rfl rfl rfl
    (d2.onChip fun c => { c with state := 1, step := 0 })) rfl
  rw [hc]
  exact ⟨rfl, rfl⟩

theorem startServiceOpen_runs {s : State} (ms : W32) (h : s.dev.mayStart 10 = true) (htrial : s.dev.fw.onTrial = false) :
    ∃ d', exec (.startServiceOpen ms) s = .next { s with dev := d' } ∧ d'.chip.state = 1 ∧ d'.chip.step = 0 := by
  have hexec : exec (.startServiceOpen ms) s = execStartServiceOpen ms s := rfl
  have ht : (s.dev.stepEnds 10 ms).fw.onTrial = false := htrial
  rw [execStartServiceOpen, onDev_guarded h] at hexec
  simp only [ht, Bool.false_and, Bool.false_eq_true, if_false] at hexec
  have hc := Dev.chip_of_mask (Dev.serviceOpened_mask (T := { evt := true, life := true, nv := true }) rfl rfl rfl
    ((s.dev.stepEnds 10 ms).openService s.fuses s.mem)) rfl
  refine ⟨_, hexec, ?_⟩
  rw [hc]
  exact Dev.openService_state ..

/-- Settles O2, step by step: what each leaves itself, and by the frame of what runs after it within the step. -/
theorem startStepsRun : Obligations.StartStepsRun := by
  unfold Obligations.StartStepsRun
  exact ⟨⟨fun s r h1 h2 h3 h4 h5 h6 => startRom_runs h1 h2 h3 h4 h5 h6, fun s ms h => startNor_runs ms h,
    fun s ms h ht => ⟨startManagementFirmware_runs ms h ht, startManagementFirmware_fails ms h ht⟩,
    fun s trained ms h => ⟨startDramTraining_runs trained ms h, startDramTraining_good ms h⟩,
    fun s cs rows ms h => startMicrocodeLoad_runs cs rows ms h⟩,
    fun s cp ms h => startKeystoneRead_runs cp ms h, fun s cp ms h hn => startKeystoneRead_blank cp ms h hn,
    fun s a b log ms h => startIndexLoad_runs a b log ms h, fun s found ms h => startReplay_runs found ms h,
    fun s ms h => startWakePatrolScheduling_runs ms h, fun s ms h ht => startServiceOpen_runs ms h ht⟩

end Sys2Proof.Machine
end
